-- ==== Sys2Proof/Word.lean ====
section
/-! DEFINITION. The word types of the module: a byte, a 32-bit register word (R7), a 64-bit pair (R10), a 32-byte
unit of the fabric (R200), and the master numbers of R409, R421 and R477. -/

namespace Sys2Proof

/-- A byte of memory or of a packet. -/
abbrev Byte := BitVec 8

/-- A register or a 32-bit word of a record (R7: 32 bits, little-endian). -/
abbrev Word := BitVec 32

/-- A 64-bit value, held as an _LO/_HI pair (R10). -/
abbrev DWord := BitVec 64

/-- A unit: 32 bytes, byte 0 in bits [7:0] (R104, R200). -/
abbrev XUnit := BitVec 256

/-- A master number: 0x00 hub controller, 0x01 tray controller, 0x02 PF0, 0x03 PF1, 0x10 to 0x4F virtual
functions, 0x80 + h the manager of group h (R409, R421, R477). -/
abbrev Master := BitVec 8

/-- A slice context of a module, 0 to 15 (R71). -/
abbrev Ctx := Fin 16

/-- A logical port, 0 to 15 (R227). -/
abbrev Port := Fin 16

/-- A partition, 0 to 15 (R19). -/
abbrev PartId := Fin 16

/-- A channel of a partition, 0 to 7 (R143). -/
abbrev Chan := Fin 8

end Sys2Proof
end

