-- ==== Sys2Proof/Syntax.lean ====
section
/-! DEFINITION. The commands of the module, one constructor for each row of spec/opcode_table.json, and the data
their operands carry. An operand names the unit the event happens at, the message that arrives, or the master
and the whole word of a register write. -/

namespace Sys2Proof

/-- A logical core: partition, logical cluster, logical core (R21, R22). -/
structure CoreId where
  part : Fin 16
  clus : Fin 75
  core : Fin 250
  deriving DecidableEq, Repr

/-- A core carries its current entry on: to its end, or up to the cycle, counted from the entry's issue, that has passed when
something else stops it (an abort, R133, R504). -/
structure EntryRun where
  core : CoreId
  upto : Option Nat
  deriving DecidableEq, Repr

/-- A logical cluster of a partition (R21); its router agent holds trees and records (R171). -/
structure ClusId where
  part : Fin 16
  clus : Fin 75
  deriving DecidableEq, Repr

/-- A logical update engine: partition and engine 0 to 7 (R150). -/
structure EngId where
  part : Fin 16
  eng  : Fin 8
  deriving DecidableEq, Repr

/-- A router by its mesh coordinates: X 0 to 39, Y 0 to 31 (R199). -/
structure RouterId where
  x : Fin 40
  y : Fin 32
  deriving DecidableEq, Repr

/-- The virtual channels of a router (R212). -/
inductive Vc where
  | req | rsp | esc | mgt
  deriving DecidableEq, Repr

/-- A packet: the header fields of R210 (Table 4), the payload bytes, and the payload bytes whose parity bit does not hold (R138,
R210). -/
structure Packet where
  typ     : BitVec 4
  cls     : BitVec 2
  last    : Bool
  rbw     : Bool
  len     : BitVec 11
  slice   : BitVec 12
  esc     : Bool
  epochLo : BitVec 8
  tick    : BitVec 8
  attempt : BitVec 2
  gen     : BitVec 8
  dest    : Word
  src     : Word
  count   : BitVec 16
  seq     : BitVec 16
  msg     : BitVec 16
  slot    : BitVec 12
  addr    : BitVec 40
  aux     : BitVec 8
  hcrc    : BitVec 16
  payload : List Byte
  perr    : List Nat
  deriving DecidableEq, Repr

/-- The fields of one frame message (R218, Table 2): twenty units with their tags, the sequence numbers, the
24 control bits and the CRC-32. -/
structure FrameMsg where
  units : List XUnit
  tags  : List (BitVec 7)
  seq   : BitVec 12
  ack   : BitVec 12
  cs    : BitVec 24
  crc   : Word
  deriving DecidableEq, Repr

/-- What reaches a lane's receiver in a frame time: no frame, as on a lane that is not in use, nothing that can be read, or the
2,720 PAM4 levels of a frame (R217, R218). -/
inductive LaneRx where
  | absent
  | lost
  | levels (l : List (BitVec 2))
  deriving DecidableEq, Repr

/-- What a port receives in a frame time: which of its lanes carry it, a bit for each port lane, and what each lane's receiver
meets. -/
structure LanesRx where
  act   : Word
  lanes : List LaneRx
  deriving DecidableEq, Repr

/-- What reaches a core's in port: a strand unit, or a packet (R108). -/
inductive Arrival where
  | unit (u : XUnit)
  | packet (p : Packet)
  deriving DecidableEq, Repr

/-- A repair that a slice waits for (R56): a tile republication, a spare, a tree re-root, a link or route
repair, an LPDDR5 restore, a reset that serves as the repair (R357), a record move (R203). -/
inductive Repair where
  | tile (part : Fin 16) (clus : Fin 75) (core : Fin 250) (bank : Fin 24)
  | spareCore (part : Fin 16) (clus : Fin 75) (core : Fin 250)
  | spareCluster (part : Fin 16) (clus : Fin 75)
  | spareEngine (part : Fin 16) (eng : Fin 8)
  | tree (rid : BitVec 12)
  | route
  | linkPort (p : Fin 16)
  | restore (part : Fin 16) (ch : Fin 8) (group : Nat)
  | slot (part : Fin 16) (ch : Fin 8) (header : Nat)
  | unitReset (part : Fin 16)
  | records (part : Fin 16) (ch : Fin 8)
  deriving DecidableEq, Repr

/-- A unit to be retired to a spare (R365, Table 6). -/
inductive Retiree where
  | core (clus : Fin 75) (core : Fin 250)
  | cluster (clus : Fin 75)
  | engine (eng : Fin 8)
  deriving DecidableEq, Repr

/-- A domain with a sluice (R359): a partition or the PCI Express endpoint. -/
inductive SluiceDom where
  | part (p : Fin 16)
  | endpoint
  deriving DecidableEq, Repr

/-- A fault message (R338, Table 1). -/
structure FaultMsg where
  code : BitVec 16
  inj  : Bool
  gen  : BitVec 8
  src  : Word
  addr : BitVec 48
  arg  : BitVec 16
  deriving DecidableEq, Repr

/-- Why a lane leaves service (R239, Table 9). -/
inductive LaneCause where
  | signal | uncorrectable | errorRate
  deriving DecidableEq, Repr

/-- What a report of a link change says of a port: usable, lost, or trained into a hold (R253, R322). -/
inductive LinkReport where
  | usable | lost | held
  deriving DecidableEq, Repr

/-- What ends the use of the endpoint by its host (R416, Table 5), and the release of PERST_N. -/
inductive PerstEvent where
  | asserted | released | hotReset | linkDown
  deriving DecidableEq, Repr

/-- Where liquid is sensed (R468). -/
inductive LeakSrc where
  | pin | cable
  deriving DecidableEq, Repr

/-- How a region of the crash dump answered (R352): wholly, with no word after the first `words`, with a parity hit. -/
inductive DumpAnswer where
  | ok
  | noResponse (words : Nat)
  | parity
  deriving DecidableEq, Repr

/-- How an indirect window read was answered (R489). -/
inductive IndAnswer where
  | ok | noResponse | parity
  deriving DecidableEq, Repr

/-- The readings of the sensors (R465, Table 6): die temperatures in °C, coolant in 1/16 °C, inputs. -/
structure Readings where
  dies  : List (BitVec 8)
  inlet : BitVec 16
  outlet : BitVec 16
  vin   : BitVec 10
  watts : BitVec 16
  auxV  : BitVec 10
  auxP  : BitVec 16
  deriving DecidableEq, Repr

/-- What a DISCOVER concerns: the manager sends one along a source route towards a position, or one
arrives at this module's hub (R319). -/
inductive DiscoverOp where
  | send (pos : Fin 64) (route : Word)
  | recv (p : Packet) (via : Fin 16)
  deriving DecidableEq, Repr

/-- The commands, one for each row of the opcode table, in the table's order. -/
inductive Instr where
  | registerWrite (m : Master) (off : BitVec 26) (be : BitVec 4) (v : Word)
  | snapshotRead (m : Master) (off : BitVec 26)
  | tickBoundary
  | computeStart (n : Ctx)
  | completionCheck (n : Ctx)
  | abort (slice : BitVec 12) (tick : BitVec 8) (attempt : BitVec 2) (cause : BitVec 8)
  | repairComplete (n : Ctx) (r : Repair)
  | repairLimit (n : Ctx)
  | periodArm (m : Master) (v : Word)
  | periodChange
  | sliceCmdArm (m : Master) (n : Ctx) (v : Word)
  | resume (n : Ctx)
  | hold (n : Ctx)
  | discard (n : Ctx)
  | supplyDip (vin : BitVec 10)
  | supplyRecover (vin : BitVec 10)
  | stretchWithdraw
  | syncSend (p : Port)
  | sync (p : Port) (step : BitVec 16) (tb : BitVec 20) (locked stretch : Bool)
  | syncAcquire (step : DWord) (tb : BitVec 20)
  | syncLost
  | tckSyncMaxClear (m : Master) (v : Word)
  | calibrationSlot (n : Ctx) (slot : Fin 4)
  | calibrationOverdue (part : PartId) (ch : Chan)
  | linkCalibrationWindow (p : Port) (heights widths : BitVec 8 × BitVec 8 × BitVec 8)
  | matmul (e : EntryRun)
  | matmulT (e : EntryRun)
  | outer (e : EntryRun)
  | vecAdd (e : EntryRun)
  | vecSub (e : EntryRun)
  | vecMul (e : EntryRun)
  | vecFma (e : EntryRun)
  | vecMax (e : EntryRun)
  | vecMin (e : EntryRun)
  | vecAbs (e : EntryRun)
  | vecNeg (e : EntryRun)
  | func (e : EntryRun)
  | reduceSum (e : EntryRun)
  | reduceMax (e : EntryRun)
  | reduceMaxabs (e : EntryRun)
  | reduceSumsq (e : EntryRun)
  | convert (e : EntryRun)
  | moveCopy (e : EntryRun)
  | moveOut (e : EntryRun)
  | movePass (e : EntryRun)
  | sendDispatch (e : EntryRun)
  | sendReply (e : EntryRun)
  | waitDrain (c : CoreId)
  | waitInject (c : CoreId)
  | waitOffset (c : CoreId)
  | waitEnd (c : CoreId)
  | skipZero (c : CoreId)
  | skipEmpty (c : CoreId)
  | endEntry (c : CoreId)
  | inPortLanding (c : CoreId) (port : Bool) (a : Arrival)
  | coreStatusPoll (c : CoreId) (answers : Bool)
  | updateJobTick (e : EngId)
  | mul (e : EngId)
  | add (e : EngId)
  | fma (e : EngId)
  | sqrt (e : EngId)
  | rsqrt (e : EngId)
  | recip (e : EngId)
  | clamp (e : EngId)
  | sign (e : EngId)
  | csel (e : EngId)
  | publication (e : EngId)
  | sramScrub (k : ClusId)
  | republication (c : CoreId) (bank : Fin 24)
  | lpddr5Scrub (part : PartId) (ch : Chan)
  | mirrorRestore (part : PartId) (ch : Chan) (group : BitVec 24) (data : List Byte)
  | lpddr5Hot (part : PartId) (ch : Chan)
  | retrainOverdue (part : PartId) (ch : Chan)
  | load (m : Master) (v : Word)
  | abandon (m : Master) (v : Word)
  | rigLock (m : Master) (v : Word)
  | agentReport (n : Ctx) (agent : Word)
  | loadTimeout
  | systemAreaCopy (part : PartId)
  | warmReapply (part : PartId)
  | packetForward (r : RouterId) (inp : Fin 8) (vc : Vc)
  | escapeMove (r : RouterId) (inp : Fin 8) (vc : Vc)
  | routerFail (r : RouterId)
  | rtrClr (m : Master) (part : PartId) (v : Word)
  | rtrClrAll (m : Master) (part : PartId) (v : Word)
  | strandUnit (r : RouterId) (inp : Fin 8) (slice : BitVec 12) (sid : BitVec 12) (u : XUnit)
  | mgt (p : Packet) (via : Option Port)
  | row (p : Packet)
  | direct (p : Packet)
  | stream (p : Packet)
  | memWr (p : Packet)
  | memRd (p : Packet)
  | memRdr (p : Packet)
  | mirror (p : Packet)
  | red (p : Packet)
  | mcast (r : RouterId) (p : Packet)
  | linkCredit (port : Port) (p : Packet)
  | foldReport (p : Packet)
  | pruneReport (p : Packet)
  | treeContribution (c : CoreId) (port : Bool) (u : XUnit)
  | treeMemSource (k : ClusId) (rec : Fin 256)
  | rbwPacketClose (port : Port) (slice : BitVec 12) (sid : BitVec 12)
  | frame (port : Port) (rx : LanesRx)
  | nak (port : Port) (seq : BitVec 12)
  | ackTimeout (port : Port)
  | tickEdge (port : Port) (low : BitVec 8)
  | refuse (slice : BitVec 12) (step : BitVec 16)
  | laneDrop (port : Port) (lane : Fin 32) (seq : BitVec 12) (calib : Bool)
  | laneAdd (port : Port) (lane : Fin 32) (seq : BitVec 12)
  | ident (port : Port) (seg : BitVec 4) (data : Word)
  | echo (port : Port) (token : BitVec 12)
  | echoReply (port : Port) (token : BitVec 12)
  | trainingBlock (port : Port) (lane : Fin 32) (head pattern : List (BitVec 2))
  | signalDetect (port : Port) (lanes : Word)
  | equalizeTimeout (port : Port)
  | excludedRetry (port : Port)
  | portEnable (m : Master) (port : Port) (v : Word)
  | retrain (m : Master) (port : Port) (v : Word)
  | unpark (m : Master) (port : Port) (v : Word)
  | dataEn (m : Master) (port : Port) (v : Word)
  | expectationWrite (m : Master) (port : Port) (idx : Fin 5) (v : Word)
  | laneFault (port : Port) (lane : Fin 32) (cause : LaneCause)
  | laneClean (port : Port) (lane : Fin 32)
  | retryStorm (port : Port) (dominant : Option (Fin 32))
  | cmisMonitorPoll (port : Port) (ready : Option Bool) (rev temp : BitVec 8)
  | cmisFlagPoll (port : Port) (warn alarm : Bool) (flags : BitVec 8) (los : Word)
  | opticsAbsent (port : Port)
  | loadBroadcast (port : Port)
  | swapArm (m : Master) (v : Word)
  | tableSwap
  | escapeQuiesceEnd
  | routeTimeout (p : Packet)
  | tether (rx : Option Packet)
  | tetherReply (p : Packet)
  | leaseExpiry
  | takeover
  | termSet (p : Packet)
  | termSetReply (p : Packet)
  | termSetTimeout
  | journal (p : Packet)
  | journalReply (p : Packet)
  | handback (rx : Option Packet)
  | handbackStep
  | recoveryEnd
  | discover (d : DiscoverOp)
  | discoverReply (pos : Fin 64) (p : Packet)
  | discoveryTimeout (pos : Fin 64)
  | assign (p : Packet) (via : Port)
  | manSeg (p : Packet)
  | regWrite (p : Packet)
  | regRead (p : Packet)
  | rigPlan (p : Packet)
  | rigSeg (p : Packet)
  | resendTimer
  | rigResend (p : Packet)
  | rigReport (p : Packet)
  | sliceEvent (p : Packet)
  | memberLost (p : Packet)
  | resetNotice (p : Packet)
  | heartbeat (rx : Option Packet)
  | heartbeatLoss (mod : BitVec 12)
  | fwSeg (p : Packet) (via : Port)
  | fwSegReply (p : Packet)
  | routeRecompute (pos : Fin 64) (port : Port) (now : LinkReport)
  | sliceCmdDeadline
  | foldRound
  | foldTimeout
  | manifest (m : Master) (hseq : BitVec 16)
  | xconnect (m : Master) (hseq : BitVec 16)
  | mode (m : Master) (hseq : BitVec 16)
  | sliceReserve (m : Master) (hseq : BitVec 16)
  | sliceRelease (m : Master) (hseq : BitVec 16)
  | sliceCmd (m : Master) (hseq : BitVec 16)
  | fence (m : Master) (hseq : BitVec 16)
  | period (m : Master) (hseq : BitVec 16)
  | treeCfg (m : Master) (hseq : BitVec 16)
  | handover (m : Master) (hseq : BitVec 16)
  | fwStage (m : Master) (hseq : BitVec 16)
  | restart (m : Master) (hseq : BitVec 16)
  | adapt (m : Master) (hseq : BitVec 16)
  | floor (m : Master) (hseq : BitVec 16)
  | forward (m : Master) (hseq : BitVec 16)
  | faultMessage (f : FaultMsg)
  | sourceWindowExpiry (entry : Fin 512)
  | graveHoldLimit
  | force (m : Master) (v : Word)
  | forcedDetection
  | pulseEnd
  | srcClr (m : Master) (v : Word)
  | qPop (m : Master) (v : Word)
  | release (m : Master) (v : Word)
  | fltLock (m : Master) (v : Word)
  | dumpStart (m : Master) (v : Word)
  | dumpRegionRead (a : DumpAnswer)
  | dumpDone
  | coreReset (m : Master) (part : PartId) (v : Word)
  | clusterReset (m : Master) (part : PartId) (v : Word)
  | engineReset (m : Master) (part : PartId) (v : Word)
  | partitionReset (m : Master) (part : PartId) (v : Word)
  | remapCore (m : Master) (part : PartId) (v : Word)
  | remapCluster (m : Master) (part : PartId) (v : Word)
  | remapEngine (m : Master) (part : PartId) (v : Word)
  | rotate (m : Master) (part : PartId) (v : Word)
  | moduleReset (m : Master) (v : Word)
  | sliceContextReset (m : Master) (v : Word)
  | endpointReset (m : Master) (v : Word)
  | powerCycleRequest (m : Master) (v : Word)
  | drainComplete (d : SluiceDom)
  | drainTimeout (d : SluiceDom)
  | partitionReapply (part : PartId)
  | incidentClose
  | watchdogExpiry
  | wdtKick (m : Master) (v : Word)
  | spareReplace (part : PartId) (u : Retiree)
  | auxPowerOn (addr : BitVec 3)
  | auxLoss
  | mainInputGood
  | mainInputLoss
  | mainOvervoltage
  | supplyResetLevel (vin : BitVec 10)
  | firmwareGo (m : Master) (v : Word)
  | firmwareWaitTimeout
  | lpddr5TrainingDone
  | computeWave (failed : List CoreId)
  | powerReqActive (m : Master) (v : Word)
  | powerReqStandby (m : Master) (v : Word)
  | powerReqRetain (m : Master) (v : Word)
  | powerReqDormant (m : Master) (v : Word)
  | powerReqOff (m : Master) (v : Word)
  | transitionComplete
  | standbyMinimum
  | addressMatch
  | wakeRow
  | wakeDeadlineMiss
  | governorEvaluation (watts : BitVec 16)
  | powerLimitUnattainable
  | clockSet (m : Master) (v : Word)
  | clrMeas (m : Master) (v : Word)
  | clrRes (m : Master) (v : Word)
  | bar2Read (off : BitVec 36) (len : BitVec 13)
  | bar2Write (off : BitVec 36) (poisoned : Bool) (data : List Byte)
  | intakeRead (m : Master) (off : BitVec 36) (len : BitVec 13)
  | intakeWrite (m : Master) (off : BitVec 36) (poisoned : Bool) (data : List Byte)
  | pcieUncorrectableError (aer : BitVec 16)
  | flr (m : Master)
  | perstN (e : PerstEvent)
  | d3hotEntry (m : Master)
  | smbusIdent
  | status
  | alertCause
  | alertClr (v : BitVec 16)
  | alertEn (v : Option (BitVec 16))
  | alertResponse
  | powerReq (v : Byte)
  | smbusModuleReset (v : BitVec 16)
  | resetNotify
  | warnLevel (v : Option (BitVec 16))
  | sensors
  | faults
  | evrRead (first : Word) (n : Byte)
  | mbxSend (chan : Byte) (data : List Byte)
  | mbxRecv (chan : Byte)
  | attestStart (sel : BitVec 16) (nonce : BitVec 256)
  | attestFetch (off : Word)
  | mbxLock (m : Master) (v : Word)
  | mbxStage (m : Master) (chan : Fin 256) (word : Fin 15) (v : Word)
  | post (m : Master) (chan : Fin 256) (v : Word)
  | pop (m : Master) (chan : Fin 256)
  | mbxTimeout (chan : Fin 256)
  | dbRing (m : Master) (d : Fin 64) (v : Word)
  | clearEvr (m : Master) (v : Word)
  | clearRemap (m : Master) (v : Word)
  | enroll (m : Master) (v : Word)
  | revoke (m : Master) (v : Word)
  | raiseSvn (m : Master) (v : Word)
  | norCommit (ok : Bool)
  | counterSave
  | doeRequest (sel : BitVec 16) (nonce : BitVec 256)
  | doeAbort
  | attestationSigned
  | thermalWarning (die : Fin 21) (temp : BitVec 8)
  | thermalWithdraw
  | thermalTrip (die : Fin 21) (temp : BitVec 8)
  | leak (src : LeakSrc)
  | railOvercurrent (rail : BitVec 16)
  | sensorUpdate (r : Readings)
  | featFloorWrite (m : Master) (v : Word)
  | indirectRead (m : Master) (part : PartId) (off : BitVec 12) (a : IndAnswer)
  | rigCommit (m : Master) (v : Word)
  | fabMgrLock (m : Master) (v : Word)
  | frameTime (port : Port)
  | linkCreditSend (port : Port)
  | rbwPacket (port : Port) (p : Packet)
  | engineFailed (e : EngId)
  | sysclkLoss
  | pcieLinkUp (speed : BitVec 3) (width : BitVec 2)
  | d3hotExit (m : Master)
  | mgrSbyStart
  deriving DecidableEq, Repr

end Sys2Proof
end

