-- ==== Sys2Proof/Config.lean ====
section
/-! DEFINITION. The free values: what the spec leaves open. Each is a constant without a body, applied to the counter
State.draws or to the operands it depends on, so nothing can be proved of any one value (log entry 6). -/

namespace Sys2Proof

/-- A fresh value of the SEC_NONCE registers at each renewal (R439): the spec says when it changes, not what it is. -/
opaque Config.nonce : Nat → BitVec 256

/-- A fresh discovery nonce (R319): the spec asks for one and gives no value. -/
opaque Config.discoverNonce : Nat → BitVec 256

/-- Whether a SLH-DSA-SHAKE-256s signature verifies (R182, FIPS 205): public key, message, signature. -/
opaque Config.slhVerify256s : List Byte → List Byte → List Byte → Bool

/-- Whether a SLH-DSA-SHAKE-256f signature verifies (R320, R447): public key, message, signature. -/
opaque Config.slhVerify256f : List Byte → List Byte → List Byte → Bool

/-- The SLH-DSA-SHAKE-256f signature of a message under the three seeds (R446, R447; FIPS 205). -/
opaque Config.slhSign256f : List Byte → List Byte → List Byte

/-- The public root PK.root of SLH-DSA-SHAKE-256f key generation under SK.seed and PK.seed (R446; FIPS 205). -/
opaque Config.slhRoot256f : List Byte → List Byte

/-- Bytes of a memory whose contents the spec calls undefined, after the event with the given number (R404). -/
opaque Config.undefByte : Nat → Nat → Byte

/-- The digests of the two Darulro firmware keys in the boot ROM (R441). -/
opaque Config.romKeyDigest : Fin 2 → List Byte

/-- A consuming count read where the spec calls the number of rows undefined (R109, DIRECT mode). -/
opaque Config.directRows : Nat → Nat

/-- The result of a recipe operation of an element whose stream the host has written during the run (R156, R166). -/
opaque Config.racedWord : Nat → BitVec 32

/-- Whether a transmit tap stands at its limit when a training word asks to move it (R231). -/
opaque Config.tapLimit : Nat → Bool

/-- The tap change that a receiver asks for next as its adaptation wants it: the request code of a training word (R231). -/
opaque Config.tapAsk : Nat → Fin 8

/-- Whether a receiver has adapted to its lane, which it tells by RX_READY (R230, R231). -/
opaque Config.adapted : Nat → Bool

/-- Which of the minimal mesh directions with room a router takes (R212): an index that the router reduces. -/
opaque Config.meshPick : Nat → Nat

/-- The byte address of a NOR sector whose write failed (R434, R450). -/
opaque Config.norAddr : Nat → BitVec 32

/-- The units that an out port of a core queues before an entry that emits has no credit (R106): the spec names the credit and
gives no number. -/
opaque Config.outDepth : Nat

/-- The calibration work that falls due in a slot, in timebase units (R165): steps 1 to 3, and a full retrain where one runs. -/
opaque Config.calNeed : Nat → Nat

end Sys2Proof
end

