-- ==== Sys2Proof/Machine/Bits.lean ====
section
/-! DEFINITION. Bit fields of numbers, little-endian bytes, and ranges. -/

namespace Sys2Proof.Machine

/-- Bits [hi:lo] of `x`. -/
def bits (x hi lo : Nat) : Nat := (x >>> lo) % 2 ^ (hi + 1 - lo)

/-- Bit `i` of `x`. -/
def bit (x i : Nat) : Bool := x.testBit i

/-- 1 for true. -/
def b2n (b : Bool) : Nat := if b then 1 else 0

/-- `x` with bits [hi:lo] replaced by the low bits of `v`. -/
def setBits (x hi lo v : Nat) : Nat :=
  let w := 2 ^ (hi + 1 - lo)
  x - bits x hi lo * 2 ^ lo + (v % w) * 2 ^ lo

/-- The smaller of `x` and the largest value of `n` bits: a saturating counter (R482). -/
def sat (n x : Nat) : Nat := min x (2 ^ n - 1)

/-- The number that little-endian bytes spell. -/
def leNat : List Byte → Nat
  | [] => 0
  | b :: t => b.toNat + 256 * leNat t

/-- The `n` little-endian bytes of `x`. -/
def leBytes : Nat → Nat → List Byte
  | 0, _ => []
  | n + 1, x => BitVec.ofNat 8 x :: leBytes n (x / 256)

/-- `n` bytes from offset `o`; bytes beyond the end read 0. -/
def slice (l : List Byte) (o n : Nat) : List Byte :=
  let t := (l.drop o).take n
  t ++ List.replicate (n - t.length) 0

/-- The little-endian number in `n` bytes from offset `o`. -/
def leAt (l : List Byte) (o n : Nat) : Nat := leNat (slice l o n)

/-- The 32-bit words of a byte list. -/
def wordsOf (n : Nat) (l : List Byte) : List Word :=
  (List.range n).map (fun i => BitVec.ofNat 32 (leAt l (4 * i) 4))

/-- The bytes of a word list. -/
def bytesOf (ws : List Word) : List Byte := ws.flatMap (fun w => leBytes 4 w.toNat)

/-- A list cut to `n` elements, padded with `z`. -/
def padTo {α : Type} (n : Nat) (z : α) (l : List α) : List α :=
  let t := l.take n
  t ++ List.replicate (n - t.length) z

/-- The list with element `i` replaced. -/
def setAt {α : Type} (l : List α) (i : Nat) (v : α) : List α := l.set i v

/-- ⌈a / b⌉. -/
def ceilDiv (a b : Nat) : Nat := (a + b - 1) / b

/-- Two's complement reading of `w` bits. -/
def toInt (w x : Nat) : Int := if x < 2 ^ (w - 1) then (x : Int) else (x : Int) - (2 ^ w : Nat)

/-- Two's complement writing in `w` bits. -/
def ofInt (w : Nat) (x : Int) : Nat := (x % ((2 ^ w : Nat) : Int)).toNat

/-- `n` elements a chunk. -/
def chunks {α : Type} (n : Nat) : Nat → List α → List (List α)
  | 0, _ => []
  | f + 1, l => if l.isEmpty then [] else l.take n :: chunks n f (l.drop n)

/-- The first number below `n` for which `p` holds. -/
def firstBelow (n : Nat) (p : Nat → Bool) : Option Nat := (List.range n).find? p

/-- The count of numbers below `n` for which `p` holds. -/
def countBelow (n : Nat) (p : Nat → Bool) : Nat := ((List.range n).filter p).length

/-- The exclusive or of two byte lists. -/
def xorBytes (a b : List Byte) : List Byte := List.zipWith (· ^^^ ·) a b

/-- Number of bits set among the low `n`. -/
def popBits (n x : Nat) : Nat := countBelow n (fun i => x.testBit i)

end Sys2Proof.Machine
end

