-- ==== Sys2Proof/Machine/Digest.lean ====
section
/-! DEFINITION. The digests and check codes: SHAKE256 (PRESUMED from FIPS 202, log entry 8), the CRC-16 of the
packet header (R210, HCRC) and the CRC-32 of IEEE 802.3 (R218, R232). -/

namespace Sys2Proof.Machine

/-! ### SHAKE256

The state is one number of 1,600 bits: lane x of row y, of 64 bits, stands at bit 64 (x + 5y), so that the number is the state's
200 bytes read little-endian. -/

/-- The word `w` in each of `n` places that lie `d` bits apart. -/
def combed (n d w : Nat) : Nat := (2 ^ (n * d) - 1) / (2 ^ d - 1) * w

/-- In every row the lane `k` places further on, round the row of five. -/
def ahead (k a : Nat) : Nat :=
  let wraps := a &&& combed 5 320 (2 ^ (64 * k) - 1)
  (a - wraps) >>> (64 * k) + wraps <<< (320 - 64 * k)

/-- Every lane turned left by one bit. -/
def turned (a : Nat) : Nat :=
  let tops := a &&& combed 25 64 (2 ^ 63)
  (a - tops) <<< 1 + tops >>> 63

/-- θ: each lane takes the parities of its two neighbour columns. -/
def theta (a : Nat) : Nat :=
  let p := (a ^^^ a >>> 320 ^^^ a >>> 640 ^^^ a >>> 960 ^^^ a >>> 1280) % 2 ^ 320
  a ^^^ combed 5 320 (ahead 4 p ^^^ turned (ahead 1 p))

/-- The place to which π takes the lane at a place: column x and row y to column y and row 2x + 3y. -/
def piStep (i : Nat) : Nat := i / 5 + 5 * ((2 * (i % 5) + 3 * (i / 5)) % 5)

/-- ρ and π over the last `n` of the 24 lanes that π moves in one cycle, from the lane at place `i` on: the t-th of them is turned by
t (t + 1) / 2. Lane 0 stays. -/
def rhoPi (a : Nat) : Nat → Nat → Nat
  | 0, _ => a % 2 ^ 64
  | n + 1, i =>
    let k := (24 - n) * (25 - n) / 2 % 64
    let v := (a >>> (64 * i)) % 2 ^ 64
    (v <<< k % 2 ^ 64 + v >>> (64 - k)) <<< (64 * piStep i) + rhoPi a n (piStep i)

/-- χ: each lane with the two that follow it in its row. -/
def chi (a : Nat) : Nat := a ^^^ (ahead 2 a - (ahead 1 a &&& ahead 2 a))

/-- The shift register of ι, of polynomial x^8 + x^6 + x^5 + x^4 + 1. -/
def iotaShift (r : Nat) : Nat := if r < 128 then 2 * r else (2 * r) ^^^ 0x171

/-- Seven turns of the register: a round's constant has bit 2^j - 1 where the j-th turn starts odd. -/
def iota (r : Nat) : Nat × Nat :=
  (List.range 7).foldl (fun w j => (iotaShift w.1, w.2 + w.1 % 2 * 2 ^ (2 ^ j - 1))) (r, 0)

/-- The rounds that are left, from the register's value. -/
def rounds : Nat → Nat → Nat → Nat
  | 0, _, a => a
  | n + 1, r, a => rounds n (iota r).1 (chi (rhoPi (theta a) 24 1) ^^^ (iota r).2)

/-- The permutation of FIPS 202: 24 rounds. -/
def permute (a : Nat) : Nat := rounds 24 1 a

/-- The blocks of 136 bytes of a padded message taken in. -/
def takeIn : Nat → List Byte → Nat → Nat
  | 0, _, a => a
  | n + 1, m, a => takeIn n (m.drop 136) (permute (a ^^^ leAt m 0 136))

/-- Blocks of 136 bytes given out. -/
def giveOut : Nat → Nat → List Byte
  | 0, _ => []
  | n + 1, a => leBytes 136 a ++ giveOut n (permute a)

/-- A message in whole blocks: SHAKE's four bits 1111, then the padding, whose last bit is the block's last. -/
def shakePad (m : List Byte) : List Byte :=
  let k := 135 - m.length % 136
  m ++ leBytes (k + 1) (0x1F + 2 ^ (8 * k + 7))

/-- SHAKE256 with `n` bytes of output. -/
def shake256 (n : Nat) (m : List Byte) : List Byte :=
  let b := shakePad m
  (giveOut (ceilDiv n 136) (takeIn (b.length / 136) b 0)).take n

/-- SHAKE256 with 256-bit output. -/
def digest (m : List Byte) : List Byte := shake256 32 m

/-- A CRC bit by bit, most significant bit first: polynomial `poly` of `w` bits. -/
def crcBits (w poly : Nat) (crc : Nat) (bs : List Bool) : Nat :=
  bs.foldl (fun c b =>
    let top := c.testBit (w - 1)
    let s := (c <<< 1) % 2 ^ w
    if top != b then s ^^^ poly else s) crc

/-- The bits of a byte, most significant first. -/
def bitsMsb (b : Byte) : List Bool := (List.range 8).map (fun i => b.toNat.testBit (7 - i))

/-- HCRC: CRC-16, polynomial 0x1021, initial value 0xFFFF, not reflected (R210). -/
def crc16 (m : List Byte) : Nat := crcBits 16 0x1021 0xFFFF (m.flatMap bitsMsb)

/-- A reflected CRC bit by bit, least significant bit first. -/
def crcRefl (poly : Nat) (crc : Nat) (bs : List Bool) : Nat :=
  bs.foldl (fun c b => if c.testBit 0 != b then (c >>> 1) ^^^ poly else c >>> 1) crc

/-- The CRC-32 of IEEE 802.3 over bits in transmission order (R218: bit 0 upwards). -/
def crc32Bits (bs : List Bool) : Nat := crcRefl 0xEDB88320 0xFFFFFFFF bs ^^^ 0xFFFFFFFF

/-- The CRC-32 of IEEE 802.3 over bytes (R232). -/
def crc32 (m : List Byte) : Nat :=
  crc32Bits (m.flatMap (fun b => (List.range 8).map (fun i => b.toNat.testBit i)))

end Sys2Proof.Machine
end

