-- ==== Sys2Proof/Machine/Num.lean ====
section
/-! DEFINITION. Number formats, exact values, the accumulator, rounding, hanks and the generator (R72 to R101, R501). -/

namespace Sys2Proof.Machine

/-- An exact value: a NaN, an infinity, or a sign and a rational magnitude; −0 is `fin true 0`. -/
inductive Val where
  | nan
  | inf (neg : Bool)
  | fin (neg : Bool) (m : Rat)
  deriving DecidableEq, Repr

/-- The number flags of R100. -/
structure NFlags where
  sat : Bool := false
  accLoss : Bool := false
  poison : Bool := false
  deriving DecidableEq, Repr

/-- Both sets of flags raised. -/
def NFlags.or (a b : NFlags) : NFlags := ⟨a.sat || b.sat, a.accLoss || b.accLoss, a.poison || b.poison⟩

/-- The xorshift generator of R99 with the draws of its latest advance not yet used. -/
structure Rng where
  s    : DWord
  left : List (BitVec 16)
  deriving DecidableEq, Repr

/-- The advance of R99. -/
def xorshift (s : DWord) : DWord :=
  let s := s ^^^ (s <<< 13)
  let s := s ^^^ (s >>> 7)
  s ^^^ (s <<< 17)

/-- One 16-bit draw (R99). -/
def Rng.draw (g : Rng) : Nat × Rng :=
  match g.left with
  | r :: t => (r.toNat, ⟨g.s, t⟩)
  | [] =>
    let s := xorshift g.s
    (bits s.toNat 15 0, ⟨s, [s.extractLsb' 16 16, s.extractLsb' 32 16, s.extractLsb' 48 16]⟩)

/-- The generator's state at a commit: the first 8 bytes of SHAKE256 over seed, position and step; 0 becomes 1 (R99). -/
def rngSeed (seed pos step : Nat) : Rng :=
  let v := leNat (shake256 8 (leBytes 8 seed ++ leBytes 4 pos ++ leBytes 8 step))
  ⟨BitVec.ofNat 64 (if v = 0 then 1 else v), []⟩

/-- 2 to the power e. -/
def pow2 (e : Int) : Rat := if 0 ≤ e then mkRat (2 ^ e.toNat) 1 else mkRat 1 (2 ^ (-e).toNat)

/-- ⌊log₂ m⌋ for m > 0. -/
def flog2 (m : Rat) : Int :=
  let e : Int := (Nat.log2 m.num.toNat : Int) - (Nat.log2 m.den : Int)
  if pow2 e ≤ m then e else e - 1

/-- ⌈log₂ m⌉ for m > 0. -/
def clog2 (m : Rat) : Int :=
  let e := flog2 m
  if pow2 e = m then e else e + 1

/-- The hank element formats 0x0 to 0x5 (R76). -/
def isHank (fmt : Nat) : Bool := fmt ≤ 5

/-- The IEEE formats 0x8 to 0xA (R76). -/
def isIeee (fmt : Nat) : Bool := 8 ≤ fmt && fmt ≤ 10

/-- The format codes that are not reserved (R76). -/
def fmtKnown (fmt : Nat) : Bool := isHank fmt || isIeee fmt

/-- Exponent bits, mantissa bits and bias of a floating format (Table 1 of R76). -/
def fmtShape (fmt : Nat) : Nat × Nat × Int :=
  match fmt with
  | 0 => (2, 1, 1)
  | 1 => (3, 2, 3)
  | 2 => (2, 3, 1)
  | 3 => (4, 3, 7)
  | 4 => (5, 2, 15)
  | 8 => (8, 7, 127)
  | 9 => (5, 10, 15)
  | _ => (8, 23, 127)

/-- Element bits of a format (Table 1 of R76). -/
def fmtBits (fmt : Nat) : Nat :=
  match fmt with
  | 0 => 4
  | 1 => 6
  | 2 => 6
  | 3 => 8
  | 4 => 8
  | 5 => 8
  | 8 => 16
  | 9 => 16
  | _ => 32

/-- lo and hi of a format (Table 1 of R76). -/
def fmtLoHi (fmt : Nat) : Int × Int :=
  match fmt with
  | 0 => (-1, 3)
  | 1 => (-4, 5)
  | 2 => (-3, 3)
  | 3 => (-9, 9)
  | 4 => (-16, 17)
  | 5 => (0, 8)
  | 8 => (-7, 1)
  | _ => (-10, 1)

/-- The magnitude code of the largest finite value. -/
def maxCode (fmt : Nat) : Nat :=
  if fmt = 5 then 127 else
  let (e, m, _) := fmtShape fmt
  ((2 ^ e - (if isIeee fmt then 2 else 1)) <<< m) + (2 ^ m - 1)

/-- The magnitude a floating magnitude code stands for (R77, R79). -/
def magVal (fmt code : Nat) : Rat :=
  let (_, mb, bias) := fmtShape fmt
  let e := code >>> mb
  let m := code % 2 ^ mb
  if e = 0 then pow2 (1 - bias - mb) * mkRat m 1
  else pow2 ((e : Int) - bias - mb) * mkRat (2 ^ mb + m) 1

/-- The largest magnitude of a format (Table 1 of R76). -/
def maxVal (fmt : Nat) : Rat := if fmt = 5 then 127 else magVal fmt (maxCode fmt)

/-- The value of a hank element's code (R77, R78). -/
def elemVal (fmt code : Nat) : Rat :=
  if fmt = 5 then (toInt 8 (code % 256) : Int)
  else
    let w := fmtBits fmt - 1
    let m := magVal fmt (code % 2 ^ w)
    if code.testBit w then -m else m

/-- The value of a bfloat16, binary16 or binary32 element (R79, R80). -/
def ieeeVal (fmt x : Nat) : Val :=
  let (eb, mb, _) := fmtShape fmt
  let w := eb + mb
  let neg := x.testBit w
  let mag := x % 2 ^ w
  if mag >>> mb = 2 ^ eb - 1 then (if mag % 2 ^ mb = 0 then .inf neg else .nan)
  else .fin neg (magVal fmt mag)

/-- The unbiased exponent of an IEEE element, zeros and subnormals at the format's minimum (R81). -/
def ieeeExp (fmt x : Nat) : Int :=
  let (eb, mb, bias) := fmtShape fmt
  let e := (x >>> mb) % 2 ^ eb
  (max e 1 : Nat) - bias

/-- The canonical NaN of an IEEE format (R80). -/
def canonNan (fmt : Nat) : Nat :=
  match fmt with
  | 8 => 0x7FC0
  | 9 => 0x7E00
  | _ => 0x7FC00000

/-- The signed rational of a finite value; 0 for the others. -/
def Val.rat : Val → Rat
  | .fin neg m => if neg then -m else m
  | _ => 0

/-- The value of a rational: zero is +0. -/
def Val.ofRat (x : Rat) : Val := .fin (decide (x < 0)) (if x < 0 then -x else x)

/-- The magnitude of a finite value. -/
def Val.mag : Val → Rat
  | .fin _ m => m
  | _ => 0

/-- Whether the value is a NaN. -/
def Val.isNan : Val → Bool
  | .nan => true
  | _ => false

/-- Whether the value is finite. -/
def Val.isFin : Val → Bool
  | .fin _ _ => true
  | _ => false

/-- The sign bit. -/
def Val.neg : Val → Bool
  | .nan => false
  | .inf n => n
  | .fin n _ => n

/-- The value with its sign inverted. -/
def Val.negate : Val → Val
  | .nan => .nan
  | .inf n => .inf (!n)
  | .fin n m => .fin (!n) m

/-- The value without its sign. -/
def Val.abs : Val → Val
  | .nan => .nan
  | .inf _ => .inf false
  | .fin _ m => .fin false m

/-- a or a + 1 for q between a and a + 1, under a rounding mode and a draw (R96, R97). -/
def roundQ (rnd r : Nat) (q : Rat) : Nat :=
  let a := q.floor.toNat
  let f := q - (a : Rat)
  if rnd = 2 then
    if (f * 65536).floor.toNat + r ≥ 65536 then a + 1 else a
  else if rnd = 1 || f = 0 then a
  else if f < mkRat 1 2 then a
  else if mkRat 1 2 < f then a + 1
  else if a % 2 = 0 then a else a + 1

/-- The magnitude code of a magnitude rounded into a format, saturating on the exact magnitude (R89, R94, R96). -/
def roundMag (fmt rnd r : Nat) (m : Rat) : Nat × Bool :=
  if maxVal fmt < m then (maxCode fmt, true)
  else if m = 0 then (0, false)
  else if fmt = 5 then (roundQ rnd r m, false)
  else
    let (_, mb, bias) := fmtShape fmt
    let emin := 1 - bias
    let e := max (flog2 m) emin
    let q := m / pow2 (e - mb)
    ((e - emin).toNat * 2 ^ mb + roundQ rnd r q, false)

/-- A value rounded once into an IEEE format (R80, R89, R92). -/
def roundIeee (fmt rnd r : Nat) : Val → Nat × NFlags
  | .nan => (canonNan fmt, {})
  | .inf n =>
    let (eb, mb, _) := fmtShape fmt
    ((b2n n) * 2 ^ (eb + mb) + (2 ^ eb - 1) * 2 ^ mb, {})
  | .fin n m =>
    let (eb, mb, _) := fmtShape fmt
    let (c, s) := roundMag fmt rnd r m
    ((b2n n) * 2 ^ (eb + mb) + c, { sat := s })

/-- A quotient rounded into a hank element: zero is +0, HKI8 is symmetric (R78, R94). -/
def roundElem (fmt rnd r : Nat) (x : Rat) : Nat × NFlags :=
  let neg := decide (x < 0)
  let (c, s) := roundMag fmt rnd r (if x < 0 then -x else x)
  let code :=
    if c = 0 then 0
    else if fmt = 5 then (if neg then 256 - c else c)
    else (b2n neg) * 2 ^ (fmtBits fmt - 1) + c
  (code, { sat := s })

/-- The draw an entry in stochastic mode takes for a value (R98); other modes take none. -/
def drawIf (rnd : Nat) (g : Rng) : Nat × Rng := if rnd = 2 then g.draw else (0, g)

/-- A value rounded into an IEEE format, with its draw. -/
def roundTo (fmt rnd : Nat) (g : Rng) (v : Val) : Nat × NFlags × Rng :=
  let (r, g) := drawIf rnd g
  let (c, f) := roundIeee fmt rnd r v
  (c, f, g)

/-- A value rounded to binary32 under nearest-even, as a value again (R88). -/
def fp32 (v : Val) : Val × NFlags :=
  let (c, f) := roundIeee 10 0 0 v
  (ieeeVal 10 c, f)

/-! ### Hanks -/

/-- A hank: its scale code and 32 element codes (R72). -/
structure Hank where
  scale : Nat
  codes : List Nat
  deriving DecidableEq, Repr

/-- The bytes of element data of a hank (R75). -/
def hankBytes (fmt : Nat) : Nat := 4 * fmtBits fmt

/-- The element codes packed in element data (R75). -/
def hankUnpack (fmt : Nat) (data : List Byte) : List Nat :=
  let w := fmtBits fmt
  let x := leNat data
  (List.range 32).map (fun i => (x >>> (w * i)) % 2 ^ w)

/-- Element data of element codes (R75). -/
def hankPack (fmt : Nat) (codes : List Nat) : List Byte :=
  let w := fmtBits fmt
  leBytes (hankBytes fmt) (codes.foldr (fun c a => a * 2 ^ w + c % 2 ^ w) 0)

/-- A zero hank (R73). -/
def Hank.isZero (h : Hank) : Bool := h.scale = 0
/-- An invalid hank (R73). -/
def Hank.isInvalid (h : Hank) : Bool := h.scale = 0xFF

/-- The zero hank as it is written (R94). -/
def zeroHank : Hank := ⟨0, List.replicate 32 0⟩
/-- The invalid hank as it is written (R95). -/
def invalidHank : Hank := ⟨0xFF, List.replicate 32 0⟩

/-- The value of element i of a hank (R72, R73, R92). -/
def Hank.val (fmt : Nat) (h : Hank) (i : Nat) : Val :=
  if h.scale = 0 then .fin false 0
  else if h.scale = 0xFF then .nan
  else Val.ofRat (elemVal fmt (h.codes.getD i 0) * pow2 ((h.scale : Int) - 127))

/-- The 32 elements of R94 in order, each with its draw. -/
def hankElems (fmt rnd : Nat) (e : Int) : List Rat → Rng → List Nat × NFlags × Rng
  | [], g => ([], {}, g)
  | x :: t, g =>
    let (r, g) := drawIf rnd g
    let (c, f) := roundElem fmt rnd r (x / pow2 e)
    let (cs, fs, g) := hankElems fmt rnd e t g
    (c :: cs, f.or fs, g)

/-- The conversion of 32 values into a hank: AUTO (`fixed = none`) or FIXED scale (R93 to R95). -/
def toHank (fmt rnd : Nat) (fixed : Option Nat) (g : Rng) (xs : List Val) : Hank × NFlags × Rng :=
  if xs.any (fun v => !v.isFin) then (invalidHank, { poison := true }, g)
  else
    let rs := xs.map Val.rat
    let big := xs.foldl (fun m v => max m v.mag) 0
    let e : Int :=
      match fixed with
      | some s => (s : Int) - 127
      | none => if big = 0 then -126 else max (-126) (min 127 (clog2 (big / maxVal fmt)))
    let (cs, f, g) := hankElems fmt rnd e rs g
    if cs.all (fun c => c = 0) then (zeroHank, f, g)
    else (⟨(e + 127).toNat, cs⟩, f, g)

/-! ### The accumulator -/

/-- A 96-bit accumulator: the integer C, the anchor exponent α of the run (none before the first contribution),
and the sticky ACC_LOSS and POISON of the run (R83, R84, R87). -/
structure Acc where
  c      : Int
  anchor : Option Int
  loss   : Bool
  poison : Bool
  deriving DecidableEq, Repr

/-- A cleared accumulator. -/
def Acc.zero : Acc := ⟨0, none, false, false⟩

/-- The accumulator's integer shifted right arithmetically by n, ACC_LOSS set if a nonzero bit falls (R84). -/
def Acc.shift (a : Acc) (n : Nat) : Acc :=
  let q := a.c / (2 ^ n : Int)
  { a with c := q, loss := a.loss || decide (q * 2 ^ n ≠ a.c) }

/-- A contribution k × 2^g in units of 2^λ, and whether nonzero bits lie below (R83, R84). -/
def contribAt (k : Int) (g lam : Int) : Int × Bool :=
  if lam ≤ g then (k * 2 ^ (g - lam).toNat, false)
  else
    let n := (lam - g).toNat
    let q := k / (2 ^ n : Int)
    (q, decide (q * 2 ^ n ≠ k))

/-- Whether a sum stays in the 96-bit range. -/
def inAccRange (x : Int) : Bool := decide (-(2 ^ 95 : Int) ≤ x) && decide (x < 2 ^ 95)

/-- A contribution k × 2^g of top exponent t added to the run (R83, R84). -/
def Acc.add (a : Acc) (k g t : Int) : Acc :=
  let a1 :=
    match a.anchor with
    | none => { a with anchor := some t }
    | some al => if al < t then { a.shift (t - al).toNat with anchor := some t } else a
  let al := a1.anchor.getD t
  let (x, l) := contribAt k g (al - 88)
  if inAccRange (a1.c + x) then { a1 with c := a1.c + x, loss := a1.loss || l }
  else
    let a2 := a1.shift 1
    let (x, l) := contribAt k g (al + 1 - 88)
    { a2 with c := a2.c + x, anchor := some (al + 1), loss := a2.loss || l }

/-- A poisoned run (R87). -/
def Acc.poisoned (a : Acc) : Acc := { a with poison := true }

/-- The accumulator's exact value C × 2^λ (R83). -/
def Acc.value (a : Acc) : Rat :=
  match a.anchor with
  | none => 0
  | some al => mkRat a.c 1 * pow2 (al - 88)

/-- The value read out under a multiplier μ: NaN stands for a poisoned readout (R87, R89, R90). -/
def Acc.readVal (a : Acc) (mu : Val) : Val :=
  if a.poison then .nan
  else match mu with
    | .fin n m =>
      let x := a.value * (if n then -m else m)
      Val.ofRat x
    | _ => .nan

/-- The flags of a readout: ACC_LOSS and POISON of the run (R84, R87, R90). -/
def Acc.readFlags (a : Acc) (mu : Val) : NFlags :=
  { accLoss := a.loss, poison := a.poison || !mu.isFin }

/-! ### Arithmetic on exact values -/

/-- A result with the flags it raises. -/
abbrev VF := Val × NFlags

/-- The canonical NaN with POISON (R88). -/
def nanPoison : VF := (.nan, { poison := true })

/-- A + B before rounding; the sign of an exact zero sum as IEEE 754 gives under the supported modes (R88). -/
def Val.add : Val → Val → Val
  | .nan, _ => .nan
  | _, .nan => .nan
  | .inf a, .inf b => if a = b then .inf a else .nan
  | .inf a, _ => .inf a
  | _, .inf b => .inf b
  | .fin na a, .fin nb b =>
    if a = 0 && b = 0 then .fin (na && nb) 0
    else Val.ofRat ((if na then -a else a) + (if nb then -b else b))

/-- A × B before rounding. -/
def Val.mul : Val → Val → Val
  | .nan, _ => .nan
  | _, .nan => .nan
  | .inf a, .inf b => .inf (a != b)
  | .inf a, .fin b m => if m = 0 then .nan else .inf (a != b)
  | .fin a m, .inf b => if m = 0 then .nan else .inf (a != b)
  | .fin a m, .fin b n => .fin (a != b) (m * n)

/-- Whether a is ranked below b; +0 above −0 (R501). -/
def Val.below : Val → Val → Bool
  | .nan, _ => false
  | _, .nan => false
  | .inf a, .inf b => a && !b
  | .inf a, .fin _ _ => a
  | .fin _ _, .inf b => !b
  | .fin na a, .fin nb b =>
    let x := if na then -a else a
    let y := if nb then -b else b
    if x = y then (a = 0 && na && !nb) else decide (x < y)

/-- The larger of two values under R501. -/
def Val.max (a b : Val) : Val := if a.below b then b else a
/-- The smaller of two values under R501. -/
def Val.min (a b : Val) : Val := if b.below a then b else a

/-- POISON where a NaN operand entered or an operation without one is invalid (R88). -/
def vecResult (v : Val) : VF := if v.isNan then nanPoison else (v, {})

/-- Newton's iteration for the integer square root, from above. -/
def isqrtGo : Nat → Nat → Nat → Nat
  | 0, _, x => x
  | f + 1, n, x =>
    let y := (x + n / x) / 2
    if y < x then isqrtGo f n y else x

/-- ⌊√n⌋. -/
def isqrt (n : Nat) : Nat := if n = 0 then 0 else isqrtGo 64 n (2 ^ (Nat.log2 n / 2 + 1))

/-- A rational just above or equal to the square root of m with the same rounding into every destination: the root
to `k` fraction bits with a sticky bit below. -/
def sqrtRat (m : Rat) : Rat :=
  if m = 0 then 0 else
  let k : Nat := 240
  -- √(num/den) = √(num × den) / den
  let n := m.num.toNat * m.den * 4 ^ k
  let s := isqrt n
  let s2 := if s * s = n then 2 * s else 2 * s + 1
  mkRat s2 (2 * m.den * 2 ^ k)

end Sys2Proof.Machine
end

