-- ==== Sys2Proof/Machine/Store.lean ====
section
/-! DEFINITION. Sparse data by key in one canonical form: a list of pairs, keys strictly rising, no entry equal
to what an unlisted key reads as. Registers, memories, buffers and the state of numbered units are held so. -/

namespace Sys2Proof.Machine

/-- Sparse data by key. -/
abbrev Store (α : Type) := List (Nat × α)

variable {α : Type}

/-- What key `k` reads as; `d` gives what an unlisted key reads as. -/
def Store.get (d : Nat → α) : Store α → Nat → α
  | [], k => d k
  | (a, v) :: t, k => if a = k then v else Store.get d t k

/-- The store with key `k` removed. -/
def Store.erase : Store α → Nat → Store α
  | [], _ => []
  | (a, v) :: t, k => if a = k then Store.erase t k else (a, v) :: Store.erase t k

/-- The store with key `k` holding `v`, for a rising list. -/
def Store.insert : Store α → Nat → α → Store α
  | [], k, v => [(k, v)]
  | (a, w) :: t, k, v =>
    if a = k then (k, v) :: t
    else if k < a then (k, v) :: (a, w) :: t
    else (a, w) :: Store.insert t k v

/-- The write of one key, which keeps the canonical form. -/
def Store.put [DecidableEq α] (d : Nat → α) (l : Store α) (k : Nat) (v : α) : Store α :=
  if v = d k then Store.erase l k else Store.insert l k v

/-- The update of one key by a function of its value. -/
def Store.upd [DecidableEq α] (d : Nat → α) (l : Store α) (k : Nat) (f : α → α) : Store α :=
  Store.put d l k (f (Store.get d l k))

/-- Every listed key for which `p` holds returns to what an unlisted key reads as. -/
def Store.clear (p : Nat → Bool) (l : Store α) : Store α :=
  l.filter (fun e => !p e.1)

/-- Keys strictly rising from `lo`, no entry equal to what an unlisted key reads as. -/
def Store.wfFrom [DecidableEq α] (d : Nat → α) : Nat → Store α → Bool
  | _, [] => true
  | lo, (a, v) :: t => decide (lo ≤ a) && decide (v ≠ d a) && Store.wfFrom d (a + 1) t

/-- The canonical form. -/
def Store.wf [DecidableEq α] (d : Nat → α) (l : Store α) : Bool   := Store.wfFrom d 0 l

/-- The set of numbers `l` without repeats, with `k` added. -/
def addKey (l : List Nat) (k : Nat) : List Nat := if l.contains k then l else l ++ [k]

end Sys2Proof.Machine
end

