-- ==== Sys2Proof/Machine/RegMap.lean ====
section
/-! DEFINITION. The register map of BAR0, from the register tables of the chapters (R71, R167, R198, R216, R246, R277,
R304, R337, R355, R377, R407, R420, R430, R432, R452, R474, R484, R487): every register's address, its writers, and
each field's bits, access code, reset value and retention class. Fields the tables do not give are reserved. -/

namespace Sys2Proof.Machine

/-- The access codes of R8. -/
inductive Access where
  | ro | rw | w1c | w1s | wo | rwl | rsv
  deriving DecidableEq, Repr

/-- The retention classes of R11. -/
inductive Retain where
  | nv | aon | mod | part | tick
  deriving DecidableEq, Repr

/-- The masters that may write a register (R477, R490): none; 0x00; 0x00 and 0x02; 0x00, 0x01 and 0x02; 0x00 and
0x01; the mailbox rules of R421; the doorbell rules of R430. -/
inductive Writers where
  | none | hub | hubHost | hubTrayHost | hubTray | mbx | doorbell
  deriving DecidableEq, Repr

/-- A field's place: the register's BAR0 offset and its bits [hi:lo]. -/
structure Fld where
  reg : Nat
  hi  : Nat
  lo  : Nat
  deriving DecidableEq, Repr

/-- A field of a register table (R7). -/
structure FieldRow where
  hi  : Nat
  lo  : Nat
  acc : Access
  rst : Nat
  ret : Retain
  deriving DecidableEq, Repr

/-- A row of the map: `n1` × `n2` copies of one register, `s1` and `s2` bytes apart. -/
structure RegRow where
  base : Nat
  n1   : Nat
  s1   : Nat
  n2   : Nat
  s2   : Nat
  wr   : Writers
  flds : List FieldRow
  deriving DecidableEq, Repr

/-- HUB_ID0 (R484). -/
def HUB_ID0.off : Nat := 0x0000000
def HUB_ID0.VENDOR : Fld := ⟨HUB_ID0.off, 15, 0⟩
def HUB_ID0.DEVICE : Fld := ⟨HUB_ID0.off, 31, 16⟩

/-- HUB_ID1 (R484). -/
def HUB_ID1.off : Nat := 0x0000004
def HUB_ID1.SSVID : Fld := ⟨HUB_ID1.off, 15, 0⟩
def HUB_ID1.SSID : Fld := ⟨HUB_ID1.off, 31, 16⟩

/-- HUB_REV (R484). -/
def HUB_REV.off : Nat := 0x0000008
def HUB_REV.REVID : Fld := ⟨HUB_REV.off, 7, 0⟩
def HUB_REV.PKG_REV : Fld := ⟨HUB_REV.off, 11, 8⟩
def HUB_REV.MAP_REV : Fld := ⟨HUB_REV.off, 23, 16⟩

/-- HUB_SERIAL_LO (R484). -/
def HUB_SERIAL_LO.off : Nat := 0x000000C
def HUB_SERIAL_LO.LO : Fld := ⟨HUB_SERIAL_LO.off, 31, 0⟩

/-- HUB_SERIAL_HI (R484). -/
def HUB_SERIAL_HI.off : Nat := 0x0000010
def HUB_SERIAL_HI.HI : Fld := ⟨HUB_SERIAL_HI.off, 31, 0⟩

/-- HUB_FEAT_FLOOR (R484). -/
def HUB_FEAT_FLOOR.off : Nat := 0x0000014
def HUB_FEAT_FLOOR.FLOOR : Fld := ⟨HUB_FEAT_FLOOR.off, 15, 0⟩

/-- HUB_MASTER (R484). -/
def HUB_MASTER.off : Nat := 0x0000018
def HUB_MASTER.MASTER : Fld := ⟨HUB_MASTER.off, 7, 0⟩

/-- HUB_CAP (R484). -/
def HUB_CAP.off (n : Nat) : Nat := 0x0000020 + 0x4 * n
def HUB_CAP.CAP (n : Nat) : Fld := ⟨HUB_CAP.off n, 31, 0⟩

/-- HUB_SCRATCH (R484). -/
def HUB_SCRATCH.off (n : Nat) : Nat := 0x0000030 + 0x4 * n
def HUB_SCRATCH.SCRATCH (n : Nat) : Fld := ⟨HUB_SCRATCH.off n, 31, 0⟩

/-- HUB_FUSE_SEL (R484). -/
def HUB_FUSE_SEL.off : Nat := 0x0000040
def HUB_FUSE_SEL.DIE : Fld := ⟨HUB_FUSE_SEL.off, 4, 0⟩
def HUB_FUSE_SEL.PAGE : Fld := ⟨HUB_FUSE_SEL.off, 8, 5⟩

/-- HUB_RST_CMD (R377). -/
def HUB_RST_CMD.off : Nat := 0x0000100
def HUB_RST_CMD.CMD : Fld := ⟨HUB_RST_CMD.off, 3, 0⟩
def HUB_RST_CMD.CTX : Fld := ⟨HUB_RST_CMD.off, 7, 4⟩

/-- HUB_RST_CTL (R377). -/
def HUB_RST_CTL.off : Nat := 0x0000104
def HUB_RST_CTL.AUTO : Fld := ⟨HUB_RST_CTL.off, 0, 0⟩
def HUB_RST_CTL.WDT_KICK : Fld := ⟨HUB_RST_CTL.off, 1, 1⟩
def HUB_RST_CTL.ESC_WIN : Fld := ⟨HUB_RST_CTL.off, 15, 8⟩
def HUB_RST_CTL.WDT : Fld := ⟨HUB_RST_CTL.off, 27, 16⟩

/-- HUB_RST_STAT (R377). -/
def HUB_RST_STAT.off : Nat := 0x0000108
def HUB_RST_STAT.HUB_OOS : Fld := ⟨HUB_RST_STAT.off, 0, 0⟩
def HUB_RST_STAT.PCIE_OOS : Fld := ⟨HUB_RST_STAT.off, 1, 1⟩
def HUB_RST_STAT.PWR_CYCLE_REQ : Fld := ⟨HUB_RST_STAT.off, 2, 2⟩
def HUB_RST_STAT.LADDER : Fld := ⟨HUB_RST_STAT.off, 10, 8⟩

/-- HUB_RST_CNT (R377). -/
def HUB_RST_CNT.off : Nat := 0x000010C
def HUB_RST_CNT.HUB_N : Fld := ⟨HUB_RST_CNT.off, 1, 0⟩
def HUB_RST_CNT.PCIE_N : Fld := ⟨HUB_RST_CNT.off, 3, 2⟩

/-- HUB_RST_MODS (R377). -/
def HUB_RST_MODS.off : Nat := 0x0000110
def HUB_RST_MODS.MODS : Fld := ⟨HUB_RST_MODS.off, 15, 0⟩

/-- HUB_PCIE_CTL (R432). -/
def HUB_PCIE_CTL.off : Nat := 0x0000200
def HUB_PCIE_CTL.MAX_SPEED : Fld := ⟨HUB_PCIE_CTL.off, 2, 0⟩
def HUB_PCIE_CTL.MAX_WIDTH : Fld := ⟨HUB_PCIE_CTL.off, 4, 3⟩
def HUB_PCIE_CTL.L0P_EN : Fld := ⟨HUB_PCIE_CTL.off, 5, 5⟩
def HUB_PCIE_CTL.L1_EN : Fld := ⟨HUB_PCIE_CTL.off, 6, 6⟩

/-- HUB_PCIE_STAT (R432). -/
def HUB_PCIE_STAT.off : Nat := 0x0000204
def HUB_PCIE_STAT.SPEED : Fld := ⟨HUB_PCIE_STAT.off, 2, 0⟩
def HUB_PCIE_STAT.WIDTH : Fld := ⟨HUB_PCIE_STAT.off, 4, 3⟩
def HUB_PCIE_STAT.FLIT : Fld := ⟨HUB_PCIE_STAT.off, 5, 5⟩
def HUB_PCIE_STAT.L0P : Fld := ⟨HUB_PCIE_STAT.off, 6, 6⟩
def HUB_PCIE_STAT.CORR : Fld := ⟨HUB_PCIE_STAT.off, 31, 16⟩

/-- HUB_BAR2_BASE (R432). -/
def HUB_BAR2_BASE.off : Nat := 0x0000208
def HUB_BAR2_BASE.BASE : Fld := ⟨HUB_BAR2_BASE.off, 9, 0⟩

/-- HUB_INTAKE_DROP (R432). -/
def HUB_INTAKE_DROP.off : Nat := 0x000020C
def HUB_INTAKE_DROP.DROP : Fld := ⟨HUB_INTAKE_DROP.off, 23, 0⟩

/-- HUB_PCIE_IRQ (R432). -/
def HUB_PCIE_IRQ.off : Nat := 0x0000210
def HUB_PCIE_IRQ.IRQ : Fld := ⟨HUB_PCIE_IRQ.off, 6, 0⟩

/-- HUB_WIN_W0 (R432). -/
def HUB_WIN_W0.off (n : Nat) : Nat := 0x0000400 + 0x10 * n
def HUB_WIN_W0.BASE_LO (n : Nat) : Fld := ⟨HUB_WIN_W0.off n, 31, 12⟩

/-- HUB_WIN_W1 (R432). -/
def HUB_WIN_W1.off (n : Nat) : Nat := 0x0000404 + 0x10 * n
def HUB_WIN_W1.BASE_HI (n : Nat) : Fld := ⟨HUB_WIN_W1.off n, 7, 0⟩

/-- HUB_WIN_W2 (R432). -/
def HUB_WIN_W2.off (n : Nat) : Nat := 0x0000408 + 0x10 * n
def HUB_WIN_W2.LIMIT (n : Nat) : Fld := ⟨HUB_WIN_W2.off n, 18, 0⟩

/-- HUB_WIN_W3 (R432). -/
def HUB_WIN_W3.off (n : Nat) : Nat := 0x000040C + 0x10 * n
def HUB_WIN_W3.VALID (n : Nat) : Fld := ⟨HUB_WIN_W3.off n, 0, 0⟩
def HUB_WIN_W3.RD (n : Nat) : Fld := ⟨HUB_WIN_W3.off n, 1, 1⟩
def HUB_WIN_W3.WR (n : Nat) : Fld := ⟨HUB_WIN_W3.off n, 2, 2⟩

/-- HUB_THERM_CTL (R474). -/
def HUB_THERM_CTL.off : Nat := 0x0000900
def HUB_THERM_CTL.WARN : Fld := ⟨HUB_THERM_CTL.off, 7, 0⟩

/-- HUB_THERM_STAT (R474). -/
def HUB_THERM_STAT.off : Nat := 0x0000904
def HUB_THERM_STAT.HOT_TEMP : Fld := ⟨HUB_THERM_STAT.off, 7, 0⟩
def HUB_THERM_STAT.HOT_DIE : Fld := ⟨HUB_THERM_STAT.off, 12, 8⟩
def HUB_THERM_STAT.WARN_ACT : Fld := ⟨HUB_THERM_STAT.off, 13, 13⟩
def HUB_THERM_STAT.LEAK_IN : Fld := ⟨HUB_THERM_STAT.off, 14, 14⟩
def HUB_THERM_STAT.LEAK_INT : Fld := ⟨HUB_THERM_STAT.off, 15, 15⟩
def HUB_THERM_STAT.TRIP : Fld := ⟨HUB_THERM_STAT.off, 16, 16⟩
def HUB_THERM_STAT.TRIP_DIE : Fld := ⟨HUB_THERM_STAT.off, 21, 17⟩

/-- HUB_COOL (R474). -/
def HUB_COOL.off : Nat := 0x0000908
def HUB_COOL.INLET : Fld := ⟨HUB_COOL.off, 15, 0⟩
def HUB_COOL.OUTLET : Fld := ⟨HUB_COOL.off, 31, 16⟩

/-- HUB_AUX (R474). -/
def HUB_AUX.off : Nat := 0x000090C
def HUB_AUX.AUX_V : Fld := ⟨HUB_AUX.off, 9, 0⟩
def HUB_AUX.AUX_P : Fld := ⟨HUB_AUX.off, 31, 16⟩

/-- HUB_DIE_TEMP (R474). -/
def HUB_DIE_TEMP.off (n : Nat) : Nat := 0x0000940 + 0x4 * n
def HUB_DIE_TEMP.TEMP (n : Nat) : Fld := ⟨HUB_DIE_TEMP.off n, 31, 0⟩

/-- TCK_CTL (R71). -/
def TCK_CTL.off : Nat := 0x0010000
def TCK_CTL.TM_EN : Fld := ⟨TCK_CTL.off, 0, 0⟩
def TCK_CTL.ROLE : Fld := ⟨TCK_CTL.off, 1, 1⟩
def TCK_CTL.SYNC_EN : Fld := ⟨TCK_CTL.off, 2, 2⟩
def TCK_CTL.PARENT : Fld := ⟨TCK_CTL.off, 11, 8⟩
def TCK_CTL.ALT_PARENT : Fld := ⟨TCK_CTL.off, 15, 12⟩
def TCK_CTL.PERIOD_ARM : Fld := ⟨TCK_CTL.off, 16, 16⟩
def TCK_CTL.LCAL_EN : Fld := ⟨TCK_CTL.off, 17, 17⟩

/-- TCK_PERIOD (R71). -/
def TCK_PERIOD.off : Nat := 0x0010004
def TCK_PERIOD.PERIOD : Fld := ⟨TCK_PERIOD.off, 19, 0⟩

/-- TCK_PERIOD_NEXT (R71). -/
def TCK_PERIOD_NEXT.off : Nat := 0x0010008
def TCK_PERIOD_NEXT.NEXT : Fld := ⟨TCK_PERIOD_NEXT.off, 19, 0⟩

/-- TCK_PERIOD_AT_LO (R71). -/
def TCK_PERIOD_AT_LO.off : Nat := 0x001000C
def TCK_PERIOD_AT_LO.LO : Fld := ⟨TCK_PERIOD_AT_LO.off, 31, 0⟩

/-- TCK_PERIOD_AT_HI (R71). -/
def TCK_PERIOD_AT_HI.off : Nat := 0x0010010
def TCK_PERIOD_AT_HI.HI : Fld := ⟨TCK_PERIOD_AT_HI.off, 31, 0⟩

/-- TCK_STEP_LO (R71). -/
def TCK_STEP_LO.off : Nat := 0x0010014
def TCK_STEP_LO.LO : Fld := ⟨TCK_STEP_LO.off, 31, 0⟩

/-- TCK_STEP_HI (R71). -/
def TCK_STEP_HI.off : Nat := 0x0010018
def TCK_STEP_HI.HI : Fld := ⟨TCK_STEP_HI.off, 31, 0⟩

/-- TCK_SYNC_STAT (R71). -/
def TCK_SYNC_STAT.off : Nat := 0x001001C
def TCK_SYNC_STAT.OFFSET : Fld := ⟨TCK_SYNC_STAT.off, 15, 0⟩
def TCK_SYNC_STAT.LOCKED : Fld := ⟨TCK_SYNC_STAT.off, 16, 16⟩
def TCK_SYNC_STAT.HOLDOVER : Fld := ⟨TCK_SYNC_STAT.off, 17, 17⟩
def TCK_SYNC_STAT.SYNC_LOST : Fld := ⟨TCK_SYNC_STAT.off, 18, 18⟩
def TCK_SYNC_STAT.STEPPED : Fld := ⟨TCK_SYNC_STAT.off, 19, 19⟩
def TCK_SYNC_STAT.ACT_PARENT : Fld := ⟨TCK_SYNC_STAT.off, 23, 20⟩

/-- TCK_SYNC_MAX (R71). -/
def TCK_SYNC_MAX.off : Nat := 0x0010020
def TCK_SYNC_MAX.MAX : Fld := ⟨TCK_SYNC_MAX.off, 15, 0⟩
def TCK_SYNC_MAX.CLR : Fld := ⟨TCK_SYNC_MAX.off, 31, 31⟩

/-- TCK_STRETCH (R71). -/
def TCK_STRETCH.off : Nat := 0x0010024
def TCK_STRETCH.ACTIVE : Fld := ⟨TCK_STRETCH.off, 0, 0⟩
def TCK_STRETCH.LOCAL : Fld := ⟨TCK_STRETCH.off, 1, 1⟩
def TCK_STRETCH.CAPPED : Fld := ⟨TCK_STRETCH.off, 2, 2⟩
def TCK_STRETCH.EPISODES : Fld := ⟨TCK_STRETCH.off, 31, 16⟩

/-- TCK_LCAL (R71). -/
def TCK_LCAL.off : Nat := 0x0010028
def TCK_LCAL.OFFSET : Fld := ⟨TCK_LCAL.off, 11, 0⟩
def TCK_LCAL.LENGTH : Fld := ⟨TCK_LCAL.off, 19, 12⟩
def TCK_LCAL.EVERY : Fld := ⟨TCK_LCAL.off, 23, 20⟩

/-- TCK_SL_CTL (R71). -/
def TCK_SL_CTL.off (n : Nat) : Nat := 0x0010100 + 0x40 * n
def TCK_SL_CTL.EN (n : Nat) : Fld := ⟨TCK_SL_CTL.off n, 0, 0⟩
def TCK_SL_CTL.CMD (n : Nat) : Fld := ⟨TCK_SL_CTL.off n, 3, 1⟩
def TCK_SL_CTL.CMD_ARM (n : Nat) : Fld := ⟨TCK_SL_CTL.off n, 4, 4⟩
def TCK_SL_CTL.MAX_REPLAY (n : Nat) : Fld := ⟨TCK_SL_CTL.off n, 6, 5⟩
def TCK_SL_CTL.OVR_HOLD (n : Nat) : Fld := ⟨TCK_SL_CTL.off n, 7, 7⟩
def TCK_SL_CTL.RPR_LIM (n : Nat) : Fld := ⟨TCK_SL_CTL.off n, 15, 8⟩
def TCK_SL_CTL.SPAN (n : Nat) : Fld := ⟨TCK_SL_CTL.off n, 17, 16⟩

/-- TCK_SL_STAT (R71). -/
def TCK_SL_STAT.off (n : Nat) : Nat := 0x0010104 + 0x40 * n
def TCK_SL_STAT.STATE (n : Nat) : Fld := ⟨TCK_SL_STAT.off n, 2, 0⟩
def TCK_SL_STAT.ATTEMPT (n : Nat) : Fld := ⟨TCK_SL_STAT.off n, 4, 3⟩
def TCK_SL_STAT.HOLD_CAUSE (n : Nat) : Fld := ⟨TCK_SL_STAT.off n, 7, 5⟩
def TCK_SL_STAT.LAST_ABORT (n : Nat) : Fld := ⟨TCK_SL_STAT.off n, 15, 8⟩
def TCK_SL_STAT.SLICE_ID (n : Nat) : Fld := ⟨TCK_SL_STAT.off n, 27, 16⟩
def TCK_SL_STAT.CMD_MISSED (n : Nat) : Fld := ⟨TCK_SL_STAT.off n, 28, 28⟩

/-- TCK_SL_STEP_LO (R71). -/
def TCK_SL_STEP_LO.off (n : Nat) : Nat := 0x0010108 + 0x40 * n
def TCK_SL_STEP_LO.LO (n : Nat) : Fld := ⟨TCK_SL_STEP_LO.off n, 31, 0⟩

/-- TCK_SL_STEP_HI (R71). -/
def TCK_SL_STEP_HI.off (n : Nat) : Nat := 0x001010C + 0x40 * n
def TCK_SL_STEP_HI.HI (n : Nat) : Fld := ⟨TCK_SL_STEP_HI.off n, 31, 0⟩

/-- TCK_SL_CMD_AT_LO (R71). -/
def TCK_SL_CMD_AT_LO.off (n : Nat) : Nat := 0x0010110 + 0x40 * n
def TCK_SL_CMD_AT_LO.LO (n : Nat) : Fld := ⟨TCK_SL_CMD_AT_LO.off n, 31, 0⟩

/-- TCK_SL_CMD_AT_HI (R71). -/
def TCK_SL_CMD_AT_HI.off (n : Nat) : Nat := 0x0010114 + 0x40 * n
def TCK_SL_CMD_AT_HI.HI (n : Nat) : Fld := ⟨TCK_SL_CMD_AT_HI.off n, 31, 0⟩

/-- TCK_SL_REPLAYS (R71). -/
def TCK_SL_REPLAYS.off (n : Nat) : Nat := 0x0010118 + 0x40 * n
def TCK_SL_REPLAYS.REPLAYS (n : Nat) : Fld := ⟨TCK_SL_REPLAYS.off n, 31, 0⟩

/-- TCK_SL_OVERRUNS (R71). -/
def TCK_SL_OVERRUNS.off (n : Nat) : Nat := 0x001011C + 0x40 * n
def TCK_SL_OVERRUNS.OVERRUNS (n : Nat) : Fld := ⟨TCK_SL_OVERRUNS.off n, 31, 0⟩

/-- TCK_SL_INTRUSIONS (R71). -/
def TCK_SL_INTRUSIONS.off (n : Nat) : Nat := 0x0010120 + 0x40 * n
def TCK_SL_INTRUSIONS.INTRUSIONS (n : Nat) : Fld := ⟨TCK_SL_INTRUSIONS.off n, 31, 0⟩

/-- TCK_SL_MARGIN (R71). -/
def TCK_SL_MARGIN.off (n : Nat) : Nat := 0x0010124 + 0x40 * n
def TCK_SL_MARGIN.MARGIN (n : Nat) : Fld := ⟨TCK_SL_MARGIN.off n, 19, 0⟩

/-- PWR_REQ (R407). -/
def PWR_REQ.off : Nat := 0x0020000
def PWR_REQ.TARGET : Fld := ⟨PWR_REQ.off, 2, 0⟩
def PWR_REQ.FORCE : Fld := ⟨PWR_REQ.off, 3, 3⟩

/-- PWR_STAT (R407). -/
def PWR_STAT.off : Nat := 0x0020004
def PWR_STAT.STATE : Fld := ⟨PWR_STAT.off, 2, 0⟩
def PWR_STAT.MOVING : Fld := ⟨PWR_STAT.off, 3, 3⟩
def PWR_STAT.TO : Fld := ⟨PWR_STAT.off, 6, 4⟩
def PWR_STAT.PEND : Fld := ⟨PWR_STAT.off, 7, 7⟩
def PWR_STAT.PEND_TGT : Fld := ⟨PWR_STAT.off, 10, 8⟩
def PWR_STAT.LP_VALID : Fld := ⟨PWR_STAT.off, 11, 11⟩
def PWR_STAT.MASK_LOST : Fld := ⟨PWR_STAT.off, 12, 12⟩
def PWR_STAT.OFF_READY : Fld := ⟨PWR_STAT.off, 13, 13⟩
def PWR_STAT.DIP : Fld := ⟨PWR_STAT.off, 14, 14⟩
def PWR_STAT.GOV : Fld := ⟨PWR_STAT.off, 15, 15⟩
def PWR_STAT.REFUSED : Fld := ⟨PWR_STAT.off, 18, 16⟩
def PWR_STAT.REPLACED : Fld := ⟨PWR_STAT.off, 19, 19⟩
def PWR_STAT.PLIM_LOW : Fld := ⟨PWR_STAT.off, 20, 20⟩
def PWR_STAT.MASTER : Fld := ⟨PWR_STAT.off, 31, 24⟩

/-- PWR_VAR (R407). -/
def PWR_VAR.off : Nat := 0x0020008
def PWR_VAR.VARIANT : Fld := ⟨PWR_VAR.off, 3, 0⟩
def PWR_VAR.CLK_FUSE : Fld := ⟨PWR_VAR.off, 15, 4⟩
def PWR_VAR.PLIM_FUSE : Fld := ⟨PWR_VAR.off, 23, 16⟩
def PWR_VAR.PKG_REV : Fld := ⟨PWR_VAR.off, 27, 24⟩

/-- PWR_CLK_SET (R407). -/
def PWR_CLK_SET.off : Nat := 0x002000C
def PWR_CLK_SET.CLK : Fld := ⟨PWR_CLK_SET.off, 11, 0⟩

/-- PWR_PLIM (R407). -/
def PWR_PLIM.off : Nat := 0x0020010
def PWR_PLIM.PLIM : Fld := ⟨PWR_PLIM.off, 7, 0⟩

/-- PWR_WARN (R407). -/
def PWR_WARN.off : Nat := 0x0020014
def PWR_WARN.WARN : Fld := ⟨PWR_WARN.off, 9, 0⟩

/-- PWR_VIN (R407). -/
def PWR_VIN.off : Nat := 0x0020018
def PWR_VIN.NOW : Fld := ⟨PWR_VIN.off, 9, 0⟩
def PWR_VIN.MIN : Fld := ⟨PWR_VIN.off, 25, 16⟩

/-- PWR_PIN (R407). -/
def PWR_PIN.off : Nat := 0x002001C
def PWR_PIN.NOW : Fld := ⟨PWR_PIN.off, 15, 0⟩
def PWR_PIN.MAX : Fld := ⟨PWR_PIN.off, 31, 16⟩

/-- PWR_RMASK (R407). -/
def PWR_RMASK.off : Nat := 0x0020020
def PWR_RMASK.BANKS : Fld := ⟨PWR_RMASK.off, 23, 0⟩
def PWR_RMASK.ROLES : Fld := ⟨PWR_RMASK.off, 28, 24⟩

/-- PWR_EVT (R407). -/
def PWR_EVT.off : Nat := 0x0020024
def PWR_EVT.DIPS : Fld := ⟨PWR_EVT.off, 7, 0⟩
def PWR_EVT.SUPPLY_RESETS : Fld := ⟨PWR_EVT.off, 15, 8⟩
def PWR_EVT.GOV : Fld := ⟨PWR_EVT.off, 23, 16⟩
def PWR_EVT.MAIN_LOSS : Fld := ⟨PWR_EVT.off, 31, 24⟩

/-- PWR_RMASK_USED (R407). -/
def PWR_RMASK_USED.off : Nat := 0x0020028
def PWR_RMASK_USED.BANKS : Fld := ⟨PWR_RMASK_USED.off, 23, 0⟩
def PWR_RMASK_USED.ROLES : Fld := ⟨PWR_RMASK_USED.off, 28, 24⟩

/-- PWR_WAKE (R407). -/
def PWR_WAKE.off : Nat := 0x002002C
def PWR_WAKE.STAGE : Fld := ⟨PWR_WAKE.off, 3, 0⟩
def PWR_WAKE.FAIL : Fld := ⟨PWR_WAKE.off, 4, 4⟩
def PWR_WAKE.WAIT_MAIN : Fld := ⟨PWR_WAKE.off, 5, 5⟩
def PWR_WAKE.COPY : Fld := ⟨PWR_WAKE.off, 6, 6⟩

/-- PWR_CTL (R407). -/
def PWR_CTL.off : Nat := 0x0020030
def PWR_CTL.CLR_MEAS : Fld := ⟨PWR_CTL.off, 0, 0⟩
def PWR_CTL.CLR_RES : Fld := ⟨PWR_CTL.off, 1, 1⟩

/-- PWR_RES_ACT_LO (R407). -/
def PWR_RES_ACT_LO.off : Nat := 0x0020040
def PWR_RES_ACT_LO.LO : Fld := ⟨PWR_RES_ACT_LO.off, 31, 0⟩

/-- PWR_RES_ACT_HI (R407). -/
def PWR_RES_ACT_HI.off : Nat := 0x0020044
def PWR_RES_ACT_HI.HI : Fld := ⟨PWR_RES_ACT_HI.off, 31, 0⟩

/-- PWR_RES_SBY_LO (R407). -/
def PWR_RES_SBY_LO.off : Nat := 0x0020048
def PWR_RES_SBY_LO.LO : Fld := ⟨PWR_RES_SBY_LO.off, 31, 0⟩

/-- PWR_RES_SBY_HI (R407). -/
def PWR_RES_SBY_HI.off : Nat := 0x002004C
def PWR_RES_SBY_HI.HI : Fld := ⟨PWR_RES_SBY_HI.off, 31, 0⟩

/-- PWR_RES_RET_LO (R407). -/
def PWR_RES_RET_LO.off : Nat := 0x0020050
def PWR_RES_RET_LO.LO : Fld := ⟨PWR_RES_RET_LO.off, 31, 0⟩

/-- PWR_RES_RET_HI (R407). -/
def PWR_RES_RET_HI.off : Nat := 0x0020054
def PWR_RES_RET_HI.HI : Fld := ⟨PWR_RES_RET_HI.off, 31, 0⟩

/-- PWR_RES_DOR_LO (R407). -/
def PWR_RES_DOR_LO.off : Nat := 0x0020058
def PWR_RES_DOR_LO.LO : Fld := ⟨PWR_RES_DOR_LO.off, 31, 0⟩

/-- PWR_RES_DOR_HI (R407). -/
def PWR_RES_DOR_HI.off : Nat := 0x002005C
def PWR_RES_DOR_HI.HI : Fld := ⟨PWR_RES_DOR_HI.off, 31, 0⟩

/-- PWR_ENTRIES (R407). -/
def PWR_ENTRIES.off : Nat := 0x0020060
def PWR_ENTRIES.ACT : Fld := ⟨PWR_ENTRIES.off, 7, 0⟩
def PWR_ENTRIES.SBY : Fld := ⟨PWR_ENTRIES.off, 15, 8⟩
def PWR_ENTRIES.RET : Fld := ⟨PWR_ENTRIES.off, 23, 16⟩
def PWR_ENTRIES.DOR : Fld := ⟨PWR_ENTRIES.off, 31, 24⟩

/-- FLT_CTL (R355). -/
def FLT_CTL.off : Nat := 0x0030000
def FLT_CTL.INJ_EN : Fld := ⟨FLT_CTL.off, 0, 0⟩
def FLT_CTL.INJ_COUNTS : Fld := ⟨FLT_CTL.off, 1, 1⟩
def FLT_CTL.INJ_PIN : Fld := ⟨FLT_CTL.off, 2, 2⟩
def FLT_CTL.LOCK : Fld := ⟨FLT_CTL.off, 31, 31⟩

/-- FLT_STAT (R355). -/
def FLT_STAT.off : Nat := 0x0030004
def FLT_STAT.GRAVE : Fld := ⟨FLT_STAT.off, 0, 0⟩
def FLT_STAT.SRC_FULL : Fld := ⟨FLT_STAT.off, 1, 1⟩
def FLT_STAT.PROMOTED : Fld := ⟨FLT_STAT.off, 2, 2⟩
def FLT_STAT.GRAVE_CODE : Fld := ⟨FLT_STAT.off, 23, 8⟩

/-- FLT_PROMO (R355). -/
def FLT_PROMO.off : Nat := 0x0030008
def FLT_PROMO.COUNT : Fld := ⟨FLT_PROMO.off, 7, 0⟩
def FLT_PROMO.WINDOW : Fld := ⟨FLT_PROMO.off, 19, 8⟩

/-- FLT_PIN (R355). -/
def FLT_PIN.off : Nat := 0x003000C
def FLT_PIN.SW_LOW : Fld := ⟨FLT_PIN.off, 0, 0⟩
def FLT_PIN.PULSING : Fld := ⟨FLT_PIN.off, 1, 1⟩
def FLT_PIN.HELD : Fld := ⟨FLT_PIN.off, 2, 2⟩
def FLT_PIN.PULSE : Fld := ⟨FLT_PIN.off, 15, 8⟩
def FLT_PIN.PULSES : Fld := ⟨FLT_PIN.off, 31, 16⟩

/-- FLT_FORCE (R355). -/
def FLT_FORCE.off : Nat := 0x0030010
def FLT_FORCE.CODE : Fld := ⟨FLT_FORCE.off, 15, 0⟩
def FLT_FORCE.GO : Fld := ⟨FLT_FORCE.off, 16, 16⟩

/-- FLT_FORCE_UNIT (R355). -/
def FLT_FORCE_UNIT.off : Nat := 0x0030014
def FLT_FORCE_UNIT.UNIT : Fld := ⟨FLT_FORCE_UNIT.off, 31, 0⟩

/-- FLT_Q_STAT (R355). -/
def FLT_Q_STAT.off : Nat := 0x0030018
def FLT_Q_STAT.QUEUED : Fld := ⟨FLT_Q_STAT.off, 10, 0⟩
def FLT_Q_STAT.LOST : Fld := ⟨FLT_Q_STAT.off, 31, 16⟩

/-- FLT_Q_POP (R355). -/
def FLT_Q_POP.off : Nat := 0x003001C
def FLT_Q_POP.POP : Fld := ⟨FLT_Q_POP.off, 31, 0⟩

/-- FLT_Q (R355). -/
def FLT_Q.off (n : Nat) : Nat := 0x0030020 + 0x4 * n
def FLT_Q.Q (n : Nat) : Fld := ⟨FLT_Q.off n, 31, 0⟩

/-- FLT_SRC_SEL (R355). -/
def FLT_SRC_SEL.off : Nat := 0x0030040
def FLT_SRC_SEL.SEL : Fld := ⟨FLT_SRC_SEL.off, 8, 0⟩

/-- FLT_SRC_STAT0 (R355). -/
def FLT_SRC_STAT0.off : Nat := 0x0030044
def FLT_SRC_STAT0.STATE : Fld := ⟨FLT_SRC_STAT0.off, 1, 0⟩
def FLT_SRC_STAT0.COUNT : Fld := ⟨FLT_SRC_STAT0.off, 9, 2⟩
def FLT_SRC_STAT0.CLASS : Fld := ⟨FLT_SRC_STAT0.off, 17, 10⟩
def FLT_SRC_STAT0.AGE : Fld := ⟨FLT_SRC_STAT0.off, 31, 18⟩

/-- FLT_SRC_STAT1 (R355). -/
def FLT_SRC_STAT1.off : Nat := 0x0030048
def FLT_SRC_STAT1.SOURCE : Fld := ⟨FLT_SRC_STAT1.off, 31, 0⟩

/-- FLT_SRC_CLR (R355). -/
def FLT_SRC_CLR.off : Nat := 0x003004C
def FLT_SRC_CLR.ENTRY : Fld := ⟨FLT_SRC_CLR.off, 8, 0⟩
def FLT_SRC_CLR.ALL : Fld := ⟨FLT_SRC_CLR.off, 31, 31⟩

/-- FLT_CNT (R355). -/
def FLT_CNT.off (n : Nat) : Nat := 0x0030050 + 0x4 * n
def FLT_CNT.CNT (n : Nat) : Fld := ⟨FLT_CNT.off n, 31, 0⟩

/-- FLT_FRZ_SEL (R355). -/
def FLT_FRZ_SEL.off : Nat := 0x0030070
def FLT_FRZ_SEL.SEL : Fld := ⟨FLT_FRZ_SEL.off, 4, 0⟩

/-- FLT_FRZ_STAT (R355). -/
def FLT_FRZ_STAT.off : Nat := 0x0030074
def FLT_FRZ_STAT.KIND : Fld := ⟨FLT_FRZ_STAT.off, 2, 0⟩
def FLT_FRZ_STAT.SLICE : Fld := ⟨FLT_FRZ_STAT.off, 14, 3⟩
def FLT_FRZ_STAT.UNIT : Fld := ⟨FLT_FRZ_STAT.off, 31, 16⟩

/-- FLT_FRZ_CMD (R355). -/
def FLT_FRZ_CMD.off : Nat := 0x0030078
def FLT_FRZ_CMD.INDEX : Fld := ⟨FLT_FRZ_CMD.off, 4, 0⟩
def FLT_FRZ_CMD.RELEASE : Fld := ⟨FLT_FRZ_CMD.off, 5, 5⟩

/-- FLT_DUMP_CTL (R355). -/
def FLT_DUMP_CTL.off : Nat := 0x0030080
def FLT_DUMP_CTL.AUTO : Fld := ⟨FLT_DUMP_CTL.off, 0, 0⟩
def FLT_DUMP_CTL.ON_SEVERE : Fld := ⟨FLT_DUMP_CTL.off, 1, 1⟩
def FLT_DUMP_CTL.START : Fld := ⟨FLT_DUMP_CTL.off, 2, 2⟩
def FLT_DUMP_CTL.HOLD_LIM : Fld := ⟨FLT_DUMP_CTL.off, 15, 8⟩

/-- FLT_DUMP_STAT (R355). -/
def FLT_DUMP_STAT.off : Nat := 0x0030084
def FLT_DUMP_STAT.BUSY : Fld := ⟨FLT_DUMP_STAT.off, 0, 0⟩
def FLT_DUMP_STAT.DONE : Fld := ⟨FLT_DUMP_STAT.off, 1, 1⟩
def FLT_DUMP_STAT.TRUNC : Fld := ⟨FLT_DUMP_STAT.off, 2, 2⟩
def FLT_DUMP_STAT.NORESP : Fld := ⟨FLT_DUMP_STAT.off, 15, 8⟩
def FLT_DUMP_STAT.BYTES : Fld := ⟨FLT_DUMP_STAT.off, 31, 16⟩

/-- FLT_DUMP_DST_LO (R355). -/
def FLT_DUMP_DST_LO.off : Nat := 0x0030088
def FLT_DUMP_DST_LO.DST : Fld := ⟨FLT_DUMP_DST_LO.off, 31, 6⟩

/-- FLT_DUMP_DST_HI (R355). -/
def FLT_DUMP_DST_HI.off : Nat := 0x003008C
def FLT_DUMP_DST_HI.DST : Fld := ⟨FLT_DUMP_DST_HI.off, 7, 0⟩

/-- FLT_DUMP_LIM (R355). -/
def FLT_DUMP_LIM.off : Nat := 0x0030090
def FLT_DUMP_LIM.LIM : Fld := ⟨FLT_DUMP_LIM.off, 15, 0⟩

/-- FLT_DUMP_WIN (R355). -/
def FLT_DUMP_WIN.off (n : Nat) : Nat := 0x0038000 + 0x4 * n
def FLT_DUMP_WIN.WIN (n : Nat) : Fld := ⟨FLT_DUMP_WIN.off n, 31, 0⟩

/-- EVR_CTL (R452). -/
def EVR_CTL.off : Nat := 0x0040000
def EVR_CTL.NOTES : Fld := ⟨EVR_CTL.off, 0, 0⟩
def EVR_CTL.FOLD : Fld := ⟨EVR_CTL.off, 15, 8⟩

/-- EVR_HEAD (R452). -/
def EVR_HEAD.off : Nat := 0x0040004
def EVR_HEAD.HEAD : Fld := ⟨EVR_HEAD.off, 31, 0⟩

/-- EVR_BASE (R452). -/
def EVR_BASE.off : Nat := 0x0040008
def EVR_BASE.BASE : Fld := ⟨EVR_BASE.off, 31, 0⟩

/-- EVR_PAGE (R452). -/
def EVR_PAGE.off : Nat := 0x004000C
def EVR_PAGE.PAGE : Fld := ⟨EVR_PAGE.off, 1, 0⟩

/-- EVR_REPEAT_AT (R452). -/
def EVR_REPEAT_AT.off : Nat := 0x0040010
def EVR_REPEAT_AT.AT : Fld := ⟨EVR_REPEAT_AT.off, 31, 0⟩

/-- EVR_WIN (R452). -/
def EVR_WIN.off (n : Nat) : Nat := 0x0048000 + 0x4 * n
def EVR_WIN.WIN (n : Nat) : Fld := ⟨EVR_WIN.off n, 31, 0⟩

/-- MBX_BIND_W0 (R420). -/
def MBX_BIND_W0.off (n : Nat) : Nat := 0x0050000 + 0x8 * n
def MBX_BIND_W0.SENDER (n : Nat) : Fld := ⟨MBX_BIND_W0.off n, 7, 0⟩
def MBX_BIND_W0.RECEIVER (n : Nat) : Fld := ⟨MBX_BIND_W0.off n, 15, 8⟩
def MBX_BIND_W0.DEPTH (n : Nat) : Fld := ⟨MBX_BIND_W0.off n, 19, 16⟩
def MBX_BIND_W0.TMO (n : Nat) : Fld := ⟨MBX_BIND_W0.off n, 27, 20⟩
def MBX_BIND_W0.VALID (n : Nat) : Fld := ⟨MBX_BIND_W0.off n, 28, 28⟩

/-- MBX_BIND_W1 (R420). -/
def MBX_BIND_W1.off (n : Nat) : Nat := 0x0050004 + 0x8 * n
def MBX_BIND_W1.VECTOR (n : Nat) : Fld := ⟨MBX_BIND_W1.off n, 10, 0⟩
def MBX_BIND_W1.IRQ_EN (n : Nat) : Fld := ⟨MBX_BIND_W1.off n, 11, 11⟩
def MBX_BIND_W1.SVECTOR (n : Nat) : Fld := ⟨MBX_BIND_W1.off n, 22, 12⟩
def MBX_BIND_W1.SIRQ_EN (n : Nat) : Fld := ⟨MBX_BIND_W1.off n, 23, 23⟩

/-- MBX_STAT (R432). -/
def MBX_STAT.off (n : Nat) : Nat := 0x0051000 + 0x4 * n
def MBX_STAT.COUNT (n : Nat) : Fld := ⟨MBX_STAT.off n, 4, 0⟩
def MBX_STAT.FULL (n : Nat) : Fld := ⟨MBX_STAT.off n, 5, 5⟩
def MBX_STAT.COLLISION (n : Nat) : Fld := ⟨MBX_STAT.off n, 6, 6⟩
def MBX_STAT.TIMEOUT (n : Nat) : Fld := ⟨MBX_STAT.off n, 7, 7⟩
def MBX_STAT.RCV_RESET (n : Nat) : Fld := ⟨MBX_STAT.off n, 8, 8⟩
def MBX_STAT.PTR_ERR (n : Nat) : Fld := ⟨MBX_STAT.off n, 9, 9⟩
def MBX_STAT.ASLEEP (n : Nat) : Fld := ⟨MBX_STAT.off n, 10, 10⟩
def MBX_STAT.SGEN_NOW (n : Nat) : Fld := ⟨MBX_STAT.off n, 23, 16⟩

/-- MBX_DBIND (R430). -/
def MBX_DBIND.off (n : Nat) : Nat := 0x0052000 + 0x4 * n
def MBX_DBIND.RINGER (n : Nat) : Fld := ⟨MBX_DBIND.off n, 7, 0⟩
def MBX_DBIND.TARGET (n : Nat) : Fld := ⟨MBX_DBIND.off n, 15, 8⟩
def MBX_DBIND.VECTOR (n : Nat) : Fld := ⟨MBX_DBIND.off n, 26, 16⟩
def MBX_DBIND.VALID (n : Nat) : Fld := ⟨MBX_DBIND.off n, 27, 27⟩

/-- MBX_DB_RING (R432). -/
def MBX_DB_RING.off (n : Nat) : Nat := 0x0052400 + 0x4 * n
def MBX_DB_RING.RING (n : Nat) : Fld := ⟨MBX_DB_RING.off n, 31, 0⟩

/-- MBX_DB_PEND (R432). -/
def MBX_DB_PEND.off (n : Nat) : Nat := 0x0052600 + 0x4 * n
def MBX_DB_PEND.PEND (n : Nat) : Fld := ⟨MBX_DB_PEND.off n, 31, 0⟩

/-- MBX_MGEN (R432). -/
def MBX_MGEN.off (n : Nat) : Nat := 0x0053000 + 0x4 * n
def MBX_MGEN.GEN (n : Nat) : Fld := ⟨MBX_MGEN.off n, 31, 0⟩

/-- MBX_CTL (R420). -/
def MBX_CTL.off : Nat := 0x0053F00
def MBX_CTL.LOCK : Fld := ⟨MBX_CTL.off, 0, 0⟩

/-- MBX_SEND (R432). -/
def MBX_SEND.off (n : Nat) (i : Nat) : Nat := 0x0054000 + 0x40 * n + 0x4 * i
def MBX_SEND.WORD (n : Nat) (i : Nat) : Fld := ⟨MBX_SEND.off n i, 31, 0⟩

/-- MBX_RECV (R432). -/
def MBX_RECV.off (n : Nat) (i : Nat) : Nat := 0x0058000 + 0x80 * n + 0x4 * i
def MBX_RECV.WORD (n : Nat) (i : Nat) : Fld := ⟨MBX_RECV.off n i, 31, 0⟩

/-- MBX_RX_HEAD (R432). -/
def MBX_RX_HEAD.off (n : Nat) : Nat := 0x0058040 + 0x80 * n
def MBX_RX_HEAD.VALID (n : Nat) : Fld := ⟨MBX_RX_HEAD.off n, 0, 0⟩
def MBX_RX_HEAD.COUNT (n : Nat) : Fld := ⟨MBX_RX_HEAD.off n, 5, 1⟩
def MBX_RX_HEAD.SGEN (n : Nat) : Fld := ⟨MBX_RX_HEAD.off n, 23, 16⟩

/-- SEC_FW_CMD (R452). -/
def SEC_FW_CMD.off : Nat := 0x0060000
def SEC_FW_CMD.GO : Fld := ⟨SEC_FW_CMD.off, 0, 0⟩

/-- SEC_FW_LEN (R452). -/
def SEC_FW_LEN.off : Nat := 0x0060004
def SEC_FW_LEN.LEN : Fld := ⟨SEC_FW_LEN.off, 24, 0⟩

/-- SEC_FW_STAT (R452). -/
def SEC_FW_STAT.off : Nat := 0x0060008
def SEC_FW_STAT.PHASE : Fld := ⟨SEC_FW_STAT.off, 2, 0⟩
def SEC_FW_STAT.WAITED : Fld := ⟨SEC_FW_STAT.off, 3, 3⟩
def SEC_FW_STAT.SOURCE : Fld := ⟨SEC_FW_STAT.off, 7, 4⟩
def SEC_FW_STAT.REFUSED : Fld := ⟨SEC_FW_STAT.off, 15, 8⟩

/-- SEC_FW_LEVEL (R452). -/
def SEC_FW_LEVEL.off : Nat := 0x006000C
def SEC_FW_LEVEL.FEAT : Fld := ⟨SEC_FW_LEVEL.off, 15, 0⟩
def SEC_FW_LEVEL.SVN : Fld := ⟨SEC_FW_LEVEL.off, 31, 16⟩

/-- SEC_AUTH_SRC_LO (R452). -/
def SEC_AUTH_SRC_LO.off : Nat := 0x0060010
def SEC_AUTH_SRC_LO.SRC : Fld := ⟨SEC_AUTH_SRC_LO.off, 31, 6⟩

/-- SEC_AUTH_SRC_HI (R452). -/
def SEC_AUTH_SRC_HI.off : Nat := 0x0060014
def SEC_AUTH_SRC_HI.SRC : Fld := ⟨SEC_AUTH_SRC_HI.off, 7, 0⟩

/-- SEC_AUTH_CMD (R452). -/
def SEC_AUTH_CMD.off : Nat := 0x0060018
def SEC_AUTH_CMD.GO : Fld := ⟨SEC_AUTH_CMD.off, 0, 0⟩

/-- SEC_AUTH_STAT (R452). -/
def SEC_AUTH_STAT.off : Nat := 0x006001C
def SEC_AUTH_STAT.BUSY : Fld := ⟨SEC_AUTH_STAT.off, 0, 0⟩
def SEC_AUTH_STAT.STATUS : Fld := ⟨SEC_AUTH_STAT.off, 15, 8⟩
def SEC_AUTH_STAT.CMD : Fld := ⟨SEC_AUTH_STAT.off, 23, 16⟩

/-- SEC_NONCE (R452). -/
def SEC_NONCE.off (n : Nat) : Nat := 0x0060020 + 0x4 * n
def SEC_NONCE.NONCE (n : Nat) : Fld := ⟨SEC_NONCE.off n, 31, 0⟩

/-- SEC_FWDIG (R452). -/
def SEC_FWDIG.off (n : Nat) : Nat := 0x0060040 + 0x4 * n
def SEC_FWDIG.FWDIG (n : Nat) : Fld := ⟨SEC_FWDIG.off n, 31, 0⟩

/-- SEC_IDPUB (R452). -/
def SEC_IDPUB.off (n : Nat) : Nat := 0x0060060 + 0x4 * n
def SEC_IDPUB.IDPUB (n : Nat) : Fld := ⟨SEC_IDPUB.off n, 31, 0⟩

/-- SEC_SVN_MIN (R452). -/
def SEC_SVN_MIN.off : Nat := 0x00600A0
def SEC_SVN_MIN.SVN : Fld := ⟨SEC_SVN_MIN.off, 15, 0⟩

/-- SEC_KEY (R452). -/
def SEC_KEY.off (n : Nat) : Nat := 0x0060100 + 0x40 * n
def SEC_KEY.KIND (n : Nat) : Fld := ⟨SEC_KEY.off n, 1, 0⟩
def SEC_KEY.VALID (n : Nat) : Fld := ⟨SEC_KEY.off n, 2, 2⟩

/-- SEC_KEY_DIG (R452). -/
def SEC_KEY_DIG.off (n : Nat) (i : Nat) : Nat := 0x0060104 + 0x40 * n + 0x4 * i
def SEC_KEY_DIG.DIG (n : Nat) (i : Nat) : Fld := ⟨SEC_KEY_DIG.off n i, 31, 0⟩

/-- SEC_FWKEY (R452). -/
def SEC_FWKEY.off (n : Nat) : Nat := 0x0060500 + 0x40 * n
def SEC_FWKEY.KIND (n : Nat) : Fld := ⟨SEC_FWKEY.off n, 1, 0⟩
def SEC_FWKEY.VALID (n : Nat) : Fld := ⟨SEC_FWKEY.off n, 2, 2⟩

/-- SEC_FWKEY_DIG (R452). -/
def SEC_FWKEY_DIG.off (n : Nat) (i : Nat) : Nat := 0x0060504 + 0x40 * n + 0x4 * i
def SEC_FWKEY_DIG.DIG (n : Nat) (i : Nat) : Fld := ⟨SEC_FWKEY_DIG.off n i, 31, 0⟩

/-- RIG_CTL (R198). -/
def RIG_CTL.off : Nat := 0x0080000
def RIG_CTL.REQ_SIG : Fld := ⟨RIG_CTL.off, 0, 0⟩
def RIG_CTL.WARM_EN : Fld := ⟨RIG_CTL.off, 1, 1⟩
def RIG_CTL.LEAD : Fld := ⟨RIG_CTL.off, 19, 8⟩
def RIG_CTL.TMO : Fld := ⟨RIG_CTL.off, 27, 20⟩
def RIG_CTL.LOCK : Fld := ⟨RIG_CTL.off, 31, 31⟩

/-- RIG_CMD (R198). -/
def RIG_CMD.off : Nat := 0x0080004
def RIG_CMD.CMD : Fld := ⟨RIG_CMD.off, 3, 0⟩
def RIG_CMD.SLICE_ID : Fld := ⟨RIG_CMD.off, 15, 4⟩

/-- RIG_SRC_LO (R198). -/
def RIG_SRC_LO.off : Nat := 0x0080008
def RIG_SRC_LO.SRC : Fld := ⟨RIG_SRC_LO.off, 31, 6⟩

/-- RIG_SRC_HI (R198). -/
def RIG_SRC_HI.off : Nat := 0x008000C
def RIG_SRC_HI.SRC : Fld := ⟨RIG_SRC_HI.off, 7, 0⟩

/-- RIG_AT_LO (R198). -/
def RIG_AT_LO.off : Nat := 0x0080010
def RIG_AT_LO.AT : Fld := ⟨RIG_AT_LO.off, 31, 0⟩

/-- RIG_AT_HI (R198). -/
def RIG_AT_HI.off : Nat := 0x0080014
def RIG_AT_HI.AT : Fld := ⟨RIG_AT_HI.off, 31, 0⟩

/-- RIG_STAT (R198). -/
def RIG_STAT.off : Nat := 0x0080018
def RIG_STAT.PHASE : Fld := ⟨RIG_STAT.off, 2, 0⟩
def RIG_STAT.BUSY : Fld := ⟨RIG_STAT.off, 3, 3⟩
def RIG_STAT.DONE : Fld := ⟨RIG_STAT.off, 15, 8⟩

/-- RIG_ERR (R198). -/
def RIG_ERR.off : Nat := 0x008001C
def RIG_ERR.CODE : Fld := ⟨RIG_ERR.off, 7, 0⟩
def RIG_ERR.SECTION : Fld := ⟨RIG_ERR.off, 23, 8⟩

/-- RIG_ERR_AGENT (R198). -/
def RIG_ERR_AGENT.off : Nat := 0x0080020
def RIG_ERR_AGENT.AGENT : Fld := ⟨RIG_ERR_AGENT.off, 31, 0⟩

/-- RIG_ERR_AUX (R198). -/
def RIG_ERR_AUX.off : Nat := 0x0080024
def RIG_ERR_AUX.AUX : Fld := ⟨RIG_ERR_AUX.off, 31, 0⟩

/-- RIG_SL_STAT (R198). -/
def RIG_SL_STAT.off (n : Nat) : Nat := 0x0080100 + 0x40 * n
def RIG_SL_STAT.SHADOW (n : Nat) : Fld := ⟨RIG_SL_STAT.off n, 1, 0⟩
def RIG_SL_STAT.ACTIVE (n : Nat) : Fld := ⟨RIG_SL_STAT.off n, 2, 2⟩
def RIG_SL_STAT.WARM (n : Nat) : Fld := ⟨RIG_SL_STAT.off n, 3, 3⟩
def RIG_SL_STAT.MISSED (n : Nat) : Fld := ⟨RIG_SL_STAT.off n, 4, 4⟩
def RIG_SL_STAT.DELTA (n : Nat) : Fld := ⟨RIG_SL_STAT.off n, 5, 5⟩
def RIG_SL_STAT.SLICE_ID (n : Nat) : Fld := ⟨RIG_SL_STAT.off n, 27, 16⟩

/-- RIG_SL_EPOCH (R198). -/
def RIG_SL_EPOCH.off (n : Nat) : Nat := 0x0080104 + 0x40 * n
def RIG_SL_EPOCH.LAST (n : Nat) : Fld := ⟨RIG_SL_EPOCH.off n, 15, 0⟩
def RIG_SL_EPOCH.LAST_VALID (n : Nat) : Fld := ⟨RIG_SL_EPOCH.off n, 16, 16⟩
def RIG_SL_EPOCH.SHADOW_LO (n : Nat) : Fld := ⟨RIG_SL_EPOCH.off n, 31, 24⟩

/-- RIG_SL_AT_LO (R198). -/
def RIG_SL_AT_LO.off (n : Nat) : Nat := 0x0080108 + 0x40 * n
def RIG_SL_AT_LO.AT (n : Nat) : Fld := ⟨RIG_SL_AT_LO.off n, 31, 0⟩

/-- RIG_SL_AT_HI (R198). -/
def RIG_SL_AT_HI.off (n : Nat) : Nat := 0x008010C + 0x40 * n
def RIG_SL_AT_HI.AT (n : Nat) : Fld := ⟨RIG_SL_AT_HI.off n, 31, 0⟩

/-- RIG_SL_DIGEST (R198). -/
def RIG_SL_DIGEST.off (n : Nat) (i : Nat) : Nat := 0x0080110 + 0x40 * n + 0x4 * i
def RIG_SL_DIGEST.DIG (n : Nat) (i : Nat) : Fld := ⟨RIG_SL_DIGEST.off n i, 31, 0⟩

/-- RIG_SL_LOCAL (R198). -/
def RIG_SL_LOCAL.off (n : Nat) (i : Nat) : Nat := 0x0080130 + 0x40 * n + 0x4 * i
def RIG_SL_LOCAL.LOCAL (n : Nat) (i : Nat) : Fld := ⟨RIG_SL_LOCAL.off n i, 31, 0⟩

/-- FAB_RT_CTL (R277). -/
def FAB_RT_CTL.off : Nat := 0x00A0000
def FAB_RT_CTL.ADAPT : Fld := ⟨FAB_RT_CTL.off, 0, 0⟩
def FAB_RT_CTL.GROUP_ESC : Fld := ⟨FAB_RT_CTL.off, 1, 1⟩
def FAB_RT_CTL.GROUP_ESC_NEXT : Fld := ⟨FAB_RT_CTL.off, 2, 2⟩
def FAB_RT_CTL.SWAP_ARM : Fld := ⟨FAB_RT_CTL.off, 3, 3⟩
def FAB_RT_CTL.ESC_WAIT : Fld := ⟨FAB_RT_CTL.off, 11, 4⟩
def FAB_RT_CTL.RT_TMO : Fld := ⟨FAB_RT_CTL.off, 19, 12⟩

/-- FAB_SELF (R277). -/
def FAB_SELF.off : Nat := 0x00A0004
def FAB_SELF.MODID : Fld := ⟨FAB_SELF.off, 11, 0⟩
def FAB_SELF.VALID : Fld := ⟨FAB_SELF.off, 12, 12⟩

/-- FAB_RT_AT_LO (R277). -/
def FAB_RT_AT_LO.off : Nat := 0x00A0008
def FAB_RT_AT_LO.AT : Fld := ⟨FAB_RT_AT_LO.off, 31, 0⟩

/-- FAB_RT_AT_HI (R277). -/
def FAB_RT_AT_HI.off : Nat := 0x00A000C
def FAB_RT_AT_HI.AT : Fld := ⟨FAB_RT_AT_HI.off, 31, 0⟩

/-- FAB_ISO_INJ (R277). -/
def FAB_ISO_INJ.off : Nat := 0x00A0010
def FAB_ISO_INJ.COUNT : Fld := ⟨FAB_ISO_INJ.off, 15, 0⟩

/-- FAB_ISO_EJ (R277). -/
def FAB_ISO_EJ.off : Nat := 0x00A0014
def FAB_ISO_EJ.COUNT : Fld := ⟨FAB_ISO_EJ.off, 15, 0⟩

/-- FAB_EPOCH_MISS (R277). -/
def FAB_EPOCH_MISS.off : Nat := 0x00A0018
def FAB_EPOCH_MISS.COUNT : Fld := ⟨FAB_EPOCH_MISS.off, 23, 0⟩

/-- FAB_RT_DROP (R277). -/
def FAB_RT_DROP.off : Nat := 0x00A001C
def FAB_RT_DROP.COUNT : Fld := ⟨FAB_RT_DROP.off, 15, 0⟩

/-- FAB_POS_ACT (R277). -/
def FAB_POS_ACT.off (n : Nat) : Nat := 0x00A1000 + 0x4 * n
def FAB_POS_ACT.E (n : Nat) : Fld := ⟨FAB_POS_ACT.off n, 31, 0⟩

/-- FAB_POS_SHD (R277). -/
def FAB_POS_SHD.off (n : Nat) : Nat := 0x00A1100 + 0x4 * n
def FAB_POS_SHD.E (n : Nat) : Fld := ⟨FAB_POS_SHD.off n, 31, 0⟩

/-- FAB_GRP_ACT (R277). -/
def FAB_GRP_ACT.off (n : Nat) (i : Nat) : Nat := 0x00A2000 + 0x10 * n + 0x4 * i
def FAB_GRP_ACT.E (n : Nat) (i : Nat) : Fld := ⟨FAB_GRP_ACT.off n i, 31, 0⟩

/-- FAB_GRP_SHD (R277). -/
def FAB_GRP_SHD.off (n : Nat) (i : Nat) : Nat := 0x00A2400 + 0x10 * n + 0x4 * i
def FAB_GRP_SHD.E (n : Nat) (i : Nat) : Fld := ⟨FAB_GRP_SHD.off n i, 31, 0⟩

/-- FAB_MGR_CTL (R337). -/
def FAB_MGR_CTL.off : Nat := 0x00A3000
def FAB_MGR_CTL.MAN_REQ_SIG : Fld := ⟨FAB_MGR_CTL.off, 0, 0⟩
def FAB_MGR_CTL.DISC_TMO : Fld := ⟨FAB_MGR_CTL.off, 11, 4⟩
def FAB_MGR_CTL.HB_LEAD : Fld := ⟨FAB_MGR_CTL.off, 23, 12⟩
def FAB_MGR_CTL.LOCK : Fld := ⟨FAB_MGR_CTL.off, 31, 31⟩

/-- FAB_MGR_STAT (R337). -/
def FAB_MGR_STAT.off : Nat := 0x00A3004
def FAB_MGR_STAT.ROLE : Fld := ⟨FAB_MGR_STAT.off, 2, 0⟩
def FAB_MGR_STAT.MODE : Fld := ⟨FAB_MGR_STAT.off, 4, 3⟩
def FAB_MGR_STAT.COORD : Fld := ⟨FAB_MGR_STAT.off, 5, 5⟩
def FAB_MGR_STAT.TETHER_OK : Fld := ⟨FAB_MGR_STAT.off, 6, 6⟩
def FAB_MGR_STAT.DISC_DONE : Fld := ⟨FAB_MGR_STAT.off, 7, 7⟩
def FAB_MGR_STAT.MIXED : Fld := ⟨FAB_MGR_STAT.off, 8, 8⟩
def FAB_MGR_STAT.FEAT_MIN : Fld := ⟨FAB_MGR_STAT.off, 31, 16⟩

/-- FAB_TERM (R337). -/
def FAB_TERM.off : Nat := 0x00A3008
def FAB_TERM.TERM : Fld := ⟨FAB_TERM.off, 31, 0⟩

/-- FAB_MGR_ID (R337). -/
def FAB_MGR_ID.off : Nat := 0x00A300C
def FAB_MGR_ID.ACTING : Fld := ⟨FAB_MGR_ID.off, 11, 0⟩
def FAB_MGR_ID.VALID : Fld := ⟨FAB_MGR_ID.off, 12, 12⟩
def FAB_MGR_ID.COORD : Fld := ⟨FAB_MGR_ID.off, 27, 16⟩
def FAB_MGR_ID.COORD_VALID : Fld := ⟨FAB_MGR_ID.off, 28, 28⟩

/-- FAB_LEASE (R337). -/
def FAB_LEASE.off : Nat := 0x00A3010
def FAB_LEASE.LEASE : Fld := ⟨FAB_LEASE.off, 15, 0⟩

/-- FAB_CMD (R337). -/
def FAB_CMD.off : Nat := 0x00A3014
def FAB_CMD.CODE : Fld := ⟨FAB_CMD.off, 7, 0⟩
def FAB_CMD.HSEQ : Fld := ⟨FAB_CMD.off, 31, 16⟩

/-- FAB_CMD_STAT (R337). -/
def FAB_CMD_STAT.off : Nat := 0x00A3018
def FAB_CMD_STAT.BUSY : Fld := ⟨FAB_CMD_STAT.off, 0, 0⟩
def FAB_CMD_STAT.STATUS : Fld := ⟨FAB_CMD_STAT.off, 15, 8⟩
def FAB_CMD_STAT.HSEQ : Fld := ⟨FAB_CMD_STAT.off, 31, 16⟩

/-- FAB_MGT_REJ (R337). -/
def FAB_MGT_REJ.off : Nat := 0x00A301C
def FAB_MGT_REJ.REJ : Fld := ⟨FAB_MGT_REJ.off, 15, 0⟩

/-- FAB_DISC (R337). -/
def FAB_DISC.off (n : Nat) : Nat := 0x00A3020 + 0x4 * n
def FAB_DISC.DISC (n : Nat) : Fld := ⟨FAB_DISC.off n, 31, 0⟩

/-- FAB_FOLD_CTL (R337). -/
def FAB_FOLD_CTL.off : Nat := 0x00A3030
def FAB_FOLD_CTL.PERIOD : Fld := ⟨FAB_FOLD_CTL.off, 7, 0⟩
def FAB_FOLD_CTL.EMISS_LIM : Fld := ⟨FAB_FOLD_CTL.off, 15, 8⟩
def FAB_FOLD_CTL.EN : Fld := ⟨FAB_FOLD_CTL.off, 16, 16⟩

/-- FAB_FOLD_STAT (R337). -/
def FAB_FOLD_STAT.off : Nat := 0x00A3034
def FAB_FOLD_STAT.ROUNDS : Fld := ⟨FAB_FOLD_STAT.off, 15, 0⟩
def FAB_FOLD_STAT.MISMATCH : Fld := ⟨FAB_FOLD_STAT.off, 23, 16⟩
def FAB_FOLD_STAT.DRIFT : Fld := ⟨FAB_FOLD_STAT.off, 24, 24⟩

/-- FAB_COORD_TERM (R337). -/
def FAB_COORD_TERM.off : Nat := 0x00A3038
def FAB_COORD_TERM.TERM : Fld := ⟨FAB_COORD_TERM.off, 31, 0⟩

/-- FAB_CMD_ARG (R337). -/
def FAB_CMD_ARG.off (n : Nat) : Nat := 0x00A3040 + 0x4 * n
def FAB_CMD_ARG.ARG (n : Nat) : Fld := ⟨FAB_CMD_ARG.off n, 31, 0⟩

/-- LNK_CTL (R246). -/
def LNK_CTL.off (n : Nat) : Nat := 0x0100000 + 0x1000 * n
def LNK_CTL.EN (n : Nat) : Fld := ⟨LNK_CTL.off n, 0, 0⟩
def LNK_CTL.DATA_EN (n : Nat) : Fld := ⟨LNK_CTL.off n, 1, 1⟩
def LNK_CTL.MEDIUM (n : Nat) : Fld := ⟨LNK_CTL.off n, 3, 2⟩
def LNK_CTL.PRECODE (n : Nat) : Fld := ⟨LNK_CTL.off n, 4, 4⟩
def LNK_CTL.LCAL_SKIP (n : Nat) : Fld := ⟨LNK_CTL.off n, 5, 5⟩
def LNK_CTL.STORM (n : Nat) : Fld := ⟨LNK_CTL.off n, 15, 8⟩
def LNK_CTL.RETRAIN (n : Nat) : Fld := ⟨LNK_CTL.off n, 16, 16⟩
def LNK_CTL.UNPARK (n : Nat) : Fld := ⟨LNK_CTL.off n, 17, 17⟩

/-- LNK_STAT (R246). -/
def LNK_STAT.off (n : Nat) : Nat := 0x0100004 + 0x1000 * n
def LNK_STAT.STATE (n : Nat) : Fld := ⟨LNK_STAT.off n, 3, 0⟩
def LNK_STAT.HOLD_CAUSE (n : Nat) : Fld := ⟨LNK_STAT.off n, 6, 4⟩
def LNK_STAT.BELOW (n : Nat) : Fld := ⟨LNK_STAT.off n, 7, 7⟩
def LNK_STAT.WIDTH (n : Nat) : Fld := ⟨LNK_STAT.off n, 13, 8⟩
def LNK_STAT.TRAINED_W (n : Nat) : Fld := ⟨LNK_STAT.off n, 19, 14⟩
def LNK_STAT.NEED_W (n : Nat) : Fld := ⟨LNK_STAT.off n, 25, 20⟩
def LNK_STAT.STORM (n : Nat) : Fld := ⟨LNK_STAT.off n, 26, 26⟩
def LNK_STAT.OOS (n : Nat) : Fld := ⟨LNK_STAT.off n, 27, 27⟩
def LNK_STAT.PEER_READY (n : Nat) : Fld := ⟨LNK_STAT.off n, 28, 28⟩

/-- LNK_GRAN0 (R246). -/
def LNK_GRAN0.off (n : Nat) : Nat := 0x0100008 + 0x1000 * n
def LNK_GRAN0.GRAN (n : Nat) : Fld := ⟨LNK_GRAN0.off n, 31, 0⟩

/-- LNK_GRAN1 (R246). -/
def LNK_GRAN1.off (n : Nat) : Nat := 0x010000C + 0x1000 * n
def LNK_GRAN1.GRAN (n : Nat) : Fld := ⟨LNK_GRAN1.off n, 3, 0⟩

/-- LNK_LANE_ACT (R246). -/
def LNK_LANE_ACT.off (n : Nat) : Nat := 0x0100010 + 0x1000 * n
def LNK_LANE_ACT.LANES (n : Nat) : Fld := ⟨LNK_LANE_ACT.off n, 31, 0⟩

/-- LNK_LANE_OUT (R246). -/
def LNK_LANE_OUT.off (n : Nat) : Nat := 0x0100014 + 0x1000 * n
def LNK_LANE_OUT.LANES (n : Nat) : Fld := ⟨LNK_LANE_OUT.off n, 31, 0⟩

/-- LNK_LANE_PARK (R246). -/
def LNK_LANE_PARK.off (n : Nat) : Nat := 0x0100018 + 0x1000 * n
def LNK_LANE_PARK.LANES (n : Nat) : Fld := ⟨LNK_LANE_PARK.off n, 31, 0⟩

/-- LNK_DELAY (R246). -/
def LNK_DELAY.off (n : Nat) : Nat := 0x010001C + 0x1000 * n
def LNK_DELAY.NS (n : Nat) : Fld := ⟨LNK_DELAY.off n, 15, 0⟩

/-- LNK_EXP (R246). -/
def LNK_EXP.off (n : Nat) (i : Nat) : Nat := 0x0100020 + 0x1000 * n + 0x4 * i
def LNK_EXP.EXP (n : Nat) (i : Nat) : Fld := ⟨LNK_EXP.off n i, 31, 0⟩

/-- LNK_EXP_ID (R246). -/
def LNK_EXP_ID.off (n : Nat) : Nat := 0x0100030 + 0x1000 * n
def LNK_EXP_ID.MODID (n : Nat) : Fld := ⟨LNK_EXP_ID.off n, 11, 0⟩
def LNK_EXP_ID.PORT (n : Nat) : Fld := ⟨LNK_EXP_ID.off n, 15, 12⟩
def LNK_EXP_ID.VALID (n : Nat) : Fld := ⟨LNK_EXP_ID.off n, 16, 16⟩

/-- LNK_PEER (R246). -/
def LNK_PEER.off (n : Nat) (i : Nat) : Nat := 0x0100040 + 0x1000 * n + 0x4 * i
def LNK_PEER.PEER (n : Nat) (i : Nat) : Fld := ⟨LNK_PEER.off n i, 31, 0⟩

/-- LNK_FEC_CORR_LO (R246). -/
def LNK_FEC_CORR_LO.off (n : Nat) : Nat := 0x0100070 + 0x1000 * n
def LNK_FEC_CORR_LO.N (n : Nat) : Fld := ⟨LNK_FEC_CORR_LO.off n, 31, 0⟩

/-- LNK_FEC_CORR_HI (R246). -/
def LNK_FEC_CORR_HI.off (n : Nat) : Nat := 0x0100074 + 0x1000 * n
def LNK_FEC_CORR_HI.N (n : Nat) : Fld := ⟨LNK_FEC_CORR_HI.off n, 31, 0⟩

/-- LNK_FEC_UNC_LO (R246). -/
def LNK_FEC_UNC_LO.off (n : Nat) : Nat := 0x0100078 + 0x1000 * n
def LNK_FEC_UNC_LO.N (n : Nat) : Fld := ⟨LNK_FEC_UNC_LO.off n, 31, 0⟩

/-- LNK_FEC_UNC_HI (R246). -/
def LNK_FEC_UNC_HI.off (n : Nat) : Nat := 0x010007C + 0x1000 * n
def LNK_FEC_UNC_HI.N (n : Nat) : Fld := ⟨LNK_FEC_UNC_HI.off n, 31, 0⟩

/-- LNK_REPLAY_LO (R246). -/
def LNK_REPLAY_LO.off (n : Nat) : Nat := 0x0100080 + 0x1000 * n
def LNK_REPLAY_LO.N (n : Nat) : Fld := ⟨LNK_REPLAY_LO.off n, 31, 0⟩

/-- LNK_REPLAY_HI (R246). -/
def LNK_REPLAY_HI.off (n : Nat) : Nat := 0x0100084 + 0x1000 * n
def LNK_REPLAY_HI.N (n : Nat) : Fld := ⟨LNK_REPLAY_HI.off n, 31, 0⟩

/-- LNK_SPLICES (R246). -/
def LNK_SPLICES.off (n : Nat) : Nat := 0x0100088 + 0x1000 * n
def LNK_SPLICES.SPLICES (n : Nat) : Fld := ⟨LNK_SPLICES.off n, 15, 0⟩
def LNK_SPLICES.LANE (n : Nat) : Fld := ⟨LNK_SPLICES.off n, 21, 16⟩

/-- LNK_MARGIN (R246). -/
def LNK_MARGIN.off (n : Nat) : Nat := 0x010008C + 0x1000 * n
def LNK_MARGIN.LANE (n : Nat) : Fld := ⟨LNK_MARGIN.off n, 5, 0⟩
def LNK_MARGIN.EYE_H (n : Nat) : Fld := ⟨LNK_MARGIN.off n, 13, 6⟩
def LNK_MARGIN.EYE_W (n : Nat) : Fld := ⟨LNK_MARGIN.off n, 21, 14⟩

/-- LNK_CMIS (R246). -/
def LNK_CMIS.off (n : Nat) : Nat := 0x0100090 + 0x1000 * n
def LNK_CMIS.PRESENT (n : Nat) : Fld := ⟨LNK_CMIS.off n, 0, 0⟩
def LNK_CMIS.READY (n : Nat) : Fld := ⟨LNK_CMIS.off n, 1, 1⟩
def LNK_CMIS.ALARM (n : Nat) : Fld := ⟨LNK_CMIS.off n, 2, 2⟩
def LNK_CMIS.MASTER (n : Nat) : Fld := ⟨LNK_CMIS.off n, 3, 3⟩
def LNK_CMIS.CHAN (n : Nat) : Fld := ⟨LNK_CMIS.off n, 7, 4⟩
def LNK_CMIS.TEMP (n : Nat) : Fld := ⟨LNK_CMIS.off n, 15, 8⟩

/-- LNK_DROPS (R246). -/
def LNK_DROPS.off (n : Nat) : Nat := 0x0100094 + 0x1000 * n
def LNK_DROPS.DROPS (n : Nat) : Fld := ⟨LNK_DROPS.off n, 15, 0⟩

/-- PRT_ID (R487). -/
def PRT_ID.off (n : Nat) : Nat := 0x0200000 + 0x10000 * n
def PRT_ID.PART (n : Nat) : Fld := ⟨PRT_ID.off n, 3, 0⟩
def PRT_ID.POWERED (n : Nat) : Fld := ⟨PRT_ID.off n, 4, 4⟩
def PRT_ID.IN_SLICE (n : Nat) : Fld := ⟨PRT_ID.off n, 5, 5⟩
def PRT_ID.SLICE_ID (n : Nat) : Fld := ⟨PRT_ID.off n, 17, 6⟩

/-- PRT_CORE_SEL (R487). -/
def PRT_CORE_SEL.off (n : Nat) : Nat := 0x0200004 + 0x10000 * n
def PRT_CORE_SEL.CLUS (n : Nat) : Fld := ⟨PRT_CORE_SEL.off n, 6, 0⟩

/-- PRT_IND_SEL (R487). -/
def PRT_IND_SEL.off (n : Nat) : Nat := 0x0200010 + 0x10000 * n
def PRT_IND_SEL.CLUS (n : Nat) : Fld := ⟨PRT_IND_SEL.off n, 6, 0⟩
def PRT_IND_SEL.CORE (n : Nat) : Fld := ⟨PRT_IND_SEL.off n, 14, 7⟩
def PRT_IND_SEL.OBJ (n : Nat) : Fld := ⟨PRT_IND_SEL.off n, 19, 15⟩
def PRT_IND_SEL.SUB (n : Nat) : Fld := ⟨PRT_IND_SEL.off n, 24, 20⟩
def PRT_IND_SEL.SHADOW (n : Nat) : Fld := ⟨PRT_IND_SEL.off n, 25, 25⟩

/-- PRT_IND_OFF (R487). -/
def PRT_IND_OFF.off (n : Nat) : Nat := 0x0200014 + 0x10000 * n
def PRT_IND_OFF.PAGE (n : Nat) : Fld := ⟨PRT_IND_OFF.off n, 3, 0⟩

/-- PRT_IND_STAT (R487). -/
def PRT_IND_STAT.off (n : Nat) : Nat := 0x0200018 + 0x10000 * n
def PRT_IND_STAT.DENIED (n : Nat) : Fld := ⟨PRT_IND_STAT.off n, 0, 0⟩
def PRT_IND_STAT.NORESP (n : Nat) : Fld := ⟨PRT_IND_STAT.off n, 1, 1⟩
def PRT_IND_STAT.PERR (n : Nat) : Fld := ⟨PRT_IND_STAT.off n, 2, 2⟩

/-- PRT_IND_WIN (R487). -/
def PRT_IND_WIN.off (n : Nat) (i : Nat) : Nat := 0x0207000 + 0x10000 * n + 0x4 * i
def PRT_IND_WIN.DATA (n : Nat) (i : Nat) : Fld := ⟨PRT_IND_WIN.off n i, 31, 0⟩

/-- PRT_CORE_STAT (R487). -/
def PRT_CORE_STAT.off (n : Nat) (i : Nat) : Nat := 0x0208000 + 0x10000 * n + 0x8 * i
def PRT_CORE_STAT.ENTRY (n : Nat) (i : Nat) : Fld := ⟨PRT_CORE_STAT.off n i, 4, 0⟩
def PRT_CORE_STAT.AT_END (n : Nat) (i : Nat) : Fld := ⟨PRT_CORE_STAT.off n i, 5, 5⟩
def PRT_CORE_STAT.PUB (n : Nat) (i : Nat) : Fld := ⟨PRT_CORE_STAT.off n i, 6, 6⟩
def PRT_CORE_STAT.SAT (n : Nat) (i : Nat) : Fld := ⟨PRT_CORE_STAT.off n i, 8, 8⟩
def PRT_CORE_STAT.ACC_LOSS (n : Nat) (i : Nat) : Fld := ⟨PRT_CORE_STAT.off n i, 9, 9⟩
def PRT_CORE_STAT.POISON (n : Nat) (i : Nat) : Fld := ⟨PRT_CORE_STAT.off n i, 10, 10⟩
def PRT_CORE_STAT.DROP (n : Nat) (i : Nat) : Fld := ⟨PRT_CORE_STAT.off n i, 11, 11⟩
def PRT_CORE_STAT.LATE (n : Nat) (i : Nat) : Fld := ⟨PRT_CORE_STAT.off n i, 12, 12⟩
def PRT_CORE_STAT.FIRST (n : Nat) (i : Nat) : Fld := ⟨PRT_CORE_STAT.off n i, 17, 13⟩

/-- PRT_CORE_CNT (R487). -/
def PRT_CORE_CNT.off (n : Nat) (i : Nat) : Nat := 0x0208004 + 0x10000 * n + 0x8 * i
def PRT_CORE_CNT.RCV0 (n : Nat) (i : Nat) : Fld := ⟨PRT_CORE_CNT.off n i, 9, 0⟩
def PRT_CORE_CNT.RCV1 (n : Nat) (i : Nat) : Fld := ⟨PRT_CORE_CNT.off n i, 19, 10⟩
def PRT_CORE_CNT.DROPS (n : Nat) (i : Nat) : Fld := ⟨PRT_CORE_CNT.off n i, 31, 20⟩

/-- PRT_MEM_CTL (R167). -/
def PRT_MEM_CTL.off (n : Nat) : Nat := 0x0201000 + 0x10000 * n
def PRT_MEM_CTL.SWEEP (n : Nat) : Fld := ⟨PRT_MEM_CTL.off n, 16, 0⟩

/-- PRT_MEM_STAT (R167). -/
def PRT_MEM_STAT.off (n : Nat) : Nat := 0x0201004 + 0x10000 * n
def PRT_MEM_STAT.TRAINED (n : Nat) : Fld := ⟨PRT_MEM_STAT.off n, 7, 0⟩
def PRT_MEM_STAT.DEGRADED (n : Nat) : Fld := ⟨PRT_MEM_STAT.off n, 15, 8⟩
def PRT_MEM_STAT.HOT (n : Nat) : Fld := ⟨PRT_MEM_STAT.off n, 23, 16⟩
def PRT_MEM_STAT.CAL_DUE (n : Nat) : Fld := ⟨PRT_MEM_STAT.off n, 31, 24⟩

/-- PRT_MEM_PERR_LO (R167). -/
def PRT_MEM_PERR_LO.off (n : Nat) : Nat := 0x0201008 + 0x10000 * n
def PRT_MEM_PERR_LO.N (n : Nat) : Fld := ⟨PRT_MEM_PERR_LO.off n, 31, 0⟩

/-- PRT_MEM_PERR_HI (R167). -/
def PRT_MEM_PERR_HI.off (n : Nat) : Nat := 0x020100C + 0x10000 * n
def PRT_MEM_PERR_HI.N (n : Nat) : Fld := ⟨PRT_MEM_PERR_HI.off n, 31, 0⟩

/-- PRT_MEM_PADDR_LO (R167). -/
def PRT_MEM_PADDR_LO.off (n : Nat) : Nat := 0x0201010 + 0x10000 * n
def PRT_MEM_PADDR_LO.A (n : Nat) : Fld := ⟨PRT_MEM_PADDR_LO.off n, 31, 0⟩

/-- PRT_MEM_PADDR_HI (R167). -/
def PRT_MEM_PADDR_HI.off (n : Nat) : Nat := 0x0201014 + 0x10000 * n
def PRT_MEM_PADDR_HI.A (n : Nat) : Fld := ⟨PRT_MEM_PADDR_HI.off n, 7, 0⟩

/-- PRT_UPE_STAT (R167). -/
def PRT_UPE_STAT.off (n : Nat) (i : Nat) : Nat := 0x0202000 + 0x10000 * n + 0x40 * i
def PRT_UPE_STAT.STATE (n : Nat) (i : Nat) : Fld := ⟨PRT_UPE_STAT.off n i, 1, 0⟩
def PRT_UPE_STAT.SPARE (n : Nat) (i : Nat) : Fld := ⟨PRT_UPE_STAT.off n i, 2, 2⟩
def PRT_UPE_STAT.JOB (n : Nat) (i : Nat) : Fld := ⟨PRT_UPE_STAT.off n i, 15, 8⟩
def PRT_UPE_STAT.SAT (n : Nat) (i : Nat) : Fld := ⟨PRT_UPE_STAT.off n i, 16, 16⟩
def PRT_UPE_STAT.POISON (n : Nat) (i : Nat) : Fld := ⟨PRT_UPE_STAT.off n i, 17, 17⟩
def PRT_UPE_STAT.PERR (n : Nat) (i : Nat) : Fld := ⟨PRT_UPE_STAT.off n i, 18, 18⟩
def PRT_UPE_STAT.MIR_MISS (n : Nat) (i : Nat) : Fld := ⟨PRT_UPE_STAT.off n i, 19, 19⟩

/-- PRT_UPE_DONE (R167). -/
def PRT_UPE_DONE.off (n : Nat) (i : Nat) : Nat := 0x0202004 + 0x10000 * n + 0x40 * i
def PRT_UPE_DONE.DONE (n : Nat) (i : Nat) : Fld := ⟨PRT_UPE_DONE.off n i, 31, 0⟩

/-- PRT_SCR_CTL (R167). -/
def PRT_SCR_CTL.off (n : Nat) : Nat := 0x0203000 + 0x10000 * n
def PRT_SCR_CTL.EN (n : Nat) : Fld := ⟨PRT_SCR_CTL.off n, 0, 0⟩
def PRT_SCR_CTL.SWEEP (n : Nat) : Fld := ⟨PRT_SCR_CTL.off n, 4, 1⟩

/-- PRT_SCR_STAT (R167). -/
def PRT_SCR_STAT.off (n : Nat) : Nat := 0x0203004 + 0x10000 * n
def PRT_SCR_STAT.LAST_MS (n : Nat) : Fld := ⟨PRT_SCR_STAT.off n, 15, 0⟩
def PRT_SCR_STAT.LATE (n : Nat) : Fld := ⟨PRT_SCR_STAT.off n, 16, 16⟩
def PRT_SCR_STAT.FENCED (n : Nat) : Fld := ⟨PRT_SCR_STAT.off n, 17, 17⟩

/-- PRT_SCR_REPAIRS (R167). -/
def PRT_SCR_REPAIRS.off (n : Nat) : Nat := 0x0203008 + 0x10000 * n
def PRT_SCR_REPAIRS.N (n : Nat) : Fld := ⟨PRT_SCR_REPAIRS.off n, 31, 0⟩

/-- PRT_RTR_SEL (R216). -/
def PRT_RTR_SEL.off (n : Nat) : Nat := 0x0204000 + 0x10000 * n
def PRT_RTR_SEL.POS (n : Nat) : Fld := ⟨PRT_RTR_SEL.off n, 6, 0⟩
def PRT_RTR_SEL.PHYS (n : Nat) : Fld := ⟨PRT_RTR_SEL.off n, 7, 7⟩
def PRT_RTR_SEL.PORT (n : Nat) : Fld := ⟨PRT_RTR_SEL.off n, 10, 8⟩

/-- PRT_RTR_STAT (R216). -/
def PRT_RTR_STAT.off (n : Nat) : Nat := 0x0204004 + 0x10000 * n
def PRT_RTR_STAT.PRESENT (n : Nat) : Fld := ⟨PRT_RTR_STAT.off n, 0, 0⟩
def PRT_RTR_STAT.BYPASS (n : Nat) : Fld := ⟨PRT_RTR_STAT.off n, 1, 1⟩
def PRT_RTR_STAT.EDGE (n : Nat) : Fld := ⟨PRT_RTR_STAT.off n, 2, 2⟩
def PRT_RTR_STAT.ALT_MEM (n : Nat) : Fld := ⟨PRT_RTR_STAT.off n, 3, 3⟩
def PRT_RTR_STAT.STRANDS (n : Nat) : Fld := ⟨PRT_RTR_STAT.off n, 24, 16⟩

/-- PRT_RTR_PKT_LO (R216). -/
def PRT_RTR_PKT_LO.off (n : Nat) : Nat := 0x0204008 + 0x10000 * n
def PRT_RTR_PKT_LO.N (n : Nat) : Fld := ⟨PRT_RTR_PKT_LO.off n, 31, 0⟩

/-- PRT_RTR_PKT_HI (R216). -/
def PRT_RTR_PKT_HI.off (n : Nat) : Nat := 0x020400C + 0x10000 * n
def PRT_RTR_PKT_HI.N (n : Nat) : Fld := ⟨PRT_RTR_PKT_HI.off n, 31, 0⟩

/-- PRT_RTR_BYTE_LO (R216). -/
def PRT_RTR_BYTE_LO.off (n : Nat) : Nat := 0x0204010 + 0x10000 * n
def PRT_RTR_BYTE_LO.N (n : Nat) : Fld := ⟨PRT_RTR_BYTE_LO.off n, 31, 0⟩

/-- PRT_RTR_BYTE_HI (R216). -/
def PRT_RTR_BYTE_HI.off (n : Nat) : Nat := 0x0204014 + 0x10000 * n
def PRT_RTR_BYTE_HI.N (n : Nat) : Fld := ⟨PRT_RTR_BYTE_HI.off n, 31, 0⟩

/-- PRT_RTR_STRU_LO (R216). -/
def PRT_RTR_STRU_LO.off (n : Nat) : Nat := 0x0204018 + 0x10000 * n
def PRT_RTR_STRU_LO.N (n : Nat) : Fld := ⟨PRT_RTR_STRU_LO.off n, 31, 0⟩

/-- PRT_RTR_STRU_HI (R216). -/
def PRT_RTR_STRU_HI.off (n : Nat) : Nat := 0x020401C + 0x10000 * n
def PRT_RTR_STRU_HI.N (n : Nat) : Fld := ⟨PRT_RTR_STRU_HI.off n, 31, 0⟩

/-- PRT_RTR_STALL_LO (R216). -/
def PRT_RTR_STALL_LO.off (n : Nat) : Nat := 0x0204020 + 0x10000 * n
def PRT_RTR_STALL_LO.N (n : Nat) : Fld := ⟨PRT_RTR_STALL_LO.off n, 31, 0⟩

/-- PRT_RTR_STALL_HI (R216). -/
def PRT_RTR_STALL_HI.off (n : Nat) : Nat := 0x0204024 + 0x10000 * n
def PRT_RTR_STALL_HI.N (n : Nat) : Fld := ⟨PRT_RTR_STALL_HI.off n, 31, 0⟩

/-- PRT_RTR_QDEPTH (R216). -/
def PRT_RTR_QDEPTH.off (n : Nat) : Nat := 0x0204028 + 0x10000 * n
def PRT_RTR_QDEPTH.REQ (n : Nat) : Fld := ⟨PRT_RTR_QDEPTH.off n, 7, 0⟩
def PRT_RTR_QDEPTH.RSP (n : Nat) : Fld := ⟨PRT_RTR_QDEPTH.off n, 15, 8⟩
def PRT_RTR_QDEPTH.ESC (n : Nat) : Fld := ⟨PRT_RTR_QDEPTH.off n, 23, 16⟩
def PRT_RTR_QDEPTH.MGT (n : Nat) : Fld := ⟨PRT_RTR_QDEPTH.off n, 31, 24⟩

/-- PRT_RTR_QMAX (R216). -/
def PRT_RTR_QMAX.off (n : Nat) : Nat := 0x020402C + 0x10000 * n
def PRT_RTR_QMAX.QMAX (n : Nat) : Fld := ⟨PRT_RTR_QMAX.off n, 31, 0⟩

/-- PRT_RTR_CTL (R216). -/
def PRT_RTR_CTL.off (n : Nat) : Nat := 0x0204030 + 0x10000 * n
def PRT_RTR_CTL.CLR (n : Nat) : Fld := ⟨PRT_RTR_CTL.off n, 0, 0⟩
def PRT_RTR_CTL.CLR_ALL (n : Nat) : Fld := ⟨PRT_RTR_CTL.off n, 1, 1⟩

/-- PRT_RTR_STRX (R216). -/
def PRT_RTR_STRX.off (n : Nat) : Nat := 0x0204034 + 0x10000 * n
def PRT_RTR_STRX.N (n : Nat) : Fld := ⟨PRT_RTR_STRX.off n, 15, 0⟩

/-- PRT_RTR_BAD (R216). -/
def PRT_RTR_BAD.off (n : Nat) : Nat := 0x0204038 + 0x10000 * n
def PRT_RTR_BAD.N (n : Nat) : Fld := ⟨PRT_RTR_BAD.off n, 15, 0⟩

/-- PRT_RED_SEL (R304). -/
def PRT_RED_SEL.off (n : Nat) : Nat := 0x0205000 + 0x10000 * n
def PRT_RED_SEL.CLUS (n : Nat) : Fld := ⟨PRT_RED_SEL.off n, 6, 0⟩
def PRT_RED_SEL.REC (n : Nat) : Fld := ⟨PRT_RED_SEL.off n, 14, 7⟩

/-- PRT_RED_STAT (R304). -/
def PRT_RED_STAT.off (n : Nat) : Nat := 0x0205004 + 0x10000 * n
def PRT_RED_STAT.VALID (n : Nat) : Fld := ⟨PRT_RED_STAT.off n, 0, 0⟩
def PRT_RED_STAT.ALT (n : Nat) : Fld := ⟨PRT_RED_STAT.off n, 1, 1⟩
def PRT_RED_STAT.DONE (n : Nat) : Fld := ⟨PRT_RED_STAT.off n, 2, 2⟩
def PRT_RED_STAT.SAT (n : Nat) : Fld := ⟨PRT_RED_STAT.off n, 3, 3⟩
def PRT_RED_STAT.POISON (n : Nat) : Fld := ⟨PRT_RED_STAT.off n, 4, 4⟩
def PRT_RED_STAT.PRUNED (n : Nat) : Fld := ⟨PRT_RED_STAT.off n, 12, 5⟩
def PRT_RED_STAT.RID (n : Nat) : Fld := ⟨PRT_RED_STAT.off n, 27, 16⟩

/-- PRT_RED_DUP (R304). -/
def PRT_RED_DUP.off (n : Nat) : Nat := 0x0205008 + 0x10000 * n
def PRT_RED_DUP.N (n : Nat) : Fld := ⟨PRT_RED_DUP.off n, 15, 0⟩

/-- PRT_RED_DROP (R304). -/
def PRT_RED_DROP.off (n : Nat) : Nat := 0x020500C + 0x10000 * n
def PRT_RED_DROP.N (n : Nat) : Fld := ⟨PRT_RED_DROP.off n, 15, 0⟩

/-- PRT_RED_PRUNE (R304). -/
def PRT_RED_PRUNE.off (n : Nat) : Nat := 0x0205010 + 0x10000 * n
def PRT_RED_PRUNE.N (n : Nat) : Fld := ⟨PRT_RED_PRUNE.off n, 15, 0⟩

/-- PRT_RST_CMD (R377). -/
def PRT_RST_CMD.off (n : Nat) : Nat := 0x0206000 + 0x10000 * n
def PRT_RST_CMD.CMD (n : Nat) : Fld := ⟨PRT_RST_CMD.off n, 3, 0⟩
def PRT_RST_CMD.CLUS (n : Nat) : Fld := ⟨PRT_RST_CMD.off n, 10, 4⟩
def PRT_RST_CMD.CORE (n : Nat) : Fld := ⟨PRT_RST_CMD.off n, 18, 11⟩
def PRT_RST_CMD.ENGINE (n : Nat) : Fld := ⟨PRT_RST_CMD.off n, 21, 19⟩

/-- PRT_RST_STAT (R377). -/
def PRT_RST_STAT.off (n : Nat) : Nat := 0x0206004 + 0x10000 * n
def PRT_RST_STAT.STATE (n : Nat) : Fld := ⟨PRT_RST_STAT.off n, 2, 0⟩
def PRT_RST_STAT.BUSY (n : Nat) : Fld := ⟨PRT_RST_STAT.off n, 3, 3⟩
def PRT_RST_STAT.DRAIN_TMO (n : Nat) : Fld := ⟨PRT_RST_STAT.off n, 4, 4⟩
def PRT_RST_STAT.REAPPLY_FAIL (n : Nat) : Fld := ⟨PRT_RST_STAT.off n, 5, 5⟩
def PRT_RST_STAT.GEN (n : Nat) : Fld := ⟨PRT_RST_STAT.off n, 15, 8⟩
def PRT_RST_STAT.LAST_CMD (n : Nat) : Fld := ⟨PRT_RST_STAT.off n, 19, 16⟩

/-- PRT_RST_CTL (R377). -/
def PRT_RST_CTL.off (n : Nat) : Nat := 0x0206008 + 0x10000 * n
def PRT_RST_CTL.REAPPLY (n : Nat) : Fld := ⟨PRT_RST_CTL.off n, 0, 0⟩
def PRT_RST_CTL.AUTO_SPARE (n : Nat) : Fld := ⟨PRT_RST_CTL.off n, 1, 1⟩
def PRT_RST_CTL.DRAIN (n : Nat) : Fld := ⟨PRT_RST_CTL.off n, 29, 16⟩

/-- PRT_SLU_CNT (R377). -/
def PRT_SLU_CNT.off (n : Nat) : Nat := 0x020600C + 0x10000 * n
def PRT_SLU_CNT.REFUSED (n : Nat) : Fld := ⟨PRT_SLU_CNT.off n, 15, 0⟩
def PRT_SLU_CNT.ABSORBED (n : Nat) : Fld := ⟨PRT_SLU_CNT.off n, 31, 16⟩

/-- PRT_RST_STALE (R377). -/
def PRT_RST_STALE.off (n : Nat) : Nat := 0x0206010 + 0x10000 * n
def PRT_RST_STALE.N (n : Nat) : Fld := ⟨PRT_RST_STALE.off n, 15, 0⟩

/-- PRT_SPARE (R377). -/
def PRT_SPARE.off (n : Nat) : Nat := 0x0206014 + 0x10000 * n
def PRT_SPARE.CLUS_LEFT (n : Nat) : Fld := ⟨PRT_SPARE.off n, 2, 0⟩
def PRT_SPARE.CORE_MIN (n : Nat) : Fld := ⟨PRT_SPARE.off n, 5, 3⟩
def PRT_SPARE.ENG_USED (n : Nat) : Fld := ⟨PRT_SPARE.off n, 6, 6⟩
def PRT_SPARE.REMAPS (n : Nat) : Fld := ⟨PRT_SPARE.off n, 31, 16⟩

/-- Rows of the HUB block. -/
def regRowsHUB0 : List RegRow := [
  -- HUB_ID0
  ⟨0x0000000, 1, 0x0, 1, 0x0, .none, [⟨15, 0, .ro, 0x1F3C, .nv⟩, ⟨31, 16, .ro, 0x0, .nv⟩]⟩,
  -- HUB_ID1
  ⟨0x0000004, 1, 0x0, 1, 0x0, .none, [⟨15, 0, .ro, 0x1F3C, .nv⟩, ⟨31, 16, .ro, 0x1, .nv⟩]⟩,
  -- HUB_REV
  ⟨0x0000008, 1, 0x0, 1, 0x0, .none, [⟨7, 0, .ro, 0x0, .nv⟩, ⟨11, 8, .ro, 0x0, .nv⟩, ⟨23, 16, .ro, 0x1, .nv⟩]⟩,
  -- HUB_SERIAL_LO
  ⟨0x000000C, 1, 0x0, 1, 0x0, .none, [⟨31, 0, .ro, 0x0, .nv⟩]⟩,
  -- HUB_SERIAL_HI
  ⟨0x0000010, 1, 0x0, 1, 0x0, .none, [⟨31, 0, .ro, 0x0, .nv⟩]⟩,
  -- HUB_FEAT_FLOOR
  ⟨0x0000014, 1, 0x0, 1, 0x0, .hub, [⟨15, 0, .rw, 0x0, .aon⟩]⟩,
  -- HUB_MASTER
  ⟨0x0000018, 1, 0x0, 1, 0x0, .none, [⟨7, 0, .ro, 0x0, .mod⟩]⟩,
  -- HUB_CAP
  ⟨0x0000020, 4, 0x4, 1, 0x0, .none, [⟨31, 0, .ro, 0x0, .nv⟩]⟩,
  -- HUB_SCRATCH
  ⟨0x0000030, 4, 0x4, 1, 0x0, .hubHost, [⟨31, 0, .rw, 0x0, .mod⟩]⟩,
  -- HUB_FUSE_SEL
  ⟨0x0000040, 1, 0x0, 1, 0x0, .hubHost, [⟨4, 0, .rw, 0x0, .mod⟩, ⟨8, 5, .rw, 0x0, .mod⟩]⟩,
  -- HUB_RST_CMD
  ⟨0x0000100, 1, 0x0, 1, 0x0, .hubHost, [⟨3, 0, .wo, 0x0, .mod⟩, ⟨7, 4, .wo, 0x0, .mod⟩]⟩,
  -- HUB_RST_CTL
  ⟨0x0000104, 1, 0x0, 1, 0x0, .hubHost, [⟨0, 0, .rw, 0x1, .mod⟩, ⟨1, 1, .w1s, 0x0, .mod⟩, ⟨15, 8, .rw, 0xA, .mod⟩, ⟨27, 16, .rw, 0xFA, .mod⟩]⟩]

/-- Rows of the HUB block. -/
def regRowsHUB1 : List RegRow := [
  -- HUB_RST_STAT
  ⟨0x0000108, 1, 0x0, 1, 0x0, .hub, [⟨0, 0, .ro, 0x0, .aon⟩, ⟨1, 1, .ro, 0x0, .mod⟩, ⟨2, 2, .ro, 0x0, .aon⟩, ⟨10, 8, .ro, 0x0, .mod⟩]⟩,
  -- HUB_RST_CNT
  ⟨0x000010C, 1, 0x0, 1, 0x0, .hub, [⟨1, 0, .ro, 0x0, .aon⟩, ⟨3, 2, .ro, 0x0, .mod⟩]⟩,
  -- HUB_RST_MODS
  ⟨0x0000110, 1, 0x0, 1, 0x0, .none, [⟨15, 0, .ro, 0x0, .aon⟩]⟩,
  -- HUB_PCIE_CTL
  ⟨0x0000200, 1, 0x0, 1, 0x0, .hubHost, [⟨2, 0, .rw, 0x7, .mod⟩, ⟨4, 3, .rw, 0x2, .mod⟩, ⟨5, 5, .rw, 0x1, .mod⟩, ⟨6, 6, .rw, 0x1, .mod⟩]⟩,
  -- HUB_PCIE_STAT
  ⟨0x0000204, 1, 0x0, 1, 0x0, .hubHost, [⟨2, 0, .ro, 0x0, .mod⟩, ⟨4, 3, .ro, 0x0, .mod⟩, ⟨5, 5, .ro, 0x0, .mod⟩, ⟨6, 6, .ro, 0x0, .mod⟩, ⟨31, 16, .ro, 0x0, .mod⟩]⟩,
  -- HUB_BAR2_BASE
  ⟨0x0000208, 1, 0x0, 1, 0x0, .hubHost, [⟨9, 0, .rw, 0x0, .mod⟩]⟩,
  -- HUB_INTAKE_DROP
  ⟨0x000020C, 1, 0x0, 1, 0x0, .hubHost, [⟨23, 0, .ro, 0x0, .mod⟩]⟩,
  -- HUB_PCIE_IRQ
  ⟨0x0000210, 1, 0x0, 1, 0x0, .hubHost, [⟨6, 0, .w1c, 0x0, .mod⟩]⟩,
  -- HUB_WIN_W0
  ⟨0x0000400, 80, 0x10, 1, 0x0, .hubHost, [⟨31, 12, .rw, 0x0, .mod⟩]⟩,
  -- HUB_WIN_W1
  ⟨0x0000404, 80, 0x10, 1, 0x0, .hubHost, [⟨7, 0, .rw, 0x0, .mod⟩]⟩,
  -- HUB_WIN_W2
  ⟨0x0000408, 80, 0x10, 1, 0x0, .hubHost, [⟨18, 0, .rw, 0x0, .mod⟩]⟩,
  -- HUB_WIN_W3
  ⟨0x000040C, 80, 0x10, 1, 0x0, .hubHost, [⟨0, 0, .rw, 0x0, .mod⟩, ⟨1, 1, .rw, 0x0, .mod⟩, ⟨2, 2, .rw, 0x0, .mod⟩]⟩]

/-- Rows of the HUB block. -/
def regRowsHUB2 : List RegRow := [
  -- HUB_THERM_CTL
  ⟨0x0000900, 1, 0x0, 1, 0x0, .hubHost, [⟨7, 0, .rw, 0x5F, .mod⟩]⟩,
  -- HUB_THERM_STAT
  ⟨0x0000904, 1, 0x0, 1, 0x0, .none, [⟨7, 0, .ro, 0x0, .mod⟩, ⟨12, 8, .ro, 0x0, .mod⟩, ⟨13, 13, .ro, 0x0, .mod⟩, ⟨14, 14, .ro, 0x0, .aon⟩, ⟨15, 15, .ro, 0x0, .aon⟩, ⟨16, 16, .ro, 0x0, .aon⟩, ⟨21, 17, .ro, 0x0, .aon⟩]⟩,
  -- HUB_COOL
  ⟨0x0000908, 1, 0x0, 1, 0x0, .none, [⟨15, 0, .ro, 0x0, .mod⟩, ⟨31, 16, .ro, 0x0, .mod⟩]⟩,
  -- HUB_AUX
  ⟨0x000090C, 1, 0x0, 1, 0x0, .none, [⟨9, 0, .ro, 0x0, .aon⟩, ⟨31, 16, .ro, 0x0, .aon⟩]⟩,
  -- HUB_DIE_TEMP
  ⟨0x0000940, 6, 0x4, 1, 0x0, .none, [⟨31, 0, .ro, 0x0, .mod⟩]⟩]

/-- Rows of the TCK block. -/
def regRowsTCK0 : List RegRow := [
  -- TCK_CTL
  ⟨0x0010000, 1, 0x0, 1, 0x0, .hub, [⟨0, 0, .rw, 0x1, .mod⟩, ⟨1, 1, .rw, 0x0, .mod⟩, ⟨2, 2, .rw, 0x1, .mod⟩, ⟨11, 8, .rw, 0xF, .mod⟩, ⟨15, 12, .rw, 0xF, .mod⟩, ⟨16, 16, .w1s, 0x0, .mod⟩, ⟨17, 17, .rw, 0x0, .mod⟩]⟩,
  -- TCK_PERIOD
  ⟨0x0010004, 1, 0x0, 1, 0x0, .hub, [⟨19, 0, .ro, 0x1388, .mod⟩]⟩,
  -- TCK_PERIOD_NEXT
  ⟨0x0010008, 1, 0x0, 1, 0x0, .hub, [⟨19, 0, .rw, 0x0, .mod⟩]⟩,
  -- TCK_PERIOD_AT_LO
  ⟨0x001000C, 1, 0x0, 1, 0x0, .hub, [⟨31, 0, .rw, 0x0, .mod⟩]⟩,
  -- TCK_PERIOD_AT_HI
  ⟨0x0010010, 1, 0x0, 1, 0x0, .hub, [⟨31, 0, .rw, 0x0, .mod⟩]⟩,
  -- TCK_STEP_LO
  ⟨0x0010014, 1, 0x0, 1, 0x0, .hub, [⟨31, 0, .ro, 0x0, .mod⟩]⟩,
  -- TCK_STEP_HI
  ⟨0x0010018, 1, 0x0, 1, 0x0, .hub, [⟨31, 0, .ro, 0x0, .mod⟩]⟩,
  -- TCK_SYNC_STAT
  ⟨0x001001C, 1, 0x0, 1, 0x0, .hub, [⟨15, 0, .ro, 0x0, .mod⟩, ⟨16, 16, .ro, 0x0, .mod⟩, ⟨17, 17, .ro, 0x0, .mod⟩, ⟨18, 18, .w1c, 0x0, .mod⟩, ⟨19, 19, .w1c, 0x0, .mod⟩, ⟨23, 20, .ro, 0xF, .mod⟩]⟩,
  -- TCK_SYNC_MAX
  ⟨0x0010020, 1, 0x0, 1, 0x0, .hub, [⟨15, 0, .ro, 0x0, .mod⟩, ⟨31, 31, .wo, 0x0, .mod⟩]⟩,
  -- TCK_STRETCH
  ⟨0x0010024, 1, 0x0, 1, 0x0, .hub, [⟨0, 0, .ro, 0x0, .mod⟩, ⟨1, 1, .ro, 0x0, .mod⟩, ⟨2, 2, .ro, 0x0, .mod⟩, ⟨31, 16, .ro, 0x0, .mod⟩]⟩,
  -- TCK_LCAL
  ⟨0x0010028, 1, 0x0, 1, 0x0, .hub, [⟨11, 0, .rw, 0x0, .mod⟩, ⟨19, 12, .rw, 0x0, .mod⟩, ⟨23, 20, .rw, 0x0, .mod⟩]⟩,
  -- TCK_SL_CTL
  ⟨0x0010100, 16, 0x40, 1, 0x0, .hub, [⟨0, 0, .ro, 0x0, .mod⟩, ⟨3, 1, .rw, 0x0, .mod⟩, ⟨4, 4, .w1s, 0x0, .mod⟩, ⟨6, 5, .rw, 0x2, .mod⟩, ⟨7, 7, .rw, 0x0, .mod⟩, ⟨15, 8, .rw, 0x40, .mod⟩, ⟨17, 16, .rw, 0x0, .mod⟩]⟩]

/-- Rows of the TCK block. -/
def regRowsTCK1 : List RegRow := [
  -- TCK_SL_STAT
  ⟨0x0010104, 16, 0x40, 1, 0x0, .hub, [⟨2, 0, .ro, 0x0, .tick⟩, ⟨4, 3, .ro, 0x0, .tick⟩, ⟨7, 5, .ro, 0x0, .tick⟩, ⟨15, 8, .ro, 0x0, .tick⟩, ⟨27, 16, .ro, 0x0, .tick⟩, ⟨28, 28, .w1c, 0x0, .tick⟩]⟩,
  -- TCK_SL_STEP_LO
  ⟨0x0010108, 16, 0x40, 1, 0x0, .hub, [⟨31, 0, .ro, 0x0, .tick⟩]⟩,
  -- TCK_SL_STEP_HI
  ⟨0x001010C, 16, 0x40, 1, 0x0, .hub, [⟨31, 0, .ro, 0x0, .tick⟩]⟩,
  -- TCK_SL_CMD_AT_LO
  ⟨0x0010110, 16, 0x40, 1, 0x0, .hub, [⟨31, 0, .rw, 0x0, .mod⟩]⟩,
  -- TCK_SL_CMD_AT_HI
  ⟨0x0010114, 16, 0x40, 1, 0x0, .hub, [⟨31, 0, .rw, 0x0, .mod⟩]⟩,
  -- TCK_SL_REPLAYS
  ⟨0x0010118, 16, 0x40, 1, 0x0, .hub, [⟨31, 0, .ro, 0x0, .tick⟩]⟩,
  -- TCK_SL_OVERRUNS
  ⟨0x001011C, 16, 0x40, 1, 0x0, .hub, [⟨31, 0, .ro, 0x0, .tick⟩]⟩,
  -- TCK_SL_INTRUSIONS
  ⟨0x0010120, 16, 0x40, 1, 0x0, .hub, [⟨31, 0, .ro, 0x0, .tick⟩]⟩,
  -- TCK_SL_MARGIN
  ⟨0x0010124, 16, 0x40, 1, 0x0, .hub, [⟨19, 0, .ro, 0xFFFFF, .tick⟩]⟩]

/-- Rows of the PWR block. -/
def regRowsPWR0 : List RegRow := [
  -- PWR_REQ
  ⟨0x0020000, 1, 0x0, 1, 0x0, .hubTrayHost, [⟨2, 0, .wo, 0x0, .mod⟩, ⟨3, 3, .wo, 0x0, .mod⟩]⟩,
  -- PWR_STAT
  ⟨0x0020004, 1, 0x0, 1, 0x0, .hub, [⟨2, 0, .ro, 0x0, .aon⟩, ⟨3, 3, .ro, 0x0, .aon⟩, ⟨6, 4, .ro, 0x0, .aon⟩, ⟨7, 7, .ro, 0x0, .aon⟩, ⟨10, 8, .ro, 0x0, .aon⟩, ⟨11, 11, .ro, 0x0, .aon⟩, ⟨12, 12, .w1c, 0x0, .aon⟩, ⟨13, 13, .ro, 0x0, .aon⟩, ⟨14, 14, .ro, 0x0, .aon⟩, ⟨15, 15, .ro, 0x0, .aon⟩, ⟨18, 16, .ro, 0x0, .aon⟩, ⟨19, 19, .w1c, 0x0, .aon⟩, ⟨20, 20, .ro, 0x0, .aon⟩, ⟨31, 24, .ro, 0x0, .aon⟩]⟩,
  -- PWR_VAR
  ⟨0x0020008, 1, 0x0, 1, 0x0, .none, [⟨3, 0, .ro, 0x0, .nv⟩, ⟨15, 4, .ro, 0x0, .nv⟩, ⟨23, 16, .ro, 0x0, .nv⟩, ⟨27, 24, .ro, 0x0, .nv⟩]⟩,
  -- PWR_CLK_SET
  ⟨0x002000C, 1, 0x0, 1, 0x0, .hubHost, [⟨11, 0, .rw, 0x0, .mod⟩]⟩,
  -- PWR_PLIM
  ⟨0x0020010, 1, 0x0, 1, 0x0, .hubHost, [⟨7, 0, .rw, 0x0, .mod⟩]⟩,
  -- PWR_WARN
  ⟨0x0020014, 1, 0x0, 1, 0x0, .hubTray, [⟨9, 0, .rw, 0x1A4, .aon⟩]⟩,
  -- PWR_VIN
  ⟨0x0020018, 1, 0x0, 1, 0x0, .hub, [⟨9, 0, .ro, 0x0, .mod⟩, ⟨25, 16, .ro, 0x0, .mod⟩]⟩,
  -- PWR_PIN
  ⟨0x002001C, 1, 0x0, 1, 0x0, .hub, [⟨15, 0, .ro, 0x0, .mod⟩, ⟨31, 16, .ro, 0x0, .mod⟩]⟩,
  -- PWR_RMASK
  ⟨0x0020020, 1, 0x0, 1, 0x0, .hubHost, [⟨23, 0, .rw, 0x0, .mod⟩, ⟨28, 24, .rw, 0x0, .mod⟩]⟩,
  -- PWR_EVT
  ⟨0x0020024, 1, 0x0, 1, 0x0, .hub, [⟨7, 0, .ro, 0x0, .aon⟩, ⟨15, 8, .ro, 0x0, .aon⟩, ⟨23, 16, .ro, 0x0, .aon⟩, ⟨31, 24, .ro, 0x0, .aon⟩]⟩,
  -- PWR_RMASK_USED
  ⟨0x0020028, 1, 0x0, 1, 0x0, .hub, [⟨23, 0, .ro, 0x0, .aon⟩, ⟨28, 24, .ro, 0x0, .aon⟩]⟩,
  -- PWR_WAKE
  ⟨0x002002C, 1, 0x0, 1, 0x0, .hub, [⟨3, 0, .ro, 0x0, .aon⟩, ⟨4, 4, .w1c, 0x0, .aon⟩, ⟨5, 5, .ro, 0x0, .aon⟩, ⟨6, 6, .ro, 0x0, .aon⟩]⟩]

/-- Rows of the PWR block. -/
def regRowsPWR1 : List RegRow := [
  -- PWR_CTL
  ⟨0x0020030, 1, 0x0, 1, 0x0, .hubHost, [⟨0, 0, .w1s, 0x0, .mod⟩, ⟨1, 1, .w1s, 0x0, .mod⟩]⟩,
  -- PWR_RES_ACT_LO
  ⟨0x0020040, 1, 0x0, 1, 0x0, .hub, [⟨31, 0, .ro, 0x0, .aon⟩]⟩,
  -- PWR_RES_ACT_HI
  ⟨0x0020044, 1, 0x0, 1, 0x0, .hub, [⟨31, 0, .ro, 0x0, .aon⟩]⟩,
  -- PWR_RES_SBY_LO
  ⟨0x0020048, 1, 0x0, 1, 0x0, .hub, [⟨31, 0, .ro, 0x0, .aon⟩]⟩,
  -- PWR_RES_SBY_HI
  ⟨0x002004C, 1, 0x0, 1, 0x0, .hub, [⟨31, 0, .ro, 0x0, .aon⟩]⟩,
  -- PWR_RES_RET_LO
  ⟨0x0020050, 1, 0x0, 1, 0x0, .hub, [⟨31, 0, .ro, 0x0, .aon⟩]⟩,
  -- PWR_RES_RET_HI
  ⟨0x0020054, 1, 0x0, 1, 0x0, .hub, [⟨31, 0, .ro, 0x0, .aon⟩]⟩,
  -- PWR_RES_DOR_LO
  ⟨0x0020058, 1, 0x0, 1, 0x0, .hub, [⟨31, 0, .ro, 0x0, .aon⟩]⟩,
  -- PWR_RES_DOR_HI
  ⟨0x002005C, 1, 0x0, 1, 0x0, .hub, [⟨31, 0, .ro, 0x0, .aon⟩]⟩,
  -- PWR_ENTRIES
  ⟨0x0020060, 1, 0x0, 1, 0x0, .hub, [⟨7, 0, .ro, 0x0, .aon⟩, ⟨15, 8, .ro, 0x0, .aon⟩, ⟨23, 16, .ro, 0x0, .aon⟩, ⟨31, 24, .ro, 0x0, .aon⟩]⟩]

/-- Rows of the FLT block. -/
def regRowsFLT0 : List RegRow := [
  -- FLT_CTL
  ⟨0x0030000, 1, 0x0, 1, 0x0, .hub, [⟨0, 0, .rwl, 0x0, .mod⟩, ⟨1, 1, .rw, 0x0, .mod⟩, ⟨2, 2, .rw, 0x0, .mod⟩, ⟨31, 31, .w1s, 0x0, .aon⟩]⟩,
  -- FLT_STAT
  ⟨0x0030004, 1, 0x0, 1, 0x0, .hub, [⟨0, 0, .ro, 0x0, .aon⟩, ⟨1, 1, .w1c, 0x0, .mod⟩, ⟨2, 2, .ro, 0x0, .mod⟩, ⟨23, 8, .ro, 0x0, .aon⟩]⟩,
  -- FLT_PROMO
  ⟨0x0030008, 1, 0x0, 1, 0x0, .hub, [⟨7, 0, .rw, 0x8, .mod⟩, ⟨19, 8, .rw, 0x3C, .mod⟩]⟩,
  -- FLT_PIN
  ⟨0x003000C, 1, 0x0, 1, 0x0, .hubHost, [⟨0, 0, .rw, 0x0, .mod⟩, ⟨1, 1, .ro, 0x0, .mod⟩, ⟨2, 2, .ro, 0x0, .aon⟩, ⟨15, 8, .rw, 0xA, .mod⟩, ⟨31, 16, .ro, 0x0, .mod⟩]⟩,
  -- FLT_FORCE
  ⟨0x0030010, 1, 0x0, 1, 0x0, .hubHost, [⟨15, 0, .rw, 0x0, .mod⟩, ⟨16, 16, .w1s, 0x0, .mod⟩]⟩,
  -- FLT_FORCE_UNIT
  ⟨0x0030014, 1, 0x0, 1, 0x0, .hubHost, [⟨31, 0, .rw, 0x0, .mod⟩]⟩,
  -- FLT_Q_STAT
  ⟨0x0030018, 1, 0x0, 1, 0x0, .hub, [⟨10, 0, .ro, 0x0, .mod⟩, ⟨31, 16, .ro, 0x0, .mod⟩]⟩,
  -- FLT_Q_POP
  ⟨0x003001C, 1, 0x0, 1, 0x0, .hub, [⟨31, 0, .wo, 0x0, .mod⟩]⟩,
  -- FLT_Q
  ⟨0x0030020, 8, 0x4, 1, 0x0, .hub, [⟨31, 0, .ro, 0x0, .mod⟩]⟩,
  -- FLT_SRC_SEL
  ⟨0x0030040, 1, 0x0, 1, 0x0, .hubHost, [⟨8, 0, .rw, 0x0, .mod⟩]⟩,
  -- FLT_SRC_STAT0
  ⟨0x0030044, 1, 0x0, 1, 0x0, .hub, [⟨1, 0, .ro, 0x0, .mod⟩, ⟨9, 2, .ro, 0x0, .mod⟩, ⟨17, 10, .ro, 0x0, .mod⟩, ⟨31, 18, .ro, 0x0, .mod⟩]⟩,
  -- FLT_SRC_STAT1
  ⟨0x0030048, 1, 0x0, 1, 0x0, .hub, [⟨31, 0, .ro, 0x0, .mod⟩]⟩]

/-- Rows of the FLT block. -/
def regRowsFLT1 : List RegRow := [
  -- FLT_SRC_CLR
  ⟨0x003004C, 1, 0x0, 1, 0x0, .hubHost, [⟨8, 0, .wo, 0x0, .mod⟩, ⟨31, 31, .wo, 0x0, .mod⟩]⟩,
  -- FLT_CNT
  ⟨0x0030050, 5, 0x4, 1, 0x0, .hub, [⟨31, 0, .ro, 0x0, .mod⟩]⟩,
  -- FLT_FRZ_SEL
  ⟨0x0030070, 1, 0x0, 1, 0x0, .hubHost, [⟨4, 0, .rw, 0x0, .mod⟩]⟩,
  -- FLT_FRZ_STAT
  ⟨0x0030074, 1, 0x0, 1, 0x0, .hub, [⟨2, 0, .ro, 0x0, .mod⟩, ⟨14, 3, .ro, 0x0, .mod⟩, ⟨31, 16, .ro, 0x0, .mod⟩]⟩,
  -- FLT_FRZ_CMD
  ⟨0x0030078, 1, 0x0, 1, 0x0, .hubHost, [⟨4, 0, .wo, 0x0, .mod⟩, ⟨5, 5, .wo, 0x0, .mod⟩]⟩,
  -- FLT_DUMP_CTL
  ⟨0x0030080, 1, 0x0, 1, 0x0, .hubHost, [⟨0, 0, .rw, 0x1, .mod⟩, ⟨1, 1, .rw, 0x0, .mod⟩, ⟨2, 2, .w1s, 0x0, .mod⟩, ⟨15, 8, .rw, 0x5, .mod⟩]⟩,
  -- FLT_DUMP_STAT
  ⟨0x0030084, 1, 0x0, 1, 0x0, .hubHost, [⟨0, 0, .ro, 0x0, .aon⟩, ⟨1, 1, .w1c, 0x0, .aon⟩, ⟨2, 2, .w1c, 0x0, .aon⟩, ⟨15, 8, .ro, 0x0, .aon⟩, ⟨31, 16, .ro, 0x0, .aon⟩]⟩,
  -- FLT_DUMP_DST_LO
  ⟨0x0030088, 1, 0x0, 1, 0x0, .hubHost, [⟨31, 6, .rw, 0x0, .mod⟩]⟩,
  -- FLT_DUMP_DST_HI
  ⟨0x003008C, 1, 0x0, 1, 0x0, .hubHost, [⟨7, 0, .rw, 0x0, .mod⟩]⟩,
  -- FLT_DUMP_LIM
  ⟨0x0030090, 1, 0x0, 1, 0x0, .hubHost, [⟨15, 0, .rw, 0x0, .mod⟩]⟩,
  -- FLT_DUMP_WIN
  ⟨0x0038000, 4096, 0x4, 1, 0x0, .none, [⟨31, 0, .ro, 0x0, .aon⟩]⟩]

/-- Rows of the EVR block. -/
def regRowsEVR0 : List RegRow := [
  -- EVR_CTL
  ⟨0x0040000, 1, 0x0, 1, 0x0, .hubHost, [⟨0, 0, .rw, 0x1, .aon⟩, ⟨15, 8, .rw, 0x1, .aon⟩]⟩,
  -- EVR_HEAD
  ⟨0x0040004, 1, 0x0, 1, 0x0, .hubHost, [⟨31, 0, .ro, 0x0, .aon⟩]⟩,
  -- EVR_BASE
  ⟨0x0040008, 1, 0x0, 1, 0x0, .hubHost, [⟨31, 0, .ro, 0x0, .aon⟩]⟩,
  -- EVR_PAGE
  ⟨0x004000C, 1, 0x0, 1, 0x0, .hubHost, [⟨1, 0, .rw, 0x0, .mod⟩]⟩,
  -- EVR_REPEAT_AT
  ⟨0x0040010, 1, 0x0, 1, 0x0, .hubHost, [⟨31, 0, .ro, 0x0, .aon⟩]⟩,
  -- EVR_WIN
  ⟨0x0048000, 8192, 0x4, 1, 0x0, .none, [⟨31, 0, .ro, 0x0, .aon⟩]⟩]

/-- Rows of the MBX block. -/
def regRowsMBX0 : List RegRow := [
  -- MBX_BIND_W0
  ⟨0x0050000, 256, 0x8, 1, 0x0, .hub, [⟨7, 0, .rwl, 0x0, .mod⟩, ⟨15, 8, .rwl, 0x0, .mod⟩, ⟨19, 16, .rwl, 0x0, .mod⟩, ⟨27, 20, .rwl, 0x0, .mod⟩, ⟨28, 28, .rwl, 0x0, .mod⟩]⟩,
  -- MBX_BIND_W1
  ⟨0x0050004, 256, 0x8, 1, 0x0, .hub, [⟨10, 0, .rwl, 0x0, .mod⟩, ⟨11, 11, .rwl, 0x0, .mod⟩, ⟨22, 12, .rwl, 0x0, .mod⟩, ⟨23, 23, .rwl, 0x0, .mod⟩]⟩,
  -- MBX_STAT
  ⟨0x0051000, 256, 0x4, 1, 0x0, .mbx, [⟨4, 0, .ro, 0x0, .mod⟩, ⟨5, 5, .ro, 0x0, .mod⟩, ⟨6, 6, .w1c, 0x0, .mod⟩, ⟨7, 7, .w1c, 0x0, .mod⟩, ⟨8, 8, .w1c, 0x0, .mod⟩, ⟨9, 9, .w1c, 0x0, .mod⟩, ⟨10, 10, .ro, 0x0, .mod⟩, ⟨23, 16, .ro, 0x0, .mod⟩]⟩,
  -- MBX_DBIND
  ⟨0x0052000, 64, 0x4, 1, 0x0, .hub, [⟨7, 0, .rwl, 0x0, .mod⟩, ⟨15, 8, .rwl, 0x0, .mod⟩, ⟨26, 16, .rwl, 0x0, .mod⟩, ⟨27, 27, .rwl, 0x0, .mod⟩]⟩,
  -- MBX_DB_RING
  ⟨0x0052400, 64, 0x4, 1, 0x0, .doorbell, [⟨31, 0, .wo, 0x0, .mod⟩]⟩,
  -- MBX_DB_PEND
  ⟨0x0052600, 64, 0x4, 1, 0x0, .doorbell, [⟨31, 0, .w1c, 0x0, .mod⟩]⟩,
  -- MBX_MGEN
  ⟨0x0053000, 64, 0x4, 1, 0x0, .none, [⟨31, 0, .ro, 0x0, .mod⟩]⟩,
  -- MBX_CTL
  ⟨0x0053F00, 1, 0x0, 1, 0x0, .hub, [⟨0, 0, .w1s, 0x0, .mod⟩]⟩,
  -- MBX_SEND
  ⟨0x0054000, 256, 0x40, 16, 0x4, .mbx, [⟨31, 0, .wo, 0x0, .mod⟩]⟩,
  -- MBX_RECV
  ⟨0x0058000, 256, 0x80, 16, 0x4, .none, [⟨31, 0, .ro, 0x0, .mod⟩]⟩,
  -- MBX_RX_HEAD
  ⟨0x0058040, 256, 0x80, 1, 0x0, .none, [⟨0, 0, .ro, 0x0, .mod⟩, ⟨5, 1, .ro, 0x0, .mod⟩, ⟨23, 16, .ro, 0x0, .mod⟩]⟩]

/-- Rows of the SEC block. -/
def regRowsSEC0 : List RegRow := [
  -- SEC_FW_CMD
  ⟨0x0060000, 1, 0x0, 1, 0x0, .hubHost, [⟨0, 0, .w1s, 0x0, .mod⟩]⟩,
  -- SEC_FW_LEN
  ⟨0x0060004, 1, 0x0, 1, 0x0, .hubHost, [⟨24, 0, .rw, 0x0, .mod⟩]⟩,
  -- SEC_FW_STAT
  ⟨0x0060008, 1, 0x0, 1, 0x0, .hubHost, [⟨2, 0, .ro, 0x0, .mod⟩, ⟨3, 3, .ro, 0x0, .mod⟩, ⟨7, 4, .ro, 0x0, .mod⟩, ⟨15, 8, .ro, 0x0, .mod⟩]⟩,
  -- SEC_FW_LEVEL
  ⟨0x006000C, 1, 0x0, 1, 0x0, .hubHost, [⟨15, 0, .ro, 0x0, .mod⟩, ⟨31, 16, .ro, 0x0, .mod⟩]⟩,
  -- SEC_AUTH_SRC_LO
  ⟨0x0060010, 1, 0x0, 1, 0x0, .hubHost, [⟨31, 6, .rw, 0x0, .mod⟩]⟩,
  -- SEC_AUTH_SRC_HI
  ⟨0x0060014, 1, 0x0, 1, 0x0, .hubHost, [⟨7, 0, .rw, 0x0, .mod⟩]⟩,
  -- SEC_AUTH_CMD
  ⟨0x0060018, 1, 0x0, 1, 0x0, .hubHost, [⟨0, 0, .w1s, 0x0, .mod⟩]⟩,
  -- SEC_AUTH_STAT
  ⟨0x006001C, 1, 0x0, 1, 0x0, .hubHost, [⟨0, 0, .ro, 0x0, .mod⟩, ⟨15, 8, .ro, 0x0, .mod⟩, ⟨23, 16, .ro, 0x0, .mod⟩]⟩,
  -- SEC_NONCE
  ⟨0x0060020, 8, 0x4, 1, 0x0, .hubHost, [⟨31, 0, .ro, 0x0, .mod⟩]⟩,
  -- SEC_FWDIG
  ⟨0x0060040, 8, 0x4, 1, 0x0, .hubHost, [⟨31, 0, .ro, 0x0, .mod⟩]⟩,
  -- SEC_IDPUB
  ⟨0x0060060, 16, 0x4, 1, 0x0, .none, [⟨31, 0, .ro, 0x0, .nv⟩]⟩,
  -- SEC_SVN_MIN
  ⟨0x00600A0, 1, 0x0, 1, 0x0, .none, [⟨15, 0, .ro, 0x0, .nv⟩]⟩]

/-- Rows of the SEC block. -/
def regRowsSEC1 : List RegRow := [
  -- SEC_KEY
  ⟨0x0060100, 16, 0x40, 1, 0x0, .none, [⟨1, 0, .ro, 0x0, .nv⟩, ⟨2, 2, .ro, 0x0, .nv⟩]⟩,
  -- SEC_KEY_DIG
  ⟨0x0060104, 16, 0x40, 8, 0x4, .none, [⟨31, 0, .ro, 0x0, .nv⟩]⟩,
  -- SEC_FWKEY
  ⟨0x0060500, 2, 0x40, 1, 0x0, .none, [⟨1, 0, .ro, 0x0, .nv⟩, ⟨2, 2, .ro, 0x0, .nv⟩]⟩,
  -- SEC_FWKEY_DIG
  ⟨0x0060504, 2, 0x40, 8, 0x4, .none, [⟨31, 0, .ro, 0x0, .nv⟩]⟩]

/-- Rows of the RIG block. -/
def regRowsRIG0 : List RegRow := [
  -- RIG_CTL
  ⟨0x0080000, 1, 0x0, 1, 0x0, .hubHost, [⟨0, 0, .rwl, 0x0, .aon⟩, ⟨1, 1, .rw, 0x1, .mod⟩, ⟨19, 8, .rw, 0x40, .mod⟩, ⟨27, 20, .rw, 0x3C, .mod⟩, ⟨31, 31, .w1s, 0x0, .aon⟩]⟩,
  -- RIG_CMD
  ⟨0x0080004, 1, 0x0, 1, 0x0, .hubHost, [⟨3, 0, .wo, 0x0, .mod⟩, ⟨15, 4, .wo, 0x0, .mod⟩]⟩,
  -- RIG_SRC_LO
  ⟨0x0080008, 1, 0x0, 1, 0x0, .hubHost, [⟨31, 6, .rw, 0x0, .mod⟩]⟩,
  -- RIG_SRC_HI
  ⟨0x008000C, 1, 0x0, 1, 0x0, .hubHost, [⟨7, 0, .rw, 0x0, .mod⟩]⟩,
  -- RIG_AT_LO
  ⟨0x0080010, 1, 0x0, 1, 0x0, .hubHost, [⟨31, 0, .rw, 0x0, .mod⟩]⟩,
  -- RIG_AT_HI
  ⟨0x0080014, 1, 0x0, 1, 0x0, .hubHost, [⟨31, 0, .rw, 0x0, .mod⟩]⟩,
  -- RIG_STAT
  ⟨0x0080018, 1, 0x0, 1, 0x0, .hubHost, [⟨2, 0, .ro, 0x0, .mod⟩, ⟨3, 3, .ro, 0x0, .mod⟩, ⟨15, 8, .ro, 0x0, .mod⟩]⟩,
  -- RIG_ERR
  ⟨0x008001C, 1, 0x0, 1, 0x0, .hubHost, [⟨7, 0, .ro, 0x0, .mod⟩, ⟨23, 8, .ro, 0xFFFF, .mod⟩]⟩,
  -- RIG_ERR_AGENT
  ⟨0x0080020, 1, 0x0, 1, 0x0, .hubHost, [⟨31, 0, .ro, 0x0, .mod⟩]⟩,
  -- RIG_ERR_AUX
  ⟨0x0080024, 1, 0x0, 1, 0x0, .hubHost, [⟨31, 0, .ro, 0x0, .mod⟩]⟩,
  -- RIG_SL_STAT
  ⟨0x0080100, 16, 0x40, 1, 0x0, .hubHost, [⟨1, 0, .ro, 0x0, .mod⟩, ⟨2, 2, .ro, 0x0, .mod⟩, ⟨3, 3, .ro, 0x0, .mod⟩, ⟨4, 4, .w1c, 0x0, .mod⟩, ⟨5, 5, .ro, 0x0, .mod⟩, ⟨27, 16, .ro, 0x0, .mod⟩]⟩,
  -- RIG_SL_EPOCH
  ⟨0x0080104, 16, 0x40, 1, 0x0, .hubHost, [⟨15, 0, .ro, 0x0, .mod⟩, ⟨16, 16, .ro, 0x0, .mod⟩, ⟨31, 24, .ro, 0x0, .mod⟩]⟩]

/-- Rows of the RIG block. -/
def regRowsRIG1 : List RegRow := [
  -- RIG_SL_AT_LO
  ⟨0x0080108, 16, 0x40, 1, 0x0, .hubHost, [⟨31, 0, .ro, 0x0, .mod⟩]⟩,
  -- RIG_SL_AT_HI
  ⟨0x008010C, 16, 0x40, 1, 0x0, .hubHost, [⟨31, 0, .ro, 0x0, .mod⟩]⟩,
  -- RIG_SL_DIGEST
  ⟨0x0080110, 16, 0x40, 8, 0x4, .hubHost, [⟨31, 0, .ro, 0x0, .tick⟩]⟩,
  -- RIG_SL_LOCAL
  ⟨0x0080130, 16, 0x40, 4, 0x4, .hubHost, [⟨31, 0, .ro, 0x0, .tick⟩]⟩]

/-- Rows of the FAB block. -/
def regRowsFAB0 : List RegRow := [
  -- FAB_RT_CTL
  ⟨0x00A0000, 1, 0x0, 1, 0x0, .hub, [⟨0, 0, .rw, 0x0, .mod⟩, ⟨1, 1, .ro, 0x0, .mod⟩, ⟨2, 2, .rw, 0x0, .mod⟩, ⟨3, 3, .w1s, 0x0, .mod⟩, ⟨11, 4, .rw, 0x10, .mod⟩, ⟨19, 12, .rw, 0x40, .mod⟩]⟩,
  -- FAB_SELF
  ⟨0x00A0004, 1, 0x0, 1, 0x0, .hub, [⟨11, 0, .rw, 0x0, .mod⟩, ⟨12, 12, .rw, 0x0, .mod⟩]⟩,
  -- FAB_RT_AT_LO
  ⟨0x00A0008, 1, 0x0, 1, 0x0, .hub, [⟨31, 0, .rw, 0x0, .mod⟩]⟩,
  -- FAB_RT_AT_HI
  ⟨0x00A000C, 1, 0x0, 1, 0x0, .hub, [⟨31, 0, .rw, 0x0, .mod⟩]⟩,
  -- FAB_ISO_INJ
  ⟨0x00A0010, 1, 0x0, 1, 0x0, .hub, [⟨15, 0, .ro, 0x0, .mod⟩]⟩,
  -- FAB_ISO_EJ
  ⟨0x00A0014, 1, 0x0, 1, 0x0, .hub, [⟨15, 0, .ro, 0x0, .mod⟩]⟩,
  -- FAB_EPOCH_MISS
  ⟨0x00A0018, 1, 0x0, 1, 0x0, .hub, [⟨23, 0, .ro, 0x0, .mod⟩]⟩,
  -- FAB_RT_DROP
  ⟨0x00A001C, 1, 0x0, 1, 0x0, .hub, [⟨15, 0, .ro, 0x0, .mod⟩]⟩,
  -- FAB_POS_ACT
  ⟨0x00A1000, 64, 0x4, 1, 0x0, .hub, [⟨31, 0, .ro, 0x0, .mod⟩]⟩,
  -- FAB_POS_SHD
  ⟨0x00A1100, 64, 0x4, 1, 0x0, .hub, [⟨31, 0, .rw, 0x0, .mod⟩]⟩,
  -- FAB_GRP_ACT
  ⟨0x00A2000, 64, 0x10, 4, 0x4, .hub, [⟨31, 0, .ro, 0x0, .mod⟩]⟩,
  -- FAB_GRP_SHD
  ⟨0x00A2400, 64, 0x10, 4, 0x4, .hub, [⟨31, 0, .rw, 0x0, .mod⟩]⟩]

/-- Rows of the FAB block. -/
def regRowsFAB1 : List RegRow := [
  -- FAB_MGR_CTL
  ⟨0x00A3000, 1, 0x0, 1, 0x0, .hub, [⟨0, 0, .rwl, 0x0, .aon⟩, ⟨11, 4, .rw, 0xA, .mod⟩, ⟨23, 12, .rw, 0x3E8, .mod⟩, ⟨31, 31, .w1s, 0x0, .aon⟩]⟩,
  -- FAB_MGR_STAT
  ⟨0x00A3004, 1, 0x0, 1, 0x0, .hub, [⟨2, 0, .ro, 0x0, .mod⟩, ⟨4, 3, .ro, 0x0, .mod⟩, ⟨5, 5, .ro, 0x0, .mod⟩, ⟨6, 6, .ro, 0x0, .mod⟩, ⟨7, 7, .ro, 0x0, .mod⟩, ⟨8, 8, .ro, 0x0, .mod⟩, ⟨31, 16, .ro, 0x0, .mod⟩]⟩,
  -- FAB_TERM
  ⟨0x00A3008, 1, 0x0, 1, 0x0, .hub, [⟨31, 0, .ro, 0x0, .mod⟩]⟩,
  -- FAB_MGR_ID
  ⟨0x00A300C, 1, 0x0, 1, 0x0, .hub, [⟨11, 0, .ro, 0x0, .mod⟩, ⟨12, 12, .ro, 0x0, .mod⟩, ⟨27, 16, .ro, 0x0, .mod⟩, ⟨28, 28, .ro, 0x0, .mod⟩]⟩,
  -- FAB_LEASE
  ⟨0x00A3010, 1, 0x0, 1, 0x0, .hub, [⟨15, 0, .ro, 0x0, .mod⟩]⟩,
  -- FAB_CMD
  ⟨0x00A3014, 1, 0x0, 1, 0x0, .hubHost, [⟨7, 0, .wo, 0x0, .mod⟩, ⟨31, 16, .wo, 0x0, .mod⟩]⟩,
  -- FAB_CMD_STAT
  ⟨0x00A3018, 1, 0x0, 1, 0x0, .hub, [⟨0, 0, .ro, 0x0, .mod⟩, ⟨15, 8, .ro, 0x0, .mod⟩, ⟨31, 16, .ro, 0x0, .mod⟩]⟩,
  -- FAB_MGT_REJ
  ⟨0x00A301C, 1, 0x0, 1, 0x0, .hub, [⟨15, 0, .ro, 0x0, .mod⟩]⟩,
  -- FAB_DISC
  ⟨0x00A3020, 4, 0x4, 1, 0x0, .hub, [⟨31, 0, .ro, 0x0, .mod⟩]⟩,
  -- FAB_FOLD_CTL
  ⟨0x00A3030, 1, 0x0, 1, 0x0, .hub, [⟨7, 0, .rw, 0x64, .mod⟩, ⟨15, 8, .rw, 0x10, .mod⟩, ⟨16, 16, .rw, 0x1, .mod⟩]⟩,
  -- FAB_FOLD_STAT
  ⟨0x00A3034, 1, 0x0, 1, 0x0, .hub, [⟨15, 0, .ro, 0x0, .mod⟩, ⟨23, 16, .ro, 0x0, .mod⟩, ⟨24, 24, .w1c, 0x0, .mod⟩]⟩,
  -- FAB_COORD_TERM
  ⟨0x00A3038, 1, 0x0, 1, 0x0, .hub, [⟨31, 0, .ro, 0x0, .mod⟩]⟩]

/-- Rows of the FAB block. -/
def regRowsFAB2 : List RegRow := [
  -- FAB_CMD_ARG
  ⟨0x00A3040, 16, 0x4, 1, 0x0, .hubHost, [⟨31, 0, .rw, 0x0, .mod⟩]⟩]

/-- Rows of the LNK block. -/
def regRowsLNK0 : List RegRow := [
  -- LNK_CTL
  ⟨0x0100000, 16, 0x1000, 1, 0x0, .hub, [⟨0, 0, .rw, 0x0, .mod⟩, ⟨1, 1, .rw, 0x0, .mod⟩, ⟨3, 2, .rw, 0x0, .mod⟩, ⟨4, 4, .rw, 0x0, .mod⟩, ⟨5, 5, .rw, 0x0, .mod⟩, ⟨15, 8, .rw, 0x20, .mod⟩, ⟨16, 16, .w1s, 0x0, .mod⟩, ⟨17, 17, .w1s, 0x0, .mod⟩]⟩,
  -- LNK_STAT
  ⟨0x0100004, 16, 0x1000, 1, 0x0, .hub, [⟨3, 0, .ro, 0x0, .mod⟩, ⟨6, 4, .ro, 0x0, .mod⟩, ⟨7, 7, .ro, 0x0, .mod⟩, ⟨13, 8, .ro, 0x0, .mod⟩, ⟨19, 14, .ro, 0x0, .mod⟩, ⟨25, 20, .ro, 0x0, .mod⟩, ⟨26, 26, .w1c, 0x0, .mod⟩, ⟨27, 27, .ro, 0x0, .mod⟩, ⟨28, 28, .ro, 0x0, .mod⟩]⟩,
  -- LNK_GRAN0
  ⟨0x0100008, 16, 0x1000, 1, 0x0, .hub, [⟨31, 0, .rw, 0x0, .mod⟩]⟩,
  -- LNK_GRAN1
  ⟨0x010000C, 16, 0x1000, 1, 0x0, .hub, [⟨3, 0, .rw, 0x0, .mod⟩]⟩,
  -- LNK_LANE_ACT
  ⟨0x0100010, 16, 0x1000, 1, 0x0, .hub, [⟨31, 0, .ro, 0x0, .mod⟩]⟩,
  -- LNK_LANE_OUT
  ⟨0x0100014, 16, 0x1000, 1, 0x0, .hub, [⟨31, 0, .ro, 0x0, .mod⟩]⟩,
  -- LNK_LANE_PARK
  ⟨0x0100018, 16, 0x1000, 1, 0x0, .hub, [⟨31, 0, .ro, 0x0, .mod⟩]⟩,
  -- LNK_DELAY
  ⟨0x010001C, 16, 0x1000, 1, 0x0, .hub, [⟨15, 0, .ro, 0x0, .mod⟩]⟩,
  -- LNK_EXP
  ⟨0x0100020, 16, 0x1000, 4, 0x4, .hub, [⟨31, 0, .rw, 0x0, .mod⟩]⟩,
  -- LNK_EXP_ID
  ⟨0x0100030, 16, 0x1000, 1, 0x0, .hub, [⟨11, 0, .rw, 0x0, .mod⟩, ⟨15, 12, .rw, 0x0, .mod⟩, ⟨16, 16, .rw, 0x0, .mod⟩]⟩,
  -- LNK_PEER
  ⟨0x0100040, 16, 0x1000, 12, 0x4, .hub, [⟨31, 0, .ro, 0x0, .mod⟩]⟩,
  -- LNK_FEC_CORR_LO
  ⟨0x0100070, 16, 0x1000, 1, 0x0, .hub, [⟨31, 0, .ro, 0x0, .mod⟩]⟩]

/-- Rows of the LNK block. -/
def regRowsLNK1 : List RegRow := [
  -- LNK_FEC_CORR_HI
  ⟨0x0100074, 16, 0x1000, 1, 0x0, .hub, [⟨31, 0, .ro, 0x0, .mod⟩]⟩,
  -- LNK_FEC_UNC_LO
  ⟨0x0100078, 16, 0x1000, 1, 0x0, .hub, [⟨31, 0, .ro, 0x0, .mod⟩]⟩,
  -- LNK_FEC_UNC_HI
  ⟨0x010007C, 16, 0x1000, 1, 0x0, .hub, [⟨31, 0, .ro, 0x0, .mod⟩]⟩,
  -- LNK_REPLAY_LO
  ⟨0x0100080, 16, 0x1000, 1, 0x0, .hub, [⟨31, 0, .ro, 0x0, .mod⟩]⟩,
  -- LNK_REPLAY_HI
  ⟨0x0100084, 16, 0x1000, 1, 0x0, .hub, [⟨31, 0, .ro, 0x0, .mod⟩]⟩,
  -- LNK_SPLICES
  ⟨0x0100088, 16, 0x1000, 1, 0x0, .hub, [⟨15, 0, .ro, 0x0, .mod⟩, ⟨21, 16, .ro, 0x0, .mod⟩]⟩,
  -- LNK_MARGIN
  ⟨0x010008C, 16, 0x1000, 1, 0x0, .hub, [⟨5, 0, .ro, 0x0, .mod⟩, ⟨13, 6, .ro, 0x0, .mod⟩, ⟨21, 14, .ro, 0x0, .mod⟩]⟩,
  -- LNK_CMIS
  ⟨0x0100090, 16, 0x1000, 1, 0x0, .hub, [⟨0, 0, .ro, 0x0, .mod⟩, ⟨1, 1, .ro, 0x0, .mod⟩, ⟨2, 2, .w1c, 0x0, .mod⟩, ⟨3, 3, .ro, 0x0, .mod⟩, ⟨7, 4, .ro, 0x0, .mod⟩, ⟨15, 8, .ro, 0x0, .mod⟩]⟩,
  -- LNK_DROPS
  ⟨0x0100094, 16, 0x1000, 1, 0x0, .hub, [⟨15, 0, .ro, 0x0, .mod⟩]⟩]

/-- Rows of the PRT block. -/
def regRowsPRT0 : List RegRow := [
  -- PRT_ID
  ⟨0x0200000, 16, 0x10000, 1, 0x0, .hubHost, [⟨3, 0, .ro, 0x0, .part⟩, ⟨4, 4, .ro, 0x0, .part⟩, ⟨5, 5, .ro, 0x0, .part⟩, ⟨17, 6, .ro, 0x0, .part⟩]⟩,
  -- PRT_CORE_SEL
  ⟨0x0200004, 16, 0x10000, 1, 0x0, .hubHost, [⟨6, 0, .rw, 0x0, .mod⟩]⟩,
  -- PRT_IND_SEL
  ⟨0x0200010, 16, 0x10000, 1, 0x0, .hubHost, [⟨6, 0, .rw, 0x0, .mod⟩, ⟨14, 7, .rw, 0x0, .mod⟩, ⟨19, 15, .rw, 0x0, .mod⟩, ⟨24, 20, .rw, 0x0, .mod⟩, ⟨25, 25, .rw, 0x0, .mod⟩]⟩,
  -- PRT_IND_OFF
  ⟨0x0200014, 16, 0x10000, 1, 0x0, .hubHost, [⟨3, 0, .rw, 0x0, .mod⟩]⟩,
  -- PRT_IND_STAT
  ⟨0x0200018, 16, 0x10000, 1, 0x0, .hubHost, [⟨0, 0, .w1c, 0x0, .mod⟩, ⟨1, 1, .w1c, 0x0, .mod⟩, ⟨2, 2, .w1c, 0x0, .mod⟩]⟩,
  -- PRT_IND_WIN
  ⟨0x0207000, 16, 0x10000, 1024, 0x4, .none, [⟨31, 0, .ro, 0x0, .tick⟩]⟩,
  -- PRT_CORE_STAT
  ⟨0x0208000, 16, 0x10000, 250, 0x8, .hubHost, [⟨4, 0, .ro, 0x0, .tick⟩, ⟨5, 5, .ro, 0x0, .tick⟩, ⟨6, 6, .ro, 0x0, .tick⟩, ⟨8, 8, .w1c, 0x0, .tick⟩, ⟨9, 9, .w1c, 0x0, .tick⟩, ⟨10, 10, .w1c, 0x0, .tick⟩, ⟨11, 11, .w1c, 0x0, .tick⟩, ⟨12, 12, .w1c, 0x0, .tick⟩, ⟨17, 13, .ro, 0x0, .tick⟩]⟩,
  -- PRT_CORE_CNT
  ⟨0x0208004, 16, 0x10000, 250, 0x8, .hubHost, [⟨9, 0, .ro, 0x0, .tick⟩, ⟨19, 10, .ro, 0x0, .tick⟩, ⟨31, 20, .ro, 0x0, .tick⟩]⟩,
  -- PRT_MEM_CTL
  ⟨0x0201000, 16, 0x10000, 1, 0x0, .hub, [⟨16, 0, .rw, 0xE10, .mod⟩]⟩,
  -- PRT_MEM_STAT
  ⟨0x0201004, 16, 0x10000, 1, 0x0, .hub, [⟨7, 0, .ro, 0x0, .part⟩, ⟨15, 8, .ro, 0x0, .part⟩, ⟨23, 16, .ro, 0x0, .part⟩, ⟨31, 24, .ro, 0x0, .part⟩]⟩,
  -- PRT_MEM_PERR_LO
  ⟨0x0201008, 16, 0x10000, 1, 0x0, .hub, [⟨31, 0, .ro, 0x0, .part⟩]⟩,
  -- PRT_MEM_PERR_HI
  ⟨0x020100C, 16, 0x10000, 1, 0x0, .hub, [⟨31, 0, .ro, 0x0, .part⟩]⟩]

/-- Rows of the PRT block. -/
def regRowsPRT1 : List RegRow := [
  -- PRT_MEM_PADDR_LO
  ⟨0x0201010, 16, 0x10000, 1, 0x0, .hub, [⟨31, 0, .ro, 0x0, .part⟩]⟩,
  -- PRT_MEM_PADDR_HI
  ⟨0x0201014, 16, 0x10000, 1, 0x0, .hub, [⟨7, 0, .ro, 0x0, .part⟩]⟩,
  -- PRT_UPE_STAT
  ⟨0x0202000, 16, 0x10000, 9, 0x40, .hub, [⟨1, 0, .ro, 0x0, .tick⟩, ⟨2, 2, .ro, 0x0, .part⟩, ⟨15, 8, .ro, 0x0, .tick⟩, ⟨16, 16, .w1c, 0x0, .tick⟩, ⟨17, 17, .w1c, 0x0, .tick⟩, ⟨18, 18, .w1c, 0x0, .tick⟩, ⟨19, 19, .w1c, 0x0, .tick⟩]⟩,
  -- PRT_UPE_DONE
  ⟨0x0202004, 16, 0x10000, 9, 0x40, .hub, [⟨31, 0, .ro, 0x0, .tick⟩]⟩,
  -- PRT_SCR_CTL
  ⟨0x0203000, 16, 0x10000, 1, 0x0, .hub, [⟨0, 0, .rw, 0x1, .mod⟩, ⟨4, 1, .rw, 0x8, .mod⟩]⟩,
  -- PRT_SCR_STAT
  ⟨0x0203004, 16, 0x10000, 1, 0x0, .hub, [⟨15, 0, .ro, 0x0, .part⟩, ⟨16, 16, .w1c, 0x0, .part⟩, ⟨17, 17, .ro, 0x0, .part⟩]⟩,
  -- PRT_SCR_REPAIRS
  ⟨0x0203008, 16, 0x10000, 1, 0x0, .hub, [⟨31, 0, .ro, 0x0, .part⟩]⟩,
  -- PRT_RTR_SEL
  ⟨0x0204000, 16, 0x10000, 1, 0x0, .hubHost, [⟨6, 0, .rw, 0x0, .mod⟩, ⟨7, 7, .rw, 0x0, .mod⟩, ⟨10, 8, .rw, 0x0, .mod⟩]⟩,
  -- PRT_RTR_STAT
  ⟨0x0204004, 16, 0x10000, 1, 0x0, .hubHost, [⟨0, 0, .ro, 0x0, .part⟩, ⟨1, 1, .ro, 0x0, .part⟩, ⟨2, 2, .ro, 0x0, .part⟩, ⟨3, 3, .ro, 0x0, .part⟩, ⟨24, 16, .ro, 0x0, .tick⟩]⟩,
  -- PRT_RTR_PKT_LO
  ⟨0x0204008, 16, 0x10000, 1, 0x0, .hubHost, [⟨31, 0, .ro, 0x0, .part⟩]⟩,
  -- PRT_RTR_PKT_HI
  ⟨0x020400C, 16, 0x10000, 1, 0x0, .hubHost, [⟨31, 0, .ro, 0x0, .part⟩]⟩,
  -- PRT_RTR_BYTE_LO
  ⟨0x0204010, 16, 0x10000, 1, 0x0, .hubHost, [⟨31, 0, .ro, 0x0, .part⟩]⟩]

/-- Rows of the PRT block. -/
def regRowsPRT2 : List RegRow := [
  -- PRT_RTR_BYTE_HI
  ⟨0x0204014, 16, 0x10000, 1, 0x0, .hubHost, [⟨31, 0, .ro, 0x0, .part⟩]⟩,
  -- PRT_RTR_STRU_LO
  ⟨0x0204018, 16, 0x10000, 1, 0x0, .hubHost, [⟨31, 0, .ro, 0x0, .part⟩]⟩,
  -- PRT_RTR_STRU_HI
  ⟨0x020401C, 16, 0x10000, 1, 0x0, .hubHost, [⟨31, 0, .ro, 0x0, .part⟩]⟩,
  -- PRT_RTR_STALL_LO
  ⟨0x0204020, 16, 0x10000, 1, 0x0, .hubHost, [⟨31, 0, .ro, 0x0, .part⟩]⟩,
  -- PRT_RTR_STALL_HI
  ⟨0x0204024, 16, 0x10000, 1, 0x0, .hubHost, [⟨31, 0, .ro, 0x0, .part⟩]⟩,
  -- PRT_RTR_QDEPTH
  ⟨0x0204028, 16, 0x10000, 1, 0x0, .hubHost, [⟨7, 0, .ro, 0x0, .part⟩, ⟨15, 8, .ro, 0x0, .part⟩, ⟨23, 16, .ro, 0x0, .part⟩, ⟨31, 24, .ro, 0x0, .part⟩]⟩,
  -- PRT_RTR_QMAX
  ⟨0x020402C, 16, 0x10000, 1, 0x0, .hubHost, [⟨31, 0, .ro, 0x0, .part⟩]⟩,
  -- PRT_RTR_CTL
  ⟨0x0204030, 16, 0x10000, 1, 0x0, .hubHost, [⟨0, 0, .w1s, 0x0, .mod⟩, ⟨1, 1, .w1s, 0x0, .mod⟩]⟩,
  -- PRT_RTR_STRX
  ⟨0x0204034, 16, 0x10000, 1, 0x0, .hubHost, [⟨15, 0, .ro, 0x0, .part⟩]⟩,
  -- PRT_RTR_BAD
  ⟨0x0204038, 16, 0x10000, 1, 0x0, .hubHost, [⟨15, 0, .ro, 0x0, .part⟩]⟩,
  -- PRT_RED_SEL
  ⟨0x0205000, 16, 0x10000, 1, 0x0, .hubHost, [⟨6, 0, .rw, 0x0, .mod⟩, ⟨14, 7, .rw, 0x0, .mod⟩]⟩,
  -- PRT_RED_STAT
  ⟨0x0205004, 16, 0x10000, 1, 0x0, .hubHost, [⟨0, 0, .ro, 0x0, .tick⟩, ⟨1, 1, .ro, 0x0, .tick⟩, ⟨2, 2, .ro, 0x0, .tick⟩, ⟨3, 3, .w1c, 0x0, .tick⟩, ⟨4, 4, .w1c, 0x0, .tick⟩, ⟨12, 5, .ro, 0x0, .tick⟩, ⟨27, 16, .ro, 0x0, .tick⟩]⟩]

/-- Rows of the PRT block. -/
def regRowsPRT3 : List RegRow := [
  -- PRT_RED_DUP
  ⟨0x0205008, 16, 0x10000, 1, 0x0, .hubHost, [⟨15, 0, .ro, 0x0, .part⟩]⟩,
  -- PRT_RED_DROP
  ⟨0x020500C, 16, 0x10000, 1, 0x0, .hubHost, [⟨15, 0, .ro, 0x0, .part⟩]⟩,
  -- PRT_RED_PRUNE
  ⟨0x0205010, 16, 0x10000, 1, 0x0, .hubHost, [⟨15, 0, .ro, 0x0, .part⟩]⟩,
  -- PRT_RST_CMD
  ⟨0x0206000, 16, 0x10000, 1, 0x0, .hubHost, [⟨3, 0, .wo, 0x0, .mod⟩, ⟨10, 4, .wo, 0x0, .mod⟩, ⟨18, 11, .wo, 0x0, .mod⟩, ⟨21, 19, .wo, 0x0, .mod⟩]⟩,
  -- PRT_RST_STAT
  ⟨0x0206004, 16, 0x10000, 1, 0x0, .hub, [⟨2, 0, .ro, 0x0, .mod⟩, ⟨3, 3, .ro, 0x0, .mod⟩, ⟨4, 4, .w1c, 0x0, .mod⟩, ⟨5, 5, .w1c, 0x0, .mod⟩, ⟨15, 8, .ro, 0x1, .aon⟩, ⟨19, 16, .ro, 0x0, .mod⟩]⟩,
  -- PRT_RST_CTL
  ⟨0x0206008, 16, 0x10000, 1, 0x0, .hubHost, [⟨0, 0, .rw, 0x1, .mod⟩, ⟨1, 1, .rw, 0x1, .mod⟩, ⟨29, 16, .rw, 0x64, .mod⟩]⟩,
  -- PRT_SLU_CNT
  ⟨0x020600C, 16, 0x10000, 1, 0x0, .hub, [⟨15, 0, .ro, 0x0, .mod⟩, ⟨31, 16, .ro, 0x0, .mod⟩]⟩,
  -- PRT_RST_STALE
  ⟨0x0206010, 16, 0x10000, 1, 0x0, .hub, [⟨15, 0, .ro, 0x0, .mod⟩]⟩,
  -- PRT_SPARE
  ⟨0x0206014, 16, 0x10000, 1, 0x0, .hub, [⟨2, 0, .ro, 0x0, .nv⟩, ⟨5, 3, .ro, 0x0, .nv⟩, ⟨6, 6, .ro, 0x0, .nv⟩, ⟨31, 16, .ro, 0x0, .nv⟩]⟩]

/-- The register map. -/
def regRows : List RegRow :=
  regRowsHUB0 ++ regRowsHUB1 ++ regRowsHUB2 ++ regRowsTCK0 ++ regRowsTCK1 ++ regRowsPWR0 ++ regRowsPWR1 ++ regRowsFLT0 ++ regRowsFLT1 ++ regRowsEVR0 ++ regRowsMBX0 ++ regRowsSEC0 ++ regRowsSEC1 ++ regRowsRIG0 ++ regRowsRIG1 ++ regRowsFAB0 ++ regRowsFAB1 ++ regRowsFAB2 ++ regRowsLNK0 ++ regRowsLNK1 ++ regRowsPRT0 ++ regRowsPRT1 ++ regRowsPRT2 ++ regRowsPRT3

/-- Whether the row covers the offset. -/
def RegRow.covers (r : RegRow) (off : Nat) : Bool :=
  decide (r.base ≤ off) &&
    (let d := off - r.base
     let i := if r.s1 = 0 then 0 else d / r.s1
     let i := if i < r.n1 then i else r.n1 - 1
     let e := d - i * r.s1
     let j := if r.s2 = 0 then 0 else e / r.s2
     decide (j < r.n2) && decide (e = j * r.s2))

/-- The row that covers an offset; none at a reserved offset. -/
def regRow? (off : Nat) : Option RegRow := regRows.find? (fun r => r.covers off)

/-- The mask of a field. -/
def FieldRow.mask (f : FieldRow) : Nat := (2 ^ (f.hi + 1 - f.lo) - 1) <<< f.lo

/-- The mask of the fields for which `p` holds. -/
def RegRow.mask (r : RegRow) (p : FieldRow → Bool) : Nat :=
  (r.flds.filter p).foldl (fun m f => m ||| f.mask) 0

/-- The reset value of a row. -/
def RegRow.rst (r : RegRow) : Nat := r.flds.foldl (fun m f => m ||| f.rst <<< f.lo) 0

/-- The reset value of the register at an offset (R11); PRT_ID.PART resets to the partition's number (R487). -/
def regReset (off : Nat) : Word :=
  match regRow? off with
  | none => 0
  | some r =>
    if r.base = PRT_ID.off 0 then BitVec.ofNat 32 ((off - r.base) / 0x10000)
    else BitVec.ofNat 32 r.rst

end Sys2Proof.Machine
end

