-- ==== Sys2Proof/Machine/State.lean ====
section
/-! DEFINITION. The state of the module: every register, memory, buffer, queue, counter and pin the spec gives it,
and the queue of waiting commands. Units that exist in great number (cores, clusters, engines, routers) are held
sparsely: a unit not listed is in the state its default gives. -/

namespace Sys2Proof.Machine

/-! ### Fuses (R385) -/

/-- The fuses of one compute die: two bits a cluster, disabled cores and repaired rows, bad engines, serial. -/
structure DieFuses where
  clusMap : List (BitVec 2)
  coreOff : List (List (BitVec 9))
  rowRep  : List Word
  engBad  : BitVec 4
  dieSer  : DWord
  deriving DecidableEq, Repr

/-- The fuses of the module. A die not listed has no defect: clusters 0 to 74 enabled, 75 to 79 spare. -/
structure Fuses where
  variant  : BitVec 4
  clkFuse  : BitVec 12
  plimFuse : BitVec 8
  pkgRev   : BitVec 4
  serial   : DWord
  laneBad  : BitVec 144
  secret   : BitVec 256
  fuseDig  : BitVec 256
  intact   : Bool             -- the fuse map agrees with FUSE_DIG
  dies     : Store DieFuses
  deriving DecidableEq, Repr

/-! ### What leaves the module -/

/-- How a host read completes (R412, R415): with data, poisoned data, Unsupported Request or Completer Abort. -/
inductive Cpl where
  | data (bytes : List Byte)
  | poisoned (bytes : List Byte)
  | unsupported
  | abort
  deriving DecidableEq, Repr

/-- What AER logs (R415, Table 4). -/
inductive AerErr where
  | poisonedTlp
  | unsupportedRequest
  | completerAbort
  | uncorrectable (status : BitVec 16)
  deriving DecidableEq, Repr

/-- What a lane's transmitter sends in a frame time: electrical idle, a training block over and over, PRBS13Q, or a frame, each as
PAM4 levels (R217, R218, R231, R241). -/
inductive LaneTx where
  | idle
  | block (l : List (BitVec 2))
  | prbs (l : List (BitVec 2))
  | frame (l : List (BitVec 2))
  deriving DecidableEq, Repr

/-- What the module sends, drives or answers, oldest first in State.out. -/
inductive Output where
  /-- An MSI-X message: the function's master number and the vector (R417). -/
  | msix (fn : Nat) (vector : Nat)
  /-- The bytes of an SMBus answer (R418); `none` where the command byte is not acknowledged. -/
  | smbus (code : Nat) (bytes : Option (List Byte))
  /-- The completion of a host read (R412, R415). -/
  | completion (c : Cpl)
  /-- What the lanes of a port send in a frame time, with the word of the lanes that carry its units (R218, R219, R231, R241). -/
  | frame (port : Nat) (act : Nat) (lanes : List LaneTx)
  /-- A register value read (R411, R489). -/
  | readData (m : Master) (off : Nat) (v : Word)
  /-- A DOE response object (R448). -/
  | doe (bytes : List Byte)
  deriving DecidableEq, Repr

/-! ### Riggings (R168 to R198) -/

/-- A section held by the agents of this module. -/
structure Sect where
  typ   : Nat
  agent : Nat
  count : Nat
  bytes : List Byte
  deriving DecidableEq, Repr

/-- A slice context of the module, beyond its registers (R53 to R58, R189 to R194). -/
structure CtxSt where
  active   : List Sect            -- configuration of the active rigging
  shadow   : List Sect            -- shadow state (R189)
  digs     : List (Nat × List Byte)   -- digest of each agent's active rigging (R184)
  shadDigs : List (Nat × List Byte)   -- digests of the agents that have reported
  shadBad  : List Nat             -- agents whose shadow state holds a byte with bad parity (R196)
  lost     : Bool                 -- a member module was lost while the shadow was armed (R196)
  started  : Bool                 -- the cores have started in this tick (R132)
  loadAt   : Nat                  -- time LOADING was entered
  aborted  : Bool                 -- an abort of the current tick has arrived
  holdNext : Option Nat           -- hold cause taken at the next boundary
  open_    : Bool                 -- a tick stays uncommitted
  repairs  : List Repair          -- repairs that an abort waits for
  inRepair : Nat                  -- periods spent in REPAIR
  refused  : Bool                 -- a commit refusal has arrived
  commitTick : Bool               -- the tick under way is the commit tick (R192)
  fenceArm : List (Nat × Nat × Bool)  -- module and mask as WHO, step, set (R296)
  fenceHeld : List (Nat × Nat × Bool) -- those written and not yet armed (R325)
  fences   : List Nat             -- fence table entries in force: module and mask as WHO
  treeArm  : List (Nat × Nat × Bool)  -- RID, step, alternate: tree switches to come (R301)
  misses   : Nat                  -- epoch misses since the latest fold round (R328)
  late     : List Nat             -- attempts of the previous tick whose late ABORT has been recorded (R69, R226)
  deriving DecidableEq, Repr

/-- A context in IDLE with nothing loaded. -/
def CtxSt.init : CtxSt :=
  { active := [], shadow := [], digs := [], shadDigs := [], shadBad := [], lost := false, started := false, loadAt := 0, aborted := false, holdNext := none,
    open_ := false, repairs := [], inRepair := 0, refused := false, commitTick := false,
    fenceArm := [], fenceHeld := [], fences := [], treeArm := [], misses := 0, late := [] }

/-! ### Cores (R103 to R137) -/

/-- The packets of one counted message that have arrived: source, message number, count named, SEQs (R289). -/
structure MsgSt where
  src   : Nat
  msg   : Nat
  count : Nat
  seqs  : List Nat
  deriving DecidableEq, Repr

/-- An in port: counts of the filling and the consuming half and the messages of the tick (R109, R110). -/
structure InPort where
  fill : Nat
  cons : Nat
  msgs : List MsgSt
  deriving DecidableEq, Repr

/-- A write of an entry: the cycle of the entry it takes place in, the units it completes or fills, its bytes, the ACC writes it
is, its flags (R100, R120, R504). -/
structure Item where
  cyc   : Nat
  units : List Nat
  bytes : List (Nat × Byte)
  accn  : Nat
  fl    : NFlags
  deriving DecidableEq, Repr

/-- What an entry emits on its out port (R113, R125, R127): a unit that it has read, a unit that it has written, a packet. -/
inductive Emit where
  | unit (u : XUnit)
  | written (u : Nat)
  | packet (p : Packet)
  deriving DecidableEq, Repr

/-- What an entry does: the units it reads, its writes and its emissions, each with its cycle counted from the issue (R504); the
cycles in which SEND drops a row; the generator and the accumulators after it; its cycles. -/
structure Plan where
  reads : List (Nat × Nat)
  items : List Item
  emit  : List (Nat × Emit)
  drops : List Nat
  rng   : Rng
  accs  : List Acc
  maxs  : List Val
  cyc   : Nat
  deriving DecidableEq, Repr

/-- One core: 24 banks and their bad bytes, the halves in use, accumulators, generator, execution of the tick's table,
ports, status words (R103). -/
structure CoreSt where
  banks   : Store Byte          -- key 8192 × physical bank + byte
  bad     : List Nat            -- bytes whose parity is bad
  odd     : List Nat            -- pairs whose consuming or committed half is the odd bank
  accs    : List Acc            -- accumulators of the open run
  maxs    : List Val            -- running maxima of an open REDUCE MAX or MAXABS run
  rng     : Option Rng          -- the generator; none: at the seed of the attempt (R52)
  entry   : Nat
  atEnd   : Bool
  stopped : Bool                -- stopped by a parity hit (R49, R133)
  waiting : Bool                -- stalled at a WAIT (R129)
  work    : Option Plan         -- the entry that has issued and is not complete (R504)
  prog    : Nat                 -- its cycles that have passed
  stalled : Bool                -- it stalls at an emission without credit (R106)
  cyc     : Nat                 -- cycles the entries have taken since B + 32 ns (R503)
  accWr   : Nat                 -- ACC writes completed in the tick (R49)
  supp    : Nat                 -- leading ACC writes still to suppress in a replay
  in0     : InPort
  in1     : InPort
  out0    : List XUnit          -- units queued on an out port
  out1    : List XUnit
  sends   : List (Bool × Packet) -- packets of SEND entries not yet injected, each with its out port (R129)
  stat    : Word                -- PRT_CORE_STAT
  drops   : Nat                 -- PRT_CORE_CNT.DROPS
  silent  : Bool                -- does not answer the status poll
  deriving DecidableEq, Repr

/-- A core as reset leaves it: bank contents are undefined and read 0 here (DESIGN CHOICE, log entry 5). -/
def CoreSt.init : CoreSt :=
  { banks := [], bad := [], odd := [], accs := [], maxs := [], rng := none, entry := 0, atEnd := false,
    stopped := false, waiting := false, work := none, prog := 0, stalled := false, cyc := 0, accWr := 0, supp := 0, in0 := ⟨0, 0, []⟩, in1 := ⟨0, 0, []⟩,
    out0 := [], out1 := [], sends := [], stat := 0, drops := 0, silent := false }

/-- What an unlisted byte of a bank reads as. -/
def byteZero : Nat → Byte := fun _ => 0

/-! ### Clusters and router agents (R160, R206, R278 to R304) -/

/-- One tree at a router agent: partial values and chunks of the current tick, and what outlasts it (R285 to R304). -/
structure TreeSt where
  vals   : Store Word           -- element index to partial value in CFMT
  first  : List Nat             -- elements that hold a value
  units  : Store (List XUnit)   -- contributor index to the units it has offered in this tick
  got    : List (Nat × Nat)     -- (contributor, chunk) delivered
  sent   : List Nat             -- chunks sent on, injected or placed in the write queue
  pruned : Nat                  -- contributors pruned at or below this agent in the tick
  alt    : Bool                 -- the alternate configuration is in force (R301)
  altNext : Option Bool         -- a switch that takes effect at the boundary
  stat   : Word                 -- PRT_RED_STAT: DONE, SAT, POISON, PRUNED
  deriving DecidableEq, Repr

/-- A tree with nothing received. -/
def TreeSt.init : TreeSt :=
  { vals := [], first := [], units := [], got := [], sent := [], pruned := 0, alt := false, altNext := none,
    stat := 0 }

/-- A logical cluster: its scrubber, its fenced tiles and its trees. -/
structure ClusSt where
  scrub  : Nat                  -- next tile, 24 × core + bank
  began  : Option Nat           -- time the sweep began; none before the first bank (R162)
  fenced : List Nat             -- tiles fenced, 24 × core + bank (R161)
  trees  : Store TreeSt         -- by record index
  deriving DecidableEq, Repr

/-- A cluster at the start of its first sweep. -/
def ClusSt.init : ClusSt := { scrub := 0, began := none, fenced := [], trees := [] }

/-! ### Update engines (R150 to R159) -/

/-- An element in flight in an engine: the job, the element, and the results of the operations done (R153). -/
structure ElemSt where
  job  : Nat
  elem : Nat
  res  : List Word
  deriving DecidableEq, Repr

/-- One update engine: its run, its progress, watermark and generator. -/
structure EngSt where
  run     : Option (Nat × Nat)   -- job under way and the slice step its run started at
  done    : Nat                  -- elements of the run completed and committed
  tick    : Nat                  -- elements completed in this tick, the watermark (R49)
  supp    : Nat                  -- leading element writes still to suppress in a replay
  stop    : Bool                 -- stopped by a parity hit (R49)
  ran     : Bool                 -- the job's work of this tick has been done
  cur     : Option ElemSt
  held    : List (List Word)     -- results of the elements of an unfinished hank (R156)
  pubJob  : Option Nat           -- publication job under way
  pubNext : Nat                  -- next tile of its run
  pubTick : Nat                  -- tiles published in this tick
  pend    : List Nat             -- tile headers with PEND set, as MLAs (R159)
  pubDone : List (Nat × Nat)     -- publication jobs and the slice step their latest run ended
  jobDone : List (Nat × Nat)     -- update jobs and the slice step their latest run ended (R158, R164)
  raced   : List (Nat × Nat)     -- LPDDR5 bytes of its streams that the host wrote during the run: from, to (R166)
  rng     : Option Rng           -- the generator; none: at the seed of the attempt (R52, R154)
  failed  : Bool
  par     : Option (List Word)   -- the parameter block, as read at the start of the job's tick (R156)
  deriving DecidableEq, Repr

/-- An idle engine. -/
def EngSt.init : EngSt :=
  { run := none, done := 0, tick := 0, supp := 0, stop := false, ran := false, cur := none, held := [],
    pubJob := none, pubNext := 0, pubTick := 0, pend := [], pubDone := [], jobDone := [], raced := [], rng := none, failed := false, par := none }

/-! ### LPDDR5 channels and system areas (R143 to R148, R165) -/

/-- What a rigging copy of the system area holds of one slice of a partition (R193, R194). -/
structure CopySt where
  sects  : List Sect
  engs   : List EngSt            -- the job state of the partition's engines (R147)
  digs   : List (Nat × List Byte)
  copied : List (Nat × List Byte)     -- the digests of the agents over the sections that the copy holds
  sid    : Nat
  epoch  : Nat
  step   : Nat
  state  : Nat
  good   : Bool                  -- its SHAKE256 digest holds
  deriving DecidableEq, Repr

/-- One LPDDR5 channel beyond its data. -/
structure ChanSt where
  slotAt  : Nat                  -- time of the start of the latest slot
  slotEnd : Nat                  -- time of its end (R41)
  calLeft : Nat                  -- calibration work unfinished at that end, in timebase units (R42)
  scrub   : Nat                  -- next parity group
  selfRef : Bool                 -- in self refresh (R144)
  lost    : List Nat             -- tile records marked lost, as MLAs (R149)
  copies  : List (Nat × CopySt)  -- rigging copy: context and content
  fw      : List Byte            -- the hub's copy of its firmware image (global channels 0 and 4)
  fwGood  : Bool
  pattern : List Byte            -- the training patterns of the system area (R147)
  deriving DecidableEq, Repr

/-- A channel with an empty system area. -/
def ChanSt.init : ChanSt :=
  { slotAt := 0, slotEnd := 0, calLeft := 0, scrub := 0, selfRef := false, lost := [], copies := [], fw := [], fwGood := true,
    pattern := [] }

/-! ### Partitions (R359 to R371) -/

/-- What a closed sluice leads to. -/
inductive DrainFor where
  | partition | module | powerDown | endpoint
  deriving DecidableEq, Repr

/-- One partition: owner, sluice, logical-to-physical tables, retirements. -/
structure PartSt where
  owner   : Option (Fin 16)      -- slice context that holds the partition
  closed  : Bool                 -- its sluice is closed
  drain   : Option DrainFor      -- a drain in progress, and what follows it
  drainAt : Nat                  -- time the drain began
  held    : Bool                 -- held in reset (R344 step 4, ladder step 5)
  reapply : List (Fin 16)        -- contexts that held the partition when it was reset (R371)
  clusSub : Store Nat            -- logical cluster to the spare physical cluster that serves it
  coreSub : Store Nat            -- 250 × logical cluster + logical core to the spare physical core
  engSub  : Option (Fin 8)       -- logical engine served by physical engine 8
  coreRot : Nat                  -- core rotation count (R369)
  clusRot : Nat
  rotates : Nat
  rotFrom : Nat                  -- units on the remap list at the latest rotation
  retired : List (Nat × Nat)     -- remap list: physical cluster and physical core, 256 for the whole cluster
  waiting : List Retiree         -- retirements that wait for REPAIR or HOLD (R365)
  remaps  : Nat
  oos     : Bool                 -- out of service in the NV remap list (R368)
  bypass  : List Nat             -- positions whose router is in bypass (R202)
  served  : List (Nat × Nat)     -- those positions, each with the logical cluster that it served
  altMem  : List (Fin 8)         -- channels served from their alternate router
  msgs    : List MsgSt           -- counted write messages of the tick at the endpoint agent (R164, R289)
  deriving DecidableEq, Repr

/-- A partition in no slice with every spare left. -/
def PartSt.init : PartSt :=
  { owner := none, closed := false, drain := none, drainAt := 0, held := false, reapply := [], clusSub := [],
    coreSub := [], engSub := none, coreRot := 0, clusRot := 0, rotates := 0, rotFrom := 0, retired := [], waiting := [],
    remaps := 0, oos := false, bypass := [], served := [], altMem := [], msgs := [] }

/-! ### Routers (R199 to R216, R260 to R265) -/

/-- A strand unit on its way: slice, SID, data (R205). -/
structure StrandUnit where
  slice : Nat
  sid   : Nat
  unit  : XUnit
  deriving DecidableEq, Repr

/-- A packet in an input buffer: the time from which its head has waited here without a productive direction (R265); the output
chosen for it on this module, a logical port, 16 for delivery here, 32 and a port for this hub (R260); the router and output, as
8 × router + code, at which it leaves the mesh (R213, R264); for a multicast packet that has been split, the copies that have not been
granted their outputs: port, group bitmap, position bitmap (R294). -/
structure Queued where
  pkt    : Packet
  at_    : Nat
  via    : Option Nat
  goal   : Option Nat
  copies : Option (List (Nat × Nat × Nat))
  deriving DecidableEq, Repr

/-- The counters of one router port (R216). -/
structure RtrCnt where
  pkt   : Nat
  byte  : Nat
  stru  : Nat
  stall : Nat
  strx  : Nat
  qmax  : List Nat
  deriving DecidableEq, Repr

/-- Counters at 0. -/
def RtrCnt.init : RtrCnt := ⟨0, 0, 0, 0, 0, [0, 0, 0, 0]⟩

/-- One router. -/
structure RtrSt where
  bufs    : Store (List Queued)   -- 4 × input port + channel: the packets held (R212)
  offer   : Store (List Packet)   -- by the same key: packets that what stands before the input offers, without room yet
  fifo    : Store (List StrandUnit)  -- input port: strand units held
  got     : List (Nat × Nat × Nat)   -- (slice, SID, units of the tick) that came in
  cnt     : Store RtrCnt          -- by port
  bad     : Nat
  tokens  : Store (Nat × Nat)     -- by output port: tokens of VC_MGT's bucket, and when they were counted (R214)
  pick    : Nat                   -- port of the router's last pick (R261)
  stuck   : Store (Option Nat)    -- by output port: the time up to which its cycles without credit are counted (R216)
  last    : Store Nat             -- by output, or 8 + in port: 1 + the SID of the strand granted last (R204, R214)
  core    : Nat                   -- 1 + the core whose packet the crossbar took last (R204)
  deriving DecidableEq, Repr

/-- An empty router with a full token bucket. -/
def RtrSt.init : RtrSt :=
  { bufs := [], offer := [], fifo := [], got := [], cnt := [], bad := 0, tokens := [],
    pick := 15, stuck := [], last := [], core := 0 }

/-! ### Link ports (R217 to R246, R268 to R270) -/

/-- The taps of a transmit equaliser, in steps from the preset (R231). -/
structure Taps where
  pre2  : Int
  pre1  : Int
  post1 : Int
  deriving DecidableEq, Repr

/-- One lane of a port: its receive pair and its transmit pair. -/
structure LaneSt where
  goodRun : Nat                  -- consecutive good frames (R220)
  badRun  : Nat                  -- consecutive bad frames
  locked  : Bool
  inverted : Bool
  order   : Option Nat           -- the sender's port lane index of what is received here (R231)
  splices : List Nat             -- times of the splices of the last 600 s (R240)
  sigLost : Bool
  ready   : Bool                 -- the peer has set RX_READY (R231)
  mine    : Bool                 -- this end sets RX_READY
  precode : Bool                 -- both ends request precoding (R217)
  taps    : Taps                 -- the transmit taps set by the peer's requests
  ask     : Nat                  -- the request of the next training block
  answer  : Nat                  -- its response
  uncs    : List Nat             -- times of the uncorrectable codewords of the last 1 ms (R239)
  errAt   : Nat                  -- start of the 100 ms over which symbol errors are averaged
  errs    : Nat                  -- symbols corrected in them
  dirty   : Nat                  -- the latest time at which the lane was not clean (R240)
  bitErrs : Nat                  -- bits corrected since
  txScr   : Nat                  -- the latest 58 scrambled bits sent (R217)
  rxScr   : Nat                  -- and received
  txLevel : Nat                  -- the latest precoded level sent (R217)
  rxLevel : Nat                  -- and received
  deriving DecidableEq, Repr

/-- A lane before training. -/
def LaneSt.init : LaneSt :=
  { goodRun := 0, badRun := 0, locked := false, inverted := false, order := none, splices := [], sigLost := true, ready := false,
    mine := false, precode := false, taps := ⟨0, 0, 0⟩, ask := 0, answer := 0, uncs := [], errAt := 0, errs := 0, dirty := 0,
    bitErrs := 0, txScr := 0, rxScr := 0, txLevel := 0, rxLevel := 0 }

/-- A frame time kept in the retry buffer (R221): its SEQ, its units with their tags, the time it was sent. -/
structure RetryEnt where
  seq   : Nat
  units : List (Nat × XUnit)
  at_   : Nat
  deriving DecidableEq, Repr

/-- One link port. -/
structure PortSt where
  grans    : List Nat            -- granules in ascending order (R227)
  lanes    : Store LaneSt
  txAct    : List Nat            -- active lanes of the transmitting direction
  rxAct    : List Nat            -- active lanes of the receiving direction
  txChange : List (Nat × Nat × Bool)  -- changes to come: lane, SEQ, whether it is added
  rxChange : List (Nat × Nat × Bool)
  seqTx    : Nat                 -- next SEQ sent
  seqRx    : Nat                 -- SEQ expected
  retry    : List RetryEnt       -- frame times not acknowledged, oldest first
  resend   : List (Nat × XUnit)  -- units to be sent again, with their tags
  nakOut   : Bool                -- the NAK of a retry round has been sent (R221)
  seen     : Option Nat          -- the latest SEQ seen since
  naks     : List Nat            -- times of the NAKs of the last 100 µs (R242)
  ctl      : List (BitVec 48)    -- control messages queued (R226)
  ctlRep   : List (BitVec 48 × Nat)  -- ABORT and REFUSE messages still to be repeated, and how often (R226)
  txq      : Store (List Packet) -- packets queued by channel
  txPart   : List XUnit          -- units left of the packet that holds the output
  inflight : List (Packet × Nat) -- packets begun, with their units not acknowledged
  tokens   : Nat                 -- token bucket of VC_MGT (R214)
  rxPart   : List XUnit          -- units of the packet that is arriving (R223)
  rxq      : Store (List Packet) -- packets received by channel
  credit   : Store Nat           -- units free at the peer by channel (R268)
  freed    : Store Nat           -- units freed here and not yet returned
  freedAt  : Nat                 -- since when
  strandTx : List StrandUnit
  strandN  : Store Nat           -- units of a strand sent in the tick, by 4096 × slice + SID
  strandM  : Store Nat           -- units of a strand received in RBW packets in the tick, by the same key (R215)
  lastSid  : Nat                 -- the strand that sent the latest unit
  strandRx : List StrandUnit
  heldRx   : List StrandUnit     -- units of the new tick held until the boundary (R224)
  peerTick : Nat                 -- low 8 bits of the global step that the units taken now belong to
  edges    : List (Nat × Nat)    -- TICK_EDGEs to come: the SEQ of their frame time, the step that begins (R224)
  edgeSend : Bool                -- TICK_EDGE still to be sent
  syncSend : Bool                -- a SYNC still to be sent (R226)
  ident    : Store Word          -- IDENT segments received
  identTx  : Nat                 -- next IDENT segment sent; 12: none
  retrain  : Bool                -- no block of the peer has arrived since the latest port reset (R234)
  dataReady : Bool
  token    : Option (Nat × Nat)  -- ECHO token outstanding and its send time (R230)
  retrains : List Nat            -- times of the port resets of the last 600 s (R235)
  fails    : Nat                 -- failures to reach IDENT in sequence
  since    : Nat                 -- time of the entry into the state
  calRot   : Nat                 -- next lane in the calibration rotation (R241)
  cal      : Option (Nat × Nat)  -- the receive lane that a window measures, and the end of the window
  txCal    : List Nat            -- transmit lanes that the peer's window has taken out
  optAt    : Option Nat          -- since when the port waits for its optical module (R244)
  rbw      : Store (List StrandUnit) -- RBW packets being filled, by 4096 × slice + SID (R270)
  rbwAt    : Store Nat           -- time of the latest unit, by the same key
  waiting  : List (Packet × Nat) -- returned packets and when they returned (R269)
  deriving DecidableEq, Repr

/-- A port in OFF. -/
def PortSt.init : PortSt :=
  { grans := [], lanes := [], txAct := [], rxAct := [], txChange := [], rxChange := [], seqTx := 0, seqRx := 0, retry := [],
    resend := [], nakOut := false, seen := none, naks := [], ctl := [], ctlRep := [], txq := [], txPart := [], inflight := [], tokens := 66,
    rxPart := [], rxq := [], credit := [], freed := [], freedAt := 0, strandTx := [], strandN := [], strandM := [], lastSid := 0, strandRx := [],
    heldRx := [], peerTick := 0, edges := [], edgeSend := false, syncSend := false, ident := [], identTx := 0, retrain := false, dataReady := false,
    token := none, retrains := [], fails := 0, since := 0, calRot := 0, cal := none, txCal := [], optAt := none,
    rbw := [], rbwAt := [], waiting := [] }

/-! ### The tick master (R33 to R71) -/

/-- The tick master beyond its registers. -/
structure TickSt where
  bound    : Nat                 -- time of the latest boundary
  len      : Nat                 -- length of the tick under way, in timebase units
  clk      : Nat                 -- core and fabric clock in force, MHz, before a step to 3/4 (R387)
  reqDip   : Bool                -- own stretch requests by cause (R61, R388, R466)
  reqGov   : Bool
  reqTherm : Bool
  reqPeers : List Nat            -- ports of followers whose SYNC carries a request
  order    : Bool                -- the parent's SYNC says that the stretch applies (R62)
  reqAt    : Nat                 -- time since which the stretch is due here
  steps    : Nat                 -- causes holding the clock at 3/4: bit 0 dip, 1 governor, 2 thermal; bits 3 to 5:
                                 -- the same causes, over, whose step ends at the next boundary (R63)
  window   : Nat                 -- consecutive SYNCs in the window, 0 to 64 (R66)
  holdover : Option Nat          -- time holdover began (R67)
  lostSaid : Bool                -- the 1 ms of this holdover has been reported (R67)
  recover  : Option Nat          -- time the input recovered (R63)
  effAt    : Nat                 -- time the stretch in force took effect
  roleNext : Option (Bool × Nat × Nat)   -- the role of reference taken or given up at the next boundary, and the ports that a
                                 -- reference then follows as PARENT and ALT_PARENT (R65)
  unarmed  : List (Nat × Nat)    -- slices and commit steps that this module knows of and is not ARMED for (R191)
  deriving DecidableEq, Repr

/-- The tick master after a module reset. -/
def TickSt.init : TickSt :=
  { bound := 0, len := 5000, clk := 1250, reqDip := false, reqGov := false, reqTherm := false, reqPeers := [], order := false, reqAt := 0,
    steps := 0, window := 0, holdover := none, lostSaid := false, recover := none, effAt := 0, roleNext := none, unarmed := [] }

/-! ### The fault collector (R338 to R355) -/

/-- What settles a held message (R341): the boundary of a context, or an action named by a number. -/
inductive Settle where
  | tick (n : Fin 16)
  | action (key : Nat)
  deriving DecidableEq, Repr

/-- An entry of the fault queue (R355). -/
structure QEntry where
  msg   : FaultMsg
  cls   : Nat
  stale : Bool
  held  : Bool
  step  : DWord
  tb    : Nat
  deriving DecidableEq, Repr

/-- An entry of the source table (R342); state 0 FREE, 1 COUNTING, 2 PROMOTED. -/
structure SrcEnt where
  state : Nat
  count : Nat
  cls   : Nat
  src   : Word
  start : Nat
  last  : Nat
  deriving DecidableEq, Repr

/-- A free source entry. -/
def SrcEnt.init : SrcEnt := ⟨0, 0, 0, 0, 0, 0⟩

/-- An entry of the freeze table (R349); kind 0 is empty, 1 core, 2 engine, 3 tree record, 4 partition. -/
structure FrzEnt where
  kind  : Nat
  slice : Nat
  src   : Word
  rec_  : Nat
  deriving DecidableEq, Repr

/-- An empty freeze entry. -/
def FrzEnt.init : FrzEnt := ⟨0, 0, 0, 0⟩

/-- The crash dump (R351 to R353). -/
structure DumpSt where
  grave  : Bool                  -- started by a real GRAVE message
  code   : Nat
  src    : Word
  left   : List Nat              -- regions still to read
  bytes  : List Byte             -- the dump so far
  done   : Bool
  deriving DecidableEq, Repr

/-- No dump. -/
def DumpSt.init : DumpSt := ⟨false, 0, 0, [], [], false⟩

/-- An open incident of a hang (R361, R362). -/
structure Incident where
  code  : Nat
  ctx   : Option Nat             -- the slice context that the hang was met in
  srcs  : List Word              -- the sources of its latest persistence
  taken : Nat                    -- steps taken
  step  : Nat                    -- the latest one, as Table 4 numbers it
  top   : Nat                    -- the highest one
  since : Nat                    -- time the latest step was taken
  ended : Option Nat             -- time it completed
  deriving DecidableEq, Repr

/-- The collector beyond its registers. -/
structure FltSt where
  queue   : List QEntry
  held    : List (FaultMsg × Settle)
  srcs    : Store SrcEnt
  frz     : Store FrzEnt
  force   : Option FaultMsg      -- the force bit set and its source (R346)
  inj     : Bool                 -- a forced detection is under way: its messages carry INJ (R346)
  pulse   : Option Nat           -- time a FAULT_N pulse ends
  graveAt : Option Nat           -- time of the latching GRAVE message
  graveDone : Bool               -- step 4 of R344 has been taken
  dump    : DumpSt
  window  : Store Byte           -- the dump buffer
  incidents : List Incident      -- incidents with a ladder step behind them
  lastTot : List (Nat × Word)    -- sources of the hang indicators of a context's latest aborted tick (R361)
  deriving DecidableEq, Repr

/-- An empty collector. -/
def FltSt.init : FltSt :=
  { queue := [], held := [], srcs := [], frz := [], force := none, inj := false, pulse := none, graveAt := none, graveDone := false,
    dump := DumpSt.init, window := [], incidents := [], lastTot := [] }

/-! ### Recorder, NOR and security (R433 to R451) -/

/-- Security and firmware state beyond the registers. -/
structure SecSt where
  staging  : Store Byte          -- the firmware staging window (R444)
  image    : List Byte           -- the running firmware image
  waitAt   : Nat                 -- time the boot ROM began to wait
  ranAt    : Nat                 -- time the firmware began to run
  auth     : Option (Nat × List Byte)   -- authorised command accepted, its ARG; its NOR write is not committed yet
  fwRx     : Store (List Byte)   -- FW_SEG segments received by number (R444)
  fwFrom   : Option (Packet × Nat)  -- the latest FW_SEG segment and its port, for the reply
  fwAt     : Nat                 -- time of the latest FW_SEG segment or reply
  deriving DecidableEq, Repr

/-- No firmware and no command. -/
def SecSt.init : SecSt :=
  { staging := [], image := [], waitAt := 0, ranAt := 0, auth := none, fwRx := [], fwFrom := none, fwAt := 0 }

/-- The objects of the serial NOR (R449), each with its version, and whether the NOR can be read. The remap lists stand with
the partitions. -/
structure NorSt where
  readable : Bool
  cycles   : Nat                 -- power-cycle count of COUNTERS
  opsec    : Nat                 -- operating seconds of COUNTERS
  manifest : List Byte
  calib    : List Byte           -- serial number that the calibration data carries; empty without data
  keys     : Store (Nat × List Byte)   -- slot to KIND and digest
  svn      : Nat
  remapClr : List Nat            -- partitions whose remap list is cleared at the next module reset (R439)
  failed   : List Nat            -- objects of which no version passes its tag (R450)
  deriving DecidableEq, Repr

/-- The key slots; none where the NOR cannot be read (R441). -/
def NorSt.keySlots (n : NorSt) : Store (Nat × List Byte) := if n.readable then n.keys else []

/-- SEC_SVN_MIN: 0 where the NOR cannot be read (R443). -/
def NorSt.svnMin (n : NorSt) : Nat := if n.readable then n.svn else 0

/-- The cached manifest; none where the NOR cannot be read (R317). -/
def NorSt.cached (n : NorSt) : List Byte := if n.readable then n.manifest else []

/-- An attestation request: its path (0 DOE, 1 SMBus, 2 discovery), selector, nonce, and the DISCOVER it answers with
the port that brought it. -/
structure AttReq where
  path  : Nat
  sel   : Nat
  nonce : List Byte
  pkt   : Option (Packet × Option (Fin 16))
  deriving DecidableEq, Repr

/-- Attestation: the requests waiting in arrival order, and the response ready on SMBus (R447, R448). -/
structure AttSt where
  queue : List AttReq
  smb   : Option (List Byte)
  deriving DecidableEq, Repr

/-! ### Mailboxes (R420 to R431) -/

/-- A queued mailbox message: its sixteen words, the sender's generation, the time of its post. -/
structure MbxMsg where
  words : List Word
  sgen  : Byte
  at_   : Nat
  timed : Bool                   -- its timeout has been reported
  deriving DecidableEq, Repr

/-- A mailbox channel: staging buffer, queue, and the two copies of head and tail (R427). -/
structure MbxCh where
  stage : List Word
  queue : List MbxMsg
  head1 : Nat
  head2 : Nat
  tail1 : Nat
  tail2 : Nat
  deriving DecidableEq, Repr

/-- An empty channel. -/
def MbxCh.init : MbxCh :=
  { stage := List.replicate 16 0, queue := [], head1 := 0, head2 := 0, tail1 := 0, tail2 := 0 }

/-! ### Fabric manager (R305 to R336) -/

/-- A slice reservation (R324). -/
structure Resv where
  slice   : Nat
  members : List (Nat × Nat)     -- module, partition mask
  chan    : Nat                  -- event channel
  ctx     : List (Nat × Nat)     -- module, context
  fences  : List Nat             -- fences set: module and mask as WHO
  deriving DecidableEq, Repr

/-- A load as the management module conducts it (R187 to R190, R326, R327). -/
structure LoadSt where
  active  : Bool
  num     : Nat                  -- load number
  image   : List Byte
  slices  : List Nat
  reports : List (Nat × Nat × List Byte × Nat)  -- module, slice, XOR of digests, error
  begun   : Nat
  delta   : Bool
  armed   : List (Nat × Nat)     -- slices with the commit step that has been armed for them (R190)
  spent   : List Nat             -- slices whose verified load has failed, or has committed (R189, R190)
  deriving DecidableEq, Repr

/-- A distribution received as a member: plan, segments held (R326, R327). -/
structure RecvSt where
  load    : Nat
  plan    : List (Nat × Nat × Nat)   -- directory entry, first segment, count
  segs    : Store (List Byte)        -- segment number to data
  lastAt  : Nat
  heads   : List (Nat × List Byte)   -- directory entries received
  src     : Word
  delta   : Bool                 -- FLAGS.DELTA of the image
  begun   : List Nat             -- slices of which a section has arrived (R189)
  deriving DecidableEq, Repr

/-- A decision journaled to the standby (R310). -/
structure Journal where
  seq  : Nat
  kind : Nat
  data : List Byte
  deriving DecidableEq, Repr

/-- An answer that the hub awaits (R314): the command's code and message number, the module it went to (4096: any), and what waits
for it: 0 nothing, 1 the host command, 2 the route tables, 3 a load, 4 a drift check, 5 a commit, 6 the coordinator's tether; and the
first port of its source route, 16 for a command that went by the tables. -/
structure Await where
  code : Nat
  msg  : Nat
  mod  : Nat
  job  : Nat
  hop  : Nat
  deriving DecidableEq, Repr

/-- A source-routed command passed on (R313): where its answer will arrive, its code and number, and where the answer goes. -/
structure Relay where
  out_ : Nat
  code : Nat
  msg  : Nat
  back : Nat
  src  : Word
  deriving DecidableEq, Repr

/-- The host command in progress (R323): its arguments, how far it is, the step it names, and what has been read for it. -/
structure HostCmd where
  code  : Nat
  hseq  : Nat
  args  : List Nat
  phase : Nat
  step  : Nat
  got   : List (Nat × List Nat)
  told  : Bool                   -- its journal record has been sent (R310)
  deriving DecidableEq, Repr

/-- A TETHER sent: its sequence number, when, and the modules that have answered (R307). -/
structure TetherSt where
  seq : Nat
  at_ : Nat
  got : List Nat
  deriving DecidableEq, Repr

/-- The machine coordinator's role as this module holds it (R335): what R307 to R310 keep of the coordinator tether, the circuits that the
group tables are computed from, and what the managers of other groups have told. -/
structure CoordSt where
  seq      : Nat                 -- next coordinator tether
  sentAt   : Nat
  tethers  : List TetherSt       -- coordinator tethers sent in the last 45 ms, with the groups that have answered
  leaseEnd : Nat
  tetherAt : Option Nat          -- time of the latest coordinator tether received
  replyAt  : Option Nat          -- standing by: time of the latest answer to one
  takeAt   : Option Nat          -- time of our TERM_SET as coordinator
  accepts  : List Nat            -- groups that have accepted it
  inputs   : List (Nat × Nat × Nat × Nat)   -- circuits of the group graph that the tables use, or will at `swapAt`
  swapAt   : Option Nat          -- machine-wide step named for the group table swap, while it is to be armed
  reroot   : Bool                -- the escape tree between groups changes with that swap (R335)
  parts    : List (Nat × Nat × Nat × Nat)   -- a map or a set of circuits on its way here
  up       : List (Nat × Nat)    -- uplinks of other groups reported as usable: module and port
  held     : List (Nat × Nat × Nat)  -- reservations of other managers: slice, module, context
  deriving DecidableEq, Repr

/-- No coordinator known. -/
def CoordSt.init : CoordSt :=
  { seq := 0, sentAt := 0, tethers := [], leaseEnd := 0, tetherAt := none, replyAt := none, takeAt := none, accepts := [], inputs := [],
    swapAt := none, reroot := false, parts := [], up := [], held := [] }

/-- A firmware image being served to a position: its source route from here (R444). -/
structure Serve where
  pos   : Nat
  route : Word
  image : List Byte
  deriving DecidableEq, Repr

/-- One slice's value in a fold round (R328): epoch, contributors, exclusive or, epoch misses, the children that have reported, and
whether two epochs or a commit met. -/
structure FoldSt where
  slice  : Nat
  epoch  : Nat
  count  : Nat
  xor    : List Byte
  misses : Nat
  kids   : List Nat
  void   : Bool
  deriving DecidableEq, Repr

/-- What the folding manager keeps of a slice (R329): mismatching rounds in sequence, where the treatment of drift stands (0 none,
1 held, 3 its members being read, 2 restored), matching rounds since, rounds since a commit, and the epoch of the latest round. -/
structure DriftSt where
  slice : Nat
  bad   : Nat
  fix   : Nat
  good  : Nat
  calm  : Nat
  epoch : Nat
  deriving DecidableEq, Repr

/-- What the manager knows of one position of its group. -/
structure PosSt where
  nonce  : BitVec 256
  route  : Word                  -- source route of the latest DISCOVER: hops and ports, as ROUTE
  began  : Bool                  -- a DISCOVER has been sent
  reply  : Store (List Byte)     -- DISCOVER reply segments
  key    : List Byte             -- digest of the key that it presented
  feat   : Nat                   -- highest feature level seen
  beatAt : Nat                   -- time of the latest heartbeat
  links  : List Nat              -- ports known to be ACTIVE, or about to be
  deriving DecidableEq, Repr

/-- A position not yet discovered. -/
def PosSt.init : PosSt := ⟨0, 0, false, [], [], 0, 0, []⟩

/-- The manager role of this module and the hub's view of its managers. -/
structure MgrSt where
  leaseEnd  : Nat
  tethers   : List TetherSt      -- TETHERs sent in the last 45 ms
  sentAt    : Nat
  tetherSeq : Nat
  tetherAt  : Option Nat         -- time of the latest TETHER received
  replyAt   : Nat                -- standby: time of its latest TETHER reply
  sby       : Nat                -- acting: the other manager module is 0 not joined, 1 copying, 2 in STANDBY
  accepts   : List Nat           -- modules that have accepted our TERM_SET
  takeAt    : Option Nat         -- time of our TERM_SET
  recoverAt : Option Nat         -- time of the takeover that opened RECOVERY
  jseq      : Nat                -- next journal record sent
  jwant     : Nat                -- standby: next record to apply
  jheld     : List Journal       -- standby: records that wait for an earlier one
  hbStep    : Option Nat         -- step S of a handback
  hbAgain   : Bool               -- a cancelled handback, to be named again (R336)
  hbHost    : Bool               -- the step was named by HANDOVER
  pos       : Store PosSt
  resv      : List Resv
  load      : LoadSt
  rigs      : List (Nat × List Sect)   -- by slice, the sections of every agent, as loaded and committed from here (R181)
  warm      : List (Nat × Nat)   -- slices and the member modules that have re-applied them (R194)
  recv      : Option RecvSt
  cmds      : List HostCmd       -- the command in progress first; HSEQ 65536: one of the manager's own
  manifest  : List Byte          -- manifest in force
  manSegs   : Store (List Byte)  -- manifest segments received, by number
  manFor    : Nat                -- number of segments of that manifest, 0 unknown
  manAt     : Nat                -- time of the latest of them, or of the latest request for those missing (R327)
  xmap      : List (Nat × Nat × Nat × Nat)   -- cross-connect map: module, port to module, port
  staged    : List Byte          -- staged firmware image
  stagedFeat : Nat
  serves    : List Serve
  foldRound : Nat
  foldAt    : Option Nat         -- time the round under way began here
  folds     : List FoldSt
  drifts    : List DriftSt
  msgNum    : Nat                -- next MSG
  events    : List (Nat × Nat × Nat)   -- (code, slice, step) records posted (R429)
  lostMods  : List Nat           -- modules counted as lost, and lost partitions as 4096 × (partition + 1) + module
  awaits    : List Await
  relays    : List Relay
  toArm     : Bool               -- tables sent, the swap to be armed once they are answered
  discAt    : Nat                -- time discovery began
  seen      : Nat                -- highest term read during discovery (R309)
  termed    : Bool               -- the term has been taken
  restarts  : List Nat           -- modules restarted with the staged firmware (R333)
  commits   : List (Nat × Nat)   -- commits to be armed once their journal records are answered: slice and step (R310)
  coord     : CoordSt
  deriving DecidableEq, Repr

/-- A manager role without a term. -/
def MgrSt.init : MgrSt :=
  { leaseEnd := 0, tethers := [], sentAt := 0, tetherSeq := 0, tetherAt := none, replyAt := 0, sby := 0, accepts := [],
    takeAt := none, recoverAt := none, jseq := 0, jwant := 0, jheld := [], hbStep := none, hbAgain := false, hbHost := false, pos := [],
    resv := [], load := ⟨false, 0, [], [], [], 0, false, [], []⟩, rigs := [], warm := [], recv := none, cmds := [], manifest := [], manSegs := [], manFor := 0, manAt := 0,
    xmap := [], staged := [], stagedFeat := 0, serves := [], foldRound := 0, foldAt := none, folds := [], drifts := [],
    msgNum := 0, events := [], lostMods := [], awaits := [], relays := [], toArm := false, discAt := 0, seen := 0, termed := false,
    restarts := [], commits := [], coord := CoordSt.init }

/-! ### Routing state of the module (R256, R267) -/

/-- Routing beyond the FAB registers. -/
structure FabSt where
  quiesceEnd : Option Nat        -- time VC_ESC may be sent again (R267)
  adaptAt    : Option (Nat × Bool)  -- ADAPT command armed: its step and value (R325)
  adaptHeld  : Option (Nat × Bool)  -- ADAPT command written, not yet armed
  rerootAt   : Option Nat        -- step of a table swap that moves the root of the escape tree between groups (R335)
  load       : List Nat          -- latest LOAD of the ports 0 to 15, as every router keeps it (R262)
  reads      : List (Packet × Nat)  -- outstanding MEM_RD requests, with the MLA of the group each restores (R164)
  deriving DecidableEq, Repr

/-- No command or swap at hand, and no load heard of. -/
def FabSt.init : FabSt :=
  { quiesceEnd := none, adaptAt := none, adaptHeld := none, rerootAt := none, load := List.replicate 16 0, reads := [] }

/-! ### Power, resets, host port, pins -/

/-- Power and start-up state beyond the registers (R378 to R406). -/
structure PwrSt where
  off       : Bool               -- OFF: 12V_AUX absent
  stage     : Nat                -- start-up step of R381; 9 complete
  waves     : Nat                -- compute waves up
  fromTgt   : Nat                -- state that the latest transition left; 4: OFF
  pendMaster : Nat
  wakeAt    : Option Nat         -- time 0 of a wake; none while it waits for the main input
  wakeRow   : Nat                -- rows of the wake table done, each wave counted; 16: the wake goes on as R381
  wakeSmb   : Bool               -- the wake was requested by the tray controller
  sbyAt     : Nat                -- time STANDBY was entered
  stateAt   : Nat                -- time of the latest change of state, for residency
  gov       : Option Nat         -- time since which the power average has been below 95 % of the limit
  mainGood  : Bool
  training  : Bool
  onAt       : Nat               -- time 12V_AUX came on
  opBase     : Nat               -- operating seconds at that time
  savedAt    : Nat               -- time COUNTERS was last written
  waveAt     : Nat               -- time the latest wave started
  pendForce  : Bool              -- FORCE of the pending request
  image      : List Byte         -- firmware copy that row 4 of the wake table has verified
  phy        : Bool              -- the LPDDR5 PHY settings are saved in the always-on domain (R393, R398)
  railsOff   : List Nat          -- rails that an overcurrent has switched off
  therm      : Option Nat        -- time since which every die has been below WARN − 5 K
  deriving DecidableEq, Repr

/-- Resets beyond the registers. -/
structure RstSt where
  kickAt   : Nat                 -- time of the latest watchdog kick
  hubTimes : List Nat            -- times of the counted hub resets (R364)
  pcieTimes : List Nat
  modWait  : Bool                -- a module reset waits for the drains
  later    : List Nat            -- partition resets that wait for a power transition (R376)
  deriving DecidableEq, Repr

/-- The PCI Express endpoint beyond its registers (R408 to R417). -/
structure HostSt where
  linkUp  : Bool
  d3hot   : List Nat             -- masters in D3hot
  closed  : Bool                 -- the endpoint's sluice is closed
  drain   : Option DrainFor      -- a drain in progress, and what follows it
  drainAt : Nat
  resetting : Bool
  aer     : List (Nat × AerErr)  -- errors logged, by function
  deriving DecidableEq, Repr

/-- The SMBus target (R418, R419). -/
structure SmbSt where
  addr      : BitVec 3           -- ADDR[2:0] as sampled at power-on
  causes    : BitVec 16
  enables   : BitVec 16
  announced : BitVec 16          -- causes already announced
  deriving DecidableEq, Repr

/-- The pins (R458). -/
structure Pins where
  faultN  : Bool                 -- true: driven low
  alertN  : Bool                 -- true: driven low
  perstN  : Bool                 -- true: asserted
  sysclk  : Bool                 -- the reference input is present
  deriving DecidableEq, Repr

/-! ### The state -/

/-- The module. -/
structure State where
  /-- The commands that are waiting, first in first out (the model's own field). -/
  pending : List Instr
  /-- Time in timebase units of 2 ns (the model's own field, log entry 1). -/
  now     : Nat
  /-- The number of free values taken so far (the model's own field, log entry 6). -/
  draws   : Nat
  /-- What the module has sent, oldest first (the model's own field, log entry 7). -/
  out     : List Output
  fuses   : Fuses
  /-- BAR0 registers by byte offset. -/
  regs    : Store Word
  /-- Master 0x02's own copies of the selector registers (R478). -/
  priv2   : Store Word
  /-- The _HI snapshots of masters 0x00 and 0x02, by the offset of the _HI register (R10, R478). -/
  snap0   : Store Word
  snap2   : Store Word
  tick    : TickSt
  ctx     : Store CtxSt
  core    : Store CoreSt
  clus    : Store ClusSt
  eng     : Store EngSt
  chan    : Store ChanSt
  part    : Store PartSt
  rtr     : Store RtrSt
  port    : Store PortSt
  /-- LPDDR5 data by MLA (R148), and the addresses of bytes with bad parity. -/
  mem     : Store Byte
  memBad  : List Nat
  fab     : FabSt
  mgr     : MgrSt
  flt     : FltSt
  /-- Event records by slot (R433). -/
  evr     : Store (List Word)
  sec     : SecSt
  nor     : NorSt
  att     : AttSt
  mbx     : Store MbxCh
  pwr     : PwrSt
  rst     : RstSt
  host    : HostSt
  smb     : SmbSt
  pins    : Pins
  deriving DecidableEq, Repr

/-- A step of the module never stops with a fault: what the spec calls a fault is a message to the fault collector
and an effect on the state (R338), so no meaning raises one. -/
inductive Fault where
  /-- Raised by nothing: kept so that the type has a name for a machine that would stop. Safe. -/
  | none
  deriving DecidableEq, Repr

/-- Why a command has no meaning. -/
inductive Refusal where
  /-- A command whose meaning is not written; raised by its arm of exec. Safe. -/
  | notModelled (mnemonic : String)
  deriving DecidableEq, Repr

/-- What exec and step answer. -/
abbrev Result := Host.Outcome State Fault Refusal

/-! ### Reset -/

/-- The fuses of State.reset: a DR-9640-A without a defect (DESIGN CHOICE, log entry 3). -/
def Fuses.init : Fuses :=
  { variant := 0, clkFuse := 1250, plimFuse := 180, pkgRev := 0, serial := 0, laneBad := 0, secret := 0, fuseDig := 0,
    intact := true, dies := [] }

/-- The BAR0 registers of State.reset that are not at their Reset value: those that copy a fuse (R482), the record count, and
ports 0 to 3, which the boot ROM has enabled (R381 step 5). -/
def regsAtReset : Store Word :=
  [(0x0000000, 0x96401F3C), (0x0020008, 0x00B44E20), (0x002000C, 0x000004E2), (0x0020010, 0x000000B4), (0x0040004, 1),
   (0x0100000, 0x2001), (0x0100004, 1), (0x0100008, 0x08040201), (0x0101000, 0x2001), (0x0101004, 1), (0x0101008, 0x10080402),
   (0x0102000, 0x2001), (0x0102004, 1), (0x0102008, 0x20100804), (0x0103000, 0x2001), (0x0103004, 1), (0x0103008, 0x40201008)]

/-- The module after 12V_AUX power-on with its main input good, its boot ROM waiting for firmware, before a host or a peer has done
anything: every register at its Reset value (R11), every unit in the state its reset leaves, every sluice of a partition closed,
ports 0 to 3 in DETECT, and the record of the power-on in the event recorder (R381, R434). -/
def State.reset : State :=
  { pending := [], now := 0, draws := 0, out := [], fuses := Fuses.init,
    regs := regsAtReset,
    priv2 := [], snap0 := [], snap2 := [], tick := TickSt.init, ctx := [], core := [], clus := [], eng := [],
    chan := [], part := (List.range 16).map (fun p => (p, { PartSt.init with closed := true })), rtr := [],
    port := (List.range 4).map (fun p => (p, { PortSt.init with grans := [p, p + 9, p + 18, p + 27] })), mem := [], memBad := [],
    fab := FabSt.init, mgr := MgrSt.init, flt := FltSt.init, evr := [(0, [0, 1, 0, 0x0005E001, 0, 0, 0, 0x5A5A0000])],
    sec := SecSt.init,
    nor := { readable := true, cycles := 1, opsec := 0, manifest := [], calib := [], keys := [], svn := 0, remapClr := [], failed := [] },
    att := ⟨[], none⟩, mbx := [],
    pwr := { off := false, stage := 5, waves := 0, fromTgt := 4, pendMaster := 0, wakeAt := none,
             wakeRow := 0, wakeSmb := false, sbyAt := 0, stateAt := 0, gov := none, mainGood := true, training := false,
             onAt := 0, opBase := 0, savedAt := 0, waveAt := 0, pendForce := false, image := [], phy := false, railsOff := [], therm := none },
    rst := { kickAt := 0, hubTimes := [], pcieTimes := [], modWait := false, later := [] },
    host := { linkUp := false, d3hot := [], closed := false, drain := none, drainAt := 0, resetting := false, aer := [] },
    smb := { addr := 0, causes := 0, enables := 0x000F, announced := 0 },
    pins := { faultN := false, alertN := false, perstN := false, sysclk := true } }

end Sys2Proof.Machine
end

