-- ==== Sys2Proof/Machine/Ops.lean ====
section
/-! DEFINITION. The named operations over registers, numbered units, LPDDR5 and outputs. -/

namespace Sys2Proof.Machine

/-- What every meaning answers: the effect, with the queue, the time and the fuses as they were. No command changes the
commands that wait, no command writes a fuse (R2, R11 class NV, R385), and time passes between commands (log entry 1). -/
def done (s t : State) : Result := .next { t with pending := s.pending, now := s.now, fuses := s.fuses }

/-- The answer of a command that is an event at a time of the tick: it happens at that time, or now where that time has passed
(log entry 1). -/
def doneAt (s : State) (time : Nat) (f : State → State) : Result :=
  let s := { s with now := max s.now time }
  done s (f s)

/-! ### Registers -/

/-- The stored value of the register at a BAR0 offset. -/
def State.reg (s : State) (off : Nat) : Word := Store.get regReset s.regs off

/-- The register at a BAR0 offset set to `v`. -/
def State.setReg (s : State) (off : Nat) (v : Word) : State := { s with regs := Store.put regReset s.regs off v }

/-- The value of a field of a word. -/
def Fld.of (f : Fld) (w : Word) : Nat := bits w.toNat f.hi f.lo

/-- A word with a field replaced. -/
def Fld.into (f : Fld) (w : Word) (v : Nat) : Word := BitVec.ofNat 32 (setBits w.toNat f.hi f.lo v)

/-- The value of a field. -/
def State.fget (s : State) (f : Fld) : Nat := f.of (s.reg f.reg)

/-- A field set to the low bits of `v`. -/
def State.fset (s : State) (f : Fld) (v : Nat) : State := s.setReg f.reg (f.into (s.reg f.reg) v)

/-- Whether a field is not 0. -/
def State.flag (s : State) (f : Fld) : Bool := s.fget f != 0

/-- The width of a field. -/
def Fld.width (f : Fld) : Nat := f.hi + 1 - f.lo

/-- A saturating counter advanced by `n` (R482). -/
def State.fcount (s : State) (f : Fld) (n : Nat) : State := s.fset f (sat f.width (s.fget f + n))

/-- The 64-bit value of an _LO/_HI pair whose _LO lies at `lo` (R10). -/
def State.pair (s : State) (lo : Nat) : Nat := (s.reg lo).toNat + (s.reg (lo + 4)).toNat * 2 ^ 32

/-- An _LO/_HI pair set. -/
def State.setPair (s : State) (lo : Nat) (v : Nat) : State :=
  (s.setReg lo (BitVec.ofNat 32 v)).setReg (lo + 4) (BitVec.ofNat 32 (v / 2 ^ 32))

/-- The global step counter (R35). -/
def State.step (s : State) : Nat := s.pair TCK_STEP_LO.off

/-- The slice step number of a context (R36). -/
def State.slStep (s : State) (n : Nat) : Nat := s.pair (TCK_SL_STEP_LO.off n)

/-- The tick state of a context: 0 IDLE, 1 ARMED, 2 RUN, 3 REPLAY, 4 REPAIR, 5 HOLD (R57). -/
def State.slState (s : State) (n : Nat) : Nat := s.fget (TCK_SL_STAT.STATE n)

/-- The slice a context holds, from its rigging registers (R198). -/
def State.slId (s : State) (n : Nat) : Nat := s.fget (RIG_SL_STAT.SLICE_ID n)

/-- The context that holds a slice, if any: with an active rigging, a shadow, or a reservation. -/
def State.ctxOf (s : State) (slice : Nat) : Option Nat :=
  firstBelow 16 (fun n => s.slId n = slice &&
    (s.flag (RIG_SL_STAT.ACTIVE n) || s.fget (RIG_SL_STAT.SHADOW n) != 0))

/-- This module's ID (R249). -/
def State.modId (s : State) : Nat := s.fget FAB_SELF.MODID

/-- Whether Usano firmware runs (R444: SEC_FW_STAT.PHASE 3). -/
def State.fwRuns (s : State) : Bool := s.fget SEC_FW_STAT.PHASE = 3

/-- Whether this module is ACTING: FAB_MGR_STAT.ROLE 2 (R305, R306). -/
def State.acting (s : State) : Bool := s.fget FAB_MGR_STAT.ROLE = 2

/-! ### Outputs and free values -/

/-- Something sent or answered. -/
def State.emit (s : State) (o : Output) : State := { s with out := s.out ++ [o] }

/-- A free value taken: its number, and the counter advanced. -/
def State.fresh (s : State) : Nat × State := (s.draws, { s with draws := s.draws + 1 })

/-! ### Numbered units -/

end Sys2Proof.Machine

namespace Sys2Proof

/-- The number of a logical core. -/
def CoreId.key (c : CoreId) : Nat := (c.part.val * 75 + c.clus.val) * 250 + c.core.val
/-- The number of a logical cluster. -/
def ClusId.key (c : ClusId) : Nat := c.part.val * 75 + c.clus.val
/-- The number of a logical engine. -/
def EngId.key (e : EngId) : Nat := e.part.val * 8 + e.eng.val
/-- The number of a router. -/
def RouterId.key (r : RouterId) : Nat := r.y.val * 40 + r.x.val

end Sys2Proof

namespace Sys2Proof.Machine

/-- The partition of a core's number. -/
def corePart (k : Nat) : Nat := k / (75 * 250)
/-- The logical cluster of a core's number, within its partition. -/
def coreClus (k : Nat) : Nat := k / 250 % 75
/-- The logical core of a core's number, within its cluster. -/
def coreIdx (k : Nat) : Nat := k % 250

/-- A slice context. -/
def State.cx (s : State) (n : Nat) : CtxSt := Store.get (fun _ => CtxSt.init) s.ctx n
/-- A slice context changed. -/
def State.modCx (s : State) (n : Nat) (f : CtxSt → CtxSt) : State :=
  { s with ctx := Store.upd (fun _ => CtxSt.init) s.ctx n f }
/-- A core. -/
def State.co (s : State) (k : Nat) : CoreSt := Store.get (fun _ => CoreSt.init) s.core k
/-- A core changed. -/
def State.modCo (s : State) (k : Nat) (f : CoreSt → CoreSt) : State :=
  { s with core := Store.upd (fun _ => CoreSt.init) s.core k f }
/-- A cluster. -/
def State.cl (s : State) (k : Nat) : ClusSt := Store.get (fun _ => ClusSt.init) s.clus k
/-- A cluster changed. -/
def State.modCl (s : State) (k : Nat) (f : ClusSt → ClusSt) : State :=
  { s with clus := Store.upd (fun _ => ClusSt.init) s.clus k f }
/-- A tree record's state: cluster and record index. -/
def State.tree (s : State) (k r : Nat) : TreeSt := Store.get (fun _ => TreeSt.init) (s.cl k).trees r
/-- A tree record's state changed. -/
def State.modTree (s : State) (k r : Nat) (f : TreeSt → TreeSt) : State :=
  s.modCl k (fun c => { c with trees := Store.upd (fun _ => TreeSt.init) c.trees r f })
/-- An update engine. -/
def State.en (s : State) (k : Nat) : EngSt := Store.get (fun _ => EngSt.init) s.eng k
/-- An update engine changed. -/
def State.modEn (s : State) (k : Nat) (f : EngSt → EngSt) : State :=
  { s with eng := Store.upd (fun _ => EngSt.init) s.eng k f }
/-- An LPDDR5 channel, by its global number 8p + k. -/
def State.ch (s : State) (k : Nat) : ChanSt := Store.get (fun _ => ChanSt.init) s.chan k
/-- An LPDDR5 channel changed. -/
def State.modCh (s : State) (k : Nat) (f : ChanSt → ChanSt) : State :=
  { s with chan := Store.upd (fun _ => ChanSt.init) s.chan k f }
/-- A partition. -/
def State.pt (s : State) (p : Nat) : PartSt := Store.get (fun _ => PartSt.init) s.part p
/-- A partition changed. -/
def State.modPt (s : State) (p : Nat) (f : PartSt → PartSt) : State :=
  { s with part := Store.upd (fun _ => PartSt.init) s.part p f }
/-- A router. -/
def State.rt (s : State) (k : Nat) : RtrSt := Store.get (fun _ => RtrSt.init) s.rtr k
/-- A router changed. -/
def State.modRt (s : State) (k : Nat) (f : RtrSt → RtrSt) : State :=
  { s with rtr := Store.upd (fun _ => RtrSt.init) s.rtr k f }
/-- A link port. -/
def State.po (s : State) (p : Nat) : PortSt := Store.get (fun _ => PortSt.init) s.port p
/-- A link port changed. -/
def State.modPo (s : State) (p : Nat) (f : PortSt → PortSt) : State :=
  { s with port := Store.upd (fun _ => PortSt.init) s.port p f }
/-- A mailbox channel. -/
def State.mb (s : State) (c : Nat) : MbxCh := Store.get (fun _ => MbxCh.init) s.mbx c
/-- A mailbox channel changed. -/
def State.modMb (s : State) (c : Nat) (f : MbxCh → MbxCh) : State :=
  { s with mbx := Store.upd (fun _ => MbxCh.init) s.mbx c f }

/-- Every number below `n` applied in order. -/
def State.each (n : Nat) (f : Nat → State → State) (s : State) : State :=
  (List.range n).foldl (fun s i => f i s) s

/-- Every element of a list applied in order. -/
def State.eachOf {α : Type} (l : List α) (f : α → State → State) (s : State) : State :=
  l.foldl (fun s a => f a s) s

/-! ### LPDDR5 (R146, R148) -/

/-- The bytes of one channel's data space. -/
def chanSpan : Nat := 0x1C0000000

/-- Whether an MLA is mapped (R148). -/
def mlaMapped (a : Nat) : Bool := a < 2 ^ 40 && a % 2 ^ 36 < 0xE00000000

/-- The partition of an MLA. -/
def mlaPart (a : Nat) : Nat := a / 2 ^ 36
/-- The channel k of an MLA's partition (R148). -/
def mlaChan (a : Nat) : Nat := a % 2 ^ 36 / chanSpan
/-- The channel data address of an MLA. -/
def mlaCda (a : Nat) : Nat := a % 2 ^ 36 % chanSpan
/-- The MLA of a channel data address. -/
def mlaOf (part chan cda : Nat) : Nat := part * 2 ^ 36 + chan * chanSpan + cda

/-- A byte of LPDDR5. -/
def State.memGet (s : State) (a : Nat) : Byte := Store.get byteZero s.mem a

/-- `n` bytes of LPDDR5. -/
def State.memRead (s : State) (a n : Nat) : List Byte := (List.range n).map (fun i => s.memGet (a + i))

/-- The canonical form of a memory: addresses strictly rising, no entry equal to what an unlisted address reads as. -/
abbrev Memory.wf (m : Store Byte) : Prop := Store.wf byteZero m = true

/-- Bytes written to a sparse memory in order. -/
def putBytes (m : Store Byte) (a : Nat) : List Byte → Store Byte
  | [] => m
  | b :: t => putBytes (Store.put byteZero m a b) (a + 1) t

/-- Bytes written to LPDDR5: each byte's parity is written with it (R146). -/
def State.memWrite (s : State) (a : Nat) (bs : List Byte) : State :=
  { s with
    mem := putBytes s.mem a bs
    memBad := s.memBad.filter (fun x => x < a || a + bs.length ≤ x) }

/-- The lowest failing byte of `n` bytes at `a`, if any. -/
def State.memBadIn (s : State) (a n : Nat) : Option Nat :=
  (s.memBad.filter (fun x => a ≤ x && x < a + n)).foldl
    (fun m x => some (match m with | none => x | some y => min x y)) none

/-! ### Time -/

/-- Timebase units in a microsecond. -/
def usUnits (us : Nat) : Nat := 500 * us
/-- Timebase units in a millisecond. -/
def msUnits (ms : Nat) : Nat := 500000 * ms
/-- Timebase units in a second. -/
def sUnits (s : Nat) : Nat := 500000000 * s

/-- Operating seconds: lifetime seconds with 12V_AUX present (R433). -/
def State.opsec (s : State) : Nat := s.pwr.opBase + (s.now - s.pwr.onAt) / sUnits 1

/-- The timebase count within the current tick. -/
def State.tbCount (s : State) : Nat := s.now - s.tick.bound

/-! ### The logical-to-physical tables (R21, R365, R369) -/

/-- The fuses of a die; a die not listed has clusters 0 to 74 enabled, 75 to 79 spare, in each cluster cores 0 to 249
enabled and 250 to 255 spare, and no bad engine. -/
def State.die (s : State) (d : Nat) : Option DieFuses :=
  (s.fuses.dies.find? (fun e => e.1 = d)).map Prod.snd

/-- The CLUS_MAP code of a physical cluster: 0 enabled, 1 spare, 2 defective. -/
def State.clusCode (s : State) (d c : Nat) : Nat :=
  match s.die d with
  | none => if c < 75 then 0 else 1
  | some f => (f.clusMap.getD c 2).toNat

/-- The CORE_OFF entries of a physical cluster: disabled cores, and whether each is defective. -/
def State.coreOff (s : State) (d c : Nat) : List (Nat × Bool) :=
  match s.die d with
  | none => (List.range 6).map (fun j => (250 + j, false))
  | some f => (f.coreOff.getD c []).map (fun e => (bits e.toNat 7 0, e.toNat.testBit 8))

/-- The physical clusters enabled by fuse, in ascending order. -/
def State.clusOn (s : State) (d : Nat) : List Nat := (List.range 80).filter (fun c => s.clusCode d c = 0)

/-- The healthy physical clusters of a die, spares included, in ascending order; `gone` are the units retired (R369). -/
def State.clusHealthy (s : State) (d : Nat) (gone : List (Nat × Nat)) : List Nat :=
  (List.range 80).filter (fun c => s.clusCode d c ≤ 1 && !gone.contains (c, 256))

/-- The units that had been retired at the latest rotation, whose mapping leaves them out (R369). -/
def PartSt.rotGone (t : PartSt) : List (Nat × Nat) := t.retired.take t.rotFrom

/-- The physical cluster of a logical cluster (R21, R365, R369). -/
def State.physClus (s : State) (d c : Nat) : Nat :=
  let t := s.pt d
  match (t.clusSub.find? (fun e => e.1 = c)).map Prod.snd with
  | some q => q
  | none =>
    if t.rotates = 0 then (s.clusOn d).getD c c
    else
      let h := s.clusHealthy d t.rotGone
      h.getD ((c + t.clusRot) % h.length) c

/-- The physical cores enabled by fuse in a physical cluster, in ascending order. -/
def State.coreOn (s : State) (d q : Nat) : List Nat :=
  (List.range 256).filter (fun i => (s.coreOff d q).all (fun e => e.1 ≠ i))

/-- The healthy physical cores of a physical cluster: not defective and not retired, spares included (R369). -/
def State.coreHealthy (s : State) (d q : Nat) (gone : List (Nat × Nat)) : List Nat :=
  (List.range 256).filter (fun i => (s.coreOff d q).all (fun e => e.1 ≠ i || !e.2) && !gone.contains (q, i))

/-- The physical core of a logical core within its physical cluster. -/
def State.physCore (s : State) (d c i : Nat) : Nat :=
  let t := s.pt d
  match (t.coreSub.find? (fun e => e.1 = 250 * c + i)).map Prod.snd with
  | some q => q
  | none =>
    let q := s.physClus d c
    if t.rotates = 0 then (s.coreOn d q).getD i i
    else
      let h := s.coreHealthy d q t.rotGone
      h.getD ((i + t.coreRot) % h.length) i

/-- The engine that production replaced by engine 8, if any (ENG_BAD). -/
def State.engBad (s : State) (d : Nat) : Option Nat :=
  match s.die d with
  | none => none
  | some f => if f.engBad.toNat < 8 then some f.engBad.toNat else none

/-- The physical engine of a logical engine (R150). -/
def State.physEng (s : State) (d e : Nat) : Nat :=
  if s.engBad d = some e then 8
  else match (s.pt d).engSub with
    | some k => if k.val = e then 8 else e
    | none => e

/-! ### Source words (R338) -/

/-- Word 1 of a fault message. -/
def srcWord (part pos sub : Nat) : Word :=
  BitVec.ofNat 32 (part % 16 + pos % 128 * 16 + sub % 256 * 2048)

/-- The source word of a logical core. -/
def State.coreSrc (s : State) (k : Nat) : Word :=
  let d := corePart k
  srcWord d (s.physClus d (coreClus k)) (s.physCore d (coreClus k) (coreIdx k))

/-- The source word of a logical cluster, or of its router agent. -/
def State.clusSrc (s : State) (k : Nat) : Word := srcWord (k / 75) (s.physClus (k / 75) (k % 75)) 0

/-- The source word of an engine. -/
def State.engSrc (s : State) (k : Nat) : Word := srcWord (k / 8) (s.physEng (k / 8) (k % 8)) 0

/-- The generation of a partition (R360). -/
def State.gen (s : State) (p : Nat) : Nat := s.fget (PRT_RST_STAT.GEN p)

/-! ### Modes of the manager (R311) -/

/-- Whether a partition is under reset, so that a narrower reset is absorbed (R376). -/
def State.partResetting (s : State) (p : Nat) : Bool := (s.pt p).drain.isSome || s.fget (PRT_RST_STAT.STATE p) = 2

/-- Whether a partition's die is in reset: all its positions run on their bypass stages (R358). -/
def State.dieDown (s : State) (d : Nat) : Bool := s.fget (PRT_RST_STAT.STATE d) = 2 || (s.pt d).held

/-- Whether a position runs on its bypass stage: its router has failed, or its die is in reset (R202, R358). -/
def State.inBypass (s : State) (d q : Nat) : Bool := (s.pt d).bypass.contains q || s.dieDown d

/-- Whether a slice of this module is in REPAIR, or a reset of the group is in progress. -/
def State.unsettled (s : State) : Bool :=
  (List.range 16).any (fun n => s.slState n = 4) || (List.range 16).any s.partResetting || s.rst.modWait ||
    !s.mgr.lostMods.isEmpty

/-- MODE as FAB_MGR_STAT shows it: RECOVERY on its own on the ACTING module. -/
def State.shownMode (s : State) : Nat :=
  if s.acting && (s.mgr.recoverAt.isSome || s.unsettled) then 3 else s.fget FAB_MGR_STAT.MODE

end Sys2Proof.Machine
end

