-- ==== Sys2Proof/Machine/Faults.lean ====
section
/-! DEFINITION. The event recorder (R433 to R436), interrupt vectors (R417), alerts (R419), FAULT_N (R348) and the
fault collector (R338 to R349): taking a fault message, classing, counting, recording and signalling it. -/

namespace Sys2Proof.Machine

/-! ### Recorder -/

/-- The slot of the record with a sequence number (R433). -/
def evrSlot (seq : Nat) : Nat := seq % 4096

/-- The words of a record; a slot never written reads 0. -/
def State.evrRec (s : State) (seq : Nat) : List Word :=
  Store.get (fun _ => List.replicate 8 0) s.evr (evrSlot seq)

/-- A record's slot written. -/
def State.putEvr (s : State) (seq : Nat) (ws : List Word) : State :=
  { s with evr := Store.put (fun _ => List.replicate 8 0) s.evr (evrSlot seq) ws }

/-- Whether a slot holds the valid record of a sequence number (R435). -/
def evrValid (seq : Nat) (ws : List Word) : Bool :=
  (ws.getD 0 0).toNat = seq % 2 ^ 32 && (ws.getD 7 0).toNat = 0x5A5A0000 + seq % 2 ^ 16

/-- Word w3 of a record (R433). -/
def evrW3 (code sev : Nat) (inj : Bool) (cls rep : Nat) : Nat :=
  code % 2 ^ 16 + sev * 2 ^ 16 + b2n inj * 2 ^ 19 + cls % 16 * 2 ^ 20 + rep * 2 ^ 24

/-- Whether a new record folds into the latest one (R436). -/
def State.evrFolds (s : State) (w3 p0 : Nat) : Bool :=
  let head := s.fget EVR_HEAD.HEAD
  let fold := s.fget EVR_CTL.FOLD
  let r := s.evrRec (head - 1)
  let rep := bits (r.getD 3 0).toNat 31 24
  let last := if rep = 0 then (r.getD 2 0).toNat else s.fget EVR_REPEAT_AT.AT
  decide (head ≠ 0) && evrValid (head - 1) r && decide (fold ≠ 0) &&
    decide (bits (r.getD 3 0).toNat 23 0 = bits w3 23 0) && decide ((r.getD 4 0).toNat = p0) &&
    decide (s.opsec ≤ last + fold) && decide (rep < 255)

/-- A record written, or folded into the latest record (R435, R436). -/
def State.record (s : State) (code sev : Nat) (inj : Bool) (cls p0 p1 p2 : Nat) : State :=
  let head := s.fget EVR_HEAD.HEAD
  let w3 := evrW3 code sev inj cls 0
  if s.evrFolds w3 p0 then
    let r := s.evrRec (head - 1)
    let w := r.getD 3 0
    (s.putEvr (head - 1) (r.set 3 (w + 0x01000000))).fset EVR_REPEAT_AT.AT s.opsec
  else
    let ws : List Nat := [head, s.nor.cycles, s.opsec, w3, p0, p1, p2, 0x5A5A0000 + head % 2 ^ 16]
    (s.putEvr head (ws.map (BitVec.ofNat 32))).fset EVR_HEAD.HEAD (head + 1)

/-- An event of Table 2 recorded (R434). -/
def State.event (s : State) (code p0 p1 p2 : Nat) : State := s.record code 5 false 0 p0 p1 p2

/-! ### Signals -/

/-- A fixed PF0 vector's cause latched; it sends one message when it becomes set (R417). -/
def State.irq (s : State) (v : Nat) : State :=
  let w := s.fget HUB_PCIE_IRQ.IRQ
  if w.testBit v then s
  else
    let t := s.fset HUB_PCIE_IRQ.IRQ (w + 2 ^ v)
    if s.host.linkUp then t.emit (.msix 2 v) else t

/-- SMBALERT_N follows the enabled causes not yet announced; in RETAIN and DORMANT only OFF_READY and cause 1 (R419). -/
def State.alertPin (s : State) : State :=
  let low :=
    if 2 ≤ s.fget PWR_STAT.STATE then s.flag PWR_STAT.OFF_READY || s.smb.causes.getLsbD 1
    else (s.smb.causes &&& s.smb.enables &&& ~~~ s.smb.announced) != 0
  { s with pins := { s.pins with alertN := low } }

/-- An alert cause set; a cause that becomes set is yet to be announced (R419). -/
def State.alert (s : State) (b : Nat) : State :=
  if s.smb.causes.getLsbD b then s
  else
    let m : BitVec 16 := 1#16 <<< b
    State.alertPin { s with smb := { s.smb with causes := s.smb.causes ||| m, announced := s.smb.announced &&& ~~~ m } }

/-- A FAULT_N pulse started, or restarted while one is in progress, which counts as a start (R348; DEDUCED, log entry 63). -/
def State.pulse (s : State) : State :=
  let s := { s with flt := { s.flt with pulse := some (s.now + usUnits (s.fget FLT_PIN.PULSE)) },
                    pins := { s.pins with faultN := true } }
  (s.fset FLT_PIN.PULSING 1).fcount FLT_PIN.PULSES 1

/-! ### Catalogue -/

/-- The base class of a fault code (R339): 0 NOTE to 4 GRAVE; none for by outcome. -/
def faultBase (code : Nat) : Option Nat :=
  match code with
  | 0x0003 | 0x0005 => some 2
  | 0x0004 | 0x0006 => some 4
  | 0x0101 | 0x0102 | 0x0103 | 0x0104 => some 2
  | 0x0201 | 0x0202 | 0x0205 | 0x0206 | 0x0207 => none
  | 0x0203 => some 2
  | 0x0301 => some 2
  | 0x0302 => some 4
  | 0x0303 | 0x0304 => none
  | 0x0306 => some 2
  | 0x0401 | 0x0402 => some 2
  | 0x0501 => none
  | 0x0502 => some 2
  | 0x0503 => none
  | 0x0601 => none
  | 0x0602 | 0x0603 | 0x0606 => some 2
  | 0x0701 | 0x0702 | 0x0703 | 0x0704 | 0x0705 | 0x0706 | 0x0707 | 0x0708 => some 2
  | 0x0801 | 0x0804 => some 2
  | 0x0803 => some 1
  | 0x0901 | 0x0902 => some 2
  | 0x0A02 | 0x0A07 => some 2
  | 0x0A04 | 0x0A05 | 0x0A06 => some 4
  | 0x0B01 => some 2
  | _ => some 0

/-- The codes of the catalogue (R339). -/
def faultCodes : List Nat :=
  [0x0001, 0x0002, 0x0003, 0x0004, 0x0005, 0x0006, 0x0101, 0x0102, 0x0103, 0x0104, 0x0105, 0x0201, 0x0202, 0x0203,
   0x0204, 0x0205, 0x0206, 0x0207, 0x0301, 0x0302, 0x0303, 0x0304, 0x0305, 0x0306, 0x0307, 0x0401, 0x0402, 0x0403,
   0x0501, 0x0502, 0x0503, 0x0601, 0x0602, 0x0603, 0x0604, 0x0605, 0x0606, 0x0701, 0x0702, 0x0703, 0x0704, 0x0705,
   0x0706, 0x0707, 0x0708, 0x0709, 0x0801, 0x0802, 0x0803, 0x0804, 0x0901, 0x0902, 0x0903, 0x0904, 0x0905, 0x0A01,
   0x0A02, 0x0A03, 0x0A04, 0x0A05, 0x0A06, 0x0A07, 0x0B01, 0x0B02]

/-- The source class of a code (R338). -/
def codeClass (code : Nat) : Nat := code / 256 % 256

/-- Whether a code's source lies in a partition, so that its GEN is compared (R338, R345). -/
def codeInPart (code : Nat) : Bool :=
  let c := codeClass code
  2 ≤ c && c ≤ 6 && code != 0x0402

/-- The hang indicators (R339, R361). -/
def hangCodes : List Nat := [0x0201, 0x0303, 0x0402, 0x0501, 0x0003, 0x0702]

/-! ### Source table -/

/-- A source entry. -/
def State.srcEnt (s : State) (i : Nat) : SrcEnt := Store.get (fun _ => SrcEnt.init) s.flt.srcs i

/-- A source entry set; FLT_STAT.PROMOTED shows whether some entry is PROMOTED (R355). -/
def State.setSrc (s : State) (i : Nat) (e : SrcEnt) : State :=
  let m := Store.put (fun _ => SrcEnt.init) s.flt.srcs i e
  let s := { s with flt := { s.flt with srcs := m } }
  s.fset FLT_STAT.PROMOTED (b2n (m.any (fun x => x.2.state = 2)))

/-- The window W in timebase units (R342). -/
def State.srcWindow (s : State) : Nat := sUnits (s.fget FLT_PROMO.WINDOW)

/-- Whether an entry's exit of Table 4 has come (R342). -/
def State.srcExpired (s : State) (e : SrcEnt) : Bool :=
  (e.state = 1 && s.srcWindow ≤ s.now - e.start) || (e.state = 2 && s.srcWindow ≤ s.now - e.last)

/-- The exits applied to every entry (R342). -/
def State.srcExits (s : State) : State :=
  s.flt.srcs.foldl (fun t e => if s.srcExpired e.2 then t.setSrc e.1 SrcEnt.init else t) s

/-- The entry of the listed COUNTING entries with the oldest START (R343). -/
def oldestCounting (l : Store SrcEnt) : Option (Nat × SrcEnt) :=
  (l.filter (fun e => e.2.state = 1)).foldl
    (fun b e => match b with | none => some e | some x => some (if e.2.start < x.2.start then e else x)) none

/-- A counted message (R342, R343): the class it takes, and the table after it. -/
def State.count (s : State) (f : FaultMsg) (cls : Nat) : Nat × State :=
  let s := s.srcExits
  let k := codeClass f.code.toNat
  match s.flt.srcs.find? (fun e => e.2.state ≠ 0 && e.2.cls = k && e.2.src = f.src) with
  | some (i, e) =>
    if e.state = 2 then (3, s.setSrc i { e with count := sat 8 (e.count + 1), last := s.now })
    else if s.fget FLT_PROMO.COUNT ≤ e.count + 1 then
      (3, s.setSrc i { e with state := 2, count := e.count + 1, last := s.now })
    else (cls, s.setSrc i { e with count := e.count + 1, last := s.now })
  | none =>
    let e : SrcEnt := ⟨1, 1, k, f.src, s.now, s.now⟩
    match firstBelow 512 (fun i => (s.srcEnt i).state = 0) with
    | some i => (cls, s.setSrc i e)
    | none =>
      match oldestCounting s.flt.srcs with
      | some (i, _) => (cls, s.setSrc i e)
      | none => (cls, s.fset FLT_STAT.SRC_FULL 1)

/-! ### Crash dump start -/

/-- The regions of a dump in order: 16 × region + port (R351). -/
def State.dumpRegions (s : State) : List Nat :=
  [0x10, 0x20] ++ ((List.range 16).filter (fun p => s.flag (LNK_CTL.EN p))).map (fun p => 0x30 + p) ++
    (List.range 16).map (fun p => 16 * (0x10 + p)) ++ (List.range 16).map (fun p => 16 * (0x20 + p))

/-- The 64-byte header of a dump (R353; field widths PRESUMED, log entry 15). -/
def State.dumpHead (s : State) (code : Nat) (src : Word) (n : Nat) : List Byte :=
  leBytes 4 0x504D4444 ++ leBytes 8 s.step ++ leBytes 4 s.nor.cycles ++ leBytes 4 code ++ leBytes 4 src.toNat ++
    leBytes 4 n ++ List.replicate 36 0

/-- A dump started; a start while BUSY is ignored (R351). -/
def State.dumpStart (s : State) (grave : Bool) (code : Nat) (src : Word) : State :=
  if s.flag FLT_DUMP_STAT.BUSY then s
  else
    let rs := s.dumpRegions
    let h := s.dumpHead code src rs.length
    let s := { s with flt := { s.flt with
      dump := { grave := grave, code := code, src := src, left := rs, bytes := h, done := false }, window := putBytes [] 0 h } }
    (s.fset FLT_DUMP_STAT.BUSY 1).fset FLT_DUMP_STAT.NORESP 0

/-! ### The collector -/

/-- Effects of a latching GRAVE message at the message itself (R344). -/
def State.graveLatch (s : State) (f : FaultMsg) : State :=
  let first := !s.flag FLT_STAT.GRAVE
  let s := if first then (s.fset FLT_STAT.GRAVE 1).fset FLT_STAT.GRAVE_CODE f.code.toNat else s
  let s := if first then { s with flt := { s.flt with graveAt := some s.now } } else s
  let s := s.fset FLT_PIN.HELD 1
  let s := s.each 16 (fun n s =>
    if 2 ≤ s.slState n && s.slState n ≤ 4 then s.modCx n (fun c => { c with holdNext := some 7 }) else s)
  let s := s.alert 1
  if s.flag FLT_DUMP_CTL.AUTO then s.dumpStart true f.code.toNat f.src else s

/-- A unit that waits for its replacement, once (R365). -/
def PartSt.await (u : Retiree) (t : PartSt) : PartSt :=
  { t with waiting := if t.waiting.contains u then t.waiting else t.waiting ++ [u] }

/-- The logical unit of a promoted source (R365): core, engine. -/
def State.promoted (s : State) (f : FaultMsg) : State :=
  let p := bits f.src.toNat 3 0
  let pos := bits f.src.toNat 10 4
  let sub := bits f.src.toNat 18 11
  if !s.flag (PRT_RST_CTL.AUTO_SPARE p) then s
  else if f.code = 0x0202 || f.code = 0x0201 then
    match firstBelow 75 (fun c => s.physClus p c = pos) with
    | none => s
    | some c =>
      match firstBelow 250 (fun i => s.physCore p c i = sub) with
      | none => s
      | some i => s.modPt p (PartSt.await (.core (Fin.ofNat 75 c) (Fin.ofNat 250 i)))
  else if f.code = 0x0501 then
    match firstBelow 8 (fun e => s.physEng p e = pos) with
    | none => s
    | some e => s.modPt p (PartSt.await (.engine (Fin.ofNat 8 e)))
  else s

/-- The queue entry of a classified message (R355); a full queue loses it (R354). -/
def State.enqueue (s : State) (f : FaultMsg) (cls : Nat) (stale held : Bool) : State :=
  if s.flt.queue.length < 1024 then
    let e : QEntry := ⟨f, cls, stale, held, BitVec.ofNat 64 s.step, s.tbCount⟩
    { s with flt := { s.flt with queue := s.flt.queue ++ [e] } }
  else s.fcount FLT_Q_STAT.LOST 1

/-- The event record of a classified message (R434). -/
def State.recordFault (s : State) (f : FaultMsg) (cls : Nat) (stale : Bool) : State :=
  if cls = 0 && !s.flag EVR_CTL.NOTES then s
  else
    let p0 := bits f.src.toNat 18 0 + f.gen.toNat * 2 ^ 19 + b2n stale * 2 ^ 27
    let p2 := bits f.addr.toNat 47 32 + f.arg.toNat * 2 ^ 16
    s.record f.code.toNat cls f.inj (codeClass f.code.toNat) p0 (bits f.addr.toNat 31 0) p2

/-- The signals of a class (R340, R347, R348). -/
def State.signal (s : State) (f : FaultMsg) (cls : Nat) : State :=
  let s := if 1 ≤ cls then s.irq 0 else s
  let s := if 3 ≤ cls && (!f.inj || s.flag FLT_CTL.INJ_PIN) then s.pulse else s
  let s := if cls = 3 then s.alert 0 else s
  if cls = 3 && s.flag FLT_DUMP_CTL.ON_SEVERE then s.dumpStart false f.code.toNat f.src else s

/-- Whether a message that the collector takes comes from before a reset of its partition (R345). -/
def State.staleMsg (s : State) (f : FaultMsg) : Bool :=
  codeInPart f.code.toNat && f.gen.toNat != s.gen (bits f.src.toNat 3 0)

/-- A message classified: counted, queued, recorded and signalled (R340 to R345); a stale one is a NOTE. -/
def State.classify (s : State) (f : FaultMsg) (cls0 : Nat) (stale held : Bool) : State :=
  let cls := if stale then 0 else cls0
  let counts := (cls = 1 || cls = 2) && (!f.inj || s.flag FLT_CTL.INJ_COUNTS)
  let (c, s) := if counts then s.count f cls else (cls, s)
  let s := if c = 3 && cls ≠ 3 then s.promoted f else s
  let s := s.enqueue f c stale held
  let s := s.fcount (FLT_CNT.CNT c) 1
  let s := s.recordFault f c stale
  let s := s.signal f c
  if c = 4 && (!f.inj || s.flag FLT_CTL.INJ_COUNTS) then s.graveLatch f else s

/-- A by-outcome message held until what settles it (R341). -/
def State.hold (s : State) (f : FaultMsg) (k : Settle) : State :=
  { s with flt := { s.flt with held := s.flt.held ++ [(f, k)] } }

/-- The context that holds a partition, if its tick is under way. -/
def State.runningCtx (s : State) (p : Nat) : Option (Fin 16) :=
  match (s.pt p).owner with
  | some n => if s.slState n.val = 2 || s.slState n.val = 3 then some n else none
  | none => none

/-- A fault message taken by the collector (R338, R341, R345): a stale message is a NOTE at once; a message by outcome waits for
the boundary of the tick it aborts; where no tick of a slice is under way and it starts no action, it is a NOTE. -/
def State.take (s : State) (f : FaultMsg) : State :=
  if s.staleMsg f then s.classify f 0 true false
  else match faultBase f.code.toNat with
    | some c => s.classify f c false false
    | none =>
      match s.runningCtx (bits f.src.toNat 3 0) with
      | some n => s.hold f (.tick n)
      | none => s.classify f 0 false false

/-- A message of a unit of partition `p`, with the partition's generation. -/
def State.msgOf (s : State) (code : Nat) (src : Word) (addr arg : Nat) : FaultMsg :=
  { code := BitVec.ofNat 16 code, inj := s.flt.inj,
    gen := if codeInPart code then BitVec.ofNat 8 (s.gen (bits src.toNat 3 0)) else 0,
    src := src, addr := BitVec.ofNat 48 addr, arg := BitVec.ofNat 16 arg }

/-- A fault detected and its message taken. -/
def State.raise (s : State) (code : Nat) (src : Word) (addr arg : Nat) : State := s.take (s.msgOf code src addr arg)

/-- A fault whose class its detection settles. -/
def State.raiseAs (s : State) (cls code : Nat) (src : Word) (addr arg : Nat) : State :=
  s.classify (s.msgOf code src addr arg) cls false false

/-- A fault settled by an action (R341). -/
def State.raiseFor (s : State) (key code : Nat) (src : Word) (addr arg : Nat) : State :=
  s.hold (s.msgOf code src addr arg) (.action key)

/-- The key of the messages that the entry of a context into HOLD settles (R341). -/
def holdKey (n : Nat) : Nat := 2 ^ 50 + n

/-- A fault that no repair mends and that sends its slice to HOLD: DEGRADED at the boundary at which the slice enters HOLD, and at once
where it does not run (R341). -/
def State.raiseLost (s : State) (n code : Nat) (src : Word) (addr arg : Nat) : State :=
  if 2 ≤ s.slState n && s.slState n ≤ 4 then s.raiseFor (holdKey n) code src addr arg else s.raiseAs 2 code src addr arg

/-- The bad register write of R9: a NOTE with the BAR0 offset and the master. -/
def State.badWrite (s : State) (m : Master) (off : Nat) : State := s.raise 0x0001 0 off m.toNat

/-- The refusal of an arm or a command: a NOTE with the BAR0 offset. -/
def State.refuse (s : State) (off : Nat) : State := s.raise 0x0002 0 off 0

/-- Held messages for which `p` holds leave with a class (R341). A message that waited is not stale: the collector took it in its
partition's generation (R345; DESIGN CHOICE, log entry 63). -/
def State.settle (s : State) (p : Settle → Bool) (cls : Nat) : State :=
  let l := s.flt.held
  let s := { s with flt := { s.flt with held := l.filter (fun e => !p e.2) } }
  (l.filter (fun e => p e.2)).foldl (fun s e => s.classify e.1 cls false true) s

/-- The messages of a context's aborted tick settled at its boundary: RECOVERED if a later attempt commits, DEGRADED
if the slice enters HOLD or IDLE instead (R341). -/
def State.settleTick (s : State) (n : Nat) (cls : Nat) : State :=
  s.settle (fun k => match k with | .tick m => m.val = n | .action _ => false) cls

/-- The messages that a slice's entry into HOLD settles: those of its tick, and those of what no repair mends. -/
def State.settleHold (s : State) (n : Nat) : State :=
  s.settle (fun k => match k with | .tick m => m.val = n | .action j => j = holdKey n) 2

/-- The messages an action settles. -/
def State.settleAction (s : State) (key : Nat) (cls : Nat) : State :=
  s.settle (fun k => match k with | .tick _ => false | .action j => j = key) cls

/-! ### Freezing (R349, R350) -/

/-- A freeze entry. -/
def State.frzEnt (s : State) (i : Nat) : FrzEnt := Store.get (fun _ => FrzEnt.init) s.flt.frz i

/-- A freeze entry set. -/
def State.setFrz (s : State) (i : Nat) (e : FrzEnt) : State :=
  { s with flt := { s.flt with frz := Store.put (fun _ => FrzEnt.init) s.flt.frz i e } }

/-- Whether a master's emissions are frozen: its own entry, or its partition's (R349). -/
def State.isFrozen (s : State) (kind : Nat) (src : Word) (rec_ : Nat) : Bool :=
  s.flt.frz.any (fun e =>
    (e.2.kind = kind && e.2.src = src && e.2.rec_ = rec_) ||
    (e.2.kind = 4 && bits e.2.src.toNat 3 0 = bits src.toNat 3 0))

/-- A violating master frozen (R349). -/
def State.freeze (s : State) (kind slice : Nat) (src : Word) (rec_ : Nat) : State :=
  if s.isFrozen kind src rec_ then s
  else
    match firstBelow 31 (fun i => (s.frzEnt i).kind = 0) with
    | some i => s.setFrz i ⟨kind, slice, src, rec_⟩
    | none => if (s.frzEnt 31).kind = 0 then s.setFrz 31 ⟨4, slice, src, 0⟩ else s

/-- Every freeze entry for which `p` holds released. -/
def State.releaseFrz (s : State) (p : FrzEnt → Bool) : State :=
  { s with flt := { s.flt with frz := Store.clear (fun i => p (s.frzEnt i)) s.flt.frz } }

end Sys2Proof.Machine
end

