-- ==== Sys2Proof/Machine/Operands.lean ====
section
/-! DEFINITION. The operand forms: the records of rigging sections and their fields, read from the bytes a context
holds (R107, R113, R126, R151, R155, R157, R171 to R180, R206, R279), and a core's addresses (R104, R105, R111). -/

namespace Sys2Proof.Machine

/-! ### Agents and sections (R171, R172) -/

/-- AGENT word of the endpoint agent of a partition. -/
def endpointAgent (mod p : Nat) : Nat := mod + p * 2 ^ 12 + 1 * 2 ^ 23
/-- AGENT word of the router agent of a logical cluster. -/
def routerAgent (mod p c : Nat) : Nat := mod + p * 2 ^ 12 + c * 2 ^ 16 + 2 * 2 ^ 23
/-- AGENT word of a hub agent. -/
def hubAgent (mod : Nat) : Nat := mod
/-- AGENT word of a port agent. -/
def portAgent (mod q : Nat) : Nat := mod + 3 * 2 ^ 23 + q * 2 ^ 26
/-- AGENT word of every member hub agent. -/
def everyHub : Nat := 7 * 2 ^ 23

/-- KIND of an AGENT word. -/
def agentKind (a : Nat) : Nat := bits a 25 23
/-- PART of an AGENT word. -/
def agentPart (a : Nat) : Nat := bits a 15 12
/-- CLUS of an AGENT word. -/
def agentClus (a : Nat) : Nat := bits a 22 16
/-- PORT of an AGENT word. -/
def agentPort (a : Nat) : Nat := bits a 29 26

/-- The section of a type for an agent, among sections held; empty content where there is none (R172). -/
def sectOf (l : List Sect) (typ agent : Nat) : Sect :=
  (l.find? (fun x => x.typ = typ && x.agent = agent)).getD ⟨typ, agent, 0, []⟩

/-- The active section of a type for an agent of a context. -/
def State.sect (s : State) (n typ agent : Nat) : Sect := sectOf (s.cx n).active typ agent

/-- Record `i` of `size` bytes of a section. -/
def Sect.item (x : Sect) (size i : Nat) : List Byte := slice x.bytes (size * i) size

/-! ### SLICE_MAP and TICK_SCHED (R174, R175) -/

/-- The fields of a SLICE_MAP. -/
structure SliceMap where
  id      : Nat
  epoch   : Nat
  seed    : Nat
  clock   : Nat
  digest  : List Byte
  base    : List Byte
  members : List (Nat × Nat)
  deriving DecidableEq, Repr

/-- A SLICE_MAP read. -/
def sliceMapOf (b : List Byte) : SliceMap :=
  let n := leAt b 16 4
  { id := bits (leAt b 0 4) 11 0, epoch := bits (leAt b 4 4) 15 0, seed := leAt b 8 8,
    clock := bits (leAt b 20 4) 11 0, digest := slice b 24 32, base := slice b 56 32,
    members := (List.range (min n 4096)).map (fun i =>
      let w := leAt b (96 + 4 * i) 4
      (bits w 11 0, bits w 27 12)) }

/-- The partition mask of a module in a slice map; 0 where it is no member. -/
def SliceMap.mask (m : SliceMap) (mod : Nat) : Nat :=
  ((m.members.find? (fun e => e.1 = mod)).map Prod.snd).getD 0

/-- One calibration slot of a schedule (R175). -/
structure SlotDef where
  offset : Nat
  k      : Nat
  en     : Bool
  rotate : Bool
  length : Nat
  mask   : Nat
  phase  : Nat
  deriving DecidableEq, Repr

/-- A tick schedule. -/
structure TickSched where
  period : Nat
  weir   : Nat
  cycle  : Nat
  slots  : List SlotDef
  marks  : List (Nat × Nat)
  deriving DecidableEq, Repr

/-- A TICK_SCHED read; `cycle` is the cycle length. -/
def tickSchedOf (b : List Byte) : TickSched :=
  let pub := leAt b 8 4
  { period := bits (leAt b 0 4) 19 0, weir := bits (leAt b 4 4) 19 0, cycle := bits pub 15 0 + 1,
    slots := (List.range 4).map (fun j =>
      let w0 := leAt b (16 + 16 * j) 4
      let w1 := leAt b (20 + 16 * j) 4
      let w2 := leAt b (24 + 16 * j) 4
      { offset := bits w0 19 0, k := bits w0 23 20, en := bit w0 24, rotate := bit w0 25, length := bits w1 19 0,
        mask := bits w2 7 0, phase := bits w2 17 8 }),
    marks := (List.range (bits pub 22 16)).map (fun m =>
      let w := leAt b (80 + 4 * m) 4
      (bits w 15 0, bits w 31 16)) }

/-- The slice map of a context's active rigging. -/
def State.sliceMap (s : State) (n : Nat) : SliceMap := sliceMapOf (s.sect n 0x0002 everyHub).bytes
/-- The tick schedule of a context's active rigging. -/
def State.sched (s : State) (n : Nat) : TickSched := tickSchedOf (s.sect n 0x0003 everyHub).bytes

/-- The member partitions of this module in a context's active rigging. -/
def State.ctxParts (s : State) (n : Nat) : List Nat :=
  let m := (s.sliceMap n).mask s.modId
  (List.range 16).filter (fun p => m.testBit p)

/-- Whether slice step `t` is a publication tick of partition `p` (R44, R175). -/
def TickSched.pub (x : TickSched) (p t : Nat) : Bool :=
  x.marks.any (fun m => m.2.testBit p && t % x.cycle = m.1)

/-- Whether slot `d` is active at slice step `t` (R175). -/
def SlotDef.active (d : SlotDef) (t : Nat) : Bool := d.en && t % 2 ^ d.k = d.phase

/-- The channels k a slot selects at slice step `t` (R175). -/
def SlotDef.chans (d : SlotDef) (t : Nat) : List Nat :=
  let r := if d.rotate then (t >>> d.k) % 8 else 0
  (List.range 8).filter (fun k => d.mask.testBit ((k + 8 - r) % 8))

/-! ### Core configuration (R107, R113, R176) -/

/-- A step descriptor (R113). -/
structure Desc where
  op : Nat
  fmtA : Nat
  fmtB : Nat
  fmtD : Nat
  rnd : Nat
  smode : Bool
  clr : Bool
  rdo : Bool
  trap : Nat
  addrA : Nat
  addrB : Nat
  addrD : Nat
  addrX : Nat
  cntK : Nat
  cntR : Nat
  cntN : Nat
  pin : Bool
  pout : Bool
  outEn : Bool
  useRcv : Bool
  sub : Nat
  imm : Nat
  muEn : Bool
  layA : Bool
  layD : Bool
  rsv : Nat
  deriving DecidableEq, Repr

/-- A descriptor read from its 16 bytes. -/
def descOf (b : List Byte) : Desc :=
  let x := leAt b 0 16
  { op := bits x 3 0, fmtA := bits x 7 4, fmtB := bits x 11 8, fmtD := bits x 15 12, rnd := bits x 17 16,
    smode := bit x 18, clr := bit x 19, rdo := bit x 20, trap := bits x 23 21, addrA := bits x 36 24,
    addrB := bits x 49 37, addrD := bits x 62 50, addrX := bits x 75 63, cntK := bits x 81 76, cntR := bits x 89 82,
    cntN := bits x 93 90, pin := bit x 94, pout := bit x 95, outEn := bit x 96, useRcv := bit x 97,
    sub := bits x 105 98, imm := bits x 113 106, muEn := bit x 114, layA := bit x 115, layD := bit x 116,
    rsv := bits x 127 117 }

/-- K of a descriptor. -/
def Desc.k (d : Desc) : Nat := d.cntK + 1
/-- R of a descriptor before USE_RCV. -/
def Desc.r (d : Desc) : Nat := d.cntR + 1
/-- S of a descriptor. -/
def Desc.n (d : Desc) : Nat := d.cntN + 1

/-- An in-port word (R107). -/
structure InWord where
  base : Nat
  mode : Nat
  stride : Nat
  cap : Nat
  tagBase : Nat
  expect : Nat
  rsv : Nat
  deriving DecidableEq, Repr

/-- An in-port word read. -/
def inWordOf (x : Nat) : InWord :=
  { base := bits x 12 0, mode := bits x 14 13, stride := bits x 23 15, cap := bits x 32 24, tagBase := bits x 45 33,
    expect := bits x 55 46, rsv := bits x 63 56 }

/-- A core's configuration. -/
structure CoreCfg where
  roles    : Nat
  dispBase : Nat
  dispLen  : Nat
  hdrRsv   : Nat
  in0      : InWord
  in1      : InWord
  hasPub   : Bool
  main     : List Desc
  pubT     : List Desc
  raw      : List Byte
  deriving DecidableEq, Repr

/-- A CORE_CFG record read after its 16-byte head. -/
def coreCfgOf (hasPub : Bool) (b : List Byte) : CoreCfg :=
  let h := leAt b 0 16
  { roles := bits h 95 0, dispBase := bits h 105 96, dispLen := bits h 113 106, hdrRsv := bits h 127 114,
    in0 := inWordOf (leAt b 16 8), in1 := inWordOf (leAt b 24 8), hasPub := hasPub,
    main := (List.range 32).map (fun i => descOf (slice b (32 + 16 * i) 16)),
    pubT := if hasPub then (List.range 32).map (fun i => descOf (slice b (544 + 16 * i) 16)) else [],
    raw := b }

/-- The configuration of a core that has no record: every bank UNUSED, END only (R172). -/
def CoreCfg.empty : CoreCfg := coreCfgOf false []

/-- The records of a CORE_CFG section: logical core, head word, bytes after the head. -/
def coreRecs : Nat → List Byte → List (Nat × Nat × List Byte)
  | 0, _ => []
  | f + 1, b =>
    if b.isEmpty then []
    else
      let w := leAt b 0 4
      let n := if bit w 8 then 1072 else 560
      (bits w 7 0, w, slice b 16 (n - 16)) :: coreRecs f (b.drop n)

/-- The configuration of logical core `i` in a CORE_CFG section. -/
def coreCfgIn (x : Sect) (i : Nat) : CoreCfg :=
  match (coreRecs x.count x.bytes).find? (fun e => e.1 = i) with
  | some (_, w, b) => coreCfgOf (bit w 8) b
  | none => CoreCfg.empty

/-- The configuration of a core in a context's active rigging. -/
def State.coreCfg (s : State) (n key : Nat) : CoreCfg :=
  coreCfgIn (s.sect n 0x0010 (routerAgent s.modId (corePart key) (coreClus key))) (coreIdx key)

/-- The role of a bank: 0 UNUSED, 1 WEIGHT, 2 INPUT, 3 PAIRED, 4 ACC, 5 SCRATCH (R107). -/
def CoreCfg.role (c : CoreCfg) (b : Nat) : Nat := bits c.roles (4 * b + 3) (4 * b)

/-- The in-port word of a port. -/
def CoreCfg.inw (c : CoreCfg) (port : Bool) : InWord := if port then c.in1 else c.in0

/-- The step table that runs: the publication table in a publication tick, END only without one (R44, R132). -/
def CoreCfg.table (c : CoreCfg) (pub : Bool) : List Desc :=
  if pub then (if c.hasPub then c.pubT else [descOf []]) else c.main

/-! ### A core's addresses (R104, R105, R111) -/

/-- Whether a role is that of a pair: INPUT or PAIRED. -/
def rolePair (r : Nat) : Bool := r = 2 || r = 3

/-- The physical bank a read of bank `b` reaches: the consuming or committed half of a pair (R105). -/
def readBank (c : CoreCfg) (odd : List Nat) (b : Nat) : Nat :=
  if rolePair (c.role b) then 2 * (b / 2) + b2n (odd.contains (b / 2)) else b

/-- The physical bank a write of bank `b` reaches: the filling or shadow half of a pair (R105). -/
def writeBank (c : CoreCfg) (odd : List Nat) (b : Nat) : Nat :=
  if rolePair (c.role b) then 2 * (b / 2) + b2n (!odd.contains (b / 2)) else b

/-- The physical byte a read of byte `o` beyond unit `u` reaches. -/
def readByte (c : CoreCfg) (odd : List Nat) (u o : Nat) : Nat :=
  let a := 32 * u + o
  8192 * readBank c odd (a / 8192) + a % 8192

/-- The physical byte a write of byte `o` beyond unit `u` reaches. -/
def writeByte (c : CoreCfg) (odd : List Nat) (u o : Nat) : Nat :=
  let a := 32 * u + o
  8192 * writeBank c odd (a / 8192) + a % 8192

/-- Units of a hank segment of `h` hanks of `hb` bytes (R111). -/
def segUnits (h hb : Nat) : Nat := ceilDiv (64 + h * hb) 32

/-- Bytes of `n` hanks in PACKED layout (R111). -/
def packedUnits (n hb : Nat) : Nat := n / 64 * segUnits 64 hb + (if n % 64 = 0 then 0 else segUnits (n % 64) hb)

/-- Byte offset of hank `i`'s scale byte and of its element data in a PACKED region (R111). -/
def packedAt (hb i : Nat) : Nat × Nat :=
  let b := i / 64 * (32 * segUnits 64 hb)
  (b + i % 64, b + 64 + i % 64 * hb)

/-- Byte offsets of hank `k` of row `r` in a ROWED region whose rows are `stride` units apart (R111). -/
def rowedAt (hb stride r k : Nat) : Nat × Nat := (32 * stride * r + k, 32 * stride * r + 64 + k * hb)

/-- The in port whose landing area holds a unit address, if any (R107). -/
def CoreCfg.landing (c : CoreCfg) (u : Nat) : Option InWord :=
  let inA (w : InWord) : Bool := 0 < w.cap && w.base ≤ u && u < w.base + w.cap * w.stride
  if inA c.in0 then some c.in0 else if inA c.in1 then some c.in1 else none

/-- The row stride of a ROWED region at unit `u` whose rows hold `k` hanks (R111). -/
def CoreCfg.rowStride (c : CoreCfg) (u k hb : Nat) : Nat :=
  match c.landing u with
  | some w => w.stride
  | none => segUnits k hb

/-! ### Dispatch, FUNC tables, strands (R122, R126, R206) -/

/-- A dispatch entry or the destination part of a tag. -/
structure DispEnt where
  dest  : Nat
  valid : Bool
  deriving DecidableEq, Repr

/-- Dispatch entry `i` of a cluster in a context's active rigging; beyond COUNT entries are invalid (R177). -/
def State.dispEnt (s : State) (n p c i : Nat) : DispEnt :=
  let x := s.sect n 0x0011 (routerAgent s.modId p c)
  let w := leAt (x.item 8 i) 0 8
  { dest := bits w 31 0, valid := decide (i < x.count) && bit w 32 }

/-- FUNC table `i` of a cluster (R122). -/
def State.funcTable (s : State) (n p c i : Nat) : List Byte :=
  (s.sect n 0x0012 (routerAgent s.modId p c)).item 1040 i

/-- A STRAND record (R206). -/
structure StrandRec where
  sid : Nat
  inp : Nat
  out : Nat
  units : Nat
  srcCore : Nat
  srcPort : Bool
  wrap : Nat
  memBase : Nat
  memCh : Nat
  dests : List Nat
  deriving DecidableEq, Repr

/-- A STRAND record read. -/
def strandOf (b : List Byte) : StrandRec :=
  let w0 := leAt b 0 4
  let w2 := leAt b 8 4
  let w3 := leAt b 12 4
  { sid := bits w0 11 0, inp := bits w0 14 12, out := bits w0 22 16, units := bits (leAt b 4 4) 23 0,
    srcCore := bits w2 7 0, srcPort := bit w2 8, wrap := bits w2 31 16, memBase := bits w3 26 0,
    memCh := bits w3 29 27,
    dests := ((List.range 8).map (fun i => leAt b (16 + 2 * i) 2)).filter (fun d => bit d 15) }

/-- The STRAND records of an agent in a context's active rigging. -/
def State.strands (s : State) (n agent : Nat) : List StrandRec :=
  let x := s.sect n 0x0020 agent
  (List.range x.count).map (fun i => strandOf (x.item 32 i))

/-- The STRAND record with a SID at an agent. -/
def State.strand? (s : State) (n agent sid : Nat) : Option StrandRec :=
  (s.strands n agent).find? (fun r => r.sid = sid)

/-! ### Trees (R279, R280) -/

/-- A RTREE record (R279). -/
structure TreeRec where
  rid : Nat
  op : Nat
  ifmt : Nat
  cfmt : Nat
  root : Bool
  altRoot : Bool
  rkind : Nat
  trapPoison : Bool
  trapSat : Bool
  n : Nat
  parent : Nat
  altParent : Nat
  resDest : Nat
  resCda : Nat
  resCh : Nat
  mcPos : Nat
  mcGrp : Nat
  srcCda : Nat
  srcCh : Nat
  memEn : Bool
  wrap : Nat
  ents : List Nat
  deriving DecidableEq, Repr

/-- A RTREE record read. -/
def treeOf (b : List Byte) : TreeRec :=
  let w (i : Nat) := leAt b (4 * i) 4
  { rid := bits (w 0) 11 0, op := bits (w 0) 13 12, ifmt := bits (w 0) 17 14, cfmt := bits (w 0) 21 18,
    root := bit (w 0) 22, altRoot := bit (w 0) 23, rkind := bits (w 0) 25 24, trapPoison := bit (w 0) 26,
    trapSat := bit (w 0) 27, n := bits (w 1) 16 0, parent := w 2, altParent := w 3, resDest := w 4,
    resCda := bits (w 6) 26 0, resCh := bits (w 6) 29 27, mcPos := leAt b 32 8, mcGrp := leAt b 40 8,
    srcCda := bits (w 13) 26 0, srcCh := bits (w 13) 29 27, memEn := bit (w 13) 30, wrap := bits (w 14) 15 0,
    ents := (List.range (bits (w 12) 5 0)).map (fun i => w (16 + i)) }

/-- The RTREE records of a cluster's router agent in a context's active rigging. -/
def State.trees (s : State) (n p c : Nat) : List TreeRec :=
  let x := s.sect n 0x0022 (routerAgent s.modId p c)
  (List.range x.count).map (fun i => treeOf (x.item 192 i))

/-- Bytes of an element of a carry or IEEE format. -/
def elemBytes (fmt : Nat) : Nat := fmtBits fmt / 8

/-- 64-byte units one tick of a tree's MEM source or result takes. -/
def TreeRec.step64 (r : TreeRec) (fmt : Nat) : Nat := ceilDiv (r.n * elemBytes fmt) 64

/-! ### LPDDR5 regions, recipes and jobs (R151, R155, R157, R158, R178, R179) -/

/-- A MEM_REGIONS record; base and length in 64-byte units (R178). -/
structure Region where
  ch : Nat
  typ : Nat
  base : Nat
  len : Nat
  deriving DecidableEq, Repr

/-- The regions of a MEM_REGIONS section. -/
def regionsOf (x : Sect) : List Region :=
  (List.range x.count).map (fun i =>
    let b := x.item 16 i
    let w := leAt b 0 4
    { ch := bits w 2 0, typ := bits w 6 3, base := leAt b 4 4, len := leAt b 8 4 })

/-- The type of the region that holds a channel data address: 0 FREE where none does (R178). -/
def regionType (l : List Region) (ch cda : Nat) : Nat :=
  ((l.find? (fun r => r.ch = ch && 64 * r.base ≤ cda && cda < 64 * (r.base + r.len))).map Region.typ).getD 0

/-- The regions of a partition in a context's active rigging. -/
def State.regions (s : State) (n p : Nat) : List Region :=
  regionsOf (s.sect n 0x0030 (endpointAgent s.modId p))

/-- The type of the region that holds an MLA, in the rigging active on its partition (R149). -/
def State.mlaType (s : State) (a : Nat) : Nat :=
  match (s.pt (mlaPart a)).owner with
  | none => 0
  | some n => regionType (s.regions n.val (mlaPart a)) (mlaChan a) (mlaCda a)

/-- A recipe record (R151). -/
structure Recipe where
  nops : Nat
  inFmt : List Nat
  outs : List Nat
  pub : Nat
  ops : List Nat
  ks : List Nat
  raw : List Byte
  deriving DecidableEq, Repr

/-- A recipe record read. -/
def recipeOf (b : List Byte) : Recipe :=
  let f := leAt b 4 4
  { nops := bits (leAt b 0 4) 4 0, inFmt := (List.range 8).map (fun i => bits f (4 * i + 3) (4 * i)),
    outs := (List.range 4).map (fun i => leAt b (8 + 2 * i) 2), pub := leAt b 16 4,
    ops := (List.range 16).map (fun i => leAt b (32 + 4 * i) 4),
    ks := (List.range 16).map (fun i => leAt b (96 + 4 * i) 4), raw := b }

/-- An update job (R155) or a publication job (R158) of an engine's list. -/
inductive Job where
  | update (rcp : Nat) (trapPoison trapSat mirror : Bool) (n q start cycle : Nat) (ins outs : List Nat)
      (pubBase paramBase mirMod mirBase : Nat)
  | publish (pubBase t qt : Nat)
  deriving DecidableEq, Repr

/-- The jobs of an ENGINE_JOBS section: logical engine, job, record bytes; a record is 112 or 32 bytes (R179). -/
def jobRecs : Nat → List Byte → List (Nat × Nat × List Byte)
  | 0, _ => []
  | f + 1, b =>
    if b.isEmpty then []
    else
      let w := leAt b 0 4
      let n := if bit w 3 then 32 else 112
      (bits w 2 0, w, slice b 16 (n - 16)) :: jobRecs f (b.drop n)

/-- A job descriptor read. -/
def jobOf (w : Nat) (b : List Byte) : Job :=
  let d (i : Nat) := leAt b (4 * i) 4
  if bit w 3 then .publish (d 0) (d 1) (bits (d 2) 15 0)
  else
    .update (bits (d 0) 5 0) (bit (d 0) 6) (bit (d 0) 7) (bit (d 0) 8) (d 1) (bits (d 2) 15 0) (bits (d 3) 15 0)
      (bits (d 3) 31 16 + 1) ((List.range 8).map (fun i => d (4 + i))) ((List.range 4).map (fun i => d (12 + i)))
      (d 16) (d 17) (bits (d 18) 11 0) (d 19)

/-- The job list of an engine in an ENGINE_JOBS section. -/
def jobsIn (x : Sect) (e : Nat) : List Job :=
  ((jobRecs x.count x.bytes).filter (fun r => r.1 = e)).map (fun r => jobOf r.2.1 r.2.2)

/-- The job list of an engine in a context's active rigging. -/
def State.jobs (s : State) (n p e : Nat) : List Job := jobsIn (s.sect n 0x0032 (endpointAgent s.modId p)) e

/-- A recipe of a partition in a context's active rigging. -/
def State.recipe (s : State) (n p i : Nat) : Recipe :=
  recipeOf ((s.sect n 0x0031 (endpointAgent s.modId p)).item 160 i)

/-! ### Tile records (R157) -/

/-- Bytes of a tile record: header and two slots. -/
def tileBytes : Nat := 16448

/-- The header fields of a tile record. -/
structure TileHdr where
  clus : Nat
  core : Nat
  bank : Nat
  cur  : Bool
  pend : Bool
  dig0 : List Byte
  dig1 : List Byte
  deriving DecidableEq, Repr

/-- A tile header read at an MLA. -/
def State.tileHdr (s : State) (a : Nat) : TileHdr :=
  let b := s.memRead a 64
  let w := leAt b 0 4
  { clus := bits w 6 0, core := bits w 14 7, bank := bits w 19 15, cur := bit w 20, pend := bit w 21,
    dig0 := slice b 8 16, dig1 := slice b 24 16 }

/-- The MLA of slot `j` of a tile record at `a`. -/
def tileSlot (a : Nat) (j : Bool) : Nat := a + 64 + 8192 * b2n j

/-- The digest of a slot: the first 128 bits of SHAKE256 over its bytes (R157). -/
def slotDigest (b : List Byte) : List Byte := shake256 16 b

/-- The MLAs of the tile records of a partition's PUBLISHED regions. -/
def State.tiles (s : State) (n p : Nat) : List Nat :=
  ((s.regions n p).filter (fun r => r.typ = 5)).flatMap (fun r =>
    (List.range (r.len / 257)).map (fun i => mlaOf p r.ch (64 * r.base + tileBytes * i)))

/-- The tile record of a core's bank, if the rigging has one. -/
def State.tileOf (s : State) (n key bank : Nat) : Option Nat :=
  (s.tiles n (corePart key)).find? (fun a =>
    let h := s.tileHdr a
    h.clus = coreClus key && h.core = coreIdx key && h.bank = bank)

end Sys2Proof.Machine
end

