-- ==== Sys2Proof/Machine/Arrays.lean ====
section
/-! DEFINITION. What a step entry computes from a core's banks: operand groups, contributions and accumulators (R81 to R87),
the vector, function, reduction and conversion results (R121 to R124), their production order and cycles (R120, R503,
R504), and their placement in the destination (R111). -/

namespace Sys2Proof.Machine

/-! ### Reading operands -/

/-- A core's banks as an entry meets them: the configuration, the halves in use and the bytes. -/
structure Banks where
  cfg   : CoreCfg
  odd   : List Nat
  bytes : Store Byte
  deriving DecidableEq, Repr

/-- The byte `o` beyond the first unit of the core's address space, as a read reaches it. -/
def Banks.byte (b : Banks) (o : Nat) : Byte := Store.get byteZero b.bytes (readByte b.cfg b.odd (o / 32) (o % 32))

/-- `n` bytes. -/
def Banks.read (b : Banks) (o n : Nat) : List Byte := (List.range n).map (fun i => b.byte (o + i))

/-- A unit. -/
def Banks.unit (b : Banks) (u : Nat) : XUnit := BitVec.ofNat 256 (leNat (b.read (32 * u) 32))

/-- An operand region: format, first unit, and for ROWED layout the row stride in units (R111). -/
structure Rgn where
  fmt   : Nat
  addr  : Nat
  rowed : Option Nat
  deriving DecidableEq, Repr

/-- The byte offsets of the scale byte and of the element data of group k of row r; `kk` groups make a row. In an IEEE
region a group is 32 elements and has no scale byte. -/
def Rgn.at (g : Rgn) (kk r k : Nat) : Nat × Nat :=
  let b := 32 * g.addr
  if isHank g.fmt then
    let hb := hankBytes g.fmt
    let (x, y) := match g.rowed with
      | some st => rowedAt hb st r k
      | none => packedAt hb (r * kk + k)
    (b + x, b + y)
  else
    let o := b + (r * kk + k) * 4 * fmtBits g.fmt
    (o, o)

/-- Group k of row r: a hank, or 32 IEEE codes. -/
def Banks.group (b : Banks) (g : Rgn) (kk r k : Nat) : Hank :=
  let (x, y) := g.at kk r k
  let codes := hankUnpack g.fmt (b.read y (4 * fmtBits g.fmt))
  ⟨if isHank g.fmt then (b.byte x).toNat else 127, codes⟩

/-- The units that group k of row r lies in. -/
def Rgn.units (g : Rgn) (kk r k : Nat) : List Nat :=
  let (x, y) := g.at kk r k
  let n := 4 * fmtBits g.fmt
  let d := (List.range ((y + n - 1) / 32 + 1 - y / 32)).map (fun i => y / 32 + i)
  if isHank g.fmt then x / 32 :: d else d

/-- The value of element i of a group. -/
def groupVal (fmt : Nat) (h : Hank) (i : Nat) : Val :=
  if isHank fmt then h.val fmt i else ieeeVal fmt (h.codes.getD i 0)

/-- A binary32 at the first four bytes of a unit. -/
def Banks.scalar (b : Banks) (u : Nat) : Val := ieeeVal 10 (leNat (b.read (32 * u) 4))

/-! ### Contributions (R81, R82) -/

/-- An element as a factor of a product: value, unbiased exponent, member of a zero hank, poisonous. -/
structure Factor where
  v    : Rat
  e    : Int
  zero : Bool
  bad  : Bool
  deriving DecidableEq, Repr

/-- Element i of a group as a factor. -/
def factor (fmt : Nat) (h : Hank) (i : Nat) : Factor :=
  let c := h.codes.getD i 0
  if isHank fmt then
    let e : Int := (h.scale : Int) - 127
    ⟨elemVal fmt c * pow2 e, e, h.isZero, h.isInvalid⟩
  else
    let v := ieeeVal fmt c
    ⟨v.rat, ieeeExp fmt c, false, !v.isFin⟩

/-- The factor 1 of REDUCE SUM: a vector of ones in the operand's format (R123). -/
def oneFactor : Factor := ⟨1, 0, false, false⟩

/-- The contribution of a group of products to an accumulator (R82, R83, R87); products with a zero-hank operand are
left out (R74, R85). A group with one factor that poisons adds nothing else: the spec does not say whether its other products still
move the anchor or can set ACC_LOSS, and here they do neither (DESIGN CHOICE, log entry 23). -/
def Acc.group (a : Acc) (fa fb : Nat) (ps : List (Factor × Factor)) : Acc :=
  if ps.any (fun p => p.1.bad || p.2.bad) then a.poisoned
  else
    let qs := ps.filter (fun p => !p.1.zero && !p.2.zero)
    match qs with
    | [] => a
    | q :: t =>
      let e (p : Factor × Factor) : Int := p.1.e + p.2.e
      let emin := t.foldl (fun m p => min m (e p)) (e q)
      let emax := t.foldl (fun m p => max m (e p)) (e q)
      let g := emin + (fmtLoHi fa).1 + (fmtLoHi fb).1
      let sum := qs.foldl (fun x p => x + p.1.v * p.2.v) (0 : Rat)
      a.add (sum / pow2 g).floor g (emax + (fmtLoHi fa).2 + (fmtLoHi fb).2 + 5)

/-! ### Results -/

/-- A result before its rounding: its place, the cycle that produces it, value and flags. -/
structure Res where
  row : Nat
  col : Nat
  cyc : Nat
  v   : Val
  fl  : NFlags
  deriving DecidableEq, Repr

/-- Bytes at consecutive addresses. -/
def bytesAt (o : Nat) (bs : List Byte) : List (Nat × Byte) := (List.range bs.length).zip bs |>.map (fun p => (o + p.1, p.2))

/-- Results rounded into an IEEE region whose rows hold `width` elements (R89, R98). -/
def itemsIeee (fmt addr width rnd : Nat) (acc : Bool) : List Res → Rng → List Item × Rng
  | [], g => ([], g)
  | x :: t, g =>
    let (c, f, g) := roundTo fmt rnd g x.v
    let sz := fmtBits fmt / 8
    let o := 32 * addr + (x.row * width + x.col) * sz
    let it : Item := ⟨x.cyc, [o / 32], bytesAt o (leBytes sz c), b2n acc, f.or x.fl⟩
    let (is, g) := itemsIeee fmt addr width rnd acc t g
    (it :: is, g)

/-- The units a hank of a segment touches; the last hank of a segment of at most 32 hanks completes the scale line. -/
def hankUnits (g : Rgn) (kk rows r k : Nat) : List Nat :=
  let seg := match g.rowed with
    | some _ => (k, kk)
    | none =>
      let i := r * kk + k
      let n := rows * kk
      (i % 64, min 64 (n - i / 64 * 64))
  let extra := if seg.2 ≤ 32 && seg.1 + 1 = seg.2 then [((g.at kk r k).1 - seg.1) / 32 + 1] else []
  g.units kk r k ++ extra

/-- A hank's 32 results, in element order, as one write (R93 to R95, R111). -/
structure HankRes where
  row : Nat
  k   : Nat
  cyc : Nat
  vs  : List Val
  fl  : NFlags
  deriving DecidableEq, Repr

/-- Hanks converted into a hank region (R93 to R95). -/
def itemsHank (g : Rgn) (kk rows rnd : Nat) (fixed : Option Nat) (acc : Bool) : List HankRes → Rng → List Item × Rng
  | [], r => ([], r)
  | x :: t, r =>
    let (h, f, r) := toHank g.fmt rnd fixed r x.vs
    let (so, eo) := g.at kk x.row x.k
    let bs := (so, BitVec.ofNat 8 h.scale) :: bytesAt eo (hankPack g.fmt h.codes)
    let it : Item := ⟨x.cyc, hankUnits g kk rows x.row x.k, bs, if acc then 32 else 0, f.or x.fl⟩
    let (is, r) := itemsHank g kk rows rnd fixed acc t r
    (it :: is, r)

/-- The units in the order in which they are complete, each with the cycle of its last write (R120, R504). -/
def unitsDone : List Item → List (Nat × Nat)
  | [] => []
  | i :: t =>
    ((i.units.eraseDups.filter (fun u => t.all (fun j => !j.units.contains u))).map (fun u => (u, i.cyc))) ++ unitsDone t

/-! ### Cycles (R131, R503, R504) -/

/-- Array loads of a strip, L. -/
def loads (d : Desc) : Nat :=
  (if d.fmtA = 0 && d.fmtB = 0 then 2 else if isHank d.fmtA then 4 else 16) * d.k

/-- Elements along the sum that one array load takes (R117). -/
def perLoad (d : Desc) : Nat := if d.fmtA = 0 && d.fmtB = 0 then 16 else if isHank d.fmtA then 8 else 2

/-- Fixed cycles of an operation (Table 10). -/
def fixedCycles (op : Nat) : Nat :=
  match op with
  | 1 => 16
  | 2 => 18
  | 3 => 20
  | 4 => 10
  | 5 => 14
  | 6 => 8
  | 7 => 6
  | 8 => 4
  | 9 => 6
  | 10 => 1
  | 11 => 1
  | _ => 0

/-- Payload bytes of a SEND row (R127). -/
def sendBytes (d : Desc) : Nat :=
  (if isHank d.fmtA then 64 + d.k * hankBytes d.fmtA else 32 * d.k * (fmtBits d.fmtA / 8)) + 8

/-- Dense cycles of an entry that runs R rows (Table 10, R503); `len` is DISP_LEN. -/
def entryCycles (d : Desc) (r len : Nat) : Nat :=
  let f := fixedCycles d.op
  let e := 32 * d.k * r
  if r = 0 && d.useRcv then f
  else
    match d.op with
    | 1 => f + d.n * loads d * max r 4 + b2n d.rdo * d.n * r
    | 2 => f + d.n * loads d * max r 4 + b2n d.rdo * d.n * r
    | 3 => f + d.n * loads d * max r 4 + d.n * r
    | 4 => f + ceilDiv e 8
    | 5 => f + ceilDiv e 2
    | 6 => f + ceilDiv e (if isHank d.fmtA then 16 else 8) + r
    | 7 => f + ceilDiv e 16 + (if d.sub.testBit 0 then 32 else 0)
    | 8 => f + d.k * r
    | 9 => f + r + r * (if d.sub.testBit 1 then 2 else 1) * (1 + ceilDiv (sendBytes d) 32) + len
    | _ => f

/-- The cycles of one strip: products, then the readout. -/
def stripCycles (d : Desc) (r : Nat) : Nat := loads d * max r 4 + (if d.rdo || d.op = 3 then r else 0)

/-- The cycle in which load q of a matrix entry takes row r. -/
def loadCycle (d : Desc) (r q i : Nat) : Nat :=
  let l := max (loads d) 1
  fixedCycles d.op + q / l * stripCycles d r + q % l * max r 4 + i + 1

/-- The readout cycle of column c of row i: `width` columns come in S strips (R504). -/
def readCycle (d : Desc) (r width i c : Nat) : Nat :=
  let j := c * d.n / max width 1
  fixedCycles d.op + (j + 1) * (loads d * max r 4) + j * r + i + 1

/-! ### Plans -/

/-- An entry's writes in the cycles in which they take place: a matrix entry writes in each readout cycle, the others write a unit
in the cycle in which it is complete (R504). -/
def itemTimes (d : Desc) (is : List Item) : List Item :=
  if 1 ≤ d.op && d.op ≤ 3 then is
  else
    let ds := unitsDone is
    is.map (fun i => { i with cyc := i.units.foldl (fun m u => max m (((ds.find? (fun e => e.1 = u)).map Prod.snd).getD 0)) i.cyc })

/-- The plan of an entry that computes: its writes in their cycles, and with OUT_EN the emission of every unit it completes. -/
def Plan.of (d : Desc) (reads : List (Nat × Nat)) (is : List Item) (g : Rng) (accs : List Acc) (maxs : List Val) (cyc : Nat) : Plan :=
  { reads := reads, items := itemTimes d is,
    emit := if d.outEn then (unitsDone is).map (fun e => (e.2, Emit.written e.1)) else [],
    drops := [], rng := g, accs := accs, maxs := maxs, cyc := cyc }

/-- POISON raised by contributions, in the earliest of their cycles (R87, R100). -/
def poisonAt : List Nat → List Item
  | [] => []
  | c :: t => [⟨t.foldl min c, [], [], 0, { poison := true }⟩]

/-- Whether a group holds a factor that poisons its contribution. -/
def groupBad (fmt : Nat) (h : Hank) : Bool := (List.range 32).any (fun i => (factor fmt h i).bad)

/-- The destination of an entry's results: production-ordered results become writes; matrix results of 32 columns make
a hank with the later of its two strips (R120). A transposed row of a number of elements that USE_RCV has made no multiple of 32
fills whole hanks only: the spec says nothing of the elements left over, and the model writes none of them (DESIGN CHOICE, log
entry 23; R124). -/
def place (b : Banks) (d : Desc) (rows width : Nat) (matrix : Bool) (rs : List Res) (g : Rng) : List Item × Rng :=
  let acc := decide (b.cfg.role (d.addrD / 256) = 4)
  if isHank d.fmtD then
    let kk := width / 32
    let hb := hankBytes d.fmtD
    let rgn : Rgn := ⟨d.fmtD, d.addrD, if d.layD then some (b.cfg.rowStride d.addrD kk hb) else none⟩
    let pos := if matrix then (List.range kk).flatMap (fun k => (List.range rows).map (fun r => (r, k)))
      else (List.range rows).flatMap (fun r => (List.range kk).map (fun k => (r, k)))
    let hs := pos.map (fun p =>
      let xs := rs.filter (fun x => x.row = p.1 && x.col / 32 = p.2)
      (⟨p.1, p.2, xs.foldl (fun m x => max m x.cyc) 0, xs.map Res.v, xs.foldl (fun f x => f.or x.fl) {}⟩ : HankRes))
    itemsHank rgn kk rows d.rnd (if d.smode then some d.imm else none) acc hs g
  else itemsIeee d.fmtD d.addrD width d.rnd acc rs g

/-- The region of A. -/
def regionA (b : Banks) (d : Desc) (kk : Nat) : Rgn :=
  ⟨d.fmtA, d.addrA, if d.layA && isHank d.fmtA then some (b.cfg.rowStride d.addrA kk (hankBytes d.fmtA)) else none⟩

/-! ### Matrix operations (R117 to R120) -/

/-- Positions of matrix results in production order: strips of 16, rows, columns of the strip (R120). -/
def stripOrder (rows width : Nat) : List (Nat × Nat) :=
  (List.range (ceilDiv width 16)).flatMap (fun q => (List.range rows).flatMap (fun r =>
    (List.range (min 16 (width - 16 * q))).map (fun c => (r, 16 * q + c))))

/-- The accumulators of MATMUL, OUTER (products of row r of A and column n of B) or MATMUL_T after an entry. R115 does not name K
among what an open run keeps: a MATMUL_T that goes on with another K finds the open accumulators by its own row width (DESIGN
CHOICE, log entry 23). -/
def matrixAccs (b : Banks) (d : Desc) (rows : Nat) (start : List Acc) : List Acc :=
  let kk := if d.op = 2 then d.n / 2 else d.k
  let a := regionA b d kk
  let w : Rgn := ⟨d.fmtB, d.addrB, none⟩
  let width := if d.op = 2 then 32 * d.k else 16 * d.n
  (List.range rows).flatMap (fun r => (List.range width).map (fun c =>
    let a0 := start.getD (r * width + c) Acc.zero
    (List.range kk).foldl (fun x k =>
      let ga := b.group a kk r k
      let ps :=
        if d.op = 2 then
          (List.range 32).map (fun i =>
            (factor d.fmtA ga i, factor d.fmtB (b.group w d.k (32 * k + i) (c / 32)) (c % 32)))
        else
          let gb := b.group w d.k c k
          (List.range 32).map (fun i => (factor d.fmtA ga i, factor d.fmtB gb i))
      x.group d.fmtA d.fmtB ps) a0))

/-- The units a matrix entry reads, each in the cycle that consumes it (R504). -/
def matrixReads (b : Banks) (d : Desc) (rows : Nat) : List (Nat × Nat) :=
  let kk := if d.op = 2 then d.n / 2 else d.k
  let p := perLoad d
  let a := regionA b d kk
  let w : Rgn := ⟨d.fmtB, d.addrB, none⟩
  let ra := (List.range rows).flatMap (fun r => (List.range kk).flatMap (fun k =>
    (a.units kk r k).map (fun u => (loadCycle d rows (32 * k / p) r, u))))
  let rb := (List.range (16 * d.n)).flatMap (fun n => (List.range d.k).flatMap (fun k =>
    let q := if d.op = 2 then 2 * k * (16 * d.n / p) + n / p else n / 16 * loads d + 32 * k / p
    (w.units d.k n k).map (fun u => (loadCycle d rows q 0, u))))
  let rx := if d.muEn then [(fixedCycles d.op + loads d * max rows 4 + 1, d.addrX)] else []
  ra ++ rb ++ rx

/-- The cycles in which a matrix entry consumes a group that poisons a contribution (R87, R100). -/
def matrixPoison (b : Banks) (d : Desc) (rows : Nat) : List Nat :=
  let kk := if d.op = 2 then d.n / 2 else d.k
  let p := perLoad d
  let a := regionA b d kk
  let w : Rgn := ⟨d.fmtB, d.addrB, none⟩
  (List.range rows).flatMap (fun r => (List.range kk).filterMap (fun k =>
      if groupBad d.fmtA (b.group a kk r k) then some (loadCycle d rows (32 * k / p) r) else none)) ++
    (List.range (16 * d.n)).flatMap (fun n => (List.range d.k).filterMap (fun k =>
      if groupBad d.fmtB (b.group w d.k n k) then
        some (loadCycle d rows (if d.op = 2 then 2 * k * (16 * d.n / p) + n / p else n / 16 * loads d + 32 * k / p) 0)
      else none))

/-- MATMUL and MATMUL_T. A contribution that poisons its run raises POISON in the entry that makes it, with RDO = 0 too (R87,
R100). -/
def planMatmul (b : Banks) (d : Desc) (rows : Nat) (accs : List Acc) (g : Rng) : Plan :=
  let start := if d.clr then [] else accs
  let width := if d.op = 2 then 32 * d.k else 16 * d.n
  let cyc := entryCycles d rows b.cfg.dispLen
  if rows = 0 then Plan.of d [] [] g start [] cyc
  else
    let as := matrixAccs b d rows start
    let reads := matrixReads b d rows
    let ps := poisonAt (matrixPoison b d rows)
    if d.rdo then
      let mu := if d.muEn then b.scalar d.addrX else .fin false 1
      let rs := (stripOrder rows width).map (fun p =>
        let x := as.getD (p.1 * width + p.2) Acc.zero
        (⟨p.1, p.2, readCycle d rows width p.1 p.2, x.readVal mu, x.readFlags mu⟩ : Res))
      let (is, g) := place b d rows width true rs g
      Plan.of d reads (ps ++ is) g [] [] cyc
    else Plan.of d reads ps g as [] cyc

/-- A value added to a stored element (R91). DEDUCED (log entry 23): the spec gives no sum onto a stored infinity or NaN; R80 lets
OUTER produce no infinity, so an infinite sum, whose magnitude exceeds the largest finite value, saturates with SAT as R89 has it;
a NaN stays the canonical NaN and raises no flag. -/
def addStored (fmt : Nat) (old new : Val) : VF :=
  match old.add new with
  | .inf n => (.fin n (maxVal fmt), { sat := true })
  | v => (v, {})

/-- OUTER: each strip's readout adds into the ACC region, one rounding an element (R91, R119). -/
def planOuter (b : Banks) (d : Desc) (rows : Nat) (g : Rng) : Plan :=
  let width := 16 * d.n
  let cyc := entryCycles d rows b.cfg.dispLen
  if rows = 0 then Plan.of d [] [] g [] [] cyc
  else
    let as := matrixAccs b d rows []
    let mu := if d.muEn then b.scalar d.addrX else .fin false 1
    let sz := fmtBits d.fmtD / 8
    let at_ (p : Nat × Nat) : Nat := 32 * d.addrD + (p.1 * width + p.2) * sz
    let pos := stripOrder rows width
    let rs := pos.map (fun p =>
      let x := as.getD (p.1 * width + p.2) Acc.zero
      let old := ieeeVal d.fmtD (leNat (b.read (at_ p) sz))
      let (v, f) := addStored d.fmtD old (x.readVal mu)
      (⟨p.1, p.2, readCycle d rows width p.1 p.2, v, f.or (x.readFlags mu)⟩ : Res))
    let (is, g) := place b d rows width true rs g
    let rd := pos.map (fun p => (readCycle d rows width p.1 p.2, at_ p / 32))
    Plan.of d (matrixReads b d rows ++ rd) (poisonAt (matrixPoison b d rows) ++ is) g [] [] cyc

/-! ### VEC (R121) -/

/-- Element e of a contiguous IEEE region. -/
def Banks.elem (b : Banks) (fmt addr e : Nat) : Val :=
  let sz := fmtBits fmt / 8
  ieeeVal fmt (leNat (b.read (32 * addr + e * sz) sz))

/-- The unit that element e of a contiguous IEEE region starts in. -/
def elemUnit (fmt addr e : Nat) : Nat := addr + e * (fmtBits fmt / 8) / 32

/-- The exact result of a VEC sub-operation, before its one rounding (Table 7, R88, R501). -/
def vecOp (code : Nat) (a b x : Val) : VF :=
  match code with
  | 0 => vecResult (a.add b)
  | 1 => vecResult (a.add b.negate)
  | 2 => vecResult (a.mul b)
  | 3 => vecResult ((a.mul b).add x)
  | 4 => if a.isNan || b.isNan then nanPoison else (a.max b, {})
  | 5 => if a.isNan || b.isNan then nanPoison else (a.min b, {})
  | 6 => vecResult a.abs
  | _ => vecResult a.negate

/-- VEC. -/
def planVec (b : Banks) (d : Desc) (rows : Nat) (g : Rng) : Plan :=
  let e := 32 * d.k * rows
  let code := d.sub % 16
  let cyc := entryCycles d rows b.cfg.dispLen
  let useB := code < 6
  let sb := d.sub.testBit 4
  let sx := d.sub.testBit 5
  let one : Val := .fin false 0
  let rs := (List.range e).map (fun i =>
    let vb := if !useB then one else if sb then b.scalar d.addrB else b.elem d.fmtB d.addrB i
    let vx := if code ≠ 3 then one else if sx then b.scalar d.addrX else b.elem d.fmtD d.addrX i
    let (v, f) := vecOp code (b.elem d.fmtA d.addrA i) vb vx
    (⟨0, i, 10 + ceilDiv (i + 1) 8, v, f⟩ : Res))
  let rd (fmt addr : Nat) : List (Nat × Nat) := (List.range e).map (fun i => (10 + i / 8 + 1, elemUnit fmt addr i))
  let reads := rd d.fmtA d.addrA ++
    (if !useB || e = 0 then [] else if sb then [(11, d.addrB)] else rd d.fmtB d.addrB) ++
    (if code ≠ 3 || e = 0 then [] else if sx then [(11, d.addrX)] else rd d.fmtD d.addrX)
  let (is, g) := place b d 1 e false rs g
  Plan.of d reads is g [] [] cyc

/-! ### FUNC (R122) -/

/-- One binary32 operation of the range arithmetic. -/
def f32 (v : Val) : Val := (fp32 v).1

/-- The quotient of two finite values, before rounding. -/
def Val.div (a b : Val) : Val := Val.ofRat (a.rat / b.rat)

/-- A segment of a FUNC table: c0 to c3. -/
def funcCoef (t : List Byte) (i j : Nat) : Val := ieeeVal 10 (leAt t (16 + 16 * i + 4 * j) 4)

/-- p(u) of segment i by Horner's rule, each step rounded once to binary32, and its SAT. -/
def funcPoly (t : List Byte) (i : Nat) (u : Val) : Val × NFlags :=
  let step (x : Val × NFlags) (c : Val) : Val × NFlags :=
    let (y, f) := fp32 ((x.1.mul u).add c)
    (y, x.2.or f)
  step (step (step (funcCoef t i 3, {}) (funcCoef t i 2)) (funcCoef t i 1)) (funcCoef t i 0)

/-- A segment index and the position within the segment, from 64 times a fraction. A fraction that has rounded to 1 names segment
64, which no table has: the model takes segment 63 and the position counted from it, as the formula of kind 0 does (DESIGN CHOICE,
log entry 23; R122). -/
def funcSeg (q : Val) : Nat × Val :=
  let i := min q.rat.floor.toNat 63
  (i, f32 (q.add (Val.ofRat (-(i : Rat)))))

/-- The position within a table for kinds 0 and 5: t = ((clamp(x) − LO) × 64) / (HI − LO), and the SAT of its steps. -/
def funcUniform (t : List Byte) (x : Val) : (Nat × Val) × NFlags :=
  let lo := ieeeVal 10 (leAt t 4 4)
  let hi := ieeeVal 10 (leAt t 8 4)
  let c := (x.max lo).min hi
  let (a, f) := fp32 (c.add lo.negate)
  let (w, g) := fp32 (hi.add lo.negate)
  let (q, h) := fp32 (Val.div (a.mul (.fin false 64)) w)
  (funcSeg q, (f.or g).or h)

/-- A finite nonzero magnitude as m × 2ⁿ with 1 ≤ m < 2. -/
def splitExp (v : Val) : Val × Int :=
  let n := flog2 v.mag
  (.fin false (v.mag / pow2 n), n)

/-- The largest finite value of the destination with a sign, with SAT. -/
def largest (fmt : Nat) (neg : Bool) : VF := (.fin neg (maxVal fmt), { sat := true })

/-- A function table evaluated on one element: the exact value to be rounded to FMT_D, and flags (Table 8). A step of the range
arithmetic that overflows binary32 saturates with SAT (DEDUCED from R88, log entry 17). A power of
two beyond every destination's range stands for one just beyond it. -/
def funcEval (t : List Byte) (fmtD : Nat) (x : Val) : VF :=
  let kind := leAt t 0 4 % 16
  let scale := ieeeVal 10 (leAt t 12 4)
  match x with
  | .nan => nanPoison
  | .inf n =>
    match kind with
    | 1 => if n then (.fin false 0, {}) else largest fmtD false
    | 2 => if n then nanPoison else largest fmtD false
    | 3 => (.fin n 0, {})
    | 4 => if n then nanPoison else (.fin false 0, {})
    | 5 => nanPoison
    | _ =>
      let ((i, u), g) := funcUniform t x
      let (p, fl) := funcPoly t i u
      (p, fl.or g)
  | .fin neg m =>
    let finX : Val := .fin neg m
    match kind with
    | 1 =>
      let (q, g) := fp32 (finX.mul scale)
      let n := q.rat.floor
      let f := f32 (q.add (Val.ofRat (-(n : Rat))))
      let (i, u) := funcSeg (f.mul (.fin false 64))
      let (p, fl) := funcPoly t i u
      (p.mul (.fin false (pow2 (max (-700) (min 400 n)))), fl.or g)
    | 2 =>
      if m = 0 then largest fmtD true
      else if neg then nanPoison
      else
        let (mm, n) := splitExp finX
        let (i, u) := funcSeg ((f32 (mm.add (.fin true 1))).mul (.fin false 64))
        let (p, fl) := funcPoly t i u
        (p.add (scale.mul (Val.ofRat (n : Rat))), fl)
    | 3 =>
      if m = 0 then largest fmtD neg
      else
        let (mm, n) := splitExp finX
        let (i, u) := funcSeg ((f32 (mm.add (.fin true 1))).mul (.fin false 64))
        let (p, fl) := funcPoly t i u
        (p.mul (.fin neg (pow2 (-n))), fl)
    | 4 =>
      if m = 0 then largest fmtD neg
      else if neg then nanPoison
      else
        let j := (flog2 m) / 2
        let mm : Val := .fin false (m / pow2 (2 * j))
        let q := f32 (Val.div ((f32 (mm.add (.fin true 1))).mul (.fin false 64)) (.fin false 3))
        let (i, u) := funcSeg q
        let (p, fl) := funcPoly t i u
        (p.mul (.fin false (pow2 (-j))), fl)
    | 5 =>
      let ((i, u), g) := funcUniform t finX
      let (p, fl) := funcPoly t i u
      (p.mul finX, fl.or g)
    | _ =>
      let ((i, u), g) := funcUniform t finX
      let (p, fl) := funcPoly t i u
      (p, fl.or g)

/-- FUNC under a function table. -/
def planFunc (b : Banks) (d : Desc) (rows : Nat) (t : List Byte) (g : Rng) : Plan :=
  let e := 32 * d.k * rows
  let rs := (List.range e).map (fun i =>
    let (v, f) := funcEval t d.fmtD (b.elem d.fmtA d.addrA i)
    (⟨0, i, 14 + ceilDiv (i + 1) 2, v, f⟩ : Res))
  let (is, g) := place b d 1 e false rs g
  Plan.of d ((List.range e).map (fun i => (14 + i / 2 + 1, elemUnit d.fmtA d.addrA i))) is g [] []
    (entryCycles d rows b.cfg.dispLen)

/-! ### REDUCE (R123) -/

/-- The elements of row r of A. -/
def Banks.row (b : Banks) (a : Rgn) (kk r : Nat) : List Val :=
  (List.range kk).flatMap (fun k =>
    let h := b.group a kk r k
    (List.range 32).map (groupVal a.fmt h))

/-- The exact maximum, of magnitudes for MAXABS; a NaN poisons the row (R123, R501). -/
def reduceMax (maxabs : Bool) (start : Option Val) (vs : List Val) : Val :=
  let vs := if maxabs then vs.map Val.abs else vs
  if vs.any Val.isNan then .nan
  else vs.foldl (fun m v =>
    match m with
    | none => some v
    | some x => some (if x.isNan then .nan else x.max v)) start |>.getD (.fin false 0)

/-- REDUCE. R115 does not name SUB among what an open run keeps: a run that goes on with another SUB keeps the accumulators of the
kinds that sum, or the maxima of the kinds that compare, and drops those of the other (DESIGN CHOICE, log entry 23). A contribution
that poisons its run raises POISON in the entry that makes it (R87, R100). -/
def planReduce (b : Banks) (d : Desc) (rows : Nat) (accs : List Acc) (maxs : List Val) (g : Rng) : Plan :=
  let kk := d.k
  let a := regionA b d kk
  let rate := if isHank d.fmtA then 16 else 8
  let n := 32 * kk
  let cyc := entryCycles d rows b.cfg.dispLen
  let sum := d.sub = 0 || d.sub = 3
  let acc0 := if d.clr then [] else accs
  let max0 := if d.clr then [] else maxs
  let as := if sum then
      (List.range rows).map (fun r =>
        (List.range kk).foldl (fun x k =>
          let h := b.group a kk r k
          x.group d.fmtA d.fmtA ((List.range 32).map (fun i =>
            let f := factor d.fmtA h i
            (f, if d.sub = 0 then oneFactor else f)))) (acc0.getD r Acc.zero))
    else []
  let ms := if sum then [] else
    (List.range rows).map (fun r => reduceMax (d.sub = 2) (max0[r]?) (b.row a kk r))
  let at_ (r k : Nat) : Nat := 8 + (r * n + 32 * k) / rate + r + 1
  let reads := (List.range rows).flatMap (fun r => (List.range kk).flatMap (fun k => (a.units kk r k).map (fun u => (at_ r k, u))))
  let ps := if sum then
      poisonAt ((List.range rows).flatMap (fun r => (List.range kk).filterMap (fun k =>
        if groupBad d.fmtA (b.group a kk r k) then some (at_ r k) else none)))
    else []
  if d.rdo then
    let rs := (List.range rows).map (fun r =>
      let (v, f) : VF :=
        if sum then
          let x := as.getD r Acc.zero
          (x.readVal (.fin false 1), x.readFlags (.fin false 1))
        else
          let v := ms.getD r (.fin false 0)
          (v, { poison := v.isNan })
      (⟨r, 0, 8 + ceilDiv ((r + 1) * n) rate + r + 1, v, f⟩ : Res))
    let (is, g) := place b d rows 1 false rs g
    Plan.of d reads (ps ++ is) g [] [] cyc
  else Plan.of d reads ps g as ms cyc

/-! ### CONVERT (R124) -/

/-- CONVERT, with transpose under SUB[0]. -/
def planConvert (b : Banks) (d : Desc) (rows : Nat) (g : Rng) : Plan :=
  let kk := d.k
  let a := regionA b d kk
  let n := 32 * kk
  let tr := d.sub.testBit 0
  let src (r c : Nat) : VF :=
    let h := b.group a kk r (c / 32)
    (groupVal d.fmtA h (c % 32), { poison := isHank d.fmtA && h.isInvalid })
  let rs :=
    if tr then
      (List.range n).flatMap (fun c => (List.range rows).map (fun r =>
        let x := src r c
        (⟨c, r, 6 + ceilDiv (n * rows) 16 + 32, x.1, x.2⟩ : Res)))
    else
      (List.range rows).flatMap (fun r => (List.range n).map (fun c =>
        let x := src r c
        (⟨r, c, 6 + ceilDiv (r * n + c + 1) 16, x.1, x.2⟩ : Res)))
  let (is, g) := if tr then place b d n rows false rs g else place b d rows n false rs g
  let reads := (List.range rows).flatMap (fun r => (List.range kk).flatMap (fun k =>
    (a.units kk r k).map (fun u => (6 + (r * n + 32 * k) / 16 + 1, u))))
  Plan.of d reads is g [] [] (entryCycles d rows b.cfg.dispLen)

/-! ### MOVE (R125) -/

/-- MOVE COPY. -/
def planCopy (b : Banks) (d : Desc) (rows : Nat) (g : Rng) : Plan :=
  let acc := b2n (decide (b.cfg.role (d.addrD / 256) = 4))
  let n := d.k * rows
  Plan.of d ((List.range n).map (fun j => (4 + j + 1, d.addrA + j)))
    ((List.range n).map (fun j =>
      ⟨4 + j + 1, [d.addrD + j], bytesAt (32 * (d.addrD + j)) (b.read (32 * (d.addrA + j)) 32), acc, {}⟩))
    g [] [] (entryCycles d rows b.cfg.dispLen)

/-- MOVE OUT, and MOVE PASS from a landing area: `n` units from unit `u`. -/
def planOut (b : Banks) (d : Desc) (rows u n : Nat) (g : Rng) : Plan :=
  let l := (List.range n).map (fun j => (4 + j + 1, u + j))
  { Plan.of d l [] g [] [] (entryCycles d rows b.cfg.dispLen) with emit := l.map (fun e => (e.1, Emit.unit (b.unit e.2))) }

/-! ### SKIP (R130) -/

/-- Whether every hank of the K-hank region is a zero hank. -/
def Banks.allZero (b : Banks) (d : Desc) : Bool :=
  let a := regionA b d d.k
  (List.range d.k).all (fun k => b.byte (a.at d.k 0 k).1 = 0)

/-- The units whose scale bytes the zero test reads. -/
def zeroReads (b : Banks) (d : Desc) : List (Nat × Nat) :=
  let a := regionA b d d.k
  (List.range d.k).map (fun k => (1, (a.at d.k 0 k).1 / 32))

end Sys2Proof.Machine
end

