-- ==== Sys2Proof/Machine/Manifest.lean ====
section
/-! DEFINITION. Groups and positions (R25, R26, R247), the records of the installation manifest (R250, R315), the circuits of a
cross-connect map (R252), and the e-cube routes of a group (R266). -/

namespace Sys2Proof.Machine

/-! ### Groups (R25, R26) -/

/-- The group of a module ID. -/
def modGroup (m : Nat) : Nat := m / 64
/-- The position of a module ID. -/
def modPos (m : Nat) : Nat := m % 64

/-! ### The manifest (R315) -/

/-- Whether a manifest's signature block is present. -/
def manSigned (b : List Byte) : Bool := bit (leAt b 6 2) 0
/-- Groups of a manifest. -/
def manGroups (b : List Byte) : Nat := leAt b 16 2
/-- Modules of a manifest. -/
def manMods (b : List Byte) : Nat := leAt b 18 2
/-- Where the module records begin. -/
def manBase (b : List Byte) : Nat := ceilDiv (64 + 16 * manGroups b) 64 * 64
/-- The end of the signed part. -/
def manBody (b : List Byte) : Nat := if manSigned b then leAt b 32 8 else leAt b 24 8
/-- The manifest digest. -/
def manDigest (b : List Byte) : List Byte := digest (b.take (manBody b))

/-- A group record: group, size code, MGR_PRI, MGR_SBY. -/
def manGroup (b : List Byte) (i : Nat) : Nat × Nat × Nat × Nat :=
  let w := leAt b (64 + 16 * i) 4
  (bits w 5 0, bits w 7 6, bits w 13 8, bits w 19 14)

/-- The record of a group. -/
def manGroup? (b : List Byte) (g : Nat) : Option (Nat × Nat × Nat × Nat) :=
  ((List.range (manGroups b)).map (manGroup b)).find? (fun r => r.1 = g)

/-- Modules of a group: 16, 32 or 64. -/
def manSize (b : List Byte) (g : Nat) : Nat :=
  match manGroup? b g with
  | some (_, z, _, _) => 16 * 2 ^ z
  | none => 0

/-- The module record of index i. -/
def manMod (b : List Byte) (i : Nat) : List Byte := slice b (manBase b + 320 * i) 320
/-- The module ID of a module record. -/
def modRecId (r : List Byte) : Nat := bits (leAt r 32 2) 11 0
/-- The module record of a module ID. -/
def manMod? (b : List Byte) (m : Nat) : Option (List Byte) :=
  ((List.range (manMods b)).map (manMod b)).find? (fun r => modRecId r = m)
/-- Whether the manifest holds a module. -/
def manHas (b : List Byte) (m : Nat) : Bool := (manMod? b m).isSome

/-- The fields of a port in a module record. -/
structure ManPort where
  gran    : Nat
  medium  : Nat
  present : Bool
  peerMod : Nat
  peerPort : Nat
  i2c     : Nat
  deriving DecidableEq, Repr

/-- Port c of a module record. -/
def manPort (r : List Byte) (c : Nat) : ManPort :=
  let o := 64 + 16 * c
  { gran := bits (leAt r o 5) 35 0, medium := bits (leAt r (o + 5) 1) 1 0, present := bit (leAt r (o + 5) 1) 2,
    peerMod := bits (leAt r (o + 6) 2) 11 0, peerPort := bits (leAt r (o + 6) 2) 15 12, i2c := leAt r (o + 8) 1 }

/-- The modules of a group that the manifest holds. -/
def manMembers (b : List Byte) (g : Nat) : List Nat :=
  ((List.range (manMods b)).map (fun i => modRecId (manMod b i))).filter (fun m => modGroup m = g)

/-- MGR_PRI and MGR_SBY of a group (R305). -/
def managersOf (b : List Byte) (g : Nat) : List Nat :=
  match manGroup? b g with
  | some (_, _, p, q) => [64 * g + p, 64 * g + q]
  | none => []

/-- The dimensions n of a group of a size. -/
def dims (size : Nat) : Nat := Nat.log2 size

/-- The neighbour position a port of a group of size 2ⁿ joins (R26, R250): Dk or FOLD. -/
def portPeer (n pos port : Nat) : Option Nat :=
  if port < 6 then (if port < n then some (pos ^^^ 2 ^ port) else none)
  else if port = 6 then some (pos ^^^ (2 ^ n - 1))
  else none

/-- Whether a PRESENT port of a module record keeps the rules of R250. -/
def cableOk (b : List Byte) (m : Nat) (c : Nat) (p : ManPort) : Bool :=
  let g := modGroup m
  if !p.present then true
  else if c = 7 || c = 8 then p.peerMod = 0xFFF && p.peerPort = 0xF
  else match portPeer (dims (manSize b g)) (modPos m) c with
    | some q => p.peerMod = 64 * g + q && p.peerPort = c
    | none => false

/-- The size of this module's group; 64 without a manifest. -/
def State.groupSize (s : State) : Nat :=
  let n := manSize s.mgr.manifest (modGroup s.modId)
  if n = 0 then 64 else n

/-! ### Circuits (R252) -/

/-- The circuits of a cross-connect map as directed edges: from a module's port to a group. -/
def circuits (x : List (Nat × Nat × Nat × Nat)) : List (Nat × Nat × Nat) :=
  x.flatMap (fun e => [(e.1, e.2.1, modGroup e.2.2.1), (e.2.2.1, e.2.2.2, modGroup e.1)])

/-! ### E-cube routes (R266) -/

/-- The e-cube escape port from position p to q in a group of n dimensions (R266). -/
def ecube (n p q : Nat) : Option Nat :=
  let d := p ^^^ q
  let k := popBits n d
  if d = 0 then none
  else
    let want := n + 1 - k < k
    match firstBelow n (fun i => d.testBit i != want) with
    | some i => some i
    | none => if want then some 6 else none

/-- The neighbour through which e-cube routes from p reach q. -/
def ecubeNext (n p q : Nat) : Option Nat := (ecube n p q).bind (fun c => portPeer n p c)

/-- The positions on the e-cube route from p to q, p first. -/
def ecubePath (n q : Nat) : Nat → Nat → List Nat
  | 0, p => [p]
  | k + 1, p => match ecubeNext n p q with
    | none => [p]
    | some v => p :: ecubePath n q k v

/-- The node before `u` on a path, if the path passes u. -/
def before (u : Nat) : List Nat → Option Nat
  | a :: b :: t => if b = u then some a else before u (b :: t)
  | _ => none

end Sys2Proof.Machine
end

