-- ==== Sys2Proof/Machine/Access.lean ====
section
/-! DEFINITION. Register writes: who may write a register, what a write stores by the access codes of R8 and R9, the
private selector copies of R478, and the gate that every command spelling a register write passes. -/

namespace Sys2Proof.Machine

/-! ### Permission (R411, R477, R490) -/

/-- The masters a writer class admits; mailbox and doorbell registers check their own masters (R421, R430). -/
def Writers.admits (w : Writers) (m : Master) : Bool :=
  match w with
  | .none => false
  | .hub => m = 0
  | .hubHost => m = 0 || m = 2
  | .hubTrayHost => m = 0 || m = 1 || m = 2
  | .hubTray => m = 0 || m = 1
  | .mbx => true
  | .doorbell => true

/-- Whether an offset is one of the host-port registers of Table 14 (R432). -/
def isHostPort (off : Nat) : Bool := 0x200 ≤ off && off < 0x900

/-- Whether an offset lies in the MBX block. -/
def isMbx (off : Nat) : Bool := 0x50000 ≤ off && off < 0x60000

/-- What PF0 reaches directly: everything on the ACTING module, the host-port registers, MBX, FAB_CMD and RIG_CMD on
another module that runs firmware, and the firmware staging registers while the boot ROM waits (R411). -/
def State.hostReaches (s : State) (off : Nat) : Bool :=
  if s.fwRuns then
    s.acting || isHostPort off || isMbx off || off = FAB_CMD.off || off = RIG_CMD.off
  else
    isHostPort off || isMbx off || off = SEC_FW_LEN.off || off = SEC_FW_CMD.off

/-- Whether a master's write reaches a register. `direct` is false for an access that a manager forwards (R411). -/
def State.mayWrite (s : State) (direct : Bool) (m : Master) (off : Nat) : Bool :=
  match regRow? off with
  | none => false
  | some r => r.wr.admits m && (m ≠ 2 || !direct || s.hostReaches off)

/-- The bits of a register that are reserved. -/
def rsvMask (off : Nat) : Nat :=
  match regRow? off with
  | none => 2 ^ 32 - 1
  | some r => 2 ^ 32 - 1 - r.mask (fun f => f.acc ≠ .rsv)

/-- Whether a written word keeps the RSV rule (R9). -/
def rsvOk (off : Nat) (v : Word) : Bool := v.toNat &&& rsvMask off = 0

/-! ### Locks (R9) -/

/-- Whether the lock of a register's RWL fields is set. -/
def State.lockedAt (s : State) (off : Nat) : Bool :=
  if off = RIG_CTL.off then s.flag RIG_CTL.LOCK
  else if off = FLT_CTL.off then s.flag FLT_CTL.LOCK
  else if off = FAB_MGR_CTL.off then s.flag FAB_MGR_CTL.LOCK
  else if 0x50000 ≤ off && off < 0x50800 then s.flag MBX_CTL.LOCK
  else if 0x52000 ≤ off && off < 0x52100 then s.flag MBX_CTL.LOCK
  else false

/-! ### Stores -/

/-- A field of a word after a write of `v`, and whether the write to it is refused (R8, R9). -/
def FieldRow.store (locked : Bool) (v : Nat) (f : FieldRow) (w : Nat) : Nat × Bool :=
  let old := bits w f.hi f.lo
  let new := bits v f.hi f.lo
  match f.acc with
  | .rw => (setBits w f.hi f.lo new, false)
  | .w1c => (setBits w f.hi f.lo (old - (old &&& new)), false)
  | .w1s => (setBits w f.hi f.lo (old ||| new), false)
  | .rwl => if locked then (w, old != new) else (setBits w f.hi f.lo new, false)
  | .ro => (w, false)
  | .wo => (w, false)
  | .rsv => (w, false)

/-- A word after a write of `v` to a register's fields, and whether a locked field refused it. -/
def RegRow.store (r : RegRow) (locked : Bool) (v w : Nat) : Nat × Bool :=
  r.flds.foldl (fun x f => let y := f.store locked v x.1; (y.1, x.2 || y.2)) (w, false)

/-- The register at an offset after a write by the access codes; a refused locked field is a NOTE (R9). -/
def State.store (s : State) (m : Master) (off : Nat) (v : Word) : State :=
  match regRow? off with
  | none => s
  | some r =>
    let (w, bad) := r.store (s.lockedAt off) v.toNat (s.reg off).toNat
    let s := s.setReg off (BitVec.ofNat 32 w)
    if bad then s.badWrite m off else s

/-- A word without the bits of a field. -/
def Fld.off0 (f : Fld) (v : Word) : Word := f.into v 0

/-- Whether the hub domain runs, so that its registers can be reached (R378, R390). -/
def State.hubUp (s : State) : Bool := !s.pwr.off && decide (3 ≤ s.pwr.stage)

/-- The gate of a register write: nothing reaches a hub that is down, nor from PF0 past a closed endpoint sluice (R359); a master that may not write, or a set reserved bit, makes it a NOTE without effect
(R9, R70, R476, R477); otherwise `f` is its effect. -/
def State.gate (s : State) (direct : Bool) (m : Master) (off : Nat) (v : Word) (f : State → State) : State :=
  if !s.hubUp || (direct && m = 2 && s.host.closed) then s
  else if s.mayWrite direct m off && rsvOk off v then f s else s.badWrite m off

/-! ### Private copies (R10, R478) -/

/-- The snapshots of the registers that `p` names cleared. -/
def State.unsnap (s : State) (p : Nat → Bool) : State := { s with snap0 := Store.clear p s.snap0, snap2 := Store.clear p s.snap2 }

/-- Whether the register at an offset is a selector of which masters 0x00 and 0x02 hold private copies. -/
def isSelector (off : Nat) : Bool :=
  off = HUB_FUSE_SEL.off || off = FLT_SRC_SEL.off || off = FLT_FRZ_SEL.off || off = EVR_PAGE.off ||
    (0x200000 ≤ off && off < 0x300000 &&
      (let o := off % 0x10000
       o = 0x0004 || o = 0x0010 || o = 0x0014 || o = 0x0018 || o = 0x4000 || o = 0x5000))

/-- A register as a master holds it. -/
def State.mreg (s : State) (m : Master) (off : Nat) : Word :=
  if m = 2 && isSelector off then Store.get regReset s.priv2 off else s.reg off

/-- A register as a master holds it, set. -/
def State.setMreg (s : State) (m : Master) (off : Nat) (v : Word) : State :=
  if m = 2 && isSelector off then { s with priv2 := Store.put regReset s.priv2 off v } else s.setReg off v

/-- A field of a register as a master holds it. -/
def State.mget (s : State) (m : Master) (f : Fld) : Nat := f.of (s.mreg m f.reg)

end Sys2Proof.Machine
end

