-- ==== Sys2Proof/Machine/Mailbox.lean ====
section
/-! DEFINITION. Mailboxes and doorbells (R420 to R431): posts and pops with their duplicated pointers, timeouts, vectors
and generations, and the commands of the family. -/

namespace Sys2Proof.Machine

/-! ### Masters -/

/-- Whether a master is a function of the endpoint (R409). -/
def isFunction (m : Nat) : Bool := m = 2 || m = 3 || (0x10 ≤ m && m < 0x50)

/-- The generation of a master (R426, R432). -/
def State.mgen (s : State) (m : Nat) : Nat := bits (s.reg (MBX_MGEN.off (m / 4))).toNat (8 * (m % 4) + 7) (8 * (m % 4))

/-- The vectors of a master's function (R417). -/
def vectorsOf (m : Nat) : Nat := if m = 2 then 1024 else if m = 3 then 512 else if isFunction m then 8 else 2048

/-- A vector sent to a master: an MSI-X message to a function, alert cause 4 to the tray controller; the hub controller
and the peer managers take none (R428). -/
def State.notify (s : State) (m v : Nat) : State :=
  if isFunction m then (if s.host.linkUp then s.emit (.msix m v) else s)
  else if m = 1 then s.alert 4 else s

/-- Whether a receiver is asleep (R425). -/
def State.asleep (s : State) (m : Nat) : Bool := isFunction m && (!s.host.linkUp || s.host.d3hot.contains m)

/-- Whether a receiver is in reset. -/
def State.inReset (s : State) (m : Nat) : Bool := isFunction m && s.host.resetting

/-! ### Channels -/

/-- Whether a channel carries messages: VALID and the bindings locked (R420). -/
def State.chanOpen (s : State) (c : Nat) : Bool := s.flag (MBX_BIND_W0.VALID c) && s.flag MBX_CTL.LOCK

/-- The sender of a channel. -/
def State.chanSender (s : State) (c : Nat) : Nat := s.fget (MBX_BIND_W0.SENDER c)

/-- The receiver of a channel. -/
def State.chanRecv (s : State) (c : Nat) : Nat := s.fget (MBX_BIND_W0.RECEIVER c)

/-- The queue depth of a channel. -/
def State.chanDepth (s : State) (c : Nat) : Nat := s.fget (MBX_BIND_W0.DEPTH c) + 1

/-- A status bit of a channel set; its setting sends the sender's vector with SIRQ_EN (R428). -/
def State.chanFlag (s : State) (c : Nat) (f : Nat → Fld) : State :=
  if s.flag (f c) then s
  else
    let s := s.fset (f c) 1
    if s.flag (MBX_BIND_W1.SIRQ_EN c) then s.notify (s.chanSender c) (s.fget (MBX_BIND_W1.SVECTOR c)) else s

/-- A channel emptied; RCV_RESET where that discards a message (R426). -/
def State.chanEmpty (s : State) (c : Nat) : State :=
  if (s.mb c).queue.isEmpty then s
  else
    let s := s.modMb c (fun x => { x with queue := [], head1 := x.tail1, head2 := x.tail2 })
    s.chanFlag c MBX_STAT.RCV_RESET

/-- A pointer mismatch empties the queue, sets PTR_ERR and raises fault 0x0803 (R427). -/
def State.chanBroken (s : State) (c : Nat) : State :=
  let s := s.modMb c (fun x => { x with queue := [], head1 := 0, head2 := 0, tail1 := 0, tail2 := 0 })
  (s.chanFlag c MBX_STAT.PTR_ERR).raise 0x0803 0 0 c

/-- The pointers compared. -/
def State.chanPtrs (s : State) (c : Nat) : State :=
  let x := s.mb c
  if x.head1 = x.head2 && x.tail1 = x.tail2 then s else s.chanBroken c

/-- A message stored: behind the others, or over the newest in a full queue (R422, R424). -/
def MbxCh.store (x : MbxCh) (depth : Nat) (m : MbxMsg) : MbxCh :=
  if x.queue.length < depth then
    { x with queue := x.queue ++ [m], tail1 := (x.tail1 + 1) % 16, tail2 := (x.tail2 + 1) % 16 }
  else { x with queue := x.queue.dropLast ++ [m] }

/-- Sixteen words posted on an open channel (R422, R424, R425, R428). -/
def State.chanPost (s : State) (c : Nat) (ws : List Word) : State :=
  let s := s.chanPtrs c
  let r := s.chanRecv c
  if s.inReset r then (s.chanFlag c MBX_STAT.RCV_RESET).chanFlag c MBX_STAT.TIMEOUT
  else
    let was := (s.mb c).queue.length
    let asleep := s.asleep r
    let m : MbxMsg := ⟨ws, BitVec.ofNat 8 (s.mgen (s.chanSender c)), s.now, false⟩
    let depth := s.chanDepth c
    let s := s.modMb c (fun x => x.store depth m)
    let s := if was < depth then s else s.chanFlag c MBX_STAT.COLLISION
    let s := if asleep then s.chanFlag c MBX_STAT.TIMEOUT else s
    if r = 1 then s.alert 4
    else if was = 0 && s.flag (MBX_BIND_W1.IRQ_EN c) then s.notify r (s.fget (MBX_BIND_W1.VECTOR c))
    else s

/-- RX_HEAD of a channel (R423). -/
def State.rxHead (s : State) (c : Nat) : Word :=
  match (s.mb c).queue with
  | [] => 0
  | m :: t => BitVec.ofNat 32 (1 + 2 * (t.length + 1) + m.sgen.toNat * 2 ^ 16)

/-- The words of a channel's oldest message, 0 on an empty queue (R423). -/
def State.rxWords (s : State) (c : Nat) : List Word :=
  match (s.mb c).queue with
  | [] => List.replicate 16 0
  | m :: _ => m.words

/-- The oldest message popped; nothing on an empty queue (R423). -/
def State.chanPop (s : State) (c : Nat) : State :=
  let s := s.chanPtrs c
  s.modMb c (fun x =>
    match x.queue with
    | [] => x
    | _ :: t => { x with queue := t, head1 := (x.head1 + 1) % 16, head2 := (x.head2 + 1) % 16 })

/-- Whether a master may use a channel's send window (R421). -/
def State.maySend (s : State) (m : Master) (c : Nat) : Bool := s.chanOpen c && s.chanSender c = m.toNat

/-- Whether a master may use a channel's receive window (R421). -/
def State.mayRecv (s : State) (m : Master) (c : Nat) : Bool := s.chanOpen c && s.chanRecv c = m.toNat

/-- A master's generation advanced, with what it does to the mailboxes (R360, R374, R426). -/
def State.advGen (s : State) (m : Nat) : State :=
  let w := (s.reg (MBX_MGEN.off (m / 4))).toNat
  let s := s.setReg (MBX_MGEN.off (m / 4)) (BitVec.ofNat 32 (setBits w (8 * (m % 4) + 7) (8 * (m % 4)) (s.mgen m + 1)))
  s.each 256 (fun c s =>
    if s.flag (MBX_BIND_W0.VALID c) then
      let s := if s.chanRecv c = m then s.chanEmpty c else s
      if s.chanSender c = m then s.modMb c (fun x => { x with stage := List.replicate 16 0 }) else s
    else s)

/-! ### Doorbells (R430) -/

/-- A doorbell rung: bits set, and the target's vector where the word leaves 0. -/
def State.dbRing (s : State) (d : Nat) (v : Word) : State :=
  let old := s.reg (MBX_DB_PEND.off d)
  let s := s.setReg (MBX_DB_PEND.off d) (old ||| v)
  if old = 0 && v ≠ 0 then s.notify (s.fget (MBX_DBIND.TARGET d)) (s.fget (MBX_DBIND.VECTOR d)) else s

/-- Whether a doorbell admits a master as its ringer. -/
def State.mayRing (s : State) (m : Master) (d : Nat) : Bool :=
  s.flag (MBX_DBIND.VALID d) && s.flag MBX_CTL.LOCK && s.fget (MBX_DBIND.RINGER d) = m.toNat

/-- Whether a doorbell's pending word is a master's to read and clear. -/
def State.mayPend (s : State) (m : Master) (d : Nat) : Bool :=
  s.flag (MBX_DBIND.VALID d) && s.flag MBX_CTL.LOCK && s.fget (MBX_DBIND.TARGET d) = m.toNat

/-! ### Lock (R420) -/

/-- Whether the bindings may be locked: depths within 1,024 and every vector within its master's table. -/
def State.bindOk (s : State) : Bool :=
  let valid := (List.range 256).filter (fun c => s.flag (MBX_BIND_W0.VALID c))
  let depths := valid.foldl (fun n c => n + s.chanDepth c) 0
  decide (depths ≤ 1024) &&
    valid.all (fun c => decide (s.fget (MBX_BIND_W1.VECTOR c) < vectorsOf (s.chanRecv c)) &&
      decide (s.fget (MBX_BIND_W1.SVECTOR c) < vectorsOf (s.chanSender c))) &&
    ((List.range 64).filter (fun d => s.flag (MBX_DBIND.VALID d))).all (fun d =>
      decide (s.fget (MBX_DBIND.VECTOR d) < vectorsOf (s.fget (MBX_DBIND.TARGET d))))

/-- A write of MBX_CTL: only master 0x00 locks, and an invalid table is refused with code 0x0002. -/
def State.mbxCtl (s : State) (m : Master) (v : Word) : State :=
  if m ≠ 0 then s.badWrite m MBX_CTL.off
  else if !v.getLsbD 0 then s
  else if s.bindOk then s.fset MBX_CTL.LOCK 1
  else s.refuse MBX_CTL.off

/-! ### Window accesses -/

/-- Whether a master's access cannot reach the MBX block: the hub is down, or a function's endpoint is closed (R359, R421). -/
def State.mbxShut (s : State) (m : Nat) : Bool := !s.hubUp || (isFunction m && s.host.closed)

/-- A word of a send window written; word 15 posts (R422). -/
def State.sendWrite (s : State) (m : Master) (c w : Nat) (v : Word) : State :=
  if s.mbxShut m.toNat then s
  else if !s.maySend m c then s.badWrite m (MBX_SEND.off c w)
  else
    let st := setAt (s.mb c).stage w v
    if w = 15 then (s.modMb c (fun x => { x with stage := List.replicate 16 0 })).chanPost c st
    else s.modMb c (fun x => { x with stage := st })

/-- The answer to a read of words 0 to 15 of a receive window, and the pop (R423). -/
def State.recvRead (s : State) (m : Master) (c : Nat) : State :=
  if s.mbxShut m.toNat then s
  else if !s.mayRecv m c then
    (s.emit (.completion (.data (List.replicate 64 0)))).badWrite m (MBX_RECV.off c 15)
  else
    let s := s.chanPtrs c
    (s.emit (.completion (.data (bytesOf (s.rxWords c))))).chanPop c

/-! ### Commands -/

/-- MBX_LOCK (R420). -/
def execMbxLock (m : Master) (v : Word) (s : State) : Result :=
  done s (s.gate true m MBX_CTL.off v (fun s => s.mbxCtl m v))

/-- MBX_STAGE (R422). -/
def execMbxStage (m : Master) (chan : Fin 256) (word : Fin 15) (v : Word) (s : State) : Result :=
  done s (s.sendWrite m chan.val word.val v)

/-- POST (R422). -/
def execPost (m : Master) (chan : Fin 256) (v : Word) (s : State) : Result := done s (s.sendWrite m chan.val 15 v)

/-- POP (R423). -/
def execPop (m : Master) (chan : Fin 256) (s : State) : Result := done s (s.recvRead m chan.val)

/-- MBX_TIMEOUT: the oldest message has waited TMO ms unread (R425). -/
def execMbxTimeout (chan : Fin 256) (s : State) : Result :=
  let c := chan.val
  let tmo := s.fget (MBX_BIND_W0.TMO c)
  done s (
    match (s.mb c).queue with
    | [] => s
    | q :: t =>
      if s.chanOpen c && tmo ≠ 0 && !q.timed && q.at_ + msUnits tmo ≤ s.now then
        (s.modMb c (fun x => { x with queue := { q with timed := true } :: t })).chanFlag c MBX_STAT.TIMEOUT
      else s)

/-- DB_RING (R430). -/
def execDbRing (m : Master) (d : Fin 64) (v : Word) (s : State) : Result :=
  done s (if s.mbxShut m.toNat then s else if s.mayRing m d.val then s.dbRing d.val v else s.badWrite m (MBX_DB_RING.off d.val))

end Sys2Proof.Machine
end

