-- ==== Sys2Proof/Machine/Packets.lean ====
section
/-! DEFINITION. Packets: endpoint words (R247), the header and its check (R210), management packets (R312), and what the
module sends and reports to its managers (R429). -/

namespace Sys2Proof.Machine

/-! ### Endpoint words (R247) -/

/-- The module of an endpoint word. -/
def epMod (w : Word) : Nat := bits w.toNat 11 0
/-- The partition of an endpoint word. -/
def epPart (w : Word) : Nat := bits w.toNat 15 12
/-- The cluster field of an endpoint word. -/
def epClus (w : Word) : Nat := bits w.toNat 22 16
/-- The core field of an endpoint word. -/
def epCore (w : Word) : Nat := bits w.toNat 30 23
/-- The in port of an endpoint word. -/
def epPort (w : Word) : Bool := bit w.toNat 31
/-- An endpoint word. -/
def epWord (mod part clus core : Nat) (port : Bool) : Word :=
  BitVec.ofNat 32 (mod % 4096 + part % 16 * 2 ^ 12 + clus % 128 * 2 ^ 16 + core % 256 * 2 ^ 23 + b2n port * 2 ^ 31)
/-- The word of a logical core. -/
def State.coreEp (s : State) (k : Nat) (port : Bool) : Word :=
  epWord s.modId (corePart k) (coreClus k) (coreIdx k) port
/-- The word of a cluster's router agent. -/
def State.routerEp (s : State) (k : Nat) : Word := epWord s.modId (k / 75) (k % 75) 0xFF false
/-- The word of a module's hub agent. -/
def hubEp (mod : Nat) : Word := epWord mod 0 0x7F 0 false
/-- The word of a module's port agent. -/
def portEp (mod port : Nat) : Word := epWord mod 0 0x7C port false

end Sys2Proof.Machine

namespace Sys2Proof

open Machine

/-! ### Header (R210) -/

/-- The header's words without HCRC. -/
def Packet.head (p : Packet) : List Nat :=
  [ p.typ.toNat + p.cls.toNat * 2 ^ 4 + b2n p.last * 2 ^ 6 + b2n p.rbw * 2 ^ 7 + p.len.toNat * 2 ^ 8 +
      p.slice.toNat * 2 ^ 19 + b2n p.esc * 2 ^ 31,
    p.epochLo.toNat + p.tick.toNat * 2 ^ 8 + p.attempt.toNat * 2 ^ 16 + p.gen.toNat * 2 ^ 18,
    p.dest.toNat, p.src.toNat, p.count.toNat + p.seq.toNat * 2 ^ 16, p.msg.toNat + p.slot.toNat * 2 ^ 16,
    p.addr.toNat % 2 ^ 32, p.addr.toNat / 2 ^ 32 + p.aux.toNat * 2 ^ 8 ]

/-- The CRC-16 over header bytes 0 to 29 (R210). -/
def Packet.crc (p : Packet) : BitVec 16 := BitVec.ofNat 16 (crc16 ((p.head.flatMap (leBytes 4)).take 30))

/-- The packet with its HCRC. -/
def Packet.sealed (p : Packet) : Packet := { p with hcrc := p.crc }

/-- Whether a router accepts a packet: its TYPE, CLASS and HCRC (R211). -/
def Packet.good (p : Packet) : Bool := p.typ.toNat ≤ 0xA && p.cls ≠ 2 && p.hcrc = p.crc

/-- The units a packet occupies (R210). -/
def Packet.units (p : Packet) : Nat := 1 + ceilDiv p.len.toNat 32

/-- The channel of a packet's CLASS (R210, R211), in which it meets a decision point (R265). -/
def Packet.chan (p : Packet) : Nat := p.cls.toNat

/-- The channel in which a packet crosses a link. Its header is all that tells the receiving port agent, so one whose ESC is set
crosses on VC_ESC (R223, R268; DESIGN CHOICE, log entry 25). -/
def Packet.vc (p : Packet) : Nat := if p.cls = 3 then 3 else if p.esc then 2 else p.cls.toNat

/-- Whether the parity of the payload holds at the destination (R210). -/
def Packet.whole (p : Packet) : Bool := p.perr.isEmpty

/-- TERM of a management packet. -/
def Packet.term (p : Packet) : Nat := leAt p.payload 0 4
/-- The module in MGR of a management packet. -/
def Packet.mgr (p : Packet) : Nat := bits (leAt p.payload 4 2) 11 0
/-- MC of a management packet. -/
def Packet.mc (p : Packet) : Bool := bit (leAt p.payload 4 2) 12
/-- SRCRT of a management packet. -/
def Packet.srcrt (p : Packet) : Bool := bit (leAt p.payload 4 2) 13
/-- HOST of a management packet. -/
def Packet.host (p : Packet) : Bool := bit (leAt p.payload 4 2) 14
/-- ROUTE of a management packet. -/
def Packet.route (p : Packet) : Nat := leAt p.payload 12 4
/-- The payload after the preamble. -/
def Packet.body (p : Packet) : List Byte := p.payload.drop 32

end Sys2Proof

namespace Sys2Proof.Machine

/-- A packet of a slice's current tick. -/
def State.slicePacket (s : State) (n typ cls : Nat) (dest src : Word) (count seq msg slot aux : Nat)
    (payload : List Byte) : Packet :=
  Packet.sealed
    { typ := BitVec.ofNat 4 typ, cls := BitVec.ofNat 2 cls, last := decide (seq + 1 = count), rbw := false,
      len := BitVec.ofNat 11 payload.length, slice := BitVec.ofNat 12 (s.slId n), esc := false,
      epochLo := BitVec.ofNat 8 (s.sliceMap n).epoch, tick := BitVec.ofNat 8 (s.slStep n),
      attempt := BitVec.ofNat 2 (s.fget (TCK_SL_STAT.ATTEMPT n)), gen := BitVec.ofNat 8 (s.gen (epPart src)),
      dest := dest, src := src, count := BitVec.ofNat 16 count, seq := BitVec.ofNat 16 seq,
      msg := BitVec.ofNat 16 msg, slot := BitVec.ofNat 12 slot, addr := 0, aux := BitVec.ofNat 8 aux, hcrc := 0,
      payload := payload, perr := [] }

/-- Whether a packet belongs to the tick and attempt a slice context runs (R110, R210). -/
def State.sameTick (s : State) (n : Nat) (p : Packet) : Bool :=
  p.tick.toNat = s.slStep n % 256 && p.attempt.toNat = s.fget (TCK_SL_STAT.ATTEMPT n)

/-! ### Management packets (R312, Table 3) -/

/-- The management preamble. -/
def preamble (term mgr : Nat) (mc srcrt host : Bool) (seq : Nat) (route : Nat) (pos grp : Nat) : List Byte :=
  leBytes 4 term ++ leBytes 2 (mgr % 4096 + b2n mc * 2 ^ 12 + b2n srcrt * 2 ^ 13 + b2n host * 2 ^ 14) ++
    leBytes 2 0 ++ leBytes 4 seq ++ leBytes 4 route ++ leBytes 8 pos ++ leBytes 8 grp

/-- A management packet from this module's hub with a preamble. -/
def State.mgtPacket (s : State) (dest : Word) (code msg : Nat) (pre body : List Byte) : Packet :=
  let pl := pre ++ body
  Packet.sealed
    { typ := 0, cls := 3, last := true, rbw := false, len := BitVec.ofNat 11 pl.length, slice := 0, esc := false,
      epochLo := 0, tick := 0, attempt := 0, gen := 0, dest := dest, src := hubEp s.modId, count := 1, seq := 0,
      msg := BitVec.ofNat 16 msg, slot := 0, addr := 0, aux := BitVec.ofNat 8 code, hcrc := 0, payload := pl,
      perr := [] }

/-- The term a management packet of this module carries: its own as manager, 0 from a member (R312). -/
def State.myTerm (s : State) : Nat :=
  if s.fget FAB_MGR_STAT.ROLE = 1 || s.acting then s.fget FAB_TERM.TERM else 0

/-- Whether a module belongs to another group. -/
def State.far (s : State) (mod : Nat) : Bool := s.flag FAB_SELF.VALID && mod / 64 ≠ s.modId / 64

/-- The term of a management packet to a module: towards another group a manager's is the coordinator term (R335). -/
def State.termTo (s : State) (mod : Nat) : Nat :=
  if s.far mod && s.acting then s.fget FAB_COORD_TERM.TERM else s.myTerm

/-- The packets in an input buffer of a router. -/
def RtrSt.queue (r : RtrSt) (inp vc : Nat) : List Queued := Store.get (fun _ => []) r.bufs (4 * inp + vc)

/-- Units of packets held in an input buffer. -/
def RtrSt.depth (r : RtrSt) (inp vc : Nat) : Nat := (r.queue inp vc).foldl (fun a e => a + e.pkt.units) 0

/-- A counter of a router's port changed. -/
def RtrSt.count (port : Nat) (f : RtrCnt → RtrCnt) (r : RtrSt) : RtrSt :=
  { r with cnt := Store.upd (fun _ => RtrCnt.init) r.cnt port f }

/-- A router reset with its position: buffers empty, counters kept. -/
def RtrSt.reset (r : RtrSt) : RtrSt := { RtrSt.init with cnt := r.cnt, bad := r.bad }

/-- A packet put behind the others of an input buffer; QMAX follows (R216). -/
def RtrSt.push (inp vc : Nat) (q : Queued) (r : RtrSt) : RtrSt :=
  let r := { r with bufs := Store.upd (fun _ => []) r.bufs (4 * inp + vc) (fun l => l ++ [q]) }
  let n := r.depth inp vc
  r.count inp (fun c => { c with qmax := c.qmax.set vc (max n (c.qmax.getD vc 0)) })

/-- Units of an input buffer of a router (R212, Table 6). -/
def inRoom (vc : Nat) : Nat := if vc < 2 then 132 else 66

/-- The packets offered to an input buffer. -/
def RtrSt.offers (r : RtrSt) (inp vc : Nat) : List Packet := Store.get (fun _ => []) r.offer (4 * inp + vc)

/-- The packets offered to an input taken in, in order, while the buffer has room for the whole of the next one (R212). -/
def RtrSt.letIn (now inp vc : Nat) (r : RtrSt) : RtrSt :=
  let x := (r.offers inp vc).foldl (fun (x : RtrSt × List Packet) p =>
    if x.2.isEmpty && decide (x.1.depth inp vc + p.units ≤ inRoom vc) then (x.1.push inp vc ⟨p, now, none, none, none⟩, [])
    else (x.1, x.2 ++ [p])) (r, [])
  { x.1 with offer := Store.put (fun _ => []) r.offer (4 * inp + vc) x.2 }

/-- A packet offered to a router's input in a channel by what stands before it: a cluster, a controller, the hub or a port. -/
def State.queueAt (s : State) (r inp vc : Nat) (p : Packet) : State :=
  s.modRt r (fun t => { t with offer := Store.upd (fun _ => []) t.offer (4 * inp + vc) (fun l => l ++ [p]) }.letIn s.now inp vc)

/-- The router whose HUB port the hub uses: the first of its four that is not in bypass (R201, Table 2). -/
def State.hubRtr (s : State) : Nat :=
  let l := [(5, 79, 15 * 40 + 19), (6, 70, 15 * 40 + 20), (9, 9, 16 * 40 + 19), (10, 0, 16 * 40 + 20)]
  match l.find? (fun e => !s.inBypass e.1 e.2.1) with
  | some e => e.2.2
  | none => 15 * 40 + 19

/-- A packet of the hub handed to the fabric at its HUB port (R201). -/
def State.hubSend (s : State) (p : Packet) : State := s.queueAt s.hubRtr 6 p.vc p

/-- A management packet sent to a module's hub, with the next message number. -/
def State.mgtSend (s : State) (mod code : Nat) (body : List Byte) : State :=
  let n := s.mgr.msgNum
  let pre := preamble (s.termTo mod) (s.fget FAB_MGR_ID.ACTING) false false false n 0 0 0
  { s with mgr := { s.mgr with msgNum := (n + 1) % 2 ^ 16 } }.hubSend (s.mgtPacket (hubEp mod) code n pre body)

/-- A management packet multicast to the positions of a bitmap in this group (R313). -/
def State.mgtCast (s : State) (pos code : Nat) (body : List Byte) : State :=
  let n := s.mgr.msgNum
  let pre := preamble s.myTerm (s.fget FAB_MGR_ID.ACTING) true false false n 0 pos (2 ^ (s.modId / 64))
  { s with mgr := { s.mgr with msgNum := (n + 1) % 2 ^ 16 } }.hubSend
    (s.mgtPacket (hubEp s.modId) code n pre body)

/-- A packet handed to a port for a channel: 0 VC_REQ, 1 VC_RSP, 2 VC_ESC, 3 VC_MGT, 4 RBW, 5 link credit. -/
def State.portQueue (s : State) (port ch : Nat) (p : Packet) : State :=
  s.modPo port (fun x => { x with txq := Store.upd (fun _ => []) x.txq ch (fun l => l ++ [p]) })

/-- The answer to a management packet: its code plus 0x80, its message number, this module's recorded term, to another group that of the
coordinator (R312, R335). A source-routed command is answered through the port that brought it (R314). -/
def State.mgtReply (s : State) (p : Packet) (via : Option (Fin 16)) (body : List Byte) : State :=
  let pre := preamble (s.fget (if s.far (epMod p.src) then FAB_COORD_TERM.TERM else FAB_TERM.TERM)) (s.fget FAB_MGR_ID.ACTING) false p.srcrt false (leAt p.payload 8 4) 0 0 0
  let r := s.mgtPacket p.src (p.aux.toNat + 0x80) p.msg.toNat pre body
  match via with
  | some c => if p.srcrt then s.portQueue c.val 3 r else s.hubSend r
  | none => s.hubSend r

/-- A management or TEL packet that is not accepted: dropped, counted and recorded as a NOTE (R314). -/
def State.mgtReject (s : State) (p : Packet) : State :=
  (s.fcount FAB_MGT_REJ.REJ 1).raise 0x0305 0 p.dest.toNat 0

/-- A management packet with a lower term: discarded, counted, answered with the recorded term (R308). -/
def State.mgtStale (s : State) (p : Packet) (via : Option (Fin 16)) : State := (s.fcount FAB_MGT_REJ.REJ 1).mgtReply p via []

/-! ### Slice-event records (R331 Table 9, R429) -/

/-- The words of a slice-event record. -/
def eventWords (code slice step who cause term : Nat) : List Word :=
  ([code % 256 + slice % 4096 * 2 ^ 8, step % 2 ^ 32, step / 2 ^ 32, who, cause, term] ++ List.replicate 10 0).map
    (BitVec.ofNat 32)

/-- WHO of a record: a module and a partition mask. -/
def whoWord (mod mask : Nat) : Nat := mod % 4096 + mask % 2 ^ 16 * 2 ^ 12

/-- A record at the ACTING module: one message per distinct code, slice and step on the slice's event channel (R429). -/
def State.postEvent (s : State) (ws : List Word) : State :=
  let w := (ws.getD 0 0).toNat
  let key := (w % 256, bits w 19 8, (ws.getD 1 0).toNat + (ws.getD 2 0).toNat * 2 ^ 32)
  if s.mgr.events.contains key then s
  else
    let s := { s with mgr := { s.mgr with events := s.mgr.events ++ [key] } }
    match s.mgr.resv.find? (fun r => r.slice = key.2.1) with
    | some r => if s.chanOpen r.chan then s.chanPost r.chan ws else s
    | none => s

/-- Whether the rigging of a context spans more than one group. -/
def State.spansGroups (s : State) (n : Nat) : Bool :=
  (s.sliceMap n).members.any (fun m => m.1 / 64 ≠ s.modId / 64)

/-- The management module of a context's slice: the acting manager of the group, or the coordinator of a slice that spans groups
(R324). -/
def State.rulerOf (s : State) (n : Nat) : Nat :=
  if s.spansGroups n && s.flag FAB_MGR_ID.COORD_VALID then s.fget FAB_MGR_ID.COORD else s.fget FAB_MGR_ID.ACTING

/-- A slice event noted by this module's hub: posted where it manages the slice as ACTING, sent to the managing module elsewhere. -/
def State.sliceEvent (s : State) (code slice who cause : Nat) : State :=
  let ws := eventWords code slice s.step who cause (s.fget FAB_TERM.TERM)
  let to_ := match s.ctxOf slice with
    | some n => s.rulerOf n
    | none => s.fget FAB_MGR_ID.ACTING
  if s.acting && (s.mgr.resv.any (fun r => r.slice = slice) || !s.far to_) then s.postEvent ws
  else if s.flag FAB_MGR_ID.VALID then s.mgtSend to_ 0x20 (bytesOf ws)
  else s

end Sys2Proof.Machine
end

