-- ==== Sys2Proof/Machine/Asks.lean ====
section
/-! DEFINITION. What this module's hub knows of its group, and the management traffic that it starts: the active route tables (R257,
R258), source routes (R312, R313), commands whose answers it awaits, journal records (R310), and the step of a handback (R311). -/

namespace Sys2Proof

open Machine

/-- A source-routed packet with its first hop taken: one hop fewer, the ports shifted. -/
def Packet.hopped (p : Packet) : Packet :=
  { p with payload := p.payload.take 12 ++ leBytes 4 (bits p.route 3 0 - 1 + bits p.route 27 8 * 16) ++ p.payload.drop 16 }

end Sys2Proof

namespace Sys2Proof.Machine

/-! ### Table entries (R257, R258) -/

/-- The active position table entry of a position. -/
def State.posEnt (s : State) (q : Nat) : Nat := (s.reg (FAB_POS_ACT.off q)).toNat
/-- VALID of a position entry. -/
def posValid (e : Nat) : Bool := bit e 24
/-- ESC_PORT of a position entry. -/
def posEsc (e : Nat) : Nat := bits e 19 16

/-- A gateway slot. -/
structure Gateway where
  pos : Nat
  port : Nat
  ghops : Nat
  esc : Bool
  deriving DecidableEq, Repr

/-- The VALID gateway slots of a group's active entry, in order. -/
def State.gateways (s : State) (h : Nat) : List Gateway :=
  (List.range 8).filterMap (fun i =>
    let w := (s.reg (FAB_GRP_ACT.off h (i / 2))).toNat
    let e := if i % 2 = 0 then bits w 15 0 else bits w 31 16
    if bit e 10 then some ⟨bits e 5 0, bits e 9 6, bits e 14 11, bit e 15⟩ else none)

/-- The escape output towards a module: ESC_PORT, or that of its escape gateway; 16 for this module. -/
def State.escapeOut (s : State) (m : Nat) : Option Nat :=
  let own := s.modId
  if m = own then some 16
  else
    let toPos (q : Nat) : Option Nat :=
      let e := s.posEnt q
      if posValid e && posEsc e < 15 then some (posEsc e) else none
    if modGroup m = modGroup own then toPos (modPos m)
    else match (s.gateways (modGroup m)).find? (fun g => g.esc) with
      | some g => if g.pos = modPos own then some g.port else toPos g.pos
      | none => none

/-! ### Links and positions -/

/-- Whether a link is trained: MGMT or ACTIVE. -/
def State.trained (s : State) (p : Nat) : Bool := s.fget (LNK_STAT.STATE p) = 5 || s.fget (LNK_STAT.STATE p) = 6

/-- The state of a position in FAB_DISC. -/
def State.disc (s : State) (pos : Nat) : Nat :=
  bits (s.reg (FAB_DISC.off (pos / 16))).toNat (2 * (pos % 16) + 1) (2 * (pos % 16))

/-- The manager state changed. -/
def State.modMgr (s : State) (f : MgrSt → MgrSt) : State := { s with mgr := f s.mgr }
/-- What is known of a position. -/
def State.pq (s : State) (q : Nat) : PosSt := Store.get (fun _ => PosSt.init) s.mgr.pos q
/-- What is known of a position, changed. -/
def State.modPq (s : State) (q : Nat) (f : PosSt → PosSt) : State :=
  s.modMgr (fun x => { x with pos := Store.upd (fun _ => PosSt.init) x.pos q f })
/-- The module at a position of this group. -/
def State.modAt (s : State) (q : Nat) : Nat := 64 * modGroup s.modId + q
/-- The modules of this group in the manifest (R315). -/
def State.groupMods (s : State) : List Nat := manMembers s.mgr.manifest (modGroup s.modId)
/-- MGR_PRI and MGR_SBY of this group (R305). -/
def State.managers (s : State) : List Nat := managersOf s.mgr.manifest (modGroup s.modId)
/-- The other manager module. -/
def State.otherMgr (s : State) : Option Nat := s.managers.find? (fun m => m ≠ s.modId)
/-- Whether this module holds the manager functions: START or ACTING (R305). -/
def State.manages (s : State) : Bool := s.fget FAB_MGR_STAT.ROLE = 1 || s.acting
/-- The modules of the group that discovery has found and that are not lost, this one left out. -/
def State.peers (s : State) : List Nat :=
  s.groupMods.filter (fun m => m ≠ s.modId && s.disc (modPos m) = 1 && !s.mgr.lostMods.contains m)

/-- The position a port of a position joins, where both ends are known to be ACTIVE or about to be (R321). -/
def State.linkPeer (s : State) (u c : Nat) : Option Nat :=
  let n := dims s.groupSize
  let pos (q : Nat) : PosSt := Store.get (fun _ => PosSt.init) s.mgr.pos q
  match portPeer n u c with
  | some v => if (pos u).links.contains c && (pos v).links.contains c then some v else none
  | none => none

/-! ### Sending (R312, R313) -/

/-- A source-routed packet sent over its next port. Commands to a module that may have no ID yet come from this port's agent. -/
def State.routeOut (s : State) (p : Packet) : State :=
  let c := bits p.route 7 4
  let q := p.hopped
  let early := [0x08, 0x09, 0x0C, 0x38].contains p.aux.toNat
  if s.trained c then s.portQueue c 3 (Packet.sealed (if early then { q with src := portEp s.modId c } else q)) else s

/-- A source route with one more hop. -/
def extRoute (r c : Nat) : Nat := let h := bits r 3 0; h + 1 + bits r 27 4 * 16 + c * 2 ^ (4 + 4 * h)

/-- The hops that a source route may take from a module, as (port, module): cables of this group that are ACTIVE, cables of the manifest
in other groups, and the circuits of the map. -/
def State.hopsFrom (s : State) (m : Nat) : List (Nat × Nat) :=
  let b := s.mgr.manifest
  let g := modGroup m
  (List.range 7).filterMap (fun c =>
    match portPeer (dims (manSize b g)) (modPos m) c, manMod? b m with
    | some v, some r =>
      if (manPort r c).present && (g ≠ modGroup s.modId || (s.linkPeer (modPos m) c).isSome) then some (c, 64 * g + v) else none
    | _, _ => none) ++
  s.mgr.xmap.filterMap (fun e =>
    if e.1 = m then some (e.2.1, e.2.2.1) else if e.2.2.1 = m then some (e.2.2.2, e.1) else none)

/-- Source routes of at most `n` further hops, nearest modules first; none leaves this module by port `skip`. -/
def State.routesTo (s : State) (skip : Nat) : Nat → List (Nat × Nat) → List (Nat × Nat)
  | 0, l => l
  | n + 1, l =>
    State.routesTo s skip n (l.foldl (fun a e => (s.hopsFrom e.1).foldl (fun b h =>
      if b.any (fun x => x.1 = h.2) || (e.1 = s.modId && h.1 = skip) then b else b ++ [(h.2, extRoute e.2 h.1)]) a) l)

/-- The source route of at most six hops to a module that does not begin with port `skip`; 0 for none (R312). -/
def State.routeBy (s : State) (skip mod : Nat) : Nat :=
  (((s.routesTo skip 6 [(s.modId, 0)]).find? (fun e => e.1 = mod)).map Prod.snd).getD 0

/-- The source route to a module that the active tables do not reach; 0 for none. -/
def State.srcRoute (s : State) (mod : Nat) : Nat :=
  if (s.escapeOut mod).isSome then 0
  else if modGroup mod = modGroup s.modId then (s.pq (modPos mod)).route.toNat
  else s.routeBy 16 mod

/-- A command sent to a module's hub, its answer awaited for a job; `route` is its source route, or 0. -/
def State.mgtAskBy (s : State) (route mod code job : Nat) (host : Bool) (body : List Byte) : State :=
  let n := s.mgr.msgNum
  let pre := preamble (s.termTo mod) (s.fget FAB_MGR_ID.ACTING) false (route ≠ 0) host n route 0 0
  let p := s.mgtPacket (hubEp mod) code n pre body
  let a : Await := ⟨code, n, mod, job, if route = 0 then 16 else bits route 7 4⟩
  let s := s.modMgr (fun x => { x with msgNum := (n + 1) % 2 ^ 16, awaits := x.awaits ++ [a] })
  if route ≠ 0 then s.routeOut p else s.hubSend p

/-- A command sent to a module's hub by the tables, or by source route where they do not reach it. -/
def State.mgtAsk (s : State) (mod code job : Nat) (host : Bool) (body : List Byte) : State :=
  s.mgtAskBy (s.srcRoute mod) mod code job host body

/-! ### The journal (R310) -/

/-- A record sent to the other manager module; a job waits for its answer once that module is in STANDBY. -/
def State.journal (s : State) (kind job : Nat) (data : List Byte) : State :=
  match s.otherMgr with
  | none => s
  | some m =>
    if s.mgr.sby = 0 then s
    else
      let n := s.mgr.jseq
      (s.modMgr (fun x => { x with jseq := n + 1 })).mgtAsk m 2 (if s.mgr.sby = 2 then job else 0) false
        (leBytes 4 n ++ leBytes 4 kind ++ data)

/-- A handback step named HB_LEAD boundaries ahead, and journaled (R311); `host` where the HANDOVER command asks for it. -/
def State.nameStep (s : State) (host : Bool) (job : Nat) : State :=
  let t := s.step + s.fget FAB_MGR_CTL.HB_LEAD
  (s.modMgr (fun x => { x with hbStep := some t, hbAgain := false, hbHost := host })).journal 11 job (leBytes 8 t)

/-- A named handback cancelled at once where a link is lost or a repair begins; it is named again once RECOVERY ends (R336). A step that
the HANDOVER command named stands in any mode (R311). -/
def State.cancelStep (s : State) : State :=
  if s.acting && s.mgr.hbStep.isSome && !s.mgr.hbHost then
    (s.modMgr (fun x => { x with hbStep := none, hbAgain := true })).journal 11 0 (leBytes 8 0)
  else s

end Sys2Proof.Machine
end

