-- ==== Sys2Proof/Machine/Slice.lean ====
section
/-! DEFINITION. The slice tick: clock and intervals (R38, R39), aborts (R53, R54), repairs (R56), HOLD (R57, R58), and
what every unit of a slice does at a boundary that commits or discards a tick (R48, R49, R52). -/

namespace Sys2Proof.Machine

/-! ### Clock and intervals -/

/-- The core and fabric clock in units of 0.25 MHz: the clock in force, at 3/4 while a cause steps it down (R61, R387). -/
def State.clock4 (s : State) : Nat :=
  if s.tick.steps = 0 then 4 * s.tick.clk else 3 * s.tick.clk

/-- Timebase units that a number of core cycles takes, rounded up. -/
def State.cycUnits (s : State) (n : Nat) : Nat := ceilDiv (n * 2000) s.clock4

/-- Core cycles in a number of nanoseconds, rounded up (R131). -/
def State.cyclesIn (s : State) (ns : Nat) : Nat := ceilDiv (ns * s.clock4) 4000

/-- The abort allowance A of a context in timebase units (Table 2 of R39). -/
def State.allowance (s : State) (n : Nat) : Nat :=
  match s.fget (TCK_SL_CTL.SPAN n) with
  | 0 => 100
  | 1 => 200
  | _ => 800

/-- K of a context, in timebase units after the boundary (R38). -/
def State.closePoint (s : State) (n : Nat) : Nat := s.tick.len - s.allowance n

/-- W of a context, in timebase units after the boundary (R38). -/
def State.weirStart (s : State) (n : Nat) : Nat := s.tick.len - (s.sched n).weir

/-- When a core that has taken `cyc` cycles reaches END, in timebase units after the boundary (R60, R503). -/
def State.endAt (s : State) (cyc : Nat) : Nat := 16 + s.cycUnits cyc

/-! ### Contexts -/

/-- Whether a context is in RUN or REPLAY. -/
def State.ticking (s : State) (n : Nat) : Bool := s.slState n = 2 || s.slState n = 3

/-- Whether the commit edge is over: 16 timebase units have passed since the boundary (R38). -/
def State.edgeOver (s : State) : Bool := s.tick.bound + 16 ≤ s.now

/-- Whether work of the tick goes on: RUN or REPLAY, past the commit edge (R38), no abort has arrived (R54), and not the commit
tick (R192). -/
def State.working (s : State) (n : Nat) : Bool :=
  s.ticking n && s.edgeOver && !(s.cx n).aborted && !(s.cx n).commitTick

/-- The contexts that hold some partition of a mask on this module. -/
def State.ctxHolding (s : State) (p : Nat) : Option Nat := ((s.pt p).owner).map Fin.val

/-- WHO of this module in a context's records: its ID and its member partitions. -/
def State.ctxWho (s : State) (n : Nat) : Nat := whoWord s.modId ((s.sliceMap n).mask s.modId)

/-- A hold cause that takes effect at the next boundary; the first one stands. -/
def State.holdAt (s : State) (n cause : Nat) : State :=
  s.modCx n (fun c => { c with holdNext := match c.holdNext with | none => some cause | some x => some x })

/-! ### Aborts (R53, R54) -/

/-- The ABORT control message (R225). -/
def abortMsg (slice step attempt cause : Nat) : BitVec 48 :=
  BitVec.ofNat 48 (3 + slice % 4096 * 2 ^ 4 + step % 256 * 2 ^ 16 + attempt % 4 * 2 ^ 24 + cause % 256 * 2 ^ 26)

/-- A control message queued on every ACTIVE port. -/
def State.ctlAll (s : State) (m : BitVec 48) : State :=
  s.each 16 (fun p s => if s.fget (LNK_STAT.STATE p) = 6 then s.modPo p (fun x => { x with ctl := x.ctl ++ [m] }) else s)

/-- A repair that the slice waits for (R56); a handback step that is named is cancelled (R336). -/
def State.addRepair (s : State) (n : Nat) (r : Repair) : State :=
  s.cancelStep.modCx n (fun c => { c with repairs := if c.repairs.contains r then c.repairs else c.repairs ++ [r] })

/-- The repair a slice waits for while a unit is replaced (R56). -/
def Retiree.repair (p : Fin 16) : Retiree → Repair
  | .core c i => .spareCore p c i
  | .cluster c => .spareCluster p c
  | .engine e => .spareEngine p e

/-- The retirements of a context's partitions that wait for an abort (R365). -/
def State.waitRepairs (s : State) (n : Nat) : State :=
  State.eachOf (s.ctxParts n) (fun p s =>
    State.eachOf (s.pt p).waiting (fun u s => s.addRepair n (Retiree.repair (Fin.ofNat 16 p) u)) s) s

/-- Whether an abort's cause leads the whole slice to HOLD with cause "no replay": a parity hit of an ACC bank, and an overrun
where OVR_HOLD is set (R51, R57, R59). -/
def State.abortHolds (s : State) (n cause : Nat) : Bool := cause = 7 || (cause = 1 && s.flag (TCK_SL_CTL.OVR_HOLD n))

/-- The tick of a context aborted with a cause: cores, strands and engines stop, and the first abort, and the first whose cause
holds the slice, goes out on the links of a slice that has another module (R53, R54, R69). -/
def State.abortTick (s : State) (n cause : Nat) : State :=
  if !s.ticking n then s
  else
    let first := !(s.cx n).aborted
    let s := (s.fset (TCK_SL_STAT.LAST_ABORT n) cause).modCx n (fun c => { c with aborted := true })
    let s := if first then s.waitRepairs n else s
    if (first || (s.abortHolds n cause && (s.cx n).holdNext.isNone)) && 1 < (s.sliceMap n).members.length then
      s.ctlAll (abortMsg (s.slId n) (s.slStep n) (s.fget (TCK_SL_STAT.ATTEMPT n)) cause)
    else s

/-- An abort after which the slice holds with cause "no replay". -/
def State.abortHold (s : State) (n cause : Nat) : State := (s.abortTick n cause).holdAt n 7

/-- A tree's records at this module's agents of a context switched at the boundary to the configuration that `f` gives (R301). -/
def State.treeSwitch (s : State) (n rid : Nat) (f : Bool → Bool) : State :=
  State.eachOf (s.ctxParts n) (fun p s => s.each 75 (fun c s =>
    let rs := s.trees n p c
    s.each rs.length (fun i s =>
      if (rs.getD i (treeOf [])).rid = rid then
        s.modTree (75 * p + c) i (fun t => { t with altNext := some (f (t.altNext.getD t.alt)) })
      else s))) s

/-- A repair complete; that of a tree is its switch to the other configuration (R301). -/
def State.endRepair (s : State) (n : Nat) (r : Repair) : State :=
  let s := match r with
    | .tree rid => if (s.cx n).repairs.contains r then s.treeSwitch n rid.toNat (fun b => !b) else s
    | _ => s
  s.modCx n (fun c => { c with repairs := c.repairs.filter (fun x => x ≠ r) })

/-- A repair complete in every context that waits for it. -/
def State.repaired (s : State) (r : Repair) : State := s.each 16 (fun n s => s.endRepair n r)

/-! ### Units at a boundary -/

/-- The logical cores of a context on this module that have a CORE_CFG record. -/
def State.coresOf (s : State) (n : Nat) : List Nat :=
  (s.ctxParts n).flatMap (fun p => (List.range 75).flatMap (fun c =>
    let x := s.sect n 0x0010 (routerAgent s.modId p c)
    (coreRecs x.count x.bytes).map (fun r => (p * 75 + c) * 250 + r.1)))

/-- Those, and every other core of the context's partitions in a state of its own. -/
def State.coresAt (s : State) (n : Nat) : List Nat :=
  let l := s.coresOf n
  let ps := s.ctxParts n
  l ++ (s.core.map Prod.fst).filter (fun k => ps.contains (corePart k) && !l.contains k)

/-- A core as every boundary leaves it: accumulators cleared, queues discarded, the generator at its seed
(R52, R133, R209). -/
def CoreSt.boundary (c : CoreSt) : CoreSt :=
  { c with accs := [], maxs := [], rng := none, entry := 0, atEnd := false, stopped := false, waiting := false,
           work := none, prog := 0, stalled := false, cyc := 0, out0 := [], out1 := [], sends := [] }

/-- The pairs whose consuming or committed half is the odd bank, after a swap (R48, R105). -/
def swapPairs (cfg : CoreCfg) (odd : List Nat) : List Nat :=
  (List.range 12).filter (fun k => rolePair (cfg.role (2 * k)) != odd.contains k)

/-- A core at a commit: pairs swap, counts move with their halves, the watermark clears (R48, R49, R109). -/
def CoreSt.commit (cfg : CoreCfg) (c : CoreSt) : CoreSt :=
  { c.boundary with odd := swapPairs cfg c.odd, accWr := 0, supp := 0, in0 := ⟨0, c.in0.fill, []⟩,
                    in1 := ⟨0, c.in1.fill, []⟩, drops := 0 }

/-- A core at a boundary that discards the tick: filling halves discarded, the watermark kept (R48, R49). -/
def CoreSt.redo (c : CoreSt) : CoreSt :=
  { c.boundary with accWr := 0, supp := c.accWr + c.supp, in0 := ⟨0, c.in0.cons, []⟩, in1 := ⟨0, c.in1.cons, []⟩ }

/-- An engine as every boundary leaves it. -/
def EngSt.boundary (e : EngSt) : EngSt :=
  { e with tick := 0, stop := false, ran := false, cur := none, held := [], pubTick := 0, pend := [], rng := none,
           par := none }

/-- Elements of a job's run. -/
def Job.size : Job → Nat
  | .update _ _ _ _ n _ _ _ _ _ _ _ _ _ => n
  | .publish _ t _ => t

/-- An engine at a commit: the tick's elements and tiles count, a finished run ends (R48, R156, R158). -/
def EngSt.commit (jobs : List Job) (t : Nat) (e : EngSt) : EngSt :=
  let size (j : Nat) := ((jobs[j]?).map Job.size).getD 0
  let d := e.done + e.tick
  let p := e.pubNext + e.pubTick
  let run := match e.run with | some (j, b) => if size j ≤ d then none else some (j, b) | none => none
  let ended := run.isNone && e.run.isSome
  let done := if ended then 0 else d
  let e : EngSt := match e.run with
    | some (j, _) =>
      if ended then { e with jobDone := e.jobDone.filter (fun x => x.1 ≠ j) ++ [(j, t)], raced := [] } else e
    | none => e
  match e.pubJob with
  | some j =>
    if size j ≤ p then
      { e.boundary with run := run, done := done, supp := 0, pubJob := none, pubNext := 0,
                        pubDone := e.pubDone.filter (fun x => x.1 ≠ j) ++ [(j, t)] }
    else { e.boundary with run := run, done := done, supp := 0, pubNext := p }
  | none => { e.boundary with run := run, done := done, supp := 0 }

/-- An engine at a boundary that discards the tick (R48, R49). -/
def EngSt.redo (e : EngSt) : EngSt := { e.boundary with supp := e.tick + e.supp }

/-- A tile header's word 0 with CUR toggled if `flip`, and PEND cleared (R159). -/
def State.resolveTile (s : State) (a : Nat) (flip : Bool) : State :=
  let w := leNat (s.memRead a 4)
  let cur := bit w 20 != flip
  s.memWrite a (leBytes 4 (setBits w 21 20 (b2n cur)))

/-- The pending tiles of an engine resolved (R159). -/
def State.resolvePend (s : State) (k : Nat) (flip : Bool) : State :=
  State.eachOf (s.en k).pend (fun a s => s.resolveTile a flip) s

/-- A tree record at every boundary: partial values and bitmaps cleared, an armed switch applied (R292, R301). -/
def TreeSt.boundary (t : TreeSt) : TreeSt :=
  { t with vals := [], first := [], units := [], got := [], sent := [], pruned := 0, alt := t.altNext.getD t.alt,
           altNext := none }

/-- Elements of a chunk (R282). -/
def chunkElems (cfmt : Nat) : Nat := if cfmt = 10 then 240 else 480

/-- The chunks of a tree (R282). -/
def TreeRec.chunks (r : TreeRec) : Nat := ceilDiv r.n (chunkElems r.cfmt)

/-- The elements of chunk s: the first one, and how many. -/
def TreeRec.span (r : TreeRec) (c : Nat) : Nat × Nat :=
  let e := chunkElems r.cfmt
  (c * e, min e (r.n - c * e))

/-- The bytes of a chunk in CFMT. -/
def TreeSt.chunkBytes (r : TreeRec) (t : TreeSt) (c : Nat) : List Byte :=
  let (e, m) := r.span c
  (List.range m).flatMap (fun i => leBytes (elemBytes r.cfmt) (Store.get (fun _ => (0 : Word)) t.vals (e + i)).toNat)

/-- Whether a record is the root in the configuration in force. -/
def TreeRec.rooted (r : TreeRec) (alt : Bool) : Bool := if alt then r.altRoot else r.root

/-- The MLA of a chunk of a MEM result in the tick of a slice step (R287). -/
def TreeRec.resultAt (r : TreeRec) (part step c : Nat) : Nat :=
  mlaOf part r.resCh (64 * (r.resCda + (step % max 1 r.wrap) * r.step64 r.cfmt + 15 * c))

/-- The chunks of a MEM result that the tick has placed in the channel's write queue: they become visible at its commit (R287). -/
def State.treeResult (s : State) (n k i : Nat) (r : TreeRec) : State :=
  let t := s.tree k i
  if r.rooted t.alt && r.rkind = 1 then
    State.eachOf t.sent (fun c s => s.memWrite (r.resultAt (k / 75) (s.slStep n) c) (t.chunkBytes r c)) s
  else s

/-- A tree record at a commit: DONE and PRUNED of the tick (R299, R304). -/
def TreeSt.commit (r : TreeRec) (t : TreeSt) : TreeSt :=
  let w := setBits (setBits t.stat.toNat 2 2 (b2n (decide (r.chunks ≤ t.sent.length)))) 12 5 (sat 8 t.pruned)
  { t.boundary with stat := BitVec.ofNat 32 w }

/-- The trees of a context's clusters at a boundary. -/
def State.treesEnd (s : State) (n : Nat) (commit : Bool) : State :=
  State.eachOf (s.ctxParts n) (fun p s => s.each 75 (fun c s =>
    let rs := s.trees n p c
    s.each rs.length (fun i s =>
      let r := rs.getD i (treeOf [])
      if commit then (s.treeResult n (75 * p + c) i r).modTree (75 * p + c) i (TreeSt.commit r)
      else s.modTree (75 * p + c) i TreeSt.boundary))) s

/-- The generator's seed of a core for the tick under way (R52, R99). -/
def State.coreSeed (s : State) (n k : Nat) : Rng :=
  let d := corePart k
  let q := s.physClus d (coreClus k)
  rngSeed (s.sliceMap n).seed
    (s.modId * 2 ^ 20 + d * 2 ^ 16 + q * 2 ^ 8 + s.physCore d (coreClus k) (coreIdx k)) (s.slStep n)

/-- The generator's seed of an engine for the tick under way (R52, R154). -/
def State.engSeed (s : State) (n k : Nat) : Rng :=
  rngSeed (s.sliceMap n).seed (s.modId * 2 ^ 20 + k / 8 * 2 ^ 16 + (0xF0 + s.physEng (k / 8) (k % 8)) * 2 ^ 8)
    (s.slStep n)

/-- The engines of a context on this module. -/
def State.engsOf (s : State) (n : Nat) : List Nat :=
  (s.ctxParts n).flatMap (fun p => (List.range 8).map (fun e => 8 * p + e))

/-- Every unit of a context at a commit; the step number advances (R36, R48, R52). -/
def State.commitUnits (s : State) (n : Nat) : State :=
  let t := s.slStep n
  let s := State.eachOf (s.coresAt n) (fun k s => s.modCo k (CoreSt.commit (s.coreCfg n k))) s
  let s := State.eachOf (s.engsOf n) (fun k s =>
    (s.resolvePend k true).modEn k (EngSt.commit (s.jobs n (k / 8) (k % 8)) t)) s
  let s := s.treesEnd n true
  (s.setPair (TCK_SL_STEP_LO.off n) (t + 1)).modCx n (fun c => { c with aborted := false, started := false, open_ := false })

/-- Every unit of a context at a boundary that does not commit its tick (R48, R55). -/
def State.redoUnits (s : State) (n : Nat) : State :=
  let s := State.eachOf (s.coresAt n) (fun k s => s.modCo k CoreSt.redo) s
  let s := State.eachOf (s.engsOf n) (fun k s => (s.resolvePend k false).modEn k EngSt.redo) s
  (s.treesEnd n false).modCx n (fun c => { c with aborted := false, started := false })

/-! ### State changes (R57, R58) -/

/-- The tick state of a context; EN is 1 in RUN, REPLAY and REPAIR (R71). -/
def State.setSlState (s : State) (n st : Nat) : State :=
  (s.fset (TCK_SL_STAT.STATE n) st).fset (TCK_SL_CTL.EN n) (b2n (2 ≤ st && st ≤ 4))

/-- HOLD entered with a cause; `open_` says that the tick stays uncommitted (R57, R58). -/
def State.enterHold (s : State) (n cause : Nat) (open_ : Bool) : State :=
  let s := s.settleHold n
  let s := (s.setSlState n 5).fset (TCK_SL_STAT.HOLD_CAUSE n) cause
  let s := s.modCx n (fun c => { c with aborted := false, started := false, holdNext := none, open_ := open_ })
  s.sliceEvent 3 (s.slId n) (s.ctxWho n) cause

/-- A slice that leaves RUN, REPLAY or REPAIR at this boundary by a command or a period change (R37, R57). -/
def State.holdNow (s : State) (n cause : Nat) : State :=
  if 2 ≤ s.slState n && s.slState n ≤ 4 then s.enterHold n cause (s.slState n ≠ 2 || (s.cx n).open_) else s

end Sys2Proof.Machine
end

