-- ==== Sys2Proof/Machine/Flags.lean ====
section
/-! DEFINITION. The flags: number flags and the core flags DROP and LATE in PRT_CORE_STAT, those of engines and tree
records, and number traps (R100, R135, R156, R285, R507). -/

namespace Sys2Proof.Machine

/-- Bits [12:8] of PRT_CORE_STAT that number flags set (R136). -/
def NFlags.coreBits (f : NFlags) : Nat := b2n f.sat + 2 * b2n f.accLoss + 4 * b2n f.poison

/-- PRT_CORE_STAT with flags set; FIRST takes the entry where the flags were all clear (R136). -/
def coreStatSet (stat : Word) (entry flags : Nat) : Word :=
  let w := stat.toNat
  if flags = 0 then stat
  else
    let w := if bits w 12 8 = 0 then setBits w 17 13 entry else w
    BitVec.ofNat 32 (setBits w 12 8 (bits w 12 8 ||| flags))

/-- A core's flags set. -/
def CoreSt.flag (c : CoreSt) (flags : Nat) : CoreSt := { c with stat := coreStatSet c.stat c.entry flags }

/-- An inbound or outbound row dropped: DROP and the count (R108, R136). -/
def CoreSt.drop (c : CoreSt) : CoreSt := { c.flag 8 with drops := sat 12 (c.drops + 1) }

/-- A packet of another tick dropped: LATE and the count (R110). -/
def CoreSt.late (c : CoreSt) : CoreSt := { c.flag 16 with drops := sat 12 (c.drops + 1) }

/-- The flags among POISON 0, SAT 1, ACC_LOSS 2 that are raised under their TRAP bits, TRAP ordered as they are (R113). -/
def trapped (f : NFlags) (trap : Nat) : List Nat :=
  (if f.poison && trap.testBit 0 then [0] else []) ++ (if f.sat && trap.testBit 1 then [1] else []) ++
    (if f.accLoss && trap.testBit 2 then [2] else [])

/-- ARG of a number trap (R507): raiser 0 core, 1 engine, 2 router agent. -/
def trapArg (index flag raiser : Nat) : Nat := index % 256 + flag * 2 ^ 8 + raiser * 2 ^ 10

/-- Number traps: one message for each flag, and HOLD at the next boundary with cause "no replay" (R135). -/
def State.numberTrap (s : State) (n : Nat) (src : Word) (index raiser : Nat) (flags : List Nat) : State :=
  if flags.isEmpty then s
  else (State.eachOf flags (fun f s => s.raise 0x0204 src 0 (trapArg index f raiser)) s).holdAt n 7

/-- Flags raised by an entry of a core, with its traps. -/
def State.coreFlags (s : State) (n k : Nat) (trap : Nat) (f : NFlags) : State :=
  let e := (s.co k).entry
  (s.modCo k (fun c => c.flag f.coreBits)).numberTrap n (s.coreSrc k) e 0 (trapped f trap)

/-- Flags raised by an engine: sticky SAT and POISON of PRT_UPE_STAT, and traps under the job's bits (R156, R167). -/
def State.engFlags (s : State) (n k job : Nat) (trapPoison trapSat : Bool) (f : NFlags) : State :=
  let s := if f.sat then s.fset (PRT_UPE_STAT.SAT (k / 8) (k % 8)) 1 else s
  let s := if f.poison then s.fset (PRT_UPE_STAT.POISON (k / 8) (k % 8)) 1 else s
  s.numberTrap n (s.engSrc k) job 1 (trapped f (b2n trapPoison + 2 * b2n trapSat))

/-- Flags raised at a tree record: sticky SAT and POISON of PRT_RED_STAT, and traps under the record's bits (R285). -/
def State.treeFlags (s : State) (n k r : Nat) (trapPoison trapSat : Bool) (f : NFlags) : State :=
  let s := s.modTree k r (fun t =>
    { t with stat := t.stat ||| BitVec.ofNat 32 (8 * b2n f.sat + 16 * b2n f.poison) })
  s.numberTrap n (s.clusSrc k) r 2 (trapped f (b2n trapPoison + 2 * b2n trapSat))

end Sys2Proof.Machine
end

