-- ==== Sys2Proof/Machine/Spares.lean ====
section
/-! DEFINITION. Spares: the healthy units of a die that serve no logical unit (R365, Table 6). -/

namespace Sys2Proof.Machine

/-- The healthy physical cores of a logical cluster's physical cluster that serve no logical core, ascending. -/
def State.spareCores (s : State) (p c : Nat) : List Nat :=
  let used := (List.range 250).map (s.physCore p c)
  (s.coreHealthy p (s.physClus p c) (s.pt p).retired).filter (fun q => !used.contains q)

/-- The healthy physical clusters of a die that serve no logical cluster, ascending. -/
def State.spareClusters (s : State) (p : Nat) : List Nat :=
  let used := (List.range 75).map (s.physClus p)
  (s.clusHealthy p (s.pt p).retired).filter (fun q => !used.contains q)

/-- Whether engine 8 of a die is free to replace an engine (R150). -/
def State.spareEngine (s : State) (p : Nat) : Bool :=
  (s.engBad p).isNone && (s.pt p).engSub.isNone && !(s.pt p).retired.contains (256 + 8, 256)

/-- Whether a spare exists for a unit of a partition: its own kind, or for a core a whole cluster. -/
def State.hasSpare (s : State) (p : Nat) : Retiree → Bool
  | .core c _ => !(s.spareCores p c.val).isEmpty || !(s.spareClusters p).isEmpty
  | .cluster _ => !(s.spareClusters p).isEmpty
  | .engine _ => s.spareEngine p

/-- A unit retired: it waits for its replacement, once (R365). -/
def State.retire (s : State) (p : Fin 16) (u : Retiree) : State :=
  s.modPt p.val (PartSt.await u)

/-- The key of the messages of a unit that wait for its replacement (R341). -/
def Retiree.key (p : Fin 16) : Retiree → Nat
  | .core c i => 2 ^ 51 + (75 * p.val + c.val) * 250 + i.val
  | .cluster c => 2 ^ 52 + 75 * p.val + c.val
  | .engine e => 2 ^ 53 + 8 * p.val + e.val

/-- A unit found failed: its fault is by outcome where a spare exists, settled with the tick that it aborts, or by the replacement where no
tick is under way; DEGRADED without a spare. The slice's tick aborts and waits for the replacement (R341, R365, Table 12). -/
def State.unitFailed (s : State) (p : Fin 16) (u : Retiree) (code cause : Nat) (src : Word) : State :=
  let spare := s.hasSpare p.val u
  let busy := match s.ctxHolding p.val with | some n => s.ticking n | none => false
  let s := if !spare then s.raiseAs 2 code src 0 0
    else if busy then s.raise code src 0 0 else s.raiseFor (Retiree.key p u) code src 0 0
  let s := s.retire p u
  match s.ctxHolding p.val with
  | some n => if s.ticking n then (s.abortTick n cause).addRepair n (Retiree.repair p u) else s
  | none => s

end Sys2Proof.Machine
end

