-- ==== Sys2Proof/Machine/Cores.lean ====
section
/-! DEFINITION. The compute core: the entries of a step table (R113 to R132), SEND and dispatch (R126 to R128), inbound
landing (R106 to R110) and the status poll (R135). -/

namespace Sys2Proof.Machine

/-! ### The entry that runs (R114, R132) -/

/-- The context whose tick a core is working through: started, not aborted, the core neither at END nor stopped. The GRAVE latch gates
the compute clocks of every die, that of a die that trips among them (R344, R467). -/
def State.coreCtx (s : State) (k : Nat) : Option Nat :=
  match s.ctxHolding (corePart k) with
  | some n =>
    let c := s.co k
    if s.working n && !s.flag FLT_STAT.GRAVE && (s.cx n).started && !c.atEnd && !c.stopped && !c.silent then some n else none
  | none => none

/-- Whether the table of a core is that of a publication tick of its partition (R44). -/
def State.corePub (s : State) (n k : Nat) : Bool := (s.sched n).pub (corePart k) (s.slStep n)

/-- The descriptor a core has come to; END beyond the table. -/
def State.coreDesc (s : State) (n k : Nat) : Desc :=
  ((s.coreCfg n k).table (s.corePub n k)).getD (s.co k).entry (descOf [])

/-- An entry of a core that issues now: its context and its descriptor, if it is one that `p` names. -/
def State.entryAt (s : State) (k : Nat) (p : Desc → Bool) : Option (Nat × Desc) :=
  match s.coreCtx k with
  | some n => if !(s.co k).waiting && p (s.coreDesc n k) then some (n, s.coreDesc n k) else none
  | none => none

/-- A core's banks as its entries meet them. -/
def State.coreBanks (s : State) (n k : Nat) : Banks := ⟨s.coreCfg n k, (s.co k).odd, (s.co k).banks⟩

/-- The generator of a core (R52). -/
def State.coreRng (s : State) (n k : Nat) : Rng := ((s.co k).rng).getD (s.coreSeed n k)

/-- The received rows of an in port (R109); in DIRECT mode they are a free value. -/
def State.received (s : State) (n k : Nat) (port : Bool) : Nat × State :=
  let w := (s.coreCfg n k).inw port
  let c := if port then (s.co k).in1.cons else (s.co k).in0.cons
  match w.mode with
  | 0 => (c / w.stride, s)
  | 1 => (c, s)
  | _ => let (d, s) := s.fresh; (Config.directRows d, s)

/-- R of an entry as it runs (R113). -/
def State.rowsOf (s : State) (n k : Nat) (d : Desc) : Nat × State :=
  if d.useRcv then let (r, s) := s.received n k d.pin; (min d.r r, s) else (d.r, s)

/-! ### Parity (R138, R161) -/

/-- Whether a read of a unit fails: a byte with bad parity, or a fenced tile. -/
def State.unitBad (s : State) (b : Banks) (k u : Nat) : Bool :=
  let p := readByte b.cfg b.odd u 0
  (s.co k).bad.any (fun x => p ≤ x && x < p + 32) ||
    (b.cfg.role (u / 256) = 1 && (s.cl (k / 250)).fenced.contains (24 * coreIdx k + u / 256))

/-- The first failing read of an entry: its cycle and unit. -/
def State.firstBad (s : State) (b : Banks) (k : Nat) (reads : List (Nat × Nat)) : Option (Nat × Nat) :=
  (reads.filter (fun r => s.unitBad b k r.2)).foldl
    (fun m r => match m with | none => some r | some x => some (if r.1 < x.1 then r else x)) none

/-- A core whose read of a unit failed: the watermark freezes, the tick aborts; an ACC bank holds the slice, a WEIGHT
tile is republished or, without a tile record, holds the slice (R49, R51, R138, R161). -/
def State.bankHit (s : State) (n k u : Nat) (b : Banks) : State :=
  let s := s.modCo k (fun c => { c with stopped := true })
  let src := s.coreSrc k
  match b.cfg.role (u / 256) with
  | 4 => (s.raise 0x0203 src u 0).abortHold n 7
  | 1 =>
    let s := (s.raise 0x0202 src u 0).abortTick n 2
    match s.tileOf n k (u / 256) with
    | some _ =>
      s.addRepair n (.tile (Fin.ofNat 16 (corePart k)) (Fin.ofNat 75 (coreClus k)) (Fin.ofNat 250 (coreIdx k))
        (Fin.ofNat 24 (u / 256)))
    | none => s.holdAt n 7
  | _ => (s.raise 0x0202 src u 0).abortTick n 2

/-! ### Writes -/

/-- Bytes written to a core's write halves, each with its parity. -/
def CoreSt.write (c : CoreSt) (cfg : CoreCfg) (bs : List (Nat × Byte)) : CoreSt :=
  bs.foldl (fun c x =>
    let p := writeByte cfg c.odd (x.1 / 32) (x.1 % 32)
    { c with banks := Store.put byteZero c.banks p x.2, bad := c.bad.filter (fun y => y ≠ p) }) c

/-- One write of an entry: an ACC write that the watermark covers is suppressed (R49). The flag says that it was
performed. -/
def CoreSt.item (c : CoreSt) (cfg : CoreCfg) (i : Item) : CoreSt × Bool :=
  if i.accn ≠ 0 && c.supp ≠ 0 then ({ c with supp := c.supp - i.accn, accWr := c.accWr + i.accn }, false)
  else ({ c.write cfg i.bytes with accWr := c.accWr + i.accn }, true)

/-- The writes of an entry in order, and the flags of those performed: a suppressed ACC write raises none (DESIGN CHOICE, log entry
23: R49 and R100 do not say). -/
def CoreSt.items (cfg : CoreCfg) : List Item → CoreSt → CoreSt × NFlags
  | [], c => (c, {})
  | i :: t, c =>
    let (c, w) := c.item cfg i
    let (c, f) := CoreSt.items cfg t c
    (c, if w then i.fl.or f else f)

/-- Units queued on an out port. -/
def CoreSt.queueOut (c : CoreSt) (port : Bool) (us : List XUnit) : CoreSt :=
  if port then { c with out1 := c.out1 ++ us } else { c with out0 := c.out0 ++ us }

/-- A unit as a write has left it. -/
def CoreSt.written (c : CoreSt) (cfg : CoreCfg) (u : Nat) : XUnit :=
  let p := writeByte cfg c.odd u 0
  BitVec.ofNat 256 (leNat ((List.range 32).map (fun i => Store.get byteZero c.banks (p + i))))

/-! ### Out ports (R106) -/

/-- Units queued on an out port: units, and the packets of SEND entries. -/
def CoreSt.outHeld (c : CoreSt) (port : Bool) : Nat :=
  (if port then c.out1 else c.out0).length +
    c.sends.foldl (fun a e => if e.1 == port then a + e.2.units else a) 0

/-- Whether an out port that holds `held` units has credit: an empty one has, another one up to the depth that the spec leaves
open (R106). -/
def outCredit (held : Nat) : Bool := held = 0 || held < Config.outDepth

/-- Units of an emission. -/
def Emit.size : Emit → Nat
  | .packet p => p.units
  | _ => 1

/-- One emission queued. -/
def CoreSt.emit (cfg : CoreCfg) (port : Bool) (c : CoreSt) : Emit → CoreSt
  | .unit u => c.queueOut port [u]
  | .written u => c.queueOut port [c.written cfg u]
  | .packet p => { c with sends := c.sends ++ [(port, p)] }

/-- The cycle of the first emission without credit, where the port holds `held` units: the emissions of one cycle go together. -/
def stallAt : List (Nat × Emit) → Nat → Nat → Option Nat
  | [], _, _ => none
  | e :: t, last, held =>
    if e.1 = last || outCredit held then stallAt t e.1 (held + e.2.size) else some e.1

/-! ### Running an entry (R49, R106, R133, R503, R504) -/

/-- The next entry, after `cyc` cycles. -/
def CoreSt.advance (c : CoreSt) (n cyc : Nat) : CoreSt :=
  { c with entry := c.entry + n, cyc := c.cyc + cyc, work := none, prog := 0, stalled := false }

/-- The part of a plan whose cycles lie after `a` and, with a bound, before it. -/
def Plan.window (p : Plan) (a : Nat) (z : Option Nat) : Plan :=
  let has (c : Nat) : Bool := a < c && (match z with | none => true | some z => c < z)
  { p with reads := p.reads.filter (fun e => has e.1), items := p.items.filter (fun i => has i.cyc),
           emit := p.emit.filter (fun e => has e.1), drops := p.drops.filter has }

/-- The writes, flags, drops and emissions of a part of a plan carried out. -/
def State.carry (s : State) (n k : Nat) (d : Desc) (b : Banks) (w : Plan) : State :=
  let (c, fl) := CoreSt.items b.cfg w.items (s.co k)
  let c := w.emit.foldl (fun c e => c.emit b.cfg d.pout e.2) c
  let c := w.drops.foldl (fun c _ => c.drop) c
  (s.modCo k (fun _ => c)).coreFlags n k d.trap fl

/-- The smaller of two bounds. -/
def minOpt : Option Nat → Option Nat → Option Nat
  | none, b => b
  | a, none => a
  | some a, some b => some (min a b)

/-- An entry stops before the cycle `z` and stays the current one; `stall` says that credit is what it lacks. -/
def State.pause (s : State) (n k : Nat) (d : Desc) (b : Banks) (p : Plan) (z : Nat) (stall : Bool) : State :=
  (s.carry n k d b (p.window (s.co k).prog (some z))).modCo k (fun c =>
    { c with work := some p, prog := max c.prog (z - 1), stalled := stall })

/-- An entry carried on under its plan, from the cycle it has come to: to its end, or up to a parity hit, an emission without
credit, or the cycle `upto` that has passed when something else stops it (R49, R106, R133, R504). A stall moves every later cycle
(R504). -/
def State.runPlan (s : State) (n k : Nat) (d : Desc) (b : Banks) (upto : Option Nat) (p : Plan) : State :=
  let c := s.co k
  let rest := p.window c.prog none
  let stall := stallAt rest.emit 0 (c.outHeld d.pout)
  let hit := s.firstBad b k rest.reads
  let cut := match upto with | some u => if u < p.cyc then some (u + 1) else none | none => none
  let stop := minOpt stall cut
  let shift := c.stalled && stall ≠ some (c.prog + 1)
  let s := if shift then s.modCo k (fun c => { c with cyc := max c.cyc (s.cyclesIn (2 * (s.tbCount - 16)) - c.prog), stalled := false })
    else s
  match hit, stop with
  | some h, none => (s.carry n k d b (p.window c.prog (some h.1))).bankHit n k h.2 b
  | some h, some z =>
    if h.1 < z then (s.carry n k d b (p.window c.prog (some h.1))).bankHit n k h.2 b
    else s.pause n k d b p z (decide (stall = some z))
  | none, some z => s.pause n k d b p z (decide (stall = some z))
  | none, none => (s.carry n k d b rest).modCo k (fun c => { c with accs := p.accs, maxs := p.maxs, rng := some p.rng }.advance 1 p.cyc)

/-- An entry under the operation `p`: it issues with its plan, or the one that has issued goes on. -/
def State.entry (s : State) (k : Nat) (upto : Option Nat) (p : Desc → Bool) (plan : Banks → Desc → Nat → CoreSt → Rng → Plan) :
    State :=
  match s.entryAt k p with
  | none => s
  | some (n, d) =>
    match (s.co k).work with
    | some w => s.runPlan n k d (s.coreBanks n k) upto w
    | none =>
      let (r, s) := s.rowsOf n k d
      let b := s.coreBanks n k
      s.runPlan n k d b upto (plan b d r (s.co k) (s.coreRng n k))

/-- An operation that leaves the accumulators as they are. -/
def keepAcc (c : CoreSt) (p : Plan) : Plan := { p with accs := c.accs, maxs := c.maxs }

/-! ### Matrix, vector and function entries -/

/-- A VEC entry with a sub-operation code. -/
def State.vecEntry (s : State) (k code : Nat) (upto : Option Nat) : State :=
  s.entry k upto (fun d => d.op = 4 && d.sub % 16 = code) (fun b d r c g => keepAcc c (planVec b d r g))

/-- A REDUCE entry with a sub-operation. -/
def State.reduceEntry (s : State) (k sub : Nat) (upto : Option Nat) : State :=
  s.entry k upto (fun d => d.op = 6 && d.sub = sub) (fun b d r c g => planReduce b d r c.accs c.maxs g)

/-- MATMUL (R117). -/
def execMatmul (e : EntryRun) (s : State) : Result :=
  done s (s.entry e.core.key e.upto (fun d => d.op = 1) (fun b d r c g => planMatmul b d r c.accs g))

/-- MATMUL_T (R118). -/
def execMatmulT (e : EntryRun) (s : State) : Result :=
  done s (s.entry e.core.key e.upto (fun d => d.op = 2) (fun b d r c g => planMatmul b d r c.accs g))

/-- OUTER (R119). -/
def execOuter (e : EntryRun) (s : State) : Result :=
  done s (s.entry e.core.key e.upto (fun d => d.op = 3) (fun b d r _ g => planOuter b d r g))

/-- VEC 0x0 (R121). -/
def execVecAdd (e : EntryRun) (s : State) : Result := done s (s.vecEntry e.core.key 0 e.upto)
/-- VEC 0x1. -/
def execVecSub (e : EntryRun) (s : State) : Result := done s (s.vecEntry e.core.key 1 e.upto)
/-- VEC 0x2. -/
def execVecMul (e : EntryRun) (s : State) : Result := done s (s.vecEntry e.core.key 2 e.upto)
/-- VEC 0x3. -/
def execVecFma (e : EntryRun) (s : State) : Result := done s (s.vecEntry e.core.key 3 e.upto)
/-- VEC 0x4. -/
def execVecMax (e : EntryRun) (s : State) : Result := done s (s.vecEntry e.core.key 4 e.upto)
/-- VEC 0x5. -/
def execVecMin (e : EntryRun) (s : State) : Result := done s (s.vecEntry e.core.key 5 e.upto)
/-- VEC 0x6. -/
def execVecAbs (e : EntryRun) (s : State) : Result := done s (s.vecEntry e.core.key 6 e.upto)
/-- VEC 0x7. -/
def execVecNeg (e : EntryRun) (s : State) : Result := done s (s.vecEntry e.core.key 7 e.upto)

/-- FUNC (R122). -/
def execFunc (e : EntryRun) (s : State) : Result :=
  let k := e.core.key
  let t (d : Desc) : List Byte :=
    match s.ctxHolding (corePart k) with
    | some n => s.funcTable n (corePart k) (coreClus k) (d.sub % 16)
    | none => []
  done s (s.entry k e.upto (fun d => d.op = 5) (fun b d r c g => keepAcc c (planFunc b d r (t d) g)))

/-- REDUCE SUM (R123). -/
def execReduceSum (e : EntryRun) (s : State) : Result := done s (s.reduceEntry e.core.key 0 e.upto)
/-- REDUCE MAX. -/
def execReduceMax (e : EntryRun) (s : State) : Result := done s (s.reduceEntry e.core.key 1 e.upto)
/-- REDUCE MAXABS. -/
def execReduceMaxabs (e : EntryRun) (s : State) : Result := done s (s.reduceEntry e.core.key 2 e.upto)
/-- REDUCE SUMSQ. -/
def execReduceSumsq (e : EntryRun) (s : State) : Result := done s (s.reduceEntry e.core.key 3 e.upto)

/-- CONVERT (R124). -/
def execConvert (e : EntryRun) (s : State) : Result :=
  done s (s.entry e.core.key e.upto (fun d => d.op = 7) (fun b d r c g => keepAcc c (planConvert b d r g)))

/-- MOVE COPY (R125). -/
def execMoveCopy (e : EntryRun) (s : State) : Result :=
  done s (s.entry e.core.key e.upto (fun d => d.op = 8 && d.sub = 0) (fun b d r c g => keepAcc c (planCopy b d r g)))

/-- MOVE OUT. -/
def execMoveOut (e : EntryRun) (s : State) : Result :=
  done s (s.entry e.core.key e.upto (fun d => d.op = 8 && d.sub = 1)
    (fun b d r c g => keepAcc c (planOut b d r d.addrA (d.k * r) g)))

/-- MOVE PASS: the consuming count of PIN, at most K × R units, from the landing area. -/
def execMovePass (e : EntryRun) (s : State) : Result :=
  done s (s.entry e.core.key e.upto (fun d => d.op = 8 && d.sub = 2) (fun b d r c g =>
    let w := b.cfg.inw d.pin
    let cnt := if d.pin then c.in1.cons else c.in0.cons
    keepAcc c (planOut b d r w.base (min cnt (d.k * r)) g)))

/-! ### SEND (R126 to R128) -/

/-- The row record of row r of A: a 64-byte scale line and the element data, or the elements. -/
def rowRecord (b : Banks) (d : Desc) (r : Nat) : List Byte :=
  let a := regionA b d d.k
  let hb := hankBytes d.fmtA
  if isHank d.fmtA then
    match a.rowed with
    | some st => b.read (32 * d.addrA + 32 * st * r) (64 + d.k * hb)
    | none =>
      padTo 64 0 ((List.range d.k).map (fun k => b.byte (a.at d.k r k).1)) ++
        (List.range d.k).flatMap (fun k => b.read (a.at d.k r k).2 hb)
  else
    let n := 32 * d.k * (fmtBits d.fmtA / 8)
    b.read (32 * d.addrA + r * n) n

/-- The cycles that a row takes for each of its selectors: a header and P payload units (Table 10). -/
def sendRowCycles (d : Desc) : Nat := 1 + ceilDiv (sendBytes d) 32

/-- The cycle before the emission of row r's packet for selector j: the rows are counted first (R128, Table 10). -/
def sendStart (d : Desc) (rows r j : Nat) : Nat := 6 + rows + (r * (if d.sub.testBit 1 then 2 else 1) + j) * sendRowCycles d

/-- The units a SEND reads: its selectors or tags while it counts, its rows as it emits them. -/
def sendReads (b : Banks) (d : Desc) (rows : Nat) : List (Nat × Nat) :=
  let a := regionA b d d.k
  let w := if d.sub.testBit 0 then 8 else if d.sub.testBit 1 then 2 else 1
  (List.range rows).flatMap (fun r => (List.range w).map (fun i => (7 + r, d.addrX + (w * r + i) / 32))) ++
    (List.range rows).flatMap (fun r => (List.range d.k).flatMap (fun k =>
      (a.units d.k r k).map (fun u => (sendStart d rows r 0 + 1, u))))

/-- The 8-byte tag of a row (Table 9). -/
def rowTag (src row rank : Nat) : List Byte := leBytes 8 (src % 2 ^ 32 + row % 256 * 2 ^ 32 + rank * 2 ^ 40)

/-- A row to be sent: its window entry, its slot, its payload, and the cycle in which its packet is complete. -/
structure SendRow where
  ent  : Nat
  slot : Nat
  data : List Byte
  cyc  : Nat
  deriving DecidableEq, Repr

/-- The VALID entries of a core's window: window index and destination word. -/
def State.window (s : State) (n k : Nat) : List (Nat × Nat) :=
  let cfg := s.coreCfg n k
  (List.range cfg.dispLen).filterMap (fun i =>
    let e := s.dispEnt n (corePart k) (coreClus k) (cfg.dispBase + i)
    if e.valid then some (i, e.dest) else none)

/-- The packets of a SEND with the cycles that emit them: to every VALID entry of the window one message, which carries that
entry's rows in order, or after the rows an empty notice (R128). -/
def State.sendMsgs (s : State) (n k typ : Nat) (src : Word) (last : Nat) (rows : List SendRow) : List (Nat × Packet) :=
  let e := (s.co k).entry
  let win := s.window n k
  let dest (i : Nat) : Word := BitVec.ofNat 32 (((win.find? (fun w => w.1 = i)).map Prod.snd).getD 0)
  let mine (i : Nat) : List SendRow := rows.filter (fun r => r.ent = i)
  (List.range rows.length).map (fun i =>
      let r := rows.getD i ⟨0, 0, [], 0⟩
      (r.cyc, s.slicePacket n typ 0 (dest r.ent) src (mine r.ent).length ((rows.take i).filter (fun x => x.ent = r.ent)).length
        (256 * e + r.ent) r.slot 0 r.data)) ++
    (win.filter (fun w => (mine w.1).isEmpty)).map (fun w =>
      (last + w.1 + 1, s.slicePacket n 1 0 (dest w.1) src 1 0 (256 * e + w.1) 0 0 []))

/-- DISPATCH's rows: the entry each selector names, or none where the row is dropped (R127). -/
def State.dispatchRows (s : State) (n k : Nat) (d : Desc) (b : Banks) (rows : Nat) : List (Option SendRow) :=
  let q := if d.sub.testBit 1 then 2 else 1
  let src := (s.coreEp k (d.sub.testBit 2)).toNat
  let win := s.window n k
  (List.range rows).flatMap (fun r => (List.range q).filterMap (fun j =>
    let sel := (b.byte (32 * d.addrX + q * r + j)).toNat
    if sel = 0xFF then none
    else if win.any (fun w => w.1 = sel) then
      some (some ⟨sel, 0, rowRecord b d r ++ rowTag src r j, sendStart d rows r (j + 1)⟩)
    else some none))

/-- REPLY's rows: the entry whose destination equals the tag's source, with slot 2 × ROW + RANK (R127). -/
def State.replyRows (s : State) (n k : Nat) (d : Desc) (b : Banks) (rows : Nat) : List (Option SendRow) :=
  let win := s.window n k
  (List.range rows).map (fun r =>
    let t := b.read (32 * d.addrX + 8 * r) 8
    let x := leNat t
    match win.find? (fun w => w.2 = x % 2 ^ 32) with
    | some w => some ⟨w.1, 2 * bits x 39 32 + b2n (bit x 40), rowRecord b d r ++ t, sendStart d rows r 1⟩
    | none => none)

/-- SEND. R127 gives SUB[2] as the SRC_PORT of tags, and REPLY writes no tag: the model takes the bit in both modes as the port bit
of SRC in the packets' headers (DESIGN CHOICE, log entry 23). -/
def State.planSend (s : State) (n k : Nat) (reply : Bool) (b : Banks) (d : Desc) (rows : Nat) (c : CoreSt) (g : Rng) : Plan :=
  let rs := if reply then s.replyRows n k d b rows else s.dispatchRows n k d b rows
  let src := s.coreEp k (d.sub.testBit 2)
  let last := 6 + rows + rows * (if d.sub.testBit 1 then 2 else 1) * sendRowCycles d
  let ps := s.sendMsgs n k (if reply then 2 else 1) src last (rs.filterMap id)
  { reads := sendReads b d rows, items := [], emit := ps.map (fun e => (e.1, Emit.packet e.2)),
    drops := (rs.filter Option.isNone).map (fun _ => 6 + rows), rng := g, accs := c.accs, maxs := c.maxs,
    cyc := entryCycles d rows b.cfg.dispLen }

/-- A SEND entry in one of its modes. -/
def State.sendEntry (s : State) (k : Nat) (upto : Option Nat) (reply : Bool) : State :=
  let n := ((s.entryAt k (fun d => d.op = 9 && d.sub.testBit 0 == reply)).map Prod.fst).getD 0
  s.entry k upto (fun d => d.op = 9 && d.sub.testBit 0 == reply) (fun b d r c g => s.planSend n k reply b d r c g)

/-- SEND in DISPATCH mode. -/
def execSendDispatch (e : EntryRun) (s : State) : Result := done s (s.sendEntry e.core.key e.upto false)

/-- SEND in REPLY mode. -/
def execSendReply (e : EntryRun) (s : State) : Result := done s (s.sendEntry e.core.key e.upto true)

/-! ### WAIT, SKIP and END (R129 to R132) -/

/-- Whether the condition of a WAIT holds: nothing left on the out port, units and packets of SEND alike, the packets injected, or the offset reached. -/
def State.waitOver (s : State) (k : Nat) (d : Desc) : Bool :=
  let c := s.co k
  match d.imm with
  | 0 => decide (c.outHeld d.pout = 0)
  | 1 => c.sends.isEmpty
  | _ => decide (8 * d.addrX ≤ s.tbCount)

/-- A WAIT's end: one cycle after its issue, or at the offset (mode 2) or the time reached (modes 0 and 1, where it
stalled), whichever is later. -/
def State.waitEnd (s : State) (k : Nat) (d : Desc) (stalled : Bool) : State :=
  let to_ := if d.imm = 2 then s.cyclesIn (16 * d.addrX - 32)
            else if stalled then s.cyclesIn (2 * (s.tbCount - 16)) else 0
  s.modCo k (fun c => { c with waiting := false, entry := c.entry + 1, cyc := max (c.cyc + 1) to_ })

/-- A WAIT entry with a mode. -/
def State.waitEntry (s : State) (k mode : Nat) : State :=
  match s.entryAt k (fun d => d.op = 10 && d.imm = mode) with
  | none => s
  | some (_, d) =>
    if s.waitOver k d then s.waitEnd k d false else s.modCo k (fun c => { c with waiting := true })

/-- WAIT mode 0. -/
def execWaitDrain (c : CoreId) (s : State) : Result := done s (s.waitEntry c.key 0)
/-- WAIT mode 1. -/
def execWaitInject (c : CoreId) (s : State) : Result := done s (s.waitEntry c.key 1)
/-- WAIT mode 2. -/
def execWaitOffset (c : CoreId) (s : State) : Result := done s (s.waitEntry c.key 2)

/-- The end of a stalled WAIT, once its condition holds (R131). -/
def execWaitEnd (c : CoreId) (s : State) : Result :=
  let k := c.key
  done s (
    match s.coreCtx k with
    | some n =>
      let d := s.coreDesc n k
      if (s.co k).waiting && s.waitOver k d then s.waitEnd k d true else s
    | none => s)

/-- A SKIP: the next IMM entries passed over where its condition holds; 1 cycle (R130). -/
def State.skip (s : State) (k : Nat) (d : Desc) (c : Bool) : State :=
  s.modCo k (fun x => x.advance (1 + if c then d.imm else 0) 1)

/-- SKIP on a zero region. -/
def execSkipZero (c : CoreId) (s : State) : Result :=
  let k := c.key
  done s (
    match s.entryAt k (fun d => d.op = 11 && d.sub = 0) with
    | none => s
    | some (n, d) =>
      let b := s.coreBanks n k
      match s.firstBad b k (zeroReads b d) with
      | some h => s.bankHit n k h.2 b
      | none => s.skip k d (b.allZero d))

/-- SKIP on a stream-empty port. -/
def execSkipEmpty (c : CoreId) (s : State) : Result :=
  let k := c.key
  done s (
    match s.entryAt k (fun d => d.op = 11 && d.sub = 1) with
    | none => s
    | some (_, d) => s.skip k d (decide ((if d.pin then (s.co k).in1.cons else (s.co k).in0.cons) = 0)))

/-- END: the core idles; a core that reaches it after W and by K has intruded into the weir, and the smallest margin
before K is kept (R60, R132). -/
def execEndEntry (c : CoreId) (s : State) : Result :=
  let k := c.key
  done s (
    match s.entryAt k (fun d => d.op = 0) with
    | none => s
    | some (n, _) =>
      let e := s.endAt (s.co k).cyc
      let kk := s.closePoint n
      let s := s.modCo k (fun c => { c with atEnd := true })
      if kk < e then s
      else
        let s := if s.weirStart n < e then s.fcount (TCK_SL_INTRUSIONS.INTRUSIONS n) 1 else s
        s.fset (TCK_SL_MARGIN.MARGIN n) (min (s.fget (TCK_SL_MARGIN.MARGIN n)) (kk - e)))

/-! ### Inbound landing (R106 to R110, R289, R290) -/

/-- An in port of a core. -/
def CoreSt.inp (c : CoreSt) (port : Bool) : InPort := if port then c.in1 else c.in0

/-- An in port changed. -/
def CoreSt.modIn (c : CoreSt) (port : Bool) (f : InPort → InPort) : CoreSt :=
  if port then { c with in1 := f c.in1 } else { c with in0 := f c.in0 }

/-- Units landed consecutively from BASE; those past the landing area are dropped (R108). -/
def CoreSt.landStream (cfg : CoreCfg) (port : Bool) : List XUnit → CoreSt → CoreSt
  | [], c => c
  | u :: t, c =>
    let w := cfg.inw port
    let n := (c.inp port).fill
    if n < w.cap * w.stride then
      let c := c.write cfg (bytesAt (32 * (w.base + n)) (leBytes 32 u.toNat))
      CoreSt.landStream cfg port t (c.modIn port (fun x => { x with fill := x.fill + 1 }))
    else CoreSt.landStream cfg port t c.drop

/-- A record, and a tag if there is one, landed in a slot. -/
def CoreSt.landSlot (c : CoreSt) (cfg : CoreCfg) (port : Bool) (slot : Nat) (rec_ tag : List Byte) : CoreSt :=
  let w := cfg.inw port
  if w.cap ≤ slot || 32 * w.stride < rec_.length then c.drop
  else
    let c := c.write cfg (bytesAt (32 * (w.base + slot * w.stride)) rec_)
    let c := if tag.isEmpty then c else c.write cfg (bytesAt (32 * w.tagBase + 8 * slot) tag)
    c.modIn port (fun x => { x with fill := x.fill + 1 })

/-- The record and the tag a packet carries: a router agent's result has no tag, and a multicast copy starts with its
bitmaps (R127, R287, R293). -/
def Packet.record (p : Packet) : List Byte × List Byte :=
  if p.typ = 9 then (p.payload.drop 16, [])
  else if epCore p.src = 0xFF then (p.payload, [])
  else (p.payload.take (p.payload.length - 8), p.payload.drop (p.payload.length - 8))

/-- The units of a packet's payload, the last one padded with zeros. -/
def payloadUnits (bs : List Byte) : List XUnit :=
  (List.range (ceilDiv bs.length 32)).map (fun i => BitVec.ofNat 256 (leAt bs (32 * i) 32))

/-- Whether a packet's type fits the mode of its port (R211). -/
def modeFits (mode : Nat) (p : Packet) : Bool :=
  if p.typ = 1 then decide (mode = 1) || p.payload.isEmpty
  else if p.typ = 2 || p.typ = 9 then decide (mode = 2)
  else if p.typ = 3 then decide (mode = 0)
  else false

/-- A packet landed by its mode; an empty notice lands nothing. -/
def CoreSt.landPacket (c : CoreSt) (cfg : CoreCfg) (port : Bool) (p : Packet) : CoreSt :=
  if p.typ = 1 && p.payload.isEmpty then c
  else if p.typ = 3 then CoreSt.landStream cfg port (payloadUnits p.payload) c
  else
    let (r, t) := Packet.record p
    if p.typ = 1 then c.landSlot cfg port (c.inp port).fill r t
    else c.landSlot cfg port (if p.typ = 9 then p.seq.toNat else bits p.slot.toNat 8 0) r t

/-- The record of a message among those of a port. -/
def MsgSt.is (p : Packet) (m : MsgSt) : Bool := m.src = p.src.toNat && m.msg = p.msg.toNat

/-- Whether a port already holds a packet of a message (R290). -/
def InPort.holds (x : InPort) (p : Packet) : Bool := x.msgs.any (fun m => m.is p && m.seqs.contains p.seq.toNat)

/-- A packet counted towards its message (R289). -/
def InPort.count (x : InPort) (p : Packet) : InPort :=
  if x.msgs.any (MsgSt.is p) then
    { x with msgs := x.msgs.map (fun m => if m.is p then { m with seqs := m.seqs ++ [p.seq.toNat] } else m) }
  else { x with msgs := x.msgs ++ [⟨p.src.toNat, p.msg.toNat, p.count.toNat, [p.seq.toNat]⟩] }

/-- The messages of a port that are complete. -/
def InPort.complete (x : InPort) : Nat := (x.msgs.filter (fun m => m.seqs.length = m.count)).length

/-- Whether an in port takes a slice's packet now: the slice works on the packet's tick and attempt (R110, R210). -/
def State.takes (s : State) (n : Nat) (p : Packet) : Bool :=
  s.ticking n && p.slice.toNat = s.slId n && s.sameTick n p

/-- A packet at an in port. One of another tick is dropped and counted and sets LATE (R110); one whose type does not fit the
port's MODE is dropped with DROP and does not count towards its message (DESIGN CHOICE, log entry 23: R108 does not say). -/
def State.landing (s : State) (k : Nat) (port : Bool) (p : Packet) : State :=
  match s.ctxHolding (corePart k) with
  | none => s.modCo k CoreSt.late
  | some n =>
    let cfg := s.coreCfg n k
    let w := cfg.inw port
    let d := corePart k
    if !s.takes n p then
      let s := if p.typ = 9 then s.fcount (PRT_RED_DROP.N d) 1 else s
      s.modCo k CoreSt.late
    else if w.cap = 0 || !modeFits w.mode p then s.modCo k CoreSt.drop
    else if p.count.toNat ≤ p.seq.toNat then s.fcount (PRT_RED_DROP.N d) 1
    else if ((s.co k).inp port).holds p then s.fcount (PRT_RED_DUP.N d) 1
    else s.modCo k (fun c => (c.landPacket cfg port p).modIn port (fun x => x.count p))

/-- A strand unit at an in port: STREAM ports take it. One that comes while the slice does not work is dropped with DROP (DESIGN
CHOICE, log entry 23: R108 does not say). -/
def State.landUnit (s : State) (k : Nat) (port : Bool) (u : XUnit) : State :=
  match s.ctxHolding (corePart k) with
  | none => s.modCo k CoreSt.drop
  | some n =>
    let cfg := s.coreCfg n k
    let w := cfg.inw port
    if !s.working n || w.cap = 0 || w.mode ≠ 0 then s.modCo k CoreSt.drop
    else s.modCo k (CoreSt.landStream cfg port [u])

/-- IN_PORT_LANDING (R108). -/
def execInPortLanding (c : CoreId) (port : Bool) (a : Arrival) (s : State) : Result :=
  done s (match a with
    | .unit u => s.landUnit c.key port u
    | .packet p => s.landing c.key port p)

/-! ### Status poll (Table 12, R365) -/

/-- CORE_STATUS_POLL: a core that does not answer is silent; its tick aborts and a spare is asked for. -/
def execCoreStatusPoll (c : CoreId) (answers : Bool) (s : State) : Result :=
  let k := c.key
  done s (
    if answers then s
    else (s.modCo k (fun x => { x with silent := true })).unitFailed c.part (.core c.clus c.core) 0x0207 0xFF (s.coreSrc k))

end Sys2Proof.Machine
end

