-- ==== Sys2Proof/Machine/Lpddr.lean ====
section
/-! DEFINITION. LPDDR5 as its readers meet it: parity hits (R149, R506), calibration slots (R41, R42), and the current slot of a
tile with the bank it is written again from (Table 3 of R149). -/

namespace Sys2Proof.Machine

/-- Source word of a channel. -/
def chanSrc (p k : Nat) : Word := srcWord p k 0

/-- A bit of a per-channel field of PRT_MEM_STAT set or cleared. -/
def State.memStat (s : State) (f : Fld) (k : Nat) (b : Bool) : State := s.fset f (setBits (s.fget f) k k (b2n b))

/-! ### LPDDR5 parity hits (R149, R506) -/

/-- The first byte of the parity group that holds an MLA. -/
def groupOf (a : Nat) : Nat := a - mlaCda a % 512

/-- The key of the messages of a parity group that wait for an action (R341). -/
def groupKey (a : Nat) : Nat := 2 ^ 48 + groupOf a

/-- The parity hits of a read of `n` bytes at `a`: of each group read that holds a failing byte among them, its lowest failing
byte (R506). -/
def State.memFails (s : State) (a n : Nat) : List Nat :=
  ((s.memBad.filter (fun x => a ≤ x && x < a + n)).foldl (fun l x => addKey l (groupOf x)) []).filterMap
    (fun g => s.memBadIn g 512)

/-- The first parity hit of a read, if any. -/
def State.memFail (s : State) (a n : Nat) : Option Nat := (s.memFails a n).head?

/-- A parity hit counted, and its MLA kept (R506). -/
def State.memCount (s : State) (a : Nat) : State :=
  let p := mlaPart a
  (s.setPair (PRT_MEM_PERR_LO.off p) (s.pair (PRT_MEM_PERR_LO.off p) + 1)).setPair (PRT_MEM_PADDR_LO.off p) a

/-- A parity hit of a scheduled read: counted and reported; a hit that the scrubber deferred is classified with it (R341). `lost` names
the context that the hit sends to HOLD without a repair (R149). -/
def State.memHit (s : State) (a : Nat) (lost : Option Nat) : State :=
  let s := s.memCount a
  let k := groupKey a
  let old := s.flt.held.filter (fun e => e.2 = .action k)
  let s := { s with flt := { s.flt with held := s.flt.held.filter (fun e => e.2 ≠ .action k) } }
  let src := chanSrc (mlaPart a) (mlaChan a)
  match lost with
  | none => (State.eachOf old (fun e s => s.take e.1) s).raise 0x0601 src a 0
  | some n => (State.eachOf old (fun e s => s.hold e.1 (.action (holdKey n))) s).raiseLost n 0x0601 src a 0

/-- Every parity hit of a scheduled read counted and reported. -/
def State.memHits (s : State) (a n : Nat) : State := State.eachOf (s.memFails a n) (fun x s => s.memHit x none) s

/-- Every parity hit of a read after which the slice holds without a repair. -/
def State.memHitsLost (s : State) (ctx a n : Nat) : State := State.eachOf (s.memFails a n) (fun x s => s.memHit x (some ctx)) s

/-! ### Calibration (R41, R42) -/

/-- The time at which the channel of an MLA is free: the end of its calibration slot, or before now (R41). -/
def State.chanFree (s : State) (a : Nat) : Nat := (s.ch (8 * mlaPart a + mlaChan a)).slotEnd

/-- Whether a channel is in a calibration slot (R41). -/
def State.inSlot (s : State) (k : Nat) : Bool := decide (s.now < (s.ch k).slotEnd)

/-- The channels of a slice that begins to run: in IDLE, ARMED and HOLD their controllers choose when they calibrate, and are done
(R42; DESIGN CHOICE, log entry 56). -/
def State.calFresh (s : State) (n : Nat) : State :=
  State.eachOf (s.ctxParts n) (fun p s => s.each 8 (fun k s =>
    s.modCh (8 * p + k) (fun c => { c with slotAt := s.now, slotEnd := s.now, calLeft := 0 }))) s

/-! ### Tiles (R149, R157) -/

/-- A tile record marked lost: its header or current slot cannot be read (Table 3). -/
def State.tileLost (s : State) (a : Nat) : State :=
  s.modCh (8 * mlaPart a + mlaChan a) (fun c => { c with lost := addKey c.lost a })

/-- A bank of a core written whole. -/
def CoreSt.putBank (b : Nat) (bs : List Byte) (c : CoreSt) : CoreSt :=
  { c with banks := putBytes c.banks (8192 * b) bs, bad := c.bad.filter (fun x => x / 8192 ≠ b) }

/-- The key of the messages of a tile that wait for its republication (R341). -/
def tileKey (core bank : Nat) : Nat := 2 ^ 49 + 24 * core + bank

/-- The messages of the tiles of a partition settled: what they wait for no longer comes, or a reset has done it (R341, R354). -/
def State.settleTiles (s : State) (p cls : Nat) : State :=
  s.settle (fun k => match k with
    | .tick _ => false
    | .action j => decide (2 ^ 49 ≤ j) && decide (j < 2 ^ 50) && decide (corePart ((j - 2 ^ 49) / 24) = p)) cls

/-- The messages of a slice that is discarded: DEGRADED (R354). -/
def State.settleGone (s : State) (n : Nat) : State :=
  State.eachOf (s.ctxParts n) (fun p s => s.settleTiles p 2) (s.settleHold n)

/-- PRT_SCR_STAT.FENCED of a partition: whether a tile of it is fenced now. -/
def State.fencedStat (s : State) (p : Nat) : State :=
  s.fset (PRT_SCR_STAT.FENCED p) (b2n ((List.range 75).any (fun c => !(s.cl (75 * p + c)).fenced.isEmpty)))

/-- A tile written again, by a republication or by a publication that supersedes it: the fence goes, and whoever waits for the repair
goes on (R69, R161). -/
def State.republished (s : State) (core bank : Nat) : State :=
  let s := s.modCl (core / 250) (fun c => { c with fenced := c.fenced.filter (fun x => x ≠ 24 * coreIdx core + bank) })
  let s := (s.fencedStat (corePart core)).settleAction (tileKey core bank) 1
  s.repaired (.tile (Fin.ofNat 16 (corePart core)) (Fin.ofNat 75 (coreClus core)) (Fin.ofNat 250 (coreIdx core))
    (Fin.ofNat 24 bank))

/-- The bytes of a bank. -/
def CoreSt.bankBytes (c : CoreSt) (b : Nat) : List Byte := (List.range 8192).map (fun i => Store.get byteZero c.banks (8192 * b + i))

/-- The digest of a tile's current slot. -/
def TileHdr.digest (h : TileHdr) : List Byte := if h.cur then h.dig1 else h.dig0

/-- Whether a bank passes parity and the digest of its tile's current slot. -/
def CoreSt.bankPasses (c : CoreSt) (b : Nat) (h : TileHdr) : Bool :=
  !c.bad.any (fun x => x / 8192 = b) && slotDigest (c.bankBytes b) == h.digest

/-- The current slot of the tile at `a` as a load into a bank takes it: a header that fails loses the tile, a slot that fails is
written again from the bank of `own`, the core that holds the tile, where that bank passes parity and digest; otherwise the tile is
lost. A lost tile holds the slice (Table 3). -/
def State.tileSource (s : State) (n a bank : Nat) (own : CoreSt) : State × Option (List Byte) :=
  let lost (s : State) : State × Option (List Byte) := ((s.tileLost a).holdAt n 7, none)
  if (s.memFail a 64).isSome then lost (s.memHitsLost n a 64)
  else
    let h := s.tileHdr a
    let sl := tileSlot a h.cur
    let bs := s.memRead sl 8192
    if (s.memFail sl 8192).isNone && slotDigest bs == h.digest then (s, some bs)
    else
      if own.bankPasses bank h then
        -- the slot is restored at once: its hits are RECOVERED
        let s := State.eachOf (s.memFails sl 8192) (fun x s =>
          (s.memCount x).raiseAs 1 0x0601 (chanSrc (mlaPart x) (mlaChan x)) x 0) s
        (s.memWrite sl (own.bankBytes bank), some (own.bankBytes bank))
      else lost (s.memHitsLost n sl 8192)

end Sys2Proof.Machine
end

