-- ==== Sys2Proof/Machine/Image.lean ====
section
/-! DEFINITION. The rigging image: container, header, directory and the checks of R188 that the image's bytes decide
(R168 to R183, R46), each answering the first error of Table 10 of R197. -/

namespace Sys2Proof.Machine

/-! ### Errors (R197) -/

/-- A loader error: CODE, directory entry, AGENT word and item. -/
structure RigErr where
  code  : Nat
  sect  : Nat
  agent : Nat
  aux   : Nat
  deriving DecidableEq, Repr

/-- An error where `c` holds. -/
def errIf (c : Bool) (code sect agent aux : Nat) : Option RigErr := if c then some ⟨code, sect, agent, aux⟩ else none

/-- The first error of a list of checks. -/
def firstErr : List (Option RigErr) → Option RigErr
  | [] => none
  | some e :: _ => some e
  | none :: t => firstErr t

/-! ### Container (R168 to R170) -/

/-- A directory entry (Table 2). -/
structure DirEnt where
  typ   : Nat
  sid   : Nat
  agent : Nat
  count : Nat
  off   : Nat
  len   : Nat
  chk   : Nat
  rsv   : Bool
  deriving DecidableEq, Repr

/-- A directory entry read from its 32 bytes. -/
def dirEntOf (b : List Byte) : DirEnt :=
  { typ := leAt b 0 2, sid := bits (leAt b 4 2) 11 0, agent := leAt b 8 4, count := leAt b 12 4, off := leAt b 16 8,
    len := leAt b 24 4, chk := leAt b 28 4,
    rsv := leAt b 2 2 != 0 || leAt b 6 2 != 0 || bits (leAt b 4 2) 15 12 != 0 }

/-- An image with its header read. -/
structure Image where
  bytes  : List Byte
  signed : Bool
  delta  : Bool
  nsec   : Nat
  total  : Nat
  sigOff : Nat
  deriving DecidableEq, Repr

/-- The header of an image. -/
def imageOf (b : List Byte) : Image :=
  { bytes := b, signed := bit (leAt b 6 2) 0, delta := bit (leAt b 6 2) 1, nsec := leAt b 8 4, total := leAt b 16 8,
    sigOff := leAt b 24 8 }

/-- The end of the sections: the signature block or the end of the image. -/
def Image.body (x : Image) : Nat := if x.signed then x.sigOff else x.total

/-- The end of the directory. -/
def Image.dirEnd (x : Image) : Nat := 64 + 32 * x.nsec

/-- Directory entry i. -/
def Image.dir (x : Image) (i : Nat) : DirEnt := dirEntOf (slice x.bytes (64 + 32 * i) 32)

/-- The directory with its indices. -/
def Image.ents (x : Image) : List (Nat × DirEnt) := (List.range x.nsec).map (fun i => (i, x.dir i))

/-- The bytes of a section. -/
def Image.data (x : Image) (e : DirEnt) : List Byte := slice x.bytes e.off e.len

/-- Whether `n` bytes from `o` are 0. -/
def zeroAt (b : List Byte) (o n : Nat) : Bool := ((b.drop o).take n).all (fun x => x = 0)

/-- The header's own rules. -/
def Image.headErr (x : Image) : Option RigErr :=
  firstErr
    [ errIf (leAt x.bytes 0 4 != 0x47495244) 0x01 0xFFFF 0 0,
      errIf (leAt x.bytes 4 2 != 1) 0x02 0xFFFF 0 0,
      errIf (decide (x.bytes.length < x.total) || decide (x.total < 64) || decide (x.body < x.dirEnd) ||
        (x.signed && (x.sigOff % 64 != 0 || x.total != x.sigOff + 29920)) || (!x.signed && x.sigOff != 0)) 0x03 0xFFFF 0 0,
      errIf (x.nsec == 0 || decide (65535 < x.nsec)) 0x04 0xFFFF 0 0,
      errIf (bits (leAt x.bytes 6 2) 15 2 != 0 || leAt x.bytes 12 4 != 0) 0x18 0xFFFF 0 0 ]

/-- The rules of one directory entry. -/
def Image.dirErr (x : Image) (e : Nat × DirEnt) : Option RigErr :=
  let (i, d) := e
  firstErr
    [ errIf d.rsv 0x18 i d.agent 0,
      errIf (d.len == 0 && !x.delta) 0x03 i d.agent 0,
      errIf (d.off % 64 != 0 || (d.len != 0 && decide (d.off < x.dirEnd))) 0x04 i d.agent 0,
      errIf (d.len != 0 && decide (x.body < d.off + d.len)) 0x03 i d.agent 0 ]

/-- Insertion in order of offset. -/
def insertOff (e : Nat × DirEnt) : List (Nat × DirEnt) → List (Nat × DirEnt)
  | [] => [e]
  | x :: t => if e.2.off < x.2.off then e :: x :: t else x :: insertOff e t

/-- Sections in order of offset must not overlap, and the bytes between them must be 0. -/
def Image.gapErr (x : Image) : Nat → List (Nat × DirEnt) → Option RigErr
  | pos, [] => errIf (!zeroAt x.bytes pos (x.body - pos)) 0x04 0xFFFF 0 0
  | pos, (i, d) :: t =>
    match errIf (decide (d.off < pos) || !zeroAt x.bytes pos (d.off - pos)) 0x04 i d.agent 0 with
    | some e => some e
    | none => x.gapErr (d.off + d.len) t

/-- Entries that repeat a type for an agent of a slice, or IMAGE_INFO after entry 0 (R170). -/
def dupErr : List (Nat × DirEnt) → List (Nat × Nat × Nat) → Option RigErr
  | [], _ => none
  | (i, d) :: t, seen =>
    let k := (d.sid, d.agent, d.typ)
    if d.typ != 0x0034 && (seen.contains k || (d.typ = 1 && i ≠ 0)) then some ⟨0x0A, i, d.agent, 0⟩
    else dupErr t (k :: seen)

/-- Step 1 of R188: container, header and directory, then IMAGE_DIGEST, then each CHK. -/
def Image.step1 (x : Image) : Option RigErr :=
  match x.headErr with
  | some e => some e
  | none =>
    let es := x.ents
    let d0 := x.dir 0
    firstErr
      [ es.findSome? x.dirErr,
        x.gapErr x.dirEnd ((es.filter (fun e => e.2.len ≠ 0)).foldr insertOff []),
        errIf (d0.typ != 1 || d0.sid != 0 || d0.agent != 0) 0x04 0 d0.agent 0,
        dupErr es [],
        errIf (digest ((x.bytes.take x.body).drop 64) != slice x.bytes 32 32) 0x05 0xFFFF 0 0,
        es.findSome? (fun e => errIf (leNat (shake256 4 (x.data e.2)) != e.2.chk) 0x05 e.1 e.2.agent 0) ]

/-! ### Sections (R171 to R175) -/

/-- Agent kinds, fixed record size (0: varies) and COUNT limit of a section type (Table 4 of R172, R206, R259). -/
def sectType (t : Nat) : Option (List Nat × Nat × Nat) :=
  match t with
  | 0x0001 => some ([], 64, 1)
  | 0x0002 => some ([7], 0, 1)
  | 0x0003 => some ([7], 0, 1)
  | 0x0010 => some ([2], 0, 250)
  | 0x0011 => some ([2], 8, 1024)
  | 0x0012 => some ([2], 1040, 16)
  | 0x0020 => some ([2, 3], 32, 512)
  | 0x0021 => some ([2, 3], 8, 1)
  | 0x0022 => some ([2], 192, 256)
  | 0x0030 => some ([1], 16, 256)
  | 0x0031 => some ([1], 160, 64)
  | 0x0032 => some ([1], 0, 2048)
  | 0x0033 => some ([1], 32, 450000)
  | 0x0034 => some ([1], 0, 0)
  | _ => none

/-- Whether an AGENT word keeps the rules of Table 3 (R171). -/
def agentForm (a : Nat) : Bool :=
  bits a 31 30 = 0 &&
    match agentKind a with
    | 0 => agentPart a = 0 && agentClus a = 0 && agentPort a = 0
    | 1 => agentClus a = 0 && agentPort a = 0
    | 2 => decide (agentClus a < 75) && agentPort a = 0
    | 3 => agentPart a = 0 && agentClus a = 0
    | 7 => bits a 11 0 = 0 && agentPart a = 0 && agentClus a = 0 && agentPort a = 0
    | _ => false

/-- The bytes that `n` records of a section take; none where it is no sum of records. -/
def recsLen (t : Nat) : Nat → List Byte → Option Nat
  | 0, _ => some 0
  | n + 1, b =>
    let size :=
      match t with
      | 0x0002 => 96 + 4 * leAt b 16 4
      | 0x0003 => 80 + 4 * bits (leAt b 8 4) 22 16
      | 0x0010 => if bit (leAt b 0 4) 8 then 1072 else 560
      | _ => if bit (leAt b 0 4) 3 then 32 else 112
    if b.length < size then none
    else (recsLen t n (b.drop size)).map (fun m => m + size)

/-- Whether LENGTH is the sum of COUNT records. -/
def lengthFits (d : DirEnt) (b : List Byte) : Bool :=
  if d.typ = 0x0034 then true
  else if d.len = 0 then d.count = 0
  else match sectType d.typ with
    | some (_, 0, _) => recsLen d.typ d.count b = some d.len
    | some (_, n, _) => decide (d.len = n * d.count)
    | none => false

/-- The rules of one section that stand apart from its slice (R171, R172). -/
def Image.sectErr (x : Image) (e : Nat × DirEnt) : Option RigErr :=
  let (i, d) := e
  match sectType d.typ with
  | none => some ⟨0x0A, i, d.agent, d.typ⟩
  | some (kinds, _, lim) =>
    let lim := if d.typ = 0x0020 && agentKind d.agent = 3 then 256 else lim
    firstErr
      [ errIf (d.typ != 1 && (!agentForm d.agent || !kinds.contains (agentKind d.agent))) 0x0B i d.agent 0,
        errIf (decide (lim < d.count)) 0x1C i d.agent d.count,
        errIf (!lengthFits d (x.data d)) 0x03 i d.agent 0 ]

/-- The slices an image names, ascending. -/
def Image.slices (x : Image) : List Nat :=
  (List.range 4096).filter (fun n => x.ents.any (fun e => e.2.typ ≠ 1 && e.2.sid = n))

/-- The entry of a type for a slice, addressed to every hub. -/
def Image.find (x : Image) (n typ : Nat) : Option (Nat × DirEnt) :=
  x.ents.find? (fun e => e.2.sid = n && e.2.typ = typ)

/-- IMAGE_INFO's rules (R173); `feat` is the lowest feature level of the members' firmware. -/
def Image.infoErr (x : Image) (feat : Nat) : Option RigErr :=
  let b := x.data (x.dir 0)
  let n := leAt b 6 2
  firstErr
    [ errIf (!zeroAt b 8 24) 0x18 0 0 0,
      errIf (n == 0 || decide (4096 < n) || n != x.slices.length) 0x04 0 0 n,
      errIf (decide (feat < leAt b 4 2)) 0x09 0 0 (leAt b 4 2) ]

/-- Whether module IDs rise. -/
def rising : List (Nat × Nat) → Bool
  | a :: b :: t => decide (a.1 < b.1) && rising (b :: t)
  | _ => true

/-- SLICE_MAP's rules that its bytes decide (R174). -/
def mapErr (i agent n : Nat) (delta : Bool) (b : List Byte) : Option RigErr :=
  let m := sliceMapOf b
  let nmod := leAt b 16 4
  firstErr
    [ errIf (bits (leAt b 0 4) 31 12 != 0 || bits (leAt b 4 4) 31 16 != 0 || bits (leAt b 20 4) 31 12 != 0 ||
        leAt b 88 8 != 0 || (List.range (min nmod 4096)).any (fun j => bits (leAt b (96 + 4 * j) 4) 31 28 != 0)) 0x18 i agent 0,
      errIf (nmod == 0 || decide (4096 < nmod) || m.id != n || !rising m.members ||
        (!delta && !zeroAt b 56 32)) 0x0C i agent 0 ]

/-! ### The tick schedule (R39, R41, R46, R175) -/

/-- The starts of the slots of channel k over `n` slice steps, in timebase units. -/
def TickSched.starts (x : TickSched) (n k : Nat) : List Nat :=
  (List.range n).flatMap (fun t =>
    (x.slots.filter (fun d => d.active t && (d.chans t).contains k)).map (fun d => t * x.period + d.offset))

/-- The largest gap between successive numbers of a list, given the last one seen. -/
def maxGap : Nat → List Nat → Nat
  | _, [] => 0
  | a, b :: t => max (b - a) (maxGap b t)

/-- Numbers in rising order. -/
def insertNat (a : Nat) : List Nat → List Nat
  | [] => [a]
  | b :: t => if a ≤ b then a :: b :: t else b :: insertNat a t

/-- The slice steps after which cadences and rotations repeat. -/
def TickSched.cadence (x : TickSched) : Nat := 8 * 2 ^ (x.slots.foldl (fun m d => if d.en then max m d.k else m) 0)

/-- Whether a channel's slots leave a gap of more than 32 ms, the wrap included (R41). -/
def TickSched.gapBad (x : TickSched) (k : Nat) : Bool :=
  let n := x.cadence
  match (x.starts n k).foldr insertNat [] with
  | [] => true
  | a :: t => decide (msUnits 32 < maxGap a (t ++ [a + n * x.period]))

/-- Whether two slots of one channel overlap in some tick. -/
def TickSched.overlap (x : TickSched) : Bool :=
  (List.range 4).any (fun i => (List.range i).any (fun j =>
    match x.slots[i]?, x.slots[j]? with
    | some a, some b =>
      decide (a.offset < b.offset + b.length) && decide (b.offset < a.offset + a.length) &&
        (List.range x.cadence).any (fun t =>
          a.active t && b.active t && (a.chans t).any (fun k => (b.chans t).contains k))
    | _, _ => false))

/-- TICK_SCHED's rules that its bytes decide (R39, R46, R175). -/
def schedErr (i agent : Nat) (b : List Byte) : Option RigErr :=
  let x := tickSchedOf b
  let pub := leAt b 8 4
  let w (o : Nat) := leAt b o 4
  firstErr
    [ errIf (bits (w 0) 31 20 != 0 || bits (w 4) 31 20 != 0 || bits pub 31 23 != 0 || w 12 != 0 ||
        (List.range 4).any (fun j => bits (w (16 + 16 * j)) 31 26 != 0 || bits (w (20 + 16 * j)) 31 20 != 0 ||
          bits (w (24 + 16 * j)) 31 18 != 0 || w (28 + 16 * j) != 0)) 0x18 i agent 0,
      errIf (decide (64 < bits pub 22 16) || decide (x.period < 1000) ||
        x.marks.any (fun m => decide (bits pub 15 0 < m.1))) 0x1C i agent 0,
      errIf (decide (x.weir * 50 < x.period) || decide (x.period < x.weir + 516)) 0x12 i agent 0,
      errIf (x.slots.any (fun d => d.en && (decide (10 < d.k) || decide (d.length < 500) || decide (2 ^ d.k ≤ d.phase) ||
        decide (d.offset < 16) || decide (x.period - x.weir < d.offset + d.length)))) 0x13 i agent 0,
      errIf x.overlap 0x13 i agent 0,
      errIf ((List.range 8).any x.gapBad) 0x14 i agent 0 ]

/-- Whether an agent belongs to a slice's members (R171). -/
def SliceMap.hasAgent (m : SliceMap) (a : Nat) : Bool :=
  match agentKind a with
  | 7 => true
  | 0 => m.members.any (fun e => e.1 = bits a 11 0)
  | 3 => m.members.any (fun e => e.1 = bits a 11 0)
  | _ => (m.mask (bits a 11 0)).testBit (agentPart a)

/-- The rules of one slice of an image (R171 to R175, R181 for a missing SLICE_MAP). -/
def Image.sliceErr (x : Image) (n : Nat) : Option RigErr :=
  match x.find n 0x0002 with
  | none => some ⟨0x0A, 0xFFFF, 0, n⟩
  | some (i, d) =>
    if !x.delta && (x.find n 0x0003).isNone then some ⟨0x0A, 0xFFFF, 0, n⟩
    else if d.len = 0 then none
    else
      let b := x.data d
      let m := sliceMapOf b
      firstErr
        [ mapErr i d.agent n x.delta b,
          match x.find n 0x0003 with
          | some (j, e) => if e.len = 0 then none else schedErr j e.agent (x.data e)
          | none => none,
          (x.ents.filter (fun e => e.2.sid = n && e.2.typ ≠ 1)).findSome? (fun e =>
            errIf (!m.hasAgent e.2.agent) 0x0B e.1 e.2.agent 0) ]

/-- Step 2 of R188. -/
def Image.step2 (x : Image) (feat : Nat) : Option RigErr :=
  match x.ents.findSome? x.sectErr with
  | some e => some e
  | none =>
    match x.infoErr feat with
    | some e => some e
    | none => x.slices.findSome? x.sliceErr

/-! ### Deltas and signatures (R181 to R183) -/

/-- Step 3 of R188: what a delta must not carry. The ROLES rule is each router agent's own check. -/
def Image.step3 (x : Image) : Option RigErr :=
  if !x.delta then none
  else x.ents.findSome? (fun e =>
    let t := e.2.typ
    errIf (t = 0x0030 || t = 0x0033 || t = 0x0034 || ((t = 0x0002 || t = 0x0003) && e.2.len = 0)) 0x0F e.1 e.2.agent 0)

/-- Whether a public key's digest is enrolled with a kind (R441): 1 RIGGING, 2 MANIFEST, 3 AUTH. -/
def State.enrolled (s : State) (kind : Nat) (pub : List Byte) : Bool :=
  s.nor.keySlots.any (fun e => e.2.1 = kind && e.2.2 = digest pub)

/-- The form of a signature block (Table 7 of R182): magic, algorithm, lengths and reserved bytes. -/
def sigForm (g : List Byte) : Option Nat :=
  if leAt g 0 4 ≠ 0x47495344 then some 0x01
  else if leAt g 4 4 ≠ 1 then some 0x02
  else if leAt g 72 4 ≠ 29792 then some 0x03
  else if !zeroAt g 76 52 then some 0x18
  else none

/-- Whether the signature of a block verifies over a message (R182). -/
def sigGood (g msg : List Byte) : Bool := Config.slhVerify256s (slice g 8 64) msg (slice g 128 29792)

/-- Step 4 of R188: the signature (R182, R183). -/
def State.imageSigErr (s : State) (x : Image) : Option RigErr :=
  if !x.signed then errIf (s.flag RIG_CTL.REQ_SIG) 0x06 0xFFFF 0 0
  else
    let g := slice x.bytes x.sigOff 29920
    match sigForm g with
    | some c => some ⟨c, 0xFFFF, 0, 0⟩
    | none =>
      if !sigGood g (x.bytes.take x.sigOff) then some ⟨0x07, 0xFFFF, 0, 0⟩
      else errIf (!s.enrolled 1 (slice g 8 64)) 0x08 0xFFFF 0 0

end Sys2Proof.Machine
end

