-- ==== Sys2Proof/Machine/Mesh.lean ====
section
/-! DEFINITION. Geometry: router positions and attachments (R199 to R203); and which installation manifests are accepted (R250, R315,
R316). -/

namespace Sys2Proof

/-- The die of a router position. -/
def RouterId.die (r : RouterId) : Nat := r.y.val / 8 * 4 + r.x.val / 10
/-- The physical position of a router within its die: 10y + x (log entry 16). -/
def RouterId.pos (r : RouterId) : Nat := r.y.val % 8 * 10 + r.x.val % 10

end Sys2Proof

namespace Sys2Proof.Machine

/-! ### The mesh -/

/-- Module coordinates of physical position q of die d (R199). -/
def meshXY (d q : Nat) : Nat × Nat := (10 * (d % 4) + q % 10, 8 * (d / 4) + q / 10)

/-- The die and position of module coordinates. -/
def meshDP (x y : Nat) : Nat × Nat := (y / 8 * 4 + x / 10, y % 8 * 10 + x % 10)

/-- The router number of a die's position. -/
def meshKey (d q : Nat) : Nat := (meshXY d q).2 * 40 + (meshXY d q).1

/-- The router of a number. -/
def rtrXY (k : Nat) : Nat × Nat := (k % 40, k / 40)

/-- The logical cluster at a physical position, if any. -/
def State.logClus (s : State) (d q : Nat) : Option Nat := firstBelow 75 (fun c => s.physClus d c = q)

/-- The router number of a logical cluster. -/
def State.clusRtr (s : State) (k : Nat) : Nat := meshKey (k / 75) (s.physClus (k / 75) (k % 75))

/-- The neighbour across mesh port code 0 N, 1 E, 2 S, 3 W. -/
def meshNext (x y code : Nat) : Option (Nat × Nat) :=
  match code with
  | 0 => if 0 < y then some (x, y - 1) else none
  | 1 => if x < 39 then some (x + 1, y) else none
  | 2 => if y < 31 then some (x, y + 1) else none
  | 3 => if 0 < x then some (x - 1, y) else none
  | _ => none

/-- The opposite mesh port code. -/
def meshBack (code : Nat) : Nat := (code + 2) % 4

/-- The port die whose edge attaches at an outward port, if any (Table 2). -/
def portDieAt (x y code : Nat) : Option Nat :=
  let dx := x % 10
  let dy := y % 8
  match code with
  | 0 => if y = 0 && (dx = 2 || dx = 7) then some 0 else none
  | 1 => if x = 39 && (dy = 2 || dy = 5) then some 1 else none
  | 2 => if y = 31 && (dx = 2 || dx = 7) then some 2 else none
  | 3 => if x = 0 && (dy = 2 || dy = 5) then some 3 else none
  | _ => none

/-- The routers at which a port die attaches, with their outward port codes. -/
def portDieRtrs (pd : Nat) : List (Nat × Nat × Nat) :=
  match pd with
  | 0 => (List.range 4).flatMap (fun d => [(10 * d + 2, 0, 0), (10 * d + 7, 0, 0)])
  | 1 => (List.range 4).flatMap (fun d => [(39, 8 * d + 2, 1), (39, 8 * d + 5, 1)])
  | 2 => (List.range 4).flatMap (fun d => [(10 * d + 2, 31, 2), (10 * d + 7, 31, 2)])
  | _ => (List.range 4).flatMap (fun d => [(0, 8 * d + 2, 3), (0, 8 * d + 5, 3)])

/-- Whether the hub die attaches at a router (Table 2). -/
def hubAt (x y : Nat) : Bool := (x, y) = (19, 15) || (x, y) = (20, 15) || (x, y) = (19, 16) || (x, y) = (20, 16)

/-- Primary and alternate positions of channel k's router (Table 2). -/
def memPos (k : Nat) : Nat × Nat :=
  if k < 4 then (10 * 1 + (2 * k + 1), 10 * 2 + (2 * k + 1)) else (10 * 6 + (2 * k - 7), 10 * 5 + (2 * k - 7))

/-- The position whose router serves channel k of a partition: the alternate while the primary is in bypass (R201). -/
def State.memRtr (s : State) (p k : Nat) : Nat :=
  let (a, b) := memPos k
  if (s.pt p).bypass.contains a then b else a

/-- Units per cycle of a router's port (Table 1). -/
def portRate (x y code : Nat) : Nat :=
  if (portDieAt x y code).isSome then 5
  else match code with
    | 1 => if x % 10 = 9 then 5 else 4
    | 3 => if x % 10 = 0 then 5 else 4
    | 4 => 8
    | 5 => 1
    | 6 => 5
    | _ => 4

/-- Whether a router has the port of a code. Every router has a LOCAL port, that of a spare or fused-out cluster too (R199, R200); a
position in bypass has no LOCAL, MEM or HUB port (R202). -/
def State.hasPort (s : State) (x y code : Nat) : Bool :=
  let (d, q) := meshDP x y
  if code < 4 then (meshNext x y code).isSome || (portDieAt x y code).isSome
  else if s.inBypass d q then false
  else match code with
    | 4 => true
    | 5 => (List.range 8).any (fun k => s.memRtr d k = q)
    | 6 => hubAt x y
    | _ => false

/-- Pairs of a list, earlier before later. -/
def pairs {α : Type} : List α → List (α × α)
  | [] => []
  | a :: t => t.map (fun b => (a, b)) ++ pairs t

/-- Whether a module record's granules are disjoint and at most 8 a port (R316). -/
def granOk (r : List Byte) : Bool :=
  let ps := (List.range 16).map (manPort r) |>.filter (fun p => p.present)
  ps.all (fun p => decide (popBits 36 p.gran ≤ 8)) && (pairs ps).all (fun x => x.1.gran &&& x.2.gran = 0)

/-- Whether a manifest's form, groups, modules and cables are accepted (R250, R315, R316). -/
def manForm (b : List Byte) : Bool :=
  let rs := (List.range (manMods b)).map (manMod b)
  let gs := (List.range (manGroups b)).map (manGroup b)
  leAt b 0 4 = 0x4E414D44 && leAt b 4 2 = 1 && decide (1 ≤ manGroups b) && decide (manGroups b ≤ 64) &&
    decide (1 ≤ manMods b) && decide (manMods b ≤ 4096) && leAt b 24 8 = b.length &&
    (if manSigned b then leAt b 32 8 + 29920 = b.length else leAt b 32 8 = 0) &&
    bits (leAt b 6 2) 15 1 = 0 && leAt b 22 2 = 0 && zeroAt b 40 24 &&
    decide (manBase b + 320 * manMods b ≤ manBody b) &&
    (pairs gs).all (fun x => x.1.1 ≠ x.2.1) && gs.all (fun g => g.2.1 ≠ 3 && g.2.2.1 ≠ g.2.2.2) &&
    rising (rs.map (fun r => (modRecId r, 0))) && (pairs rs).all (fun x => slice x.1 0 32 != slice x.2 0 32) &&
    rs.all (fun r =>
      let m := modRecId r
      decide (modPos m < manSize b (modGroup m)) && granOk r &&
        (List.range 16).all (fun c => cableOk b m c (manPort r c))) &&
    gs.all (fun g => (manMembers b g.1).length = manSize b g.1)

/-- Whether a manifest's signature is accepted (R315). -/
def State.manSigOk (s : State) (b : List Byte) : Bool :=
  if manSigned b then
    let o := leAt b 32 8
    let g := slice b o 29920
    (sigForm g).isNone && sigGood g (b.take o) && s.enrolled 2 (slice g 8 64)
  else !s.flag FAB_MGR_CTL.MAN_REQ_SIG

end Sys2Proof.Machine
end

