-- ==== Sys2Proof/Machine/Checks.lean ====
section
/-! DEFINITION. What each agent checks of its sections before it writes its shadow: core configurations (R104 to R131, R139,
R176, R502), dispatch and function tables (R177), strands (R206 to R208, R236, R237, R270), port limits (R259), trees
(R278 to R281), regions, recipes, jobs and weight loads (R151 to R158, R178 to R180). -/

namespace Sys2Proof.Machine

/-- An error code with its item. -/
abbrev ItemErr := Option (Nat × Nat)

/-- An error where `c` holds. -/
def bad (c : Bool) (code aux : Nat) : ItemErr := if c then some (code, aux) else none

/-- The first error of a list. -/
def first : List ItemErr → ItemErr
  | [] => none
  | some e :: _ => some e
  | none :: t => first t

/-! ### Regions of a core (R104, R105, R111, R112) -/

/-- A region: first unit, units, and whether `roles` limits the roles it may lie in. -/
structure Reach where
  u     : Nat
  n     : Nat
  roles : List Nat
  deriving DecidableEq, Repr

/-- Units of an IEEE region. -/
def ieeeUnits (fmt e : Nat) : Nat := ceilDiv (e * (fmtBits fmt / 8)) 32

/-- Units of a region of `rows` rows of `width` elements. -/
def regionUnits (c : CoreCfg) (fmt u rows width : Nat) (rowed : Bool) : Nat :=
  if isHank fmt then
    let k := width / 32
    let hb := hankBytes fmt
    if rowed then (rows - 1) * c.rowStride u k hb + segUnits k hb else packedUnits (rows * k) hb
  else ieeeUnits fmt (rows * width)

/-- The banks of a region. -/
def Reach.banks (r : Reach) : List Nat := (List.range ((r.u + max r.n 1 - 1) / 256 + 1 - r.u / 256)).map (fun i => r.u / 256 + i)

/-- Whether a region keeps R104, R105 and R112. -/
def Reach.ok (c : CoreCfg) (r : Reach) : Bool :=
  let b := r.u / 256
  let role := c.role b
  decide (r.u + max r.n 1 ≤ 6144) && role ≠ 0 && (r.roles.isEmpty || r.roles.contains role) &&
    (if rolePair role then b % 2 = 0 && decide (r.u % 256 + max r.n 1 ≤ 256)
     else r.banks.all (fun x => c.role x = role))

/-- Whether two regions share a unit. -/
def Reach.meets (a b : Reach) : Bool := decide (a.u < b.u + b.n) && decide (b.u < a.u + a.n)

/-! ### Descriptor fields (R113, R502) -/

/-- Whether an entry's result goes through FMT_D and ADDR_D. -/
def Desc.writes (d : Desc) : Bool :=
  match d.op with
  | 1 | 2 | 6 => d.rdo
  | 3 | 4 | 5 | 7 => true
  | 8 => d.sub = 0
  | _ => false

/-- Whether a VEC code reads B. -/
def Desc.vecB (d : Desc) : Bool := d.op = 4 && decide (d.sub % 16 < 6)

/-- The fields an operation does not use hold 0 (Table 5a). -/
def Desc.unusedZero (d : Desc) : Bool :=
  let op := d.op
  let mat := 1 ≤ op && op ≤ 3
  let comp := 1 ≤ op && op ≤ 7
  let hankA := isHank d.fmtA
  let hankD := isHank d.fmtD
  let a := comp || (op = 8 && d.sub ≠ 2) || op = 9 || (op = 11 && d.sub = 0)
  let fa := comp || op = 9 || (op = 11 && d.sub = 0)
  let b := mat || d.vecB
  let w := d.writes
  let fd := w && op ≠ 8
  let smode := fd && hankD && (op = 1 || op = 2 || op = 7)
  let x := (mat && d.muEn) || (op = 4 && d.sub % 16 = 3) || op = 9 || (op = 10 && d.imm = 2)
  let rcv := comp || op = 8 || op = 9
  let outEn := w
  d.rsv = 0 &&
  (fa || d.fmtA = 0) && (b || d.fmtB = 0) && (fd || d.fmtD = 0) && (fd || d.rnd = 0) && (smode || !d.smode) &&
  ((op = 1 || op = 2 || op = 6) || (!d.clr && !d.rdo)) &&
  (comp || d.trap = 0) && ((mat || op = 6) || !d.trap.testBit 2) &&
  (a || d.addrA = 0) && (b || d.addrB = 0) && (w || d.addrD = 0) && (x || d.addrX = 0) &&
  ((comp || op = 8 || op = 9 || (op = 11 && d.sub = 0)) || d.cntK = 0) && (rcv || d.cntR = 0) && (mat || d.cntN = 0) &&
  ((rcv && d.useRcv) || (op = 8 && d.sub = 2) || (op = 11 && d.sub = 1) || !d.pin) &&
  ((outEn && d.outEn) || (op = 8 && d.sub ≠ 0) || op = 9 || (op = 10 && d.imm = 0) || !d.pout) &&
  (outEn || !d.outEn) && (rcv || !d.useRcv) &&
  ((4 ≤ op && op ≤ 9) || op = 11 || d.sub = 0) &&
  ((d.smode && smode) || op = 10 || op = 11 || d.imm = 0) && (mat || !d.muEn) &&
  (((mat || op = 6 || op = 7 || op = 9 || (op = 11 && d.sub = 0)) && hankA) || !d.layA) &&
  ((fd && hankD && (op = 1 || op = 2 || op = 7)) || !d.layD)

/-- Reserved codes of an entry: OP, formats, RND, SUB, WAIT modes, FIXED scales (R76, R96, R121, R123 to R130). -/
def Desc.reserved (d : Desc) : Bool :=
  let fd := d.writes && d.op ≠ 8
  decide (11 < d.op) || !d.unusedZero ||
  ((1 ≤ d.op && d.op ≤ 7 || d.op = 9 || (d.op = 11 && d.sub = 0)) && !fmtKnown d.fmtA) ||
  (((1 ≤ d.op && d.op ≤ 3) || d.vecB) && !fmtKnown d.fmtB) || (fd && !fmtKnown d.fmtD) || d.rnd = 3 ||
  (d.smode && (d.imm = 0 || d.imm = 0xFF)) ||
  (match d.op with
   | 4 => decide (7 < d.sub % 16) || bits d.sub 7 6 ≠ 0 || (d.sub.testBit 4 && !d.vecB) ||
          (d.sub.testBit 5 && d.sub % 16 ≠ 3)
   | 5 => decide (15 < d.sub)
   | 6 => decide (3 < d.sub)
   | 7 => decide (1 < d.sub)
   | 8 => decide (2 < d.sub)
   | 9 => decide (7 < d.sub) || (d.sub.testBit 0 && d.sub.testBit 1)
   | 10 => decide (2 < d.imm)
   | 11 => decide (1 < d.sub)
   | _ => false)

/-- Whether two formats may be multiplied (R81). -/
def pairFmt (a b : Nat) : Bool := (isHank a && isHank b) || (a = b && (a = 8 || a = 9))

/-- The limits of counts and formats of an entry (R116 to R124, R130). -/
def Desc.range (d : Desc) : Bool :=
  let width := if d.op = 2 then 32 * d.k else 16 * d.n
  match d.op with
  | 1 | 2 | 3 =>
    pairFmt d.fmtA d.fmtB && decide (d.r ≤ 64) && (d.op ≠ 2 || d.n % 2 = 0) &&
      (!(d.op ≠ 3 && d.rdo && isHank d.fmtD) || width % 32 = 0) && (d.op ≠ 3 || d.fmtD = 8 || d.fmtD = 10) &&
      (d.op = 3 || d.rdo || decide (d.r * width ≤ 1024))
  | 4 => isIeee d.fmtA && isIeee d.fmtD && (!d.vecB || isIeee d.fmtB)
  | 5 => isIeee d.fmtA && isIeee d.fmtD
  | 6 => (if d.sub = 0 || d.sub = 3 then pairFmt d.fmtA d.fmtA else true) && (!d.rdo || isIeee d.fmtD)
  | 7 => !d.sub.testBit 0 || d.r % 32 = 0
  | 11 => d.sub ≠ 0 || isHank d.fmtA
  | _ => true

/-! ### Regions of an entry -/

/-- The operand regions an entry reads. -/
def Desc.reads (c : CoreCfg) (d : Desc) : List Reach :=
  let e := 32 * d.k * d.r
  match d.op with
  | 1 | 2 | 3 =>
    let aw := if d.op = 2 then 16 * d.n else 32 * d.k
    [⟨d.addrA, regionUnits c d.fmtA d.addrA d.r aw d.layA, []⟩,
     ⟨d.addrB, regionUnits c d.fmtB d.addrB (16 * d.n) (32 * d.k) false, if d.op = 3 then [] else [1]⟩]
  | 4 =>
    [⟨d.addrA, ieeeUnits d.fmtA e, []⟩] ++
      (if d.vecB && !d.sub.testBit 4 then [⟨d.addrB, ieeeUnits d.fmtB e, []⟩] else []) ++
      (if d.sub % 16 = 3 && !d.sub.testBit 5 then [⟨d.addrX, ieeeUnits d.fmtD e, []⟩] else [])
  | 5 => [⟨d.addrA, ieeeUnits d.fmtA e, []⟩]
  | 6 | 7 => [⟨d.addrA, regionUnits c d.fmtA d.addrA d.r (32 * d.k) d.layA, []⟩]
  | 8 => if d.sub = 2 then [] else [⟨d.addrA, d.k * d.r, []⟩]
  | 9 =>
    let q := if d.sub.testBit 0 then 8 else if d.sub.testBit 1 then 2 else 1
    [⟨d.addrA, regionUnits c d.fmtA d.addrA d.r (32 * d.k) d.layA, []⟩, ⟨d.addrX, ceilDiv (q * d.r) 32, []⟩]
  | 11 => if d.sub = 0 then [⟨d.addrA, regionUnits c d.fmtA d.addrA 1 (32 * d.k) d.layA, [1, 2, 3]⟩] else []
  | _ => []

/-- The single units an entry reads besides: μ, and a scalar B or X (R139). -/
def Desc.scalars (d : Desc) : List Reach :=
  (if d.muEn then [⟨d.addrX, 1, []⟩] else []) ++
    (if d.vecB && d.sub.testBit 4 then [⟨d.addrB, 1, []⟩] else []) ++
    (if d.op = 4 && d.sub % 16 = 3 && d.sub.testBit 5 then [⟨d.addrX, 1, []⟩] else [])

/-- The region an entry writes: never a WEIGHT or INPUT bank (R112); OUTER writes an ACC bank (Table 6). -/
def Desc.dest (c : CoreCfg) (d : Desc) : List Reach :=
  if !d.writes then []
  else
    let e := 32 * d.k * d.r
    match d.op with
    | 1 | 2 | 3 =>
      let width := if d.op = 2 then 32 * d.k else 16 * d.n
      [⟨d.addrD, regionUnits c d.fmtD d.addrD d.r width d.layD, if d.op = 3 then [4] else [3, 4, 5]⟩]
    | 4 | 5 => [⟨d.addrD, ieeeUnits d.fmtD e, [3, 4, 5]⟩]
    | 6 => [⟨d.addrD, ieeeUnits d.fmtD d.r, [3, 4, 5]⟩]
    | 7 =>
      let n := if d.sub.testBit 0 then regionUnits c d.fmtD d.addrD (32 * d.k) d.r d.layD
        else regionUnits c d.fmtD d.addrD d.r (32 * d.k) d.layD
      [⟨d.addrD, n, [3, 4, 5]⟩]
    | _ => [⟨d.addrD, d.k * d.r, [3, 4, 5]⟩]

/-- Whether a read region and the destination break R112: they overlap and are not in place. -/
def Desc.clash (d : Desc) (r w : Reach) : Bool :=
  r.meets w && !((d.op = 4 || d.op = 5 || d.op = 7) && r.u = w.u && decide (w.n ≤ r.n))

/-- The regions of an entry, given the SCRATCH banks that earlier entries wrote. -/
def Desc.regionsOk (c : CoreCfg) (scratch : List Nat) (d : Desc) : Bool :=
  let rs := d.reads c
  let ss := d.scalars
  let ws := d.dest c
  rs.all (Reach.ok c) && ss.all (Reach.ok c) && ws.all (Reach.ok c) &&
    (rs ++ ss).all (fun r => c.role (r.u / 256) ≠ 5 || r.banks.all scratch.contains) &&
    (pairs rs).all (fun p => p.1.banks.all (fun b => !p.2.banks.contains b)) &&
    rs.all (fun r => ws.all (fun w => !d.clash r w))

/-- Whether an entry writes an ACC bank. -/
def Desc.writesAcc (c : CoreCfg) (d : Desc) : Bool := (d.dest c).any (fun w => c.role (w.u / 256) = 4)

/-! ### A step table -/

/-- The run left open before an entry: class, R, S and formats (R115). -/
abbrev OpenRun := Option (Nat × Nat × Nat × Nat × Nat)

/-- Whether an entry breaks R115, and the run it leaves open. -/
def Desc.runSeq (d : Desc) (run : OpenRun) : Bool × OpenRun :=
  let me := (d.op, d.r, d.n, d.fmtA, d.fmtB)
  let uses := d.op = 1 || d.op = 2 || d.op = 6
  let broken := match run with
    | some x => !uses || d.clr || x ≠ me
    | none => uses && !d.clr
  (broken, if uses && !d.rdo then some me else none)

/-- The entries of a table from index i, up to END. A table whose run is still open at END is refused with RUN_SEQ: R115 asks for a
continuing entry and does not name END (DESIGN CHOICE, log entry 23). -/
def tableErr (c : CoreCfg) (base nfunc : Nat) : Nat → List Desc → List Nat → OpenRun → ItemErr
  | i, [], _, _ => some (0x1B, base + i)
  | i, d :: t, scratch, run =>
    let aux := base + i
    if d.op = 0 then
      first [bad (!d.unusedZero) 0x18 aux, bad run.isSome 0x1A aux]
    else
      match first
        [ bad d.reserved 0x18 aux, bad (!d.range) 0x1C aux,
          bad (d.op = 5 && decide (nfunc ≤ d.sub % 16)) 0x1E aux,
          bad (d.op = 9 && decide (1024 < sendBytes d)) 0x1D aux,
          bad (!d.regionsOk c scratch) 0x19 aux,
          bad (d.op = 6 && !d.rdo && decide (1024 < d.r)) 0x1C aux,
          bad (d.runSeq run).1 0x1A aux,
          bad (d.op = 11 && (d.imm = 0 || decide (31 < d.imm))) 0x1B aux,
          bad (d.op = 11 && !((t.take d.imm).length = d.imm && (t.take d.imm).all (fun x => x.op ≠ 0))) 0x1B aux,
          bad (d.op = 11 && d.sub = 1 && (t.take d.imm).any (Desc.writesAcc c)) 0x1B aux ] with
      | some e => some e
      | none =>
        let sw := (d.dest c).flatMap (fun w => if c.role (w.u / 256) = 5 then w.banks else [])
        tableErr c base nfunc (i + 1) t (scratch ++ sw) (d.runSeq run).2

/-- The dense cycle count of a table at a clock in MHz (R131). -/
def denseCycles (len clock : Nat) : List Desc → Nat → Nat
  | [], n => n
  | d :: t, n =>
    if d.op = 0 then n
    else if d.op = 10 && d.imm = 2 then denseCycles len clock t (max (n + 1) (ceilDiv ((16 * d.addrX - 32) * clock) 1000))
    else denseCycles len clock t (n + entryCycles { d with useRcv := false } d.r len)

/-! ### A core's record (R107, R176) -/

/-- An in-port word (R107, Table 3). -/
def inWordErr (c : CoreCfg) (raw i : Nat) : ItemErr :=
  let w := inWordOf raw
  let b := w.base / 256
  first
    [ bad (w.rsv != 0 || w.mode = 3) 0x18 i,
      bad (w.cap = 0 && raw != 0) 0x1C i,
      bad (w.cap != 0 && (w.stride = 0 || decide (256 < w.stride))) 0x1C i,
      bad (w.cap != 0 && (b % 2 != 0 || decide (8 ≤ b) || c.role b != 2 ||
        decide (256 * b + 256 < w.base + w.cap * w.stride))) 0x19 i,
      bad (w.cap != 0 && (w.mode = 1 || w.mode = 2) && (decide (w.tagBase < 256 * b) ||
        decide (32 * (256 * b + 256) < 32 * w.tagBase + 8 * w.cap))) 0x19 i ]

/-- The roles of a core's banks (R105). -/
def rolesErr (c : CoreCfg) : ItemErr :=
  first
    [ bad ((List.range 24).any (fun b => decide (5 < c.role b))) 0x18 0,
      bad ((List.range 12).any (fun k =>
        let x := c.role (2 * k)
        let y := c.role (2 * k + 1)
        (rolePair x || rolePair y) && (x != y || (x = 2 && decide (4 ≤ k))))) 0x19 0 ]

/-- A CORE_CFG record: 16-byte head, header, in-port words and tables; `cycles` is the compute interval at the slice's
clock. -/
def coreErr (clock cycles nfunc : Nat) (rec_ : List Byte) : ItemErr :=
  let w := leAt rec_ 0 4
  let c := coreCfgOf (bit w 8) (rec_.drop 16)
  let dense (t : List Desc) := denseCycles c.dispLen clock t 0
  first
    [ bad (bits w 31 9 != 0 || !zeroAt rec_ 4 12 || c.hdrRsv != 0) 0x18 (bits w 7 0),
      bad (decide (249 < bits w 7 0)) 0x1C (bits w 7 0),
      rolesErr c, inWordErr c (leAt rec_ 32 8) 0, inWordErr c (leAt rec_ 40 8) 1,
      bad (c.dispLen != 0 && decide (1023 < c.dispBase + c.dispLen - 1)) 0x1D (bits w 7 0),
      tableErr c 0 nfunc 0 c.main [] none,
      if c.hasPub then tableErr c 32 nfunc 0 c.pubT [] none else none,
      bad (decide (cycles < dense c.main)) 0x15 (dense c.main),
      bad (c.hasPub && decide (cycles < dense c.pubT)) 0x15 (dense c.pubT) ]

/-- The raw records of a CORE_CFG section. -/
def coreRaw : Nat → List Byte → List (List Byte)
  | 0, _ => []
  | f + 1, b =>
    if b.isEmpty then []
    else
      let n := if bit (leAt b 0 4) 8 then 1072 else 560
      slice b 0 n :: coreRaw f (b.drop n)

/-- Whether logical cores rise. -/
def coresRise : List (List Byte) → Bool
  | a :: b :: t => decide (bits (leAt a 0 4) 7 0 < bits (leAt b 0 4) 7 0) && coresRise (b :: t)
  | _ => true

/-- A CORE_CFG section. -/
def coreSectErr (clock cycles nfunc : Nat) (x : Sect) : ItemErr :=
  let rs := coreRaw x.count x.bytes
  first
    [ bad (!coresRise rs) 0x04 0,
      rs.findSome? (coreErr clock cycles nfunc) ]

/-! ### DISPATCH, FUNC_TABLE, ROUTE -/

/-- A DISPATCH section: reserved bits. -/
def dispatchErr (x : Sect) : ItemErr :=
  (List.range x.count).findSome? (fun i => bad (bits (leAt (x.item 8 i) 0 8) 63 33 != 0) 0x18 i)

/-- A FUNC_TABLE section (R122, R177). -/
def funcErr (x : Sect) : ItemErr :=
  (List.range x.count).findSome? (fun i =>
    let b := x.item 1040 i
    let w := leAt b 0 4
    let v (j : Nat) := ieeeVal 10 (leAt b (4 * j) 4)
    first
      [ bad (bits w 31 4 != 0) 0x18 i,
        bad (decide (5 < w) || (List.range 259).any (fun j => !(v (j + 1)).isFin) ||
          ((w = 0 || w = 5) && decide ((v 2).rat ≤ (v 1).rat))) 0x1E i ])

/-- A ROUTE section (R259). -/
def routeErr (x : Sect) : ItemErr :=
  if x.count = 0 then none
  else first [bad (bits (leAt x.bytes 0 4) 31 17 != 0 || leAt x.bytes 4 4 != 0) 0x18 0,
              bad (bits (leAt x.bytes 0 4) 15 0 = 0) 0x23 0]

/-! ### Regions, recipes and jobs -/

/-- A MEM_REGIONS section (R178). -/
def regionSectErr (x : Sect) : ItemErr :=
  let rs := regionsOf x
  first
    [ (List.range x.count).findSome? (fun i =>
        let b := x.item 16 i
        let r := rs.getD i ⟨0, 0, 0, 0⟩
        first
          [ bad (bits (leAt b 0 4) 31 7 != 0 || leAt b 12 4 != 0 || decide (7 < r.typ)) 0x18 i,
            bad (r.base % 8 != 0 || r.len % 8 != 0 || decide (0x7000000 < r.base + r.len) ||
              (r.typ = 5 && r.len % 257 != 0)) 0x21 i ]),
      bad ((pairs rs).any (fun p => p.1.ch = p.2.ch && decide (p.1.base < p.2.base + p.2.len) &&
        decide (p.2.base < p.1.base + p.1.len))) 0x21 0 ]

/-- Operands a recipe operation uses: A, B, C, D. -/
def opcUses (opc : Nat) : List Bool :=
  match opc with
  | 0 | 1 => [true, true, false, false]
  | 2 => [true, true, true, false]
  | 6 => [true, true, true, false]
  | 8 => [true, true, true, true]
  | _ => [true, false, false, false]

/-- The operand fields of an operation word. -/
def opcOperands (w : Nat) : List Nat := [bits w 13 8, bits w 19 14, bits w 25 20, bits w 31 26]

/-- Whether operation i of a recipe is well formed (R152, R153). -/
def opcOk (r : Recipe) (i w : Nat) : Bool :=
  let opc := bits w 3 0
  let sub := bits w 7 4
  let operand (u : Bool) (c : Nat) : Bool :=
    if !u then c = 0
    else if c < 8 then r.inFmt.getD c 0xF ≠ 0xF
    else if c < 0x20 then true
    else if c < 0x30 then decide (c - 0x20 < i)
    else decide (c ≤ 0x31)
  decide (opc ≤ 8) &&
    (match opc with
     | 1 | 2 => decide (sub ≤ 1)
     | 8 => decide (sub ≤ 5)
     | _ => sub = 0) &&
    ((opcUses opc).zip (opcOperands w)).all (fun p => operand p.1 p.2)

/-- Whether a publication output in a hank format names a FIXED scale code that R93 reserves. -/
def fixedBad (p : Nat) : Bool :=
  isHank (bits p 7 4) && bit p 10 && (bits p 19 12 = 0 || bits p 19 12 = 0xFF)

/-- A RECIPE section (R93, R151, R152). -/
def recipeErr (x : Sect) : ItemErr :=
  (List.range x.count).findSome? (fun i =>
    let b := x.item 160 i
    let r := recipeOf b
    let outOk (o : Nat) : Bool :=
      bits o 15 11 = 0 && (!bit o 10 || (decide (bits o 3 0 < r.nops) && isIeee (bits o 7 4) && bits o 9 8 ≠ 3))
    let p := r.pub
    let pubOk : Bool := bits p 31 20 = 0 && (!bit p 11 || (decide (bits p 3 0 < r.nops) &&
      (isHank (bits p 7 4) || bits p 7 4 = 8) && bits p 9 8 ≠ 3 && !fixedBad p))
    bad (bits (leAt b 0 4) 31 5 != 0 || r.nops = 0 || decide (16 < r.nops) || !zeroAt b 20 12 ||
      r.inFmt.any (fun f => !(isIeee f || f = 0xF)) || r.outs.any (fun o => !outOk o) || !pubOk ||
      (List.range 16).any (fun j => if j < r.nops then !opcOk r j (r.ops.getD j 0) else r.ops.getD j 0 != 0)) 0x1F i)

/-- Bytes an output or input of `n` elements takes. -/
def streamBytes (fmt n : Nat) : Nat := n * (fmtBits fmt / 8)

/-- Bytes of a publication output of `n` elements: hank segments, or bfloat16. -/
def pubBytes (fmt n : Nat) : Nat := if isHank fmt then 32 * packedUnits (n / 32) (hankBytes fmt) else 2 * n

/-- Whether `len` bytes at a 64-byte unit lie in one region of a type of `types` on channel k. -/
def inRegion (rs : List Region) (k : Nat) (types : List Nat) (base len : Nat) : Bool :=
  rs.any (fun r => r.ch = k && types.contains r.typ && decide (r.base ≤ base) &&
    decide (64 * base + len ≤ 64 * (r.base + r.len)))

/-- Tiles a publication output of `n` elements fills. -/
def pubTiles (fmt n : Nat) : Nat := ceilDiv (pubBytes fmt n) 8192

/-- Slice steps a run of an update job spans: its work ticks and the publication ticks it skips (R156). -/
def spanFrom (pub : Nat → Bool) : Nat → Nat → Nat → Nat
  | 0, _, _ => 0
  | f + 1, need, t =>
    if need = 0 then 0
    else if pub t then 1 + spanFrom pub f need (t + 1)
    else if need = 1 then 1
    else 1 + spanFrom pub f (need - 1) (t + 1)

/-- The elements and elements a tick, START and CYCLE of an update job. -/
def Job.when : Job → Option (Nat × Nat × Nat × Nat)
  | .update _ _ _ _ n q st cy _ _ _ _ _ _ => some (n, q, st, cy)
  | .publish _ _ _ => none

/-- The slice steps after which a job and the publication ticks repeat together. -/
def Job.period (cyc : Nat) (j : Job) : Nat :=
  match j.when with
  | some (_, _, _, cy) => Nat.lcm cyc cy
  | none => cyc

/-- The steps at which a run under way covers slice step `t`: the span of the latest run covers it. -/
def Job.active (pub : Nat → Bool) (j : Job) (t : Nat) : Bool :=
  match j.when with
  | some (n, q, st, cy) =>
    let b := (t + cy - st) % cy
    decide (b ≤ t) && decide (b < spanFrom pub (cy + 1) (ceilDiv n (max q 1)) (t - b))
  | none => false

/-- Whether some run of an update job would last longer than its CYCLE (R156). -/
def Job.tooLong (pub : Nat → Bool) (cyc : Nat) (j : Job) : Bool :=
  match j.when with
  | some (n, q, st, cy) =>
    (List.range (Nat.lcm cyc cy / cy)).any (fun i =>
      decide (cy < spanFrom pub (cy + 1) (ceilDiv n (max q 1)) (st + i * cy)))
  | none => false

/-- Whether two update jobs of one engine share a slice step (R156). -/
def Job.overlap (pub : Nat → Bool) (cyc : Nat) (a b : Job) : Bool :=
  match a.when, b.when with
  | some _, some _ =>
    let per := Nat.lcm (a.period cyc) (b.period cyc)
    (List.range (2 * per)).any (fun t => a.active pub t && b.active pub t)
  | _, _ => false

/-- An update job of engine k (R155, R156, R179). -/
def updateErr (rs : List Region) (rcps : List Recipe) (pub : Nat → Bool) (cyc k i : Nat) (w : List Byte) : ItemErr :=
  match jobOf 0 w with
  | .publish _ _ _ => none
  | .update rcp _ _ _ n q st cy ins outs pubBase paramBase _ _ =>
    let r := rcps.getD rcp (recipeOf [])
    let pubEn := bit r.pub 11
    let pfmt := bits r.pub 7 4
    let rsv := bits (leAt w 0 4) 31 9 != 0 || bits (leAt w 8 4) 31 16 != 0 || bits (leAt w 72 4) 31 12 != 0 || !zeroAt w 80 16
    let insOk := (List.range 8).all (fun j =>
      let f := r.inFmt.getD j 0xF
      f = 0xF || inRegion rs k [1, 2, 3, 7] (ins.getD j 0) (streamBytes f n))
    let outsOk := (List.range 4).all (fun j =>
      let o := r.outs.getD j 0
      !bit o 10 || inRegion rs k [1, 2, 3, 7] (outs.getD j 0) (streamBytes (bits o 7 4) n))
    let pubOk := !pubEn || (inRegion rs k [5] pubBase (tileBytes * pubTiles pfmt n) &&
      rs.any (fun x => x.ch = k && x.typ = 5 && decide (x.base ≤ pubBase) && decide (pubBase < x.base + x.len) &&
        (pubBase - x.base) % 257 = 0))
    let j := jobOf 0 w
    first
      [ bad rsv 0x18 i,
        bad (decide (rcps.length ≤ rcp) || n = 0 || decide (q < 32) || decide (65504 < q) || decide (cy ≤ st) ||
          (pubEn && (n % 32 != 0 || q % 32 != 0)) || !insOk || !outsOk || !pubOk ||
          !inRegion rs k [7] paramBase 32 || j.tooLong pub cyc) 0x20 i ]

/-- A publication job of engine k (R158, R179). -/
def publishErr (rs : List Region) (k i : Nat) (w : List Byte) : ItemErr :=
  let base := leAt w 0 4
  let t := leAt w 4 4
  first
    [ bad (bits (leAt w 8 4) 31 16 != 0 || leAt w 12 4 != 0) 0x18 i,
      bad (bits (leAt w 8 4) 15 0 = 0 || t = 0 || decide (2 ^ 20 < t) || !inRegion rs k [5] base (tileBytes * t) ||
        !rs.any (fun x => x.ch = k && x.typ = 5 && decide (x.base ≤ base) && decide (base < x.base + x.len) &&
          (base - x.base) % 257 = 0)) 0x20 i ]

/-- The first slice step from `t` on that `p` holds for, `n` such steps counted. -/
def stepAfter (p : Nat → Bool) : Nat → Nat → Nat → Nat
  | 0, _, t => t
  | f + 1, n, t => if p t then (if n ≤ 1 then t else stepAfter p f (n - 1) (t + 1)) else stepAfter p f n (t + 1)

/-- Whether an update job's publication output shares a tile with a publication job. -/
def Job.writesTiles (rcps : List Recipe) (j : Job) (base t : Nat) : Bool :=
  match j with
  | .update rcp _ _ _ n _ _ _ _ _ pb _ _ _ =>
    let p := (rcps.getD rcp (recipeOf [])).pub
    bit p 11 && decide (pb < base + 257 * t) && decide (base < pb + 257 * pubTiles (bits p 7 4) n)
  | .publish _ _ _ => false

/-- Whether a run of a publication job would still run when the next run of a job that writes its tiles starts (R158),
looked at over every alignment of the runs with the publication ticks. -/
def pubLate (rcps : List Recipe) (pub : Nat → Bool) (cyc : Nat) (jobs : List Job) (base t qt : Nat) : Bool :=
  let ws := jobs.filter (fun j => j.writesTiles rcps base t)
  let per := ws.foldl (fun m j => Nat.lcm m (j.period cyc)) cyc
  let someRun (x : Nat) : Bool := ws.any (fun j => j.active pub x)
  let starts (x : Nat) : Bool := ws.any (fun j => match j.when with | some (_, _, st, cy) => x % cy = st | none => false)
  -- whether a run that starts at publication tick x still runs when a writer starts
  let meets (x : Nat) : Bool :=
    let last := stepAfter pub (cyc * (ceilDiv t (max qt 1) + 1)) (ceilDiv t (max qt 1)) x
    (List.range (last + 1 - x)).any (fun i => starts (x + i))
  if ws.isEmpty || !((List.range cyc).any pub) then false
  else
    -- step by step: whether a writer's run has ended that no publication run has followed, and whether a run came late
    ((List.range (2 * per)).foldl (fun (a : Bool × Bool) x =>
      if someRun x then (true, a.2)
      else if a.1 && pub x then (false, a.2 || meets x)
      else a) (false, false)).2

/-- The raw records of an ENGINE_JOBS section. -/
def jobRaw : Nat → List Byte → List (List Byte)
  | 0, _ => []
  | f + 1, b =>
    if b.isEmpty then []
    else
      let n := if bit (leAt b 0 4) 3 then 32 else 112
      slice b 0 n :: jobRaw f (b.drop n)

/-- An ENGINE_JOBS section; `lost` says that an engine is missing (R150, R365). -/
def jobSectErr (rs : List Region) (rcps : List Recipe) (pub : Nat → Bool) (cyc : Nat) (lost : Nat → Bool) (x : Sect) : ItemErr :=
  let raws := jobRaw x.count x.bytes
  let byEng (e : Nat) := jobsIn x e
  first
    [ (List.range raws.length).findSome? (fun i =>
        let b := raws.getD i []
        let w := leAt b 0 4
        let k := bits w 2 0
        first
          [ bad (bits w 31 4 != 0 || !zeroAt b 4 12) 0x18 i,
            bad (lost k) 0x20 i,
            if bit w 3 then publishErr rs k i (b.drop 16) else updateErr rs rcps pub cyc k i (b.drop 16) ]),
      (List.range 8).findSome? (fun e =>
        let js := byEng e
        first
          [ bad (decide (256 < js.length)) 0x1C e,
            bad ((pairs js).any (fun p => p.1.overlap pub cyc p.2)) 0x20 e,
            bad (js.any (fun j => match j with
              | .publish base t qt => pubLate rcps pub cyc js base t qt
              | _ => false)) 0x20 e ]) ]

/-! ### Weight loads (R180) -/

/-- A WEIGHT_LOAD record. -/
structure LoadRec where
  dest : Nat
  ch   : Nat
  cda  : Nat
  kind : Nat
  src  : Nat
  deriving DecidableEq, Repr

/-- A WEIGHT_LOAD record read. -/
def loadRecOf (b : List Byte) : LoadRec :=
  { dest := leAt b 0 4, ch := bits (leAt b 4 4) 29 27, cda := bits (leAt b 4 4) 26 0, kind := bits (leAt b 8 4) 1 0,
    src := leAt b 16 8 }

/-- A WEIGHT_LOAD record (R180): `roles` gives the role of a bank of a logical core, `blob` whether an image offset's
8 KiB lie in a BLOB of the agent. -/
def loadErr (rs : List Region) (roles : Nat → Nat → Nat → Nat) (blob : Nat → Bool) (i : Nat) (b : List Byte) : ItemErr :=
  let r := loadRecOf b
  let c := bits r.dest 6 0
  let k := bits r.dest 14 7
  let bk := bits r.dest 19 15
  first
    [ bad (bits r.dest 31 22 != 0 || bits (leAt b 4 4) 31 30 != 0 || bits (leAt b 8 4) 31 2 != 0 || leAt b 12 4 != 0 ||
        leAt b 24 8 != 0 || r.kind = 3) 0x18 i,
      bad (bits r.dest 21 20 != 0 || decide (74 < c) || decide (249 < k) || decide (23 < bk) || roles c k bk != 1 ||
        !rs.any (fun x => x.ch = r.ch && x.typ = 5 && decide (x.base ≤ r.cda) && decide (r.cda + 257 ≤ x.base + x.len) &&
          (r.cda - x.base) % 257 = 0) ||
        (match r.kind with
         | 0 => !blob r.src
         | 1 => !(mlaMapped r.src && mlaMapped (r.src + 8191))
         | _ => r.src != 0)) 0x22 i ]

/-! ### Strands (R205 to R208, R236 to R238, R270) -/

/-- The form of a STRAND record. -/
def strandForm (port : Bool) (b : List Byte) : ItemErr :=
  let r := strandOf b
  let w (i : Nat) := leAt b (4 * i) 4
  let dests := (List.range 8).map (fun i => leAt b (16 + 2 * i) 2)
  let loc := !port && r.out.testBit 4
  let mem := !port && (r.inp = 5 || r.out.testBit 5)
  first
    [ bad (bit (w 0) 15 || bits (w 0) 31 23 != 0 || bits (w 1) 31 24 != 0 || bits (w 2) 15 9 != 0 || bits (w 3) 31 30 != 0 ||
        dests.any (fun d => bits d 14 9 != 0)) 0x18 r.sid,
      bad (r.units = 0 || r.out = 0 || (port && (decide (1 < r.inp) || decide (3 < r.out))) ||
        (!port && (r.inp = 7 || decide (127 < r.out))) ||
        (r.inp != 4 && !port && (r.srcCore != 0 || r.srcPort)) ||
        (loc && r.dests.isEmpty) || (!loc && !r.dests.isEmpty) || r.dests.any (fun d => decide (249 < d % 256)) ||
        (!port && r.inp = 4 && decide (249 < r.srcCore)) ||
        (if mem then r.wrap = 0 || r.units % 16 != 0 else r.wrap != 0)) 0x16 r.sid ]

/-- Whether every 64-byte unit from `a` up to `e` lies in one of some regions; `n` of them are enough to cover it. -/
def coveredBy (rs : List Region) : Nat → Nat → Nat → Bool
  | 0, a, e => decide (e ≤ a)
  | n + 1, a, e =>
    if e ≤ a then true
    else match rs.find? (fun r => decide (r.base ≤ a) && decide (a < r.base + r.len)) with
      | some r => coveredBy rs n (r.base + r.len) e
      | none => false

/-- Whether each address of a MEM endpoint lies in a region of type STASH, GRAD or PARAM on its channel (R207). -/
def memStrandOk (rs : List Region) (r : StrandRec) : Bool :=
  let l := rs.filter (fun x => x.ch = r.memCh && [4, 3, 7].contains x.typ)
  coveredBy l l.length r.memBase (r.memBase + ceilDiv (r.units * r.wrap) 2)

/-- Whether no SID repeats. -/
def sidsApart (l : List StrandRec) : Bool := (pairs l).all (fun p => p.1.sid ≠ p.2.sid)

end Sys2Proof.Machine
end

