-- ==== Sys2Proof/Machine/Paths.lean ====
section
/-! DEFINITION. What the loader checks of paths and trees: the STRAND sections of router and port agents (R205 to R208, R236,
R237, R270), the RTREE records of an agent and of a whole image (R278 to R281), and publication tables (R44). -/

namespace Sys2Proof.Machine

/-! ### Intervals and limits (R43, R145, R208, R237) -/

/-- The compute interval of a schedule, in timebase units (R38). -/
def TickSched.compute (x : TickSched) : Nat := x.period - x.weir - 16

/-- Whole core cycles of the compute interval at a clock in MHz. -/
def TickSched.cycles (x : TickSched) (clock : Nat) : Nat := 2 * x.compute * clock / 1000

/-- The limit of a mesh, LOCAL, HUB or port-die output in units (R208). -/
def outLimit (x y code cycles : Nat) : Nat := 31 * portRate x y code * cycles / 32

/-- The largest slot time of channel k in any tick of a schedule. -/
def TickSched.slotTime (x : TickSched) (k : Nat) : Nat :=
  (List.range x.cadence).foldl (fun m t =>
    max m (((x.slots.filter (fun d => d.active t && (d.chans t).contains k)).map SlotDef.length).foldl (· + ·) 0)) 0

/-- The bytes a channel's budget gives scheduled transfers in a tick (R145: 10.8 GB/s outside its slots). -/
def TickSched.memBudget (x : TickSched) (k : Nat) : Nat := (x.compute - x.slotTime k) * 2 * 108 / 10

/-- Units a port direction of `w` lanes carries in a tick (R237). -/
def TickSched.linkUnits (x : TickSched) (w : Nat) : Nat := w * 25 * (2 * x.compute) / 32

/-! ### Strands -/

/-- The STRAND records of an agent among sections. -/
def strandsIn (l : List Sect) (agent : Nat) : List StrandRec :=
  let x := sectOf l 0x0020 agent
  (List.range x.count).map (fun i => strandOf (x.item 32 i))

/-- The record of a SID at a router position, if its position has an agent that holds one. -/
def State.strandAt (s : State) (l : List Sect) (x y sid : Nat) : Option StrandRec :=
  let (d, q) := meshDP x y
  match s.logClus d q with
  | none => none
  | some c => (strandsIn l (routerAgent s.modId d c)).find? (fun r => r.sid = sid)

/-- Whether strands leave the module through a port as RBW packets (R238, R270). -/
def State.rbwPort (s : State) (port : Nat) : Bool := port = 7 || port = 8 || decide (16 < s.groupSize)

/-- Units a link-side record of a strand must reserve (R270). -/
def linkNeed (rbw : Bool) (u : Nat) : Nat := if rbw then u + ceilDiv u 32 else u

/-- Whether some port agent of the module takes up a strand that leaves a router outward, or brings one in. -/
def State.portJoins (s : State) (l : List Sect) (sid u : Nat) (out : Bool) : Bool :=
  (List.range 16).any (fun p => (strandsIn l (portAgent s.modId p)).any (fun r =>
    r.sid = sid && (if out then r.inp = 1 else r.inp = 0 && r.out.testBit 1) &&
      decide (linkNeed (s.rbwPort p) u ≤ r.units)))

/-- Whether a hop of a strand joins the record on its other side (R208). -/
def State.hopJoins (s : State) (l : List Sect) (x y : Nat) (r : StrandRec) (code : Nat) (out : Bool) : Bool :=
  if 4 ≤ code then true
  else match meshNext x y code with
    | some (a, b) =>
      match s.strandAt l a b r.sid with
      | some t => if out then t.inp = meshBack code else t.out.testBit (meshBack code)
      | none => false
    | none => s.portJoins l r.sid r.units out

/-- Whether the neighbour across a mesh port is in bypass. -/
def State.nextBypass (s : State) (x y code : Nat) : Bool :=
  match meshNext x y code with
  | some (a, b) => let (d, q) := meshDP a b; (s.pt d).bypass.contains q
  | none => false

/-- The output codes of a record. -/
def StrandRec.outs (r : StrandRec) : List Nat := (List.range 7).filter r.out.testBit

/-- Whether a record stays in its cluster: it passes through the crossbar only (R204). -/
def StrandRec.inClus (r : StrandRec) : Bool := r.inp = 4 && r.out = 16

/-- One record at a router: its ports, bypassed positions, MEM endpoint and hops. -/
def State.strandErr (s : State) (l : List Sect) (p q : Nat) (r : StrandRec) : ItemErr :=
  let (x, y) := meshXY p q
  let codes := r.inp :: r.outs
  let mem := r.inp = 5 || r.out.testBit 5
  let rs := regionsOf (sectOf l 0x0030 (endpointAgent s.modId p))
  bad (codes.any (fun c => !s.hasPort x y c) || codes.any (s.nextBypass x y) ||
    (mem && (!memStrandOk rs r || s.memRtr p r.memCh ≠ q)) ||
    !s.hopJoins l x y r r.inp false || r.outs.any (fun c => !s.hopJoins l x y r c true)) 0x16 r.sid

/-- Units reserved on an output port of a router. -/
def outUnits (rs : List StrandRec) (code : Nat) : Nat :=
  ((rs.filter (fun r => r.out.testBit code && !r.inClus)).map StrandRec.units).foldl (· + ·) 0

/-- Bytes a tick that strands move on channel k at a router. -/
def memUnits (rs : List StrandRec) (k : Nat) : Nat :=
  32 * ((rs.filter (fun r => (r.inp = 5 || r.out.testBit 5) && r.memCh = k)).map StrandRec.units).foldl (· + ·) 0

/-- The STRAND section of a router agent (R206 to R208). -/
def State.routerStrandErr (s : State) (l : List Sect) (sched : TickSched) (clock p c : Nat) : ItemErr :=
  let x := sectOf l 0x0020 (routerAgent s.modId p c)
  let q := s.physClus p c
  let (mx, my) := meshXY p q
  let rs := strandsIn l (routerAgent s.modId p c)
  first
    [ (List.range x.count).findSome? (fun i => strandForm false (x.item 32 i)),
      bad (!sidsApart rs || (!rs.isEmpty && (s.pt p).bypass.contains q)) 0x16 0,
      rs.findSome? (s.strandErr l p q),
      [0, 1, 2, 3, 4, 6].findSome? (fun o => bad (decide (outLimit mx my o (sched.cycles clock) < outUnits rs o)) 0x16 o),
      (List.range 8).findSome? (fun k => bad (decide (sched.memBudget k < memUnits rs k)) 0x16 5) ]

/-- The port strands of every other context of the module. -/
def State.otherPortStrands (s : State) (n port : Nat) : List StrandRec :=
  (List.range 16).flatMap (fun m =>
    if m = n then []
    else
      let a := portAgent s.modId port
      let c := s.cx m
      strandsIn (if s.fget (RIG_SL_STAT.SHADOW m) = 0 then c.active else c.shadow) a)

/-- A list in ascending order of a number of its elements. -/
def sortBy {α : Type} (key : α → Nat) (l : List α) : List α :=
  let put (a : α) (m : List α) : List α := m.takeWhile (fun b => key b ≤ key a) ++ [a] ++ m.dropWhile (fun b => key b ≤ key a)
  l.foldl (fun m a => put a m) []

/-- The active STRAND records of a port's link in one direction, with context and slice, in ascending (slice ID, SID): their order
gives the link strand index (R236). -/
def State.linkRecs (s : State) (port : Nat) (out : Bool) : List (Nat × Nat × StrandRec) :=
  let l := (List.range 16).flatMap (fun n => (s.strands n (portAgent s.modId port)).map (fun r => (n, s.slId n, r)))
  sortBy (fun e => 4096 * e.2.1 + e.2.2.sid) (l.filter (fun e => if out then e.2.2.out.testBit 0 else e.2.2.inp = 0))

/-- The lanes that the receive reservations of a port need, at the shortest compute interval of their slices (R237). -/
def State.needW (s : State) (port : Nat) : Nat :=
  let l := s.linkRecs port false
  let u := l.foldl (fun a e => a + e.2.2.units) 0
  let fits (w : Nat) : Bool := l.all (fun e => u ≤ (s.sched e.1).linkUnits w)
  (firstBelow 64 fits).getD 63

/-- LNK_STAT.NEED_W and BELOW brought up to date (R237). -/
def State.needFix (s : State) (port : Nat) : State :=
  let s := s.fset (LNK_STAT.NEED_W port) (s.needW port)
  s.fset (LNK_STAT.BELOW port) (b2n (decide (s.fget (LNK_STAT.WIDTH port) < s.fget (LNK_STAT.NEED_W port))))

/-- The same for every port that has trained: the reservations have changed. -/
def State.needAll (s : State) : State := s.each 16 (fun p s => if s.fget (LNK_STAT.STATE p) < 4 then s else s.needFix p)

/-- The STRAND section of a port agent (R206, R236, R237, R270). -/
def State.portStrandErr (s : State) (l : List Sect) (sched : TickSched) (n port : Nat) : ItemErr :=
  let a := portAgent s.modId port
  let x := sectOf l 0x0020 a
  let rs := strandsIn l a
  let all := rs ++ s.otherPortStrands n port
  let tx := all.filter (fun r => r.out.testBit 0)
  let rx := all.filter (fun r => r.inp = 0)
  let sum (t : List StrandRec) : Nat := (t.map StrandRec.units).foldl (· + ·) 0
  let others := (List.range 16).filter (fun k => k ≠ n && !(s.strands k (portAgent s.modId port)).isEmpty)
  let lim := (others.map (fun k => (s.sched k).linkUnits (s.fget (LNK_STAT.TRAINED_W port) - 1))).foldl min
    (sched.linkUnits (s.fget (LNK_STAT.TRAINED_W port) - 1))
  let meets (r : StrandRec) (out : Bool) : Bool :=
    (List.range 4).any (fun pd => (portDieRtrs pd).any (fun (px, py, code) =>
      match s.strandAt l px py r.sid with
      | some t => (if out then t.inp = code else t.out.testBit code) &&
          decide (linkNeed (s.rbwPort port) t.units ≤ r.units)
      | none => false))
  first
    [ (List.range x.count).findSome? (fun i => strandForm true (x.item 32 i)),
      bad (!sidsApart rs) 0x16 0,
      bad (rs.any (fun r => (r.inp = 1 && !meets r false) || (r.out.testBit 1 && !meets r true))) 0x16 port,
      bad (decide (64 < tx.length) || decide (64 < rx.length)) 0x16 port,
      bad (!rs.isEmpty && (decide (lim < sum tx) || decide (lim < sum rx))) 0x16 port ]

/-- A section put in place of its agent's content of its type; an empty one removes it (R181). -/
def putSect (l : List Sect) (x : Sect) : List Sect :=
  let l := if x.typ = 0x0034 then l else l.filter (fun y => y.typ ≠ x.typ || y.agent ≠ x.agent)
  if x.bytes.isEmpty then l else l ++ [x]

/-! ### Trees (R278 to R281) -/

/-- The RTREE records of an agent among sections. -/
def treesIn (l : List Sect) (agent : Nat) : List TreeRec :=
  let x := sectOf l 0x0022 agent
  (List.range x.count).map (fun i => treeOf (x.item 192 i))

/-- KIND 1 of a tree entry: a child router agent. -/
def entChild (e : Nat) : Bool := bit e 31
/-- The ID of a tree entry. -/
def entId (e : Nat) : Nat := bits e 22 0
/-- Whether an entry contributes in a configuration. -/
def entIn (alt : Bool) (e : Nat) : Bool := if alt then bit e 30 else bit e 29

/-- The form of a RTREE record (R279, R280). -/
def treeForm (b : List Byte) : ItemErr :=
  let r := treeOf b
  let w (i : Nat) := leAt b (4 * i) 4
  let nent := r.ents.length
  let mem := r.memEn || r.rkind = 1
  first
    [ bad (bits (w 0) 31 28 != 0 || bits (w 1) 31 17 != 0 || w 5 != 0 || bits (w 6) 31 30 != 0 || w 7 != 0 ||
        bits (w 12) 31 6 != 0 || bit (w 13) 31 || bits (w 14) 31 16 != 0 || w 15 != 0 ||
        r.ents.any (fun e => bits e 28 23 != 0 || (!entChild e && bits e 22 9 != 0))) 0x18 r.rid,
      bad (r.op = 3 || !([3, 4, 8, 9, 10].contains r.ifmt) || !([8, 9, 10].contains r.cfmt) ||
        (isHank r.ifmt && (r.cfmt != 10 || r.n % 32 != 0)) || r.rkind = 3 || r.n = 0 || decide (65536 < r.n) ||
        nent = 0 || decide (32 < nent) || (List.range 32).any (fun i => decide (nent ≤ i) && w (16 + i) != 0) ||
        (r.memEn && !isIeee r.ifmt) || (if mem then r.wrap = 0 else r.wrap != 0) ||
        r.ents.any (fun e => if entChild e then decide (74 < bits e 22 16) else decide (249 < bits e 7 0)) ||
        (if r.root then r.parent != 0 else bits r.parent 30 23 != 0xFF) ||
        (if r.altRoot then r.altParent != 0 else bits r.altParent 30 23 != 0xFF) ||
        (r.rkind = 1 && r.resDest != 0) || (r.rkind = 2 && bits r.resDest 11 0 != 0)) 0x23 r.rid ]

/-- The RTREE section of a router agent (R278, R281). -/
def State.treeSectErr (s : State) (l : List Sect) (p c : Nat) : ItemErr :=
  let a := routerAgent s.modId p c
  let x := sectOf l 0x0022 a
  let rs := treesIn l a
  let regs := regionsOf (sectOf l 0x0030 (endpointAgent s.modId p))
  let q := s.physClus p c
  let outs := rs.flatMap (fun r => (r.ents.filter (fun e => !entChild e)).map entId) ++
    ((strandsIn l a).filter (fun r => r.inp = 4)).map (fun r => r.srcCore + 256 * b2n r.srcPort)
  let size := s.groupSize
  first
    [ (List.range x.count).findSome? (fun i => treeForm (x.item 192 i)),
      bad ((pairs rs).any (fun t => t.1.rid = t.2.rid)) 0x23 0,
      rs.findSome? (fun r =>
        bad ((r.memEn && (!inRegion regs r.srcCh [4, 3, 7] r.srcCda (64 * r.wrap * r.step64 r.ifmt) ||
            s.memRtr p r.srcCh ≠ q)) ||
          (r.rkind = 1 &&
            (!inRegion regs r.resCh [4, 3, 7] r.resCda (64 * r.wrap * r.step64 r.cfmt) || s.memRtr p r.resCh ≠ q)) ||
          (r.rkind = 2 && ((List.range 64).any (fun i => r.mcPos.testBit i && decide (size ≤ i)) ||
            (List.range 64).any (fun h => r.mcGrp.testBit h && (manGroup? s.mgr.manifest h).isNone)))) 0x23 r.rid),
      bad ((pairs outs).any (fun t => t.1 = t.2)) 0x23 0,
      bad (decide (262144 < (rs.map (fun r => r.n * elemBytes r.cfmt)).foldl (· + ·) 0)) 0x23 0 ]

/-- The packet word, without core field and port, that names a router agent. -/
def agentEp (a : Nat) : Nat := bits a 22 0

/-- Whether an agent of a tree reaches the root of a configuration by parent links that their entries answer. -/
def treeReaches (ms : List (Nat × TreeRec)) (alt : Bool) : Nat → Nat → Bool
  | 0, _ => false
  | f + 1, ep =>
    match ms.find? (fun m => m.1 = ep) with
    | none => false
    | some (_, r) =>
      if (if alt then r.altRoot else r.root) then true
      else
        let par := bits (if alt then r.altParent else r.parent) 22 0
        match ms.find? (fun m => m.1 = par) with
        | none => false
        | some (_, t) =>
          t.ents.any (fun e => entChild e && entId e = ep && entIn alt e) && treeReaches ms alt f par

/-- A whole tree: one root in each configuration, links that hold, and equal OP, CFMT and N (R281). -/
def treeWhole (ms : List (Nat × TreeRec)) : Bool :=
  let one (alt : Bool) : Bool := (ms.filter (fun m => if alt then m.2.altRoot else m.2.root)).length = 1
  let ok (alt : Bool) : Bool := ms.all (fun m => treeReaches ms alt (ms.length + 1) m.1)
  one false && one true && ok false && ok true &&
    (pairs ms).all (fun t => t.1.2.op = t.2.2.op && t.1.2.cfmt = t.2.2.cfmt && t.1.2.n = t.2.2.n)

/-- The port at the other end of a port: by the manifest, or for an uplink by the cross-connect map. -/
def State.peerOf (s : State) (mod port : Nat) : Option (Nat × Nat) :=
  if port = 7 || port = 8 then
    (s.mgr.xmap.findSome? (fun (a, pa, b, pb) =>
      if a = mod && pa = port then some (b, pb) else if b = mod && pb = port then some (a, pa) else none))
  else match manMod? s.mgr.manifest mod with
    | none => none
    | some r =>
      let p := manPort r port
      if p.present then some (p.peerMod, p.peerPort) else none

/-! ### Rules over all agents of a slice (R164, R179, R236, R281)

The loader looks at what every agent of a slice will hold: the sections of the image, and for a delta the content that it keeps, as this
manager has loaded it. Content that it has not loaded itself is unknown to it (log entry 57). -/

/-- What every agent of a slice will hold under an image: its sections, over those of the rigging that a delta applies to (R181). -/
def State.rigOf (s : State) (x : Image) (sid : Nat) : List Sect :=
  let new := (x.ents.filter (fun e => e.2.sid = sid && e.2.typ ≠ 1 && e.2.typ ≠ 0x0033 && e.2.typ ≠ 0x0034)).map (fun e =>
    (⟨e.2.typ, e.2.agent, e.2.count, x.data e.2⟩ : Sect))
  if x.delta then new.foldl putSect (((s.mgr.rigs.find? (fun r => r.1 = sid)).map Prod.snd).getD []) else new

/-- Whether the manager knows all that the agents of a slice will hold under an image. -/
def State.rigKnown (s : State) (x : Image) (sid : Nat) : Bool := !x.delta || s.mgr.rigs.any (fun r => r.1 = sid)

/-- The directory entry of an agent's section of a type, 0xFFFF where the image does not carry it. -/
def Image.entry (x : Image) (sid typ agent : Nat) : Nat :=
  ((x.ents.find? (fun e => e.2.sid = sid && e.2.typ = typ && e.2.agent = agent)).map Prod.fst).getD 0xFFFF

/-- The trees among sections: router agent and record. -/
def treesOf (l : List Sect) : List (Nat × TreeRec) :=
  (l.filter (fun y => y.typ = 0x0022)).flatMap (fun y =>
    (List.range y.count).map (fun i => (agentEp y.agent, treeOf (y.item 192 i))))

/-- The trees of a slice, each as a whole (R281). -/
def State.treesErr (s : State) (x : Image) (sid : Nat) : Option RigErr :=
  if !s.rigKnown x sid then none
  else
    let ms := treesOf (s.rigOf x sid)
    (ms.map (fun m => m.2.rid)).findSome? (fun rid =>
      errIf (!treeWhole (ms.filter (fun m => m.2.rid = rid))) 0x23 0xFFFF 0 rid)

/-- The link-side records of a port among sections: SID and UNITS, in one direction. -/
def linkRecsIn (l : List Sect) (mod port : Nat) (tx : Bool) : List (Nat × Nat) :=
  ((strandsIn l (portAgent mod port)).filter (fun r => if tx then r.out.testBit 0 else r.inp = 0)).map (fun r => (r.sid, r.units))

/-- The strand records of both ends of each link of a slice (R236). Where the manager does not know all of them, it compares a link of
which the image carries both ends. -/
def State.linksErr (s : State) (x : Image) (sid : Nat) : Option RigErr :=
  let l := s.rigOf x sid
  let same (a b : List (Nat × Nat)) : Bool := a.all b.contains && b.all a.contains
  (l.filter (fun y => y.typ = 0x0020 && agentKind y.agent = 3)).findSome? (fun y =>
    let mod := bits y.agent 11 0
    let port := agentPort y.agent
    let e := x.entry sid 0x0020 y.agent
    let tx := linkRecsIn l mod port true
    let rx := linkRecsIn l mod port false
    match s.peerOf mod port with
    | none => errIf (!tx.isEmpty || !rx.isEmpty) 0x16 e y.agent port
    | some (m, q) =>
      let known := s.rigKnown x sid || x.entry sid 0x0020 (portAgent m q) ≠ 0xFFFF
      errIf (known && (!same tx (linkRecsIn l m q false) || !same rx (linkRecsIn l m q true))) 0x16 e y.agent port)

/-- Bytes of the longest enabled output O0 to O3 of a recipe over `n` elements. -/
def Recipe.longest (r : Recipe) (n : Nat) : Nat :=
  (r.outs.filter (fun o => bit o 10)).foldl (fun m o => max m (streamBytes (bits o 7 4) n)) 0

/-- A mirroring job's buddy: a module of the slice that holds the partition, and a MIRROR region there, on the same channel, that takes the
whole of each output (R164, R179). -/
def State.mirrorErr (s : State) (x : Image) (sid : Nat) : Option RigErr :=
  let l := s.rigOf x sid
  let m := sliceMapOf (sectOf l 0x0002 everyHub).bytes
  (l.filter (fun y => y.typ = 0x0032)).findSome? (fun y =>
    let p := agentPart y.agent
    let rcps := sectOf l 0x0031 y.agent
    (List.range y.count).findSome? (fun i =>
      match (jobRecs y.count y.bytes)[i]? with
      | none => none
      | some (k, w, b) =>
        match jobOf w b with
        | .update rcp _ _ true n _ _ _ _ _ _ _ mm mb =>
          let ep := endpointAgent mm p
          let known := s.rigKnown x sid || l.any (fun z => z.typ = 0x0030 && z.agent = ep)
          errIf (!(m.mask mm).testBit p || (known &&
            !inRegion (regionsOf (sectOf l 0x0030 ep)) k [6] mb ((recipeOf (rcps.item 160 rcp)).longest n)))
            0x20 (x.entry sid 0x0032 y.agent) y.agent i
        | _ => none))

/-! ### Publication tables (R44) -/

/-- The cores and banks that the publication jobs of a partition publish: a tile's core and bank stand in the
WEIGHT_LOAD record that loads it, or in its header. -/
def State.published (s : State) (l : List Sect) (p : Nat) : List (Nat × Nat × Nat) :=
  let ep := endpointAgent s.modId p
  let jobs := sectOf l 0x0032 ep
  let ws := sectOf l 0x0033 ep
  let recs := (List.range ws.count).map (fun i => loadRecOf (ws.item 32 i))
  (List.range 8).flatMap (fun e => (jobsIn jobs e).flatMap (fun j =>
    match j with
    | .publish base t _ =>
      (List.range t).map (fun i =>
        let cda := base + 257 * i
        match recs.find? (fun r => r.ch = e && r.cda = cda) with
        | some r => (bits r.dest 6 0, bits r.dest 14 7, bits r.dest 19 15)
        | none => let h := s.tileHdr (mlaOf p e (64 * cda)); (h.clus, h.core, h.bank))
    | .update _ _ _ _ _ _ _ _ _ _ _ _ _ _ => []))

/-- Cores whose publication table reads a WEIGHT bank that a publication job of the partition publishes. -/
def State.pubTableErr (s : State) (l : List Sect) (p c : Nat) : ItemErr :=
  let x := sectOf l 0x0010 (routerAgent s.modId p c)
  let pub := s.published l p
  if pub.isEmpty then none
  else (coreRecs x.count x.bytes).findSome? (fun (i, w, b) =>
    let cfg := coreCfgOf (bit w 8) b
    let banks := (cfg.pubT.takeWhile (fun d => d.op ≠ 0)).flatMap (fun d => ((d.reads cfg) ++ d.scalars).flatMap Reach.banks)
    bad (banks.any (fun k => cfg.role k = 1 && pub.contains (c, i, k))) 0x17 i)

end Sys2Proof.Machine
end

