-- ==== Sys2Proof/Machine/Loader.lean ====
section
/-! DEFINITION. The loader (R184 to R197): loads with their checks and distribution, agents' checks and reports, the digests,
arming and commit, system-area copies and warm re-apply, and the commands of the family. -/

namespace Sys2Proof.Machine

/-! ### Errors -/

/-- A loader error posted (R197). -/
def State.rigErr (s : State) (e : RigErr) : State :=
  (((s.fset RIG_ERR.CODE e.code).fset RIG_ERR.SECTION e.sect).setReg RIG_ERR_AGENT.off (BitVec.ofNat 32 e.agent)).setReg
    RIG_ERR_AUX.off (BitVec.ofNat 32 e.aux)

/-- A loader error without section or agent. -/
def State.rigCode (s : State) (code aux : Nat) : State := s.rigErr ⟨code, 0xFFFF, 0, aux⟩

/-! ### Contexts -/

/-- The reservation of a slice. -/
def State.resvOf (s : State) (sid : Nat) : Option Resv := s.mgr.resv.find? (fun r => r.slice = sid)

/-- Whether a context is free on this module. -/
def State.ctxFree (s : State) (n : Nat) : Bool :=
  s.fget (RIG_SL_STAT.SHADOW n) = 0 && !s.flag (RIG_SL_STAT.ACTIVE n) && s.slState n = 0 &&
    s.mgr.resv.all (fun r => !r.ctx.contains (s.modId, n))

/-- The context of a slice on this module: its reservation's, the one that holds it, or the lowest free one (R324). -/
def State.ctxFor (s : State) (sid : Nat) : Option Nat :=
  match s.resvOf sid with
  | some r => (r.ctx.find? (fun e => e.1 = s.modId)).map Prod.snd
  | none =>
    match s.ctxOf sid with
    | some n => some n
    | none => firstBelow 16 s.ctxFree

/-- A shadow emptied; a slice armed for it goes to IDLE (Table 8, R57). -/
def State.dropShadow (s : State) (n : Nat) : State :=
  if s.fget (RIG_SL_STAT.SHADOW n) = 0 then s
  else
    let s := (((s.fset (RIG_SL_STAT.SHADOW n) 0).fset (RIG_SL_STAT.DELTA n) 0).fset (RIG_SL_EPOCH.SHADOW_LO n) 0).setPair
      (RIG_SL_AT_LO.off n) 0
    let s := s.modCx n (fun c => { c with shadow := [], shadDigs := [], shadBad := [], lost := false, refused := false })
    let s := if s.slState n = 1 then s.setSlState n 0 else s
    if s.flag (RIG_SL_STAT.ACTIVE n) then s else s.fset (RIG_SL_STAT.SLICE_ID n) 0

/-- The shadow of a slice emptied, if this module holds one. -/
def State.dropSlice (s : State) (sid : Nat) : State :=
  match s.ctxOf sid with
  | some n => s.dropShadow n
  | none => s

/-! ### Register accesses of members (R313) -/

/-- The body of a REG_WRITE packet: (offset, value) pairs. -/
def regPairs (l : List (Nat × Nat)) : List Byte := l.flatMap (fun e => leBytes 4 e.1 ++ leBytes 4 e.2)

/-- A REG_WRITE sent to a module; its answer is awaited. -/
def State.askWrite (s : State) (mod : Nat) (l : List (Nat × Nat)) : State :=
  s.mgtAsk mod 0x10 3 false (regPairs l)

/-- RIG_CMD with a command and a slice. -/
def rigCmdWord (cmd sid : Nat) : Nat := cmd + 16 * sid

/-- The other member modules of a slice's reservation. -/
def State.others (s : State) (sid : Nat) : List Nat :=
  match s.resvOf sid with
  | some r => (r.members.map Prod.fst).filter (fun m => m ≠ s.modId)
  | none => []

/-- ABANDON sent to the other members of a slice. -/
def State.abandonOthers (s : State) (sid : Nat) : State :=
  State.eachOf (s.others sid) (fun m s => s.askWrite m [(RIG_CMD.off, rigCmdWord 3 sid)]) s

/-! ### Sections of a module -/

/-- The sections of a slice that an image carries for a module; a BLOB keeps its image offset as its count. -/
def Image.sects (x : Image) (sid mod : Nat) : List Sect :=
  (x.ents.filter (fun e => e.2.typ ≠ 1 && e.2.sid = sid &&
    (agentKind e.2.agent = 7 || bits e.2.agent 11 0 = mod))).map (fun e =>
      ⟨e.2.typ, e.2.agent, if e.2.typ = 0x0034 then e.2.off else e.2.count, x.data e.2⟩)

/-- A context that begins to load a slice: LOADING, a delta over what is active (Table 8, R181). -/
def State.beginShadow (s : State) (n sid : Nat) (delta : Bool) : State :=
  if s.fget (RIG_SL_STAT.SHADOW n) = 1 then s
  else
    let s := ((s.fset (RIG_SL_STAT.SHADOW n) 1).fset (RIG_SL_STAT.DELTA n) (b2n delta)).fset (RIG_SL_STAT.SLICE_ID n) sid
    s.modCx n (fun c => { c with shadow := if delta then c.active else [], shadDigs := [], loadAt := s.now })

/-- A section taken into a context's shadow. -/
def State.takeSect (s : State) (n : Nat) (x : Sect) : State :=
  let s := s.modCx n (fun c => { c with shadow := putSect c.shadow x })
  if x.typ = 0x0002 then s.fset (RIG_SL_EPOCH.SHADOW_LO n) (sliceMapOf x.bytes).epoch else s

/-- The slice map of a shadow. -/
def State.shadMap (s : State) (n : Nat) : SliceMap := sliceMapOf (sectOf (s.cx n).shadow 0x0002 everyHub).bytes
/-- The schedule of a shadow. -/
def State.shadSched (s : State) (n : Nat) : TickSched := tickSchedOf (sectOf (s.cx n).shadow 0x0003 everyHub).bytes

/-- The partitions of a mask. -/
def maskParts (m : Nat) : List Nat := (List.range 16).filter m.testBit

/-- The agents of a slice on a module: hub, endpoints, router agents, and the port agents that hold sections. -/
def agentsIn (l : List Sect) (mod mask : Nat) : List Nat :=
  hubAgent mod :: (maskParts mask).flatMap (fun p => endpointAgent mod p :: (List.range 75).map (routerAgent mod p)) ++
    ((List.range 16).map (portAgent mod)).filter (fun a => l.any (fun x => x.agent = a))

/-- The agents of a context's shadow on this module. -/
def State.shadAgents (s : State) (n : Nat) : List Nat :=
  agentsIn (s.cx n).shadow s.modId ((s.shadMap n).mask s.modId)

/-! ### Digests (R184, R185) -/

/-- One section's part of an agent's digest. -/
def sectMsg (x : Sect) : List Byte :=
  let b := if x.typ = 0x0002 then x.bytes.take 24 ++ List.replicate 64 0 ++ x.bytes.drop 88 else x.bytes
  let len := if x.typ = 0x0033 then 32 * x.count else x.bytes.length
  leBytes 2 x.typ ++ leBytes 4 x.count ++ leBytes 4 len ++ b

/-- The digest of an agent over the sections it holds; WEIGHT_LOAD bytes hold the digest of each INLINE source. -/
def agentDigest (l : List Sect) (sid epoch agent : Nat) : List Byte :=
  let own := if agentKind agent = 0 then everyHub else agent
  let types := [0x0002, 0x0003, 0x0010, 0x0011, 0x0012, 0x0020, 0x0021, 0x0022, 0x0030, 0x0031, 0x0032, 0x0033]
  digest (leBytes 4 agent ++ leBytes 2 sid ++ leBytes 2 epoch ++
    types.flatMap (fun t => let x := sectOf l t own; if x.bytes.isEmpty then [] else sectMsg x))

/-- The exclusive or of digests. -/
def xorAll (l : List (List Byte)) : List Byte := l.foldl xorBytes (List.replicate 32 0)

/-! ### Checks of the machine's state (R174, R188 steps 5 and 6) -/

/-- Whether a partition of this module belongs to another slice (R174). -/
def State.heldElsewhere (s : State) (sid p : Nat) : Bool :=
  (List.range 16).any (fun k => s.slId k ≠ sid &&
    ((s.flag (RIG_SL_STAT.ACTIVE k) && ((s.sliceMap k).mask s.modId).testBit p) ||
      (s.fget (RIG_SL_STAT.SHADOW k) ≠ 0 && ((s.shadMap k).mask s.modId).testBit p)))

/-- What a slice map's rules ask of this module's state (R4, R47, R174, R368). -/
def State.mapStateErr (s : State) (m : SliceMap) : Bool :=
  (maskParts (m.mask s.modId)).any (fun p => s.heldElsewhere m.id p || (s.pt p).oos) ||
    decide (s.fuses.clkFuse.toNat < m.clock) || decide (s.fget PWR_CLK_SET.CLK < m.clock)

/-- The rules of the weir, of the epoch, of the base digest and of IDLE against what a context holds, the slice's map and schedule
being `m` and `x`: type, code and item of the first that breaks (R46, R186, R188). -/
def State.ctxErr (s : State) (n : Nat) (delta : Bool) (m : SliceMap) (x : TickSched) : Option (Nat × Nat × Nat) :=
  let digs := (List.range 8).flatMap (fun j => leBytes 4 (s.reg (RIG_SL_DIGEST.off n j)).toNat)
  if x.weir < s.allowance n + 50 then some (0x0003, 0x12, 0)
  else if s.flag (RIG_SL_EPOCH.LAST_VALID n) && m.epoch ≠ (s.fget (RIG_SL_EPOCH.LAST n) + 1) % 65536 then some (0x0002, 0x0D, m.epoch)
  else if delta && (!s.flag (RIG_SL_STAT.ACTIVE n) || s.slId n ≠ m.id || digs ≠ m.base) then some (0x0002, 0x0E, 0)
  else if !delta && s.slState n ≠ 0 then some (0x0002, 0x10, 0)
  else none

/-- The schedule of a slice in an image, or its active one. -/
def State.imageSched (s : State) (x : Image) (sid n : Nat) : TickSched :=
  match x.find sid 0x0003 with
  | some (_, e) => tickSchedOf (x.data e)
  | none => s.sched n

/-- Step 5 of R188 for one slice. -/
def State.step5 (s : State) (x : Image) (sid : Nat) : Option RigErr :=
  match x.find sid 0x0002 with
  | none => none
  | some (i, d) =>
    let m := sliceMapOf (x.data d)
    let resv := match s.resvOf sid with
      | some r => r.members.all m.members.contains && m.members.all r.members.contains
      | none => false
    let own := m.mask s.modId != 0
    errIf (!resv || m.members.any (fun e => !manHas s.mgr.manifest e.1) || (own && s.mapStateErr m)) 0x0C i d.agent 0

/-- What this module's own context says of a slice of an image, where this module is a member: `six` takes step 6 of R188 with the
rule of IDLE, otherwise the rule of the weir in step 5. On the other members their hub agents say it. -/
def State.ownErr (s : State) (x : Image) (six : Bool) (sid : Nat) : Option RigErr :=
  match x.find sid 0x0002, s.ctxFor sid with
  | some (_, d), some n =>
    let m := sliceMapOf (x.data d)
    if m.mask s.modId = 0 then none
    else match s.ctxErr n x.delta m (s.imageSched x sid n) with
      | some (t, code, aux) =>
        let (j, e) := (x.find sid t).getD (0xFFFF, d)
        if six != (code = 0x12) then some ⟨code, j, e.agent, aux⟩ else none
      | none => none
  | _, _ => none

/-- The feature level of a member module's firmware, as the manager knows it; none for a module of another group. -/
def State.featOf (s : State) (m : Nat) : Option Nat :=
  if m = s.modId then some (s.fget SEC_FW_LEVEL.FEAT)
  else
    let f := (Store.get (fun _ => PosSt.init) s.mgr.pos (modPos m)).feat
    if modGroup m = modGroup s.modId && f ≠ 0 then some f else none

/-- The lowest feature level of the member modules of an image's slices (R173). -/
def State.imageFeat (s : State) (x : Image) : Nat :=
  let ms := x.slices.flatMap (fun sid => match x.find sid 0x0002 with
    | some (_, d) => (sliceMapOf (x.data d)).members.map Prod.fst
    | none => [])
  (ms.filterMap s.featOf).foldl min 0xFFFF

/-- The checks of a whole image, in the order of R188. -/
def State.imageErr (s : State) (x : Image) : Option RigErr :=
  firstErr
    [ x.step1 ] |>.orElse (fun _ => x.step2 (s.imageFeat x)) |>.orElse (fun _ => x.step3)
    |>.orElse (fun _ => s.imageSigErr x)
    |>.orElse (fun _ => x.slices.findSome? (fun sid => (s.step5 x sid).orElse (fun _ => s.ownErr x false sid)))
    |>.orElse (fun _ => x.slices.findSome? (s.ownErr x true)) |>.orElse (fun _ => x.slices.findSome? (s.treesErr x))
    |>.orElse (fun _ => x.slices.findSome? (s.linksErr x)) |>.orElse (fun _ => x.slices.findSome? (s.mirrorErr x))

/-! ### Distribution (R326) -/

/-- Segments of a directory entry. -/
def DirEnt.segs (d : DirEnt) : Nat := ceilDiv d.len 960

/-- The number of the first segment of entry i: segments are numbered across the image in directory order. -/
def Image.firstSeg (x : Image) (i : Nat) : Nat := ((x.ents.take i).map (fun e => e.2.segs)).foldl (· + ·) 0

/-- The entry, offset and data of a segment. -/
def Image.segment (x : Image) (seg : Nat) : Option (Nat × Nat × List Byte) :=
  x.ents.findSome? (fun e =>
    let f := x.firstSeg e.1
    if f ≤ seg && seg < f + e.2.segs then
      let o := 960 * (seg - f)
      some (e.1, o, slice x.bytes (e.2.off + o) (min 960 (e.2.len - o)))
    else none)

/-- The head and data of a segment (Table 8). -/
def segBody (load entry seg off : Nat) (data : List Byte) : List Byte :=
  leBytes 4 (load % 2 ^ 16 + entry * 2 ^ 16) ++ leBytes 4 seg ++ leBytes 4 off ++ leBytes 4 data.length ++
    shake256 16 data ++ data

/-- The entries that a member module receives. -/
def Image.forMod (x : Image) (slices : List Nat) (mod : Nat) : List (Nat × DirEnt) :=
  x.ents.filter (fun e => e.2.typ ≠ 1 && slices.contains e.2.sid &&
    (agentKind e.2.agent = 7 || bits e.2.agent 11 0 = mod))

/-- The RIG_PLAN bodies for a member: the load, FLAGS, and for each entry its index, segments and directory entry. -/
def Image.plan (x : Image) (load : Nat) (slices : List Nat) (mod : Nat) : List (List Byte) :=
  let items := (x.forMod slices mod).map (fun e =>
    leBytes 4 e.1 ++ leBytes 4 (x.firstSeg e.1) ++ leBytes 4 e.2.segs ++ slice x.bytes (64 + 32 * e.1) 32)
  (chunks 22 items.length items).map (fun l => leBytes 2 load ++ slice x.bytes 6 2 ++ l.flatMap id)

/-- The slices of a load that a module is a member of. -/
def State.slicesOf (s : State) (mod : Nat) (l : List Nat) : List Nat :=
  l.filter (fun sid => match s.resvOf sid with | some r => r.members.any (fun e => e.1 = mod) | none => false)

/-- A segment sent to one module. -/
def State.sendSeg (s : State) (mod seg : Nat) : State :=
  match (imageOf s.mgr.load.image).segment seg with
  | some (i, o, b) => s.mgtSend mod 0x19 (segBody s.mgr.load.num i seg o b)
  | none => s

/-- Position bitmap of modules of this module's group. -/
def State.posMask (s : State) (mods : List Nat) : Nat :=
  mods.foldl (fun m x => if modGroup x = modGroup s.modId then m ||| 2 ^ modPos x else m) 0

/-- The segments of one directory entry sent: multicast for KIND 7 in this group, to one module otherwise. -/
def State.sendEntry_ (s : State) (x : Image) (e : Nat × DirEnt) : State :=
  let ms := s.others e.2.sid
  let near := ms.filter (fun m => modGroup m = modGroup s.modId)
  let far := ms.filter (fun m => modGroup m ≠ modGroup s.modId)
  s.each e.2.segs (fun j s =>
    let seg := x.firstSeg e.1 + j
    if agentKind e.2.agent = 7 then
      let s := match x.segment seg with
        | some (i, o, b) => if near.isEmpty then s else s.mgtCast (s.posMask near) 0x19 (segBody s.mgr.load.num i seg o b)
        | none => s
      State.eachOf far (fun m s => s.sendSeg m seg) s
    else if ms.contains (bits e.2.agent 11 0) then s.sendSeg (bits e.2.agent 11 0) seg
    else s)

/-- Plans and segments sent to every other member (R326). -/
def State.distribute (s : State) : State :=
  let x := imageOf s.mgr.load.image
  let sl := s.mgr.load.slices
  let mods := (sl.flatMap s.others).foldl addKey []
  let s := State.eachOf mods (fun m s =>
    State.eachOf (x.plan s.mgr.load.num (s.slicesOf m sl) m) (fun b s => s.mgtSend m 0x18 b) s) s
  State.eachOf (x.ents.filter (fun e => e.2.typ ≠ 1)) (fun e s => s.sendEntry_ x e) s

/-! ### The end of a load -/

/-- A load ended in a phase: BUSY 0 and the vector of R417. -/
def State.endLoad (s : State) (phase : Nat) : State :=
  let s := { s with mgr := { s.mgr with load := { s.mgr.load with active := false } } }
  ((s.fset RIG_STAT.PHASE phase).fset RIG_STAT.BUSY 0).irq 2

/-- A load that failed: the error posted and every shadow it wrote emptied, on every member (R188). -/
def State.failLoad (s : State) (e : RigErr) : State :=
  let sl := s.mgr.load.slices
  let s := { s with mgr := { s.mgr with load := { s.mgr.load with spent := s.mgr.load.spent ++ sl, slices := [], armed := [] } } }
  ((State.eachOf sl (fun sid s => (s.dropSlice sid).abandonOthers sid) s).rigErr e).endLoad 5

/-- Whether every member of a slice has reported its load without an error, and that load has not ended since. -/
def State.allReported (s : State) (sid : Nat) : Bool :=
  !s.mgr.load.spent.contains sid && match s.resvOf sid with
  | none => false
  | some r => r.members.all (fun m => s.mgr.load.reports.any (fun t => t.1 = m.1 && t.2.1 = sid && t.2.2.2 = 0))

/-- The load verified once every member of every slice has reported. -/
def State.checkVerified (s : State) : State :=
  if s.mgr.load.active && s.mgr.load.slices.all s.allReported then s.endLoad 4 else s

/-- DONE: agents reported, per cent of the image's agents. -/
def State.setDone (s : State) : State :=
  let l := s.mgr.load
  let x := imageOf l.image
  let count (sid mod mask : Nat) : Nat := (agentsIn (x.sects sid mod) mod mask).length
  let all := l.slices.flatMap (fun sid => match s.resvOf sid with | some r => r.members.map (fun m => (sid, m)) | none => [])
  let total := (all.map (fun e => count e.1 e.2.1 e.2.2)).foldl (· + ·) 0
  let got := (all.map (fun e =>
    if l.reports.any (fun t => t.1 = e.2.1 && t.2.1 = e.1) then count e.1 e.2.1 e.2.2
    else if e.2.1 = s.modId then
      (match s.ctxOf e.1 with | some n => (s.cx n).shadDigs.length | none => 0)
    else 0)).foldl (· + ·) 0
  s.fset RIG_STAT.DONE (if total = 0 then 0 else min 100 (100 * got / total))

/-- A load abandoned for one slice, the others going on (R196). -/
def State.loseSlice (s : State) (sid code : Nat) : State :=
  if !s.mgr.load.slices.contains sid then s
  else
    let s := (s.dropSlice sid).abandonOthers sid
    let s := if code = 0 then s else s.rigCode code 0
    let l := s.mgr.load
    let s := { s with mgr := { s.mgr with load := { l with
      slices := l.slices.filter (fun x => x ≠ sid), armed := l.armed.filter (fun a => a.1 ≠ sid)
      reports := l.reports.filter (fun t => t.2.1 ≠ sid) } } }
    if l.active && s.mgr.load.slices.isEmpty then s.endLoad (if code = 0 then 0 else 5) else s.checkVerified

/-- A report of a member module taken by the management module (R327). -/
def State.takeReport (s : State) (mod sid : Nat) (x : List Byte) (e : RigErr) : State :=
  if !s.mgr.load.slices.contains sid then s
  else if e.code ≠ 0 then (if s.mgr.load.active then s.failLoad e else s)
  else
    let l := s.mgr.load
    let rs := l.reports.filter (fun t => t.1 ≠ mod || t.2.1 ≠ sid) ++ [(mod, sid, x, 0)]
    let s := { s with mgr := { s.mgr with load := { l with reports := rs } } }
    (s.setDone).checkVerified

/-- The RIG_REPORT body: slice, status, error code, section, agent, item, and the exclusive or of the digests. -/
def reportBody (sid status : Nat) (e : RigErr) (x : List Byte) : List Byte :=
  leBytes 4 sid ++ leBytes 4 status ++ leBytes 4 e.code ++ leBytes 4 e.sect ++ leBytes 4 e.agent ++ leBytes 4 e.aux ++ x

/-- The module that loads a slice onto this one: the sender of the plan that brought its sections, else the acting manager. -/
def State.loaderOf (s : State) (sid : Nat) : Nat :=
  match s.mgr.recv with
  | some r => if r.begun.contains sid then epMod r.src else s.fget FAB_MGR_ID.ACTING
  | none => s.fget FAB_MGR_ID.ACTING

/-- A module's report of a slice: to itself where it loads the slice as ACTING, to the loading module elsewhere. -/
def State.report (s : State) (sid : Nat) (e : RigErr) (x : List Byte) : State :=
  if s.acting && s.loaderOf sid = s.modId then s.takeReport s.modId sid x e
  else s.mgtSend (s.loaderOf sid) 0x1B (reportBody sid (b2n (e.code = 0)) e x)

/-! ### Agents (R176 to R181, R188) -/

/-- The MLA of the 8 KiB that a weight load takes from LPDDR5: staged bytes, or the current slot of its tile record. -/
def State.loadFrom (s : State) (p : Nat) (r : LoadRec) : Option Nat :=
  match r.kind with
  | 0 => none
  | 1 => some r.src
  | _ => let a := mlaOf p r.ch (64 * r.cda); some (tileSlot a (s.tileHdr a).cur)

/-- The 8 KiB source of a weight load, if it can be read. -/
def State.loadSource (s : State) (l : List Sect) (ep p : Nat) (r : LoadRec) : Option (List Byte) :=
  match s.loadFrom p r with
  | none =>
    (l.find? (fun x => x.typ = 0x0034 && x.agent = ep && decide (x.count ≤ r.src) &&
      decide (r.src + 8192 ≤ x.count + x.bytes.length))).map (fun x => slice x.bytes (r.src - x.count) 8192)
  | some a => if (s.memFail a 8192).isSome then none else some (s.memRead a 8192)

/-- The weight loads of an endpoint agent. -/
def loadRecs (l : List Sect) (agent : Nat) : List LoadRec :=
  let x := sectOf l 0x0033 agent
  (List.range x.count).map (fun i => loadRecOf (x.item 32 i))

/-- The parity hits of the weight loads of an endpoint agent, counted and reported (R506). -/
def State.loadHits (s : State) (l : List Sect) (agent : Nat) : State :=
  State.eachOf (loadRecs l agent) (fun r s =>
    match s.loadFrom (agentPart agent) r with
    | some a => s.memHits a 8192
    | none => s) s

/-- One weight load done: both slots, the header and the bank (R180). -/
def State.weightLoad (s : State) (p : Nat) (r : LoadRec) (b : List Byte) : State :=
  let a := mlaOf p r.ch (64 * r.cda)
  let d := slotDigest b
  let hdr := leBytes 4 (bits r.dest 19 0) ++ leBytes 4 0 ++ d ++ d ++ List.replicate 24 0
  let s := s.memWrite a (hdr ++ b ++ b)
  let k := (p * 75 + bits r.dest 6 0) * 250 + bits r.dest 14 7
  let base := 8192 * bits r.dest 19 15
  s.modCo k (fun c => { c with banks := putBytes c.banks base b,
                               bad := c.bad.filter (fun x => x < base || base + 8192 ≤ x) })

/-- The weight loads of an endpoint agent, in order; the section's bytes as the digest takes them. -/
def State.weightLoads (s : State) (l : List Sect) (ep p : Nat) : List LoadRec → List Byte → State × List Byte
  | [], _ => (s, [])
  | r :: t, raw =>
    match s.loadSource l ep p r with
    | none => let (s, m) := State.weightLoads s l ep p t (raw.drop 32); (s, raw.take 32 ++ m)
    | some b =>
      let (s, m) := State.weightLoads (s.weightLoad p r b) l ep p t (raw.drop 32)
      (s, raw.take 32 ++ (if r.kind = 0 then digest b else []) ++ m)

/-- Whether an engine of a partition is missing: failed with no spare left (R150, R365). -/
def State.engLost (s : State) (p e : Nat) : Bool :=
  ((s.en (8 * p + e)).failed && s.physEng p e ≠ 8) || (s.pt p).retired.contains (256 + s.physEng p e, 256)

/-- The checks of an endpoint agent. -/
def State.endpointErr (s : State) (n p : Nat) : Option (Nat × Nat × Nat) :=
  let l := (s.cx n).shadow
  let ep := endpointAgent s.modId p
  let rx := sectOf l 0x0030 ep
  let regs := regionsOf rx
  let rcps := let x := sectOf l 0x0031 ep; (List.range x.count).map (fun i => recipeOf (x.item 160 i))
  let sched := s.shadSched n
  let ws := sectOf l 0x0033 ep
  let role (c k b : Nat) : Nat := (coreCfgIn (sectOf l 0x0010 (routerAgent s.modId p c)) k).role b
  let blob (o : Nat) : Bool := l.any (fun x => x.typ = 0x0034 && x.agent = ep && decide (x.count ≤ o) &&
    decide (o + 8192 ≤ x.count + x.bytes.length))
  let tag (t : Nat) (e : ItemErr) : Option (Nat × Nat × Nat) := e.map (fun x => (t, x.1, x.2))
  let delta := s.flag (RIG_SL_STAT.DELTA n)
  (tag 0x0030 (regionSectErr rx)).orElse (fun _ => tag 0x0031 (recipeErr (sectOf l 0x0031 ep)))
    |>.orElse (fun _ => tag 0x0032 (jobSectErr regs rcps (sched.pub p) sched.cycle (s.engLost p) (sectOf l 0x0032 ep)))
    |>.orElse (fun _ => if !delta && s.slState n ≠ 0 then some (0x0002, 0x10, 0) else none)
    |>.orElse (fun _ => if delta then none else
        tag 0x0033 ((List.range ws.count).findSome? (fun i => loadErr regs role blob i (ws.item 32 i))))
    |>.orElse (fun _ => if delta then none else
        tag 0x0033 ((List.range ws.count).findSome? (fun i =>
          bad (s.loadSource l ep p (loadRecOf (ws.item 32 i))).isNone 0x22 i)))

/-- Whether a delta changes the roles of some core of a cluster (R181). -/
def rolesChange (old new : Sect) : Bool :=
  (List.range 250).any (fun i => (coreCfgIn old i).roles ≠ (coreCfgIn new i).roles)

/-- The checks of a router agent. -/
def State.routerErr (s : State) (n p c : Nat) : Option (Nat × Nat × Nat) :=
  let l := (s.cx n).shadow
  let a := routerAgent s.modId p c
  let sched := s.shadSched n
  let clock := (s.shadMap n).clock
  let tag (t : Nat) (e : ItemErr) : Option (Nat × Nat × Nat) := e.map (fun x => (t, x.1, x.2))
  let cores := sectOf l 0x0010 a
  (tag 0x0010 (bad (s.flag (RIG_SL_STAT.DELTA n) && rolesChange (sectOf (s.cx n).active 0x0010 a) cores) 0x0F 0)).orElse
      (fun _ => tag 0x0010 (coreSectErr clock (sched.cycles clock) (sectOf l 0x0012 a).count cores))
    |>.orElse (fun _ => tag 0x0011 (dispatchErr (sectOf l 0x0011 a)))
    |>.orElse (fun _ => tag 0x0012 (funcErr (sectOf l 0x0012 a)))
    |>.orElse (fun _ => tag 0x0010 (s.pubTableErr l p c))
    |>.orElse (fun _ => tag 0x0020 (s.routerStrandErr l sched clock p c))
    |>.orElse (fun _ => tag 0x0021 (routeErr (sectOf l 0x0021 a)))
    |>.orElse (fun _ => tag 0x0022 (s.treeSectErr l p c))

/-- The checks of a port agent. -/
def State.portErr (s : State) (n q : Nat) : Option (Nat × Nat × Nat) :=
  let l := (s.cx n).shadow
  let tag (t : Nat) (e : ItemErr) : Option (Nat × Nat × Nat) := e.map (fun x => (t, x.1, x.2))
  (tag 0x0020 (s.portStrandErr l (s.shadSched n) n q)).orElse
    (fun _ => tag 0x0021 (routeErr (sectOf l 0x0021 (portAgent s.modId q))))

/-- The checks of an agent, a parity hit in its shadow state before them (R196): type, error code and item of the first failure. -/
def State.agentErr (s : State) (n agent : Nat) : Option (Nat × Nat × Nat) :=
  if (s.cx n).shadBad.contains agent then some (0, 0x2A, 0)
  else match agentKind agent with
  | 0 => if s.mapStateErr (s.shadMap n) then some (0x0002, 0x0C, 0)
         else s.ctxErr n (s.flag (RIG_SL_STAT.DELTA n)) (s.shadMap n) (s.shadSched n)
  | 1 => s.endpointErr n (agentPart agent)
  | 2 => s.routerErr n (agentPart agent) (agentClus agent)
  | _ => s.portErr n (agentPort agent)

/-- The directory entry of an agent's section of a type, as the load at hand knows it. -/
def State.sectIndex (s : State) (sid typ agent : Nat) : Nat :=
  let own := if agentKind agent = 0 then everyHub else agent
  let ents := if s.acting && s.mgr.load.slices.contains sid then (imageOf s.mgr.load.image).ents
    else match s.mgr.recv with
      | some r => r.heads.map (fun h => (h.1, dirEntOf h.2))
      | none => []
  ((ents.find? (fun e => e.2.sid = sid && e.2.typ = typ && e.2.agent = own)).map Prod.fst).getD 0xFFFF

/-- What an endpoint agent writes when its checks pass: the weight loads, whose section then holds what its digest takes. -/
def State.agentWrite (s : State) (n agent : Nat) : State :=
  if agentKind agent ≠ 1 || s.flag (RIG_SL_STAT.DELTA n) then s
  else
    let l := (s.cx n).shadow
    let x := sectOf l 0x0033 agent
    let (s, m) := s.weightLoads l agent (agentPart agent) (loadRecs l agent) x.bytes
    s.modCx n (fun c => { c with shadow :=
      (putSect c.shadow ⟨0x0033, agent, x.count, m⟩).filter (fun y => y.typ ≠ 0x0034 || y.agent ≠ agent) })

/-- Whether this module holds every section of its plan. -/
def State.planDone (s : State) : Bool :=
  match s.mgr.recv with
  | none => true
  | some r => r.plan.all (fun e => (List.range e.2.2).all (fun j => r.segs.any (fun g => g.1 = e.2.1 + j)))

/-- A slice's local load that ends in an error (R188, Table 8). -/
def State.agentFail (s : State) (n : Nat) (e : RigErr) : State :=
  let sid := s.slId n
  (s.dropShadow n).report sid e (List.replicate 32 0)

/-- One agent's report (R188, R189, R327). -/
def State.agentReport (s : State) (n agent : Nat) : State :=
  let sid := s.slId n
  if s.fget (RIG_SL_STAT.SHADOW n) ≠ 1 || !((s.acting && s.mgr.load.slices.contains sid) || s.planDone) ||
      !(s.shadAgents n).contains agent || (s.cx n).shadDigs.any (fun d => d.1 = agent) then s
  else match s.agentErr n agent with
    | some (t, code, aux) =>
      let s := if code = 0x22 then s.loadHits (s.cx n).shadow agent else s
      s.agentFail n ⟨code, s.sectIndex sid t agent, agent, aux⟩
    | none =>
      let s := s.agentWrite n agent
      let d := agentDigest (s.cx n).shadow sid (s.shadMap n).epoch agent
      let s := s.modCx n (fun c => { c with shadDigs := c.shadDigs ++ [(agent, d)] })
      let s := if s.acting && s.mgr.load.active && s.mgr.load.slices.contains sid then (s.fset RIG_STAT.PHASE 3).setDone else s
      if (s.shadAgents n).all (fun a => (s.cx n).shadDigs.any (fun e => e.1 = a)) then
        let s := s.fset (RIG_SL_STAT.SHADOW n) 2
        s.report sid ⟨0, 0xFFFF, 0, 0⟩ (xorAll ((s.cx n).shadDigs.map Prod.snd))
      else s

/-! ### RIG_CMD (R187, R190) -/

/-- Whether `n` bytes at an MLA are mapped and lie in one partition. -/
def mlaRange (a n : Nat) : Bool := mlaMapped a && mlaMapped (a + n - 1) && mlaPart a = mlaPart (a + n - 1)

/-- A load that passes its checks: shadows begun here, plans and sections sent (R188, R326). -/
def State.startLoad (s : State) (x : Image) : State :=
  let sl := x.slices
  let keep := s.mgr.load.reports.filter (fun t => !sl.contains t.2.1)
  let digs := sl.map (fun sid => (4096, sid, (match x.find sid 0x0002 with
    | some (_, d) => (sliceMapOf (x.data d)).digest | none => []), 0))
  let s := s.modMgr (fun y => { y with
    load := { active := true, num := (y.load.num + 1) % 2 ^ 16, image := x.bytes.take x.total, slices := sl,
              reports := keep ++ digs, begun := s.now, delta := x.delta, armed := y.load.armed.filter (fun a => !sl.contains a.1)
              spent := y.load.spent.filter (fun sid => !sl.contains sid) }
    recv := y.recv.map (fun r => { r with begun := r.begun.filter (fun sid => !sl.contains sid) }) })
  let s := ((s.fset RIG_STAT.BUSY 1).fset RIG_STAT.PHASE 2).fset RIG_STAT.DONE 0
  let s := State.eachOf sl (fun sid s =>
    match s.ctxFor sid with
    | none => s
    | some n => State.eachOf (x.sects sid s.modId) (fun y s => s.takeSect n y)
        ((s.dropShadow n).beginShadow n sid x.delta)) s
  s.distribute

/-- The image staged at RIG_SRC, if its extent is mapped. -/
def State.stagedImage (s : State) : Option Image :=
  let a := s.pair RIG_SRC_LO.off % 2 ^ 40
  if !mlaRange a 64 then none
  else
    let n := leAt (s.memRead a 64) 16 8
    if n < 64 then some (imageOf (s.memRead a 64))
    else if mlaRange a n then some (imageOf (s.memRead a n)) else none

/-- Whether slices wait for their warm re-apply after a wake (R194). -/
def State.rewarming (s : State) : Bool :=
  s.flag RIG_CTL.WARM_EN && (s.pwr.fromTgt = 2 || s.pwr.fromTgt = 3) && s.part.any (fun e => !e.2.reapply.isEmpty)

/-- LOAD (R187, R188). -/
def State.rigLoad (s : State) : State :=
  if !s.acting then s.rigCode 0x2D 0
  else if s.flag RIG_STAT.BUSY || s.rewarming then s.rigCode 0x2C 0
  else
    let s := s.rigCode 0 0
    match s.stagedImage with
    | none => ((s.rigCode 0x03 0).fset RIG_STAT.PHASE 5).irq 2
    | some x =>
      match s.imageErr x with
      | some e => ((s.rigErr e).fset RIG_STAT.PHASE 5).irq 2
      | none => s.startLoad x

/-- The tick period in force at a global step. -/
def State.periodAt (s : State) (t : Nat) : Nat :=
  if s.flag TCK_CTL.PERIOD_ARM && s.pair TCK_PERIOD_AT_LO.off ≤ t then s.fget TCK_PERIOD_NEXT.NEXT
  else s.fget TCK_PERIOD.PERIOD

/-- A verified shadow armed for a step; an IDLE slice enters ARMED (R189, R190). -/
def State.armCommit (s : State) (n t : Nat) : State :=
  let s := (s.fset (RIG_SL_STAT.SHADOW n) 3).setPair (RIG_SL_AT_LO.off n) t
  let s := s.modCx n (fun c => { c with refused := false, lost := false })
  let s := { s with tick := { s.tick with unarmed := s.tick.unarmed.filter (fun e => e.1 ≠ s.slId n) } }
  if s.slState n = 0 then s.setSlState n 1 else s

/-- A commit step that a module knows of without being ARMED for it: it refuses at K (R191). -/
def State.noteUnarmed (s : State) (sid t : Nat) : State :=
  { s with tick := { s.tick with unarmed := s.tick.unarmed.filter (fun e => e.1 ≠ sid) ++ [(sid, t)] } }

/-- COMMIT on a member module, written by the manager; in STANDBY no slice leaves IDLE or HOLD, so the module does not arm (R390). -/
def State.commitLocal (s : State) (sid t : Nat) : State :=
  match s.ctxOf sid with
  | none => (s.rigCode 0x26 sid).noteUnarmed sid t
  | some n =>
    if s.fget (RIG_SL_STAT.SHADOW n) ≠ 2 then (s.rigCode 0x26 sid).noteUnarmed sid t
    else if s.fget PWR_STAT.STATE ≠ 0 then s.noteUnarmed sid t
    else if t ≤ s.step then s.rigCode 0x27 sid
    else if (s.shadSched n).period ≠ s.periodAt t then (s.rigCode 0x11 sid).noteUnarmed sid t
    else s.armCommit n t

/-- Whether this module is itself a member of a slice of its reservation. -/
def State.ownMember (s : State) (sid : Nat) : Bool :=
  (s.others sid).length ≠ ((s.resvOf sid).map (fun r => r.members.length)).getD 0

/-- The commit of a slice armed on every member for a step (R190). -/
def State.armAll (s : State) (sid t : Nat) : State :=
  let s := if s.ownMember sid then s.armCommit ((s.ctxFor sid).getD 0) t else s
  let l := s.mgr.load
  let s := { s with mgr := { s.mgr with load := { l with armed := l.armed.filter (fun a => a.1 ≠ sid) ++ [(sid, t)] } } }
  State.eachOf (s.others sid) (fun m s => s.askWrite m
    [(RIG_AT_LO.off, t % 2 ^ 32), (RIG_AT_LO.off + 4, t / 2 ^ 32), (RIG_CMD.off, rigCmdWord 2 sid)]) s

/-- The commits that waited for the standby's answer armed, unless their step has come meanwhile (R310). -/
def State.armCommits (s : State) : State :=
  if s.mgr.commits.isEmpty || s.mgr.awaits.any (fun a => a.job = 5) then s
  else
    let l := s.mgr.commits
    State.eachOf l (fun e s =>
      if !s.allReported e.1 then s.rigCode 0x26 e.1 else if e.2 ≤ s.step + 1 then s.rigCode 0x27 e.1 else s.armAll e.1 e.2)
      (s.modMgr (fun x => { x with commits := [] }))

/-- COMMIT on the management module (R190): armed once the standby has answered its record (R310). -/
def State.commitAll (s : State) (sid t : Nat) : State :=
  let reports := s.mgr.load.reports.filter (fun r => r.2.1 = sid && r.1 < 4096)
  let want := ((s.mgr.load.reports.find? (fun r => r.1 = 4096 && r.2.1 = sid)).map (fun r => r.2.2.1)).getD []
  let own := s.ownMember sid
  let n := (s.ctxFor sid).getD 0
  if !s.allReported sid || (own && (s.fget (RIG_SL_STAT.SHADOW n) ≠ 2 || s.slId n ≠ sid)) then s.rigCode 0x26 sid
  else if xorAll (reports.map (fun r => r.2.2.1)) ≠ want then s.rigCode 0x24 sid
  else if t < s.step + s.fget RIG_CTL.LEAD then s.rigCode 0x27 sid
  else if (own && (s.shadSched n).period ≠ s.periodAt t) ||
      (match (imageOf s.mgr.load.image).find sid 0x0003 with
       | some (_, e) => (tickSchedOf ((imageOf s.mgr.load.image).data e)).period ≠ s.periodAt t
       | none => false) then s.rigCode 0x11 sid
  else
    let s := s.modMgr (fun x => { x with commits := x.commits.filter (fun e => e.1 ≠ sid) ++ [(sid, t)] })
    (s.journal 13 5 (leBytes 4 sid ++ leBytes 8 t ++ want)).armCommits

/-- ABANDON (R187, R189). -/
def State.rigAbandon (s : State) (sid : Nat) : State :=
  let s := s.modMgr (fun x => { x with commits := x.commits.filter (fun e => e.1 ≠ sid) })
  if s.acting && s.mgr.load.slices.contains sid then s.loseSlice sid 0
  else
    let s := s.dropSlice sid
    if s.acting then s.abandonOthers sid else s

/-- A write of RIG_CMD: CMD 1 LOAD, 2 COMMIT, 3 ABANDON; on a module that is not ACTING only its manager commits and
abandons (R306). -/
def State.rigCmd (s : State) (m : Master) (v : Word) : State :=
  let sid := RIG_CMD.SLICE_ID.of v
  let t := s.pair RIG_AT_LO.off
  match RIG_CMD.CMD.of v with
  | 1 => s.rigLoad
  | 2 =>
    if s.acting && (m ≠ 0 || (s.resvOf sid).isSome) then s.commitAll sid t
    else if m = 0 then s.commitLocal sid t else s.rigCode 0x2D sid
  | 3 => if s.acting || m = 0 then s.rigAbandon sid else s.rigCode 0x2D sid
  | _ => s

/-- A write of RIG_CTL: LEAD holds at least 16, TMO at least 1. -/
def State.rigCtl (s : State) (m : Master) (v : Word) : State :=
  let v := RIG_CTL.LEAD.into v (max 16 (RIG_CTL.LEAD.of v))
  let v := RIG_CTL.TMO.into v (max 1 (RIG_CTL.TMO.of v))
  s.store m RIG_CTL.off v

/-! ### Commit (R141, R192) -/

/-- Registers whose fields of a retention class return to reset, for the offsets that `p` names; a snapshot of one of them then
reads 0 (R10). -/
def State.resetRegs (s : State) (cls : Retain → Bool) (p : Nat → Bool) : State :=
  let s := State.eachOf (s.regs.map Prod.fst) (fun off s =>
    if !p off then s
    else match regRow? off with
      | none => s
      | some r => State.eachOf (r.flds.filter (fun f => cls f.ret)) (fun f s => s.fset ⟨off, f.hi, f.lo⟩ f.rst) s) s
  s.unsnap (fun off => p off && (match regRow? off with | none => false | some r => r.flds.any (fun f => cls f.ret)))

/-- Whether an offset lies in the per-context registers of a context in the TCK and RIG blocks. -/
def ctxRegs (n off : Nat) : Bool :=
  (TCK_SL_CTL.off n ≤ off && off < TCK_SL_CTL.off n + 0x40) || (RIG_SL_STAT.off n ≤ off && off < RIG_SL_STAT.off n + 0x40)

/-- Whether an offset lies in the PRT window of a partition. -/
def partRegs (p off : Nat) : Bool := 0x200000 + 0x10000 * p ≤ off && off < 0x210000 + 0x10000 * p

/-- Whether a bank is in the RETAIN mask in use (R394, R395). -/
def State.bankKept (s : State) (cfg : CoreCfg) (b : Nat) : Bool :=
  let r := cfg.role b
  r ≠ 0 && s.pwr.fromTgt = 2 && !s.flag PWR_STAT.MASK_LOST &&
    ((s.fget PWR_RMASK_USED.BANKS).testBit b || (s.fget PWR_RMASK_USED.ROLES).testBit (r - 1))

/-- A core with only the banks that `keep` names, the others zero with good parity. -/
def CoreSt.keepBanks (keep : Nat → Bool) (c : CoreSt) : CoreSt :=
  { c with banks := Store.clear (fun a => !keep (a / 8192)) c.banks, bad := c.bad.filter (fun a => keep (a / 8192)) }

/-- A core at a commit: banks that are neither UNUSED nor WEIGHT are zero, everything else as at reset (R141, R192). -/
def CoreSt.atCommit (cfg : CoreCfg) (c : CoreSt) : CoreSt :=
  let d := c.keepBanks (fun b => cfg.role b ≤ 1)
  { CoreSt.init with banks := d.banks, bad := d.bad, silent := c.silent }

/-- The owner of the partitions of a mask. -/
def State.setOwner (s : State) (mask : Nat) (n : Option (Fin 16)) : State :=
  State.eachOf (maskParts mask) (fun p s => s.modPt p (fun t => { t with owner := n })) s

/-- The digests of a context's rigging shown in its registers. -/
def State.setDigests (s : State) (n : Nat) : State :=
  let d := (s.sliceMap n).digest
  let x := xorAll ((s.cx n).digs.map Prod.snd)
  let s := s.each 8 (fun i s => s.setReg (RIG_SL_DIGEST.off n i) (BitVec.ofNat 32 (leAt d (4 * i) 4)))
  s.each 4 (fun i s => s.setReg (RIG_SL_LOCAL.off n i) (BitVec.ofNat 32 (leAt x (4 * i) 4)))

/-- The commit tick of a context (R192). -/
def State.commitRig (s : State) (n : Fin 16) : State :=
  let k := n.val
  let old := (s.sliceMap k).mask s.modId
  let m := s.shadMap k
  let mask := m.mask s.modId
  let was := s.slState k
  let s := if s.flag (RIG_SL_STAT.ACTIVE k) then s.settleGone k else s.settleHold k
  let s := s.setOwner (if s.flag (RIG_SL_STAT.ACTIVE k) then old else 0) none
  let s := s.modCx k (fun c =>
    { CtxSt.init with active := c.shadow, digs := c.shadDigs, commitTick := true })
  let s := s.setOwner mask (some n)
  let s := s.resetRegs (fun r => r = .tick) (fun off => ctxRegs k off || (maskParts mask).any (fun p => partRegs p off))
  let s := if 2 ≤ was && was ≤ 4 then s else s.calFresh k
  let s := (s.setSlState k 2).fset (TCK_SL_STAT.SLICE_ID k) m.id
  let s := ((s.fset (RIG_SL_STAT.SHADOW k) 0).fset (RIG_SL_STAT.DELTA k) 0).fset (RIG_SL_STAT.ACTIVE k) 1
  let s := (s.fset (RIG_SL_STAT.WARM k) 0).fset (RIG_SL_STAT.SLICE_ID k) m.id
  let s := ((s.fset (RIG_SL_EPOCH.LAST k) m.epoch).fset (RIG_SL_EPOCH.LAST_VALID k) 1).fset (RIG_SL_EPOCH.SHADOW_LO k) 0
  let s := s.setDigests k
  let s := State.eachOf (s.coresAt k) (fun c s => s.modCo c (CoreSt.atCommit (s.coreCfg k c))) s
  let s := State.eachOf (s.engsOf k) (fun e s => s.modEn e (fun x => { EngSt.init with failed := x.failed })) s
  let s := State.eachOf (maskParts mask) (fun p s => (s.each 75 (fun c s =>
    s.modCl (p * 75 + c) (fun x => { x with trees := [], fenced := [] }))).fencedStat p |>.modPt p (fun t => { t with served := [] })) s
  let s := (s.releaseFrz (fun e => e.slice = m.id)).needAll
  let s := s.modMgr (fun x => { x with folds := x.folds.map (fun f => if f.slice = m.id then { f with void := true } else f) })
  s.event 0xE006 (m.id + m.epoch * 2 ^ 16) (s.step % 2 ^ 32) (s.step / 2 ^ 32)

/-- A commit that the manager has armed is missed: its load may be committed again (R190, R191). -/
def State.disarm (s : State) (sid : Nat) : State :=
  { s with mgr := { s.mgr with load := { s.mgr.load with armed := s.mgr.load.armed.filter (fun a => a.1 ≠ sid) } } }

/-- The commits that this module has armed as the manager and that the step that begins completes: the load of each is over, and its
sections are those of the active rigging (R181, R190). -/
def State.edgeLoad (s : State) : State :=
  State.eachOf (s.mgr.load.armed.filter (fun a => a.2 ≤ s.step)) (fun a s =>
    let l := s.mgr.load
    { s with mgr := { s.mgr with
      rigs := s.mgr.rigs.filter (fun r => r.1 ≠ a.1) ++ [(a.1, s.rigOf (imageOf l.image) a.1)]
      load := { l with armed := l.armed.filter (fun b => b.1 ≠ a.1), slices := l.slices.filter (fun x => x ≠ a.1)
                       spent := addKey l.spent a.1 } } }) s

/-- A commit missed (R191): VERIFIED again, MISSED set and posted; an armed slice is IDLE. -/
def State.missRig (s : State) (n : Nat) : State :=
  let s := s.disarm (s.slId n)
  let s := ((s.fset (RIG_SL_STAT.SHADOW n) 2).fset (RIG_SL_STAT.MISSED n) 1).setPair (RIG_SL_AT_LO.off n) 0
  let s := s.modCx n (fun c => { c with refused := false, lost := false })
  let s := if s.slState n = 1 then s.setSlState n 0 else s
  s.rigCode 0x28 (s.slId n)

/-- The REFUSE message (R191, R225). -/
def refuseMsg (slice step : Nat) : BitVec 48 := BitVec.ofNat 48 (4 + slice % 4096 * 2 ^ 4 + step % 2 ^ 16 * 2 ^ 16)

/-- A context that stops being ARMED by a reset: its commit is missed here (R12, R376), and the module refuses it: at K of the tick that
ends at the commit step, or at once where that K has passed (R191). -/
def State.unarm (s : State) (n : Nat) : State :=
  if s.fget (RIG_SL_STAT.SHADOW n) ≠ 3 then s
  else
    let sid := s.slId n
    let t := s.pair (RIG_SL_AT_LO.off n)
    let s := if t = s.step + 1 && s.closePoint n ≤ s.tbCount then s.ctlAll (refuseMsg sid t) else s.noteUnarmed sid t
    s.missRig n

/-! ### System-area copies and warm re-apply (R193 to R195) -/

/-- The sections that a partition's copy holds: those of its agents, of the hubs and of the ports, without BLOB sections and
WEIGHT_LOAD records (R193). -/
def copySects (l : List Sect) (p : Nat) : List Sect :=
  l.filter (fun x => x.typ ≠ 0x0034 && x.typ ≠ 0x0033 &&
    (agentKind x.agent = 7 || agentKind x.agent = 3 || agentPart x.agent = p))

/-- The digests that a partition's copy holds. -/
def copyDigs (l : List (Nat × List Byte)) (p : Nat) : List (Nat × List Byte) :=
  l.filter (fun d => agentKind d.1 = 0 || agentKind d.1 = 3 || agentPart d.1 = p)

/-- The copy of a context's active rigging for a partition. An endpoint agent's digest covers WEIGHT_LOAD records, which the copy does
not hold, so the copy keeps beside every agent digest the digest over what it holds (DESIGN CHOICE, log entry 18). -/
def State.copyOf (s : State) (n p : Nat) : CopySt :=
  let l := copySects (s.cx n).active p
  let digs := copyDigs (s.cx n).digs p
  { sects := l, copied := digs.map (fun d => (d.1, agentDigest l (s.slId n) (s.fget (RIG_SL_EPOCH.LAST n)) d.1)),
    engs := (List.range 8).map (fun e => s.en (8 * p + e)), digs := digs, sid := s.slId n,
    epoch := s.fget (RIG_SL_EPOCH.LAST n), step := s.slStep n, state := s.slState n, good := true }

/-- A partition's copy put on a channel: a partition belongs to one slice, so it replaces every earlier one. -/
def ChanSt.putCopy (n : Nat) (c : CopySt) (x : ChanSt) : ChanSt := { x with copies := [(n, c)] }

/-- The active rigging of a partition written into the copies of channels 8p and 8p + 4 (R193). -/
def State.writeCopy (s : State) (n p : Nat) : State :=
  let c := s.copyOf n p
  (s.modCh (8 * p) (ChanSt.putCopy n c)).modCh (8 * p + 4) (ChanSt.putCopy n c)

/-- The usable copy of a context on a partition: channel 8p, or 8p + 4 where its digest fails. -/
def State.goodCopy (s : State) (n p : Nat) : Option CopySt :=
  [8 * p, 8 * p + 4].findSome? (fun k =>
    ((s.ch k).copies.find? (fun e => e.1 = n && e.2.good)).map Prod.snd)

/-- Whether every digest of a copy, computed again, is the stored one. -/
def CopySt.holds (c : CopySt) : Bool := c.copied.all (fun d => agentDigest c.sects c.sid c.epoch d.1 = d.2)

/-- The WEIGHT banks of a partition's cores that `keep` does not name, loaded from the current slots of their tiles. -/
def State.reloadWeights (s : State) (n p : Nat) (keep : CoreCfg → Nat → Bool) : State :=
  State.eachOf (s.tiles n p) (fun a s =>
    let h := s.tileHdr a
    let k := (p * 75 + h.clus) * 250 + h.core
    let cfg := s.coreCfg n k
    if cfg.role h.bank ≠ 1 || keep cfg h.bank then s
    else match s.tileSource n a h.bank (s.co k) with
      | (s, some bs) => s.modCo k (CoreSt.putBank h.bank bs)
      | (s, none) => s) s

/-- The cores of a context on one partition. -/
def State.coresIn (s : State) (n p : Nat) : List Nat := (s.coresAt n).filter (fun k => corePart k = p)

/-- The agents of a partition restored from a copy, with the banks that `keep` names kept and the others zero or reloaded. -/
def State.applyCopy (s : State) (n : Fin 16) (p : Nat) (c : CopySt) (keep : CoreCfg → Nat → Bool) : State :=
  let k := n.val
  let s := s.modCx k (fun x => { x with
    active := c.sects.foldl putSect x.active,
    digs := x.digs.filter (fun d => c.digs.all (fun e => e.1 ≠ d.1)) ++ c.digs })
  let s := s.modPt p (fun t => { t with owner := some n })
  let s := State.eachOf (s.coresIn k p) (fun q s =>
    s.modCo q (fun x => { x.boundary.keepBanks (keep (s.coreCfg k q)) with silent := x.silent })) s
  let s := s.each 8 (fun e s => s.modEn (8 * p + e) (fun x => { (c.engs.getD e EngSt.init).boundary with failed := x.failed }))
  s.reloadWeights k p keep

/-- The registers of a slice that is re-applied: HOLD by command, or with the cause of a tile that was lost, its epoch and step
restored (R149, R194). -/
def State.rewarm (s : State) (n : Nat) (c : CopySt) : State :=
  let s := ((s.setSlState n 5).fset (TCK_SL_STAT.HOLD_CAUSE n) ((s.cx n).holdNext.getD 1)).fset (TCK_SL_STAT.SLICE_ID n) c.sid
  let s := s.setPair (TCK_SL_STEP_LO.off n) c.step
  let s := ((s.fset (RIG_SL_STAT.ACTIVE n) 1).fset (RIG_SL_STAT.WARM n) 1).fset (RIG_SL_STAT.SLICE_ID n) c.sid
  let s := (s.fset (RIG_SL_EPOCH.LAST n) c.epoch).fset (RIG_SL_EPOCH.LAST_VALID n) 1
  s.setDigests n

/-- A context returned to IDLE with nothing loaded; the epoch on record stays (R186). -/
def State.idleCtx (s : State) (n : Nat) : State :=
  let s := (s.settleGone n).unarm n
  let s := s.dropShadow n
  let mask := (s.sliceMap n).mask s.modId
  let s := if s.flag (RIG_SL_STAT.ACTIVE n) then s.setOwner mask none else s
  let s := s.modCx n (fun _ => CtxSt.init)
  let s := s.resetRegs (fun r => r = .tick) (ctxRegs n)
  let s := s.setSlState n 0
  (((s.fset (RIG_SL_STAT.ACTIVE n) 0).fset (RIG_SL_STAT.WARM n) 0).fset (RIG_SL_STAT.SLICE_ID n) 0).needAll

/-- A warm re-apply that fails (R195): the slice's contexts go to IDLE on every member. -/
def State.warmFail (s : State) (n sid : Nat) : State :=
  let s := (s.idleCtx n).rigCode 0x2B sid
  if s.acting then
    State.eachOf (s.others sid) (fun m s =>
      match s.resvOf sid with
      | some r =>
        match r.ctx.find? (fun e => e.1 = m) with
        | some (_, c) => s.askWrite m [(HUB_RST_CMD.off, HUB_RST_CMD.CMD.into (HUB_RST_CMD.CTX.into 0 c) 2 |>.toNat)]
        | none => s
      | none => s) s
  else s.mgtSend (s.fget FAB_MGR_ID.ACTING) 0x1B (reportBody sid 0 ⟨0x2B, 0xFFFF, 0, sid⟩ (List.replicate 32 0))

/-- The failing copies of a context on a partition reported; the address is that of the system area (R146, R147). -/
def State.copyFaults (s : State) (n p : Nat) : State :=
  State.eachOf [0, 4] (fun k s =>
    if (s.ch (8 * p + k)).copies.any (fun e => e.1 = n && !e.2.good) then
      s.raise 0x0606 (srcWord p k 0) 0x1F8000000 0
    else s) s

/-- The slices that held a partition re-applied from its copies after RETAIN (R194, R195). -/
def State.warmPart (s : State) (p : Nat) : State :=
  State.eachOf ((s.pt p).reapply.map Fin.val) (fun n s =>
    let s := s.copyFaults n p
    match s.goodCopy n p with
    | none =>
      let sid := (((s.ch (8 * p)).copies.find? (fun e => e.1 = n)).map (fun e => e.2.sid)).getD 0
      s.warmFail n sid
    | some c =>
      if c.holds then (s.applyCopy (Fin.ofNat 16 n) p c s.bankKept).rewarm n c else s.warmFail n c.sid) s

/-! ### Commands -/

/-- LOAD (R187, R188). -/
def execLoad (m : Master) (v : Word) (s : State) : Result :=
  done s (s.gate true m RIG_CMD.off v (fun s => s.rigCmd m v))

/-- ABANDON (R187, R189). -/
def execAbandon (m : Master) (v : Word) (s : State) : Result :=
  done s (s.gate true m RIG_CMD.off v (fun s => s.rigCmd m v))

/-- COMMIT (R190). -/
def execRigCommit (m : Master) (v : Word) (s : State) : Result :=
  done s (s.gate true m RIG_CMD.off v (fun s => s.rigCmd m v))

/-- RIG_CTL and its lock (R198). -/
def execRigLock (m : Master) (v : Word) (s : State) : Result :=
  done s (s.gate true m RIG_CTL.off v (fun s => s.rigCtl m v))

/-- One agent reports (R188, R189). -/
def execAgentReport (n : Ctx) (agent : Word) (s : State) : Result := done s (s.agentReport n.val agent.toNat)

/-- LOADING has lasted RIG_CTL.TMO s (R189, R327). -/
def execLoadTimeout (s : State) : Result :=
  let lim := sUnits (s.fget RIG_CTL.TMO)
  done s (
    if s.mgr.load.active && s.mgr.load.begun + lim ≤ s.now then s.failLoad ⟨0x25, 0xFFFF, 0, 0⟩
    else s.each 16 (fun n s =>
      if s.fget (RIG_SL_STAT.SHADOW n) = 1 && (s.cx n).loadAt + lim ≤ s.now then s.dropShadow n else s))

/-- The endpoint agent writes its copies (R193). -/
def execSystemAreaCopy (part : PartId) (s : State) : Result :=
  done s (
    match (s.pt part.val).owner with
    | some n => if s.flag (RIG_SL_STAT.ACTIVE n.val) then s.writeCopy n.val part.val else s
    | none => s)

end Sys2Proof.Machine
end

