-- ==== Sys2Proof/Machine/Tick.lean ====
section
/-! DEFINITION. The step tick (R33 to R71): the boundary with commit, replay, repair and hold, commands at a named step,
stretch and clock, sync, and calibration slots. -/

namespace Sys2Proof.Machine

/-! ### Period and stretch (R34, R37, R61 to R63, R387) -/

/-- Whether a port is the one followed now: PARENT while its link is trained, otherwise ALT_PARENT; a reference follows only its
uplinks (R65, R67). -/
def State.follows (s : State) (p : Nat) : Bool :=
  let a := s.fget TCK_CTL.PARENT
  let b := s.fget TCK_CTL.ALT_PARENT
  decide (p < 15) && (!s.flag TCK_CTL.ROLE || p = 7 || p = 8) && (p = a || (p = b && !(a < 15 && s.trained a)))

/-- Whether some parent can be followed: the link of the port followed is trained. -/
def State.hasParent (s : State) : Bool := (List.range 15).any (fun p => s.follows p && s.trained p)

/-- A reference that has no parent to follow, the machine coordinator's module or a group reference that no uplink leads to the
coordinator from, free-runs as the reference and counts as locked (R65, R66). -/
def State.isRoot (s : State) : Bool :=
  s.flag TCK_CTL.ROLE && !((List.range 15).any (fun p => s.follows p))

/-- Whether this module is locked (R66). -/
def State.isLocked (s : State) : Bool := s.isRoot || s.flag TCK_SYNC_STAT.LOCKED

/-- Whether a port leads to a module that follows this one (DEDUCED, log entry 61): in the group the peer's e-cube route to the acting
manager's module begins over this cable, and an uplink of a group reference leads to the manager module of another group. -/
def State.childPort (s : State) (p : Nat) : Bool :=
  let own := modPos s.modId
  let n := dims s.groupSize
  !s.follows p && match portPeer n own p with
  | some v => ecubeNext n v (modPos (s.fget FAB_MGR_ID.ACTING)) = some own
  | none => (p = 7 || p = 8) && s.acting && (managersOf s.mgr.manifest (modGroup (s.fget (LNK_EXP_ID.MODID p)))).contains
      (s.fget (LNK_EXP_ID.MODID p))

/-- Whether this module requests a stretch. -/
def State.stretchOwn (s : State) : Bool := s.tick.reqDip || s.tick.reqGov || s.tick.reqTherm

/-- Whether this module or one that follows it, directly or over others, requests a stretch. -/
def State.stretchAsked (s : State) : Bool := s.stretchOwn || !s.tick.reqPeers.isEmpty

/-- Whether the stretch applies here: as the parent says; a module without a parent is the reference that applies it (R62). -/
def State.stretchDue (s : State) : Bool := if s.hasParent then s.tick.order else s.stretchAsked

/-- New requests or orders: the time since which the stretch is due is kept. -/
def State.withReq (s : State) (t : TickSt) : State :=
  let r := { s with tick := t }
  if r.stretchDue && !s.stretchDue then { r with tick := { t with reqAt := s.now } } else r

/-- The largest abort allowance of the contexts at work, 100 units without one. -/
def State.largestA (s : State) : Nat :=
  (List.range 16).foldl (fun m n => if 2 ≤ s.slState n then max m (s.allowance n) else m) 100

/-- The length of the tick that begins now: the period, or ⌈4P/3⌉ while the stretch is due and its request has come with A to spare
(R62). -/
def State.newTick (s : State) : State :=
  let p := s.fget TCK_PERIOD.PERIOD
  if s.stretchDue && s.tick.reqAt + s.largestA ≤ s.now then
    let q := ceilDiv (4 * p) 3
    let was := s.flag TCK_STRETCH.ACTIVE
    let s := (s.fset TCK_STRETCH.ACTIVE 1).fset TCK_STRETCH.CAPPED (b2n (decide (1048575 < q)))
    let s := if was then s else s.fcount TCK_STRETCH.EPISODES 1
    { s with tick := { s.tick with len := min q 1048575, effAt := if was then s.tick.effAt else s.now } }
  else if s.stretchDue && s.flag TCK_STRETCH.ACTIVE then s
  else
    let s := (s.fset TCK_STRETCH.ACTIVE 0).fset TCK_STRETCH.CAPPED 0
    { s with tick := { s.tick with len := p } }

/-- A stretch request of this module's own: cause 0 dip, 1 governor, 2 thermal; the clock steps to 3/4 (R61, R388, R466). -/
def State.askStretch (s : State) (cause : Nat) : State :=
  let t := s.tick
  let t := { t with
    steps := setBits (t.steps ||| 2 ^ cause) (cause + 3) (cause + 3) 0,
    reqDip := t.reqDip || cause = 0, reqGov := t.reqGov || cause = 1, reqTherm := t.reqTherm || cause = 2 }
  (s.withReq t).fset TCK_STRETCH.LOCAL 1

/-- A cause that is over: its clock step and its request end at the next boundary (R63). -/
def State.endStretch (s : State) (cause : Nat) : State :=
  if s.tick.steps.testBit cause then { s with tick := { s.tick with steps := s.tick.steps ||| 2 ^ (cause + 3) } } else s

/-- The causes that are over leave at a boundary; PWR_CLK_SET takes effect (R63, R387). -/
def State.clockEdge (s : State) : State :=
  let t := s.tick
  let ended (c : Nat) : Bool := t.steps.testBit (c + 3)
  let left := (List.range 3).foldl (fun m c => if t.steps.testBit c && !ended c then m + 2 ^ c else m) 0
  let t := { t with clk := s.fget PWR_CLK_SET.CLK, steps := left, reqDip := t.reqDip && !ended 0,
                    reqGov := t.reqGov && !ended 1, reqTherm := t.reqTherm && !ended 2 }
  let s := { s with tick := t }
  s.fset TCK_STRETCH.LOCAL (b2n s.stretchOwn)

/-! ### The boundary of a context (R48 to R58) -/

/-- A command of a context that is due at the global step that begins. -/
def State.cmdDue (s : State) (n cmd : Nat) : Bool :=
  s.flag (TCK_SL_CTL.CMD_ARM n) && s.fget (TCK_SL_CTL.CMD n) = cmd && s.pair (TCK_SL_CMD_AT_LO.off n) = s.step

/-- A replay begun: the attempt count and the replay count advance (R55). -/
def State.beginReplay (s : State) (n : Nat) : State :=
  ((s.setSlState n 3).fset (TCK_SL_STAT.ATTEMPT n) (s.fget (TCK_SL_STAT.ATTEMPT n) + 1)).fcount (TCK_SL_REPLAYS.REPLAYS n) 1

/-- The boundary of a context in RUN or REPLAY whose tick was aborted: a hold cause that stands, or a HOLD command due at this
boundary, comes before a replay and before its exhaustion (R55, R69). DESIGN CHOICE (log entry 20): no message tells a member that
the slice is in REPAIR, so a member that waits for no repair of its own begins the replay here (R56). -/
def State.edgeAborted (s : State) (n : Nat) : State :=
  let s := s.redoUnits n
  match (s.cx n).holdNext with
  | some c => s.enterHold n c true
  | none =>
    if s.cmdDue n 2 then s.enterHold n 1 true
    else if s.fget (TCK_SL_CTL.MAX_REPLAY n) ≤ s.fget (TCK_SL_STAT.ATTEMPT n) then
      (s.raise 0x0102 0 (s.slStep n) (s.slId n)).enterHold n 2 true
    else if !(s.cx n).repairs.isEmpty then (s.setSlState n 4).modCx n (fun c => { c with inRepair := 0 })
    else s.beginReplay n

/-- The boundary of a context in RUN or REPLAY whose tick commits. -/
def State.edgeCommit (s : State) (n : Nat) : State :=
  let s := (s.commitUnits n).settleTick n 1
  let s := s.fset (TCK_SL_STAT.ATTEMPT n) 0
  let s := s.modCx n (fun c => { c with repairs := [] })
  match (s.cx n).holdNext with
  | some c => s.enterHold n c false
  | none => s.setSlState n 2

/-- The boundary of a context, apart from a rigging's commit (R57). -/
def State.edgeState (s : State) (n : Nat) : State :=
  let c := s.cx n
  match s.slState n with
  | 2 | 3 =>
    if c.commitTick then
      let s := s.modCx n (fun c => { c with commitTick := false, aborted := false, started := false })
      match c.holdNext with
      | some h => s.enterHold n h false
      | none => s
    else if c.aborted then s.edgeAborted n
    else s.edgeCommit n
  | 4 =>
    let s := s.treesEnd n false
    match c.holdNext with
    | some h => s.enterHold n h true
    | none =>
      if c.repairs.isEmpty then s.beginReplay n
      else s.modCx n (fun c => { c with inRepair := c.inRepair + 1 })
  | 5 => (s.treesEnd n false).modCx n (fun c => { c with holdNext := none })
  | _ => s

/-- A fence table with a module's partitions set or cleared; it has 16 entries (R296). -/
def setFence (l : List Nat) (who : Nat) (set : Bool) : List Nat :=
  let m := who % 4096
  let old := ((l.find? (fun x => x % 4096 = m)).map (fun x => x / 4096)).getD 0
  let rest := l.filter (fun x => x % 4096 ≠ m)
  let mask := if set then old ||| who / 4096 else old - (old &&& who / 4096)
  if mask = 0 then rest else if old = 0 && 16 ≤ rest.length then l else rest ++ [m + 4096 * mask]

/-- Fences and tree switches that take effect at the global step that begins (R296, R301). -/
def State.edgeFences (s : State) (n : Nat) : State :=
  let now := s.step
  let sw := (s.cx n).treeArm.filter (fun f => f.2.1 = now)
  let s := if s.slState n = 4 || s.slState n = 5 then State.eachOf sw (fun f s => s.treeSwitch n f.1 (fun _ => f.2.2)) s else s
  s.modCx n (fun c =>
    let due := c.fenceArm.filter (fun f => f.2.1 = now)
    { c with
      fenceArm := c.fenceArm.filter (fun f => f.2.1 ≠ now)
      treeArm := c.treeArm.filter (fun f => f.2.1 ≠ now)
      fences := due.foldl (fun l f => setFence l f.1 f.2.2) c.fences })

/-- The boundary of a context: at its armed commit step the rigging commits, unless a refusal or an abort has arrived
(R191, R192). -/
def State.edgeCtx (s : State) (n : Fin 16) : State :=
  let k := n.val
  let due := s.fget (RIG_SL_STAT.SHADOW k) = 3 && s.pair (RIG_SL_AT_LO.off k) = s.step
  let c := s.cx k
  let s := s.edgeFences k
  if !due then s.edgeState k
  else if c.refused || (s.ticking k && c.aborted) then (s.missRig k).edgeState k
  else
    let s := if s.ticking k && !c.commitTick then (s.commitUnits k).settleTick k 1 else s
    s.commitRig n

/-! ### Routers and ports at a boundary (R209, R224) -/

/-- A router whose strand buffers are discarded. -/
def RtrSt.boundary (r : RtrSt) : RtrSt := { r with fifo := [], got := [] }

/-- A port at a boundary: strand units of the closing tick go, held units of the new tick are released, TICK_EDGE is due. -/
def PortSt.boundary (step : Nat) (p : PortSt) : PortSt :=
  { p with strandTx := [], strandN := [], strandM := [], strandRx := if p.peerTick = step % 256 then p.heldRx else [], heldRx := [],
           edgeSend := true, rbw := [], rbwAt := [] }

/-- Every listed unit of a store changed. -/
def mapStore {α : Type} [DecidableEq α] (d : α) (l : Store α) (f : α → α) : Store α :=
  (l.map (fun e => (e.1, f e.2))).filter (fun e => e.2 ≠ d)

/-- The role of reference taken or given up at this boundary; a reference follows the uplinks it was given (R65). -/
def State.edgeRole (s : State) : State :=
  match s.tick.roleNext with
  | none => s
  | some (b, a, c) =>
    let s := { s with tick := { s.tick with roleNext := none } }
    let s := s.fset TCK_CTL.ROLE (b2n b)
    if b then (s.fset TCK_CTL.PARENT a).fset TCK_CTL.ALT_PARENT c else s

/-- An ADAPT command that is due takes effect (R325). -/
def State.edgeAdapt (s : State) : State :=
  match s.fab.adaptAt with
  | some (t, b) => if t = s.step then { s.fset FAB_RT_CTL.ADAPT (b2n b) with fab := { s.fab with adaptAt := none } } else s
  | none => s

/-- TICK_BOUNDARY (R35, R48, R57). -/
def State.boundary (s : State) : State :=
  if !s.flag TCK_CTL.TM_EN then s
  else
    let s := s.setPair TCK_STEP_LO.off (s.step + 1)
    let s := { s with tick := { s.tick with bound := s.now } }
    let s := s.edgeRole.edgeAdapt
    let s := (s.each 16 (fun n s => s.edgeCtx (Fin.ofNat 16 n))).edgeLoad
    let s := { s with rtr := mapStore RtrSt.init s.rtr RtrSt.boundary }
    let s := s.each 16 (fun p s =>
      if s.fget (LNK_STAT.STATE p) < 4 then s else (s.modPo p (PortSt.boundary s.step)).needFix p)
    let s := s.each 16 (fun p s => s.modPt p (fun t => { t with msgs := [] }))
    (s.newTick).clockEdge

/-! ### Starts and aborts -/

/-- The cores of a context start entry 0 (R132). -/
def State.computeStart (s : State) (n : Nat) : State :=
  if !s.working n || (s.cx n).started then s
  else s.modCx n (fun c => { c with started := true })

/-- An abort that arrives for a tick (R54, R69), a late one acted on once for each tick and attempt (R226); one whose cause holds the slice holds this module with it (R57). -/
def State.abortArrives (s : State) (slice tick attempt cause : Nat) : State :=
  match s.ctxOf slice with
  | none => s
  | some n =>
    let t := s.slStep n
    if s.ticking n && tick = t % 256 && attempt = s.fget (TCK_SL_STAT.ATTEMPT n) then
      if s.abortHolds n cause then s.abortHold n cause else s.abortTick n cause
    else if t ≠ 0 && tick = (t - 1) % 256 && !(s.cx n).late.contains (4 * (t - 1) + attempt) then
      (s.modCx n (fun c => { c with late := c.late.filter (fun e => e / 4 = t - 1) ++ [4 * (t - 1) + attempt] })).raise 0x0104 0
        (t - 1) slice
    else s

/-! ### Slice commands (R57, R58) -/

/-- A write of TCK_SL_CTL: ranges saturate; an arm for a step that has passed sets CMD_MISSED (R58, R69). -/
def State.slCtl (s : State) (m : Master) (n : Nat) (v : Word) : State :=
  let arm := TCK_SL_CTL.CMD_ARM.of n v
  let v := (TCK_SL_CTL.MAX_REPLAY n).into v (min 2 ((TCK_SL_CTL.MAX_REPLAY n).of v))
  let v := (TCK_SL_CTL.RPR_LIM n).into v (max 1 ((TCK_SL_CTL.RPR_LIM n).of v))
  let v := (TCK_SL_CTL.SPAN n).into v (min 2 ((TCK_SL_CTL.SPAN n).of v))
  let s := s.store m (TCK_SL_CTL.off n) ((TCK_SL_CTL.CMD_ARM n).off0 v)
  if arm = 0 then s
  else if s.pair (TCK_SL_CMD_AT_LO.off n) ≤ s.step then s.fset (TCK_SL_STAT.CMD_MISSED n) 1
  else s.fset (TCK_SL_CTL.CMD_ARM n) 1
where
  /-- The arm bit of a written word. -/
  TCK_SL_CTL.CMD_ARM.of (n : Nat) (v : Word) : Nat := (TCK_SL_CTL.CMD_ARM n).of v

/-- RESUME: a held slice goes to RUN with its attempts reset, on a locked module in ACTIVE without a GRAVE latch, under a
schedule of the current period (R37, R58, R66, R344, R390). -/
def State.resume (s : State) (n : Nat) : State :=
  if !s.cmdDue n 1 then s
  else
    let s := s.fset (TCK_SL_CTL.CMD_ARM n) 0
    if s.slState n = 5 && s.isLocked && !s.flag FLT_STAT.GRAVE && s.fget PWR_STAT.STATE = 0 &&
        s.flag (RIG_SL_STAT.ACTIVE n) && (s.sched n).period = s.fget TCK_PERIOD.PERIOD then
      let s := ((s.calFresh n).setSlState n 2).fset (TCK_SL_STAT.ATTEMPT n) 0
      let s := s.fset (TCK_SL_STAT.HOLD_CAUSE n) 0
      let s := s.modCx n (fun c => { c with aborted := false, started := false, holdNext := none, open_ := false,
                                            repairs := [], inRepair := 0 })
      s.sliceEvent 4 (s.slId n) (s.ctxWho n) 0
    else s

/-- HOLD by command; a rigging that has just committed stays in RUN (R196). -/
def State.holdCmd (s : State) (n : Nat) : State :=
  if !s.cmdDue n 2 then s
  else
    let s := s.fset (TCK_SL_CTL.CMD_ARM n) 0
    if (s.cx n).commitTick then s else s.holdNow n 1

/-- DISCARD: a held slice goes to IDLE. -/
def State.discard (s : State) (n : Nat) : State :=
  if !s.cmdDue n 3 then s
  else
    let s := s.fset (TCK_SL_CTL.CMD_ARM n) 0
    if s.slState n = 5 then
      let s := (s.setSlState n 0).fset (TCK_SL_STAT.HOLD_CAUSE n) 0
      s.modCx n (fun c => { c with open_ := false, repairs := [] })
    else s

/-! ### The period (R37) -/

/-- A write of TCK_CTL: an arm needs a valid period and a step ahead. -/
def State.tckCtl (s : State) (m : Master) (v : Word) : State :=
  let arm := TCK_CTL.PERIOD_ARM.of v
  let s := s.store m TCK_CTL.off (TCK_CTL.PERIOD_ARM.off0 v)
  if arm = 0 then s
  else if s.fget TCK_PERIOD_NEXT.NEXT < 1000 || s.pair TCK_PERIOD_AT_LO.off ≤ s.step then s.refuse TCK_CTL.off
  else s.fset TCK_CTL.PERIOD_ARM 1

/-- The armed period applied: every slice at work holds with cause "period change". -/
def State.periodChange (s : State) : State :=
  if !s.flag TCK_CTL.PERIOD_ARM || s.pair TCK_PERIOD_AT_LO.off ≠ s.step then s
  else
    let s := (s.fset TCK_PERIOD.PERIOD (s.fget TCK_PERIOD_NEXT.NEXT)).fset TCK_CTL.PERIOD_ARM 0
    (s.each 16 (fun n s => s.holdNow n 5)).newTick

/-! ### Supply dip (R61 to R63, R402) -/

/-- Input voltage readings (R407); a minimum of 0 stands for no reading yet. -/
def State.setVin (s : State) (vin : Nat) : State :=
  let s := s.fset PWR_VIN.NOW vin
  if s.fget PWR_VIN.MIN = 0 || vin < s.fget PWR_VIN.MIN then s.fset PWR_VIN.MIN vin else s

/-- What a dip does: it is shown and counted, and where the tick runs a stretch is asked for (R61, R402). -/
def State.dipAct (s : State) (vin : Nat) : State :=
  let s := (s.fset PWR_STAT.DIP 1).fcount PWR_EVT.DIPS 1
  let s := { s with tick := { s.tick with recover := none } }
  if s.hubUp then ((s.askStretch 0).irq 3).raise 0x0A01 0 0 vin else s

/-- The input below the warning level. -/
def State.supplyDip (s : State) (vin : Nat) : State :=
  let s := s.setVin vin
  if s.fget PWR_WARN.WARN ≤ vin || s.flag PWR_STAT.DIP then s
  else
    s.dipAct vin

/-- The input above the warning level plus 1.0 V. -/
def State.supplyRecover (s : State) (vin : Nat) : State :=
  let s := s.setVin vin
  if s.fget PWR_WARN.WARN + 10 < vin && s.flag PWR_STAT.DIP then
    { s.fset PWR_STAT.DIP 0 with tick := { s.tick with recover := some s.now } }
  else s

/-- Ten milliseconds after recovery the request ends. -/
def State.stretchWithdraw (s : State) : State :=
  match s.tick.recover with
  | some t =>
    if t + msUnits 10 ≤ s.now then { s.endStretch 0 with tick := { (s.endStretch 0).tick with recover := none } } else s
  | none => s

/-! ### Sync (R64 to R67, R225, R226) -/

/-- The SYNC message of a port in a frame time that begins now (Table 4, R226). Towards the parent its STRETCH bit is the request of this
module and of those that follow it, towards a follower it says that the stretch applies (R61, R62; DEDUCED, log entry 61). -/
def State.syncMsg (s : State) (p : Nat) : BitVec 48 :=
  let ask := if s.follows p then s.stretchAsked else s.childPort p && s.stretchDue
  BitVec.ofNat 48 (1 + s.step % 2 ^ 16 * 2 ^ 4 + s.tbCount % 2 ^ 20 * 2 ^ 20 + b2n s.isLocked * 2 ^ 40 + b2n ask * 2 ^ 41)

/-- The STRETCH bit of a port's SYNC: the parent's order, or the request of a module that follows this one, or its end (R62). -/
def State.peerStretch (s : State) (p : Nat) (ask : Bool) : State :=
  let t := s.tick
  if s.follows p then s.withReq { t with order := ask }
  else if ask && s.childPort p then s.withReq { t with reqPeers := addKey t.reqPeers p }
  else s.withReq { t with reqPeers := t.reqPeers.filter (fun q => q ≠ p) }

/-- A port's link lost: the request that came over it is gone. -/
def State.stretchGone (s : State) (p : Nat) : State :=
  s.withReq { s.tick with reqPeers := s.tick.reqPeers.filter (fun q => q ≠ p) }

/-- The signed offset from the parent in units of 0.25 ns. -/
def State.syncOffset (s : State) (p step tb : Nat) : Int :=
  let d := toInt 16 ((s.step + 2 ^ 16 - step % 2 ^ 16) % 2 ^ 16)
  8 * (s.tbCount : Int) - 8 * (tb : Int) - 4 * (s.fget (LNK_DELAY.NS p) : Int) + 8 * d * (s.tick.len : Int)

/-- A value held in 16 signed bits. -/
def clamp16 (x : Int) : Int := max (-32768) (min 32767 x)

/-- A SYNC from the parent: the offset is measured, the follower slews one unit towards it, and 64 in a row within ±40 ns
set LOCKED (R65, R66). -/
def State.syncParent (s : State) (p step tb : Nat) : State :=
  let x := clamp16 (s.syncOffset p step tb)
  let near := decide (x.natAbs ≤ 160)
  let w := if near then min 64 (s.tick.window + 1) else 0
  let move : Int := if 8 ≤ x then 1 else if x ≤ -8 then -1 else 0
  let s := { s with tick := { s.tick with window := w, holdover := none, lostSaid := false, bound := ((s.tick.bound : Int) + move).toNat } }
  let s := (s.fset TCK_SYNC_STAT.OFFSET (ofInt 16 x)).fset TCK_SYNC_STAT.LOCKED (b2n (decide (w = 64)))
  let s := (s.fset TCK_SYNC_STAT.ACT_PARENT p).fset TCK_SYNC_STAT.HOLDOVER 0
  if s.fget TCK_SYNC_MAX.MAX < x.natAbs then s.fset TCK_SYNC_MAX.MAX (min 65535 x.natAbs) else s

/-- A SYNC at a port: its stretch request, and its time where the port is the parent followed. -/
def State.syncArrives (s : State) (p step tb : Nat) (locked stretch : Bool) : State :=
  if !s.flag TCK_CTL.SYNC_EN then s
  else
    let s := s.peerStretch p stretch
    if locked && s.follows p then s.syncParent p step tb
    else if s.follows p then { s.fset TCK_SYNC_STAT.LOCKED 0 with tick := { s.tick with window := 0 } }
    else s

/-- No usable parent: holdover begins (R67). -/
def State.parentCheck (s : State) : State :=
  if s.isRoot || s.hasParent then s
  else
    let s := { s with tick := { s.tick with holdover := some (s.tick.holdover.getD s.now), window := 0 } }
    ((s.fset TCK_SYNC_STAT.HOLDOVER 1).fset TCK_SYNC_STAT.ACT_PARENT 15).fset TCK_SYNC_STAT.LOCKED 0

/-- Whether some slice of the module is in RUN, REPLAY or REPAIR. -/
def State.anyRunning (s : State) : Bool := (List.range 16).any (fun n => 2 ≤ s.slState n && s.slState n ≤ 4)

/-- A starting module takes the step number, stepping once where its phase is more than 1 µs off (R66). -/
def State.acquire (s : State) (step tb : Nat) : State :=
  if s.isRoot || s.anyRunning then s
  else
    let off := decide (step ≠ s.step) || decide (500 < (s.tbCount : Int) - tb) || decide ((s.tbCount : Int) - tb < -500)
    if off then
      ({ s with tick := { s.tick with bound := s.now - tb } }.setPair TCK_STEP_LO.off step).fset TCK_SYNC_STAT.STEPPED 1
    else s

/-- "Sync lost": every slice holds at the next boundary (R67). -/
def State.syncLostAct (s : State) : State :=
  let s := ((s.fset TCK_SYNC_STAT.SYNC_LOST 1).irq 6).raise 0x0101 0 s.step 0
  s.each 16 (fun n s => if 2 ≤ s.slState n && s.slState n ≤ 4 then s.holdAt n 4 else s)

/-- One millisecond of holdover. -/
def State.syncLost (s : State) : State :=
  match s.tick.holdover with
  | some t =>
    if t + msUnits 1 ≤ s.now && !s.tick.lostSaid then { s with tick := { s.tick with lostSaid := true } }.syncLostAct
    else s
  | none => s

/-! ### Calibration (R41, R42, R165) -/

/-- A slot of one channel (R165): the calibration work left from its earlier slots goes on, with what has fallen due, and what does
not fit stops at the slot's end (R42). The scrub reads of the rest of the slot are LPDDR5_SCRUB. -/
def State.chanSlot (s : State) (p k len : Nat) : State :=
  let (d, s) := s.fresh
  let s := s.modCh (8 * p + k) (fun c =>
    { c with slotAt := s.now, slotEnd := s.now + len, calLeft := c.calLeft + Config.calNeed d - len })
  s.memStat (PRT_MEM_STAT.CAL_DUE p) k false

/-- Whether a slot of a context's schedule falls in this tick: the slice is in RUN, REPLAY or REPAIR and the cadence names its step
(R41, R42). -/
def State.slotDue (s : State) (n : Nat) (d : SlotDef) : Bool :=
  decide (2 ≤ s.slState n) && decide (s.slState n ≤ 4) && d.active (s.slStep n)

/-- A calibration slot of a context's schedule that this tick holds. -/
def State.calSlot (s : State) (n j : Nat) : State :=
  match (s.sched n).slots[j]? with
  | none => s
  | some d =>
    if s.slotDue n d then
      State.eachOf (s.ctxParts n) (fun p s => State.eachOf (d.chans (s.slStep n)) (fun k s => s.chanSlot p k d.length) s) s
    else s

/-- When a calibration slot begins: its offset from the boundary, in a tick that holds it (R41). -/
def State.slotStart (s : State) (n j : Nat) : Nat :=
  match (s.sched n).slots[j]? with
  | some d => if s.slotDue n d then s.tick.bound + d.offset else s.now
  | none => s.now

/-- "Calibration overdue" of a channel (R41). -/
def State.calLate (s : State) (p k : Nat) : State := (s.memStat (PRT_MEM_STAT.CAL_DUE p) k true).raise 0x0604 (chanSrc p k) 0 0

/-- A channel of a slice in RUN, REPLAY or REPAIR without a slot for 32 ms (R41); in the other states its controller calibrates it
when it chooses (R42). -/
def State.calOverdue (s : State) (p k : Nat) : State :=
  let bound := match s.ctxHolding p with
    | some n => decide (2 ≤ s.slState n) && decide (s.slState n ≤ 4)
    | none => false
  if bound && (s.ch (8 * p + k)).slotAt + msUnits 32 < s.now && !(s.fget (PRT_MEM_STAT.CAL_DUE p)).testBit k then s.calLate p k
  else s

/-! ### Commands -/


/-- COMPUTE_START (R132). -/
def execComputeStart (n : Ctx) (s : State) : Result :=
  doneAt s (if s.ticking n.val then s.tick.bound + 16 else s.now) (fun s => s.computeStart n.val)

/-- ABORT (R54, R69). -/
def execAbort (slice : BitVec 12) (tick : BitVec 8) (attempt : BitVec 2) (cause : BitVec 8) (s : State) : Result :=
  done s (s.abortArrives slice.toNat tick.toNat attempt.toNat cause.toNat)



/-- PERIOD_ARM (R37). -/
def execPeriodArm (m : Master) (v : Word) (s : State) : Result :=
  done s (s.gate true m TCK_CTL.off v (fun s => s.tckCtl m v))

/-- PERIOD_CHANGE (R37). -/
def execPeriodChange (s : State) : Result := done s s.periodChange

/-- SLICE_CMD_ARM (R58). -/
def execSliceCmdArm (m : Master) (n : Ctx) (v : Word) (s : State) : Result :=
  done s (s.gate true m (TCK_SL_CTL.off n.val) v (fun s => s.slCtl m n.val v))

/-- RESUME (R58). -/
def execResume (n : Ctx) (s : State) : Result := done s (s.resume n.val)

/-- HOLD (R57). -/
def execHold (n : Ctx) (s : State) : Result := done s (s.holdCmd n.val)

/-- DISCARD (R57). -/
def execDiscard (n : Ctx) (s : State) : Result := done s (s.discard n.val)

/-- SUPPLY_DIP (R61). -/
def execSupplyDip (vin : BitVec 10) (s : State) : Result := done s (s.supplyDip vin.toNat)

/-- SUPPLY_RECOVER (R63). -/
def execSupplyRecover (vin : BitVec 10) (s : State) : Result := done s (s.supplyRecover vin.toNat)

/-- STRETCH_WITHDRAW (R63). -/
def execStretchWithdraw (s : State) : Result := done s s.stretchWithdraw

/-- SYNC_SEND (R64, R226). -/
def execSyncSend (p : Port) (s : State) : Result :=
  done s (
    if s.flag TCK_CTL.SYNC_EN && s.trained p.val then
      s.modPo p.val (fun x => { x with syncSend := true })
    else s)

/-- SYNC (R65, R66). -/
def execSync (p : Port) (step : BitVec 16) (tb : BitVec 20) (locked stretch : Bool) (s : State) : Result :=
  done s (s.syncArrives p.val step.toNat tb.toNat locked stretch)

/-- SYNC_ACQUIRE (R66). -/
def execSyncAcquire (step : DWord) (tb : BitVec 20) (s : State) : Result := done s (s.acquire step.toNat tb.toNat)

/-- SYNC_LOST (R67). -/
def execSyncLost (s : State) : Result := done s s.syncLost

/-- TCK_SYNC_MAX_CLEAR (R71). -/
def execTckSyncMaxClear (m : Master) (v : Word) (s : State) : Result :=
  done s (s.gate true m TCK_SYNC_MAX.off v (fun s => if v.getLsbD 31 then s.fset TCK_SYNC_MAX.MAX 0 else s))

/-- CALIBRATION_SLOT (R41, R165). -/
def execCalibrationSlot (n : Ctx) (slot : Fin 4) (s : State) : Result :=
  doneAt s (s.slotStart n.val slot.val) (fun s => s.calSlot n.val slot.val)

/-- CALIBRATION_OVERDUE (R41). -/
def execCalibrationOverdue (part : PartId) (ch : Chan) (s : State) : Result := done s (s.calOverdue part.val ch.val)

end Sys2Proof.Machine
end

