-- ==== Sys2Proof/Machine/Engines.lean ====
section
/-! DEFINITION. The update engines (R150 to R159, R505, R506): the elements of an update job, recipe operations, outputs, the
publication output and mirror writes, and publication into the cores. -/

namespace Sys2Proof.Machine

/-! ### The job of a tick (R155, R156) -/

/-- An update job as an engine runs it. -/
structure UpJob where
  idx : Nat
  start : Nat
  rcp : Recipe
  trapPoison : Bool
  trapSat : Bool
  mirror : Bool
  n : Nat
  q : Nat
  ins : List Nat
  outs : List Nat
  pubBase : Nat
  paramBase : Nat
  mirMod : Nat
  mirBase : Nat
  deriving DecidableEq, Repr

/-- The update job with an index in an engine's list, with the step its run started at. -/
def State.upJob (s : State) (n k j start : Nat) : Option UpJob :=
  match (s.jobs n (k / 8) (k % 8))[j]? with
  | some (.update rcp tp ts mir nn q _ _ ins outs pb par mm mb) =>
    some ⟨j, start, s.recipe n (k / 8) rcp, tp, ts, mir, nn, q, ins, outs, pb, par, mm, mb⟩
  | _ => none

/-- The step at which a run of a job has started that has not processed an element yet at slice step `t`: every step since
is a publication tick (R156). -/
def Job.startsBy (pub : Nat → Bool) (j : Job) (t : Nat) : Option Nat :=
  match j.when with
  | some (_, _, st, cy) =>
    let b := (t + cy - st) % cy
    if b ≤ t && (List.range b).all (fun i => pub (t - b + i)) then some (t - b) else none
  | none => none

/-- The run that an engine is in, or that starts by this tick. -/
def State.runDue (s : State) (n k : Nat) : Option (Nat × Nat) :=
  match (s.en k).run with
  | some r => some r
  | none =>
    let t := s.slStep n
    let js := s.jobs n (k / 8) (k % 8)
    (List.range js.length).findSome? (fun i =>
      match js[i]? with
      | some j => (j.startsBy ((s.sched n).pub (k / 8)) t).map (fun b => (i, b))
      | none => none)

/-- The update job an engine works at in this tick: none in a publication tick of its partition. -/
def State.engJob (s : State) (n k : Nat) : Option UpJob :=
  if (s.sched n).pub (k / 8) (s.slStep n) then none
  else match s.runDue n k with
    | some (j, b) => s.upJob n k j b
    | none => none

/-- Elements a job processes in this tick. -/
def State.quota (s : State) (k : Nat) (u : UpJob) : Nat := min u.q (u.n - (s.en k).done)

/-- The context whose tick an engine can work in. -/
def State.engCtx (s : State) (k : Nat) : Option Nat :=
  match s.ctxHolding (k / 8) with
  | some n => if s.working n && !(s.en k).stop && !s.engLost (k / 8) (k % 8) && !s.isFrozen 2 (s.engSrc k) 0 then some n else none
  | none => none

/-- The job with elements of this tick left, and its context. -/
def State.engWork (s : State) (k : Nat) : Option (Nat × UpJob) :=
  match s.engCtx k with
  | some n =>
    match s.engJob n k with
    | some u => if (s.en k).ran then none else some (n, u)
    | none => none
  | none => none

/-! ### Operands and operations (R152, R153) -/

/-- The MLA of element `e` of a stream at a base. -/
def streamAt (k base fmt e : Nat) : Nat := mlaOf (k / 8) (k % 8) (64 * base + e * elemBytes fmt)

/-- The streams a recipe reads: index and format. -/
def Recipe.streams (r : Recipe) : List (Nat × Nat) :=
  (List.range 8).filterMap (fun i => let f := r.inFmt.getD i 0xF; if f = 0xF then none else some (i, f))

/-- An enabled output O0 to O3: index, source operation, format, rounding. -/
def Recipe.enabled (r : Recipe) : List (Nat × Nat × Nat × Nat) :=
  (List.range 4).filterMap (fun i =>
    let o := r.outs.getD i 0
    if bit o 10 then some (i, bits o 3 0, bits o 7 4, bits o 9 8) else none)

/-- Whether the publication output is enabled. -/
def Recipe.pubEn (r : Recipe) : Bool := bit r.pub 11
/-- The format of the publication output. -/
def Recipe.pubFmt (r : Recipe) : Nat := bits r.pub 7 4

/-- The value of an operand code for element `e`. -/
def State.operand (s : State) (k : Nat) (u : UpJob) (e : Nat) (res : List Word) (c : Nat) : Val :=
  if c < 8 then
    let f := u.rcp.inFmt.getD c 0xF
    ieeeVal f (leNat (s.memRead (streamAt k (u.ins.getD c 0) f e) (elemBytes f)))
  else if c < 16 then ieeeVal 10 ((((s.en k).par.getD []).getD (c - 8) 0).toNat)
  else if c < 32 then ieeeVal 10 (u.rcp.ks.getD (c - 16) 0)
  else if c < 48 then ieeeVal 10 (res.getD (c - 32) 0).toNat
  else if c = 0x31 then .fin false 1
  else .fin false 0

/-- The order of two values: negative infinity below, positive above; none for a NaN. -/
def Val.cmp (a b : Val) : Option Ordering :=
  let key : Val → Int := fun v => match v with | .inf n => if n then -1 else 1 | _ => 0
  match a, b with
  | .nan, _ => none
  | _, .nan => none
  | _, _ =>
    if key a < key b then some .lt
    else if key b < key a then some .gt
    else if a.rat < b.rat then some .lt
    else if b.rat < a.rat then some .gt
    else some .eq

/-- Whether A cmp B holds for a comparison code of CSEL; with a NaN only ≠ holds. -/
def cselHolds (code : Nat) (a b : Val) : Bool :=
  match Val.cmp a b with
  | none => code = 3
  | some o =>
    match code with
    | 0 => o = .lt
    | 1 => o ≠ .gt
    | 2 => o = .eq
    | 3 => o ≠ .eq
    | 4 => o ≠ .lt
    | 5 => o = .gt
    | _ => false

/-- The largest finite binary32 with a sign, with SAT. -/
def largest32 (neg : Bool) : VF := (.fin neg (maxVal 10), { sat := true })

/-- The square root of a value (Table 6). -/
def Val.sqrt : Val → VF
  | .nan => nanPoison
  | .inf n => if n then nanPoison else (.inf false, {})
  | .fin n m => if m = 0 then (.fin n 0, {}) else if n then nanPoison else (.fin false (sqrtRat m), {})

/-- The reciprocal of the square root of a value. -/
def Val.rsqrt : Val → VF
  | .nan => nanPoison
  | .inf n => if n then nanPoison else (.fin false 0, {})
  | .fin n m => if m = 0 then largest32 n else if n then nanPoison else (.fin false (sqrtRat (1 / m)), {})

/-- The reciprocal of a value. -/
def Val.recip : Val → VF
  | .nan => nanPoison
  | .inf n => (.fin n 0, {})
  | .fin n m => if m = 0 then largest32 n else (.fin n (1 / m), {})

/-- The sign of a value. -/
def Val.sgn : Val → VF
  | .nan => nanPoison
  | .inf n => (.fin n 1, {})
  | .fin n m => if m = 0 then (.fin false 0, {}) else (.fin n 1, {})

/-- The exact result of an operation (Table 6), with the flags its corners raise. -/
def opExact (opc sub : Nat) (a b c d : Val) : VF :=
  match opc with
  | 0 => vecResult (a.mul b)
  | 1 => vecResult (a.add (if sub.testBit 0 then b.negate else b))
  | 2 => let p := a.mul b; vecResult ((if sub.testBit 0 then p.negate else p).add c)
  | 3 => a.sqrt
  | 4 => a.rsqrt
  | 5 => a.recip
  | 6 => if a.isNan || b.isNan || c.isNan then nanPoison else (Val.min (Val.max a b) c, {})
  | 7 => a.sgn
  | _ =>
    let v := if cselHolds (sub % 8) a b then c else d
    (v, { poison := a.isNan || b.isNan || c.isNan || d.isNan })

/-- An operation's result, rounded once to binary32 under nearest-even. -/
def opResult (opc sub : Nat) (a b c d : Val) : Word × NFlags :=
  let (v, f) := opExact opc sub a b c d
  let (w, g) := roundIeee 10 0 0 v
  (BitVec.ofNat 32 w, f.or g)

/-- Whether an element's stream bytes lie among those the host wrote during the run (R156). -/
def State.raced (s : State) (k : Nat) (u : UpJob) (e : Nat) : Bool :=
  u.rcp.streams.any (fun st =>
    let a := streamAt k (u.ins.getD st.1 0) st.2 e
    (s.en k).raced.any (fun r => r.1 < a + elemBytes st.2 && a < r.2))

/-! ### Elements (R154, R156) -/

/-- The generator of an engine. -/
def State.engRng (s : State) (n k : Nat) : Rng := ((s.en k).rng).getD (s.engSeed n k)

/-- The router that serves an engine's channel. -/
def State.chanRtr (s : State) (k : Nat) : Nat := meshKey (k / 8) (s.memRtr (k / 8) (k % 8))

/-- The buddy and the MLA there of the current copy of the group of an MLA, if there is one: a mirroring job of the engine
writes it, and a run of that job has committed (R164). -/
def State.mirrorSrc (s : State) (n k a : Nat) : Option (Nat × Nat) :=
  let g := mlaCda (groupOf a)
  (s.en k).jobDone.findSome? (fun d =>
    match s.upJob n k d.1 0 with
    | some u =>
      if !u.mirror then none
      else (u.rcp.enabled.find? (fun o =>
          let lo := 64 * u.outs.getD o.1 0
          decide (lo ≤ g) && decide (g < lo + u.n * elemBytes o.2.2.1))).map
        (fun o => (u.mirMod, mlaOf (k / 8) (k % 8) (64 * u.mirBase + (g - 64 * u.outs.getD o.1 0))))
    | none => none)

/-- A group asked for from the buddy: a MEM_RD of its 16 units (R164). -/
def State.askRestore (s : State) (n k a mod src : Nat) : State :=
  let p := s.slicePacket n 5 0 (epWord mod (k / 8) 0 0 false) (epWord s.modId (k / 8) 0 0 false) 1 0
    (0xC000 + s.fab.reads.length) 0 15 []
  let p := Packet.sealed { p with addr := BitVec.ofNat 40 src }
  let s := { s with fab := { s.fab with reads := s.fab.reads ++ [(p, groupOf a)] } }
  s.queueAt (s.chanRtr k) 5 0 p

/-- What a parity hit on an engine's read of a stream or a parameter leads to (Table 3): a restore from the buddy and a replay
where a copy is current, otherwise HOLD. -/
def State.streamHit (s : State) (n k a : Nat) : State :=
  let t := s.mlaType a
  match if t = 1 || t = 2 then s.mirrorSrc n k a else none with
  | some (mod, src) =>
    ((s.abortTick n 2).addRepair n (.restore (Fin.ofNat 16 (k / 8)) (Fin.ofNat 8 (k % 8)) (mlaCda a / 512))).askRestore n k a
      mod src
  | none => s.abortHold n 2

/-- A parity hit on an engine's read: the engine stops and the tick aborts. -/
def State.engHit (s : State) (n k a : Nat) : State :=
  let s := (s.memHit a none).modEn k (fun e => { e with stop := true, cur := none })
  (s.fset (PRT_UPE_STAT.PERR (k / 8) (k % 8)) 1).streamHit n k a

/-- The MLA of a job's parameter block. -/
def UpJob.params (u : UpJob) (k : Nat) : Nat := mlaOf (k / 8) (k % 8) (64 * u.paramBase)

/-- The first failing byte among what an element reads: the parameter block at the start of the tick, then its streams. -/
def State.elemFail (s : State) (k : Nat) (u : UpJob) (e : Nat) : Option Nat :=
  let par := if (s.en k).par.isNone then s.memFail (u.params k) 32 else none
  par.orElse (fun _ => u.rcp.streams.findSome? (fun st => s.memFail (streamAt k (u.ins.getD st.1 0) st.2 e) (elemBytes st.2)))

/-- Whether a restore from the buddy is in progress for a group that an element writes: the job waits for it (R166). -/
def State.restoring (s : State) (k : Nat) (u : UpJob) (e : Nat) : Bool :=
  u.rcp.enabled.any (fun o => s.fab.reads.any (fun r => r.2 = groupOf (streamAt k (u.outs.getD o.1 0) o.2.2.1 e)))

/-- The number of the element that an engine comes to next. -/
def EngSt.next (x : EngSt) : Nat := x.done + x.tick + x.held.length

/-- The next element begun; the parameter block is read at the start of the job's tick (R156). -/
def State.elemBegin (s : State) (n k : Nat) (u : UpJob) : State :=
  let s := s.modEn k (fun x => { x with run := some (u.idx, u.start) })
  let e := (s.en k).next
  if s.restoring k u e then s
  else match s.elemFail k u e with
  | some a => s.engHit n k a
  | none =>
    let ps := (List.range 8).map (fun i => BitVec.ofNat 32 (leNat (s.memRead (u.params k + 4 * i) 4)))
    s.modEn k (fun x => { x with cur := some ⟨u.idx, e, []⟩, par := some (x.par.getD ps) })

/-- Whether the element under way is one whose writes the watermark covers (R49). -/
def EngSt.suppressed (x : EngSt) : Bool := decide (x.held.length < x.supp)

/-- One output of an element rounded and written. -/
def State.elemOut (s : State) (n k : Nat) (u : UpJob) (quiet : Bool) (e : Nat) (res : List Word) (o : Nat × Nat × Nat × Nat) :
    State :=
  let (i, src, fmt, rnd) := o
  let (c, f, g) := roundTo fmt rnd (s.engRng n k) (ieeeVal 10 (res.getD src 0).toNat)
  let s := s.modEn k (fun x => { x with rng := some g })
  if quiet then s
  else
    let s := s.memWrite (streamAt k (u.outs.getD i 0) fmt e) (leBytes (elemBytes fmt) c)
    s.engFlags n k u.idx u.trapPoison u.trapSat f

/-- The outputs O0 to O3 of an element. -/
def State.elemOuts (s : State) (n k : Nat) (u : UpJob) (quiet : Bool) (e : Nat) (res : List Word) : State :=
  State.eachOf u.rcp.enabled (fun o s => s.elemOut n k u quiet e res o) s

/-- The bytes, by offset in a job's publication stream, of 32 values from element 32g, with flags and draws (R154). -/
def pubGroup (r : Recipe) (g : Nat) (vs : List Val) (rng : Rng) : List (Nat × Byte) × NFlags × Rng :=
  let fmt := r.pubFmt
  let rnd := bits r.pub 9 8
  if isHank fmt then
    let (h, f, rng) := toHank fmt rnd (if bit r.pub 10 then some (bits r.pub 19 12) else none) rng vs
    let (sc, da) := packedAt (hankBytes fmt) g
    (bytesAt sc [BitVec.ofNat 8 h.scale] ++ bytesAt da (hankPack fmt h.codes), f, rng)
  else
    let (bs, f, rng) := vs.foldl (fun (x : List Byte × NFlags × Rng) v =>
      let (c, f, rng) := roundTo fmt rnd x.2.2 v
      (x.1 ++ leBytes 2 c, x.2.1.or f, rng)) ([], {}, rng)
    (bytesAt (64 * g) bs, f, rng)

/-- The MLA of a byte of a job's publication stream, in the standby slot of its tile. -/
def State.pubAt (s : State) (k base o : Nat) : Nat :=
  let a := mlaOf (k / 8) (k % 8) (64 * base + tileBytes * (o / 8192))
  tileSlot a (!(s.tileHdr a).cur) + o % 8192

/-- Bytes of a publication stream written. -/
def State.pubWrite (s : State) (k base : Nat) (bs : List (Nat × Byte)) : State :=
  State.eachOf bs (fun b s => s.memWrite (s.pubAt k base b.1) [b.2]) s

/-- Thirty-two elements that wait for their hank written with it. -/
def State.hankOut (s : State) (n k : Nat) (u : UpJob) : State :=
  let x := s.en k
  let quiet := decide (x.supp ≠ 0)
  let e0 := x.done + x.tick
  let s := s.each 32 (fun i s => s.elemOuts n k u quiet (e0 + i) (x.held.getD i []))
  let vs := x.held.map (fun r => ieeeVal 10 (r.getD (bits u.rcp.pub 3 0) 0).toNat)
  let (bs, f, g) := pubGroup u.rcp (e0 / 32) vs (s.engRng n k)
  let s := if quiet then s else (s.pubWrite k u.pubBase bs).engFlags n k u.idx u.trapPoison u.trapSat f
  s.modEn k (fun x => { x with rng := some g, held := [], tick := x.tick + 32, supp := x.supp - 32 })

/-- The message number of the mirror message of a job's output: it names the job, the engine and the output (R164). -/
def mirrorMsgNo (job k o : Nat) : Nat := 0xE000 + 32 * (job % 256) + 4 * (k % 8) + o

/-- The packets of one output's mirror message: the bytes of the tick's elements, 1,024 a packet, to the buddy (R164). -/
def State.mirrorMsg (s : State) (n k : Nat) (u : UpJob) (first count : Nat) (o : Nat × Nat × Nat × Nat) : List Packet :=
  let sz := elemBytes o.2.2.1
  let bs := s.memRead (streamAt k (u.outs.getD o.1 0) o.2.2.1 first) (count * sz)
  let l := chunks 1024 (bs.length + 1) bs
  let dest := epWord u.mirMod (k / 8) 0 0 false
  let src := epWord s.modId (k / 8) 0 0 false
  (List.range l.length).map (fun i =>
    let p := s.slicePacket n 7 0 dest src l.length i (mirrorMsgNo u.idx k o.1) 0 0 (l.getD i [])
    Packet.sealed { p with
      addr := BitVec.ofNat 40 (mlaOf (k / 8) (k % 8) (64 * u.mirBase + first * sz + 1024 * i)) })

/-- The tick's elements are complete: a mirroring job sends them to its buddy. -/
def State.jobEnd (s : State) (n k : Nat) (u : UpJob) : State :=
  let x := s.en k
  let s := s.modEn k (fun x => { x with ran := true })
  if u.mirror then
    State.eachOf (u.rcp.enabled.flatMap (s.mirrorMsg n k u x.done x.tick)) (fun p s => s.queueAt (s.chanRtr k) 5 0 p) s
  else s

/-- The element under way finished: its outputs are written, or held until its hank is formed. -/
def State.elemEnd (s : State) (n k : Nat) (u : UpJob) (e : ElemSt) : State :=
  let s := s.modEn k (fun x => { x with cur := none })
  let s :=
    if u.rcp.pubEn then
      let s := s.modEn k (fun x => { x with held := x.held ++ [e.res] })
      if (s.en k).held.length = 32 then s.hankOut n k u else s
    else
      (s.elemOuts n k u (s.en k).suppressed e.elem e.res).modEn k (fun x => { x with tick := x.tick + 1, supp := x.supp - 1 })
  if s.quota k u ≤ (s.en k).tick then s.jobEnd n k u else s

/-- The next operation of the element under way. -/
def State.opStep (s : State) (n k : Nat) (u : UpJob) : State :=
  match (s.en k).cur with
  | none => s
  | some e =>
    let w := u.rcp.ops.getD e.res.length 0
    let v (hi lo : Nat) : Val := s.operand k u e.elem e.res (bits w hi lo)
    let (r, f) := opResult (bits w 3 0) (bits w 7 4) (v 13 8) (v 19 14) (v 25 20) (v 31 26)
    let raced := s.raced k u e.elem
    let (d, s) := if raced then s.fresh else (0, s)
    let r := if raced then Config.racedWord d else r
    let s := if (s.en k).suppressed then s else s.engFlags n k u.idx u.trapPoison u.trapSat f
    let e := { e with res := e.res ++ [r] }
    let s := s.modEn k (fun x => { x with cur := some e })
    if u.rcp.nops ≤ e.res.length then s.elemEnd n k u e else s

/-- The next operation of an engine, where it has the given code (R153). -/
def State.recipeOp (s : State) (k opc : Nat) : State :=
  match s.engWork k with
  | none => s
  | some (n, u) =>
    let i := (((s.en k).cur).map (fun e => e.res.length)).getD 0
    if bits (u.rcp.ops.getD i 0) 3 0 ≠ opc then s
    else (if (s.en k).cur.isNone then s.elemBegin n k u else s).opStep n k u

/-- The rest of the element under way, or the next element. -/
def State.runElem (s : State) (k : Nat) : State :=
  match s.engWork k with
  | none => s
  | some (n, u) =>
    let s := if (s.en k).cur.isNone then s.elemBegin n k u else s
    let left := u.rcp.nops - (((s.en k).cur).map (fun e => e.res.length)).getD u.rcp.nops
    s.each left (fun _ s => s.opStep n k u)

/-- UPDATE_JOB_TICK (R156). -/
def State.updateTick (s : State) (k : Nat) : State :=
  match s.engWork k with
  | none => s
  | some (_, u) => s.each (s.quota k u) (fun _ s => s.runElem k)

/-! ### Publication (R158, R159, R505) -/

/-- Whether the latest runs of the update jobs that write a publication job's tiles have ended since its own latest run;
a job whose tiles no update job writes runs once. -/
def State.pubReady (s : State) (n k i base t : Nat) : Bool :=
  let js := s.jobs n (k / 8) (k % 8)
  let x := s.sect n 0x0031 (endpointAgent s.modId (k / 8))
  let rcps := (List.range x.count).map (fun i => recipeOf (x.item 160 i))
  let ws := (List.range js.length).filter (fun j => match js[j]? with | some u => u.writesTiles rcps base t | none => false)
  let e := s.en k
  let last := (e.pubDone.find? (fun d => d.1 = i)).map Prod.snd
  let busy := match e.run with | some r => ws.contains r.1 | none => false
  if ws.isEmpty then last.isNone
  else !busy && e.jobDone.any (fun d => ws.contains d.1 && (match last with | none => true | some p => decide (p < d.2)))

/-- The publication job an engine works at in this tick: index, first tile, tiles, tiles a tick. -/
def State.pubWork (s : State) (n k : Nat) : Option (Nat × Nat × Nat × Nat) :=
  if !(s.sched n).pub (k / 8) (s.slStep n) then none
  else
    let js := s.jobs n (k / 8) (k % 8)
    let get (i : Nat) : Option (Nat × Nat × Nat × Nat) :=
      match js[i]? with
      | some (.publish base t qt) => some (i, base, t, qt)
      | _ => none
    match (s.en k).pubJob with
    | some i => get i
    | none => (List.range js.length).findSome? (fun i =>
        match get i with
        | some (i, base, t, qt) => if s.pubReady n k i base t then some (i, base, t, qt) else none
        | none => none)

/-- The update job and the MASTER output that a standby slot can be converted from again (R505): job, base, format, tile. -/
def State.reconvertFrom (s : State) (n k a : Nat) : Option (UpJob × Nat × Nat × Nat) :=
  let js := s.jobs n (k / 8) (k % 8)
  let c := mlaCda a / 64
  (List.range js.length).findSome? (fun j =>
    match s.upJob n k j 0 with
    | some u =>
      if u.rcp.pubEn && u.pubBase ≤ c && (c - u.pubBase) % 257 = 0 && (c - u.pubBase) / 257 < pubTiles u.rcp.pubFmt u.n then
        (u.rcp.enabled.find? (fun o => o.2.1 = bits u.rcp.pub 3 0 &&
          regionType (s.regions n (k / 8)) (k % 8) (64 * u.outs.getD o.1 0) = 1)).map
            (fun o => (u, u.outs.getD o.1 0, o.2.2.1, (c - u.pubBase) / 257))
      else none
    | none => none)

/-- The 32-element groups of a publication stream that may lie in tile `ti`. -/
def tileGroups (r : Recipe) (n ti : Nat) : List Nat :=
  let fmt := r.pubFmt
  let per := if isHank fmt then 32 * segUnits 64 (hankBytes fmt) else 4096
  let g0 := 64 * (8192 * ti / per)
  let g1 := 64 * ((8192 * ti + 8191) / per + 1)
  (List.range (min g1 (n / 32) - g0)).map (fun i => g0 + i)

/-- The standby slot of a tile converted again from the MASTER copy, with draws from the commit's seed (R505); a MASTER group that
fails is an engine's read of it (Table 3). -/
def State.reconvert (s : State) (n k : Nat) (u : UpJob) (base fmt ti : Nat) : State :=
  let gs := tileGroups u.rcp u.n ti
  let from_ := streamAt k base fmt (32 * gs.headD 0)
  let len := 32 * gs.length * elemBytes fmt
  match s.memFail from_ len with
  | some a => (s.memHits from_ len).streamHit n k a
  | none =>
    let (s, _) := gs.foldl (fun (x : State × Rng) g =>
      let (s, rng) := x
      let vs := (List.range 32).map (fun i => ieeeVal fmt (leNat (s.memRead (streamAt k base fmt (32 * g + i)) (elemBytes fmt))))
      let (bs, _, rng) := pubGroup u.rcp g vs rng
      (s.pubWrite k u.pubBase (bs.filter (fun b => b.1 / 8192 = ti)), rng)) (s, s.engSeed n k)
    s

/-- A parity hit in a publication tick among `len` bytes at `from_`: of the header of the tile at `a`, or of its standby slot
(Table 3). -/
def State.pubHit (s : State) (n k a from_ len : Nat) (hdr : Bool) : State :=
  let s := (s.memHits from_ len).modEn k (fun e => { e with stop := true })
  let s := s.fset (PRT_UPE_STAT.PERR (k / 8) (k % 8)) 1
  if hdr then (s.tileLost a).abortHold n 2
  else match s.reconvertFrom n k a with
    | some (u, base, fmt, ti) => (s.abortTick n 2).reconvert n k u base fmt ti
    | none => s.abortHold n 2

/-- A tile header with the standby digest, PEND and PUB_STEP (R158). -/
def State.putHdr (s : State) (a : Nat) (dig : List Byte) (standby : Bool) (step : Nat) : State :=
  let w := leNat (s.memRead a 4)
  let s := s.memWrite a (leBytes 4 (setBits w 21 21 1))
  let s := s.memWrite (a + (if standby then 24 else 8)) dig
  s.memWrite (a + 40) (leBytes 8 step)

/-- The core of a tile. -/
def TileHdr.key (h : TileHdr) (p : Nat) : Nat := (p * 75 + h.clus) * 250 + h.core

/-- The next tile of a publication run (R158). -/
def State.pubTile (s : State) (n k : Nat) (job : Nat × Nat × Nat × Nat) : State :=
  let (i, base, t, qt) := job
  let x := s.en k
  if x.stop || qt ≤ x.pubTick || t ≤ x.pubNext + x.pubTick then s
  else
    let a := mlaOf (k / 8) (k % 8) (64 * base + tileBytes * (x.pubNext + x.pubTick))
    if (s.memFail a 64).isSome then s.pubHit n k a a 64 true
    else
      let h := s.tileHdr a
      let sl := tileSlot a (!h.cur)
      if (s.memFail sl 8192).isSome then s.pubHit n k a sl 8192 false
      else
        let bs := s.memRead sl 8192
        let s := (s.modCo (h.key (k / 8)) (CoreSt.putBank h.bank bs)).republished (h.key (k / 8)) h.bank
        let s := s.putHdr a (slotDigest bs) (!h.cur) (s.slStep n)
        s.modEn k (fun x => { x with pubJob := some i, pubTick := x.pubTick + 1, pend := x.pend ++ [a] })

/-- PUBLICATION (R158). -/
def State.publish (s : State) (k : Nat) : State :=
  match s.engCtx k with
  | none => s
  | some n =>
    match s.pubWork n k with
    | none => s
    | some job =>
      if (s.en k).ran then s
      else
        let s := s.each job.2.2.2 (fun _ s => s.pubTile n k job)
        if (s.en k).stop then s else s.modEn k (fun x => { x with ran := true })

/-! ### An engine that fails (R150, R365) -/

/-- ENGINE_FAILED: RECOVERED where engine 8 is free; otherwise DEGRADED, and the engine is missing. -/
def State.engineFailed (s : State) (e : EngId) : State :=
  let k := e.key
  let p := e.part.val
  let src := s.engSrc k
  let spare := s.spareEngine p
  let was8 := decide (s.physEng p e.eng.val = 8)
  let s := s.raiseAs (if spare then 1 else 2) 0x0502 src 0 0
  let s := s.modEn k (fun x => { x with failed := true, stop := true })
  let s := if was8 then s.modPt p (fun t => { t with retired := t.retired ++ [(256 + 8, 256)] }) else s
  let s := if spare then s.retire e.part (.engine e.eng) else s
  match s.ctxHolding p with
  | some n =>
    if s.ticking n then
      let s := s.abortTick n 5
      if spare then s.addRepair n (.spareEngine e.part e.eng) else s
    else s
  | none => s

/-! ### Commands -/

/-- What an engine does happens now, or at the end of its channel's calibration slot where that is under way (R41, R166). -/
def engDone (s : State) (k : Nat) (f : State → State) : Result :=
  doneAt s (if (s.engCtx k).isSome then (s.ch k).slotEnd else s.now) f

/-- UPDATE_JOB_TICK. -/
def execUpdateJobTick (e : EngId) (s : State) : Result := engDone s e.key (fun s => s.updateTick e.key)
/-- Recipe operation 0x0. -/
def execMul (e : EngId) (s : State) : Result := engDone s e.key (fun s => s.recipeOp e.key 0)
/-- Recipe operation 0x1. -/
def execAdd (e : EngId) (s : State) : Result := engDone s e.key (fun s => s.recipeOp e.key 1)
/-- Recipe operation 0x2. -/
def execFma (e : EngId) (s : State) : Result := engDone s e.key (fun s => s.recipeOp e.key 2)
/-- Recipe operation 0x3. -/
def execSqrt (e : EngId) (s : State) : Result := engDone s e.key (fun s => s.recipeOp e.key 3)
/-- Recipe operation 0x4. -/
def execRsqrt (e : EngId) (s : State) : Result := engDone s e.key (fun s => s.recipeOp e.key 4)
/-- Recipe operation 0x5. -/
def execRecip (e : EngId) (s : State) : Result := engDone s e.key (fun s => s.recipeOp e.key 5)
/-- Recipe operation 0x6. -/
def execClamp (e : EngId) (s : State) : Result := engDone s e.key (fun s => s.recipeOp e.key 6)
/-- Recipe operation 0x7. -/
def execSign (e : EngId) (s : State) : Result := engDone s e.key (fun s => s.recipeOp e.key 7)
/-- Recipe operation 0x8. -/
def execCsel (e : EngId) (s : State) : Result := engDone s e.key (fun s => s.recipeOp e.key 8)
/-- PUBLICATION. -/
def execPublication (e : EngId) (s : State) : Result := engDone s e.key (fun s => s.publish e.key)
/-- ENGINE_FAILED. -/
def execEngineFailed (e : EngId) (s : State) : Result := done s (s.engineFailed e)

end Sys2Proof.Machine
end

