-- ==== Sys2Proof/Machine/Memory.lean ====
section
/-! DEFINITION. Scrubbing and repair of memories: the SRAM scrubber and republication (R160 to R162), the LPDDR5 scrubber and
restoring from the buddy (R163, R164), hot and untrained channels (R145, R165). -/

namespace Sys2Proof.Machine

/-! ### SRAM scrubber (R160 to R162) -/

/-- The next tile with role WEIGHT from a cluster's place in its sweep, if the cluster has one: its number and whether the
sweep wraps before it. -/
def State.nextWeight (s : State) (n p c from_ : Nat) : Option (Nat × Bool) :=
  let x := s.sect n 0x0010 (routerAgent s.modId p c)
  let ws := (coreRecs x.count x.bytes).flatMap (fun r =>
    let cfg := coreCfgOf (bit r.2.1 8) r.2.2
    ((List.range 24).filter (fun b => cfg.role b = 1)).map (fun b => 24 * r.1 + b))
  let least (l : List Nat) : Option Nat := l.foldl (fun m x => some (match m with | none => x | some y => min x y)) none
  match least (ws.filter (fun w => from_ ≤ w)) with
  | some w => some (w, false)
  | none => (least ws).map (fun w => (w, true))

/-- "SRAM sweep late" (R162). -/
def State.sweepLate (s : State) (p : Nat) (src : Word) (ms : Nat) : State := (s.fset (PRT_SCR_STAT.LATE p) 1).raise 0x0605 src 0 ms

/-- A sweep of a cluster ends and the next begins: its duration, and a NOTE where it overran four times the target. -/
def State.sweepEnd (s : State) (k : Nat) : State :=
  let p := k / 75
  let took := s.now - (s.cl k).began.getD s.now
  let ms := took / msUnits 1
  let s := (s.fset (PRT_SCR_STAT.LAST_MS p) (sat 16 ms)).modCl k (fun c => { c with began := some s.now })
  if msUnits (4 * 2 ^ s.fget (PRT_SCR_CTL.SWEEP p)) < took then s.sweepLate p (s.clusSrc k) (sat 16 ms) else s

/-- A tile fenced, its republication requested, which settles the message: no tick is aborted yet (R341); without a tile record the
slice holds (R161). -/
def State.fence (s : State) (n core bank : Nat) (rec_ : Bool) : State :=
  let p := corePart core
  let src := s.coreSrc core
  let s := s.modCl (core / 250) (fun c => { c with fenced := addKey c.fenced (24 * coreIdx core + bank) })
  let s := s.fencedStat p
  if rec_ then
    (s.fcount (PRT_SCR_REPAIRS.N p) 1).raiseFor (tileKey core bank) 0x0202 src (256 * bank) 0
  else (s.raiseLost n 0x0202 src (256 * bank) 0).holdAt n 7

/-- A tile whose header cannot be read: lost, and the slice holds (Table 3). -/
def State.hdrLost (s : State) (n a : Nat) : State := ((s.memHitsLost n a 64).tileLost a).holdAt n 7

/-- A second finding on a tile that has just been fenced, recorded beside the first: one repair serves both (R166). -/
def State.tileNote (s : State) (core bank : Nat) : State :=
  s.raiseFor (tileKey core bank) 0x0202 (s.coreSrc core) (256 * bank) 0

/-- One bank scrubbed: parity, then the digest of its tile's current slot; a pending flip is waited for (R159, R160). -/
def State.scrubBank (s : State) (n core bank : Nat) : State :=
  let c := s.co core
  let parity := c.bad.any (fun x => x / 8192 = bank)
  let fenced := (s.cl (core / 250)).fenced.contains (24 * coreIdx core + bank)
  if fenced then s
  else match s.tileOf n core bank with
    | none => if parity then s.fence n core bank false else s
    | some a =>
      if (s.memFail a 64).isSome then s.hdrLost n a
      else
        let h := s.tileHdr a
        let differs := !h.pend && slotDigest (c.bankBytes bank) != h.digest
        if parity && differs then (s.fence n core bank true).tileNote core bank
        else if parity || differs then s.fence n core bank true
        else s

/-- SRAM_SCRUB: the next WEIGHT bank of a cluster. -/
def State.sramScrub (s : State) (k : Nat) : State :=
  let p := k / 75
  match s.ctxHolding p with
  | none => s
  | some n =>
    if !s.flag (PRT_SCR_CTL.EN p) then s
    else match s.nextWeight n p (k % 75) (s.cl k).scrub with
      | none => s
      | some (w, wrap) =>
        let s := if wrap then s.sweepEnd k else s
        let s := s.modCl k (fun c => { c with scrub := w + 1, began := some (c.began.getD s.now) })
        s.scrubBank n (250 * k + w / 24) (w % 24)

/-- Whether a republication may write now: in the drain part of the weir after the core's END while the slice works, and
at any time once an abort has arrived or in another state (R45, R161). -/
def State.mayRepublish (s : State) (n core : Nat) : Bool :=
  if s.ticking n && !(s.cx n).aborted then
    decide (s.weirStart n ≤ s.tbCount) && decide (s.tbCount ≤ s.closePoint n) && (s.co core).atEnd
  else true

/-- REPUBLICATION: a tile written again from its current slot. -/
def State.republish (s : State) (core bank : Nat) : State :=
  match s.ctxHolding (corePart core) with
  | none => s
  | some n =>
    let fenced := (s.cl (core / 250)).fenced.contains (24 * coreIdx core + bank)
    let asked := (s.cx n).repairs.contains (.tile (Fin.ofNat 16 (corePart core)) (Fin.ofNat 75 (coreClus core))
      (Fin.ofNat 250 (coreIdx core)) (Fin.ofNat 24 bank))
    if !(fenced || asked) || !s.mayRepublish n core then s
    else match s.tileOf n core bank with
      | none => s
      | some a =>
        if (s.memFail a 64).isNone && (s.tileHdr a).pend then s
        else match s.tileSource n a bank (s.co core) with
          | (s, some bs) => (s.modCo core (CoreSt.putBank bank bs)).republished core bank
          | (s, none) => s.settleAction (tileKey core bank) 2

/-! ### LPDDR5 scrubber and restore (R163, R164) -/

/-- Parity groups of a channel (R146). -/
def chanGroups : Nat := 14 * 2 ^ 20

/-- A parity hit that the scrubber finds: its message waits for the group's restore, or for the group's next read. -/
def State.scrubHit (s : State) (p k b : Nat) : State :=
  let s := (s.memCount b).raiseFor (groupKey b) 0x0601 (chanSrc p k) b 0
  match s.ctxHolding p with
  | none => s
  | some n =>
    let t := s.mlaType b
    match if t = 1 || t = 2 then s.mirrorSrc n (8 * p + k) b else none with
    | some (mod, src) => s.askRestore n (8 * p + k) b mod src
    | none => s

/-- LPDDR5_SCRUB: the next group of a channel. -/
def State.memScrub (s : State) (p k : Nat) : State :=
  let c := s.ch (8 * p + k)
  if c.selfRef then s
  else
    let a := mlaOf p k (512 * c.scrub)
    let s := s.modCh (8 * p + k) (fun c => { c with scrub := (c.scrub + 1) % chanGroups })
    match s.memBadIn a 512 with
    | none => s
    | some b => s.scrubHit p k b

/-- MIRROR_RESTORE: a MASTER or MOMENT group written from the buddy's copy; a copy that cannot be read gives no data, and a
slice that waits for it holds (R149, R163, R164). -/
def State.restoreGroup (s : State) (p k g : Nat) (data : List Byte) : State :=
  let a := mlaOf p k (512 * g)
  let t := s.mlaType a
  let r : Repair := .restore (Fin.ofNat 16 p) (Fin.ofNat 8 k) g
  match s.ctxHolding p with
  | none => s
  | some n =>
    if chanGroups ≤ g || (t ≠ 1 && t ≠ 2) || (s.mirrorSrc n (8 * p + k) a).isNone then s
    else if data.length ≠ 512 then
      if (s.cx n).repairs.contains r then (s.endRepair n r).holdAt n 7 else s
    else ((s.memWrite a data).settleAction (groupKey a) 1).repaired r

/-! ### Channels (R145, R165) -/

/-- LPDDR5_HOT: MR4 asks for more than twice the base refresh rate. DESIGN CHOICE (log entry 56): the spec gives no event by which MR4
asks for less again, so HOT stays until a reset. -/
def State.memHot (s : State) (p k : Nat) : State := (s.memStat (PRT_MEM_STAT.HOT p) k true).raise 0x0602 (chanSrc p k) 0 0

/-- RETRAIN_OVERDUE: a full retrain has used 256 ms of slots. -/
def State.retrainLate (s : State) (p k : Nat) : State :=
  if (s.fget (PRT_MEM_STAT.DEGRADED p)).testBit k then s
  else (s.memStat (PRT_MEM_STAT.DEGRADED p) k true).raise 0x0603 (chanSrc p k) 0 0

/-! ### Commands -/

/-- SRAM_SCRUB (R160). -/
def execSramScrub (k : ClusId) (s : State) : Result := done s (s.sramScrub k.key)
/-- REPUBLICATION (R161). -/
def execRepublication (c : CoreId) (bank : Fin 24) (s : State) : Result := done s (s.republish c.key bank.val)
/-- LPDDR5_SCRUB (R163). -/
def execLpddr5Scrub (part : PartId) (ch : Chan) (s : State) : Result := done s (s.memScrub part.val ch.val)
/-- MIRROR_RESTORE (R164). -/
def execMirrorRestore (part : PartId) (ch : Chan) (group : BitVec 24) (data : List Byte) (s : State) : Result :=
  doneAt s (s.ch (8 * part.val + ch.val)).slotEnd (fun s => s.restoreGroup part.val ch.val group.toNat data)
/-- LPDDR5_HOT (R145). -/
def execLpddr5Hot (part : PartId) (ch : Chan) (s : State) : Result := done s (s.memHot part.val ch.val)
/-- RETRAIN_OVERDUE (R165). -/
def execRetrainOverdue (part : PartId) (ch : Chan) (s : State) : Result := done s (s.retrainLate part.val ch.val)

end Sys2Proof.Machine
end

