-- ==== Sys2Proof/Machine/Arrivals.lean ====
section
/-! DEFINITION. Packets that arrive at an endpoint of this module: the closed sluice (R359), slice isolation at ejection (R274),
in ports, LPDDR5 accesses and mirror writes (R164, R211, R248), and read replies (R360). -/

namespace Sys2Proof.Machine

/-! ### Checks at ejection -/

/-- An isolation violation reported by the endpoint agent of a partition: the offending master and the slice. -/
def State.isoFault (s : State) (p : Nat) (src : Word) (slice : Nat) : State :=
  s.raise 0x0401 (srcWord p 0 0) src.toNat slice

/-- A violation found at ejection (R274). -/
def State.isoEject (s : State) (p : Packet) : State :=
  (s.fcount FAB_ISO_EJ.COUNT 1).isoFault (epPart p.dest) p.src p.slice.toNat

/-- A packet of the right slice with another epoch (R274, R329). -/
def State.epochMiss (s : State) (n : Nat) : State :=
  (s.fcount FAB_EPOCH_MISS.COUNT 1).modCx n (fun c => { c with misses := c.misses + 1 })

end Sys2Proof.Machine

namespace Sys2Proof

open Machine

/-- Whether a type names an LPDDR5 access: MEM_WR, MEM_RD, MEM_RDR, MIRROR (R248). -/
def Packet.isMem (p : Packet) : Bool := (4 ≤ p.typ.toNat && p.typ.toNat ≤ 7)

/-- Whether a packet of an LPDDR5 access names an endpoint agent and an address of its partition (R248). -/
def Packet.memForm (p : Packet) : Bool :=
  !p.isMem || (epClus p.dest = 0 && epCore p.dest = 0 && epClus p.src = 0 && epCore p.src = 0 &&
    mlaPart p.addr.toNat = epPart p.dest)

end Sys2Proof

namespace Sys2Proof.Machine

/-- The reply to a MEM_RD: its code, and data or none (R211, R359). For a die in reset the hub sends it (DESIGN CHOICE, log entry 64). -/
def State.memReply (s : State) (p : Packet) (aux count seq : Nat) (data : List Byte) : State :=
  let r := Packet.sealed { p with
    typ := 6, cls := 1, last := decide (seq + 1 = count), len := BitVec.ofNat 11 data.length, esc := false, dest := p.src,
    src := p.dest, count := BitVec.ofNat 16 count, seq := BitVec.ofNat 16 seq, aux := BitVec.ofNat 8 aux, payload := data }
  let d := epPart p.dest
  if s.dieDown d then s.queueAt s.hubRtr 6 1 r else s.queueAt (meshKey d (s.memRtr d (mlaChan p.addr.toNat))) 5 1 r

/-- An inbound packet at a closed sluice (R359, Table 2). -/
def State.sluiceRefuse (s : State) (p : Packet) : State :=
  let d := epPart p.dest
  if p.typ = 5 then s.memReply p 1 1 0 []
  else if p.typ = 6 then s.fcount (PRT_SLU_CNT.ABSORBED d) 1
  else s.fcount (PRT_SLU_CNT.REFUSED d) 1

/-- A slice packet for a partition of this module: dropped where its payload fails its parity (R210; DESIGN CHOICE, log entry 25),
refused by a closed sluice, dropped as a violation or for its epoch, or given to what `f` says with the context that holds the
partition. -/
def State.eject (s : State) (p : Packet) (f : Nat → State → State) : State :=
  let d := epPart p.dest
  if epMod p.dest ≠ s.modId || !p.whole then s
  else if (s.pt d).closed then s.sluiceRefuse p
  else match s.ctxHolding d with
    | none => s.isoEject p
    | some n =>
      if p.slice.toNat ≠ s.slId n || !p.memForm then s.isoEject p
      else if p.epochLo.toNat ≠ (s.sliceMap n).epoch % 256 then s.epochMiss n
      else f n s

/-! ### In ports -/

/-- A ROW, DIRECT, STREAM or MCAST packet at the core its DEST names. -/
def State.arriveCore (s : State) (p : Packet) : State :=
  s.eject p (fun _ s =>
    if epClus p.dest < 75 && epCore p.dest < 250 then
      s.landing ((epPart p.dest * 75 + epClus p.dest) * 250 + epCore p.dest) (epPort p.dest) p
    else s)

/-! ### LPDDR5 (R164, R211) -/

/-- The record of a partition's counted write messages with a packet added; the flag says that it is a duplicate. -/
def countMsg (l : List MsgSt) (p : Packet) : List MsgSt × Bool :=
  if l.any (fun m => m.is p && m.seqs.contains p.seq.toNat) then (l, true)
  else if l.any (MsgSt.is p) then
    (l.map (fun m => if m.is p then { m with seqs := m.seqs ++ [p.seq.toNat] } else m), false)
  else (l ++ [⟨p.src.toNat, p.msg.toNat, p.count.toNat, [p.seq.toNat]⟩], false)

/-- A plain overwrite by a packet of the current tick; a duplicate is discarded (R110, R289, R290). -/
def State.arriveWrite (s : State) (p : Packet) : State :=
  s.eject p (fun n s =>
    let d := epPart p.dest
    let a := p.addr.toNat
    if !s.takes n p || !mlaRange a (max 1 p.payload.length) then s
    else if p.count.toNat ≤ p.seq.toNat then s.fcount (PRT_RED_DROP.N d) 1
    else
      let (l, dup) := countMsg (s.pt d).msgs p
      if dup then s.fcount (PRT_RED_DUP.N d) 1
      else (s.modPt d (fun t => { t with msgs := l })).memWrite a p.payload)

/-- The parity hits of a read of `len` bytes by a strand, a packet or a tree (Table 3): what a mirror restore reads fails quietly, any
other read holds the slice. -/
def State.readHit (s : State) (n a len : Nat) : State :=
  if s.mlaType a = 6 then s.memHits a len
  else (s.memHits a len).abortHold n 2

/-- A MEM_RD: AUX + 1 units, 32 units a reply (R210, R211). -/
def State.arriveRead (s : State) (p : Packet) : State :=
  s.eject p (fun n s =>
    let a := p.addr.toNat
    let len := 32 * (p.aux.toNat + 1)
    if !mlaRange a len then s
    else if (s.memFail a len).isSome then (s.readHit n a len).memReply p 0 1 0 []
      else
        let l := chunks 1024 len (s.memRead a len)
        s.each l.length (fun i s => s.memReply p 0 l.length i (l.getD i [])))

/-- A MEM_RDR: absorbed at a closed sluice, dropped as stale with another generation; otherwise it lands at its requester:
the restore that waits for it, or the in port of a core (R164, R359, R360). -/
def State.arriveReply (s : State) (p : Packet) : State :=
  let d := epPart p.dest
  if epMod p.dest ≠ s.modId then s
  else if (s.pt d).closed then s.fcount (PRT_SLU_CNT.ABSORBED d) 1
  else if p.gen.toNat ≠ s.gen d then (s.fcount (PRT_RST_STALE.N d) 1).raise 0x0403 (srcWord d 0 0) 0 p.gen.toNat
  else s.eject p (fun _ s =>
    match s.fab.reads.find? (fun r => r.1.msg = p.msg && r.1.dest = p.src) with
    | some r =>
      let s := { s with fab := { s.fab with reads := s.fab.reads.filter (fun x => x ≠ r) } }
      s.restoreGroup (mlaPart r.2) (mlaChan r.2) (mlaCda r.2 / 512) p.payload
    | none => s)

/-! ### Commands -/

/-- ROW (R211). -/
def execRow (p : Packet) (s : State) : Result := done s (s.arriveCore p)
/-- DIRECT. -/
def execDirect (p : Packet) (s : State) : Result := done s (s.arriveCore p)
/-- STREAM. -/
def execStream (p : Packet) (s : State) : Result := done s (s.arriveCore p)
/-- A packet for a channel is carried out now, or at the end of the channel's calibration slot, for which it waits (R41). -/
def memDone (s : State) (p : Packet) (f : State → State) : Result :=
  doneAt s (if epMod p.dest = s.modId && p.isMem then s.chanFree p.addr.toNat else s.now) f

/-- MEM_WR. -/
def execMemWr (p : Packet) (s : State) : Result := memDone s p (fun s => s.arriveWrite p)
/-- MEM_RD. -/
def execMemRd (p : Packet) (s : State) : Result := memDone s p (fun s => s.arriveRead p)
/-- MEM_RDR. -/
def execMemRdr (p : Packet) (s : State) : Result := done s (s.arriveReply p)
/-- MIRROR (R164). -/
def execMirror (p : Packet) (s : State) : Result := memDone s p (fun s => s.arriveWrite p)

end Sys2Proof.Machine
end

