-- ==== Sys2Proof/Machine/Collectives.lean ====
section
/-! DEFINITION. Reductions (R278 to R299): contributions of local out ports, memory and child agents, combining, chunks sent to
the parent or delivered by the root, fences and pruning. -/

namespace Sys2Proof.Machine

/-! ### Contributors -/

/-- The contributor number of a tree's MEM source. -/
def memContrib : Nat := 32

/-- Whether a child agent named by an entry is fenced in a context (R296). -/
def State.fenced (s : State) (n ep : Nat) : Bool :=
  (s.cx n).fences.any (fun f => f % 4096 = bits ep 11 0 && (f / 4096).testBit (bits ep 15 12))

/-- The fenced child entries of a tree that count in its configuration. -/
def State.fencedKids (s : State) (n : Nat) (r : TreeRec) (alt : Bool) : Nat :=
  (r.ents.filter (fun e => entChild e && entIn alt e && s.fenced n (entId e))).length

/-- The contributors a tree expects in a tick: entries of the configuration in force that are not fenced, and the MEM source. -/
def State.expected (s : State) (n : Nat) (r : TreeRec) (alt : Bool) : List Nat :=
  ((List.range r.ents.length).filter (fun i =>
    let e := r.ents.getD i 0
    entIn alt e && !(entChild e && s.fenced n (entId e)))) ++ (if r.memEn then [memContrib] else [])

/-! ### Combining (R285) -/

/-- What an element becomes with a contribution; `old` is its partial value, if it has one. -/
def TreeRec.combine (r : TreeRec) (old : Option Val) (v : Val) : Nat × NFlags :=
  if !v.isFin then (canonNan r.cfmt, { poison := true })
  else match old with
    | none => roundIeee r.cfmt 0 0 v
    | some o =>
      if o.isNan then (canonNan r.cfmt, {})
      else match r.op with
        | 0 => roundIeee r.cfmt 0 0 (o.add v)
        | 1 => roundIeee r.cfmt 0 0 (Val.max o v)
        | _ => roundIeee r.cfmt 0 0 (Val.min o v)

/-- An element as it enters a tree: one of a hank is first widened to binary32, with SAT where it saturates (R92, R283). -/
def TreeRec.widen (r : TreeRec) (v : Val) : Val × NFlags := if isHank r.ifmt && v.isFin then fp32 v else (v, {})

/-- The elements of a local contribution as they enter a tree, with the flags of their widening. -/
def TreeRec.widened (r : TreeRec) (vs : List Val) : List Val × NFlags :=
  (vs.map (fun v => (r.widen v).1), vs.foldl (fun f v => f.or (r.widen v).2) {})

/-- Contributions to consecutive elements from `e`. -/
def TreeSt.add (r : TreeRec) : List Val → Nat → TreeSt → TreeSt × NFlags
  | [], _, t => (t, {})
  | v :: vs, e, t =>
    let old := if t.first.contains e then
        some (ieeeVal r.cfmt (Store.get (fun _ => (0 : Word)) t.vals e).toNat) else none
    let (w, f) := r.combine old v
    let t := { t with vals := Store.put (fun _ => 0) t.vals e (BitVec.ofNat 32 w),
                      first := if t.first.contains e then t.first else t.first ++ [e] }
    let (t, g) := TreeSt.add r vs (e + 1) t
    (t, f.or g)

/-- A contributor that has delivered `upto` elements: the chunks it has completed. -/
def TreeSt.deliver (r : TreeRec) (c upto : Nat) (t : TreeSt) : TreeSt :=
  let cs := (List.range r.chunks).filter (fun k => let (e, m) := r.span k; decide (e + m ≤ upto) && !t.got.contains (c, k))
  { t with got := t.got ++ cs.map (fun k => (c, k)) }

/-! ### Results (R286, R287, R295) -/

/-- Whether every destination that a multicast names belongs to its slice (R272, R295). -/
def State.mcastOk (s : State) (n : Nat) (r : TreeRec) : Bool :=
  let m := s.sliceMap n
  let part := bits r.resDest 15 12
  (List.range 64).all (fun h => !r.mcGrp.testBit h || (List.range 64).all (fun q =>
    !r.mcPos.testBit q || (m.mask (64 * h + q)).testBit part))

/-- A tree record whose result breaks isolation: dropped, frozen by its record index and reported with its physical position, and the slice
holds (R273, R295, R355). -/
def State.treeViolation (s : State) (n k i : Nat) : State :=
  let src := s.clusSrc k
  let s := (s.fcount FAB_ISO_INJ.COUNT 1).freeze 3 (s.slId n) src i
  (s.isoFault (k / 75) src (s.slId n)).holdAt n 7

/-- A packet of a router agent, injected at its router's LOCAL port. -/
def State.agentSend (s : State) (n k typ : Nat) (dest : Word) (r : TreeRec) (c slot aux : Nat) (data : List Byte) : State :=
  s.queueAt (s.clusRtr k) 4 0 (s.slicePacket n typ 0 dest (s.routerEp k) r.chunks c r.rid slot aux data)

/-- A complete chunk sent to the parent, or delivered by the root; a MEM result stays in the channel's write queue until the commit (R287). A
frozen record emits nothing (R273). -/
def State.chunkOut (s : State) (n k i : Nat) (r : TreeRec) (c : Nat) : State :=
  let t := s.tree k i
  let root := r.rooted t.alt
  let own := s.fencedKids n r t.alt
  -- the fenced children of this agent count once a tick
  let s := if t.sent.isEmpty && own ≠ 0 then
      (s.modTree k i (fun t => { t with pruned := t.pruned + own })).fcount (PRT_RED_PRUNE.N (k / 75)) own
    else s
  let t := s.tree k i
  let aux := sat 8 t.pruned
  let data := t.chunkBytes r c
  if s.isFrozen 3 (s.clusSrc k) i then s
  else
    let mark (s : State) : State := s.modTree k i (fun t => { t with sent := t.sent ++ [c] })
    if !root then
      mark (s.agentSend n k 8 (BitVec.ofNat 32 (if t.alt then r.altParent else r.parent)) r c r.rid aux data)
    else match r.rkind with
      | 0 => mark (s.agentSend n k 2 (BitVec.ofNat 32 r.resDest) r c c 0 data)
      | 1 => mark s
      | _ =>
        if s.mcastOk n r then
          mark (s.agentSend n k 9 (BitVec.ofNat 32 r.resDest) r c r.rid aux (leBytes 8 r.mcPos ++ leBytes 8 r.mcGrp ++ data))
        else s.treeViolation n k i

/-- The chunks of a tree that have become complete, in order. -/
def State.chunksOut (s : State) (n k i : Nat) (r : TreeRec) : State :=
  s.each r.chunks (fun c s =>
    let t := s.tree k i
    if !t.sent.contains c && (s.expected n r t.alt).all (fun x => t.got.contains (x, c)) then s.chunkOut n k i r c else s)

/-- Contributions of one contributor of this agent to the elements from `e`, after which it has delivered `upto` elements. -/
def State.contribute (s : State) (n k i : Nat) (r : TreeRec) (c e upto : Nat) (vs : List Val) : State :=
  let (vs, g) := r.widened vs
  let (t, f) := (s.tree k i).add r vs e
  let s := s.modTree k i (fun _ => t.deliver r c upto)
  (s.treeFlags n k i r.trapPoison r.trapSat (g.or f)).chunksOut n k i r

/-! ### Local contributions (R283) -/

/-- The elements that a contribution's first `len` bytes hold whole. -/
def TreeRec.heldIn (r : TreeRec) (len : Nat) : Nat :=
  if isHank r.ifmt then
    let hb := hankBytes r.ifmt
    32 * countBelow (r.n / 32) (fun g => decide ((packedAt hb g).2 + hb ≤ len))
  else min r.n (len / elemBytes r.ifmt)

/-- The bytes that N elements take. -/
def TreeRec.inBytes (r : TreeRec) : Nat :=
  if isHank r.ifmt then 32 * packedUnits (r.n / 32) (hankBytes r.ifmt) else r.n * elemBytes r.ifmt

/-- Element `e` of a contribution's bytes. -/
def TreeRec.elemOf (r : TreeRec) (bs : List Byte) (e : Nat) : Val :=
  if isHank r.ifmt then
    let hb := hankBytes r.ifmt
    let (sc, da) := packedAt hb (e / 32)
    (Hank.mk (leAt bs sc 1) (hankUnpack r.ifmt (slice bs da hb))).val r.ifmt (e % 32)
  else ieeeVal r.ifmt (leAt bs (e * elemBytes r.ifmt) (elemBytes r.ifmt))

/-- The oldest unit of a core's out port taken, or the one offered. -/
def State.takeOut (s : State) (k : Nat) (port : Bool) (u : XUnit) : XUnit × State :=
  let c := s.co k
  if port then
    match c.out1 with
    | [] => (u, s)
    | x :: t => (x, s.modCo k (fun c => { c with out1 := t }))
  else
    match c.out0 with
    | [] => (u, s)
    | x :: t => (x, s.modCo k (fun c => { c with out0 := t }))

/-- The tree and the contributor of a core's out port, if its agent has one. -/
def State.treeOfPort (s : State) (n core : Nat) (port : Bool) : Option (Nat × TreeRec × Nat) :=
  let rs := s.trees n (corePart core) (coreClus core)
  let id := coreIdx core + 256 * b2n port
  (List.range rs.length).findSome? (fun i =>
    let r := rs.getD i (treeOf [])
    (firstBelow r.ents.length (fun j => let e := r.ents.getD j 0; !entChild e && entId e = id)).map (fun j => (i, r, j)))

/-- TREE_CONTRIBUTION: a unit of a local out port; a unit beyond the N elements is dropped and counted. -/
def State.treeUnit (s : State) (core : Nat) (port : Bool) (u : XUnit) : State :=
  match s.ctxHolding (corePart core) with
  | none => s
  | some n =>
    match s.treeOfPort n core port with
    | none => s
    | some (i, r, j) =>
      if !s.working n || s.isFrozen 1 (s.coreSrc core) 0 then s
      else
        let k := core / 250
        let (u, s) := s.takeOut core port u
        let t := s.tree k i
        let us := Store.get (fun _ => ([] : List XUnit)) t.units j
        if !entIn t.alt (r.ents.getD j 0) then s
        else if r.inBytes ≤ 32 * us.length then s.fcount (PRT_RED_DROP.N (k / 75)) 1
        else
          let s := s.modTree k i (fun t => { t with units := Store.put (fun _ => []) t.units j (us ++ [u]) })
          let e0 := r.heldIn (32 * us.length)
          let e1 := r.heldIn (32 * (us.length + 1))
          let bs := (us ++ [u]).flatMap (fun x => leBytes 32 x.toNat)
          s.contribute n k i r j e0 e1 ((List.range (e1 - e0)).map (fun x => r.elemOf bs (e0 + x)))

/-! ### Memory sources (R284) -/

/-- TREE_MEM_SOURCE: the N elements of a tree's MEM source, once a tick. -/
def State.treeMem (s : State) (k i : Nat) : State :=
  match s.ctxHolding (k / 75) with
  | none => s
  | some n =>
    match (s.trees n (k / 75) (k % 75))[i]? with
    | none => s
    | some r =>
      if !s.working n || !r.memEn || (s.tree k i).got.contains (memContrib, 0) then s
      else
        let base := r.srcCda + (s.slStep n % max 1 r.wrap) * r.step64 r.ifmt
        let a := mlaOf (k / 75) r.srcCh (64 * base)
        let len := r.n * elemBytes r.ifmt
        if (s.memFail a len).isSome then s.readHit n a len
        else
          let bs := s.memRead a (r.n * elemBytes r.ifmt)
          s.contribute n k i r memContrib 0 r.n ((List.range r.n).map (r.elemOf bs))

/-! ### Child contributions (R289 to R292, R298) -/

/-- The record of a reduction number at a cluster. -/
def State.treeRid (s : State) (n k rid : Nat) : Option (Nat × TreeRec) :=
  let rs := s.trees n (k / 75) (k % 75)
  (firstBelow rs.length (fun i => (rs.getD i (treeOf [])).rid = rid)).map (fun i => (i, rs.getD i (treeOf [])))

/-- A RED packet at a router agent. -/
def State.arriveRed (s : State) (p : Packet) : State :=
  s.eject p (fun n s =>
    let d := epPart p.dest
    let k := 75 * d + epClus p.dest
    let drop := s.fcount (PRT_RED_DROP.N d) 1
    let c := p.seq.toNat
    if 75 ≤ epClus p.dest || epCore p.dest ≠ 0xFF || !s.takes n p then drop
    else match s.treeRid n k p.msg.toNat with
      | none => drop
      | some (i, r) =>
        let t := s.tree k i
        let id := bits p.src.toNat 22 0
        match firstBelow r.ents.length (fun j => let e := r.ents.getD j 0; entChild e && entId e = id && entIn t.alt e) with
        | none => drop
        | some j =>
          let (e, m) := r.span c
          if s.fenced n id || p.count.toNat ≠ r.chunks || r.chunks ≤ c || p.payload.length ≠ m * elemBytes r.cfmt then drop
          else if t.got.contains (j, c) then s.fcount (PRT_RED_DUP.N d) 1
          else
            -- what a child has pruned counts once a tick
            let s := if t.got.any (fun g => g.1 = j) then s
              else s.modTree k i (fun t => { t with pruned := t.pruned + p.aux.toNat })
            let sz := elemBytes r.cfmt
            let vs := (List.range m).map (fun x => ieeeVal r.cfmt (leAt p.payload (sz * x) sz))
            let (t, f) := (s.tree k i).add r vs e
            let s := s.modTree k i (fun _ => { t with got := t.got ++ [(j, c)] })
            (s.treeFlags n k i r.trapPoison r.trapSat f).chunksOut n k i r)

/-- A prune report at the root (R297). -/
def State.pruneReport (s : State) (p : Packet) : State :=
  let k := 75 * epPart p.dest + epClus p.dest
  let rid := bits (leAt p.payload 0 4) 11 0
  if p.typ ≠ 0xA || p.aux ≠ 0x10 || epMod p.dest ≠ s.modId || 75 ≤ epClus p.dest ||
      epMod p.src / 64 ≠ s.modId / 64 then s.mgtReject p
  else if (s.pt (epPart p.dest)).closed then s
  else match s.ctxHolding (epPart p.dest) with
    | none => s.mgtReject p
    | some n =>
      if !s.takes n p then s.fcount (PRT_RED_DROP.N (epPart p.dest)) 1
      else match s.treeRid n k rid with
        | none => s.mgtReject p
        | some (i, _) => s.modTree k i (fun t => { t with pruned := t.pruned + bits (leAt p.payload 4 4) 7 0 })

/-! ### Commands -/

/-- TREE_CONTRIBUTION (R283). -/
def execTreeContribution (c : CoreId) (port : Bool) (u : XUnit) (s : State) : Result := done s (s.treeUnit c.key port u)
/-- When a tree's MEM source can be read: now, or at the end of its channel's calibration slot (R41). -/
def State.treeMemFree (s : State) (k i : Nat) : Nat :=
  match (s.ctxHolding (k / 75)).bind (fun n => (s.trees n (k / 75) (k % 75))[i]?) with
  | some r => (s.ch (8 * (k / 75) + r.srcCh)).slotEnd
  | none => s.now

/-- TREE_MEM_SOURCE (R284). -/
def execTreeMemSource (k : ClusId) (rec : Fin 256) (s : State) : Result :=
  doneAt s (s.treeMemFree k.key rec.val) (fun s => s.treeMem k.key rec.val)
/-- RED (R285). -/
def execRed (p : Packet) (s : State) : Result := done s (s.arriveRed p)
/-- PRUNE_REPORT (R297). -/
def execPruneReport (p : Packet) (s : State) : Result := done s (s.pruneReport p)

end Sys2Proof.Machine
end

