-- ==== Sys2Proof/Machine/Identity.lean ====
section
/-! DEFINITION. What the security block derives from the device secret (R446): the identity key and the NOR key. -/

namespace Sys2Proof.Machine

/-- The ASCII bytes "DR9640-KDF". -/
def kdfLabel : List Byte := [0x44, 0x52, 0x39, 0x36, 0x34, 0x30, 0x2D, 0x4B, 0x44, 0x46]

/-- The 128 bytes of SHAKE256 over the label and the SECRET fuse. -/
def Fuses.kdf (f : Fuses) : List Byte := shake256 128 (kdfLabel ++ leBytes 32 f.secret.toNat)

/-- SK.seed, SK.prf and PK.seed. -/
def Fuses.seeds (f : Fuses) : List Byte := f.kdf.take 96

/-- The NOR key of R450. -/
def Fuses.norKey (f : Fuses) : List Byte := f.kdf.drop 96

/-- The 64-byte identity public key: PK.seed and PK.root. -/
def Fuses.pub (f : Fuses) : List Byte := f.seeds.drop 64 ++ padTo 32 0 (Config.slhRoot256f f.seeds)

/-- IDDIG, 256 bits: the digest of the identity public key (R315). -/
def Fuses.idDig (f : Fuses) : List Byte := digest f.pub

end Sys2Proof.Machine
end

