-- ==== Sys2Proof/Machine/LaneCode.lean ====
section
/-! DEFINITION. What travels on one lane: the frame message, its scrambler, the RS(544,534) code, Gray coded PAM4 symbols with
precoding (R217, R218), and the training block (R231). The roots of the code's generator, the order of its coefficients, the Gray map
and the PRBS13 generator are those of IEEE 802.3 (PRESUMED, log entry 59). -/

namespace Sys2Proof.Machine

/-! ### The field of 2^10 elements (R217) -/

/-- An element times x, reduced by x^10 + x^3 + 1. -/
def gfX (a : Nat) : Nat := if a < 512 then 2 * a else (2 * a) ^^^ 1033

/-- The product of two elements. -/
def gfMul (a b : Nat) : Nat :=
  (List.range 10).foldl (fun r i => if b.testBit (9 - i) then gfX r ^^^ a else gfX r) 0

/-- An element times x to the power `n`. -/
def gfUp : Nat → Nat → Nat
  | 0, a => a
  | n + 1, a => gfUp n (gfX a)

/-- x to the power `n`. -/
def gfExp (n : Nat) : Nat := gfUp n 1

/-- The inverse of an element: its power 1,022, from the squares of the element. -/
def gfInv (a : Nat) : Nat :=
  let sq := (List.range 9).foldl (fun l _ => let t := l.headD a; gfMul t t :: l) [a]
  (sq.take 9).foldl gfMul 1

/-- The value of a polynomial, lowest coefficient first. -/
def polyAt (f : List Nat) (v : Nat) : Nat := f.foldr (fun c r => gfMul r v ^^^ c) 0

/-- The sum of two polynomials. -/
def polyAdd : List Nat → List Nat → List Nat
  | [], g => g
  | f, [] => f
  | a :: f, b :: g => (a ^^^ b) :: polyAdd f g

/-- A polynomial times a field element. -/
def polyScale (a : Nat) (f : List Nat) : List Nat := f.map (gfMul a)

/-- The product of two polynomials. -/
def polyMul (f g : List Nat) : List Nat := f.foldr (fun a r => polyAdd (polyScale a g) (0 :: r)) []

/-! ### RS(544,534) (R217, R218) -/

/-- The coefficients below the leading one of the generator with roots x^0 to x^9, highest first. -/
def rsGen : List Nat := (((List.range 10).foldl (fun f j => polyMul f [gfExp j, 1]) [1]).take 10).reverse

/-- One step of the division by the generator: `reg` is the remainder so far, highest first. -/
def rsStep (reg : List Nat) (c : Nat) : List Nat :=
  let q := reg.headD 0 ^^^ c
  List.zipWith (fun a b => a ^^^ b) (reg.drop 1 ++ [0]) (polyScale q rsGen)

/-- The parity symbols of a message: 534 symbols, symbol 0 the highest coefficient. -/
def rsParity (msg : List Nat) : List Nat := msg.foldl rsStep (List.replicate 10 0)

/-- The codeword of a message. -/
def rsEncode (msg : List Nat) : List Nat := msg ++ rsParity msg

/-- The syndromes of 544 received symbols. -/
def rsSyndromes (rx : List Nat) : List Nat :=
  (List.range 10).map (fun j => rx.foldl (fun a c => gfUp j a ^^^ c) 0)

/-- The error locator as it grows syndrome by syndrome: the locator, the one before its latest change with the discrepancy of that
time, its length, and the steps since. -/
structure Locator where
  cur  : List Nat
  old  : List Nat
  disc : Nat
  len  : Nat
  gap  : Nat

/-- One more syndrome, number `n`. -/
def Locator.next (syn : List Nat) (x : Locator) (n : Nat) : Locator :=
  let d := (List.range (x.len + 1)).foldl (fun a i => a ^^^ gfMul (x.cur.getD i 0) (syn.getD (n - i) 0)) 0
  if d = 0 then { x with gap := x.gap + 1 }
  else
    let shift := List.replicate x.gap 0 ++ polyScale (gfMul d (gfInv x.disc)) x.old
    let cur := polyAdd x.cur shift
    if 2 * x.len ≤ n then ⟨cur, x.cur, d, n + 1 - x.len, 1⟩ else { x with cur := cur, gap := x.gap + 1 }

/-- The locator of a list of syndromes. -/
def locator (syn : List Nat) : Locator := (List.range 10).foldl (Locator.next syn) ⟨[1], [1], 1, 0, 1⟩

/-- The errors that explain the syndromes: the index of a symbol and what was added to it; none where no pattern of at most 5 symbols
does. -/
def rsErrors (syn : List Nat) : Option (List (Nat × Nat)) :=
  let x := locator syn
  let omega := (polyMul syn x.cur).take 10
  let slope := (x.cur.drop 1).mapIdx (fun i c => if i % 2 = 0 then c else 0)
  let at_ (i : Nat) : Nat := gfExp (543 - i)
  let l := (List.range 544).filter (fun i => polyAt x.cur (gfInv (at_ i)) = 0)
  if l.length ≠ x.len || 5 < x.len then none
  else some (l.map (fun i =>
    let v := gfInv (at_ i)
    (i, gfMul (at_ i) (gfMul (polyAt omega v) (gfInv (polyAt slope v))))))

/-- A received word decoded: its message symbols with the number of symbols and of bits corrected; none where it is uncorrectable. -/
def rsDecode (rx : List Nat) : Option (List Nat × Nat × Nat) :=
  let syn := rsSyndromes rx
  if syn.all (fun c => c = 0) then some (rx.take 534, 0, 0)
  else match rsErrors syn with
    | none => none
    | some es =>
      let fixed := es.foldl (fun l e => l.set e.1 (l.getD e.1 0 ^^^ e.2)) rx
      if (rsSyndromes fixed).all (fun c => c = 0) then
        some (fixed.take 534, es.length, (es.map (fun e => (List.range 10).countP e.2.testBit)).foldl (· + ·) 0)
      else none

/-! ### The message and its scrambler (R217, R218) -/

/-- The low `n` bits of a number, bit 0 first. -/
def bitList (n x : Nat) : List Bool := (List.range n).map x.testBit

/-- The number that bits spell, bit 0 first. -/
def bitsNat (l : List Bool) : Nat := l.foldr (fun b n => b2n b + 2 * n) 0

/-- The message bits that the CRC covers, from bit 0 upwards. -/
def frameBits (m : FrameMsg) : List Bool :=
  (padTo 20 0 m.units).flatMap (fun u => bitList 256 u.toNat) ++ (padTo 20 0 m.tags).flatMap (fun t => bitList 7 t.toNat) ++
    bitList 12 m.seq.toNat ++ bitList 12 m.ack.toNat ++ bitList 24 m.cs.toNat

/-- The frame message of 5,340 bits (Table 2). -/
def frameOf (l : List Bool) : FrameMsg :=
  let n := bitsNat l
  { units := (List.range 20).map (fun k => BitVec.ofNat 256 (bits n (256 * k + 255) (256 * k))),
    tags := (List.range 20).map (fun k => BitVec.ofNat 7 (bits n (5126 + 7 * k) (5120 + 7 * k))),
    seq := BitVec.ofNat 12 (bits n 5271 5260), ack := BitVec.ofNat 12 (bits n 5283 5272),
    cs := BitVec.ofNat 24 (bits n 5307 5284), crc := BitVec.ofNat 32 (bits n 5339 5308) }

/-- A message whose CRC holds. -/
def msgGood (m : FrameMsg) : Bool := m.crc.toNat = crc32Bits (frameBits m)

/-- The latest 58 scrambled bits after one more, the latest in bit 0. -/
def scrShift (st : Nat) (b : Bool) : Nat := (2 * st + b2n b) % 2 ^ 58

/-- What the scrambler adds to a bit: x^58 + x^39 + 1. -/
def scrTap (st : Nat) : Bool := st.testBit 38 != st.testBit 57

/-- Bits scrambled, with the scrambler left behind. -/
def scramble : Nat → List Bool → List Bool × Nat
  | st, [] => ([], st)
  | st, b :: t =>
    let c := b != scrTap st
    let (l, e) := scramble (scrShift st c) t
    (c :: l, e)

/-- Bits descrambled, with the descrambler left behind. -/
def descramble : Nat → List Bool → List Bool × Nat
  | st, [] => ([], st)
  | st, c :: t =>
    let (l, e) := descramble (scrShift st c) t
    ((c != scrTap st) :: l, e)

/-! ### PAM4 (R217, R218) -/

/-- The level of a bit pair, Gray coded; the pair's first bit is its low one. -/
def grayLevel (v : Nat) : Nat := if v = 0 then 0 else if v = 2 then 1 else if v = 3 then 2 else 3

/-- The bit pair of a level. -/
def grayPair (lv : Nat) : Nat := if lv = 0 then 0 else if lv = 1 then 2 else if lv = 2 then 3 else 1

/-- A ten-bit symbol as five levels, least significant bit pair first. -/
def symbolLevels (c : Nat) : List Nat := (List.range 5).map (fun i => grayLevel (bits c (2 * i + 1) (2 * i)))

/-- The ten-bit symbols that levels spell. -/
def levelSymbols (l : List Nat) : List Nat :=
  (chunks 5 l.length l).map (fun c => (c.map grayPair).foldr (fun v n => v + 4 * n) 0)

/-- Levels precoded by 1/(1+D), with the level left behind. -/
def precodeLevels : Nat → List Nat → List Nat × Nat
  | prev, [] => ([], prev)
  | prev, g :: t =>
    let v := (g + 4 - prev % 4) % 4
    let (l, e) := precodeLevels v t
    (v :: l, e)

/-- Precoded levels taken back, with the level left behind. -/
def decodeLevels : Nat → List Nat → List Nat × Nat
  | prev, [] => ([], prev)
  | prev, v :: t =>
    let (l, e) := decodeLevels v t
    ((v + prev) % 4 :: l, e)

/-- Levels as they lie on the lane. -/
def onLane (l : List Nat) : List (BitVec 2) := l.map (BitVec.ofNat 2)

/-! ### Training blocks (R231) -/

/-- The next bit of PRBS13 after 13 bits, the latest in bit 0. -/
def prbsBit (st : Nat) : Bool := (st.testBit 0 != st.testBit 1) != (st.testBit 11 != st.testBit 12)

/-- `n` bits of PRBS13. -/
def prbs13 : Nat → Nat → List Bool
  | 0, _ => []
  | n + 1, st => prbsBit st :: prbs13 n ((2 * st + b2n (prbsBit st)) % 2 ^ 13)

/-- A bit on the outer levels. -/
def outer (b : Bool) : Nat := if b then 3 else 0

/-- The marker: the first 128 bits of PRBS13 with seed 0x1FFF on the outer levels. -/
def markerLevels : List Nat := (prbs13 128 0x1FFF).map outer

/-- A training word and its complement, each bit as two symbols, least significant bit first. -/
def wordLevels (w : Nat) : List Nat :=
  let f (inv : Bool) : List Nat := (bitList 32 w).flatMap (fun b => List.replicate 2 (outer (b != inv)))
  f false ++ f true

/-- PRBS13Q: the bits of PRBS13 two by two, Gray coded. -/
def prbs13q (n : Nat) : List Nat :=
  (chunks 2 n (prbs13 (2 * n) 0x1FFF)).map (fun c => grayLevel (bitsNat c))

/-- The training block of a word. -/
def blockOf (w : Nat) : List (BitVec 2) := onLane (markerLevels ++ wordLevels w ++ prbs13q 768)

/-- The training word of a block and its polarity, inverted or not, as the marker shows; none where the marker or the word does not
hold. -/
def blockWord (b : List (BitVec 2)) : Option (Nat × Bool) :=
  let l := b.map BitVec.toNat
  let f (inv : Bool) : List Nat := if inv then l.map (fun v => 3 - v) else l
  let word (m : List Nat) : Option Nat :=
    let w := bitsNat ((List.range 32).map (fun i => decide (m.getD (128 + 2 * i) 0 = 3)))
    if m.take 128 = markerLevels && (m.drop 128).take 128 = wordLevels w then some w else none
  match word (f false), word (f true) with
  | some w, _ => some (w, false)
  | none, some w => some (w, true)
  | none, none => none

end Sys2Proof.Machine
end

