-- ==== Sys2Proof/Machine/Detours.lean ====
section
/-! DEFINITION. Records moved by a repair: strands whose path crossed a position in bypass go around it, and records that named the
router of an LPDDR5 channel go to its alternate (R202, R203, R215, R366). The choice among paths is the model's (log entry 58). -/

namespace Sys2Proof.Machine

/-! ### The records of one strand, router by router -/

/-- The bytes of a STRAND record (R206, Table 3). -/
def StrandRec.bytes (r : StrandRec) : List Byte :=
  leBytes 4 (r.sid + r.inp * 2 ^ 12 + r.out * 2 ^ 16) ++ leBytes 4 r.units ++
    leBytes 4 (r.srcCore + b2n r.srcPort * 2 ^ 8 + r.wrap * 2 ^ 16) ++ leBytes 4 (r.memBase + r.memCh * 2 ^ 27) ++
    (List.range 8).flatMap (fun i => leBytes 2 (r.dests.getD i 0))

/-- The agent of a router, if a logical cluster stands there. -/
def State.rtrAgent (s : State) (rk : Nat) : Option Nat :=
  let (d, q) := meshDP (rtrXY rk).1 (rtrXY rk).2
  (s.logClus d q).map (routerAgent s.modId d)

/-- Whether a router is in bypass. -/
def State.bypassed (s : State) (rk : Nat) : Bool :=
  let (d, q) := meshDP (rtrXY rk).1 (rtrXY rk).2
  (s.pt d).bypass.contains q

/-- The records of a strand on this module: router and record. -/
def State.strandNodes (s : State) (l : List Sect) (n sid : Nat) : List (Nat × StrandRec) :=
  (s.ctxParts n).flatMap (fun p => (List.range 75).filterMap (fun c =>
    ((strandsIn l (routerAgent s.modId p c)).find? (fun r => r.sid = sid)).map (fun r => (s.clusRtr (75 * p + c), r))))

/-- A strand's record at a router put in place of the one there. -/
def putNode (l : List (Nat × StrandRec)) (rk : Nat) (r : StrandRec) : List (Nat × StrandRec) :=
  l.filter (fun e => e.1 ≠ rk) ++ [(rk, r)]

/-- A strand's record at a router. -/
def nodeAt (l : List (Nat × StrandRec)) (rk : Nat) : Option StrandRec := (l.find? (fun e => e.1 = rk)).map Prod.snd

/-- A record of a strand taken out of an agent's section, or put into it. -/
def setStrand (l : List Sect) (agent sid : Nat) (r : Option StrandRec) : List Sect :=
  let rs := (strandsIn l agent).filter (fun t => t.sid ≠ sid) ++ r.toList
  putSect l ⟨0x0020, agent, rs.length, rs.flatMap StrandRec.bytes⟩

/-! ### Paths -/

/-- The mesh neighbours of a router, with the direction of each. -/
def neighbours (rk : Nat) : List (Nat × Nat) :=
  (List.range 4).filterMap (fun o => (meshNext (rtrXY rk).1 (rtrXY rk).2 o).map (fun e => (o, e.2 * 40 + e.1)))

/-- A shortest path over routers that `ok` allows, from the head of one of the paths found so far to a router; paths stand last router
first. -/
def findPath (ok : Nat → Bool) (goal : Nat) : Nat → List (List Nat) → List Nat → Option (List Nat)
  | 0, _, _ => none
  | f + 1, front, seen =>
    match front.find? (fun p => p.head? = some goal) with
    | some p => some p.reverse
    | none =>
      let x := front.foldl (fun (x : List (List Nat) × List Nat) p =>
        (neighbours (p.headD 0)).foldl (fun x e =>
          if (e.2 = goal || ok e.2) && !x.2.contains e.2 then (x.1 ++ [e.2 :: p], x.2 ++ [e.2]) else x) x) ([], seen)
      if x.1.isEmpty then none else findPath ok goal f x.1 x.2

/-- The direction from a router to its neighbour. -/
def dirOf (u v : Nat) : Nat := ((neighbours u).find? (fun e => e.2 = v)).elim 7 Prod.fst

/-- A path laid for a strand: each router on it sends on to the next one. -/
def layPath (r : StrandRec) : List Nat → List (Nat × StrandRec) → List (Nat × StrandRec)
  | u :: v :: t, l =>
    let o := dirOf u v
    let a := (nodeAt l u).getD r
    let b := (nodeAt l v).getD { r with out := 0, srcCore := 0, srcPort := false, wrap := 0, memBase := 0, memCh := 0, dests := [] }
    layPath r (v :: t) (putNode (putNode l u { a with out := a.out ||| 2 ^ o }) v { b with inp := meshBack o })
  | _, l => l

/-! ### A strand around a position -/

/-- A strand with one more target joined to what has been laid: `laid` are the routers it reaches so far, `down` says that the target is
a router that continues the strand. -/
def State.joinStrand (s : State) (near : Nat → Bool) (r : StrandRec) (target : Nat) (down : Bool)
    (x : List (Nat × StrandRec) × List Nat) : Option (List (Nat × StrandRec) × List Nat) :=
  let ok (rk : Nat) : Bool := (s.rtrAgent rk).isSome && !s.bypassed rk && (nodeAt x.1 rk).isNone && near rk
  if x.2.contains target then some x
  else if s.bypassed target || (s.rtrAgent target).isNone || (!down && (nodeAt x.1 target).isSome) then none
  else (findPath ok target 80 (x.2.map (fun a => [a])) x.2).map (fun p => (layPath r p x.1, x.2 ++ p.drop 1))

/-- Where an endpoint of a strand's record stands now: its cluster's router, or that of its channel. -/
def State.endRtr (s : State) (d c : Nat) (r : StrandRec) (code : Nat) : Nat :=
  if code = 4 then s.clusRtr (75 * d + c) else meshKey d (s.memRtr d r.memCh)

/-- An endpoint of a strand's record put at its router. -/
def addEnd (r : StrandRec) (rk code : Nat) (l : List (Nat × StrandRec)) : List (Nat × StrandRec) :=
  match nodeAt l rk with
  | none => l
  | some t =>
    let t := { t with out := t.out ||| 2 ^ code, dests := if code = 4 then r.dests else t.dests }
    putNode l rk (if code = 5 then { t with wrap := r.wrap, memBase := r.memBase, memCh := r.memCh } else t)

/-- The records of a strand without its record `r` at position `old` of cluster `c`: what came in there and what went out there is joined
again around the position, at most one row or column aside where the strand only crossed it (R366), and its endpoints there are
reached where they stand now (R203). -/
def State.moveStrand (s : State) (d c old : Nat) (nodes : List (Nat × StrandRec)) (r : StrandRec) : Option (List (Nat × StrandRec)) :=
  let f := meshKey d old
  let (x, y) := rtrXY f
  let next (o : Nat) : Option Nat := (meshNext x y o).map (fun e => e.2 * 40 + e.1)
  let downs := r.outs.filter (fun o => o < 4)
  let ends := r.outs.filter (fun o => 4 ≤ o)
  let crosses := r.inp < 4 && ends.isEmpty
  let near (rk : Nat) : Bool := !crosses ||
    (let (a, b) := rtrXY rk; decide (a ≤ x + 1) && decide (x ≤ a + 1) && decide (b ≤ y + 1) && decide (y ≤ b + 1))
  if r.inp = 6 || ends.contains 6 || (r.inp < 4 && (next r.inp).isNone) || downs.any (fun o => (next o).isNone) then none
  else
    let root : Option (List (Nat × StrandRec) × List Nat) :=
      if r.inp < 4 then
        let u := (next r.inp).getD 0
        match nodeAt nodes u with
        | some t => some (putNode nodes u { t with out := t.out - (t.out &&& 2 ^ meshBack r.inp) }, [u])
        | none => none
      else
        let u := s.endRtr d c r r.inp
        let t := (nodeAt nodes u).getD { r with out := 0, dests := [] }
        if s.bypassed u || (s.rtrAgent u).isNone then none
        else some (putNode nodes u { t with inp := r.inp, srcCore := r.srcCore, srcPort := r.srcPort, wrap := r.wrap,
                                            memBase := r.memBase, memCh := r.memCh }, [u])
    let joined := downs.foldl (fun x o => x.bind (s.joinStrand near r ((next o).getD 0) true)) root
    let all := ends.foldl (fun x o => x.bind (fun x =>
      let e := s.endRtr d c r o
      (s.joinStrand near r e false x).map (fun x => (addEnd r e o x.1, x.2)))) joined
    all.map Prod.fst

/-- Sections with the strands at a cluster's agent that `sel` picks moved away from the position that the cluster stood at. -/
def State.moveStrands (s : State) (n d c old : Nat) (sel : StrandRec → Bool) (l : List Sect) : Option (List Sect) :=
  let a := routerAgent s.modId d c
  ((strandsIn l a).filter (fun r => sel r && !r.inClus)).foldl (fun x r => x.bind (fun l =>
    let l := setStrand l a r.sid none
    (s.moveStrand d c old (s.strandNodes l n r.sid) r).map (fun ns =>
      ns.foldl (fun l e => match s.rtrAgent e.1 with
        | some b => setStrand l b r.sid (some e.2)
        | none => l) l))) (some l)

/-! ### Trees at the router of a channel (R203) -/

/-- A word of a record changed. -/
def setWord (b : List Byte) (i w : Nat) : List Byte := b.take (4 * i) ++ leBytes 4 w ++ b.drop (4 * i + 4)

/-- A tree record's bytes with one router agent named in place of another as parent or child. -/
def renameAgent (old new : Nat) (b : List Byte) : List Byte :=
  let w (i : Nat) := leAt b (4 * i) 4
  let par (i : Nat) (b : List Byte) : List Byte := if bits (w i) 22 0 = old && w i ≠ 0 then setWord b i (setBits (w i) 22 0 new) else b
  (List.range (treeOf b).ents.length).foldl (fun b j =>
    if entChild (w (16 + j)) && entId (w (16 + j)) = old then setWord b (16 + j) (setBits (w (16 + j)) 22 0 new) else b) (par 3 (par 2 b))

/-- Every RTREE record of a RID among sections changed. -/
def mapTrees (rid : Nat) (f : List Byte → List Byte) (l : List Sect) : List Sect :=
  l.map (fun x => if x.typ = 0x0022 then
    { x with bytes := (List.range x.count).flatMap (fun i => let b := x.item 192 i; if (treeOf b).rid = rid then f b else b) } else x)

/-- Whether a tree record uses a channel. -/
def TreeRec.usesChan (r : TreeRec) (k : Nat) : Bool := (r.memEn && r.srcCh = k) || (r.rkind = 1 && r.resCh = k)

/-- A tree record moved to another agent. One with local entries cannot move, since its cores stay; nor can one whose parent or child
stands on another module, since that agent's record names it. -/
def State.moveTree (s : State) (d c e : Nat) (b : List Byte) (l : List Sect) : Option (List Sect) :=
  let r := treeOf b
  let old := agentEp (routerAgent s.modId d c)
  let new := agentEp (routerAgent s.modId d e)
  let here (w : Nat) : Bool := bits w 11 0 = s.modId
  if r.ents.any (fun x => !entChild x || !here x) || (!r.root && !here r.parent) || (!r.altRoot && !here r.altParent) then none
  else
    let xa := sectOf l 0x0022 (routerAgent s.modId d c)
    let xb := sectOf l 0x0022 (routerAgent s.modId d e)
    let stay := ((List.range xa.count).map (xa.item 192)).filter (fun t => (treeOf t).rid ≠ r.rid)
    let l := putSect l ⟨0x0022, xa.agent, stay.length, stay.flatMap id⟩
    some (mapTrees r.rid (renameAgent old new) (putSect l ⟨0x0022, xb.agent, xb.count + 1, xb.bytes ++ b⟩))

/-- Sections with the tree records at a cluster's agent that use channel `k` moved to the agent of the channel's router. -/
def State.moveTrees (s : State) (d c k : Nat) (l : List Sect) : Option (List Sect) :=
  let x := sectOf l 0x0022 (routerAgent s.modId d c)
  let bs := ((List.range x.count).map (x.item 192)).filter (fun b => (treeOf b).usesChan k)
  if bs.isEmpty then some l
  else match s.logClus d (s.memRtr d k) with
    | none => none
    | some e => bs.foldl (fun l b => l.bind (s.moveTree d c e b)) (some l)

/-! ### What a repair moves -/

/-- Whether the agents of a context on this module whose records differ pass the checks of R208 and R281. -/
def State.movedPass (s : State) (n : Nat) (was now : List Sect) : Bool :=
  (s.ctxParts n).all (fun p => (List.range 75).all (fun c =>
    let a := routerAgent s.modId p c
    (sectOf was 0x0020 a = sectOf now 0x0020 a || (s.routerStrandErr now (s.sched n) (s.sliceMap n).clock p c).isNone) &&
      (sectOf was 0x0022 a = sectOf now 0x0022 a || (s.treeSectErr now p c).isNone)))

/-- The channels of a die whose primary or alternate router is at a position. -/
def chansAt (q : Nat) : List Nat := (List.range 8).filter (fun k => (memPos k).1 = q || (memPos k).2 = q)

/-- A context's sections with the records of cluster `c` moved away from position `old` of die `d`, taken from the system area copy where
it holds them (R203): with a channel those of its MEM endpoints, results and sources, without one every record. None where a record
cannot be moved or fails its checks. -/
def State.movedFrom (s : State) (n d c old : Nat) (chan : Option Nat) : Option (List Sect) :=
  let was := (s.cx n).active
  let a := routerAgent s.modId d c
  match s.goodCopy n d with
  | none => none
  | some y =>
    let saved := strandsIn y.sects a
    let l := (strandsIn was a).foldl (fun l r =>
      match saved.find? (fun t => t.sid = r.sid) with
      | some t => setStrand l a r.sid (some t)
      | none => l) was
    let mem (r : StrandRec) : Bool := r.inp = 5 || r.out.testBit 5
    let sel (r : StrandRec) : Bool := match chan with | some k => mem r && r.memCh = k | none => true
    let ks := match chan with | some k => [k] | none => chansAt old
    match ks.foldl (fun l k => l.bind (s.moveTrees d c k)) (s.moveStrands n d c old sel l) with
    | some now => if s.movedPass n was now then some now else none
    | none => none

/-- The records of a channel moved to its alternate router, once (R203); the flag says that all of them stand there. -/
def State.moveRecords (s : State) (n d k : Nat) : Bool × State :=
  let old := (memPos k).1
  match (s.pt d).served.find? (fun e => e.1 = old) with
  | none => (true, s)
  | some (_, c) =>
    if (s.logClus d old).isNone then (true, s)
    else match s.movedFrom n d c old (some k) with
      | some l => (true, s.modCx n (fun x => { x with active := l }))
      | none => (false, s)

/-- The records that the copy of a partition gives back where they stood before a repair moved them, moved again (R203). -/
def State.movedAgain (s : State) (n d : Nat) : State :=
  State.eachOf (s.pt d).served (fun e s =>
    if (s.logClus d e.1).isSome then s
    else match s.movedFrom n d e.2 e.1 none with
      | some l => s.modCx n (fun x => { x with active := l })
      | none => s) s

/-- Whether no strand of a context on this module has a hop to a position in bypass. -/
def State.strandsClear (s : State) (n : Nat) : Bool :=
  (s.ctxParts n).all (fun p => (List.range 75).all (fun c =>
    let (x, y) := rtrXY (s.clusRtr (75 * p + c))
    (strandsIn (s.cx n).active (routerAgent s.modId p c)).all (fun r => (r.inp :: r.outs).all (fun o => !s.nextBypass x y o))))

/-- A position put in bypass, with the logical cluster that it served. -/
def PartSt.bypassAt (q : Nat) (c : Option Nat) (t : PartSt) : PartSt :=
  { t with
    bypass := if t.bypass.contains q then t.bypass else t.bypass ++ [q]
    served := match c with
      | some c => if t.served.any (fun e => e.1 = q) then t.served else t.served ++ [(q, c)]
      | none => t.served }

end Sys2Proof.Machine
end

