-- ==== Sys2Proof/Machine/Strands.lean ====
section
/-! DEFINITION. Strands: units along STRAND records (R205 to R209), through a port agent as tagged units or as RBW packets (R238,
R270, R271), and link credit (R268). -/

namespace Sys2Proof.Machine

/-! ### Port agents -/

/-- The record of a slice's SID at a port agent. -/
def State.portStrand (s : State) (n port sid : Nat) : Option StrandRec := s.strand? n (portAgent s.modId port) sid

/-- The module and port at the other end of a port: by the manifest and the cross-connect map, or as expected. -/
def State.peer (s : State) (port : Nat) : Nat × Nat :=
  match s.peerOf s.modId port with
  | some x => x
  | none => (s.fget (LNK_EXP_ID.MODID port), s.fget (LNK_EXP_ID.PORT port))

/-- The RBW packet of a strand's units to a port's peer (R270; its TYPE is STREAM). -/
def State.rbwPacket (s : State) (n port sid : Nat) (us : List XUnit) : Packet :=
  let (m, q) := s.peer port
  let p := s.slicePacket n 3 0 (portEp m q) (portEp s.modId port) 1 0 0 sid 0
    (us.flatMap (fun u => leBytes 32 u.toNat))
  Packet.sealed { p with rbw := true }

/-- The key of a strand at a port. -/
def rbwKey (slice sid : Nat) : Nat := 4096 * slice + sid

/-- The units gathered for a strand leave in one RBW packet. -/
def State.rbwSend (s : State) (n port slice sid : Nat) : State :=
  let k := rbwKey slice sid
  let us := Store.get (fun _ => ([] : List StrandUnit)) (s.po port).rbw k
  if us.isEmpty then s
  else
    let s := s.portQueue port 4 (s.rbwPacket n port sid (us.map StrandUnit.unit))
    s.modPo port (fun x => { x with rbw := Store.erase x.rbw k, rbwAt := Store.erase x.rbwAt k })

/-- A strand unit at a port agent on its way out: a tagged unit, or a part of an RBW packet, which closes at 32 units. -/
def State.portOut (s : State) (n port slice sid : Nat) (u : XUnit) : State :=
  let x : StrandUnit := ⟨slice, sid, u⟩
  if !s.rbwPort port then s.modPo port (fun p => { p with strandTx := p.strandTx ++ [x] })
  else
    let k := rbwKey slice sid
    let s := s.modPo port (fun p =>
      { p with rbw := Store.upd (fun _ => []) p.rbw k (fun l => l ++ [x]), rbwAt := Store.put (fun _ => 0) p.rbwAt k s.now })
    if 32 ≤ (Store.get (fun _ => ([] : List StrandUnit)) (s.po port).rbw k).length then s.rbwSend n port slice sid else s

/-- RBW_PACKET_CLOSE: nothing offered for 64 cycles (R270). -/
def State.rbwClose (s : State) (port slice sid : Nat) : State :=
  let at_ := Store.get (fun _ => 0) (s.po port).rbwAt (rbwKey slice sid)
  match s.ctxOf slice with
  | some n => if at_ + s.cycUnits 64 ≤ s.now then s.rbwSend n port slice sid else s
  | none => s

/-- Units freed in a channel of a port's receive buffers. -/
def State.freeUnits (s : State) (port ch n : Nat) : State :=
  s.modPo port (fun x => { x with
    freed := Store.upd (fun _ => 0) x.freed ch (fun k => k + n), freedAt := if x.freed.isEmpty then s.now else x.freedAt })

/-- The port dies that carry an ACTIVE granule of a port: granule g lies on port die g / 9 (R227, R264). -/
def State.portDies (s : State) (port : Nat) : List Nat :=
  let x := s.po port
  (List.range 4).filter (fun d => (List.range x.grans.length).any (fun i =>
    x.grans.getD i 0 / 9 = d && (x.txAct.any (fun l => l / 4 = i))))

/-- The router of a port's first attachment, where its agent's drops are counted. -/
def State.portRtr (s : State) (port : Nat) : Nat :=
  match portDieRtrs ((s.portDies port).headD 0) with
  | (x, y, _) :: _ => y * 40 + x
  | [] => 0

/-- Strand units that came in at a port: of this tick for the routers, of the next one held, at most 4,096 (R224). -/
def PortSt.take (same next : Bool) (us : List StrandUnit) (p : PortSt) : PortSt :=
  if same then { p with strandRx := p.strandRx ++ us }
  else if next then { p with heldRx := (p.heldRx ++ us).take 4096 }
  else p

/-- A packet that a router drops (R211): counted, and reported with the router as its source. -/
def State.badPacket (s : State) (rk : Nat) (p : Packet) : State :=
  let (d, q) := meshDP (rtrXY rk).1 (rtrXY rk).2
  (s.modRt rk (fun r => { r with bad := sat 16 (r.bad + 1) })).raise 0x0305 (srcWord d q 0) p.dest.toNat 0

/-- The outward port code at which a port's first attachment router joins its port die. -/
def State.portCode (s : State) (port : Nat) : Nat :=
  match portDieRtrs ((s.portDies port).headD 0) with
  | (_, _, c) :: _ => c
  | [] => 0

/-- The units of a packet counted towards what a strand has brought in over a link in the tick; those beyond the reservation count in
STRX of the router that takes them in (R215). -/
def State.rbwCount (s : State) (port slice : Nat) (r : StrandRec) (u : Nat) : State :=
  let k := rbwKey slice r.sid
  let m := Store.get (fun _ => 0) (s.po port).strandM k
  let s := s.modPo port (fun x => { x with strandM := Store.put (fun _ => 0) x.strandM k (m + u) })
  let over_ := (m + u - r.units) - (m - r.units)
  if over_ = 0 then s
  else s.modRt (s.portRtr port) (RtrSt.count (s.portCode port) (fun c => { c with strx := sat 16 (c.strx + over_) }))

/-- RBW_PACKET: its HCRC checked, then the packet against the record of its SID and slice, and unpacked or dropped (R211, R271, R274,
R275). -/
def State.rbwArrive (s : State) (port : Nat) (p : Packet) : State :=
  let sid := p.slot.toNat
  let s := (s.modPo port (fun x => { x with rxq := Store.upd (fun _ => []) x.rxq 4 (fun l => l.filter (fun y => y ≠ p)) }))
  let s := s.freeUnits port 4 p.units
  let known := (List.range 16).any (fun n => (s.portStrand n port sid).isSome)
  if !p.good then s.badPacket (s.portRtr port) p
  else if !known then s.modRt (s.portRtr port) (fun r => { r with bad := sat 16 (r.bad + 1) })
  else match s.ctxOf p.slice.toNat with
    | none => s.fcount FAB_ISO_EJ.COUNT 1
    | some n =>
      match s.portStrand n port sid with
      | none => s.fcount FAB_ISO_EJ.COUNT 1
      | some r =>
        if r.inp ≠ 0 || p.epochLo.toNat ≠ (s.sliceMap n).epoch % 256 then s.fcount FAB_ISO_EJ.COUNT 1
        else
          let us := (payloadUnits p.payload).map (fun u => (⟨p.slice.toNat, sid, u⟩ : StrandUnit))
          let s := if s.sameTick n p then s.rbwCount port p.slice.toNat r p.units else s
          s.modPo port (PortSt.take (s.sameTick n p) (decide (p.tick.toNat = (s.slStep n + 1) % 256)) us)

/-! ### Units at a router (R205 to R209) -/

/-- The units of a strand that have come in at a router in the tick. -/
def RtrSt.seen (r : RtrSt) (slice sid : Nat) : Nat :=
  ((r.got.find? (fun g => g.1 = slice && g.2.1 = sid)).map (fun g => g.2.2)).getD 0

/-- One more unit of a strand. -/
def RtrSt.see (slice sid : Nat) (r : RtrSt) : RtrSt :=
  let n := r.seen slice sid + 1
  { r with got := r.got.filter (fun g => g.1 ≠ slice || g.2.1 ≠ sid) ++ [(slice, sid, n)] }

/-- The first unit of a strand in a list, and the list without it. -/
def takeUnit (slice sid : Nat) : List StrandUnit → Option (XUnit × List StrandUnit)
  | [] => none
  | x :: t =>
    if x.slice = slice && x.sid = sid then some (x.unit, t)
    else (takeUnit slice sid t).map (fun (u, l) => (u, x :: l))

/-- The MLA of unit `i` of a tick at a MEM endpoint (R207). -/
def State.strandAddr (s : State) (n d : Nat) (r : StrandRec) (i : Nat) : Nat :=
  mlaOf d r.memCh (64 * (r.memBase + s.slStep n % max 1 r.wrap * r.units / 2) + 32 * i)

/-- The port that brings a strand of a slice in, or takes it out, at an outward router port. -/
def State.strandPort (s : State) (n sid : Nat) (out : Bool) : Option Nat :=
  firstBelow 16 (fun p =>
    match s.portStrand n p sid with
    | some r => if out then r.inp = 1 && r.out.testBit 0 else r.inp = 0 && r.out.testBit 1
    | none => false)

/-- The unit that a router takes at an input: from a neighbour's or a port's queue, the source core, or memory; a unit that
no queue holds is the one offered. -/
def State.strandTake (s : State) (n rk d c : Nat) (r : StrandRec) (slice : Nat) (u : XUnit) : XUnit × State :=
  let (x, y) := rtrXY rk
  match r.inp with
  | 4 => s.takeOut ((75 * d + c) * 250 + r.srcCore) r.srcPort u
  | 5 =>
    (BitVec.ofNat 256 (leNat (s.memRead (s.strandAddr n d r ((s.rt rk).seen slice r.sid)) 32)), s)
  | 6 => (u, s)
  | i =>
    if (meshNext x y i).isSome then
      match takeUnit slice r.sid (Store.get (fun _ => []) (s.rt rk).fifo i) with
      | some (v, l) => (v, s.modRt rk (fun t => { t with fifo := Store.put (fun _ => []) t.fifo i l }))
      | none => (u, s)
    else match s.strandPort n r.sid false with
      | none => (u, s)
      | some p =>
        match takeUnit slice r.sid (s.po p).strandRx with
        | some (v, l) => (v, s.modPo p (fun t => { t with strandRx := l }))
        | none => (u, s)

/-- The outputs of a record whose next hop has no room for one unit; a die in reset takes none (R358). -/
def State.strandFull (s : State) (x y : Nat) (r : StrandRec) : List Nat :=
  r.outs.filter (fun o =>
    match meshNext x y o with
    | some (a, b) => s.dieDown (meshDP a b).1 ||
      decide (32 ≤ (Store.get (fun _ => ([] : List StrandUnit)) (s.rt (b * 40 + a)).fifo (meshBack o)).length)
    | none => false)

/-- Whether the next hops of a record have room for one unit. -/
def State.strandRoom (s : State) (x y : Nat) (r : StrandRec) : Bool := (s.strandFull x y r).isEmpty

/-- Whole cycles in a number of timebase units. -/
def State.cyclesOver (s : State) (t : Nat) : Nat := 2 * t * s.clock4 / 4000

/-- A unit that waits for an output without credit: this cycle counts, and those since the latest count (R216). -/
def State.stalls (s : State) (rk o : Nat) : State :=
  let n := match Store.get (fun _ => none) (s.rt rk).stuck o with
    | some t => s.cyclesOver (s.now - t)
    | none => 1
  s.modRt rk (fun r => { r.count o (fun c => { c with stall := c.stall + n }) with stuck := Store.put (fun _ => none) r.stuck o (some s.now) })

/-- An output that sends: the cycles in which what it sends has waited without credit are counted. -/
def State.flows (s : State) (rk o : Nat) : State :=
  match Store.get (fun _ => none) (s.rt rk).stuck o with
  | none => s
  | some t =>
    let n := s.cyclesOver (s.now - t)
    s.modRt rk (fun r => { r.count o (fun c => { c with stall := c.stall + n }) with stuck := Store.put (fun _ => none) r.stuck o none })

/-- A unit sent on one output of a record; `i` is its number in the tick. A strand that stays in its cluster passes the crossbar only, so
the router does not count it (R204). -/
def State.strandOut (s : State) (n rk d c : Nat) (r : StrandRec) (slice i : Nat) (u : XUnit) (o : Nat) : State :=
  let (x, y) := rtrXY rk
  let past := decide (r.units ≤ i)
  let s := if r.inClus then s
    else (s.flows rk o).modRt rk (RtrSt.count o (fun k =>
      { k with stru := k.stru + 1, strx := if past then sat 16 (k.strx + 1) else k.strx }))
  match o with
  | 4 => State.eachOf r.dests (fun e s => s.landUnit ((75 * d + c) * 250 + bits e 7 0) (bit e 8) u) s
  | 5 => if past then s else s.memWrite (s.strandAddr n d r i) (leBytes 32 u.toNat)
  | 6 => s
  | _ =>
    match meshNext x y o with
    | some (a, b) =>
      s.modRt (b * 40 + a) (fun t =>
        { t with fifo := Store.upd (fun _ => []) t.fifo (meshBack o) (fun l => l ++ [⟨slice, r.sid, u⟩]) })
    | none =>
      match s.strandPort n r.sid true with
      | some p => s.portOut n p slice r.sid u
      | none => s

/-- One unit of a strand forwarded by the record of its SID; it waits where a next hop has no room, which counts as a stall there. -/
def State.strandUnit (s : State) (rk inp slice sid : Nat) (u : XUnit) : State :=
  let (x, y) := rtrXY rk
  let (d, q) := meshDP x y
  match s.ctxOf slice, s.logClus d q with
  | some n, some c =>
    match (s.strands n (routerAgent s.modId d c)).find? (fun r => r.sid = sid && r.inp = inp) with
    | none => s
    | some r =>
      let core := (75 * d + c) * 250 + r.srcCore
      if !s.working n || s.inBypass d q || (inp = 4 && s.isFrozen 1 (s.coreSrc core) 0) then s
      else if !s.strandRoom x y r then State.eachOf (s.strandFull x y r) (fun o s => s.stalls rk o) s
      else
        let i := (s.rt rk).seen slice sid
        let a := s.strandAddr n d r i
        if inp = 5 && (s.memFail a 32).isSome then s.readHit n a 32
        else
          let (u, s) := s.strandTake n rk d c r slice u
          let s := s.modRt rk (RtrSt.see slice sid)
          State.eachOf r.outs (fun o s => s.strandOut n rk d c r slice i u o) s
  | _, _ => s

/-! ### Link credit (R268) -/

/-- Whether a credit packet is due: a count has reached 33, or 1 µs has passed with a nonzero count. -/
def State.creditDue (s : State) (port : Nat) : Bool :=
  let x := s.po port
  x.freed.any (fun e => decide (33 ≤ e.2)) || (!x.freed.isEmpty && decide (x.freedAt + usUnits 1 ≤ s.now))

/-- LINK_CREDIT_SEND: the units freed since the latest credit packet, channel by channel, once a packet is due. -/
def State.creditSend (s : State) (port : Nat) : State :=
  let f := (s.po port).freed
  if !s.creditDue port then s
  else
    let (m, q) := s.peer port
    let pl := (List.range 5).flatMap (fun c => leBytes 2 (Store.get (fun _ => 0) f c)) ++ List.replicate 6 0
    let p := s.mgtPacket (portEp m q) 0xFF 0 [] pl
    (s.portQueue port 5 (Packet.sealed { p with src := portEp s.modId port })).modPo port
      (fun x => { x with freed := [] })

/-- LINK_CREDIT: credit from the peer. -/
def State.creditTake (s : State) (port : Nat) (p : Packet) : State :=
  if p.typ ≠ 0 || p.aux ≠ 0xFF || !p.good then s
  else s.modPo port (fun x => { x with credit := (List.range 5).foldl (fun m c =>
    Store.upd (fun _ => 0) m c (fun k => k + leAt p.payload (2 * c) 2)) x.credit })

/-! ### Commands -/

/-- When a strand unit can move: now, or at the end of the calibration slot of the channel that the strand reads or writes here
(R41, R207). -/
def State.strandFree (s : State) (rk inp slice sid : Nat) : Nat :=
  let (x, y) := rtrXY rk
  let (d, q) := meshDP x y
  match s.ctxOf slice, s.logClus d q with
  | some n, some c =>
    match (s.strands n (routerAgent s.modId d c)).find? (fun r => r.sid = sid && r.inp = inp) with
    | some r => if inp = 5 || r.outs.contains 5 then (s.ch (8 * d + r.memCh)).slotEnd else s.now
    | none => s.now
  | _, _ => s.now

/-- RBW_PACKET_CLOSE (R270). -/
def execRbwPacketClose (port : Port) (slice : BitVec 12) (sid : BitVec 12) (s : State) : Result :=
  done s (s.rbwClose port.val slice.toNat sid.toNat)
/-- RBW_PACKET (R271). -/
def execRbwPacket (port : Port) (p : Packet) (s : State) : Result := done s (s.rbwArrive port.val p)
/-- LINK_CREDIT_SEND (R268). -/
def execLinkCreditSend (port : Port) (s : State) : Result := done s (s.creditSend port.val)
/-- LINK_CREDIT (R268). -/
def execLinkCredit (port : Port) (p : Packet) (s : State) : Result := done s (s.creditTake port.val p)

end Sys2Proof.Machine
end

