-- ==== Sys2Proof/Machine/Routing.lean ====
section
/-! DEFINITION. Route tables and decisions (R256 to R267, R294), the router's counters (R216), routers that fail (R202, R203), and
packets that wait for a route (R269). -/

namespace Sys2Proof.Machine

/-! ### Table entries (R257, R258) -/

/-- The slots with the smallest GHOPS. -/
def nearest (l : List Gateway) : List Gateway :=
  let m := l.foldl (fun a g => min a g.ghops) 16
  l.filter (fun g => g.ghops = m)

/-! ### The decision (R260 to R263) -/

/-- The ROUTE record of a slice at a router: PORT_MASK and GW_ONLY; every port without one (R259). -/
def State.routeRec (s : State) (rk slice : Nat) : Nat × Bool :=
  let (x, y) := rtrXY rk
  let (d, q) := meshDP x y
  match s.ctxOf slice, s.logClus d q with
  | some n, some c =>
    let r := s.sect n 0x0021 (routerAgent s.modId d c)
    if r.bytes.isEmpty then (0xFFFF, false) else (bits (leAt r.bytes 0 4) 15 0, bit (leAt r.bytes 0 4) 16)
  | _, _ => (0xFFFF, false)

/-- Whether a port can be a candidate: ACTIVE, and not BELOW (R262). -/
def State.portUsable (s : State) (p : Nat) : Bool := s.fget (LNK_STAT.STATE p) = 6 && !s.flag (LNK_STAT.BELOW p)

/-- The candidate with the smallest LOAD; among equals the first after the router's last pick in ascending order. -/
def State.leastLoad (s : State) (pick : Nat) (cs : List Nat) : Option Nat :=
  let m := cs.foldl (fun a c => min a (s.fab.load.getD c 0)) (2 ^ 32)
  let es := cs.filter (fun c => s.fab.load.getD c 0 = m)
  match es.find? (fun c => pick < c) with
  | some c => some c
  | none => es.head?

/-- The adaptive candidates towards a module under a slice's limits; where the gateway is this module the output is its PORT, whatever
the limits (R261). -/
def State.candidates (s : State) (rk slice m : Nat) : List Nat :=
  let own := s.modId
  let (mask, gwOnly) := s.routeRec rk slice
  let prod (q : Nat) : List Nat :=
    let e := s.posEnt q
    if posValid e then (List.range 16).filter (fun c => e.testBit c && mask.testBit c && s.portUsable c) else []
  if modGroup m = modGroup own then prod (modPos m)
  else
    let member (g : Gateway) : Bool :=
      match s.ctxOf slice with
      | some n => (s.sliceMap n).mask (64 * modGroup own + g.pos) != 0
      | none => false
    let gs := nearest ((s.gateways (modGroup m)).filter (fun g => !gwOnly || member g))
    match gs[if gs.isEmpty then 0 else m % gs.length]? with
    | none => []
    | some g =>
      if g.pos = modPos own then [g.port] else prod g.pos

/-- The decision for a packet at its decision router: a port, 16 for delivery here, none where it cannot be sent. `without` is
a port that a fresh decision leaves out (R269). -/
def State.routeFor (s : State) (rk : Nat) (p : Packet) (without : Option Nat) : Option Nat :=
  let m := epMod p.dest
  if m = s.modId then some 16
  else if p.cls = 3 || !s.flag FAB_RT_CTL.ADAPT then s.escapeOut m
  else
    let cs := (s.candidates rk p.slice.toNat m).filter (fun c => without ≠ some c)
    match s.leastLoad (s.rt rk).pick cs with
    | some c => some c
    | none => s.escapeOut m

/-! ### Multicast (R294) -/

/-- A key's value merged into a list of bundles. -/
def bundle (l : List (Nat × Nat)) (k v : Nat) : List (Nat × Nat) :=
  match l.find? (fun e => e.1 = k) with
  | some e => l.map (fun x => if x.1 = k then (k, e.2 ||| v) else x)
  | none => l ++ [(k, v)]

/-- The split of a multicast at a decision point of this module: whether a copy is delivered here, and the copies as (port, group
bitmap, position bitmap); a copy without a route is not sent. `here` is the position bitmap as this group uses it (R297). -/
def State.mcSplit (s : State) (grp pos here : Nat) : Bool × List (Nat × Nat × Nat) :=
  let g := modGroup s.modId
  let m := modPos s.modId
  let gates := ((List.range 64).filter (fun h => h ≠ g && grp.testBit h)).foldl (fun l h =>
    let gs := nearest (s.gateways h)
    match gs[if gs.isEmpty then 0 else h % gs.length]? with
    | some x => bundle l (x.pos * 16 + x.port) (2 ^ h)
    | none => l) ([] : List (Nat × Nat))
  let far := gates.filterMap (fun e =>
    let q := e.1 / 16
    if q = m then some (e.1 % 16, e.2, pos)
    else if posValid (s.posEnt q) && posEsc (s.posEnt q) < 15 then some (posEsc (s.posEnt q), e.2, pos) else none)
  let near := ((List.range 64).filter (fun q => q ≠ m && here.testBit q && posValid (s.posEnt q) && posEsc (s.posEnt q) < 15)).foldl
    (fun l q => bundle l (posEsc (s.posEnt q)) (2 ^ q)) ([] : List (Nat × Nat))
  if grp.testBit g then (here.testBit m, far ++ near.map (fun e => (e.1, 2 ^ g, e.2))) else (false, far)

/-! ### Table swap (R256, R267, R277) -/

/-- A write of FAB_RT_CTL: times hold at least 1; an arm for a step that has passed is a NOTE. -/
def State.rtCtl (s : State) (m : Master) (v : Word) : State :=
  let arm := FAB_RT_CTL.SWAP_ARM.of v
  let v := FAB_RT_CTL.ESC_WAIT.into v (max 1 (FAB_RT_CTL.ESC_WAIT.of v))
  let v := FAB_RT_CTL.RT_TMO.into v (max 1 (FAB_RT_CTL.RT_TMO.of v))
  let s := s.store m FAB_RT_CTL.off (FAB_RT_CTL.SWAP_ARM.off0 v)
  if arm = 0 then s
  else if s.pair FAB_RT_AT_LO.off ≤ s.step then (s.fset FAB_RT_CTL.SWAP_ARM 0).refuse FAB_RT_CTL.off
  else s.fset FAB_RT_CTL.SWAP_ARM 1

/-- Two registers exchanged. -/
def State.swapReg (s : State) (a b : Nat) : State := let v := s.reg a; (s.setReg a (s.reg b)).setReg b v

/-- TABLE_SWAP: the banks exchange at the armed step; a change of escape family, or of the root of the tree between groups (R335), quiets
VC_ESC for 8 µs, and packets that waited
for a route meet a fresh decision. -/
def State.tableSwap (s : State) : State :=
  if !s.flag FAB_RT_CTL.SWAP_ARM || s.pair FAB_RT_AT_LO.off ≠ s.step then s
  else
    let s := s.each 64 (fun q s => s.swapReg (FAB_POS_ACT.off q) (FAB_POS_SHD.off q))
    let s := s.each 256 (fun i s => s.swapReg (FAB_GRP_ACT.off 0 0 + 4 * i) (FAB_GRP_SHD.off 0 0 + 4 * i))
    let next := s.fget FAB_RT_CTL.GROUP_ESC_NEXT
    let s := if next ≠ s.fget FAB_RT_CTL.GROUP_ESC || s.fab.rerootAt = some s.step then
        { s with fab := { s.fab with quiesceEnd := some (s.now + usUnits 8), rerootAt := none } } else s
    let s := (s.fset FAB_RT_CTL.GROUP_ESC next).fset FAB_RT_CTL.SWAP_ARM 0
    s.each 16 (fun p s =>
      let w := (s.po p).waiting
      let (go, stay) := w.partition (fun x => x.1.typ = 9 || s.escapeOut (epMod x.1.dest) ≠ some p)
      let s := s.modPo p (fun x => { x with waiting := stay })
      State.eachOf go (fun x s => s.queueAt (s.portRtr p) (s.portCode p) x.1.chan x.1) s)

/-- ESCAPE_QUIESCE_END. -/
def State.quiesceOver (s : State) : State :=
  match s.fab.quiesceEnd with
  | some t => if t ≤ s.now then { s with fab := { s.fab with quiesceEnd := none } } else s
  | none => s

/-- LOAD_BROADCAST: units in the port's transmit buffer, and 64 for each lane that WIDTH lacks (R262). -/
def State.loadCast (s : State) (p : Nat) : State :=
  let q := (s.po p).txq.foldl (fun a e => a + e.2.foldl (fun b x => b + x.units) 0) 0
  let lack := s.fget (LNK_STAT.TRAINED_W p) - s.fget (LNK_STAT.WIDTH p)
  { s with fab := { s.fab with load := s.fab.load.set p (q + 64 * lack) } }

/-- A packet that waited at a port without a way dropped (R269). -/
def State.routeGone (s : State) (q : Nat) (p : Packet) : State :=
  let s := s.modPo q (fun x => { x with waiting := x.waiting.filter (fun y => y.1 ≠ p) })
  (s.fcount FAB_RT_DROP.COUNT 1).raise 0x0306 0 (epMod p.dest) 0

/-- ROUTE_TIMEOUT: a packet that has waited RT_TMO is dropped (R269). -/
def State.routeTimeout (s : State) (p : Packet) : State :=
  match firstBelow 16 (fun q => (s.po q).waiting.any (fun x =>
      x.1 = p && x.2 + usUnits (16 * s.fget FAB_RT_CTL.RT_TMO) ≤ s.now)) with
  | none => s
  | some q => s.routeGone q p

/-! ### Counters (R216) -/

/-- The router and port that a master's PRT_RTR_SEL names. -/
def State.rtrSel (s : State) (m : Master) (p : Nat) : Nat × Nat :=
  let pos := s.mget m (PRT_RTR_SEL.POS p)
  let q := if s.mget m (PRT_RTR_SEL.PHYS p) = 1 then pos else s.physClus p pos
  (meshKey p q, s.mget m (PRT_RTR_SEL.PORT p))

/-- A write of PRT_RTR_CTL: CLR clears the selected port's counters, CLR_ALL those of every router of the partition. -/
def State.rtrCtl (s : State) (m : Master) (p : Nat) (v : Word) : State :=
  let s := if v = 0 then s else s.unsnap (fun off => PRT_RTR_PKT_LO.off p ≤ off && off < PRT_RTR_PKT_LO.off p + 0x20)
  let s := if (PRT_RTR_CTL.CLR p).of v = 1 then
      let (r, c) := s.rtrSel m p
      s.modRt r (RtrSt.count c (fun _ => RtrCnt.init)) else s
  if (PRT_RTR_CTL.CLR_ALL p).of v = 1 then
    s.each 80 (fun q s => s.modRt (meshKey p q) (fun r => { r with cnt := [], bad := 0 }))
  else s

/-! ### A router that fails (R202, R203) -/

/-- ROUTER_FAIL: bypass, with its channels at their alternates and its cluster retired; the tick aborts, and the repairs move the records of
its channels, replace its cluster and take its strands around it. A second failure on the die, or one of an alternate in service, is
a mesh break. The router's counters stay (R216). -/
def State.routerFail (s : State) (rk : Nat) : State :=
  let (x, y) := rtrXY rk
  let (d, q) := meshDP x y
  let src := srcWord d q 0
  let abort (s : State) : State := match s.ctxHolding d with
    | some n => if s.ticking n then s.abortTick n 6 else s
    | none => s
  if (s.pt d).bypass.contains q then s.raise 0x0302 src 0 0
  else if !(s.pt d).bypass.isEmpty then
    let chans := (List.range 8).filter (fun k => s.memRtr d k = q)
    let s := (s.modRt rk RtrSt.reset).raise 0x0302 src 0 0
    let s := abort s
    match s.ctxHolding d with
    | some n => if chans.isEmpty then s else s.holdAt n 7
    | none => s
  else
    let chans := (List.range 8).filter (fun k => s.memRtr d k = q)
    let s := (s.modRt rk RtrSt.reset).raise 0x0301 src 0 0
    let clus := s.logClus d q
    let s := abort s
    let s := s.modPt d (fun t => { t.bypassAt q clus with altMem := t.altMem ++ chans.map (Fin.ofNat 8) })
    let s := match clus with
      | some c => s.retire (Fin.ofNat 16 d) (.cluster (Fin.ofNat 75 c))
      | none => s
    match s.ctxHolding d with
    | none => s
    | some n =>
      if !s.ticking n then State.eachOf chans (fun k s => (s.moveRecords n d k).2) s
      else
        let s := State.eachOf chans (fun k s => s.addRepair n (.records (Fin.ofNat 16 d) (Fin.ofNat 8 k))) s
        let s := match clus with
          | some c =>
            let s := s.addRepair n (.spareCluster (Fin.ofNat 16 d) (Fin.ofNat 75 c))
            State.eachOf (s.trees n d c) (fun r s => s.addRepair n (.tree (BitVec.ofNat 12 r.rid))) s
          | none => s
        s.addRepair n .route

/-- A repair reported complete: one that moves records ends when every record has moved and passes its checks, that of the routes when no
strand has a hop to a position in bypass (R203, R215, R366). -/
def State.repairDone (s : State) (n : Nat) (r : Repair) : State :=
  if !(s.cx n).repairs.contains r then s
  else match r with
    | .records d k => let (ok, t) := s.moveRecords n d.val k.val; if ok then t.endRepair n r else s
    | .route => if s.strandsClear n then s.endRepair n r else s
    | _ => s.endRepair n r

/-! ### Commands -/

/-- REPAIR_COMPLETE (R56). -/
def execRepairComplete (n : Ctx) (r : Repair) (s : State) : Result := done s (s.repairDone n.val r)

/-- SWAP_ARM (R256, R277). -/
def execSwapArm (m : Master) (v : Word) (s : State) : Result :=
  done s (s.gate true m FAB_RT_CTL.off v (fun s => s.rtCtl m v))
/-- TABLE_SWAP (R256). -/
def execTableSwap (s : State) : Result := done s s.tableSwap
/-- ESCAPE_QUIESCE_END (R267). -/
def execEscapeQuiesceEnd (s : State) : Result := done s s.quiesceOver
/-- ROUTE_TIMEOUT (R269). -/
def execRouteTimeout (p : Packet) (s : State) : Result := done s (s.routeTimeout p)
/-- LOAD_BROADCAST (R262). -/
def execLoadBroadcast (port : Port) (s : State) : Result := done s (s.loadCast port.val)
/-- RTR_CLR (R216). -/
def execRtrClr (m : Master) (part : PartId) (v : Word) (s : State) : Result :=
  done s (s.gate true m (PRT_RTR_CTL.off part.val) v (fun s => s.rtrCtl m part.val v))
/-- RTR_CLR_ALL (R216). -/
def execRtrClrAll (m : Master) (part : PartId) (v : Word) (s : State) : Result :=
  done s (s.gate true m (PRT_RTR_CTL.off part.val) v (fun s => s.rtrCtl m part.val v))
/-- ROUTER_FAIL (R202). -/
def execRouterFail (r : RouterId) (s : State) : Result := done s (s.routerFail r.key)

end Sys2Proof.Machine
end

