-- ==== Sys2Proof/Machine/Links.lean ====
section
/-! DEFINITION. Xaryn links (R217 to R246): training, identity, frames, retry, the control stream, lane service, optics. A
receive lane in use is named by the port lane index of its sender. -/

namespace Sys2Proof.Machine

/-! ### Lanes and ports (R219, R227) -/

/-- Lanes of a port. -/
def PortSt.size (x : PortSt) : Nat := 4 * x.grans.length
/-- A lane. -/
def PortSt.lane (x : PortSt) (i : Nat) : LaneSt := Store.get (fun _ => LaneSt.init) x.lanes i
/-- A lane changed. -/
def PortSt.modLane (i : Nat) (f : LaneSt → LaneSt) (x : PortSt) : PortSt :=
  { x with lanes := Store.upd (fun _ => LaneSt.init) x.lanes i f }
/-- The sender's port lane index of what a receiver gets: its own where training has not told (R231). -/
def PortSt.logLane (x : PortSt) (i : Nat) : Nat := (x.lane i).order.getD i
/-- The receiver of a sender's lane. -/
def PortSt.physLane (x : PortSt) (j : Nat) : Nat := (firstBelow x.size (fun i => x.logLane i = j)).getD j
/-- The granules of a port as its registers assign them. -/
def State.granules (s : State) (p : Nat) : List Nat :=
  let m := (s.reg (LNK_GRAN0.off p)).toNat + (s.fget (LNK_GRAN1.GRAN p)) * 2 ^ 32
  (List.range 36).filter m.testBit
/-- The receivers of a port that train: not parked, with signal. -/
def State.usable (s : State) (p : Nat) : List Nat :=
  let x := s.po p
  (List.range x.size).filter (fun i => !(s.fget (LNK_LANE_PARK.LANES p)).testBit (x.logLane i) && !(x.lane i).sigLost)
/-- The word of a set of lanes. -/
def laneMask (l : List Nat) : Nat := l.foldl (fun m i => m ||| 2 ^ i) 0
/-- Word 1 of a port's fault messages. -/
def linkSrc (p lane : Nat) : Word := srcWord 0 p lane
/-- A port enters a training state; the data paths of its optical module are taken down in OFF and EXCLUDED (R244). -/
def State.lnkState (s : State) (p st : Nat) : State :=
  let u := (s.fset (LNK_STAT.STATE p) st).modPo p (fun x => { x with since := s.now })
  let u := if (st = 0 || st = 8) && s.fget (LNK_CTL.MEDIUM p) = 2 then u.fset (LNK_CMIS.READY p) 0 else u
  if s.fget (LNK_STAT.STATE p) = st then u else u.irq 5

/-- Training begins in DETECT; an optical port first waits for its module's data paths (R230, R244). -/
def State.startTrain (s : State) (p : Nat) : State :=
  if s.fget (LNK_CTL.MEDIUM p) = 2 && !s.flag (LNK_CMIS.READY p) then s.modPo p (fun x => { x with optAt := some s.now })
  else s.lnkState p 1
/-- HOLD_CAUSE of a port; a change sets vector 5 (R417). -/
def State.holdCause (s : State) (p c : Nat) : State :=
  let u := s.fset (LNK_STAT.HOLD_CAUSE p) c
  if s.fget (LNK_STAT.HOLD_CAUSE p) = c then u else u.irq 5
/-- LNK_LANE_ACT, WIDTH and BELOW follow the active lanes of the receive direction. -/
def State.widthFix (s : State) (p : Nat) : State :=
  let l := (s.po p).rxAct
  ((s.fset (LNK_LANE_ACT.LANES p) (laneMask l)).fset (LNK_STAT.WIDTH p) l.length).needFix p
/-- Units dropped at a port. -/
def State.lnkDrop (s : State) (p n : Nat) : State := s.fcount (LNK_DROPS.DROPS p) n
/-- A control message queued at a port. -/
def State.ctlSend (s : State) (p : Nat) (m : Nat) : State := s.modPo p (fun x => { x with ctl := x.ctl ++ [BitVec.ofNat 48 m] })
/-- Modular distance of sequence numbers: how far `a` lies ahead of `b`. -/
def seqGap (a b : Nat) : Nat := (a + 4096 - b % 4096) % 4096
/-- Whether sequence number `a` is at or before `b`. -/
def seqLe (a b : Nat) : Bool := seqGap b a < 2048

/-! ### Packets as units (R210) -/

/-- A packet read from its units (R210). -/
def packetOf (us : List XUnit) : Packet :=
  let h := (us.headD 0).toNat
  let w (i : Nat) : Nat := bits h (32 * i + 31) (32 * i)
  let len := bits (w 0) 18 8
  { typ := BitVec.ofNat 4 (bits (w 0) 3 0), cls := BitVec.ofNat 2 (bits (w 0) 5 4), last := bit (w 0) 6, rbw := bit (w 0) 7,
    len := BitVec.ofNat 11 len, slice := BitVec.ofNat 12 (bits (w 0) 30 19), esc := bit (w 0) 31,
    epochLo := BitVec.ofNat 8 (bits (w 1) 7 0), tick := BitVec.ofNat 8 (bits (w 1) 15 8),
    attempt := BitVec.ofNat 2 (bits (w 1) 17 16), gen := BitVec.ofNat 8 (bits (w 1) 25 18),
    dest := BitVec.ofNat 32 (w 2), src := BitVec.ofNat 32 (w 3), count := BitVec.ofNat 16 (w 4),
    seq := BitVec.ofNat 16 (bits (w 4) 31 16), msg := BitVec.ofNat 16 (w 5), slot := BitVec.ofNat 12 (bits (w 5) 27 16),
    addr := BitVec.ofNat 40 (w 6 + bits (w 7) 7 0 * 2 ^ 32), aux := BitVec.ofNat 8 (bits (w 7) 15 8),
    hcrc := BitVec.ofNat 16 (bits (w 7) 31 16), payload := ((us.drop 1).flatMap (fun u => leBytes 32 u.toNat)).take len, perr := [] }

/-- The units of a packet: its header and its payload, the last unit padded with zeros (R210). -/
def unitsOf (p : Packet) : List XUnit :=
  let h := (p.head.flatMap (leBytes 4)).take 30 ++ leBytes 2 p.hcrc.toNat
  BitVec.ofNat 256 (leNat h) :: payloadUnits p.payload

/-! ### Leaving service (R235, R243, R269) -/

/-- The packets of a port that its peer has not wholly acknowledged, for the channels of the fabric. -/
def PortSt.unacked (x : PortSt) : List Packet :=
  let l := x.inflight.map Prod.fst ++ (List.range 4).flatMap (fun c => Store.get (fun _ => ([] : List Packet)) x.txq c)
  l.filter (fun p => !p.rbw && (p.typ ≠ 0 || p.aux ≠ 0xFF))

/-- The output of a fresh decision for a packet that a port returns, with that port left out; none where the packet has to wait for
other tables, as a multicast copy does, which follows escape routes only (R269, R294). -/
def State.decideAgain (s : State) (port rk : Nat) (p : Packet) : Option Nat :=
  match (if p.typ = 9 then none else s.routeFor rk p (some port)) with
  | some c => if c = port then none else some c
  | none => none

/-- A returned packet that waits for tables without its port. -/
def State.parkBack (s : State) (port : Nat) (p : Packet) : State := s.modPo port (fun x => { x with waiting := x.waiting ++ [(p, s.now)] })

/-- A packet taken back by the port's router: it meets a fresh decision in the channel of its CLASS, or it waits (R265, R269). -/
def State.giveBack (s : State) (port rk : Nat) (p : Packet) : State :=
  match s.decideAgain port rk p with
  | some _ => s.queueAt rk (s.portCode port) p.chan p
  | none => s.parkBack port p

/-- What a port keeps when it stops: its granules, counts, histories, the packets that have arrived whole, and waiting packets. -/
def PortSt.stopped (x : PortSt) : PortSt :=
  { PortSt.init with
    grans := x.grans, retrains := x.retrains, fails := x.fails, rxq := x.rxq, waiting := x.waiting, identTx := 12, calRot := x.calRot,
    lanes := x.lanes.map (fun e => (e.1, { LaneSt.init with splices := e.2.splices })) |>.filter (fun e => e.2 ≠ LaneSt.init) }

/-- A port stops: a port that was ACTIVE has lost its link, and its unacknowledged packets go back (R243). Lanes that are parked stay
out (R240). -/
def State.linkDown (s : State) (p : Nat) : State :=
  let was := s.fget (LNK_STAT.STATE p) = 6
  let back := (s.po p).unacked
  let rk := s.portRtr p
  let s := (s.modPo p PortSt.stopped).holdCause p 0
  let s := ((s.fset (LNK_STAT.PEER_READY p) 0).fset (LNK_LANE_OUT.LANES p)
    (s.fget (LNK_LANE_OUT.LANES p) &&& s.fget (LNK_LANE_PARK.LANES p))).widthFix p
  let s := (s.lnkState p 7).stretchGone p
  let s := State.eachOf back (fun k s => s.giveBack p rk k) s
  let s := if was then s.raise 0x0703 (linkSrc p 0) 0 0 else s
  s.parentCheck

/-- A port begins to train. -/
def State.detect (s : State) (p : Nat) : State := (s.startTrain p).modPo p (fun x => { x with retrain := true })

/-- A port out of service: EXCLUDED until a module reset (R235, R364). -/
def State.portOos (s : State) (p : Nat) : State := ((s.lnkState p 8).fset (LNK_STAT.OOS p) 1).raise 0x0707 (linkSrc p 0) 0 0

/-- A port reset (R235): the third within 600 s puts the port out of service. -/
def State.portReset (s : State) (p : Nat) : State :=
  let early := s.fget (LNK_STAT.STATE p) < 4
  let s := s.linkDown p
  let x := s.po p
  let times := x.retrains.filter (fun t => s.now < t + sUnits 600) ++ [s.now]
  let fails := if early then x.fails + 1 else x.fails
  let s := s.modPo p (fun x => { x with retrains := times, fails := fails })
  if 3 ≤ times.length then s.portOos p
  else if 3 ≤ fails then s.lnkState p 8
  else s.detect p

/-! ### Identity (R232 to R234) -/

/-- The first 16 bytes of the digest of a byte list, zeros for none. -/
def dig16 (l : List Byte) : List Byte := if l.isEmpty then List.replicate 16 0 else shake256 16 l

/-- The first 128 bits of the manifest digest; 0 without a manifest. -/
def State.manDig16 (s : State) : List Byte :=
  if s.mgr.manifest.isEmpty then List.replicate 16 0 else (manDigest s.mgr.manifest).take 16

/-- The identity block that a port sends (R232). -/
def State.identBlock (s : State) (p : Nat) : List Byte :=
  let flags := b2n s.acting + b2n s.mgr.manifest.isEmpty * 2 + b2n (s.po p).dataReady * 4
  let b := dig16 s.fuses.pub ++ leBytes 2 (s.modId + s.fget FAB_SELF.VALID * 2 ^ 15) ++ leBytes 1 p ++
    leBytes 1 (s.po p).grans.length ++ leBytes 2 (s.fget SEC_FW_LEVEL.FEAT) ++ leBytes 2 flags ++ s.manDig16 ++ leBytes 4 0
  b ++ leBytes 4 (crc32 b)

/-- The block is sent again on every port (R232). -/
def State.identAgain (s : State) : State :=
  s.each 16 (fun p s => if 4 ≤ s.fget (LNK_STAT.STATE p) && s.fget (LNK_STAT.STATE p) ≤ 6 then
    s.modPo p (fun x => { x with identTx := 0 }) else s)

/-- The peer's block as the port holds it. -/
def State.peerBlock (s : State) (p : Nat) : List Byte := (List.range 12).flatMap (fun i => leBytes 4 (s.reg (LNK_PEER.off p i)).toNat)

/-- Bytes of the buffers at a port (Table 6 of R268). -/
def portRoom (c : Nat) : Nat := if c < 2 then 264 else 132

/-- Units of a channel held at a port. -/
def PortSt.holds (x : PortSt) (c : Nat) : Nat :=
  (Store.get (fun _ => ([] : List Packet)) x.rxq c).foldl (fun a p => a + p.units) 0

/-- The units of management packets among units of the packet stream and strand units; `mine` tells unit by unit of the packet stream
which ones those are. The rest of `mine` is left over. -/
def mgtUnits : List Bool → List (Nat × XUnit) → List Bool × List (Nat × XUnit)
  | mine, [] => (mine, [])
  | mine, u :: t =>
    if u.1 ≠ 1 then mgtUnits mine t
    else
      let (m, l) := mgtUnits mine.tail t
      (m, if mine.headD false then u :: l else l)

/-- The retry buffer with its management units only. -/
def mgtRetry : List Bool → List RetryEnt → List Bool × List RetryEnt
  | mine, [] => (mine, [])
  | mine, e :: t =>
    let (m, us) := mgtUnits mine e.units
    let (m, l) := mgtRetry m t
    (m, { e with units := us } :: l)

/-- The channel of the receive buffers that a packet takes: 4 for RBW, 5 for a link credit packet. -/
def rxChan (p : Packet) : Nat := if p.typ = 0 && p.aux = 0xFF then 5 else if p.rbw then 4 else p.vc

/-- A transmitter on its way from ACTIVE to MGMT, in which it sends only VC_MGT packets and IDLE (R234): every other packet that is not
wholly acknowledged goes back to the head of its queue, to be sent again from its header, and strand units are dropped (DESIGN CHOICE,
log entry 59). -/
def PortSt.hush (x : PortSt) : PortSt :=
  let mine := x.inflight.flatMap (fun e => List.replicate e.2 (decide (e.1.cls = 3)))
  let (m, retry) := mgtRetry mine x.retry
  let (_, resend) := mgtUnits m x.resend
  let back := (x.inflight.map Prod.fst).filter (fun k => k.cls ≠ 3)
  let whole := (x.inflight.getLast?.map (fun e => decide (e.1.cls = 3))).getD true
  { x with
    retry := retry, resend := resend, txPart := if whole then x.txPart else [], inflight := x.inflight.filter (fun e => e.1.cls = 3),
    txq := back.reverse.foldl (fun m k => Store.upd (fun _ => []) m (rxChan k) (fun l => k :: l)) x.txq }

/-- An incomplete packet that is no management packet goes at the entry into MGMT (R223, R234). -/
def PortSt.cutPart (x : PortSt) : PortSt :=
  match x.rxPart with
  | u :: _ => if (packetOf [u]).cls = 3 then x else { x with rxPart := [] }
  | [] => x

/-- An entry into MGMT: no credit is held, and the whole free room is to be advertised (R268); what R234 bars from the link is taken
off it. -/
def State.toMgmt (s : State) (p : Nat) : State :=
  (s.lnkState p 5).modPo p (fun x =>
    let x := x.hush.cutPart
    { x with
      credit := [], freed := (List.range 5).foldl (fun m c => Store.put (fun _ => 0) m c (portRoom c - x.holds c)) [],
      freedAt := s.now })

/-- DATA_READY and the states MGMT and ACTIVE (R234). -/
def State.portEval (s : State) (p : Nat) : State :=
  let st := s.fget (LNK_STAT.STATE p)
  let ready := (st = 5 || st = 6) && s.flag (LNK_CTL.DATA_EN p) && !s.flag (LNK_STAT.HOLD_CAUSE p)
  let s := if ready != (s.po p).dataReady then s.modPo p (fun x => { x with dataReady := ready, identTx := 0 }) else s
  let go := ready && s.flag (LNK_STAT.PEER_READY p)
  if st = 5 && go then s.lnkState p 6
  else if st = 6 && !go then s.toMgmt p
  else s

/-- The cause of a hold by the tests of R233 in order; 0 for none. -/
def State.holdTest (s : State) (p : Nat) : Nat :=
  let b := s.peerBlock p
  let own := s.fget SEC_FW_LEVEL.FEAT
  let feat := leAt b 20 2
  let floor := s.fget HUB_FEAT_FLOOR.FLOOR
  let exp := (List.range 4).flatMap (fun i => leBytes 4 (s.reg (LNK_EXP.off p i)).toNat)
  if !s.flag (LNK_EXP_ID.VALID p) then 1
  else if slice b 0 16 ≠ exp || bits (leAt b 18 1) 3 0 ≠ s.fget (LNK_EXP_ID.PORT p) ||
      (bit (leAt b 16 2) 15 && bits (leAt b 16 2) 11 0 ≠ s.fget (LNK_EXP_ID.MODID p)) then 2
  else if feat = 0 then 5
  else if own + 1 < feat || feat + 1 < own || feat < floor || own < floor then 3
  else if s.mgr.manifest.isEmpty || bit (leAt b 22 2) 1 || slice b 24 16 ≠ s.manDig16 then 4
  else 0

/-- A cause of a hold entered, or none: MISWIRED and FEATURE raise their faults (R233). -/
def State.holdEnter (s : State) (p c : Nat) : State :=
  let b := s.peerBlock p
  let s := s.holdCause p c
  if c = 2 then s.raise 0x0705 (linkSrc p 0) (bits (leAt b 16 2) 11 0 + bits (leAt b 18 1) 3 0 * 2 ^ 12) 0
  else if c = 3 then s.raise 0x0706 (linkSrc p 0) 0 (leAt b 20 2)
  else s

/-- The tests of R233 run; entering a hold as MISWIRED or FEATURE raises its fault. `all` is false where a MISWIRED hold
stays. -/
def State.identTest (s : State) (p : Nat) (all : Bool) : State :=
  let old := s.fget (LNK_STAT.HOLD_CAUSE p)
  if old = 2 && !all then s
  else
    let c := s.holdTest p
    (if old = c then s.holdCause p c else s.holdEnter p c).portEval p

/-- The peer's whole block with a good CRC. -/
def State.peerIdent (s : State) (p : Nat) (ws : List Word) : State :=
  let old := s.peerBlock p
  let s := (List.range 12).foldl (fun t i => t.setReg (LNK_PEER.off p i) (ws.getD i 0)) s
  let b := s.peerBlock p
  let s := s.fset (LNK_STAT.PEER_READY p) (b2n (bit (leAt b 22 2) 2))
  let again := (s.po p).retrain
  let same := slice old 0 16 = slice b 0 16 && bits (leAt old 16 2) 11 0 = bits (leAt b 16 2) 11 0 &&
    bits (leAt old 18 1) 3 0 = bits (leAt b 18 1) 3 0
  let known := !(old.all (fun x => x = 0))
  let s := if again && known && !same then s.fset (LNK_CTL.DATA_EN p) 0 else s
  let s := s.modPo p (fun x => { x with retrain := false })
  let s := if s.fget (LNK_STAT.STATE p) = 4 then s.toMgmt p else s
  s.identTest p again

/-- IDENT: a segment of the peer's block. -/
def State.identSeg (s : State) (p seg : Nat) (d : Word) : State :=
  let st := s.fget (LNK_STAT.STATE p)
  if st < 4 || 6 < st || 12 ≤ seg then s
  else
    let held := Store.insert (s.po p).ident seg d
    let ws := held.map Prod.snd
    let b := bytesOf ws
    if held.length = 12 && leAt b 44 4 = crc32 (b.take 44) then
      (s.modPo p (fun x => { x with ident := [] })).peerIdent p ws
    else s.modPo p (fun x => { x with ident := held })

/-! ### Training (R230, R231, R235) -/

/-- Whether every lane that will be used is ready at both ends. -/
def State.allReady (s : State) (p : Nat) : Bool :=
  let u := s.usable p
  !u.isEmpty && u.all (fun i => ((s.po p).lane i).ready && ((s.po p).lane i).mine)

/-- The taps after a request of a training word. -/
def Taps.move (req : Nat) (t : Taps) : Taps :=
  match req with
  | 1 => { t with pre1 := t.pre1 + 1 }
  | 2 => { t with pre1 := t.pre1 - 1 }
  | 3 => { t with post1 := t.post1 + 1 }
  | 4 => { t with post1 := t.post1 - 1 }
  | 5 => { t with pre2 := t.pre2 + 1 }
  | 6 => { t with pre2 := t.pre2 - 1 }
  | 7 => ⟨0, 0, 0⟩
  | _ => t

/-- A training word received on a lane: its order and polarity, RX_READY and precoding of the peer, its request met or at the
transmitter's limit, and what this end asks for and tells next. `ready` is this end's RX_READY. -/
def LaneSt.trained (w : Nat) (inv own limit ready : Bool) (ask : Nat) (l : LaneSt) : LaneSt :=
  let req := bits w 9 6
  { l with
    inverted := inv, order := some (bits w 5 0), ready := bit w 14, mine := ready, precode := own && bit w 15, ask := ask,
    taps := if limit then l.taps else l.taps.move req,
    answer := if req = 0 then 0 else if 8 ≤ req then 3 else if limit then 2 else 1 }

/-- The training word that a lane sends (R231). -/
def LaneSt.word (i : Nat) (own : Bool) (l : LaneSt) : Nat :=
  i % 64 + l.ask % 16 * 2 ^ 6 + l.answer * 2 ^ 10 + b2n l.mine * 2 ^ 14 + b2n own * 2 ^ 15

/-- TRAINING_BLOCK: polarity, order, requests, RX_READY (R231). A block on a lane in use tells that the peer is back in DETECT (R230).
Whether a tap is at its limit, whether this end's receiver has adapted, and what it asks for next are free. -/
def State.trainBlock (s : State) (p lane : Nat) (block : List (BitVec 2)) : State :=
  let st := s.fget (LNK_STAT.STATE p)
  let x := s.po p
  let j := x.logLane lane
  match blockWord block with
  | none => s
  | some (w, inv) =>
    if x.size ≤ lane then s
    else if 4 ≤ st && st ≤ 6 && x.rxAct.contains j then s.portReset p
    else if !(st = 1 || st = 2 || (4 ≤ st && st ≤ 6 && (s.fget (LNK_LANE_OUT.LANES p)).testBit j)) then s
    else
      let own := s.flag (LNK_CTL.PRECODE p)
      let (n, s) := s.fresh
      let ready := st ≠ 1 && (((s.po p).lane lane).mine || Config.adapted n)
      let s := s.modPo p (PortSt.modLane lane (LaneSt.trained w inv own (Config.tapLimit n) ready (Config.tapAsk n).val))
      if st = 2 && s.allReady p then s.lnkState p 3 else s

/-- SIGNAL_DETECT: at least 4 lanes with signal lead to EQUALIZE. -/
def State.signal? (s : State) (p : Nat) (m : Word) : State :=
  if s.fget (LNK_STAT.STATE p) ≠ 1 then s
  else
    let s := { s with pins := { s.pins with sysclk := true } }
    let s := s.each (s.po p).size (fun i s => s.modPo p (PortSt.modLane i (fun l => { l with sigLost := !m.getLsbD i })))
    if 4 ≤ (s.usable p).length then s.lnkState p 2 else s

/-- EQUALIZE_TIMEOUT. -/
def State.equalizeOver (s : State) (p : Nat) : State :=
  if s.fget (LNK_STAT.STATE p) = 2 && (s.po p).since + msUnits 400 ≤ s.now then s.lnkState p 3 else s

/-- The end of LOCK: IDENT with the locked lanes, or EXCLUDED with fewer than 4. -/
def State.lockEnd (s : State) (p : Nat) : State :=
  let l := (s.usable p).filter (fun i => ((s.po p).lane i).locked)
  if l.length < 4 then
    let s := s.linkDown p
    (s.modPo p (fun x => { x with fails := x.fails + 1 })).lnkState p 8
  else
    let s := s.modPo p (fun x => { x with
      txAct := l, rxAct := sortBy (fun i => i) (l.map x.logLane), fails := 0, seqTx := 0, seqRx := 0, retry := [], identTx := 0, ident := [] })
    let s := ((s.fset (LNK_STAT.TRAINED_W p) l.length).widthFix p).lnkState p 4
    if l.length < (s.po p).size then s.raise 0x0704 (linkSrc p 0) 0 l.length else s

/-- EXCLUDED_RETRY: 60 s after entry, unless out of service. -/
def State.excludedRetry (s : State) (p : Nat) : State :=
  if s.fget (LNK_STAT.STATE p) = 8 && !s.flag (LNK_STAT.OOS p) && (s.po p).since + sUnits 60 ≤ s.now then
    (s.modPo p (fun x => { x with fails := 0 })).detect p
  else s

/-- A write of LNK_CTL (Table 13): EN, DATA_EN with its refusal, RETRAIN and UNPARK. -/
def State.lnkCtl (s : State) (m : Master) (p : Nat) (v : Word) : State :=
  let was := s.flag (LNK_CTL.EN p)
  let data := s.fget (LNK_CTL.DATA_EN p)
  let deny := (LNK_CTL.DATA_EN p).of v = 1 && s.flag (LNK_STAT.HOLD_CAUSE p)
  let retrain := (LNK_CTL.RETRAIN p).of v = 1
  let v := (LNK_CTL.STORM p).into v (max 1 ((LNK_CTL.STORM p).of v))
  let v := (LNK_CTL.DATA_EN p).into v (if deny then data else (LNK_CTL.DATA_EN p).of v)
  let unpark := (LNK_CTL.UNPARK p).of v = 1
  let start (s : State) : State := s.startTrain p
  let s := s.store m (LNK_CTL.off p) ((LNK_CTL.UNPARK p).off0 ((LNK_CTL.RETRAIN p).off0 v))
  let s := if deny then s.refuse (LNK_CTL.off p) else s
  let en := s.flag (LNK_CTL.EN p)
  let s := if unpark || retrain then s.fset (LNK_LANE_PARK.LANES p) 0 else s
  let st := s.fget (LNK_STAT.STATE p)
  if s.flag (LNK_STAT.OOS p) then s
  else if !was && en then
    let g := s.granules p
    start (s.modPo p (fun x => { x with grans := g }))
  else if was && !en then (s.linkDown p).lnkState p 0
  else if en && retrain then (if st = 8 then s.detect p else s.portReset p)
  else s.portEval p

/-- EXPECTATION_WRITE: word 0 to 3 of LNK_EXPx, or 4 for LNK_EXP_ID; the tests run again once a block is held. -/
def State.expWrite (s : State) (m : Master) (p i : Nat) (v : Word) : State :=
  let off := if i < 4 then LNK_EXP.off p i else LNK_EXP_ID.off p
  let s := s.store m off v
  let st := s.fget (LNK_STAT.STATE p)
  if st = 5 || st = 6 then s.identTest p true else s

/-! ### Lane service (R239 to R242) -/

/-- The SEQ that a lane change names: far enough ahead for its message to arrive (the spec leaves the lead open). -/
def State.leadSeq (s : State) (p : Nat) : Nat := ((s.po p).seqRx + 2 + 2 * s.fget (LNK_DELAY.NS p) * 10 / 256 + 2) % 4096

/-- The SEQ of the peer's first frame time that begins at or after a time, at least as far ahead as a lane change needs. -/
def State.seqAt (s : State) (p t : Nat) : Nat :=
  let n := ceilDiv (10 * (t + s.fget (LNK_DELAY.NS p) / 2 - s.now)) 128
  let lead := seqGap (s.leadSeq p) (s.po p).seqRx
  ((s.po p).seqRx + max n lead) % 4096

/-- The start of the tick's link calibration window (R43, TCK_LCAL). -/
def State.calFrom (s : State) : Nat := s.tick.bound + 8 * s.fget TCK_LCAL.OFFSET
/-- Its end. -/
def State.calTo (s : State) : Nat := s.calFrom + 8 * s.fget TCK_LCAL.LENGTH
/-- Whether the tick has a link calibration window: enabled, with a length, in one tick in every 2^EVERY global steps. -/
def State.calTick (s : State) : Bool :=
  s.flag TCK_CTL.LCAL_EN && s.flag TCK_LCAL.LENGTH && s.step % 2 ^ s.fget TCK_LCAL.EVERY = 0

/-- The LANE_DROP and LANE_ADD messages. -/
def laneDropMsg (lane seq : Nat) (calib : Bool) : Nat := 6 + lane % 64 * 2 ^ 4 + seq % 4096 * 2 ^ 10 + b2n calib * 2 ^ 22
/-- The LANE_ADD message. -/
def laneAddMsg (lane seq : Nat) : Nat := 7 + lane % 64 * 2 ^ 4 + seq % 4096 * 2 ^ 10

/-- A NAK for the expected SEQ, which begins a retry round (R221); its time counts towards a storm. -/
def State.nakSend (s : State) (p : Nat) : State :=
  (s.ctlSend p (5 + (s.po p).seqRx % 4096 * 2 ^ 4)).modPo p (fun x =>
    { x with nakOut := true, naks := x.naks.filter (fun t => s.now < t + usUnits 100) ++ [s.now] })

/-- A frame time that is not accepted, with the SEQ that its frames name: one NAK for each retry round. A SEQ that goes back tells that
the round's replay has come (R221). -/
def State.frameFailed (s : State) (p : Nat) (q : Option Nat) : State :=
  let x := s.po p
  let again := match q, x.seen with
    | some q, some h => seqLe q h
    | _, _ => false
  let s := if !x.nakOut || again then s.nakSend p else s
  s.modPo p (fun y => { y with seen := match q with
    | some q => some q
    | none => if x.nakOut then x.seen else some x.seqRx })

/-- A lane of the receiving direction taken out for a fault, or a port reset where fewer than 4 would remain (R239, R240); the NAK is
the caller's. `lane` is the port lane index of the sender. -/
def State.spliceLane (s : State) (p lane code arg : Nat) : State :=
  let x := s.po p
  if x.rxAct.contains lane && x.rxAct.length < 5 then s.portReset p
  else
    let i := x.physLane lane
    let times := (x.lane i).splices.filter (fun t => s.now < t + sUnits 600) ++ [s.now]
    let s := s.modPo p (fun x => PortSt.modLane i (fun l =>
        { l with goodRun := 0, badRun := 0, locked := false, splices := times, ready := false, mine := false, uncs := [],
                 errAt := s.now, errs := 0, dirty := s.now, bitErrs := 0 })
      { x with rxAct := x.rxAct.filter (fun i => i ≠ lane), rxChange := x.rxChange.filter (fun c => c.1 ≠ lane),
               cal := x.cal.filter (fun c => c.1 ≠ lane) })
    let s := s.fset (LNK_LANE_OUT.LANES p) (s.fget (LNK_LANE_OUT.LANES p) ||| 2 ^ lane)
    let s := if 3 ≤ times.length then s.fset (LNK_LANE_PARK.LANES p) (s.fget (LNK_LANE_PARK.LANES p) ||| 2 ^ lane) else s
    let s := ((s.fcount (LNK_SPLICES.SPLICES p) 1).fset (LNK_SPLICES.LANE p) lane).widthFix p
    let s := s.ctlSend p (laneDropMsg lane (s.po p).seqRx false)
    s.raise code (linkSrc p lane) 0 (if code = 0x0701 then s.fget (LNK_SPLICES.SPLICES p) else arg)

/-- Whether a lane belongs to the receiving direction: in use, about to come back, or measured in a window. -/
def PortSt.serves (x : PortSt) (lane : Nat) : Bool :=
  x.rxAct.contains lane || x.rxChange.any (fun c => c.1 = lane && c.2.2) || x.cal.any (fun c => c.1 = lane)

/-- A splice: LANE_DROP, and a NAK for the first frame time that fails without the lane (R239). -/
def State.splice (s : State) (p lane code arg : Nat) : State :=
  let st := s.fget (LNK_STAT.STATE p)
  if st < 4 || 6 < st || !(s.po p).serves lane then s
  else
    let s := s.spliceLane p lane code arg
    if 4 ≤ s.fget (LNK_STAT.STATE p) && s.fget (LNK_STAT.STATE p) ≤ 6 then s.nakSend p else s

/-- LANE_FAULT: "lane lost"; a lane that is out already is not clean. `i` is the receiver, which loses its signal where `sig` says so. -/
def State.laneFault (s : State) (p i : Nat) (sig : Bool) : State :=
  let j := (s.po p).logLane i
  let s := if i < (s.po p).size then
      s.modPo p (PortSt.modLane i (fun l => { l with sigLost := l.sigLost || sig, dirty := s.now, bitErrs := 0 })) else s
  s.splice p j 0x0701 0

/-- Whether a lane that is out has been clean for 1 s: no uncorrectable codeword, and fewer than 1 in 10^6 bits corrected of the 425
that come in a timebase unit (R240). -/
def LaneSt.clean (now : Nat) (l : LaneSt) : Bool :=
  decide (l.dirty + sUnits 1 ≤ now) && decide (l.bitErrs * 10 ^ 6 < 425 * (now - l.dirty))

/-- LANE_CLEAN: a spliced lane that is not parked returns once it has been clean for 1 s, and not before the end of a window (R240,
R245). `lane` is the sender's port lane index. -/
def State.laneClean (s : State) (p lane : Nat) : State :=
  let st := s.fget (LNK_STAT.STATE p)
  let mask := s.fget (LNK_LANE_OUT.LANES p)
  let l := (s.po p).lane ((s.po p).physLane lane)
  if st < 4 || 6 < st || !mask.testBit lane || (s.fget (LNK_LANE_PARK.LANES p)).testBit lane || !l.clean s.now then s
  else
    let at_ := if s.calTick && s.calFrom ≤ s.now && s.now < s.calTo then s.seqAt p s.calTo else s.leadSeq p
    let s := s.fset (LNK_LANE_OUT.LANES p) (setBits mask lane lane 0)
    (s.ctlSend p (laneAddMsg lane at_)).modPo p (fun x => { x with rxChange := x.rxChange ++ [(lane, at_, true)] })

/-- The smallest of three. -/
def least (a : BitVec 8 × BitVec 8 × BitVec 8) : Nat := min a.1.toNat (min a.2.1.toNat a.2.2.toNat)

/-- LINK_CALIBRATION_WINDOW: the next lane in rotation leaves at the first frame time that begins in the window of this tick, and its
eyes are measured; it comes back once the window is over (R43, R241). -/
def State.calWindow (s : State) (p : Nat) (heights widths : BitVec 8 × BitVec 8 × BitVec 8) : State :=
  let st := s.fget (LNK_STAT.STATE p)
  let x := s.po p
  let lane := ((x.rxAct.find? (fun i => x.calRot ≤ i)).getD (x.rxAct.headD 0))
  if st < 5 || 6 < st || !s.calTick || s.calTo ≤ s.now || x.cal.isSome || s.flag (LNK_CTL.LCAL_SKIP p) || x.rxAct.length < 5 ||
      x.rxAct.length - 1 < s.fget (LNK_STAT.NEED_W p) then s
  else
    let from_ := s.seqAt p s.calFrom
    let s := (s.ctlSend p (laneDropMsg lane from_ true)).modPo p (fun x =>
      { x with calRot := lane + 1, cal := some (lane, s.calTo), rxChange := x.rxChange ++ [(lane, from_, false)] })
    ((s.fset (LNK_MARGIN.LANE p) lane).fset (LNK_MARGIN.EYE_H p) (least heights)).fset (LNK_MARGIN.EYE_W p) (least widths)

/-- The end of a window at a port: the measured lane returns by LANE_ADD if it holds lock, and is lost otherwise (R241). -/
def State.calEnd (s : State) (p : Nat) : State :=
  let x := s.po p
  match x.cal with
  | none => s
  | some (lane, end_) =>
    if s.now < end_ then s
    else
      let at_ := s.leadSeq p
      if (x.lane (x.physLane lane)).locked then
        (s.ctlSend p (laneAddMsg lane at_)).modPo p (fun x => { x with cal := none, rxChange := x.rxChange ++ [(lane, at_, true)] })
      else (s.splice p lane 0x0701 0).modPo p (fun x => { x with cal := none })

/-- The uncorrectable codewords of a lane in the latest 100 µs. -/
def LaneSt.recent (now : Nat) (l : LaneSt) : Nat := l.uncs.countP (fun t => decide (now < t + usUnits 100))

/-- The lane in use that holds at least half of the uncorrectable codewords of the latest 100 µs (R242); of two that hold half each,
`pick` says which. -/
def State.dominant (s : State) (p : Nat) (pick : Option Nat) : Option Nat :=
  let x := s.po p
  let n (j : Nat) : Nat := (x.lane (x.physLane j)).recent s.now
  let all := (x.rxAct.map n).foldl (· + ·) 0
  let half := if all = 0 then [] else x.rxAct.filter (fun j => decide (all ≤ 2 * n j))
  match pick with
  | some l => if half.contains l then some l else half.head?
  | none => half.head?

/-- A retry storm of `n` NAKs: the dominant lane is spliced, or the port retrains (R242). -/
def State.stormAct (s : State) (p n : Nat) (pick : Option Nat) : State :=
  let s := s.fset (LNK_STAT.STORM p) 1
  match s.dominant p pick with
  | some l => if 5 ≤ (s.po p).rxAct.length then s.splice p l 0x0702 n else (s.raise 0x0702 (linkSrc p l) 0 n).portReset p
  | none => (s.raise 0x0702 (linkSrc p 0) 0 n).portReset p

/-- RETRY_STORM: more than STORM NAKs within 100 µs at a port in service. -/
def State.retryStorm (s : State) (p : Nat) (pick : Option Nat) : State :=
  let st := s.fget (LNK_STAT.STATE p)
  let n := ((s.po p).naks.filter (fun t => s.now < t + usUnits 100)).length
  if n ≤ s.fget (LNK_CTL.STORM p) || st < 4 || 6 < st then s else s.stormAct p n pick

/-! ### Retry (R221) -/

/-- The units of the frame times from a SEQ on go again, in order, at the width of the time. -/
def State.replayFrom (s : State) (p seq : Nat) : State :=
  let x := s.po p
  if x.retry.all (fun e => !seqLe seq e.seq) then s
  else
    let again := x.retry.filter (fun e => seqLe seq e.seq)
    let s := s.modPo p (fun x => { x with
      retry := x.retry.filter (fun e => !seqLe seq e.seq), seqTx := ((again.head?.map RetryEnt.seq).getD seq), resend := again.flatMap RetryEnt.units ++ x.resend })
    s.setPair (LNK_REPLAY_LO.off p) (s.pair (LNK_REPLAY_LO.off p) + 1)

/-- ACK_TIMEOUT: a frame time without acknowledgement for 2 × LNK_DELAY + 1 µs. -/
def State.ackTimeout (s : State) (p : Nat) : State :=
  match (s.po p).retry with
  | [] => s
  | e :: _ => if e.at_ + s.fget (LNK_DELAY.NS p) + usUnits 1 ≤ s.now then s.replayFrom p e.seq else s

/-- Packets begun, after `n` of their units have been acknowledged. -/
def ackUnits : Nat → List (Packet × Nat) → List (Packet × Nat)
  | _, [] => []
  | n, (p, k) :: t => if k ≤ n then ackUnits (n - k) t else (p, k - n) :: t

/-- An ACK that covers frame times up to a SEQ. -/
def PortSt.ackTo (seq : Nat) (x : PortSt) : PortSt :=
  let gone := x.retry.filter (fun e => seqLe e.seq seq)
  let n := (gone.flatMap RetryEnt.units).countP (fun u => u.1 = 1)
  { x with retry := x.retry.filter (fun e => !seqLe e.seq seq), inflight := ackUnits n x.inflight }

/-! ### The control stream (R225, R226) -/

/-- TICK_EDGE after the frame times accepted so far: what is accepted from now on belongs to the step that begins (R224). -/
def State.tickEdge (s : State) (p low : Nat) : State := s.modPo p (fun x => { x with peerTick := low })

/-- TICK_EDGE in the frame time of a SEQ: it divides what comes up to that frame time, replayed or not, from what comes after it, since
no strand unit of the new tick begins within 32 ns of the boundary (R224). -/
def State.tickEdgeAt (s : State) (p q low : Nat) : State := s.modPo p (fun x => { x with edges := x.edges ++ [(q, low)] })

/-- A frame time accepted: the next SEQ is expected, and the TICK_EDGEs before it have divided what came before them (R221, R224). -/
def PortSt.accept (q : Nat) (x : PortSt) : PortSt :=
  let past := x.edges.filter (fun e => seqLe ((e.1 + 1) % 4096) q)
  { x with
    seqRx := (q + 1) % 4096, nakOut := false, seen := none, peerTick := (past.getLast?.map Prod.snd).getD x.peerTick,
    edges := x.edges.filter (fun e => !seqLe ((e.1 + 1) % 4096) q) }

/-- REFUSE: the commit of a slice is missed everywhere; it goes on over the other links once (R191, R226). -/
def State.refuseArrives (s : State) (slice step : Nat) : State :=
  let s := if s.mgr.load.armed.any (fun a => a.1 = slice && a.2 % 2 ^ 16 = step) then s.disarm slice else s
  match s.ctxOf slice with
  | none => s
  | some n =>
    if s.fget (RIG_SL_STAT.SHADOW n) = 3 && s.pair (RIG_SL_AT_LO.off n) % 2 ^ 16 = step && !(s.cx n).refused then
      (s.modCx n (fun c => { c with refused := true })).ctlAll (refuseMsg slice step)
    else s

/-- A lane change of the transmitting direction: it takes effect at its SEQ, or at the next frame time if that has passed. -/
def State.laneChange (s : State) (p lane seq : Nat) (add : Bool) : State :=
  s.modPo p (fun x => { x with txChange := x.txChange ++ [(lane, seq, add)] })

/-- LANE_DROP: a lane of the transmitting direction leaves, for a fault or to be measured (R239, R241). -/
def State.laneDrop (s : State) (p lane seq : Nat) (calib : Bool) : State :=
  let s := s.laneChange p lane seq false
  if calib then s.modPo p (fun x => { x with txCal := addKey x.txCal lane })
  else s.modPo p (fun x => { x with txCal := x.txCal.filter (fun i => i ≠ lane) })

/-- ECHO_REPLY: half the round trip is the one-way delay. -/
def State.echoReply (s : State) (p token : Nat) : State :=
  match (s.po p).token with
  | some (t, at_) =>
    if t = token then (s.fset (LNK_DELAY.NS p) (min 65535 (s.now - at_))).modPo p (fun x => { x with token := none }) else s
  | none => s

/-- A control message of Table 4 in the frame time of a SEQ. -/
def State.ctlMsg (s : State) (p q m : Nat) : State :=
  match m % 16 with
  | 1 => s.syncArrives p (bits m 19 4) (bits m 39 20) (bit m 40) (bit m 41)
  | 2 => s.tickEdgeAt p q (bits m 11 4)
  | 3 => s.abortArrives (bits m 15 4) (bits m 23 16) (bits m 25 24) (bits m 33 26)
  | 4 => s.refuseArrives (bits m 15 4) (bits m 31 16)
  | 5 => s.replayFrom p (bits m 15 4)
  | 6 => s.laneDrop p (bits m 9 4) (bits m 21 10) (bit m 22)
  | 7 => s.laneChange p (bits m 9 4) (bits m 21 10) true
  | 8 => s.identSeg p (bits m 7 4) (BitVec.ofNat 32 (bits m 39 8))
  | 9 => s.ctlSend p (10 + bits m 15 4 * 2 ^ 4)
  | 10 => s.echoReply p (bits m 15 4)
  | _ => s

/-! ### Receiving frames (R218 to R224) -/

/-- What a receiver makes of its lane in a frame time: the message where the codeword decodes and its CRC holds, whether the codeword
is uncorrectable, and the symbols and bits corrected. -/
structure LaneGot where
  msg  : Option FrameMsg
  unc  : Bool
  syms : Nat
  errs : Nat
  deriving DecidableEq, Repr

/-- A lane read: levels with their polarity corrected, precoding taken back, the codeword decoded, the message descrambled and its CRC
checked (R217, R218, R231). The descrambler goes on over the bits received. -/
def LaneSt.read (rx : LaneRx) (l : LaneSt) : LaneGot × LaneSt :=
  match rx with
  | .levels v =>
    let raw := v.map (fun b => if l.inverted then 3 - b.toNat else b.toNat)
    let (lv, last) := if l.precode then decodeLevels l.rxLevel raw else (raw, raw.getLast?.getD l.rxLevel)
    let sy := levelSymbols lv
    let got := rsDecode sy
    let (bs, scr) := descramble l.rxScr (((got.map Prod.fst).getD (sy.take 534)).flatMap (bitList 10))
    let m := frameOf bs
    let n := (got.map Prod.snd).getD (0, 0)
    (⟨if got.isSome && msgGood m then some m else none, got.isNone, n.1, n.2⟩, { l with rxScr := scr, rxLevel := last })
  | _ => (⟨none, true, 0, 0⟩, l)

/-- A lane after a frame: lock after 8 good ones in a row, loss of lock after 4 bad ones (R220). -/
def LaneSt.frame (ok : Bool) (l : LaneSt) : LaneSt :=
  let g := if ok then l.goodRun + 1 else 0
  let b := if ok then 0 else l.badRun + 1
  { l with goodRun := min 8 g, badRun := min 4 b, locked := if 8 ≤ g then true else if 4 ≤ b then false else l.locked }

/-- A lane's counts after a frame time: the uncorrectable codewords of the last millisecond, the symbols corrected in the 100 ms under
way (DEDUCED, log entry 59: one after the other), and how long the lane has been clean (R239, R240). -/
def LaneSt.judge (now : Nat) (g : LaneGot) (l : LaneSt) : LaneSt :=
  let l := l.frame g.msg.isSome
  let fresh := decide (l.errAt + msUnits 100 ≤ now)
  { l with
    uncs := l.uncs.filter (fun t => now < t + msUnits 1) ++ (if g.unc then [now] else []),
    errAt := if fresh then now else l.errAt, errs := if fresh then g.syms else l.errs + g.syms,
    dirty := if g.msg.isSome then l.dirty else now, bitErrs := if g.msg.isSome then l.bitErrs + g.errs else 0 }

/-- The conditions of Table 9 that a receiver sees of itself: its lock is lost, more than 4 uncorrectable codewords within 1 ms, or more
than 1 in 10^5 of the 2,125,000,000 symbols of 100 ms corrected. -/
def LaneSt.faulty (was now : LaneSt) : Bool := (was.locked && !now.locked) || decide (4 < now.uncs.length) || decide (21250 < now.errs)

/-- Units dropped in MGMT (R234): each counted and reported. -/
def State.mgmtDrop (s : State) (p tag n : Nat) : State :=
  s.each n (fun _ s => (s.lnkDrop p 1).raise 0x0709 (linkSrc p 0) 0 tag)

/-- A PKT unit that came in: a packet is passed on once it is whole (R223). In MGMT a unit that begins no management packet is dropped
(R234). -/
def State.rxPkt (s : State) (p : Nat) (u : XUnit) : State :=
  let us := (s.po p).rxPart ++ [u]
  let k := packetOf us
  if (s.po p).rxPart.isEmpty && s.fget (LNK_STAT.STATE p) ≠ 6 && (k.cls ≠ 3 || !k.good) then s.mgmtDrop p 1 1
  else if us.length < k.units then s.modPo p (fun x => { x with rxPart := us })
  else
    let s := s.modPo p (fun x => { x with rxPart := [] })
    if s.fget (LNK_STAT.STATE p) ≠ 6 && k.cls ≠ 3 then s.mgmtDrop p 1 us.length
    else if rxChan k = 5 then s.creditTake p k
    else s.modPo p (fun x => { x with rxq := Store.upd (fun _ => []) x.rxq (rxChan k) (fun l => l ++ [k]) })

/-- A STRAND unit that came in on a link strand index (R224, R236). -/
def State.rxStrand (s : State) (p idx : Nat) (u : XUnit) : State :=
  if s.fget (LNK_STAT.STATE p) ≠ 6 then s.mgmtDrop p (64 + idx) 1
  else match (s.linkRecs p false)[idx]? with
    | none => s
    | some (_, slice, r) =>
      let t := (s.po p).peerTick
      let next := t = (s.step + 1) % 256
      if next && 4096 ≤ (s.po p).heldRx.length then s.lnkDrop p 1
      else s.modPo p (PortSt.take (decide (t = s.step % 256)) next [⟨slice, r.sid, u⟩])

/-- A unit of an accepted frame time by its tag (Table 3). -/
def State.rxUnit (s : State) (p tag : Nat) (u : XUnit) : State :=
  if tag = 0 then s
  else if tag = 1 then s.rxPkt p u
  else if tag < 64 then if s.fget (LNK_STAT.STATE p) = 6 then s.lnkDrop p 1 else s.mgmtDrop p tag 1
  else s.rxStrand p (tag - 64) u

/-- The units of a frame time in their order: position by position over the lanes (R219). -/
def frameUnits (ms : List FrameMsg) : List (Nat × XUnit) :=
  (List.range 20).flatMap (fun k => ms.map (fun m => ((m.tags.getD k 0).toNat, m.units.getD k 0)))

/-- The valid control messages of a frame time: both frames of the pair pass CRC (R225). -/
def ctlMsgs : List (Option FrameMsg) → List Nat
  | a :: b :: t => (match a, b with
    | some x, some y => [x.cs.toNat + y.cs.toNat * 2 ^ 24]
    | _, _ => []) ++ ctlMsgs t
  | _ => []

/-- Changes of active lanes that take effect at a SEQ; a change that has passed takes effect too. -/
def laneApply (seq : Nat) (act : List Nat) (chg : List (Nat × Nat × Bool)) : List Nat × List (Nat × Nat × Bool) :=
  let due := chg.filter (fun c => seqLe c.2.1 seq)
  let act := due.foldl (fun l c => if c.2.2 then (if l.contains c.1 then l else sortBy (fun i => i) (l ++ [c.1]))
    else l.filter (fun i => i ≠ c.1)) act
  (act, chg.filter (fun c => !seqLe c.2.1 seq))

/-- The receiving direction's lane changes at the SEQ expected; a lane that leaves to be measured has to lock again (R241). -/
def State.rxLanes (s : State) (p : Nat) : State :=
  let x := s.po p
  let (a, c) := laneApply x.seqRx x.rxAct x.rxChange
  if a = x.rxAct && c = x.rxChange then s
  else
    let gone := x.rxAct.filter (fun j => !a.contains j)
    let s := s.modPo p (fun x => { x with rxAct := a, rxChange := c })
    (State.eachOf gone (fun j s => s.modPo p (fun x =>
      x.modLane (x.physLane j) (fun l => { l with goodRun := 0, badRun := 0, locked := false }))) s).widthFix p

/-- What the receivers of a frame time make of it: those in use, and others that get a frame. -/
def State.framesIn (s : State) (p : Nat) (lanes : List LaneRx) : List (Nat × LaneGot × LaneSt) :=
  let x := s.po p
  let used := if s.fget (LNK_STAT.STATE p) = 3 then s.usable p else x.rxAct.map x.physLane
  let extra := (List.range lanes.length).filter (fun i => decide (lanes.getD i .absent ≠ .absent) && !used.contains i)
  (used ++ extra).map (fun i => (i, (x.lane i).read (lanes.getD i .absent)))

/-- The message that a receiver got. -/
def gotMsg (got : List (Nat × LaneGot × LaneSt)) (i : Nat) : Option FrameMsg :=
  ((got.find? (fun e => e.1 = i)).map (fun e => e.2.1.msg)).getD none

/-- Codewords counted, and lanes brought up to date. -/
def State.frameCount (s : State) (p : Nat) (got : List (Nat × LaneGot × LaneSt)) : State :=
  let s := s.setPair (LNK_FEC_CORR_LO.off p) (s.pair (LNK_FEC_CORR_LO.off p) + got.countP (fun e => decide (0 < e.2.1.syms)))
  let s := s.setPair (LNK_FEC_UNC_LO.off p) (s.pair (LNK_FEC_UNC_LO.off p) + got.countP (fun e => e.2.1.unc))
  State.eachOf got (fun e s => s.modPo p (PortSt.modLane e.1 (fun _ => e.2.2.judge s.now e.2.1))) s

/-- FRAME in LOCK: LOCK ends once every lane has locked or failed (R220, R230). -/
def State.lockFrame (s : State) (p : Nat) : State :=
  if (s.usable p).all (fun i => let l := (s.po p).lane i; l.locked || 4 ≤ l.badRun) then s.lockEnd p else s

/-- A frame time over the sender's lanes `act`: accepted where these are the lanes expected, every one of them decodes and passes CRC,
and its SEQ is the one expected (R220); otherwise it fails or is a repetition. `bad` are the lanes to splice (R239). -/
def State.frameUse (s : State) (p : Nat) (act : List Nat) (ok : List (Option FrameMsg)) (bad : List Nat) : State :=
  let x := s.po p
  let ms := ok.filterMap (fun m => m)
  let q := (ms.map (fun m => m.seq.toNat)).head?
  let seq := q.getD x.seqRx
  let whole := act = x.rxAct && ms.length = ok.length && ms.all (fun m => m.seq.toNat = seq)
  let s := match ms with
    | m :: _ => s.modPo p (PortSt.ackTo m.ack.toNat)
    | [] => s
  let s := if whole && seq = x.seqRx then
      State.eachOf (frameUnits ms) (fun e s => s.rxUnit p e.1 e.2) (s.modPo p (PortSt.accept seq))
    else if bad.isEmpty && (!whole || !seqLe seq x.seqRx) then s.frameFailed p q
    else s
  if bad.isEmpty then s
  else
    let s := State.eachOf bad (fun j s => if (s.po p).rxAct.contains j then s.spliceLane p j 0x0701 0 else s) s
    if s.fget (LNK_STAT.STATE p) < 4 || 6 < s.fget (LNK_STAT.STATE p) then s
    else (s.nakSend p).modPo p (fun y => { y with seen := some seq })

/-- FRAME: one frame time, with the word of the lanes that carried its units at the sender and what reached each receiver. Its control
messages act whether or not it is accepted (R225). -/
def State.frame (s : State) (p : Nat) (act : Word) (lanes : List LaneRx) : State :=
  let st := s.fget (LNK_STAT.STATE p)
  if st < 3 || 6 < st then s
  else
    let s := if st = 3 then s else s.rxLanes p
    let x := s.po p
    let got := s.framesIn p lanes
    let s := s.frameCount p got
    if st = 3 then s.lockFrame p
    else
      let sent := (List.range 32).filter act.getLsbD
      let ok := sent.map (fun j => gotMsg got (x.physLane j))
      let bad := x.rxAct.filter (fun j => (x.lane (x.physLane j)).faulty ((s.po p).lane (x.physLane j)))
      let s := s.frameUse p sent ok bad
      let q := ((ok.filterMap (fun m => m)).map (fun m => m.seq.toNat)).headD 0
      (State.eachOf (ctlMsgs ok) (fun m s => s.ctlMsg p q m) s).calEnd p

/-! ### Sending frames (R214, R218 to R221, R224, R226, R268) -/

/-- What a port's transmitter goes by: whether it may send all traffic, whether VC_ESC may go (R267), whether strand units may go, and for each strand its
key, link strand index and UNITS. -/
structure TxRules where
  all     : Bool
  esc     : Bool
  strands : Bool
  recs    : List (Nat × Nat × Nat)
  deriving DecidableEq, Repr

/-- The record of a strand key. -/
def TxRules.rec? (r : TxRules) (k : Nat) : Option (Nat × Nat × Nat) := r.recs.find? (fun e => e.1 = k)

/-- The key of a strand unit. -/
def StrandUnit.key (u : StrandUnit) : Nat := rbwKey u.slice u.sid

/-- The next strand unit within its reservation, by round-robin among the strands (R214). -/
def PortSt.offer (r : TxRules) (x : PortSt) : Option StrandUnit :=
  let ks := sortBy (fun k => k) ((r.recs.filter (fun e =>
    Store.get (fun _ => 0) x.strandN e.1 < e.2.2 && x.strandTx.any (fun u => u.key = e.1))).map (fun e => e.1))
  let k := match ks.find? (fun k => x.lastSid < k) with
    | some k => some k
    | none => ks.head?
  match k with
  | some k => x.strandTx.find? (fun u => u.key = k)
  | none => none

/-- A strand unit sent. -/
def PortSt.sendStrand (r : TxRules) (u : StrandUnit) (x : PortSt) : (Nat × XUnit) × PortSt :=
  let k := u.key
  let i := ((r.rec? k).map (fun e => e.2.1)).getD 0
  ((64 + i % 64, u.unit), { x with
    strandTx := x.strandTx.erase u, lastSid := k, strandN := Store.upd (fun _ => 0) x.strandN k (fun n => n + 1) })

/-- The packet at the head of a channel, where the peer has room for the whole of it. -/
def PortSt.headOf (x : PortSt) (ch : Nat) : Option Packet :=
  match Store.get (fun _ => ([] : List Packet)) x.txq ch with
  | p :: _ => if ch = 5 || p.units ≤ Store.get (fun _ => 0) x.credit ch then some p else none
  | [] => none

/-- A packet begun: its header unit is sent. -/
def PortSt.begin (ch : Nat) (p : Packet) (x : PortSt) : (Nat × XUnit) × PortSt :=
  let us := unitsOf p
  ((1, us.headD 0), { x with
    txPart := us.drop 1, inflight := x.inflight ++ [(p, us.length)],
    txq := Store.upd (fun _ => []) x.txq ch (fun l => l.drop 1),
    credit := if ch = 5 then x.credit else Store.upd (fun _ => 0) x.credit ch (fun n => n - p.units),
    tokens := if ch = 3 then x.tokens - us.length else x.tokens })

/-- The unit that an output grants next; `alt` tells that the latest one was a strand unit (R214). -/
def PortSt.grant (r : TxRules) (alt : Bool) (x : PortSt) : (Nat × XUnit) × PortSt :=
  let start (ch : Nat) : Option ((Nat × XUnit) × PortSt) := (x.headOf ch).map (fun p => x.begin ch p)
  let so : Option ((Nat × XUnit) × PortSt) :=
    if r.all && r.strands then (x.offer r).map (fun u => x.sendStrand r u) else none
  let late : Option ((Nat × XUnit) × PortSt) :=
    if r.all && r.strands then (x.strandTx.head?).map (fun u => x.sendStrand r u) else none
  let free (ch : Nat) : Option ((Nat × XUnit) × PortSt) := if r.all then start ch else none
  match x.resend, x.txPart with
  | u :: t, _ => (u, { x with resend := t })
  | [], u :: t =>
    match (if alt then none else so) with
    | some y => y
    | none => ((1, u), { x with txPart := t })
  | [], [] =>
    let l := [start 5, if 0 < x.tokens then start 3 else none, so, free 4, start 3, if r.esc then free 2 else none, free 1, free 0, late]
    (l.findSome? (fun y => y)).getD ((0, 0), x)

/-- The units of a frame time. -/
def PortSt.fill (r : TxRules) : Nat → Bool → PortSt → List (Nat × XUnit) × PortSt
  | 0, _, x => ([], x)
  | n + 1, alt, x =>
    let (u, y) := x.grant r alt
    let (us, z) := PortSt.fill r n (decide (64 ≤ u.1)) y
    (u :: us, z)

/-- The control messages of a frame time: TICK_EDGE, SYNC, repeats, queued messages, then identity and delay (R226, R230, R232). A repeat
without a slot waits for the next frame time. -/
def State.ctlTake (s : State) (p slots : Nat) : List (BitVec 48) × State :=
  let x := s.po p
  let st := s.fget (LNK_STAT.STATE p)
  let edge := if x.edgeSend && 0 < slots then [BitVec.ofNat 48 (2 + s.step % 256 * 2 ^ 4)] else []
  let sync := if x.syncSend && edge.length < slots then [s.syncMsg p] else []
  let first := edge ++ sync
  let reps := x.ctlRep.take (slots - first.length)
  let room := slots - first.length - reps.length
  let now := x.ctl.take room
  let used := first.length + reps.length + now.length
  let echo : Bool := st = 4 && x.token.isNone && decide (used < slots)
  let tok := if echo then [BitVec.ofNat 48 (9 + x.seqTx % 4096 * 2 ^ 4)] else []
  let i := if st = 4 then x.identTx % 12 else x.identTx
  let n := min (slots - used - tok.length) (12 - i)
  let b := s.identBlock p
  let segs := (List.range n).map (fun j => BitVec.ofNat 48 (8 + (i + j) * 2 ^ 4 + leAt b (4 * (i + j)) 4 * 2 ^ 8))
  let again := (now.filter (fun m => m.toNat % 16 = 3 || m.toNat % 16 = 4)).map (fun m => (m, 3))
  let s := s.modPo p (fun x => { x with
    edgeSend := x.edgeSend && edge.isEmpty, syncSend := x.syncSend && sync.isEmpty, ctl := x.ctl.drop room,
    ctlRep := (reps.map (fun e => (e.1, e.2 - 1))).filter (fun e => 0 < e.2) ++ x.ctlRep.drop reps.length ++ again,
    token := if echo then some (x.seqTx % 4096, s.now) else x.token, identTx := i + n })
  (first ++ reps.map Prod.fst ++ now ++ tok ++ segs, s)

/-- What a port's transmitter goes by now (R214, R224, R234, R267). -/
def State.txRules (s : State) (p : Nat) : TxRules :=
  let recs := s.linkRecs p true
  { all := decide (s.fget (LNK_STAT.STATE p) = 6), esc := (s.fab.quiesceEnd.map (fun t => decide (t ≤ s.now))).getD true,
    strands := decide (16 ≤ s.tbCount),
    recs := (List.range recs.length).filterMap (fun i => (recs[i]?).map (fun e => (rbwKey e.2.1 e.2.2.sid, i, e.2.2.units))) }

/-- The frame message of the `i`-th of `w` active lanes, from the units and control messages of a frame time (R218, R219, R225). -/
def txMsg (w seq ack : Nat) (us : List (Nat × XUnit)) (cs : List (BitVec 48)) (i : Nat) : FrameMsg :=
  let mine := (List.range 20).map (fun k => us.getD (k * w + i) (0, 0))
  let ctl := (cs.getD (i / 2) 0).toNat
  let m : FrameMsg := {
    units := mine.map Prod.snd, tags := mine.map (fun u => BitVec.ofNat 7 u.1), seq := BitVec.ofNat 12 seq, ack := BitVec.ofNat 12 ack,
    cs := BitVec.ofNat 24 (if i % 2 = 0 then (if i + 1 < w then ctl else 0) else ctl / 2 ^ 24), crc := 0 }
  { m with crc := BitVec.ofNat 32 (crc32Bits (frameBits m)) }

/-- A message sent on a lane: scrambled, coded, as levels, precoded where both ends ask for it (R217, R218). -/
def LaneSt.send (m : FrameMsg) (l : LaneSt) : List (BitVec 2) × LaneSt :=
  let (bs, scr) := scramble l.txScr (frameBits m ++ bitList 32 m.crc.toNat)
  let raw := (rsEncode ((chunks 10 534 bs).map bitsNat)).flatMap symbolLevels
  let (lv, last) := if l.precode then precodeLevels l.txLevel raw else (raw, raw.getLast?.getD l.txLevel)
  (onLane lv, { l with txScr := scr, txLevel := last })

/-- Whether a lane out for measurement carries frames again: 512 ns before the window ends (R241). -/
def State.relocking (s : State) : Bool := decide (s.calTo ≤ s.now + 256)

/-- What a lane sends in a frame time: the frame of its message, PRBS13Q while it is measured, frames of IDLE units while it locks
again, or training blocks (R218, R231, R240, R241). -/
def State.laneTx (s : State) (p : Nat) (idle : FrameMsg) (ms : List (Nat × FrameMsg)) (i : Nat) : LaneTx × State :=
  let x := s.po p
  let l := x.lane i
  let put (m : FrameMsg) : LaneTx × State :=
    let (lv, l) := l.send m
    (.frame lv, s.modPo p (PortSt.modLane i (fun _ => l)))
  match ms.find? (fun e => e.1 = i) with
  | some e => put e.2
  | none =>
    if x.txCal.contains i then if s.relocking then put idle else (.prbs (onLane (prbs13q 2720)), s)
    else (.block (blockOf (l.word i (s.flag (LNK_CTL.PRECODE p)))), s)

/-- The lanes of a port's frame time sent one after the other. -/
def State.lanesTx (s : State) (p : Nat) (idle : FrameMsg) (ms : List (Nat × FrameMsg)) : List Nat → List LaneTx × State
  | [] => ([], s)
  | i :: t =>
    let (x, s) := s.laneTx p idle ms i
    let (l, s) := State.lanesTx s p idle ms t
    (x :: l, s)

/-- What the lanes of a port send, with the messages of those that carry units. -/
def State.sendLanes (s : State) (p : Nat) (act : List Nat) (ms : List (Nat × FrameMsg)) : State :=
  let x := s.po p
  let idle := txMsg 1 x.seqTx (x.seqRx + 4095) [] [] 0
  let all := (List.range x.size) ++ act.filter (fun i => x.size ≤ i)
  let (l, s) := s.lanesTx p idle ms all
  s.emit (.frame p (laneMask act) l)

/-- The transmitting direction's lane changes at the SEQ to be sent. -/
def PortSt.txLanes (x : PortSt) : PortSt :=
  let (a, c) := laneApply x.seqTx x.txAct x.txChange
  let back := (x.txChange.filter (fun e => seqLe e.2.1 x.seqTx && e.2.2)).map (fun e => e.1)
  { x with txAct := a, txChange := c, txCal := x.txCal.filter (fun i => !back.contains i) }

/-- FRAME_TIME: training blocks in DETECT and EQUALIZE, frames in LOCK and after it, one per active lane, with units from the retry
buffer or as the output grants them (R218, R219, R221, R231). -/
def State.frameTime (s : State) (p : Nat) : State :=
  let st := s.fget (LNK_STAT.STATE p)
  if st = 0 || 6 < st then s
  else if st < 3 then s.sendLanes p [] []
  else
    let s := if st = 3 then s else s.modPo p PortSt.txLanes
    let act := if st = 3 then s.usable p else (s.po p).txAct
    let w := act.length
    let full := 256 ≤ (s.po p).retry.length || st < 5
    let (us, y) := if full then (List.replicate (20 * w) (0, (0 : XUnit)), s.po p) else (s.po p).fill (s.txRules p) (20 * w) false
    let s := s.modPo p (fun _ => { y with tokens := min 66 (y.tokens + 1) })
    let (cs, s) := s.ctlTake p (w / 2)
    let x := s.po p
    let s := s.sendLanes p act ((List.range w).map (fun i => (act.getD i 0, txMsg w x.seqTx (x.seqRx + 4095) us cs i)))
    if st = 3 then s
    else s.modPo p (fun x => { x with
      seqTx := (x.seqTx + 1) % 4096, retry := x.retry ++ [⟨x.seqTx, us.filter (fun u => u.1 ≠ 0), s.now⟩] })

/-! ### Optics and the reference clock (R244, R473) -/

/-- A port that waits for its optical module: one of a revision before CMIS 5.0 stays EXCLUDED with "optics alarm"; DETECT follows once
the data paths are up, and one that is not ready within 2 s counts as failed (DESIGN CHOICE, log entry 59). -/
def State.opticsWait (s : State) (p : Nat) (early : Bool) : State :=
  match (s.po p).optAt with
  | none => s
  | some t =>
    if early || (!s.flag (LNK_CMIS.READY p) && t + sUnits 2 ≤ s.now) then
      ((s.modPo p (fun x => { x with optAt := none })).lnkState p 8).raise 0x0708 (linkSrc p 0) 0 0
    else if s.flag (LNK_CMIS.READY p) then (s.modPo p (fun x => { x with optAt := none })).lnkState p 1
    else s

/-- CMIS_MONITOR_POLL: `rev` is the module's CMIS revision, the major number in its upper half. READY is shown while the data
paths of a ready module are initialised, which they are from before DETECT until OFF or EXCLUDED (R244). -/
def State.cmisPoll (s : State) (p : Nat) (present ready : Bool) (rev temp : Nat) : State :=
  if s.fget (LNK_CTL.MEDIUM p) ≠ 2 then s
  else
    let early := present && decide (rev < 0x50)
    let st := s.fget (LNK_STAT.STATE p)
    let up := present && ready && !early && ((s.po p).optAt.isSome || (st ≠ 0 && st ≠ 8))
    let s := (s.fset (LNK_CMIS.PRESENT p) (b2n present)).fset (LNK_CMIS.READY p) (b2n up)
    (if present then s.fset (LNK_CMIS.TEMP p) temp else s).opticsWait p early

/-- "Optics alarm" (R244). -/
def State.opticsAlarm (s : State) (p flags : Nat) : State := (s.fset (LNK_CMIS.ALARM p) 1).raise 0x0708 (linkSrc p 0) 0 flags

/-- CMIS_FLAG_POLL: a warning is a NOTE, an alarm is "optics alarm", receive LOS is loss of signal on its lane. -/
def State.cmisFlags (s : State) (p : Nat) (warn alarm : Bool) (flags : Nat) (los : Word) : State :=
  if s.fget (LNK_CTL.MEDIUM p) ≠ 2 then s
  else
    let s := if alarm then s.opticsAlarm p flags
      else if warn then s.raiseAs 0 0x0708 (linkSrc p 0) 0 flags else s
    State.eachOf ((List.range 32).filter los.getLsbD) (fun i s => s.laneFault p i true) s

/-- OPTICS_ABSENT: whole-link loss. -/
def State.opticsAbsent (s : State) (p : Nat) : State :=
  if s.fget (LNK_CTL.MEDIUM p) ≠ 2 then s
  else
    let s := (s.fset (LNK_CMIS.PRESENT p) 0).fset (LNK_CMIS.READY p) 0
    let st := s.fget (LNK_STAT.STATE p)
    if 4 ≤ st && st ≤ 6 then s.portReset p else s

/-- SYSCLK_LOSS (its return shows in the next detection of a signal; DESIGN CHOICE, log entry 67): every port loses lock and retrains, and the tick master runs in holdover. -/
def State.sysclkLoss (s : State) : State :=
  let s := { s with pins := { s.pins with sysclk := false } }
  let s := s.each 16 (fun p s =>
    let st := s.fget (LNK_STAT.STATE p)
    if 1 ≤ st && st ≤ 6 then s.portReset p else s)
  let s := { s with tick := { s.tick with holdover := some (s.tick.holdover.getD s.now), window := 0 } }
  ((s.fset TCK_SYNC_STAT.HOLDOVER 1).fset TCK_SYNC_STAT.ACT_PARENT 15).fset TCK_SYNC_STAT.LOCKED 0

/-! ### Commands -/

/-- LINK_CALIBRATION_WINDOW (R241). -/
def execLinkCalibrationWindow (p : Port) (heights widths : BitVec 8 × BitVec 8 × BitVec 8) (s : State) : Result :=
  done s (s.calWindow p.val heights widths)
/-- FRAME (R220). -/
def execFrame (port : Port) (rx : LanesRx) (s : State) : Result := done s (s.frame port.val rx.act rx.lanes)
/-- FRAME_TIME (R219). -/
def execFrameTime (port : Port) (s : State) : Result := done s (s.frameTime port.val)
/-- NAK (R221). -/
def execNak (port : Port) (seq : BitVec 12) (s : State) : Result := done s (s.replayFrom port.val seq.toNat)
/-- ACK_TIMEOUT (R221). -/
def execAckTimeout (port : Port) (s : State) : Result := done s (s.ackTimeout port.val)
/-- TICK_EDGE (R224). -/
def execTickEdge (port : Port) (low : BitVec 8) (s : State) : Result := done s (s.tickEdge port.val low.toNat)
/-- REFUSE (R191). -/
def execRefuse (slice : BitVec 12) (step : BitVec 16) (s : State) : Result := done s (s.refuseArrives slice.toNat step.toNat)
/-- LANE_DROP (R239). -/
def execLaneDrop (port : Port) (lane : Fin 32) (seq : BitVec 12) (calib : Bool) (s : State) : Result :=
  done s (s.laneDrop port.val lane.val seq.toNat calib)
/-- LANE_ADD (R240). -/
def execLaneAdd (port : Port) (lane : Fin 32) (seq : BitVec 12) (s : State) : Result :=
  done s (s.laneChange port.val lane.val seq.toNat true)
/-- IDENT (R232, R233). -/
def execIdent (port : Port) (seg : BitVec 4) (data : Word) (s : State) : Result :=
  done s (s.identSeg port.val seg.toNat data)
/-- ECHO (R230). -/
def execEcho (port : Port) (token : BitVec 12) (s : State) : Result := done s (s.ctlSend port.val (10 + token.toNat * 2 ^ 4))
/-- ECHO_REPLY (R230). -/
def execEchoReply (port : Port) (token : BitVec 12) (s : State) : Result := done s (s.echoReply port.val token.toNat)
/-- TRAINING_BLOCK (R231). -/
def execTrainingBlock (port : Port) (lane : Fin 32) (head pattern : List (BitVec 2)) (s : State) : Result :=
  done s (s.trainBlock port.val lane.val (head ++ pattern))
/-- SIGNAL_DETECT (R230). -/
def execSignalDetect (port : Port) (lanes : Word) (s : State) : Result := done s (s.signal? port.val lanes)
/-- EQUALIZE_TIMEOUT (R230). -/
def execEqualizeTimeout (port : Port) (s : State) : Result := done s (s.equalizeOver port.val)
/-- EXCLUDED_RETRY (R230). -/
def execExcludedRetry (port : Port) (s : State) : Result := done s (s.excludedRetry port.val)
/-- PORT_ENABLE (R230). -/
def execPortEnable (m : Master) (port : Port) (v : Word) (s : State) : Result :=
  done s (s.gate true m (LNK_CTL.off port.val) v (fun s => s.lnkCtl m port.val v))
/-- RETRAIN (R235). -/
def execRetrain (m : Master) (port : Port) (v : Word) (s : State) : Result :=
  done s (s.gate true m (LNK_CTL.off port.val) v (fun s => s.lnkCtl m port.val v))
/-- UNPARK (R240). -/
def execUnpark (m : Master) (port : Port) (v : Word) (s : State) : Result :=
  done s (s.gate true m (LNK_CTL.off port.val) v (fun s => s.lnkCtl m port.val v))
/-- DATA_EN (R234). -/
def execDataEn (m : Master) (port : Port) (v : Word) (s : State) : Result :=
  done s (s.gate true m (LNK_CTL.off port.val) v (fun s => s.lnkCtl m port.val v))
/-- EXPECTATION_WRITE (R233). -/
def execExpectationWrite (m : Master) (port : Port) (idx : Fin 5) (v : Word) (s : State) : Result :=
  done s (s.gate true m (if idx.val < 4 then LNK_EXP.off port.val idx.val else LNK_EXP_ID.off port.val) v
    (fun s => s.expWrite m port.val idx.val v))
/-- LANE_FAULT (R239). -/
def execLaneFault (port : Port) (lane : Fin 32) (cause : LaneCause) (s : State) : Result :=
  done s (s.laneFault port.val lane.val (decide (cause = .signal)))
/-- LANE_CLEAN (R240). -/
def execLaneClean (port : Port) (lane : Fin 32) (s : State) : Result := done s (s.laneClean port.val lane.val)
/-- RETRY_STORM (R242). -/
def execRetryStorm (port : Port) (dominant : Option (Fin 32)) (s : State) : Result :=
  done s (s.retryStorm port.val (dominant.map Fin.val))
/-- CMIS_MONITOR_POLL (R244); no READY where no optical module answers. -/
def execCmisMonitorPoll (port : Port) (ready : Option Bool) (rev temp : BitVec 8) (s : State) : Result :=
  done s (s.cmisPoll port.val ready.isSome (ready.getD false) rev.toNat temp.toNat)
/-- CMIS_FLAG_POLL (R244). -/
def execCmisFlagPoll (port : Port) (warn alarm : Bool) (flags : BitVec 8) (los : Word) (s : State) : Result :=
  done s (s.cmisFlags port.val warn alarm flags.toNat los)
/-- OPTICS_ABSENT (R244). -/
def execOpticsAbsent (port : Port) (s : State) : Result := done s (s.opticsAbsent port.val)
/-- SYSCLK_LOSS (R473). -/
def execSysclkLoss (s : State) : Result := done s s.sysclkLoss

end Sys2Proof.Machine
end

