-- ==== Sys2Proof/Machine/Completion.lean ====
section
/-! DEFINITION. The checks at the close point K (R53, R59, R110, R291) and the commit check (R191). -/

namespace Sys2Proof.Machine

/-! ### What has not finished at K -/

/-- The cores that have overrun: not at END, or at END later than K (R59). -/
def State.lateCores (s : State) (n : Nat) : List Nat :=
  let k := s.closePoint n
  (s.coresOf n).filter (fun c => let x := s.co c; !x.atEnd || decide (k < s.endAt x.cyc))

/-- The sources of a hang indicator of a context's aborted tick (R361). -/
def State.hangNote (s : State) (n : Nat) (l : List Word) : State :=
  { s with flt := { s.flt with lastTot := s.flt.lastTot.filter (fun e => e.1 ≠ n) ++ l.map (fun w => (n, w)) } }

/-- Overrun of some cores: each is reported; the tick aborts, with OVR_HOLD into HOLD (R59). -/
def State.overrun (s : State) (n : Nat) (l : List Nat) : State :=
  if l.isEmpty then s
  else
    let s := State.eachOf l (fun c s => s.raise 0x0201 (s.coreSrc c) 0 (s.co c).entry) s
    let s := (s.fcount (TCK_SL_OVERRUNS.OVERRUNS n) 1).hangNote n (l.map s.coreSrc)
    if s.flag (TCK_SL_CTL.OVR_HOLD n) then s.abortHold n 1 else s.abortTick n 1

/-- The check of the cores. -/
def State.checkCores (s : State) (n : Nat) : State := s.overrun n (s.lateCores n)

/-- The strand records of a context that deliver at a router and have not carried their units: source word and SID. -/
def State.lateStrands (s : State) (n : Nat) : List (Word × Nat) :=
  (s.ctxParts n).flatMap (fun d => (List.range 75).flatMap (fun c =>
    let q := s.physClus d c
    let (x, y) := meshXY d q
    ((s.strands n (routerAgent s.modId d c)).filter (fun r =>
      r.outs.any (fun o => decide (4 ≤ o) || (meshNext x y o).isNone) &&
        decide ((s.rt (meshKey d q)).seen (s.slId n) r.sid < r.units))).map (fun r => (srcWord d q 0, r.sid))))

/-- The SID of the strand that an out port feeds, 0 without one. -/
def State.portSid (s : State) (n k : Nat) (port : Bool) : Nat :=
  (((s.strands n (routerAgent s.modId (corePart k) (coreClus k))).find? (fun r =>
    r.inp = 4 && r.srcCore = coreIdx k && r.srcPort == port)).map StrandRec.sid).getD 0

/-- The cores of a context that have units left on an out port: source word and the SID that the port feeds (R137). -/
def State.lateOuts (s : State) (n : Nat) : List (Word × Nat) :=
  (s.coresOf n).flatMap (fun k =>
    let c := s.co k
    (if c.out0.isEmpty then [] else [(s.coreSrc k, s.portSid n k false)]) ++
      (if c.out1.isEmpty then [] else [(s.coreSrc k, s.portSid n k true)]))

/-- Strand stall of some strands, each with its source word and SID. -/
def State.strandStall (s : State) (n : Nat) (l : List (Word × Nat)) : State :=
  if l.isEmpty then s
  else ((State.eachOf l (fun e s => s.raise 0x0303 e.1 0 e.2) s).hangNote n (l.map Prod.fst)).abortTick n 4

/-- The check of the strands: one that has not carried its units, or units left on an out port (R53, R137). -/
def State.checkStrands (s : State) (n : Nat) : State := s.strandStall n (s.lateStrands n ++ s.lateOuts n)

/-- Whether an in port lacks messages: one is incomplete, or EXPECT is nonzero and not met exactly (R110). -/
def InPort.lacks (x : InPort) (expect : Nat) : Bool :=
  x.msgs.any (fun m => m.seqs.length ≠ m.count) || (expect ≠ 0 && x.complete ≠ expect)

/-- The in ports of a context that lack messages: core and port. -/
def State.latePorts (s : State) (n : Nat) : List (Nat × Bool) :=
  (s.coresOf n).flatMap (fun c =>
    let g := s.coreCfg n c
    let x := s.co c
    (if x.in0.lacks g.in0.expect then [(c, false)] else []) ++ (if x.in1.lacks g.in1.expect then [(c, true)] else []))

/-- Whether a tree at an agent lacks contributions, or its root has chunks left to send (R291). -/
def State.treeLate (s : State) (n k i : Nat) (r : TreeRec) : Bool :=
  let t := s.tree k i
  let cs := List.range r.chunks
  cs.any (fun c => (s.expected n r t.alt).any (fun e => !t.got.contains (e, c))) ||
    (r.rooted t.alt && cs.any (fun c => !t.sent.contains c))

/-- The trees of a context that are late: cluster and RID. -/
def State.lateTrees (s : State) (n : Nat) : List (Nat × Nat) :=
  (s.ctxParts n).flatMap (fun p => (List.range 75).flatMap (fun c =>
    let rs := s.trees n p c
    (List.range rs.length).filterMap (fun i =>
      match rs[i]? with
      | some r => if s.treeLate n (p * 75 + c) i r then some (p * 75 + c, r.rid) else none
      | none => none)))

/-- Counted write messages of a partition that are incomplete. -/
def State.lateWrites (s : State) (n : Nat) : List (Nat × MsgSt) :=
  (s.ctxParts n).flatMap (fun p => ((s.pt p).msgs.filter (fun m => m.seqs.length ≠ m.count)).map (fun m => (p, m)))

/-- A mirror message missing at K: its engine and the job that it names (R164). -/
def State.mirrorMiss (s : State) (p msg : Nat) : State :=
  let e := (msg - 0xE000) / 4 % 8
  (s.fset (PRT_UPE_STAT.MIR_MISS p e) 1).raise 0x0503 (s.engSrc (8 * p + e)) 0 ((msg - 0xE000) / 32)

/-- A counted write that is incomplete: a mirror message sets MIR_MISS, any other one is a missing message. -/
def State.writeMiss (s : State) (p : Nat) (m : MsgSt) : State :=
  if 0xE000 ≤ m.msg then s.mirrorMiss p m.msg else s.raise 0x0205 (srcWord p 0 0) 0 0

/-- Every packet that waits on this module: at a router, at a port, or returned from one. -/
def State.queued (s : State) : List Packet :=
  s.rtr.flatMap (fun r => r.2.bufs.flatMap (fun b => b.2.map Queued.pkt) ++ r.2.offer.flatMap Prod.snd) ++
    s.port.flatMap (fun p => p.2.txq.flatMap Prod.snd ++ p.2.inflight.map Prod.fst ++ p.2.waiting.map Prod.fst)

/-- The mirror messages that a context's engines have sent and that have not left this module: partition and message number. A
message of which nothing has arrived is unknown at its destination, so its sender finds it missing (R164; DESIGN CHOICE, log entry
56). -/
def State.lateMirrors (s : State) (n : Nat) : List (Nat × Nat) :=
  (s.queued.filter (fun q => q.typ = 7 && epMod q.src = s.modId && q.slice.toNat = s.slId n)).foldl (fun l q =>
    let e := (epPart q.src, q.msg.toNat)
    if l.contains e then l else l ++ [e]) []

/-- Missing contribution: of core ports, of trees, of counted writes, of mirror messages. -/
def State.missing (s : State) (n : Nat) (ps : List (Nat × Bool)) (ts : List (Nat × Nat)) (ws : List (Nat × MsgSt)) (ms : List (Nat × Nat)) :
    State :=
  if ps.isEmpty && ts.isEmpty && ws.isEmpty && ms.isEmpty then s
  else
    let s := State.eachOf ps (fun e s => s.raise 0x0205 (s.coreSrc e.1) 0 (b2n e.2)) s
    let s := State.eachOf ts (fun e s => s.raise 0x0304 (s.clusSrc e.1) 0 e.2) s
    let s := State.eachOf ws (fun e s => s.writeMiss e.1 e.2) s
    let s := State.eachOf ms (fun e s => s.mirrorMiss e.1 e.2) s
    s.abortTick n 3

/-- The check of what has to arrive. -/
def State.checkMessages (s : State) (n : Nat) : State :=
  s.missing n (s.latePorts n) (s.lateTrees n) (s.lateWrites n) (s.lateMirrors n)

/-- The job of which an engine has elements or tiles of the tick left. -/
def State.engLate (s : State) (n k : Nat) : Option Nat :=
  if s.engLost (k / 8) (k % 8) then none
  else match s.engJob n k with
    | some u => if s.quota k u ≠ 0 && !(s.en k).ran then some u.idx else none
    | none =>
      match s.pubWork n k with
      | some (i, _, t, qt) => if (s.en k).pubTick < min qt (t - (s.en k).pubNext) then some i else none
      | none => none

/-- Update engine timeout of some engines, each with its job. -/
def State.engTimeout (s : State) (n : Nat) (l : List (Nat × Nat)) : State :=
  if l.isEmpty then s
  else ((State.eachOf l (fun e s => s.raise 0x0501 (s.engSrc e.1) 0 e.2) s).hangNote n (l.map (fun e => s.engSrc e.1))).abortTick n 5

/-- The check of the engines. -/
def State.checkEngines (s : State) (n : Nat) : State :=
  let ks := (s.ctxParts n).flatMap (fun p => (List.range 8).map (fun e => 8 * p + e))
  s.engTimeout n (ks.filterMap (fun k => (s.engLate n k).map (fun j => (k, j))))

/-! ### The commit check (R191) -/

/-- Whether this module can take part in a commit: it is locked, in ACTIVE, without a GRAVE latch, no member partition of the new
rigging on it is in reset, and no member has been lost since the commit was armed (R191, R196). -/
def State.mayCommit (s : State) (n : Nat) : Bool :=
  s.isLocked && !s.flag FLT_STAT.GRAVE && s.fget PWR_STAT.STATE = 0 && !(s.cx n).lost &&
    (maskParts ((s.shadMap n).mask s.modId)).all (fun p => !s.flag (PRT_RST_STAT.BUSY p) && !(s.pt p).held && !(s.pt p).closed)

/-- The commits of this step that this module is not ARMED for: it refuses each (R191). -/
def State.refuseUnarmed (s : State) : State :=
  let l := s.tick.unarmed.filter (fun e => e.2 = s.step + 1)
  let s := { s with tick := { s.tick with unarmed := s.tick.unarmed.filter (fun e => s.step + 1 < e.2) } }
  State.eachOf l (fun e s => (s.ctlAll (refuseMsg e.1 e.2)).raise 0x0105 0 e.2 e.1) s

/-- At K of the tick that ends at the commit step, a module that fails a check refuses the commit. -/
def State.commitCheck (s : State) (n : Nat) : State :=
  let s := s.refuseUnarmed
  let at_ := s.pair (RIG_SL_AT_LO.off n)
  if s.fget (RIG_SL_STAT.SHADOW n) ≠ 3 || at_ ≠ s.step + 1 || s.mayCommit n then s
  else (s.refuseArrives (s.slId n) (at_ % 2 ^ 16)).raise 0x0105 0 at_ (s.slId n)

/-- COMPLETION_CHECK (R53): the checks of a tick that works, then the commit check. -/
def State.completion (s : State) (n : Nat) : State :=
  let t := if s.working n then (((s.checkCores n).checkStrands n).checkMessages n).checkEngines n else s
  t.commitCheck n


end Sys2Proof.Machine
end

