-- ==== Sys2Proof/Machine/Views.lean ====
section
/-! DEFINITION. Reads of BAR0 without side effects: the value that each register and window shows a master (R136, R167, R216,
R304, R355, R377, R385, R423, R432, R435, R452, R478, R484 to R489). -/

namespace Sys2Proof.Machine

/-! ### Fuses (R385, R486) -/

/-- The fuse bytes of the hub die that hold something: SECRET reads 0. -/
def Fuses.hubBytes (f : Fuses) : List Byte :=
  padTo 8 0 (leBytes 4 (f.variant.toNat + f.clkFuse.toNat * 2 ^ 4 + f.plimFuse.toNat * 2 ^ 16 + f.pkgRev.toNat * 2 ^ 24)) ++
    leBytes 8 f.serial.toNat ++ padTo 80 0 (leBytes 18 f.laneBad.toNat) ++ leBytes 32 f.fuseDig.toNat

/-- Byte `b` of the fuse space of compute die `d`. -/
def State.dieByte (s : State) (d b : Nat) : Byte :=
  if b < 0x14 then
    BitVec.ofNat 8 ((List.range 4).foldl (fun m i => m + s.clusCode d (4 * b + i) * 4 ^ i) 0)
  else if b = 0x18 then BitVec.ofNat 8 (match s.die d with | none => 15 | some f => f.engBad.toNat)
  else if 0x20 ≤ b && b < 0x28 then
    (match s.die d with | none => 0 | some f => BitVec.ofNat 8 (f.dieSer.toNat / 256 ^ (b - 0x20)))
  else if 0x40 ≤ b && b < 0x2C0 then
    let l := s.coreOff d ((b - 0x40) / 8)
    let w := (List.range 6).foldl (fun m j =>
      match l[j]? with | none => m | some e => m + (e.1 + 256 * b2n e.2) * 2 ^ (9 * j)) 0
    BitVec.ofNat 8 (w / 256 ^ ((b - 0x40) % 8))
  else if 0x1000 ≤ b && b < 0x9000 then
    (match s.die d with
      | none => 0
      | some f => BitVec.ofNat 8 ((f.rowRep.getD ((b - 0x1000) / 4) 0).toNat / 256 ^ (b % 4)))
  else 0

/-- A word of HUB_FUSE_WIN as a master's HUB_FUSE_SEL selects it. -/
def State.fuseWord (s : State) (m : Master) (o : Nat) : Word :=
  let die := s.mget m HUB_FUSE_SEL.DIE
  let b := 4096 * s.mget m HUB_FUSE_SEL.PAGE + o
  if die = 16 then BitVec.ofNat 32 (leAt s.fuses.hubBytes b 4)
  else if die < 16 then BitVec.ofNat 32 (leNat ((List.range 4).map (fun i => s.dieByte die (b + i))))
  else 0

/-! ### Core, engine, router and tree windows -/

/-- PRT_CORE_STAT of a logical core (R136). -/
def State.coreStat (s : State) (k : Nat) : Word :=
  let c := s.co k
  let pub := (s.coreCtx k).any (fun n => s.corePub n k)
  BitVec.ofNat 32 (c.entry % 32 + 32 * b2n c.atEnd + 64 * b2n pub + bits c.stat.toNat 17 8 * 2 ^ 8)

/-- PRT_CORE_CNT of a logical core (R136). -/
def State.coreCnt (s : State) (k : Nat) : Word :=
  let c := s.co k
  BitVec.ofNat 32 (c.in0.cons % 1024 + c.in1.cons % 1024 * 2 ^ 10 + c.drops * 2 ^ 20)

/-- The logical engine shown at a UPE slot: slot 8 shows the engine that physical engine 8 serves (R167). -/
def State.upeSlot (s : State) (p e : Nat) : Option Nat :=
  if e < 8 then some e else firstBelow 8 (fun l => s.physEng p l = 8)

/-- Whether the tick under way is a publication tick of a partition (R44). -/
def State.pubTickOf (s : State) (p : Nat) : Bool :=
  match s.ctxHolding p with
  | some n => (s.sched n).pub p (s.slStep n)
  | none => false

/-- PRT_UPE_STAT of a slot (R167). -/
def State.upeStat (s : State) (p e : Nat) : Word :=
  match s.upeSlot p e with
  | none => 0
  | some l =>
    let x := s.en (8 * p + l)
    let pub := s.pubTickOf p
    let cur := if pub then x.pubJob else x.run.map Prod.fst
    let job := cur.getD 0
    let st := if cur.isNone then 0 else if s.inSlot (8 * p + l) then 3 else if pub then 2 else 1
    BitVec.ofNat 32 (st + 4 * b2n (s.physEng p l = 8) + job % 256 * 2 ^ 8 +
      bits (s.reg (PRT_UPE_STAT.off p l)).toNat 19 16 * 2 ^ 16)

/-- PRT_UPE_DONE of a slot (R167). -/
def State.upeDone (s : State) (p e : Nat) : Word :=
  match s.upeSlot p e with
  | none => 0
  | some l => let x := s.en (8 * p + l); BitVec.ofNat 32 (if s.pubTickOf p then x.pubNext else x.done)

/-- The STRAND records that the agent of a router holds. -/
def State.rtrStrands (s : State) (p q : Nat) : Nat :=
  match s.ctxHolding p, s.logClus p q with
  | some n, some c => (s.sect n 0x0020 (routerAgent s.modId p c)).count
  | _, _ => 0

/-- Four byte-wide counts in a word. -/
def word4 (l : List Nat) : Word := BitVec.ofNat 32 (leNat ((padTo 4 0 l).map (fun x => BitVec.ofNat 8 (sat 8 x))))

/-- A register of the RTR sub-block (R216); `o` is its offset from 0x4000. -/
def State.rtrView (s : State) (m : Master) (p o : Nat) : Word :=
  let (r, c) := s.rtrSel m p
  let (x, y) := rtrXY r
  let (d, q) := meshDP x y
  let rt := s.rt r
  let cnt := Store.get (fun _ => RtrCnt.init) rt.cnt c
  let half (hi : Bool) (v : Nat) : Word := BitVec.ofNat 32 (if hi then v / 2 ^ 32 else v)
  match o with
  | 0x04 =>
    let edge := decide (c < 4) && (match meshNext x y c with
      | some (a, b) => decide ((meshDP a b).1 ≠ d)
      | none => true)
    let alt := (List.range 8).any (fun k => s.memRtr d k = q && (memPos k).1 ≠ q)
    BitVec.ofNat 32 (b2n (s.hasPort x y c) + 2 * b2n (s.inBypass d q) + 4 * b2n (edge && s.hasPort x y c) +
      8 * b2n alt + min 512 (s.rtrStrands d q) * 2 ^ 16)
  | 0x08 => half false cnt.pkt
  | 0x0C => half true cnt.pkt
  | 0x10 => half false cnt.byte
  | 0x14 => half true cnt.byte
  | 0x18 => half false cnt.stru
  | 0x1C => half true cnt.stru
  | 0x20 => half false cnt.stall
  | 0x24 => half true cnt.stall
  | 0x28 => word4 ((List.range 4).map (rt.depth c))
  | 0x2C => word4 cnt.qmax
  | 0x34 => BitVec.ofNat 32 (sat 16 cnt.strx)
  | 0x38 => BitVec.ofNat 32 (sat 16 rt.bad)
  | _ => 0

/-- PRT_RED_STAT of the record that a master selects (R304). -/
def State.redView (s : State) (m : Master) (p : Nat) : Word :=
  let c := s.mget m (PRT_RED_SEL.CLUS p)
  let i := s.mget m (PRT_RED_SEL.REC p)
  match s.ctxHolding p with
  | none => 0
  | some n =>
    match if c < 75 then (s.trees n p c)[i]? else none with
    | none => 0
    | some r =>
      let t := s.tree (75 * p + c) i
      BitVec.ofNat 32 (1 + 2 * b2n t.alt + bits t.stat.toNat 12 2 * 2 ^ 2 + r.rid * 2 ^ 16)

/-- PRT_SPARE (R377). -/
def State.spareView (s : State) (p : Nat) : Word :=
  let core := (List.range 75).foldl (fun m c => min m (s.spareCores p c).length) 6
  BitVec.ofNat 32 (min 5 (s.spareClusters p).length + core * 2 ^ 3 +
    b2n ((s.engBad p).isSome || (s.pt p).engSub.isSome) * 2 ^ 6 + sat 16 (s.pt p).remaps * 2 ^ 16)

/-- PRT_ID (R487). -/
def State.prtId (s : State) (p : Nat) : Word :=
  let up := b2n (s.flag (PRT_ID.POWERED p))
  match s.ctxHolding p with
  | some n =>
    if s.flag (RIG_SL_STAT.ACTIVE n) then BitVec.ofNat 32 (p + up * 2 ^ 4 + 2 ^ 5 + s.slId n * 2 ^ 6)
    else BitVec.ofNat 32 (p + up * 2 ^ 4)
  | none => BitVec.ofNat 32 (p + up * 2 ^ 4)

/-! ### The indirect window (R488) -/

/-- The context whose shadow state covers a partition of this module. -/
def State.shadCtx (s : State) (p : Nat) : Option Nat :=
  firstBelow 16 (fun n => s.fget (RIG_SL_STAT.SHADOW n) ≠ 0 && ((s.shadMap n).mask s.modId).testBit p)

/-- The records of an engine's job list at the 112-byte stride. -/
def jobBytes (x : Sect) (e : Nat) : List Byte :=
  ((jobRecs x.count x.bytes).filter (fun r => r.1 = e)).flatMap (fun r => padTo 112 0 (padTo 16 0 (leBytes 4 r.2.1) ++ r.2.2))

/-- The bytes of an indirect object, none where the selection is denied. -/
def State.indObject (s : State) (p clus core obj sub : Nat) (shadow : Bool) : Option (List Byte) :=
  let isCore := decide (clus < 75) && decide (core < 250)
  let isRtr := decide (clus < 75) && core = 0xFF
  let isEp := decide (clus = 0x7E)
  let n? := if shadow then s.shadCtx p else s.ctxHolding p
  let l := match n? with | none => [] | some n => if shadow then (s.cx n).shadow else (s.cx n).active
  let dg := match n? with | none => [] | some n => if shadow then (s.cx n).shadDigs else (s.cx n).digs
  let ra := routerAgent s.modId p clus
  let ea := endpointAgent s.modId p
  let digOf (a : Nat) : List Byte := ((dg.find? (fun d => d.1 = a)).map Prod.snd).getD []
  let sec (typ a : Nat) : List Byte := (sectOf l typ a).bytes
  let cfg := (coreCfgIn (sectOf l 0x0010 ra) core).raw
  if obj = 0 then if isCore then some (slice cfg 0 32) else none
  else if obj = 1 then if isCore then some (slice cfg 32 512) else none
  else if obj = 2 then if isCore then some (slice cfg 544 512) else none
  else if obj = 3 then
    let idle := match s.ctxHolding p with | none => true | some n => s.slState n = 0 || s.slState n = 5
    if shadow then some []
    else if isCore && decide (sub < 24) && idle then
      let c := s.co ((75 * p + clus) * 250 + core)
      some ((List.range 8192).map (fun o => Store.get byteZero c.banks (8192 * sub + o)))
    else none
  else if obj = 4 then if isRtr then some (sec 0x0011 ra) else none
  else if obj = 5 then if isRtr then some (sec 0x0012 ra) else none
  else if obj = 6 then if isRtr then some (sec 0x0020 ra) else none
  else if obj = 7 then if isRtr then some (sec 0x0022 ra) else none
  else if obj = 8 then if isRtr then some (digOf ra) else none
  else if obj = 9 then if isEp then some (sec 0x0031 ea) else none
  else if obj = 10 then
    if isEp && decide (sub < 8) then some (jobBytes (sectOf l 0x0032 ea) sub) else none
  else if obj = 11 then if isEp then some (sec 0x0030 ea) else none
  else if obj = 12 then if isEp then some (digOf ea) else none
  else none

/-- The object that a master's selectors name. -/
def State.indSel (s : State) (m : Master) (p : Nat) : Option (List Byte) :=
  s.indObject p (s.mget m (PRT_IND_SEL.CLUS p)) (s.mget m (PRT_IND_SEL.CORE p)) (s.mget m (PRT_IND_SEL.OBJ p))
    (s.mget m (PRT_IND_SEL.SUB p)) (s.mget m (PRT_IND_SEL.SHADOW p) = 1)

/-- A word of PRT_IND_WIN: 0 where the selection is denied. -/
def State.indWord (s : State) (m : Master) (p o : Nat) : Word :=
  match s.indSel m p with
  | none => 0
  | some l => BitVec.ofNat 32 (leAt l (4096 * s.mget m (PRT_IND_OFF.PAGE p) + o) 4)

/-! ### Collector and recorder windows (R355, R435) -/

/-- The eight words of the oldest queue entry (R355). -/
def State.qWords (s : State) : List Nat :=
  match s.flt.queue with
  | [] => []
  | e :: _ =>
    let f := e.msg
    [ f.code.toNat + b2n f.inj * 2 ^ 16 + f.gen.toNat * 2 ^ 17, f.src.toNat, bits f.addr.toNat 31 0,
      bits f.addr.toNat 47 32 + f.arg.toNat * 2 ^ 16, e.cls + 8 * b2n e.stale + 16 * b2n e.held,
      e.step.toNat % 2 ^ 32, e.step.toNat / 2 ^ 32, e.tb ]

/-- FLT_SRC_STAT0 of the entry that a master selects. -/
def State.srcView (s : State) (m : Master) : Word :=
  let e := s.srcEnt (s.mget m FLT_SRC_SEL.SEL)
  if e.state = 0 then 0
  else BitVec.ofNat 32 (e.state + sat 8 e.count * 2 ^ 2 + e.cls * 2 ^ 10 + sat 14 ((s.now - e.last) / sUnits 1) * 2 ^ 18)

/-- FLT_FRZ_STAT of an entry. -/
def FrzEnt.view (e : FrzEnt) : Word :=
  let low := if e.kind = 3 then e.rec_ % 32 else bits e.src.toNat 15 11
  if e.kind = 0 then 0
  else BitVec.ofNat 32 (e.kind + e.slice * 2 ^ 3 + (bits e.src.toNat 10 0 + low * 2 ^ 11) * 2 ^ 16)

/-! ### Security (R452) -/

/-- The word `i` of a key register block: KIND and VALID, then the digest. -/
def keyWord (k : Option (Nat × List Byte)) (i : Nat) : Word :=
  match k with
  | none => 0
  | some (kind, d) => if i = 0 then BitVec.ofNat 32 (kind + 4) else BitVec.ofNat 32 (leAt d (4 * (i - 1)) 4)

/-- SEC_IDPUB, SEC_SVN_MIN, SEC_KEY and SEC_FWKEY; `o` is the offset in the block. -/
def State.secView (s : State) (o : Nat) : Option Word :=
  if 0x60 ≤ o && o < 0xA0 then some (BitVec.ofNat 32 (leAt s.fuses.pub (o - 0x60) 4))
  else if o = 0xA0 then some (BitVec.ofNat 32 s.nor.svnMin)
  else if 0x100 ≤ o && o < 0x500 then
    let i := o % 0x40 / 4
    some (if i ≤ 8 then keyWord ((s.nor.keySlots.find? (fun e => e.1 = (o - 0x100) / 0x40)).map Prod.snd) i else 0)
  else if 0x500 ≤ o && o < 0x580 then
    let i := o % 0x40 / 4
    let j := (o - 0x500) / 0x40
    some (if i ≤ 8 then keyWord (some (0, Config.romKeyDigest (Fin.ofNat 2 j))) i else 0)
  else none

/-! ### Mailboxes (R421, R423, R432) -/

/-- MBX_STAT of a channel. -/
def State.mbxStat (s : State) (c : Nat) : Word :=
  let n := (s.mb c).queue.length
  let full := s.chanOpen c && decide (n = s.chanDepth c)
  let w := (s.reg (MBX_STAT.off c)).toNat
  BitVec.ofNat 32 (n + 32 * b2n full + bits w 9 6 * 2 ^ 6 + b2n (s.asleep (s.chanRecv c)) * 2 ^ 10 +
    s.mgen (s.chanSender c) * 2 ^ 16)

/-- A word of the MBX block, as the master that reads it sees it. -/
def State.mbxView (s : State) (m : Master) (off : Nat) : Word :=
  let o := off - 0x50000
  if o < 0x1000 then s.reg off
  else if o < 0x1400 then s.mbxStat ((o - 0x1000) / 4)
  else if 0x2400 ≤ o && o < 0x2500 then 0
  else if 0x4000 ≤ o && o < 0x8000 then 0
  else if 0x8000 ≤ o then
    let c := (o - 0x8000) / 0x80
    let w := o % 0x80 / 4
    if !s.mayRecv m c then 0
    else if w < 16 then (s.rxWords c).getD w 0
    else if w = 16 then s.rxHead c
    else 0
  else s.reg off

/-! ### The view -/

/-- The mask of the fields of a register that read 0 whatever is written: WO fields. -/
def woMask (off : Nat) : Nat :=
  match regRow? off with
  | none => 0
  | some r => r.mask (fun f => f.acc = .wo)

/-- A word of a partition's PRT window; `o` is the offset in the window. -/
def State.prtView (s : State) (m : Master) (p o off : Nat) : Word :=
  if o = 0 then s.prtId p
  else if 0x2000 ≤ o && o < 0x2240 then
    (if o % 0x40 = 0 then s.upeStat p ((o - 0x2000) / 0x40)
     else if o % 0x40 = 4 then s.upeDone p ((o - 0x2000) / 0x40) else 0)
  else if 0x4004 ≤ o && o < 0x4040 then s.rtrView m p (o - 0x4000)
  else if o = 0x5004 then s.redView m p
  else if o = 0x6014 then s.spareView p
  else if 0x7000 ≤ o && o < 0x8000 then s.indWord m p (o - 0x7000)
  else if 0x8000 ≤ o && o < 0x87D0 then
    let c := s.mget m (PRT_CORE_SEL.CLUS p)
    let k := (75 * p + c) * 250 + (o - 0x8000) / 8
    if 75 ≤ c then 0 else if o % 8 = 0 then s.coreStat k else s.coreCnt k
  else s.mreg m off

/-- The µs spent in a power state: what is counted, and in the state of now what has passed since (R401). -/
def State.resLive (s : State) (i : Nat) : Nat :=
  s.pair (PWR_RES_ACT_LO.off + 8 * i) + (if s.fget PWR_STAT.STATE = i && !s.pwr.off && s.pwr.fromTgt ≠ 4 then (s.now - s.pwr.stateAt) / usUnits 1 else 0)

/-- HUB_RST_CNT: the counted resets of the last 600 s (R364). -/
def State.cntLive (s : State) : Word :=
  let live (l : List Nat) : Nat := min 3 (l.filter (fun t => s.now < t + sUnits 600)).length
  BitVec.ofNat 32 (live s.rst.hubTimes + 4 * live s.rst.pcieTimes)

/-- FAB_LEASE: the lease left in µs (R337). -/
def State.leaseLeft (s : State) : Nat := sat 16 ((s.mgr.leaseEnd - s.now) / usUnits 1)

/-- What a read of a BAR0 offset shows a master, without the side effects of R479 and the limits of R411. -/
def State.view (s : State) (m : Master) (off : Nat) : Word :=
  if 0x1000 ≤ off && off < 0x2000 then s.fuseWord m (off - 0x1000)
  else if 0x50000 ≤ off && off < 0x60000 then s.mbxView m off
  else if 0x2000000 ≤ off && off < 0x3000000 then BitVec.ofNat 32 (leNat ((List.range 4).map (fun i =>
    Store.get byteZero s.sec.staging (off - 0x2000000 + i))))
  else if (regRow? off).isNone then 0
  else if 0x200000 ≤ off && off < 0x300000 then s.prtView m (off / 0x10000 % 16) (off % 0x10000) off
  else if 0x60000 ≤ off && off < 0x70000 then (s.secView (off - 0x60000)).getD (s.reg off)
  else if 0x48000 ≤ off && off < 0x50000 then
    let i := (off - 0x48000) / 4
    (s.evrRec (1024 * s.mget m EVR_PAGE.PAGE + i / 8)).getD (i % 8) 0
  else if 0x38000 ≤ off && off < 0x3C000 then BitVec.ofNat 32 (leNat ((List.range 4).map (fun i =>
    Store.get byteZero s.flt.window (off - 0x38000 + i))))
  else if off = FLT_Q_STAT.off then FLT_Q_STAT.QUEUED.into (s.reg off) s.flt.queue.length
  else if 0x30020 ≤ off && off < 0x30040 then BitVec.ofNat 32 (s.qWords.getD ((off - 0x30020) / 4) 0)
  else if off = FLT_SRC_STAT0.off then s.srcView m
  else if off = FLT_SRC_STAT1.off then (s.srcEnt (s.mget m FLT_SRC_SEL.SEL)).src
  else if off = FLT_FRZ_STAT.off then (s.frzEnt (s.mget m FLT_FRZ_SEL.SEL)).view
  else if off = HUB_MASTER.off then BitVec.ofNat 32 m.toNat
  else if off = HUB_ID0.off then HUB_ID0.DEVICE.into (s.reg off)
    (match s.fuses.variant.toNat with | 0 => 0x9640 | 1 => 0x9630 | _ => 0x9620)
  else if off = HUB_REV.off then BitVec.ofNat 32 (s.fuses.pkgRev.toNat * 257 + 0x10000)
  else if off = HUB_SERIAL_LO.off then BitVec.ofNat 32 s.fuses.serial.toNat
  else if off = HUB_SERIAL_HI.off then BitVec.ofNat 32 (s.fuses.serial.toNat / 2 ^ 32)
  else if off = PWR_VAR.off then BitVec.ofNat 32 (s.fuses.variant.toNat + s.fuses.clkFuse.toNat * 2 ^ 4 +
    s.fuses.plimFuse.toNat * 2 ^ 16 + s.fuses.pkgRev.toNat * 2 ^ 24)
  else if 0x20040 ≤ off && off < 0x20060 then
    BitVec.ofNat 32 (s.resLive ((off - 0x20040) / 8) / 2 ^ (if off % 8 = 4 then 32 else 0))
  else if off = FAB_MGR_STAT.off then FAB_MGR_STAT.MODE.into (s.reg off) s.shownMode
  else if off = HUB_RST_CNT.off then s.cntLive
  else if off = FAB_LEASE.off then FAB_LEASE.LEASE.into (s.reg off) s.leaseLeft
  else BitVec.ofNat 32 ((s.mreg m off).toNat - ((s.mreg m off).toNat &&& woMask off))

end Sys2Proof.Machine
end

