-- ==== Sys2Proof/Machine/Resets.lean ====
section
/-! DEFINITION. Reset domains and sluices (R356 to R360, R364, R371, R372, R416), spares and rotation (R365 to R369), and what each
reset clears (R405). -/

namespace Sys2Proof.Machine

/-! ### Notices and generations (R330, R360) -/

/-- RESET_NOTICE to the acting manager: partition mask, whole-module bit, and the generations of the partitions. -/
def State.notice (s : State) (mask : Nat) (whole : Bool) : State :=
  if s.flag FAB_MGR_ID.VALID then
    s.mgtSend (s.fget FAB_MGR_ID.ACTING) 0x29
      (leBytes 4 (mask % 2 ^ 16 + b2n whole * 2 ^ 16) ++ (List.range 16).map (fun p => BitVec.ofNat 8 (s.gen p)))
  else s

/-- A partition's generation advanced: after 0xFF comes 0x01 (R360). -/
def State.nextGen (s : State) (p : Nat) : State :=
  let g := s.gen p
  s.fset (PRT_RST_STAT.GEN p) (if g = 0xFF then 1 else g + 1)

/-- The generations of every function of the endpoint advanced (R374, R416). -/
def State.advFunctions (s : State) : State :=
  let s := (s.advGen 2).advGen 3
  s.each 64 (fun v s => s.advGen (0x10 + v))

/-! ### Units (R356) -/

/-- The tick of a partition's slice aborted for a reset of one of its units (R357). -/
def State.abortPart (s : State) (p cause : Nat) : State :=
  match s.ctxHolding p with
  | some n => s.abortTick n cause
  | none => s

/-- A core reset: sequencer, datapath, accumulators, port queues and generator. -/
def CoreSt.reset (c : CoreSt) : CoreSt := { c.boundary with silent := false }

/-- A tree record as a cluster reset leaves it: its working state is lost, its status and the configuration in force stay. -/
def TreeSt.reset (t : TreeSt) : TreeSt := { t.boundary with alt := t.alt, altNext := t.altNext }

/-- CORE_RESET of a logical core. -/
def State.coreReset (s : State) (p c i : Nat) : State :=
  let s := s.abortPart p 0xFF
  s.modCo ((75 * p + c) * 250 + i) CoreSt.reset

/-- An engine reset: the engine, its job progress and its generator; the runs that have ended stay on record, as do the headers it has
marked and the writes that the tick's replay leaves out (R49, R159, R356; DEDUCED, log entry 64). -/
def EngSt.reset (e : EngSt) : EngSt :=
  { EngSt.init with jobDone := e.jobDone, pubDone := e.pubDone, failed := e.failed, pend := e.pend, tick := e.tick, supp := e.supp }

/-- ENGINE_RESET of a logical engine; its write queue has drained. -/
def State.engineReset (s : State) (p e : Nat) : State := (s.abortPart p 0xFF).modEn (8 * p + e) EngSt.reset

/-! ### Completion of ladder steps (R361) -/

/-- The partitions that sources name. -/
def srcParts (l : List Word) : List Nat := l.foldl (fun a w => addKey a (bits w.toNat 3 0)) []

/-- The incidents whose latest step has just completed. -/
def State.endSteps (s : State) (f : Incident → Bool) : State :=
  { s with flt := { s.flt with incidents := s.flt.incidents.map (fun i => if i.ended.isNone && f i then { i with ended := some s.now } else i) } }

/-- The ladder steps that a partition's return to service completes. -/
def State.partBack (s : State) (p : Nat) : State := s.endSteps (fun i => i.step = 3 && (srcParts i.srcs).contains p)

/-- The ladder steps that the module's return to service completes. -/
def State.moduleBack (s : State) : State := s.endSteps (fun i => i.step = 4)

/-! ### Partition reset (R359, R371) -/

/-- A partition's sluice closed for a drain; that of a partition in reset is closed and has drained. -/
def State.closeSluice (s : State) (p : Nat) (d : DrainFor) : State :=
  if s.dieDown p then s
  else
  let s := s.modPt p (fun t => { t with closed := true, drain := some d, drainAt := s.now })
  if s.fget (PRT_RST_STAT.STATE p) = 4 then s
  else (s.fset (PRT_RST_STAT.STATE p) 1).fset (PRT_RST_STAT.BUSY p) 1

/-- The load of a partition's slice abandoned by a reset of the partition; a commit that was armed is missed (R12, R196). -/
def State.loadLost (s : State) (p : Nat) : State :=
  s.each 16 (fun n s =>
    if s.fget (RIG_SL_STAT.SHADOW n) ≠ 0 && ((s.shadMap n).mask s.modId).testBit p then
      let sid := s.slId n
      let s := s.unarm n
      if s.mgr.load.slices.contains sid then s.loseSlice sid 0x29 else s.dropShadow n
    else s)

/-- PARTITION_RESET asked: the sluice closes, the tick aborts, the managers are told. -/
def State.partitionReset (s : State) (p : Nat) : State :=
  if s.flag PWR_STAT.MOVING then { s with rst := { s.rst with later := addKey s.rst.later p } }
  else if s.partResetting p then s
  else ((s.abortPart p 6).loadLost p |>.closeSluice p .partition).notice (2 ^ p) false

/-- Everything of a partition that a reset clears: cores with their banks, clusters, engines, routers, PART and TICK registers;
LPDDR5 enters self refresh with its contents. -/
def State.clearPart (s : State) (p : Nat) : State :=
  let core : Store CoreSt := s.core.filterMap (fun e =>
    if corePart e.1 ≠ p then some e else if e.2.silent then some (e.1, { CoreSt.init with silent := true }) else none)
  let eng : Store EngSt := s.eng.filterMap (fun e =>
    if e.1 / 8 ≠ p then some e else if e.2.failed then some (e.1, { EngSt.init with failed := true }) else none)
  let s := { s with core := core, eng := eng, clus := s.clus.filter (fun e => e.1 / 75 ≠ p) }
  let s := s.each 80 (fun q s => s.modRt (meshKey p q) (fun _ => RtrSt.init))
  let s := s.each 8 (fun k s => s.modCh (8 * p + k) (fun c => { c with selfRef := true, slotEnd := 0, calLeft := 0, scrub := 0 }))
  let s := s.modPt p (fun t => { t with owner := none, msgs := [] })
  let s := s.releaseFrz (fun e => bits e.src.toNat 3 0 = p)
  s.resetRegs (fun r => r = Retain.part || r = Retain.tick) (partRegs p)

/-- The contexts that hold a partition, kept for its re-apply. -/
def State.noteHolders (s : State) (p : Nat) : State :=
  match (s.pt p).owner with
  | some n => s.modPt p (fun t => { t with reapply := if t.reapply.contains n then t.reapply else t.reapply ++ [n] })
  | none => s

/-- A partition put into reset: its generation advances (R360). -/
def State.enterReset (s : State) (p : Nat) : State :=
  let s := ((s.noteHolders p).clearPart p).nextGen p
  let s := s.modPt p (fun t => { t with closed := true, drain := none })
  if (s.pt p).oos then s.fset (PRT_RST_STAT.STATE p) 4 else (s.fset (PRT_RST_STAT.STATE p) 2).fset (PRT_RST_STAT.BUSY p) 1

/-- Channels trained and out of self refresh: `ps` are the partitions. -/
def State.channelsUp (s : State) (p : Nat) : State :=
  let s := s.each 8 (fun k s => s.modCh (8 * p + k) (fun c => { c with selfRef := false, slotAt := s.now }))
  s.fset (PRT_MEM_STAT.TRAINED p) 0xFF

/-- One slice re-applied on a partition: steps 1 to 3 and 5 of R194, banks that are not WEIGHT zeroed. -/
def State.reapplyCtx (s : State) (p : Nat) (n : Fin 16) : State × Bool :=
  let s := s.copyFaults n.val p
  match s.goodCopy n.val p with
  | none => (s, false)
  | some c =>
    let fits := !s.flag (RIG_SL_STAT.ACTIVE n.val) || s.slId n.val = c.sid
    if !c.holds || !fits then (s, false)
    else
      let was := s.flag (RIG_SL_STAT.ACTIVE n.val)
      let s := (s.applyCopy n p c (fun _ _ => false)).movedAgain n.val p
      (if was then s.fset (RIG_SL_STAT.WARM n.val) 1 else s.rewarm n.val c, true)

/-- PARTITION_REAPPLY: the reset is released, the sluice reopens, and with REAPPLY every slice that held the partition is
applied again (R371), once none of them runs (R30). -/
def State.partitionReapply (s : State) (p : Nat) : State :=
  let t := s.pt p
  let st := s.fget (PRT_RST_STAT.STATE p)
  if !(st = 2 || (st = 0 && t.closed && t.drain.isNone)) || t.held || s.pwr.stage < 8 || s.fget PWR_STAT.STATE ≠ 0 ||
      s.flag PWR_STAT.MOVING || t.reapply.any (fun n => s.ticking n.val) then s
  else
    let s := (s.channelsUp p).modPt p (fun t => { t with closed := false, reapply := [] })
    let s := (s.fset (PRT_ID.POWERED p) 1).fset (PRT_RST_STAT.STATE p) 3
    let (s, ok) := if s.flag (PRT_RST_CTL.REAPPLY p) && s.flag PWR_STAT.LP_VALID then
        t.reapply.foldl (fun x n => let y := x.1.reapplyCtx p n; (y.1, x.2 && y.2)) (s, true)
      else (s, true)
    let s := if ok then s else (s.fset (PRT_RST_STAT.REAPPLY_FAIL p) 1).modPt p (fun t => { t with owner := none })
    let s := s.settleTiles p (if ok && !t.reapply.isEmpty then 1 else 2)
    let s := if ok then s.repaired (.unitReset (Fin.ofNat 16 p)) else s
    ((s.fset (PRT_RST_STAT.STATE p) 0).fset (PRT_RST_STAT.BUSY p) 0).partBack p

/-- A partition placed in reset and held there (R344, R362). -/
def State.holdPart (s : State) (p : Nat) : State :=
  if (s.pt p).held then s else ((s.abortPart p 6).enterReset p).modPt p (fun t => { t with held := true })

/-- Every partition held in reset, the managers told, DATA_EN of every port cleared, a power cycle requested (R344, R362). -/
def State.holdModule (s : State) : State :=
  let s := (s.notice 0xFFFF true).each 16 (fun p s => s.holdPart p)
  let s := s.each 16 (fun p s => if s.flag (LNK_CTL.DATA_EN p) then (s.fset (LNK_CTL.DATA_EN p) 0).portEval p else s)
  (s.fset HUB_RST_STAT.PWR_CYCLE_REQ 1).alert 3

/-! ### The endpoint (R416) -/

/-- The endpoint's sluice closed for a drain. -/
def State.closeEndpoint (s : State) (d : DrainFor) : State :=
  { s with host := { s.host with closed := true, drain := some d, drainAt := s.now } }

/-- Every function reset; the link is down until it trains again. -/
def State.endpointDown (s : State) : State :=
  let h := { s.host with linkUp := false, d3hot := [], closed := true, drain := none, resetting := true, aer := [] }
  let s := { s with host := h }
  let s := ((s.fset HUB_PCIE_STAT.SPEED 0).fset HUB_PCIE_STAT.WIDTH 0).fset HUB_PCIE_STAT.FLIT 0
  (s.fset HUB_PCIE_STAT.L0P 0).advFunctions

/-- An endpoint reset that the module takes on its own counts towards out of service (R364). -/
def State.countEndpoint (s : State) : State :=
  let l := (s.rst.pcieTimes.filter (fun t => s.now < t + sUnits 600)) ++ [s.now]
  let s := { s with rst := { s.rst with pcieTimes := l } }
  let s := s.fset HUB_RST_CNT.PCIE_N (min 3 l.length)
  if 3 ≤ l.length && !s.flag HUB_RST_STAT.PCIE_OOS then (s.fset HUB_RST_STAT.PCIE_OOS 1).raise 0x0804 0 0 0 else s

/-! ### Module reset (R356, R372) -/

/-- A hub reset that counts: three within 600 s put the hub out of service (R364). -/
def State.countHub (s : State) : State :=
  let l := (s.rst.hubTimes.filter (fun t => s.now < t + sUnits 600)) ++ [s.now]
  let s := { s with rst := { s.rst with hubTimes := l } }
  let s := s.fset HUB_RST_CNT.HUB_N (min 3 l.length)
  if 3 ≤ l.length then s.fset HUB_RST_STAT.HUB_OOS 1 else s

/-- A start with the GRAVE latch set: every partition stays in reset and a power cycle is requested; a latch that the always-on
domain set alone starts its dump now (R344, R469). -/
def State.graveStart (s : State) : State :=
  if !s.flag FLT_STAT.GRAVE then s
  else
    let s := s.each 16 (fun p s => s.modPt p (fun t => { t with held := true, closed := true }))
    let s := (s.fset HUB_RST_STAT.PWR_CYCLE_REQ 1).alert 3
    let late := s.flt.graveAt.isNone
    let s := { s with flt := { s.flt with graveAt := some (s.flt.graveAt.getD s.now), graveDone := true } }
    if late && s.flag FLT_DUMP_CTL.AUTO then s.dumpStart true (s.fget FLT_STAT.GRAVE_CODE) 0 else s

/-- The granules of logical port p, 0 to 3, in every plan (R228). -/
def romGrans (p : Nat) : List Nat := [p, p + 9, p + 18, p + 27]

/-- The boot ROM: a fuse mismatch stops it; otherwise ports 0 to 3 train and it waits for firmware (R381). -/
def State.startRom (s : State) : State :=
  if s.flag HUB_RST_STAT.HUB_OOS then { s with pwr := { s.pwr with stage := 1 } }
  else if !s.fuses.intact then { s with pwr := { s.pwr with stage := 3 } }.raise 0x0006 0 0 0
  else
    let s := { s.graveStart with pwr := { s.pwr with stage := 5 }, sec := { s.sec with waitAt := s.now } }
    s.each 4 (fun p s =>
      let s := (s.fset (LNK_CTL.EN p) 1).setReg (LNK_GRAN0.off p) (BitVec.ofNat 32 (laneMask (romGrans p)))
      (s.fset (LNK_STAT.STATE p) 1).modPo p (fun x => { x with grans := romGrans p, since := s.now }))

/-- FAULT_N outside a pulse follows the GRAVE hold and SW_LOW (R348). -/
def State.pinFollow (s : State) : State :=
  { s with pins := { s.pins with faultN := s.flt.pulse.isSome || s.flag FLT_PIN.HELD || s.flag FLT_PIN.SW_LOW } }

/-- The fused values of the registers that copy a fuse at a reset (R482). -/
def State.fusedRegs (s : State) : State :=
  (s.fset PWR_CLK_SET.CLK s.fuses.clkFuse.toNat).fset PWR_PLIM.PLIM s.fuses.plimFuse.toNat

/-- SEC_NONCE renewed (R439). -/
def State.renewNonce (s : State) : State :=
  let (k, s) := s.fresh
  s.each 8 (fun i s => s.setReg (SEC_NONCE.off i) (BitVec.ofNat 32 ((Config.nonce k).toNat / 2 ^ (32 * i))))

/-- What every loss of the hub domain clears: MOD, PART and TICK registers and everything behind them, the snapshots of their pairs among
them (R10, R11). -/
def State.clearModule (s : State) : State :=
  let s := s.settle (fun _ => true) 2
  let s := s.each 16 (fun p s => (s.noteHolders p).clearPart p)
  let s := s.resetRegs (fun r => r = Retain.mod || r = Retain.part || r = Retain.tick) (fun _ => true)
  let s := s.fusedRegs
  let s := s.fset FLT_PIN.PULSING (b2n s.flt.pulse.isSome)
  { s with
    priv2 := [], tick := { TickSt.init with clk := s.fuses.clkFuse.toNat }, ctx := [], port := []
    fab := FabSt.init
    mgr := { MgrSt.init with staged := s.mgr.staged, stagedFeat := s.mgr.stagedFeat }
    flt := { FltSt.init with window := s.flt.window, pulse := s.flt.pulse, graveAt := s.flt.graveAt,
                             graveDone := s.flt.graveDone, dump := s.flt.dump, incidents := s.flt.incidents }
    sec := SecSt.init, att := ⟨[], none⟩, mbx := []
    host := { linkUp := false, d3hot := [], closed := false, drain := none, drainAt := 0, resetting := false, aer := [] }
    rst := { s.rst with kickAt := 0, pcieTimes := [], modWait := false, later := [] } }

/-- Partitions out of service stay so after every reset (R368); the sluices of the others stay closed until start-up. -/
def State.partsInReset (s : State) : State :=
  s.each 16 (fun p s =>
    let s := s.modPt p (fun t => { t with closed := true, drain := none })
    if (s.pt p).oos then s.fset (PRT_RST_STAT.STATE p) 4 else s)

/-- A partition without a remap list: no retirement, no rotation count and not out of service. -/
def PartSt.unmapped (t : PartSt) : PartSt :=
  { t with retired := [], coreSub := [], clusSub := [], engSub := none, oos := false, bypass := [], served := [], altMem := [],
           waiting := [], rotFrom := 0, remaps := 0 }

/-- The remap lists that an authorised CLEAR_REMAP named are cleared (R439). -/
def State.clearRemaps (s : State) : State :=
  let s := State.eachOf s.nor.remapClr (fun p s => s.modPt p PartSt.unmapped) s
  { s with nor := { s.nor with remapClr := [] } }

/-- The module reset itself, once every sluice has drained: start-up follows from step 3 of R381. The generations of the hub controller and
of the functions advance as it takes them out of reset (R374; DEDUCED, log entry 12). -/
def State.doModule (s : State) : State :=
  let s := s.fcount HUB_RST_MODS.MODS 1
  let s := s.each 16 (fun p s => s.nextGen p)
  let s := ((s.clearModule.clearRemaps.partsInReset.pinFollow).advGen 0).advFunctions
  let s := { s.renewNonce with pwr := { s.pwr with stage := 1, waves := 0, training := false } }
  if s.pwr.mainGood then s.startRom else s

/-- Whether every sluice has drained for a module reset. -/
def State.modDrained (s : State) : Bool :=
  (List.range 16).all (fun p => (s.pt p).drain.isNone) && s.host.drain.isNone

/-- The module reset goes ahead once every drain is over. -/
def State.tryModule (s : State) : State := if s.rst.modWait && s.modDrained then s.doModule else s

/-- MODULE_RESET asked: every sluice closes and RESET_NOTICE names the whole module. During a power transition it waits. -/
def State.moduleReset (s : State) : State :=
  if s.rst.modWait then s
  else if s.flag PWR_STAT.MOVING then { s with rst := { s.rst with modWait := true } }
  else
    let s := (s.notice 0xFFFF true).each 16 (fun n s => s.unarm n)
    let s := s.each 16 (fun p s => (s.abortPart p 6).closeSluice p .module)
    let s := s.closeEndpoint .module
    { s with rst := { s.rst with modWait := true } }

/-- SLICE_CONTEXT_RESET: the context returns to IDLE; its shadow and configuration go; peers are told (R356, Table 4). -/
def State.sliceContextReset (s : State) (n : Nat) : State :=
  let mask := if s.flag (RIG_SL_STAT.ACTIVE n) then (s.sliceMap n).mask s.modId else 0
  let s := s.idleCtx n
  if mask = 0 then s else s.notice mask false

/-! ### Drains (R359) -/

/-- Packets that stand in a partition's routers and send queues. -/
def State.outbound (s : State) (p : Nat) : Nat :=
  let rs := (List.range 80).foldl (fun a q =>
    let r := s.rt (meshKey p q)
    r.offer.foldl (fun b e => b + e.2.length) (r.bufs.foldl (fun b e => b + e.2.length) a)) 0
  s.core.foldl (fun a e => if corePart e.1 = p then a + e.2.sends.length else a) rs

/-- What follows a partition's drain. -/
def State.drained (s : State) (p : Nat) : State :=
  match (s.pt p).drain with
  | some .partition => s.enterReset p
  | some .module => (s.modPt p (fun t => { t with drain := none })).tryModule
  | some _ => s.modPt p (fun t => { t with drain := none })
  | none => s

/-- What follows the endpoint's drain. -/
def State.epDrained (s : State) : State :=
  match s.host.drain with
  | some .endpoint => s.endpointDown
  | some .module => { s with host := { s.host with drain := none } }.tryModule
  | some _ => { s with host := { s.host with drain := none } }
  | none => s

/-- DRAIN_COMPLETE: nothing outbound is left. -/
def State.drainComplete (s : State) : SluiceDom → State
  | .part p => if (s.pt p.val).drain.isSome && s.outbound p.val = 0 then s.drained p.val else s
  | .endpoint => s.epDrained

/-- What remains outbound discarded. -/
def State.discardOut (s : State) (p : Nat) : State :=
  let n := s.outbound p
  let s := s.each 80 (fun q s => s.modRt (meshKey p q) (fun r => { r with bufs := [], offer := [], fifo := [] }))
  let s := State.eachOf ((s.core.map Prod.fst).filter (fun k => corePart k = p)) (fun k s =>
    s.modCo k (fun c => { c with sends := [] })) s
  s.fcount (PRT_SLU_CNT.REFUSED p) n

/-- A partition's drain at its limit. -/
def State.drainLimit (s : State) (p : Nat) : State :=
  let s := (s.discardOut p).fset (PRT_RST_STAT.DRAIN_TMO p) 1
  (s.raise 0x0402 (srcWord p 0 0) 0 p).drained p

/-- DRAIN_TIMEOUT: the limit is reached; the reset goes ahead with 0x0402, whose ARG names the domain: a partition, or 16. -/
def State.drainTimeout (s : State) : SluiceDom → State
  | .part p =>
    let lim := usUnits (s.fget (PRT_RST_CTL.DRAIN p.val))
    if (s.pt p.val).drain.isSome && (s.pt p.val).drainAt + lim ≤ s.now then s.drainLimit p.val else s
  | .endpoint =>
    if s.host.drain.isSome && s.host.drainAt + usUnits 100 ≤ s.now then (s.raise 0x0402 0 0 16).epDrained else s

/-! ### Spares (R365 to R367) -/

/-- A bank whose bytes are undefined, under a number of the free values. -/
def undefBank (d b : Nat) : List (Nat × Byte) := (List.range 8192).map (fun i => (8192 * b + i, Config.undefByte d i))

/-- The banks of a replacement: consuming and committed halves and ACC as copied, or zero where a byte failed parity; filling and
shadow halves undefined; SCRATCH and UNUSED zero. `acc` false zeroes ACC banks. -/
def CoreSt.spareBanks (cfg : CoreCfg) (d : Nat) (acc : Bool) (c : CoreSt) : CoreSt :=
  let lost (b : Nat) : Bool := c.bad.any (fun x => x / 8192 = b)
  let kept (b : Nat) : Bool :=
    let r := cfg.role b
    !lost b && ((r = 4 && acc) || (rolePair r && readBank cfg c.odd b = b))
  let k := c.keepBanks kept
  let shadow := (List.range 24).filter (fun b => rolePair (cfg.role b) && readBank cfg c.odd b ≠ b)
  let banks := shadow.foldl (fun m b => (undefBank (d + b) b).foldl (fun m e => Store.put byteZero m e.1 e.2) m) k.banks
  { k.reset with banks := banks, bad := k.bad }

/-- Whether a bank that is copied to a replacement failed parity (R367). -/
def CoreSt.copyLost (cfg : CoreCfg) (c : CoreSt) : Bool :=
  c.bad.any (fun x => let b := x / 8192; let r := cfg.role b; r = 4 || (rolePair r && readBank cfg c.odd b = b))

/-- The WEIGHT banks of a core loaded from the current slots of their tiles; `own` is the core replaced, from whose bank a slot that
fails is written again (R149, R366). -/
def State.loadTiles (s : State) (n k : Nat) (own : CoreSt) : State :=
  let cfg := s.coreCfg n k
  s.each 24 (fun b s =>
    if cfg.role b ≠ 1 then s
    else match s.tileOf n k b with
      | none => s
      | some a =>
        match s.tileSource n a b own with
        | (s, some bs) => s.modCo k (CoreSt.putBank b bs)
        | (s, none) => s)

/-- Whether a tile of a core has a flip pending, which a load waits for (R159, R366). -/
def State.tilesPend (s : State) (n k : Nat) : Bool :=
  (List.range 24).any (fun b => match s.tileOf n k b with | some a => (s.tileHdr a).pend | none => false)

/-- The state of a replaced core: copied, its tiles loaded; a copy that failed holds the slice and makes the fault DEGRADED, whose
messages wait with the tick or under `key` (R367). -/
def State.replaceCore (s : State) (n : Option Nat) (acc : Bool) (key k : Nat) : State :=
  match n with
  | none => s.modCo k (fun _ => CoreSt.init)
  | some n =>
    let cfg := s.coreCfg n k
    let own := s.co k
    let lost := own.copyLost cfg
    let d := s.draws
    let s := { s with draws := s.draws + 24 }
    let s := s.modCo k (CoreSt.spareBanks cfg d acc)
    let s := if lost then ((s.holdAt n 7).settleTick n 2).settleAction key 2 else s
    s.loadTiles n k own

/-- Whether the tables of a partition may change now: in REPAIR or HOLD of its slice; those of a partition in no slice at once (R213,
R365). -/
def State.mayRemap (s : State) (p : Nat) : Bool :=
  match s.ctxHolding p with
  | none => true
  | some n => s.slState n = 4 || s.slState n = 5

/-- A retirement done: recorded in the remap list and as an event, and whoever waits for it goes on. -/
def State.retired (s : State) (p : Fin 16) (u : Retiree) (unit : Nat × Nat) (src : Word) : State :=
  let s := s.modPt p.val (fun t => { t with
    retired := t.retired ++ [unit], waiting := t.waiting.filter (fun x => x ≠ u), remaps := t.remaps + 1 })
  ((s.event 0xE00D src.toNat 0 0).settleAction (Retiree.key p u) 1).repaired (Retiree.repair p u)

/-- The whole cluster moves to the lowest healthy spare cluster, with its strands, and those of others around the position that goes into
bypass; where a strand or a record cannot be moved the replacement does not take place, and its repair stays incomplete (R203, R366).
Without a spare the partition is out of service. -/
def State.replaceCluster (s : State) (p : Fin 16) (u : Retiree) (c : Nat) : State :=
  let old := s.physClus p.val c
  let n := s.ctxHolding p.val
  let cores := (List.range 250).map (fun i => (75 * p.val + c) * 250 + i)
  match (s.spareClusters p.val).head? with
  | none =>
    let s := (s.modPt p.val (fun t => { t with oos := true, waiting := t.waiting.filter (fun x => x ≠ u) })).settleTick
      (n.getD 16) 2
    (s.settleAction (Retiree.key p u) 2).fset (PRT_RST_STAT.STATE p.val) 4
  | some q =>
    if (match n with | some n => cores.any (s.tilesPend n) | none => false) then s
    else
      let src := srcWord p.val old 0
      let t := s.modPt p.val (fun t => { t.bypassAt old (some c) with
        clusSub := Store.insert t.clusSub c q
        coreSub := t.coreSub.filter (fun e => e.1 / 250 ≠ c) })
      let paths := match n with | some n => t.movedFrom n p.val c old none | none => some []
      match paths with
      | none => s
      | some l =>
        let s := match n with | some n => t.modCx n (fun x => { x with active := l }) | none => t
        let s := State.eachOf cores (fun k s => s.replaceCore n true (Retiree.key p u) k) s
        s.retired p u (old, 256) src

/-- SPARE_REPLACE: a retired unit replaced in the order of Table 6. -/
def State.spareReplace (s : State) (p : Fin 16) (u : Retiree) : State :=
  let t := s.pt p.val
  let n := s.ctxHolding p.val
  let copied := match n with | some n => (s.goodCopy n p.val).isSome | none => true
  if !t.waiting.contains u || !s.mayRemap p.val || !copied then s
  else match u with
    | .core c i =>
      let k := (75 * p.val + c.val) * 250 + i.val
      let src := s.coreSrc k
      let old := (s.physClus p.val c.val, s.physCore p.val c.val i.val)
      match (s.spareCores p.val c.val).head? with
      | none => s.replaceCluster p u c.val
      | some q =>
        if (match n with | some n => s.tilesPend n k | none => false) then s
        else
          let s := s.modPt p.val (fun t => { t with coreSub := Store.insert t.coreSub (250 * c.val + i.val) q })
          (s.replaceCore n true (Retiree.key p u) k).retired p u old src
    | .cluster c => s.replaceCluster p u c.val
    | .engine e =>
      if s.spareEngine p.val then
        let src := s.engSrc (8 * p.val + e.val)
        let s := s.modPt p.val (fun t => { t with engSub := some e })
        (s.modEn (8 * p.val + e.val) (fun x => { x with failed := false })).retired p u (256 + e.val, 256) src
      else
        (s.modEn (8 * p.val + e.val) (fun x => { x with failed := true })).modPt p.val (fun t => { t with
          waiting := t.waiting.filter (fun x => x ≠ u) })

/-- ROTATE (R369): the counts advance; every core is loaded again, ACC zero. -/
def State.rotate (s : State) (p : Nat) : State :=
  let s := s.modPt p (fun t => { t with
    coreRot := t.coreRot + 1, rotates := t.rotates + 1
    clusRot := if (t.rotates + 1) % 8 = 0 then t.clusRot + 1 else t.clusRot
    rotFrom := t.retired.length, clusSub := [], coreSub := [] })
  match s.ctxHolding p with
  | none => s
  | some n => State.eachOf (s.coresIn n p) (fun k s => s.replaceCore (some n) false 0 k) s

/-- Whether every slice that holds a partition is in HOLD or IDLE. -/
def State.mayRotate (s : State) (p : Nat) : Bool :=
  match s.ctxHolding p with
  | none => true
  | some n => s.slState n = 5 || s.slState n = 0

/-! ### Register writes (R377) -/

/-- CLUSTER_RESET; with another position of the die in bypass it is a partition reset (R358). -/
def State.clusterReset (s : State) (p c : Nat) : State :=
  let q := s.physClus p c
  if (s.pt p).bypass.any (fun x => x ≠ q) then s.partitionReset p
  else
    let s := s.abortPart p 0xFF
    let s := s.each 250 (fun i s => s.modCo ((75 * p + c) * 250 + i) CoreSt.reset)
    let s := s.modRt (meshKey p q) RtrSt.reset
    s.modCl (75 * p + c) (fun x => { x with trees := x.trees.map (fun e => (e.1, e.2.reset)) |>.filter (fun e => e.2 ≠ TreeSt.init) })

/-- A write of PRT_RST_CMD; a unit beyond the table's range, or one of a partition under reset, has no effect. -/
def State.rstCmd (s : State) (p : Nat) (v : Word) : State :=
  let cmd := (PRT_RST_CMD.CMD p).of v
  let c := (PRT_RST_CMD.CLUS p).of v
  let i := (PRT_RST_CMD.CORE p).of v
  let e := (PRT_RST_CMD.ENGINE p).of v
  let pf := Fin.ofNat 16 p
  let clusOk := decide (c < 75)
  let coreOk := clusOk && decide (i < 250)
  if cmd = 0 || 8 < cmd then s
  else if ((cmd = 1 || cmd = 5) && !coreOk) || ((cmd = 2 || cmd = 6) && !clusOk) then s
  else if s.partResetting p && cmd ≤ 4 then s
  else if cmd = 8 && !s.mayRotate p then s.refuse (PRT_RST_CMD.off p)
  else
    let s := s.fset (PRT_RST_STAT.LAST_CMD p) cmd
    match cmd with
    | 1 => s.coreReset p c i
    | 2 => s.clusterReset p c
    | 3 => s.engineReset p e
    | 4 => s.partitionReset p
    | 5 => s.retire pf (.core (Fin.ofNat 75 c) (Fin.ofNat 250 i))
    | 6 => s.retire pf (.cluster (Fin.ofNat 75 c))
    | 7 => s.retire pf (.engine (Fin.ofNat 8 e))
    | _ => s.rotate p

/-- A write of PRT_RST_CTL; DRAIN holds 10 to 10,000. -/
def State.rstCtl (s : State) (m : Master) (p : Nat) (v : Word) : State :=
  let d := (PRT_RST_CTL.DRAIN p).of v
  s.store m (PRT_RST_CTL.off p) ((PRT_RST_CTL.DRAIN p).into v (min 10000 (max 10 d)))

/-- A write of HUB_RST_CMD. -/
def State.hubCmd (s : State) (v : Word) : State :=
  match HUB_RST_CMD.CMD.of v with
  | 1 => s.moduleReset
  | 2 => s.sliceContextReset (HUB_RST_CMD.CTX.of v)
  | 3 => if s.host.drain.isSome then s else s.closeEndpoint .endpoint
  | 4 => s.holdModule
  | _ => s

/-- A write of HUB_RST_CTL; ESC_WIN holds at least 1, WDT at least 10; WDT_KICK restarts the watchdog. -/
def State.hubCtl (s : State) (m : Master) (v : Word) : State :=
  let kick := HUB_RST_CTL.WDT_KICK.of v = 1
  let v := HUB_RST_CTL.ESC_WIN.into v (max 1 (HUB_RST_CTL.ESC_WIN.of v))
  let v := HUB_RST_CTL.WDT.into v (max 10 (HUB_RST_CTL.WDT.of v))
  let s := s.store m HUB_RST_CTL.off (HUB_RST_CTL.WDT_KICK.off0 v)
  if kick then { s with rst := { s.rst with kickAt := s.now } } else s

/-! ### Commands -/

/-- A row of PRT_RST_CMD. -/
def State.rstRow (s : State) (m : Master) (p : Nat) (v : Word) : State :=
  s.gate true m (PRT_RST_CMD.off p) v (fun s => s.rstCmd p v)
/-- A row of HUB_RST_CMD. -/
def State.hubRow (s : State) (m : Master) (v : Word) : State := s.gate true m HUB_RST_CMD.off v (fun s => s.hubCmd v)

/-- CORE_RESET (R356). -/
def execCoreReset (m : Master) (part : PartId) (v : Word) (s : State) : Result := done s (s.rstRow m part.val v)
/-- CLUSTER_RESET (R358). -/
def execClusterReset (m : Master) (part : PartId) (v : Word) (s : State) : Result := done s (s.rstRow m part.val v)
/-- ENGINE_RESET (R357). -/
def execEngineReset (m : Master) (part : PartId) (v : Word) (s : State) : Result := done s (s.rstRow m part.val v)
/-- PARTITION_RESET (R359). -/
def execPartitionReset (m : Master) (part : PartId) (v : Word) (s : State) : Result := done s (s.rstRow m part.val v)
/-- REMAP_CORE (R365). -/
def execRemapCore (m : Master) (part : PartId) (v : Word) (s : State) : Result := done s (s.rstRow m part.val v)
/-- REMAP_CLUSTER (R365). -/
def execRemapCluster (m : Master) (part : PartId) (v : Word) (s : State) : Result := done s (s.rstRow m part.val v)
/-- REMAP_ENGINE (R365). -/
def execRemapEngine (m : Master) (part : PartId) (v : Word) (s : State) : Result := done s (s.rstRow m part.val v)
/-- ROTATE (R369). -/
def execRotate (m : Master) (part : PartId) (v : Word) (s : State) : Result := done s (s.rstRow m part.val v)
/-- MODULE_RESET (R356). -/
def execModuleReset (m : Master) (v : Word) (s : State) : Result := done s (s.hubRow m v)
/-- SLICE_CONTEXT_RESET (R356). -/
def execSliceContextReset (m : Master) (v : Word) (s : State) : Result := done s (s.hubRow m v)
/-- ENDPOINT_RESET (R416). -/
def execEndpointReset (m : Master) (v : Word) (s : State) : Result := done s (s.hubRow m v)
/-- POWER_CYCLE_REQUEST (R362). -/
def execPowerCycleRequest (m : Master) (v : Word) (s : State) : Result := done s (s.hubRow m v)
/-- DRAIN_COMPLETE (R359). -/
def execDrainComplete (d : SluiceDom) (s : State) : Result := done s (s.drainComplete d)
/-- WDT_KICK (R363). -/
def execWdtKick (m : Master) (v : Word) (s : State) : Result :=
  done s (s.gate true m HUB_RST_CTL.off v (fun s => s.hubCtl m v))
/-- SPARE_REPLACE (R365). -/
def execSpareReplace (part : PartId) (u : Retiree) (s : State) : Result := done s (s.spareReplace part u)

end Sys2Proof.Machine
end

