-- ==== Sys2Proof/Machine/Recovery.lean ====
section
/-! DEFINITION. Hang indicators and the escalation ladder (R361, R362), the hub watchdog (R363), and the commands after which a
hang may persist: the boundary, the completion check, the repair limit, a drain at its limit, a fault message. -/

namespace Sys2Proof.Machine

/-! ### The ladder (Tables 3 and 4) -/

/-- The physical clusters that sources name: partition and position. -/
def srcClusters (l : List Word) : List (Nat × Nat) :=
  l.foldl (fun a w => let k := (bits w.toNat 3 0, bits w.toNat 10 4); if a.contains k then a else a ++ [k]) []

/-- The ladder steps of an indicator, in order; steps 4 and 5 follow (Table 3). -/
def ladderSteps (code : Nat) (l : List Word) : List Nat :=
  match code with
  | 0x0201 => if 4 < (srcClusters l).length then [1, 3] else [2, 3]
  | 0x0303 => [1, 3]
  | 0x0501 => [2, 3]
  | 0x0003 => [5]
  | _ => []

/-- Step 2 of the ladder for an engine or for late cores: the cores of a cluster with more than 16 late ones reset as a cluster. -/
def State.unitStep (s : State) (code : Nat) (l : List Word) : State :=
  if code = 0x0501 then
    State.eachOf l (fun w s =>
      let p := bits w.toNat 3 0
      match firstBelow 8 (fun e => s.physEng p e = bits w.toNat 10 4) with
      | some e => s.engineReset p e
      | none => s) s
  else
    State.eachOf (srcClusters l) (fun k s =>
      let cs := l.filter (fun w => bits w.toNat 3 0 = k.1 && bits w.toNat 10 4 = k.2)
      match firstBelow 75 (fun c => s.physClus k.1 c = k.2) with
      | none => s
      | some c =>
        if 16 < cs.length then s.clusterReset k.1 c
        else State.eachOf cs (fun w s =>
          match firstBelow 250 (fun i => s.physCore k.1 c i = bits w.toNat 18 11) with
          | some i => s.coreReset k.1 c i
          | none => s) s) s

/-- A ladder step taken (Table 4). -/
def State.ladderStep (s : State) (k : Nat) (n : Option Nat) (code : Nat) (l : List Word) : State :=
  match k with
  | 1 => match n with | some n => s.sliceContextReset n | none => s
  | 2 => s.unitStep code l
  | 3 => State.eachOf (srcParts l) (fun p s => s.partitionReset p) s
  | 4 => (s.countHub).moduleReset
  | _ => s.holdModule

/-- The escalation window (R361). -/
def State.escWin (s : State) : Nat := sUnits (s.fget HUB_RST_CTL.ESC_WIN)

/-- Whether an incident is open: ESC_WIN has not passed since its latest step completed (R362). -/
def State.incOpen (s : State) (i : Incident) : Bool := i.ended.all (fun t => decide (s.now ≤ t + s.escWin))

/-- Whether a source lies in the domain that an incident's latest step has reset: the context, the units, the partitions, the module
(R361, Table 4). -/
def Incident.covers (i : Incident) (n : Option Nat) (w : Word) : Bool :=
  let p := bits w.toNat 3 0
  let same (v : Word) : Bool := bits v.toNat 10 0 = bits w.toNat 10 0
  match i.step with
  | 1 => i.ctx.isSome && i.ctx = n
  | 2 => i.srcs.contains w || (i.code = 0x0201 && decide (16 < (i.srcs.filter same).length))
  | 3 => (srcParts i.srcs).contains p
  | _ => true

/-- The open incident of an indicator that covers one of the sources. -/
def State.incident (s : State) (n : Option Nat) (code : Nat) (l : List Word) : Option Incident :=
  s.flt.incidents.find? (fun i => i.code = code && s.incOpen i && l.any (i.covers n))

/-- A persisting hang: with AUTO the next step of the ladder; without, a record of it (R362). -/
def State.climb (s : State) (n : Option Nat) (code : Nat) (l : List Word) : State :=
  if !s.flag HUB_RST_CTL.AUTO then s.record code 0 s.flt.inj (codeClass code) (bits (l.headD 0).toNat 18 0) 0 0
  else
    let old := s.incident n code l
    let taken := (old.map Incident.taken).getD 0
    let k := (ladderSteps code l ++ [4, 5]).getD taken 5
    let top := max k ((old.map Incident.top).getD 0)
    let new : Incident := ⟨code, n, l, taken + 1, k, top, s.now, if k ≤ 2 then some s.now else none⟩
    let s := { s with flt := { s.flt with incidents := s.flt.incidents.filter (fun i => some i ≠ old) ++ [new] } }
    (s.fset HUB_RST_STAT.LADDER (max top (s.fget HUB_RST_STAT.LADDER))).ladderStep k n code l

/-- An indicator that recurs within ESC_WIN of the completion of a ladder step of its incident (R361). -/
def State.recur (s : State) (n : Option Nat) (code : Nat) (l : List Word) : State :=
  match s.incident n code l with
  | some i => if i.ended.isSome then s.climb n code l else s
  | none => s


def hangOf (cause : Nat) : Option Nat :=
  match cause with
  | 1 => some 0x0201
  | 4 => some 0x0303
  | 5 => some 0x0501
  | _ => none

/-- The sources of a context's latest hang. -/
def State.hangSrcs (s : State) (n : Nat) : List Word := (s.flt.lastTot.filter (fun e => e.1 = n)).map Prod.snd

/-- A slice that entered HOLD with cause "replays exhausted" or "repair limit" and a hang indicator as its last abort cause. -/
def State.holdHang (s : State) (n : Nat) : State :=
  let c := s.fget (TCK_SL_STAT.HOLD_CAUSE n)
  if s.slState n ≠ 5 || (c ≠ 2 && c ≠ 3) then s
  else match hangOf (s.fget (TCK_SL_STAT.LAST_ABORT n)) with
    | some code =>
      let l := s.hangSrcs n
      -- the persistence for which a step has been taken in this very tick is not met a second time
      let met := (s.incident (some n) code l).any (fun i => decide (s.now < i.since + s.tick.len))
      if l.isEmpty || met then s else s.climb (some n) code l
    | none => s

/-- A drain that reached its limit during a ladder step counts as a recurrence of its incident (R361). -/
def State.drainHang (s : State) (p : Nat) : State :=
  match s.flt.incidents.find? (fun i => i.ended.isNone && (i.step ≠ 3 || (srcParts i.srcs).contains p)) with
  | some i => s.climb i.ctx i.code i.srcs
  | none => s

/-- INCIDENT_CLOSE: incidents without a recurrence for ESC_WIN close; LADDER shows the highest step of those that stay. -/
def State.incidentClose (s : State) : State :=
  let l := s.flt.incidents.filter (fun i => i.ended.all (fun t => decide (s.now < t + s.escWin)))
  { s with flt := { s.flt with incidents := l } }.fset HUB_RST_STAT.LADDER (l.foldl (fun m (i : Incident) => max m i.top) 0)

/-- The watchdog resets the module, which is step 4; a recurrence goes on to step 5 with AUTO, and is recorded without (R361 to R363). -/
def State.wdtAct (s : State) : State :=
  let s := s.raise 0x0003 0 0 0
  let again := (s.incident none 0x0003 [0]).any (fun i => i.ended.isSome)
  if again && s.flag HUB_RST_CTL.AUTO then s.climb none 0x0003 [0]
  else
    let s := if again then s.climb none 0x0003 [0] else s
    let new : Incident := ⟨0x0003, none, [0], 0, 4, 4, s.now, none⟩
    let rest := s.flt.incidents.filter (fun i => i.code ≠ 0x0003)
    let s := { s with flt := { s.flt with incidents := rest ++ [new] } }
    s.countHub.moduleReset

/-- WATCHDOG_EXPIRY: no kick for WDT ms. -/
def State.watchdog (s : State) : State :=
  if !s.fwRuns || s.now < s.rst.kickAt + msUnits (s.fget HUB_RST_CTL.WDT) then s else s.wdtAct

/-! ### Fault messages (R338, R361) -/

/-- A message taken; a hang indicator that recurs climbs the ladder. -/
def State.faultMsg (s : State) (f : FaultMsg) : State :=
  if !s.hubUp || !faultCodes.contains f.code.toNat then s
  else
    let old := s.staleMsg f
    let s := s.take f
    if !old && hangCodes.contains f.code.toNat && f.code.toNat ≠ 0x0702 && f.code.toNat ≠ 0x0402 then
      s.recur (s.ctxHolding (bits f.src.toNat 3 0)) f.code.toNat [f.src]
    else s

/-! ### Commands -/

/-- TICK_BOUNDARY (R48). -/
def execTickBoundary (s : State) : Result :=
  doneAt s (if s.flag TCK_CTL.TM_EN then s.tick.bound + s.tick.len else s.now) (fun s =>
    s.boundary.each 16 (fun n t => if s.slState n = 5 then t else t.holdHang n))
/-- COMPLETION_CHECK (R53). -/
def execCompletionCheck (n : Ctx) (s : State) : Result :=
  doneAt s (s.tick.bound + s.closePoint n.val) (fun s =>
    let t := s.completion n.val
    if (t.cx n.val).aborted && !(s.cx n.val).aborted then
      match hangOf (t.fget (TCK_SL_STAT.LAST_ABORT n.val)) with
      | some code => t.recur (some n.val) code (t.hangSrcs n.val)
      | none => t
    else t)
/-- REPAIR_LIMIT (R56). -/
def execRepairLimit (n : Ctx) (s : State) : Result :=
  let k := n.val
  done s (
    if s.slState k = 4 && s.fget (TCK_SL_CTL.RPR_LIM k) ≤ (s.cx k).inRepair then
      ((s.raise 0x0103 0 (s.slStep k) (s.slId k)).enterHold k 3 true).holdHang k
    else s)
/-- DRAIN_TIMEOUT (R359). -/
def execDrainTimeout (d : SluiceDom) (s : State) : Result :=
  let t := s.drainTimeout d
  done s (match d with
    | .part p => if t.fget (PRT_RST_STAT.DRAIN_TMO p.val) = s.fget (PRT_RST_STAT.DRAIN_TMO p.val) then t else t.drainHang p.val
    | .endpoint => t)
/-- INCIDENT_CLOSE (R362). -/
def execIncidentClose (s : State) : Result := done s s.incidentClose
/-- WATCHDOG_EXPIRY (R363). -/
def execWatchdogExpiry (s : State) : Result := done s s.watchdog
/-- FAULT_MESSAGE (R338). -/
def execFaultMessage (f : FaultMsg) (s : State) : Result := done s (s.faultMsg f)

end Sys2Proof.Machine
end

