-- ==== Sys2Proof/Machine/Collector.lean ====
section
/-! DEFINITION. The fault collector's commands: source windows, GRAVE, injection, FAULT_N, releases, and the crash dump
(R342 to R355). -/

namespace Sys2Proof.Machine

/-! ### Sources, queue, freezes -/

/-- SOURCE_WINDOW_EXPIRY (R342). -/
def State.windowOver (s : State) (i : Nat) : State := if s.srcExpired (s.srcEnt i) then s.setSrc i SrcEnt.init else s

/-- A write of FLT_SRC_CLR. -/
def State.srcClr (s : State) (v : Word) : State :=
  if FLT_SRC_CLR.ALL.of v = 1 then
    { s with flt := { s.flt with srcs := [] } }.fset FLT_STAT.PROMOTED 0
  else s.setSrc (FLT_SRC_CLR.ENTRY.of v) SrcEnt.init

/-- A write of FLT_Q_POP: the oldest entry goes. -/
def State.qPop (s : State) : State := { s with flt := { s.flt with queue := s.flt.queue.drop 1 } }

/-- A write of FLT_FRZ_CMD: with RELEASE an entry is released while its slice is in HOLD or IDLE (R350). -/
def State.frzCmd (s : State) (v : Word) : State :=
  if FLT_FRZ_CMD.RELEASE.of v = 0 then s
  else
    let i := FLT_FRZ_CMD.INDEX.of v
    let e := s.frzEnt i
    let idle := match s.ctxOf e.slice with | none => true | some n => s.slState n = 5 || s.slState n = 0
    if e.kind = 0 || !idle then s.refuse FLT_FRZ_CMD.off else s.setFrz i FrzEnt.init

/-! ### GRAVE (R344) -/

/-- Step 4 and 5 of R344, once. -/
def State.graveHold (s : State) : State :=
  if s.flt.graveDone then s else { s with flt := { s.flt with graveDone := true } }.holdModule

/-- GRAVE_HOLD_LIMIT: the dump has ended, or HOLD_LIM s have passed since the message. -/
def State.graveLimit (s : State) : State :=
  match s.flt.graveAt with
  | some t =>
    if s.flag FLT_STAT.GRAVE && ((s.flt.dump.grave && s.flt.dump.done) || t + sUnits (s.fget FLT_DUMP_CTL.HOLD_LIM) ≤ s.now) then
      s.graveHold
    else s
  | none => s

/-! ### FAULT_N (R348) -/

/-- PULSE_END. -/
def State.pulseOver (s : State) : State :=
  match s.flt.pulse with
  | some t => if t ≤ s.now then ({ s with flt := { s.flt with pulse := none } }.fset FLT_PIN.PULSING 0).pinFollow else s
  | none => s

/-- A write of FLT_PIN: PULSE holds at least 10. -/
def State.fltPin (s : State) (m : Master) (v : Word) : State :=
  (s.store m FLT_PIN.off (FLT_PIN.PULSE.into v (max 10 (FLT_PIN.PULSE.of v)))).pinFollow

/-! ### Injection (R346, R347) -/

/-- A write of FLT_FORCE or FLT_FORCE_UNIT: refused while a force is pending, GO refused without INJ_EN. -/
def State.fltForce (s : State) (m : Master) (off : Nat) (v : Word) : State :=
  if m = 2 && !s.flag FLT_CTL.INJ_EN then s.badWrite m off
  else if s.flt.force.isSome then s.refuse off
  else if off = FLT_FORCE_UNIT.off then s.store m off v
  else
    let go := FLT_FORCE.GO.of v = 1
    let code := FLT_FORCE.CODE.of v
    if go && !s.flag FLT_CTL.INJ_EN then s.refuse off
    else
      let s := s.store m off (FLT_FORCE.GO.off0 v)
      if !go then s
      else
        let src := s.reg FLT_FORCE_UNIT.off
        let f : FaultMsg :=
          { code := BitVec.ofNat 16 code, inj := true,
            gen := if codeInPart code then BitVec.ofNat 8 (s.gen (bits src.toNat 3 0)) else 0, src := src, addr := 0, arg := 0 }
        { s with flt := { s.flt with force := some f } }.fset FLT_FORCE.GO 1

/-! ### Crash dump (R351 to R353) -/

/-- The implemented register offsets of a range, ascending. -/
def offsIn (lo hi : Nat) : List Nat :=
  ((List.range ((hi - lo) / 4)).map (fun i => lo + 4 * i)).filter (fun o => (regRow? o).isSome)

/-- The words of registers as the hub reads them. -/
def State.dumpRegs (s : State) (lo hi : Nat) : List Byte := bytesOf ((offsIn lo hi).map (s.view 0))

/-- The region number, first offset and data of an entry of dumpRegions (Table 5). -/
def State.dumpRegion (s : State) (r : Nat) : Nat × Nat × List Byte :=
  let p := r % 16
  match r / 16 with
  | 1 =>
    let srcs := (List.range 512).flatMap (fun i => let e := s.srcEnt i
      leBytes 4 (e.state + sat 8 e.count * 4 + e.cls * 2 ^ 10) ++ leBytes 4 e.src.toNat)
    let frz := (List.range 32).flatMap (fun i => let e := s.frzEnt i; leBytes 4 e.view.toNat ++ leBytes 4 e.src.toNat)
    (1, 0x30000, s.dumpRegs 0x30000 0x38000 ++ srcs ++ frz)
  | 2 => (2, 0, s.dumpRegs 0 0x30000 ++ s.dumpRegs 0x80000 0x100000)
  | 3 => (3, 0x100000 + 0x1000 * p, s.dumpRegs (0x100000 + 0x1000 * p) (0x101000 + 0x1000 * p))
  | _ =>
    let b := 0x200000 + 0x10000 * (r / 16 % 16)
    if r / 16 < 0x20 then (r / 16, b, s.dumpRegs b (b + 0x8000))
    else (r / 16, b + 0x8000, (List.range (75 * 250)).flatMap (fun k =>
      let c := r / 16 % 16 * (75 * 250) + k
      leBytes 4 (s.coreStat c).toNat ++ leBytes 4 (s.coreCnt c).toNat))

/-- Whether the rails of a region's partition are off. -/
def State.dumpDark (s : State) (r : Nat) : Bool := decide (0x100 ≤ r) && !s.flag (PRT_ID.POWERED (r / 16 % 16))

/-- Whether a region lies in a partition that is in reset, and so gives no answer (R376). -/
def State.dumpDead (s : State) (r : Nat) : Bool :=
  let p := r / 16 % 16
  decide (0x100 ≤ r) && (s.fget (PRT_RST_STAT.STATE p) = 2 || (s.pt p).held)

/-- The tag of a region and the words of it that are kept: all, or those read before an answer failed to come (R352). -/
def State.dumpTag (s : State) (r : Nat) : DumpAnswer → Nat × Option Nat
  | a =>
    if s.dumpDark r then (2, some 0)
    else if s.dumpDead r then (1, some 0)
    else match a with
      | .ok => (0, none)
      | .noResponse n => (1, some n)
      | .parity => (3, none)

/-- DUMP_REGION_READ: the next region, with its tag; the dump buffer holds the first 16 KiB of what has been read. -/
def State.dumpRead (s : State) (a : DumpAnswer) : State :=
  match s.flt.dump.left with
  | [] => s
  | r :: t =>
    if !s.hubUp || !s.flag FLT_DUMP_STAT.BUSY then s
    else
      let (num, off, data) := s.dumpRegion r
      let (tag, kept) := s.dumpTag r a
      let data := match kept with | none => data | some n => data.take (4 * n)
      let pad := List.replicate ((16 - data.length % 16) % 16) 0
      let rec_ := leBytes 4 (num + tag * 256) ++ leBytes 4 off ++ leBytes 4 data.length ++ leBytes 4 0 ++ data ++ pad
      let bytes := s.flt.dump.bytes ++ rec_
      let s := { s with flt := { s.flt with
        dump := { s.flt.dump with left := t, bytes := bytes }, window := putBytes [] 0 (bytes.take 16384) } }
      if tag = 1 then s.fcount FLT_DUMP_STAT.NORESP 1 else s

/-- DUMP_DONE: LPDDR5 holds the dump beside the buffer, cut at LIM, unless LIM is 0 or the partition is in reset; with a latched GRAVE the
module goes on to step 4 of R344. -/
def State.dumpDone (s : State) : State :=
  if !s.hubUp || !s.flag FLT_DUMP_STAT.BUSY || !s.flt.dump.left.isEmpty then s
  else
    let b := s.flt.dump.bytes
    let dst := s.fget FLT_DUMP_DST_LO.DST * 64 + s.fget FLT_DUMP_DST_HI.DST * 2 ^ 32
    let lim := s.fget FLT_DUMP_LIM.LIM * 2 ^ 20
    let p := mlaPart dst
    let open_ := lim ≠ 0 && mlaRange dst (min b.length lim) && !s.partResetting p && !(s.pt p).held
    let s := if open_ then s.memWrite dst (b.take lim) else s
    let s := if open_ && lim < b.length then s.fset FLT_DUMP_STAT.TRUNC 1 else s
    let s := { s with flt := { s.flt with dump := { s.flt.dump with bytes := [], done := true } } }
    let s := s.fset FLT_DUMP_STAT.BYTES (sat 16 (ceilDiv (min b.length (if open_ then lim else 16384)) 1024))
    let s := ((s.fset FLT_DUMP_STAT.BUSY 0).fset FLT_DUMP_STAT.DONE 1).irq 4
    if s.flag FLT_STAT.GRAVE && s.flt.graveAt.isSome then s.graveHold else s

/-- A write of FLT_DUMP_CTL: HOLD_LIM holds at least 1; START starts a dump. -/
def State.dumpCtl (s : State) (m : Master) (v : Word) : State :=
  let v := FLT_DUMP_CTL.HOLD_LIM.into v (max 1 (FLT_DUMP_CTL.HOLD_LIM.of v))
  let s := s.store m FLT_DUMP_CTL.off (FLT_DUMP_CTL.START.off0 v)
  if FLT_DUMP_CTL.START.of v = 1 then s.dumpStart false 0 0 else s

/-! ### Commands -/

/-- SOURCE_WINDOW_EXPIRY (R342). -/
def execSourceWindowExpiry (entry : Fin 512) (s : State) : Result := done s (s.windowOver entry.val)
/-- GRAVE_HOLD_LIMIT (R344). -/
def execGraveHoldLimit (s : State) : Result := done s s.graveLimit
/-- FORCE (R346). -/
def execForce (m : Master) (v : Word) (s : State) : Result :=
  done s (s.gate true m FLT_FORCE.off v (fun s => s.fltForce m FLT_FORCE.off v))
/-- PULSE_END (R348). -/
def execPulseEnd (s : State) : Result := done s s.pulseOver
/-- SRC_CLR (R342). -/
def execSrcClr (m : Master) (v : Word) (s : State) : Result := done s (s.gate true m FLT_SRC_CLR.off v (fun s => s.srcClr v))
/-- Q_POP (R355). -/
def execQPop (m : Master) (v : Word) (s : State) : Result := done s (s.gate true m FLT_Q_POP.off v (fun s => s.qPop))
/-- RELEASE (R350). -/
def execRelease (m : Master) (v : Word) (s : State) : Result := done s (s.gate true m FLT_FRZ_CMD.off v (fun s => s.frzCmd v))
/-- FLT_LOCK (R355). -/
def execFltLock (m : Master) (v : Word) (s : State) : Result :=
  done s (s.gate true m FLT_CTL.off v (fun s => s.store m FLT_CTL.off v))
/-- DUMP_START (R351). -/
def execDumpStart (m : Master) (v : Word) (s : State) : Result :=
  done s (s.gate true m FLT_DUMP_CTL.off v (fun s => s.dumpCtl m v))
/-- DUMP_REGION_READ (R352). -/
def execDumpRegionRead (a : DumpAnswer) (s : State) : Result := done s (s.dumpRead a)
/-- DUMP_DONE (R353). -/
def execDumpDone (s : State) : Result := done s s.dumpDone

end Sys2Proof.Machine
end

