-- ==== Sys2Proof/Machine/Startup.lean ====
section
/-! DEFINITION. The start of a module (R381 to R386, R441 to R445): the firmware image and its checks, what running firmware does
first, this module's place in the manifest (R318, R319), and the roles it may take (R305). -/

namespace Sys2Proof.Machine

/-! ### Roles (R305, R434) -/

/-- The role set, and recorded where it changes. -/
def State.setRole (s : State) (r : Nat) : State :=
  if s.fget FAB_MGR_STAT.ROLE = r then s
  else
    let s := s.fset FAB_MGR_STAT.ROLE r
    s.event 0xE007 (r + s.shownMode * 8) (s.fget FAB_TERM.TERM) 0

/-! ### This module in the manifest (R315, R319) -/

/-- The record that carries this module's identity digest. -/
def State.ownRec (s : State) : Option (List Byte) :=
  let b := s.mgr.manifest
  ((List.range (manMods b)).map (manMod b)).find? (fun r => slice r 0 32 = s.fuses.idDig)

/-- The expectation words of a port of module `m` that the manifest gives: LNK_EXP0 to 3 and LNK_EXP_ID (R233). -/
def portExp (b : List Byte) (m c : Nat) : List Word :=
  match manMod? b m with
  | none => List.replicate 5 0
  | some r =>
    let p := manPort r c
    if !p.present || c = 7 || c = 8 then List.replicate 5 0
    else match manMod? b p.peerMod with
      | none => List.replicate 5 0
      | some q => wordsOf 4 (slice q 0 16) ++ [BitVec.ofNat 32 (p.peerMod + p.peerPort * 2 ^ 12 + 2 ^ 16)]

/-- The expectation words of every port of a module (R319 step 5). -/
def expWords (b : List Byte) (m : Nat) : List Word := (List.range 16).flatMap (portExp b m)

/-- The granules, the medium and the place of the optical module of a port set from this module's record, and the port enabled (R227,
R228, R244). -/
def State.trainPort (s : State) (r : List Byte) (c : Nat) : State :=
  let p := manPort r c
  if !p.present || s.flag (LNK_CTL.EN c) then s
  else
    let s := (s.setReg (LNK_GRAN0.off c) (BitVec.ofNat 32 p.gran)).setReg (LNK_GRAN1.off c) (BitVec.ofNat 32 (p.gran / 2 ^ 32))
    let s := if p.medium = 2 then
        (s.fset (LNK_CMIS.MASTER c) (bits p.i2c 0 0)).fset (LNK_CMIS.CHAN c) (bits p.i2c 6 4) else s
    let v := (LNK_CTL.MEDIUM c).into ((LNK_CTL.EN c).into (s.reg (LNK_CTL.off c)) 1) p.medium
    s.lnkCtl 0 c v

/-- The five expectation words of a port written. -/
def State.writeExp (s : State) (c : Nat) (ws : List Word) : State := s.each 5 (fun i s => s.expWrite 0 c i (ws.getD i 0))

/-- The module bound to an ID: FAB_SELF, the expectations of its ports, and the ports of its record enabled (R319 step 5). -/
def State.takeId (s : State) (m : Nat) (ws : List Word) : State :=
  let s := (s.fset FAB_SELF.MODID m).fset FAB_SELF.VALID 1
  let s := s.each 16 (fun c s => s.writeExp c ((ws.drop (5 * c)).take 5))
  match manMod? s.mgr.manifest m with
  | none => s
  | some r => s.each 16 (fun c s => s.trainPort r c)

/-- The state of a position in FAB_DISC (R320). -/
def State.setDisc (s : State) (pos d : Nat) : State :=
  let off := FAB_DISC.off (pos / 16)
  s.setReg off (BitVec.ofNat 32 (setBits (s.reg off).toNat (2 * (pos % 16) + 1) (2 * (pos % 16)) d))

/-- START entered: discovery begins with this module itself (R305, R319). -/
def State.beginManager (s : State) (r : List Byte) : State :=
  let m := modRecId r
  let s := ((s.setRole 1).takeId m (expWords s.mgr.manifest m)).setDisc (modPos m) 1
  { s with mgr := { s.mgr with
    discAt := s.now
    pos := Store.upd (fun _ => PosSt.init) s.mgr.pos (modPos m) (fun x => { x with feat := s.fget SEC_FW_LEVEL.FEAT }) } }

/-- Whether this module's record names it as its group's MGR_PRI (0) or MGR_SBY (1). -/
def State.mgrName (s : State) (r : List Byte) : Option Nat :=
  let m := modRecId r
  match manGroup? s.mgr.manifest (modGroup m) with
  | some (_, _, p, q) => if modPos m = p then some 0 else if modPos m = q then some 1 else none
  | none => none

/-- The cached manifest taken into force if its form and signature hold, and MGR_PRI enters START (R305, R318). -/
def State.readCache (s : State) : State :=
  let b := s.nor.cached
  let b := if manForm b && s.manSigOk b then b else []
  let s := { s with mgr := { s.mgr with manifest := b } }
  match s.ownRec with
  | none => s
  | some r => if s.mgrName r = some 0 then s.beginManager r else s

/-! ### The image (R442, R443) -/

/-- Bytes of an image: header, code and signature block. -/
def fwTotal (b : List Byte) : Nat := 64 + leAt b 8 4 + 29920

/-- The checks of R443 in their order: 0, or the reason of the first that fails. -/
def State.fwCheck (s : State) (b : List Byte) : Nat :=
  let g := b.drop (b.length - 29920)
  let key := digest (slice g 8 64)
  if leAt b 0 4 ≠ 0x49574644 then 1
  else if b.length ≠ fwTotal b || 2 ^ 24 < b.length then 2
  else if (sigForm g).isSome || !sigGood g (b.take (b.length - 29920)) then 3
  else if key ≠ Config.romKeyDigest 0 && key ≠ Config.romKeyDigest 1 then 4
  else if leAt b 4 2 < s.fget HUB_FEAT_FLOOR.FLOOR then 5
  else if leAt b 6 2 < s.nor.svnMin then 6
  else 0

/-- Bytes of an image on their way in: the ROM receives (Table 10; DEDUCED, log entry 66). -/
def State.fwTakes (s : State) (src : Nat) : State := (s.fset SEC_FW_STAT.PHASE 1).fset SEC_FW_STAT.SOURCE src

/-- An image refused: the ROM waits for the next one. -/
def State.fwRefuse (s : State) (why src : Nat) : State :=
  let s := ((s.fset SEC_FW_STAT.REFUSED why).fset SEC_FW_STAT.PHASE 0).fset SEC_FW_STAT.SOURCE src
  (s.event 0xE003 why src 0).raise 0x0B01 0 0 why

/-- An image run: its level and digest are shown, the watchdog starts, the ports send the new level, the cached manifest is read. -/
def State.fwRun (s : State) (b : List Byte) (src : Nat) : State :=
  let d := digest b
  let s := { s with sec := { s.sec with staging := [], fwRx := [], fwFrom := none, image := b, ranAt := s.now },
                    rst := { s.rst with kickAt := s.now } }
  let s := (s.fset SEC_FW_STAT.PHASE 3).fset SEC_FW_STAT.SOURCE src
  let s := (s.fset SEC_FW_LEVEL.FEAT (leAt b 4 2)).fset SEC_FW_LEVEL.SVN (leAt b 6 2)
  let s := s.each 8 (fun i s => s.setReg (SEC_FWDIG.off i) (BitVec.ofNat 32 (leAt d (4 * i) 4)))
  let s := s.event 0xE002 (leAt b 4 2 + leAt b 6 2 * 2 ^ 16) (leAt d 0 4) (leAt d 4 4)
  s.readCache.identAgain

/-- A complete image at the boot ROM: checked, and run if it passes; LPDDR5 training begins (R381 steps 5 and 6). -/
def State.fwImage (s : State) (b : List Byte) (src : Nat) : State :=
  let why := s.fwCheck b
  if why ≠ 0 then s.fwRefuse why src
  else
    let s := s.fwRun b src
    { s with pwr := { s.pwr with stage := 6, training := true } }

/-! ### Host path (R444) -/

/-- A write of SEC_FW_CMD: effective while the boot ROM waits. -/
def State.fwCmd (s : State) (v : Word) : State :=
  if SEC_FW_CMD.GO.of v = 0 || s.pwr.stage ≠ 5 then s
  else
    let n := s.fget SEC_FW_LEN.LEN
    s.fwImage ((List.range n).map (Store.get byteZero s.sec.staging)) 0

/-- FIRMWARE_WAIT_TIMEOUT: 60 s at step 5 without an image, recorded once (R445). -/
def State.fwWait (s : State) : State :=
  if s.pwr.stage = 5 && s.sec.waitAt + sUnits 60 ≤ s.now && !s.flag SEC_FW_STAT.WAITED then
    (s.fset SEC_FW_STAT.WAITED 1).event 0xE004 0 0 0
  else s

/-! ### LPDDR5 training and the waves (R382, R383) -/

/-- Whether the stored calibration data is this module's. -/
def State.calibGood (s : State) : Bool := s.nor.readable && s.nor.calib = leBytes 8 s.fuses.serial.toNat

/-- LPDDR5_TRAINING_DONE: the channels leave self refresh; data trained from defaults is stored. -/
def State.trainingDone (s : State) : State :=
  if !s.pwr.training then s
  else
    let s := s.each 128 (fun k s => s.modCh k (fun c => { c with selfRef := false, slotAt := s.now }))
    let s := s.each 16 (fun p s => s.fset (PRT_MEM_STAT.TRAINED p) 0xFF)
    let s := { s with pwr := { s.pwr with training := false, stage := 7, waves := 0 } }
    if s.calibGood || !s.nor.readable then s
    else { s with nor := { s.nor with calib := leBytes 8 s.fuses.serial.toNat } }

/-- The compute domains of a partition enabled; every bank that `keep` does not name is zero with good parity. -/
def State.partUp (s : State) (p : Nat) (keep : Nat → Nat → Bool) : State :=
  if (s.pt p).held then s else
  let s := s.fset (PRT_ID.POWERED p) 1
  let up : Store CoreSt := s.core.filterMap (fun e =>
    if corePart e.1 ≠ p then some e
    else
      let c := { e.2.keepBanks (keep e.1) with silent := e.2.silent }
      if c = CoreSt.init then none else some (e.1, c))
  { s with core := up }

/-- Failed cores of a partition given over to be retired (R365). -/
def State.retireCores (s : State) (p : Nat) (failed : List CoreId) : State :=
  State.eachOf (failed.filter (fun c => c.part.val = p)) (fun c s => s.retire c.part (.core c.clus c.core)) s

/-! ### Commands -/

/-- FIRMWARE_GO (R444). -/
def execFirmwareGo (m : Master) (v : Word) (s : State) : Result := done s (s.gate true m SEC_FW_CMD.off v (fun s => s.fwCmd v))
/-- FIRMWARE_WAIT_TIMEOUT (R445). -/
def execFirmwareWaitTimeout (s : State) : Result := done s s.fwWait
/-- LPDDR5_TRAINING_DONE (R382). -/
def execLpddr5TrainingDone (s : State) : Result := done s s.trainingDone

end Sys2Proof.Machine
end

