-- ==== Sys2Proof/Machine/Security.lean ====
section
/-! DEFINITION. Authorised commands and keys (R439 to R441), the NOR (R449, R450), and attestation (R447, R448). -/

namespace Sys2Proof.Machine

/-! ### The nonce (R439) -/

/-- The nonce as the registers hold it. -/
def State.nonceBytes (s : State) : List Byte := bytesOf ((List.range 8).map (fun i => s.reg (SEC_NONCE.off i)))

/-! ### Keys (R441) -/

/-- The lowest free key slot. -/
def State.freeKey (s : State) : Option Nat := firstBelow 16 (fun i => s.nor.keySlots.all (fun e => e.1 ≠ i))

/-- The slot of an enrolled AUTH key. -/
def State.authSlot (s : State) (pub : List Byte) : Option Nat :=
  (s.nor.keySlots.find? (fun e => e.2.1 = 3 && e.2.2 = digest pub)).map Prod.fst

/-- Whether an AUTH key is enrolled. -/
def State.anyAuth (s : State) : Bool := s.nor.keySlots.any (fun e => e.2.1 = 3)

/-- Whether the arguments of a command are refused with ARG. -/
def State.authArgBad (s : State) (cmd : Nat) (arg : List Byte) : Bool :=
  match cmd with
  | 1 | 2 | 5 => false
  | 3 => let k := leAt arg 0 1; k < 1 || 3 < k || s.freeKey.isNone
  | 4 =>
    let i := leAt arg 0 1
    match s.nor.keySlots.find? (fun e => e.1 = i) with
    | none => true
    | some e => e.2.1 = 3 && (s.nor.keySlots.filter (fun x => x.2.1 = 3)).length ≤ 1
  | _ => true

/-- The checks of R439 in their order: the status, and the key slot used (0xFF for none). The block is 128 bytes and a signature
block. -/
def State.authCheck (s : State) (b : List Byte) : Nat × Nat :=
  let cmd := leAt b 4 2
  let arg := slice b 48 64
  let g := b.drop 128
  let free := cmd = 3 && leAt arg 0 1 = 3 && !s.anyAuth
  if leAt b 0 4 ≠ 0x54554144 then (2, 0xFF)
  else if leAt b 8 8 ≠ s.fuses.serial.toNat then (3, 0xFF)
  else if slice b 16 32 ≠ s.nonceBytes then (4, 0xFF)
  else
    let key := s.authSlot (slice g 8 64)
    if !free && ((sigForm g).isSome || !sigGood g (b.take 128)) then (5, 0xFF)
    else if !free && key.isNone then (6, 0xFF)
    else
      let k := if free then 0xFF else key.getD 0xFF
      if s.authArgBad cmd arg then (7, k)
      else if !s.nor.readable && cmd ≠ 1 then (8, k)
      else (0, k)

/-! ### Effects (R439 to R441) -/

/-- CLEAR_EVR: every slot zero, EVR_BASE at the old head, event 0xE008 (R440). -/
def State.clearEvr (s : State) (key : Nat) : State :=
  let h := s.fget EVR_HEAD.HEAD
  ({ s with evr := [] }.fset EVR_BASE.BASE h).event 0xE008 h key 0

/-- The partitions that CLEAR_REMAP names. -/
def remapParts (arg : List Byte) : List Nat :=
  let b := leAt arg 0 1
  if bit b 4 then List.range 16 else [bits b 3 0]

/-- An accepted command whose NOR write is committed. -/
def State.authEffect (s : State) (cmd : Nat) (arg : List Byte) : State :=
  match cmd with
  | 2 => { s with nor := { s.nor with remapClr := (remapParts arg).foldl addKey s.nor.remapClr } }
  | 3 =>
    match s.freeKey with
    | none => s
    | some i => { s with nor := { s.nor with keys := Store.insert s.nor.keys i (leAt arg 0 1, slice arg 32 32) } }
  | 4 => { s with nor := { s.nor with keys := Store.erase s.nor.keys (leAt arg 0 1) } }
  | 5 => { s with nor := { s.nor with svn := max s.nor.svn (leAt arg 0 2) } }
  | _ => s

/-- A command attempted: status, command and nonce, and event 0xE009. -/
def State.authDone (s : State) (cmd status key : Nat) : State :=
  let s := (s.fset SEC_AUTH_STAT.CMD cmd).fset SEC_AUTH_STAT.STATUS status
  (s.event 0xE009 (cmd % 256 + status * 256) key 0).renewNonce

/-- The address of the staged block. -/
def State.authAt (s : State) : Nat := s.fget SEC_AUTH_SRC_LO.SRC * 64 + s.fget SEC_AUTH_SRC_HI.SRC * 2 ^ 32

/-- The bytes of the staged block that are mapped: all of it, it without a signature block, or none. -/
def State.authLen (s : State) : Nat := if mlaRange s.authAt 30048 then 30048 else if mlaRange s.authAt 128 then 128 else 0

/-- The block staged at SEC_AUTH_SRC. -/
def State.authBlock (s : State) : List Byte := s.memRead s.authAt s.authLen

/-- The parity hits of the read of the staged block (R506). -/
def State.authHits (s : State) : State := s.memHits s.authAt s.authLen

/-- A write of SEC_AUTH_CMD: with GO the staged command is checked; while one is in progress it is refused with BUSY. -/
def State.authCmd (s : State) (v : Word) : State :=
  if SEC_AUTH_CMD.GO.of v = 0 then s
  else
    let b := s.authBlock
    let s := s.authHits
    let cmd := leAt b 4 2
    if s.sec.auth.isSome then s.authDone cmd 1 0xFF
    else
      let (st, key) := s.authCheck b
      if st ≠ 0 then s.authDone cmd st key
      else if cmd = 1 then (s.clearEvr key).authDone cmd 0 key
      else
        let s := { s with sec := { s.sec with auth := some (cmd, slice b 48 64) } }
        (s.authDone cmd 0 key).fset SEC_AUTH_STAT.BUSY 1

/-- The NOR object that a command writes (Table 7). -/
def authObject (cmd : Nat) : Nat := match cmd with | 2 => 4 | 5 => 6 | _ => 5

/-- NOR_COMMIT: the accepted command completes; a failed write is recorded and retried in another sector, whose address is a free
value. -/
def State.norCommit (s : State) (ok : Bool) : State :=
  match s.sec.auth with
  | none => s
  | some (cmd, arg) =>
    if ok then
      let s := s.authEffect cmd arg
      { s with sec := { s.sec with auth := none } }.fset SEC_AUTH_STAT.BUSY 0
    else
      let (k, s) := s.fresh
      s.event 0xE00B (authObject cmd) (Config.norAddr k).toNat 0

/-- COUNTERS written to NOR. -/
def State.saveCounters (s : State) : State :=
  if s.nor.readable then { s with nor := { s.nor with opsec := s.opsec }, pwr := { s.pwr with savedAt := s.now } } else s

/-- COUNTER_SAVE: every 600 s. -/
def State.counterSave (s : State) : State :=
  if !s.pwr.off && s.pwr.savedAt + sUnits 600 ≤ s.now then s.saveCounters else s

/-! ### Attestation (R447, R448) -/

/-- The entry of a slice context. -/
def State.attEntry (s : State) (n : Nat) : List Byte :=
  let act := s.flag (RIG_SL_STAT.ACTIVE n)
  leBytes 2 (s.slId n) ++ leBytes 2 (s.fget (RIG_SL_EPOCH.LAST n)) ++ leBytes 4 (s.view 0 (RIG_SL_STAT.off n)).toNat ++
    List.replicate 8 0 ++ (if act then (s.sliceMap n).digest else List.replicate 32 0)

/-- The report of Table 6 and the entries of the selected contexts. -/
def State.attReport (s : State) (sel : Nat) (nonce : List Byte) : List Byte :=
  let fwdig := bytesOf ((List.range 8).map (fun i => s.reg (SEC_FWDIG.off i)))
  let mandig := if s.nor.cached.isEmpty then List.replicate 32 0 else manDigest s.nor.cached
  leBytes 4 0x54544144 ++ leBytes 2 1 ++ leBytes 2 sel ++ leBytes 8 s.fuses.serial.toNat ++
    leBytes 4 (s.view 0 PWR_VAR.off).toNat ++ leBytes 4 (s.reg SEC_FW_LEVEL.off).toNat ++ leBytes 4 s.nor.cycles ++
    leBytes 4 s.opsec ++ leBytes 4 (s.fget EVR_HEAD.HEAD) ++ leBytes 4 (s.view 0 FLT_STAT.off).toNat ++
    leBytes 2 (s.reg FAB_SELF.off).toNat ++ List.replicate 6 0 ++ padTo 32 0 nonce ++ fwdig ++
    leBytes 32 s.fuses.fuseDig.toNat ++ mandig ++ s.fuses.pub ++ List.replicate 16 0 ++
    ((List.range 16).filter sel.testBit).flatMap s.attEntry

/-- The response: report, entries and signature. -/
def State.attResponse (s : State) (sel : Nat) (nonce : List Byte) : List Byte :=
  let m := s.attReport sel nonce
  m ++ padTo 49856 0 (Config.slhSign256f s.fuses.seeds m)

/-- A request queued behind the others. -/
def State.attAsk (s : State) (r : AttReq) : State := { s with att := { s.att with queue := s.att.queue ++ [r] } }

/-- The segments of a DISCOVER reply: the response under the segment head of R326, 960 bytes each. -/
def State.discSegs (s : State) (p : Packet) (via : Option (Fin 16)) (b : List Byte) : State :=
  State.eachOf (List.range (ceilDiv b.length 960)) (fun i s =>
    s.mgtReply p via (segBody 0 0 i (960 * i) ((b.drop (960 * i)).take 960))) s

/-- ATTESTATION_SIGNED: the oldest request's response becomes readable. -/
def State.attSigned (s : State) : State :=
  match s.att.queue with
  | [] => s
  | r :: t =>
    let b := s.attResponse r.sel r.nonce
    let s := { s with att := { s.att with queue := t } }
    match r.path, r.pkt with
    | 0, _ => s.emit (.doe b)
    | 1, _ => { s with att := { s.att with smb := some b } }
    | _, some (p, via) => s.discSegs p via b
    | _, none => s

/-- DOE_REQUEST on PF0: without running firmware nothing signs it. -/
def State.doeRequest (s : State) (sel : Nat) (nonce : List Byte) : State :=
  if s.fwRuns && s.host.linkUp then s.attAsk ⟨0, sel, nonce, none⟩ else s

/-- DOE_ABORT: the first request on the path is discarded. -/
def State.doeAbort (s : State) : State :=
  match s.att.queue.find? (fun r => r.path = 0) with
  | some r => { s with att := { s.att with queue := s.att.queue.erase r } }
  | none => s

/-! ### Commands -/

/-- A row of SEC_AUTH_CMD: what the staged block commands is read from it. -/
def State.authRow (s : State) (m : Master) (v : Word) : State := s.gate true m SEC_AUTH_CMD.off v (fun s => s.authCmd v)

/-- CLEAR_EVR (R440). -/
def execClearEvr (m : Master) (v : Word) (s : State) : Result := done s (s.authRow m v)
/-- CLEAR_REMAP (R439). -/
def execClearRemap (m : Master) (v : Word) (s : State) : Result := done s (s.authRow m v)
/-- ENROLL (R441). -/
def execEnroll (m : Master) (v : Word) (s : State) : Result := done s (s.authRow m v)
/-- REVOKE (R441). -/
def execRevoke (m : Master) (v : Word) (s : State) : Result := done s (s.authRow m v)
/-- RAISE_SVN (R439). -/
def execRaiseSvn (m : Master) (v : Word) (s : State) : Result := done s (s.authRow m v)
/-- NOR_COMMIT (R450). -/
def execNorCommit (ok : Bool) (s : State) : Result := done s (s.norCommit ok)
/-- COUNTER_SAVE (R449). -/
def execCounterSave (s : State) : Result := done s s.counterSave
/-- DOE_REQUEST (R448). -/
def execDoeRequest (sel : BitVec 16) (nonce : BitVec 256) (s : State) : Result :=
  done s (s.doeRequest sel.toNat (leBytes 32 nonce.toNat))
/-- DOE_ABORT (R448). -/
def execDoeAbort (s : State) : Result := done s s.doeAbort
/-- ATTESTATION_SIGNED (R447). -/
def execAttestationSigned (s : State) : Result := done s s.attSigned

end Sys2Proof.Machine
end

