-- ==== Sys2Proof/Machine/Power.lean ====
section
/-! DEFINITION. Power states (R390 to R401), wake (R397 to R399), the supply (R379, R380, R402 to R404), the waves of start-up
(R383), and the clock and power limit (R387 to R389). -/

namespace Sys2Proof.Machine

/-! ### States and residency (R390, R401) -/

/-- The time spent in the state of now booked to its counter; that of a start-up from OFF belongs to OFF, the state left (R401). -/
def State.bookRes (s : State) : State :=
  let i := s.fget PWR_STAT.STATE
  let n := (s.now - s.pwr.stateAt) / usUnits 1
  let s := if i ≤ 3 && !s.pwr.off && s.pwr.fromTgt ≠ 4 then s.setPair (PWR_RES_ACT_LO.off + 8 * i) (s.pair (PWR_RES_ACT_LO.off + 8 * i) + n) else s
  { s with pwr := { s.pwr with stateAt := s.pwr.stateAt + n * usUnits 1 } }

/-- A state reached: counted, recorded and signalled. -/
def State.reach (s : State) (st : Nat) : State :=
  let s := s.bookRes.fset PWR_STAT.STATE st
  let f : Fld := ⟨PWR_ENTRIES.off, 8 * st + 7, 8 * st⟩
  let s := { s.fcount f 1 with pwr := { s.pwr with stateAt := s.now } }
  (s.event 0xE005 (st + s.fget PWR_STAT.MASTER * 256) 0 0).irq 3

/-! ### Leaving the main rails -/

/-- The cores with the banks that the RETAIN mask selects, everything else of them lost (R394). -/
def State.keptCores (s : State) : Store CoreSt :=
  s.core.filterMap (fun e =>
    let k := e.1
    let cfg := match s.ctxHolding (corePart k) with | some n => s.coreCfg n k | none => s.coreCfg 16 k
    let d := e.2.keepBanks (fun b =>
      let r := cfg.role b
      r ≠ 0 && ((s.fget PWR_RMASK.BANKS).testBit b || (s.fget PWR_RMASK.ROLES).testBit (r - 1)))
    let c := { CoreSt.init with banks := d.banks, bad := d.bad, odd := e.2.odd, silent := e.2.silent }
    if c = CoreSt.init then none else some (k, c))

/-- The hub, port, uncore and compute domains off: everything but the always-on domain is cleared (Table 8). -/
def State.railsOff (s : State) : State :=
  let s := s.clearModule
  { s with pwr := { s.pwr with stage := 1, waves := 0, training := false } }

/-- LPDDR5 without valid contents: data, system areas and what would be re-applied are lost (R144, R404). -/
def State.lpLost (s : State) : State :=
  let chan : Store ChanSt := s.chan.filterMap (fun e =>
    let c := { e.2 with lost := [], copies := [], fw := [], fwGood := true }
    if c = ChanSt.init then none else some (e.1, c))
  let s := { s with mem := [], memBad := [], chan := chan }
  (s.each 16 (fun p s => s.modPt p (fun t => { t with reapply := [] }))).fset PWR_STAT.LP_VALID 0

/-- Steps 2 to 5 of R393. -/
def State.sleep (s : State) (tgt : Nat) : State :=
  let s := s.each 16 (fun p s => match (s.pt p).owner with
    | some n => if s.flag (RIG_SL_STAT.ACTIVE n.val) then s.writeCopy n.val p else s
    | none => s)
  let s := State.eachOf [0, 4] (fun k s => s.modCh k (fun c => { c with fw := s.sec.image, fwGood := true })) s
  let s := { s with pwr := { s.pwr with phy := true } }
  let s := s.each 16 (fun p s => if s.flag (LNK_CTL.EN p) then (s.linkDown p).lnkState p 0 else s)
  let kept := if tgt = 2 then s.keptCores else []
  let s := s.endpointDown
  let s := s.setReg PWR_RMASK_USED.off (s.reg PWR_RMASK.off)
  let s := { s.railsOff with core := kept }
  if tgt = 4 then s.fset PWR_STAT.LP_VALID 0 else s

/-- Step 6 of R393: the module rests as DORMANT until 12V_AUX goes. -/
def State.offReady (s : State) : State :=
  let s := ((s.saveCounters.reach 3).fset PWR_STAT.LP_VALID 0).fset PWR_STAT.OFF_READY 1
  (s.alert 2).alertPin

/-! ### Wake (R397 to R399) -/

/-- A request for ACTIVE from RETAIN or DORMANT: the wake table where LPDDR5 contents are valid, otherwise start-up from step 2 of
R381; both wait for the main input. -/
def State.wakeStart (s : State) (master : Nat) : State :=
  let st := s.fget PWR_STAT.STATE
  let good := s.pwr.mainGood
  let full := !s.flag PWR_STAT.LP_VALID
  let s := (s.fset PWR_STAT.MOVING 1).fset PWR_STAT.TO 0
  let s := (s.fset PWR_STAT.OFF_READY 0).setReg PWR_WAKE.off (PWR_WAKE.FAIL.into 0 (s.fget PWR_WAKE.FAIL))
  let s := s.fset PWR_WAKE.WAIT_MAIN (b2n !good)
  let s := { s with pwr := { s.pwr with
    fromTgt := if full then 3 else st, wakeAt := if good then some s.now else none, image := [],
    wakeRow := if full then 16 else 0, wakeSmb := master = 1 || master = 0xFF } }
  if full && good then s.startRom else s

/-- The wake goes on as R381 from step 3, without the firmware copy and with an empty mask (R399). -/
def State.wakeFail (s : State) : State :=
  let s := (s.fset PWR_WAKE.FAIL 1).event 0xE00C (s.fget PWR_WAKE.STAGE) 0 0
  { s with pwr := { s.pwr with wakeRow := 16, fromTgt := 3, image := [] } }.startRom

/-- A row of the wake table completed. -/
def State.wakeStage (s : State) (r : Nat) : State := s.fset PWR_WAKE.STAGE (max r (s.fget PWR_WAKE.STAGE))

/-- The ports of this module's record train. -/
def State.trainAll (s : State) : State :=
  match s.ownRec with
  | none => s
  | some r => s.each 16 (fun c s => s.trainPort r c)

/-- ACTIVE reached from RETAIN or DORMANT: the generations of the partitions advance, their sluices open, the ports train. -/
def State.reachActive (s : State) : State :=
  let s := (s.reach 0).fset PWR_STAT.MOVING 0
  let s := if s.pwr.wakeSmb then s.alert 5 else s
  let s := s.each 16 (fun p s =>
    let s := s.nextGen p
    if (s.pt p).oos || (s.pt p).held then s else s.modPt p (fun t => { t with closed := false }))
  s.alertPin.trainAll

/-- The usable firmware copy: that of global channel 0, or of channel 4. -/
def State.fwCopy (s : State) : Option (List Byte) :=
  [0, 4].findSome? (fun k => let c := s.ch k; if c.fwGood && !c.fw.isEmpty then some c.fw else none)

/-- The rows of the wake table in the order of their offsets: offset and deadline in tenths of a ms, and the row; row 5 stands once
for each wave (Table 7). -/
def wakeTable : List (Nat × Nat × Nat) :=
  [(0, 1, 0), (1, 100, 1), (100, 250, 2), (250, 600, 3), (600, 1800, 4), (600, 1200, 5), (1200, 1800, 5), (1800, 2400, 5),
   (1800, 2000, 6), (2400, 3000, 5), (3000, 3600, 5), (3600, 4200, 5), (4200, 4800, 5), (4800, 5400, 5), (5400, 10 ^ 9, 7)]

/-- Whether a wake is under way by the table, and its time 0. -/
def State.waking (s : State) : Option Nat :=
  if s.flag PWR_STAT.MOVING && s.fget PWR_STAT.TO = 0 && 2 ≤ s.fget PWR_STAT.STATE && s.pwr.wakeRow < 15 then s.pwr.wakeAt else none

/-- A row's action. -/
def State.wakeAct (s : State) (r : Nat) : State :=
  match r with
  | 0 => s.wakeStage 0
  | 1 => { s with pwr := { s.pwr with stage := 3 } }.partsInReset.graveStart.wakeStage 1
  | 2 => if s.fuses.intact then { s with pwr := { s.pwr with stage := 4 } }.wakeStage 2 else s.raise 0x0006 0 0 0
  | 3 =>
    if !s.pwr.phy then s.wakeFail
    else
    let s := s.each 128 (fun k s => s.modCh k (fun c => { c with selfRef := false, slotAt := s.now }))
    (s.each 16 (fun p s => s.fset (PRT_MEM_STAT.TRAINED p) 0xFF)).wakeStage 3
  | 4 =>
    match s.fwCopy with
    | none => s.wakeFail
    | some b =>
      if s.fwCheck b = 0 then { s with pwr := { s.pwr with image := b } }.wakeStage 4
      else (s.fwRefuse (s.fwCheck b) 5).wakeFail
  | 5 =>
    let k := s.pwr.waves
    let lost := s.pwr.fromTgt ≠ 2 || s.flag PWR_STAT.MASK_LOST
    let s := (s.partUp (2 * k) (fun _ _ => !lost)).partUp (2 * k + 1) (fun _ _ => !lost)
    let s := { s with pwr := { s.pwr with waves := k + 1 } }
    if k + 1 = 8 then s.wakeStage 5 else s
  | 6 =>
    let s := s.fwRun s.pwr.image 5
    ({ s with pwr := { s.pwr with stage := 7, image := [] } }.fset PWR_WAKE.COPY 1).wakeStage 6
  | _ => ({ s with pwr := { s.pwr with stage := 8 } }.wakeStage 7).reachActive

/-- WAKE_ROW: the next row at its offset. A latched GRAVE ends the wake after row 2 (R406). -/
def State.wakeNext (s : State) : State :=
  match s.waking, wakeTable[s.pwr.wakeRow]? with
  | some t, some (off, _, r) =>
    if s.now < t + usUnits (100 * off) then s
    else if 3 ≤ r && s.flag FLT_STAT.GRAVE then s.fset PWR_STAT.MOVING 0
    else
      let k := s.pwr.wakeRow
      let u := s.wakeAct r
      if u.pwr.wakeRow = k then { u with pwr := { u.pwr with wakeRow := k + 1 } } else u
  | _, _ => s

/-- WAKE_DEADLINE_MISS: the next row is not done at its deadline. -/
def State.wakeMiss (s : State) : State :=
  match s.waking, wakeTable[s.pwr.wakeRow]? with
  | some t, some (_, lim, _) => if t + usUnits (100 * lim) < s.now then s.wakeFail else s
  | _, _ => s

/-! ### Requests (R391, R392, R396, R400) -/

/-- Whether a transition is one of Table 6; a partition in OFF is not asked. -/
def moveAllowed (st tgt : Nat) : Bool :=
  match st with
  | 0 => tgt ≤ 4
  | 1 => tgt ≤ 4
  | 2 => tgt = 0 || tgt = 3 || tgt = 4
  | 3 => tgt = 0 || tgt = 4
  | _ => false

/-- Whether some context is in RUN, REPLAY, REPAIR or ARMED. -/
def State.slicesBusy (s : State) : Bool := (List.range 16).any (fun n => 1 ≤ s.slState n && s.slState n ≤ 4)

/-- Whether a reset is under way that a request waits for (R376). -/
def State.resetBusy (s : State) : Bool :=
  s.rst.modWait || (List.range 16).any (fun p => (s.pt p).drain = some DrainFor.partition ||
    (2 ≤ s.fget (PRT_RST_STAT.STATE p) && s.fget (PRT_RST_STAT.STATE p) ≤ 3 && !(s.pt p).held))

/-- A request refused. -/
def State.powerRefuse (s : State) (why : Nat) : State := (s.fset PWR_STAT.REFUSED why).irq 3

/-- A request kept as the pending one. -/
def State.powerPend (s : State) (tgt : Nat) (force : Bool) (master : Nat) : State :=
  let s := if s.flag PWR_STAT.PEND then s.fset PWR_STAT.REPLACED 1 else s
  let s := (s.fset PWR_STAT.PEND 1).fset PWR_STAT.PEND_TGT tgt
  { s with pwr := { s.pwr with pendMaster := master, pendForce := force } }

/-- Every sluice closed for a power-down, the managers told; a forced request ends what runs (R373, R406). -/
def State.powerDrain (s : State) : State :=
  let s := s.notice 0xFFFF true
  let s := s.each 16 (fun n s =>
    let s := if 2 ≤ s.slState n && s.slState n ≤ 4 then (s.abortTick n 6).holdAt n 6 else s
    s.fset (TCK_SL_CTL.CMD_ARM n) 0)
  let s := s.each 16 (fun p s => s.closeSluice p .powerDown)
  s.closeEndpoint .powerDown

/-- An accepted request begun. -/
def State.powerBegin (s : State) (tgt master : Nat) : State :=
  let st := s.fget PWR_STAT.STATE
  let s := (s.fset PWR_STAT.REFUSED 0).fset PWR_STAT.MASTER master
  if 2 ≤ st && tgt = 0 then s.wakeStart master
  else
    let s := (s.fset PWR_STAT.MOVING 1).fset PWR_STAT.TO tgt
    let s := { s with pwr := { s.pwr with fromTgt := st } }
    if st ≤ 1 && tgt ≠ 0 then s.powerDrain else s

/-- A request for a power state. -/
def State.powerReq (s : State) (tgt : Nat) (force : Bool) (master : Nat) : State :=
  let st := s.fget PWR_STAT.STATE
  if s.pwr.off then s
  else if s.flag PWR_STAT.MOVING then s.powerPend tgt force master
  else if tgt = st then s
  else if (s.flag FLT_STAT.GRAVE || s.flag HUB_RST_STAT.HUB_OOS) && tgt ≠ 3 && tgt ≠ 4 then s.powerRefuse 3
  else if !moveAllowed st tgt then s.powerRefuse 2
  else if st ≤ 1 && !force && s.slicesBusy then s.powerRefuse 1
  else if st = 1 && s.now < s.pwr.sbyAt + msUnits 5 then s.powerPend tgt force master
  else if s.resetBusy then s.powerPend tgt force master
  else s.powerBegin tgt master

/-- The pending request checked against the state reached. -/
def State.powerPending (s : State) : State :=
  if !s.flag PWR_STAT.PEND || s.flag PWR_STAT.MOVING || s.resetBusy ||
      (s.fget PWR_STAT.STATE = 1 && s.now < s.pwr.sbyAt + msUnits 5) then s
  else (s.fset PWR_STAT.PEND 0).powerReq (s.fget PWR_STAT.PEND_TGT) s.pwr.pendForce s.pwr.pendMaster

/-- The resets that waited for a transition (R376). -/
def State.powerResets (s : State) : State :=
  if s.rst.modWait then { s with rst := { s.rst with modWait := false } }.moduleReset
  else
    let l := s.rst.later
    State.eachOf l (fun p s => s.partitionReset p) { s with rst := { s.rst with later := [] } }

/-- A write of PWR_REQ. -/
def State.pwrReq (s : State) (m : Master) (v : Word) : State := s.powerReq (PWR_REQ.TARGET.of v) (PWR_REQ.FORCE.of v = 1) m.toNat

/-- What completes a transition. -/
def State.arrive (s : State) (tgt : Nat) : State :=
  let st := s.fget PWR_STAT.STATE
  match tgt with
  | 0 =>
    let s := s.reach 0
    s.each 16 (fun p s => if (s.pt p).oos || (s.pt p).held then s else s.modPt p (fun t => { t with closed := false }))
  | 1 =>
    let s := s.reach 1
    let s := s.each 16 (fun p s => if s.fget (PRT_RST_STAT.STATE p) = 1 then
      (s.fset (PRT_RST_STAT.STATE p) 0).fset (PRT_RST_STAT.BUSY p) 0 else s)
    { s with pwr := { s.pwr with sbyAt := s.now }, host := { s.host with closed := false } }
  | 2 => (s.sleep 2).reach 2
  | 3 =>
    let s := if st ≤ 1 then s.sleep 3 else { s with core := [] }
    -- a main input lost during the entry left LPDDR5 without power
    (if s.pwr.mainGood || 2 ≤ st then s else s.lpLost).reach 3
  | _ => ((if st ≤ 1 then s.sleep 4 else { s with core := [] }).lpLost).offReady

/-- TRANSITION_COMPLETE: a transition whose drains are over completes; then the resets that waited, or the pending request. -/
def State.transitionDone (s : State) : State :=
  let wake := s.fget PWR_STAT.TO = 0 && 2 ≤ s.fget PWR_STAT.STATE
  if !s.flag PWR_STAT.MOVING || wake || !s.modDrained then s
  else
    let s := s.fset PWR_STAT.MOVING 0
    let s := s.arrive (s.fget PWR_STAT.TO)
    let resets := s.rst.modWait || !s.rst.later.isEmpty
    if resets then s.powerResets else s.powerPending

/-- ADDRESS_MATCH in RETAIN or DORMANT, or while one of them is entered (R397, R406). -/
def State.addressMatch (s : State) : State :=
  let entering := s.flag PWR_STAT.MOVING && 2 ≤ s.fget PWR_STAT.TO
  if s.pwr.off || !(entering || 2 ≤ s.fget PWR_STAT.STATE) then s else s.powerReq 0 false 0xFF

/-! ### Start-up: the waves (R381, R383) -/

/-- Start-up complete: a start-up from OFF leaves it, so that the generations advance (R360; DEDUCED, log entry 12); the sluices open, or with valid LPDDR5 wait for PARTITION_REAPPLY; the remaining ports train. -/
def State.wavesDone (s : State) : State :=
  let s := { s with pwr := { s.pwr with stage := 8 } }.moduleBack
  let lp := s.flag PWR_STAT.LP_VALID
  let s := if lp then s else s.each 16 (fun p s =>
    if (s.pt p).oos || (s.pt p).held then s else s.modPt p (fun t => { t with closed := false, reapply := [] }))
  let s := s.fset PWR_STAT.LP_VALID 1
  if s.flag PWR_STAT.MOVING then s.reachActive.powerPending
  else
    let s := if s.pwr.fromTgt = 4 then
        let s := s.reach 0
        { s with pwr := { s.pwr with fromTgt := 0 } }.each 16 (fun p s => s.nextGen p)
      else s
    s.trainAll.powerPending

/-- COMPUTE_WAVE: at most every 60 ms the next wave of two partitions (R383). -/
def State.computeWave (s : State) (failed : List CoreId) : State :=
  let k := s.pwr.waves
  if s.pwr.stage ≠ 7 || !s.fwRuns || s.waking.isSome || 8 ≤ k || (k ≠ 0 && s.now < s.pwr.waveAt + msUnits 60) then s
  else
    let s := (s.partUp (2 * k) (fun _ _ => false)).partUp (2 * k + 1) (fun _ _ => false)
    let s := (s.retireCores (2 * k) failed).retireCores (2 * k + 1) failed
    let s := { s with pwr := { s.pwr with waves := k + 1, waveAt := s.now } }
    if k + 1 = 8 then s.wavesDone else s

/-! ### The supply (R379, R380, R402 to R404, R460) -/

/-- What OFF keeps of a partition: its remap list and rotation counts (R449). -/
def PartSt.nv (t : PartSt) : PartSt :=
  { PartSt.init with
    closed := true, clusSub := t.clusSub, coreSub := t.coreSub, engSub := t.engSub, coreRot := t.coreRot, clusRot := t.clusRot,
    rotates := t.rotates, rotFrom := t.rotFrom, retired := t.retired, remaps := t.remaps, oos := t.oos, bypass := t.bypass, altMem := t.altMem }

/-- AUX_LOSS: OFF, with only the fuses and the NOR (R379, Table 8). -/
def State.auxLoss (s : State) : State :=
  if s.pwr.off then s
  else
    let parts : Store PartSt := (List.range 16).map (fun p => (p, (s.pt p).nv))
    { State.reset with
      pending := s.pending, now := s.now, draws := s.draws, out := s.out, fuses := s.fuses, nor := s.nor, part := parts, regs := []
      port := [], evr := [], tick := { TickSt.init with clk := s.fuses.clkFuse.toNat }
      pwr := { State.reset.pwr with off := true, stage := 0, mainGood := false }
      pins := { State.reset.pins with perstN := s.pins.perstN, sysclk := s.pins.sysclk } }

/-- A NOR object without a value: none of its versions passes its tag, or the NOR cannot be read (Table 7, R450). -/
def State.norLost (s : State) (o : Nat) : State :=
  match o with
  | 1 => { s with nor := { s.nor with cycles := 0, opsec := 0 } }
  | 2 => { s with nor := { s.nor with manifest := [] } }
  | 3 => { s with nor := { s.nor with calib := [] } }
  | 4 => s.each 16 (fun p s => s.modPt p PartSt.unmapped)
  | 5 => { s with nor := { s.nor with keys := [] } }
  | _ => { s with nor := { s.nor with svn := 0 } }

/-- The objects of which the hub finds no value at power-on. -/
def NorSt.lost (n : NorSt) : List Nat := if n.readable then n.failed else [1, 2, 3, 4, 5, 6]

/-- The NOR state that the power-on record shows (Table 2 of R434). -/
def NorSt.shown (n : NorSt) : Nat := if !n.readable then 2 else if n.failed.isEmpty then 0 else 1

/-- AUX_POWER_ON: the always-on domain starts (R381 step 1, R433, R449, R459). -/
def State.auxPowerOn (s : State) (addr : BitVec 3) : State :=
  if !s.pwr.off then s
  else
    let st := s.nor.shown
    let bad := if s.nor.readable then s.nor.failed else []
    let s := State.eachOf s.nor.lost (fun o s => s.norLost o) s
    let nor := if s.nor.readable then { s.nor with cycles := (s.nor.cycles + 1) % 2 ^ 32, failed := [] } else s.nor
    let s := { s with
      nor := nor
      smb := { s.smb with addr := addr }
      pwr := { s.pwr with off := false, stage := 1, onAt := s.now, opBase := nor.opsec, savedAt := s.now, stateAt := s.now } }
    let s := s.fusedRegs.clearRemaps
    let s := s.each 16 (fun p s => if (s.pt p).oos then s.fset (PRT_RST_STAT.STATE p) 4 else s)
    State.eachOf bad (fun o s => s.event 0xE00A o 0 0) (s.event 0xE001 st 0 0)

/-- MAIN_INPUT_GOOD: step 2 of R381 where the module waits for it, or time 0 of a wake. -/
def State.mainInputGood (s : State) : State :=
  if s.pwr.off || s.pwr.mainGood then s
  else
    let s := { s with pwr := { s.pwr with mainGood := true } }
    let st := s.fget PWR_STAT.STATE
    if st ≤ 1 then (if s.pwr.stage = 1 then s.startRom else s)
    else if s.flag PWR_STAT.MOVING && s.fget PWR_STAT.TO = 0 then
      if s.pwr.wakeRow = 16 then (if s.pwr.stage = 1 then s.startRom else s)
      else { s with pwr := { s.pwr with wakeAt := some s.now } }
    else s

/-- Every main-fed domain collapses with LPDDR5; the module rests as DORMANT (R404). -/
def State.collapse (s : State) : State :=
  let s := s.advFunctions.railsOff.lpLost
  let s := s.fcount PWR_EVT.MAIN_LOSS 1
  ((s.fset PWR_STAT.MOVING 0).reach 3).alertPin.powerPending

/-- MAIN_INPUT_LOSS: the input below 30 V. -/
def State.mainInputLoss (s : State) : State :=
  if s.pwr.off || !s.pwr.mainGood then s
  else
    let s := { s with pwr := { s.pwr with mainGood := false } }
    let st := s.fget PWR_STAT.STATE
    let moving := s.flag PWR_STAT.MOVING
    let to_ := s.fget PWR_STAT.TO
    if st ≤ 1 && moving && 2 ≤ to_ then
      -- before the LPDDR5 domains move to 12V_AUX: the entry completes as DORMANT, or as OFF
      let s := (s.lpLost.fset PWR_STAT.TO (if to_ = 4 then 4 else 3)).fcount PWR_EVT.MAIN_LOSS 1
      s.each 16 (fun p s => if (s.pt p).drain.isSome then s.modPt p (fun t => { t with drain := none }) else s)
        |> fun s => { s with host := { s.host with drain := none } }
    else if st ≤ 1 then s.collapse
    else if moving && to_ = 0 && (4 ≤ s.pwr.wakeRow) then s.collapse
    else
      -- RETAIN and DORMANT: the retention domains collapse; a wake waits for the input again
      let lost := st = 2 || s.pwr.fromTgt = 2
      let s := { s with core := [] }
      let s := if 2 ≤ s.pwr.stage then s.railsOff else s
      let s := if lost then s.fset PWR_STAT.MASK_LOST 1 else s
      let s := if st = 2 then s.reach 3 else s
      if moving && to_ = 0 then
        { s with pwr := { s.pwr with wakeAt := none, wakeRow := if s.pwr.wakeRow = 16 then 16 else 0, waves := 0 } }.fset
          PWR_WAKE.WAIT_MAIN 1
      else s

/-- SUPPLY_RESET_LEVEL: the input below 38.0 V for 2 µs (R403). -/
def State.supplyReset (s : State) (vin : Nat) : State :=
  if s.pwr.off || 380 ≤ vin then s
  else
    let s := (s.setVin vin).fcount PWR_EVT.SUPPLY_RESETS 1
    let st := s.fget PWR_STAT.STATE
    let waking := s.flag PWR_STAT.MOVING && s.fget PWR_STAT.TO = 0 && 2 ≤ st
    let s := { s with pwr := { s.pwr with mainGood := false } }
    if waking && (if s.pwr.wakeRow = 16 then s.hubUp else 2 ≤ s.pwr.wakeRow) then
      let s := (s.raise 0x0A02 0 0 vin).countHub
      { s with pwr := { s.pwr with wakeRow := 16, fromTgt := 3, image := [] } }.doModule
    else if 2 ≤ st then
      if waking then
        { s with pwr := { s.pwr with wakeAt := none, wakeRow := if s.pwr.wakeRow = 16 then 16 else 0 } }.fset PWR_WAKE.WAIT_MAIN 1
      else s.fset PWR_WAKE.WAIT_MAIN 1
    else if !s.hubUp || s.rst.modWait then s
    else ((s.raise 0x0A02 0 0 vin).countHub).moduleReset

/-! ### Clock, limit and governor (R387 to R389) -/

/-- Whether a clock lies below the CLOCK of a slice with an active or shadow rigging. -/
def State.clockLow (s : State) (mhz : Nat) : Bool :=
  (List.range 16).any (fun n =>
    (s.flag (RIG_SL_STAT.ACTIVE n) && decide (mhz < (s.sliceMap n).clock)) ||
    (s.fget (RIG_SL_STAT.SHADOW n) ≠ 0 && decide (mhz < (s.shadMap n).clock)))

/-- The clock that a written value sets: within 500 and CLK_FUSE, the lower step of 50. -/
def State.clockOf (s : State) (v : Nat) : Nat :=
  let c := min s.fuses.clkFuse.toNat (max 500 v)
  500 + (c - 500) / 50 * 50

/-- A write of PWR_CLK_SET. -/
def State.clkSet (s : State) (m : Master) (v : Word) : State :=
  let c := s.clockOf (PWR_CLK_SET.CLK.of v)
  if s.clockLow c then s.refuse PWR_CLK_SET.off else s.store m PWR_CLK_SET.off (PWR_CLK_SET.CLK.into v c)

/-- A write of PWR_PLIM. -/
def State.plimSet (s : State) (m : Master) (v : Word) : State :=
  s.store m PWR_PLIM.off (PWR_PLIM.PLIM.into v (min s.fuses.plimFuse.toNat (max 20 (PWR_PLIM.PLIM.of v))))

/-- A write of PWR_WARN. -/
def State.warnSet (s : State) (m : Master) (v : Word) : State :=
  s.store m PWR_WARN.off (PWR_WARN.WARN.into v (min 460 (max 400 (PWR_WARN.WARN.of v))))

/-- A write of PWR_CTL: CLR_RES is master 0x00's alone. -/
def State.pwrCtl (s : State) (m : Master) (v : Word) : State :=
  let s := if PWR_CTL.CLR_MEAS.of v = 1 then
      (s.fset PWR_VIN.MIN (s.fget PWR_VIN.NOW)).fset PWR_PIN.MAX (s.fget PWR_PIN.NOW) else s
  if PWR_CTL.CLR_RES.of v = 0 then s
  else if m ≠ 0 then s.badWrite m PWR_CTL.off
  else
    let s := s.each 4 (fun i s => s.setPair (PWR_RES_ACT_LO.off + 8 * i) 0)
    let s := s.unsnap (fun off => PWR_RES_ACT_LO.off ≤ off && off < PWR_RES_ACT_LO.off + 32)
    { s.setReg PWR_ENTRIES.off 0 with pwr := { s.pwr with stateAt := s.now } }

/-- The input power as read. -/
def State.setPin (s : State) (w : Nat) : State :=
  (s.fset PWR_PIN.NOW w).fset PWR_PIN.MAX (max w (s.fget PWR_PIN.MAX))

/-- PWR_STAT.GOV shows a power or a thermal request (R388, R466). -/
def State.govFlag (s : State) : State := s.fset PWR_STAT.GOV (b2n (s.tick.steps.testBit 1 && !s.tick.steps.testBit 4 ||
  s.tick.steps.testBit 2 && !s.tick.steps.testBit 5))

/-- Whether the governor's request is in force. -/
def State.govOn (s : State) : Bool := s.tick.steps.testBit 1 && !s.tick.steps.testBit 4

/-- GOVERNOR_EVALUATION: the 1 ms average of the input power, every 10 µs. -/
def State.governor (s : State) (w : Nat) : State :=
  if !s.hubUp || 2 ≤ s.fget PWR_STAT.STATE then s
  else
    let s := s.setPin w
    let lim := 100 * s.fget PWR_PLIM.PLIM
    if lim < w then
      let s := { s with pwr := { s.pwr with gov := none } }
      if s.govOn then s else ((s.askStretch 1).fcount PWR_EVT.GOV 1).govFlag
    else if 100 * w < 95 * lim then
      let s := s.fset PWR_STAT.PLIM_LOW 0
      match s.pwr.gov with
      | none => { s with pwr := { s.pwr with gov := some s.now } }
      | some t => if s.govOn && t + msUnits 10 ≤ s.now then (s.endStretch 1).govFlag else s
    else { s with pwr := { s.pwr with gov := none } }

/-- POWER_LIMIT_UNATTAINABLE: the average still above the limit 10 ms after the stretch took effect. -/
def State.limitLow (s : State) : State :=
  if s.govOn && s.flag TCK_STRETCH.ACTIVE && s.tick.effAt + msUnits 10 ≤ s.now && !s.flag PWR_STAT.PLIM_LOW &&
      100 * s.fget PWR_PLIM.PLIM < s.fget PWR_PIN.NOW then
    (s.fset PWR_STAT.PLIM_LOW 1).raise 0x0A07 0 0 (s.fget PWR_PLIM.PLIM)
  else s

/-! ### Commands -/

/-- A row of PWR_REQ. -/
def State.pwrRow (s : State) (m : Master) (v : Word) : State := s.gate true m PWR_REQ.off v (fun s => s.pwrReq m v)

/-- AUX_POWER_ON (R381). -/
def execAuxPowerOn (addr : BitVec 3) (s : State) : Result := done s (s.auxPowerOn addr)
/-- AUX_LOSS (R379). -/
def execAuxLoss (s : State) : Result := done s s.auxLoss
/-- MAIN_INPUT_GOOD (R380). -/
def execMainInputGood (s : State) : Result := done s s.mainInputGood
/-- MAIN_INPUT_LOSS (R404). -/
def execMainInputLoss (s : State) : Result := done s s.mainInputLoss
/-- MAIN_OVERVOLTAGE: every main-fed rail off, as for a loss of the main input (R460). -/
def execMainOvervoltage (s : State) : Result := done s s.mainInputLoss
/-- SUPPLY_RESET_LEVEL (R403). -/
def execSupplyResetLevel (vin : BitVec 10) (s : State) : Result := done s (s.supplyReset vin.toNat)
/-- COMPUTE_WAVE (R383). -/
def execComputeWave (failed : List CoreId) (s : State) : Result := done s (s.computeWave failed)
/-- POWER_REQ_ACTIVE (R391). -/
def execPowerReqActive (m : Master) (v : Word) (s : State) : Result := done s (s.pwrRow m v)
/-- POWER_REQ_STANDBY (R391). -/
def execPowerReqStandby (m : Master) (v : Word) (s : State) : Result := done s (s.pwrRow m v)
/-- POWER_REQ_RETAIN (R393). -/
def execPowerReqRetain (m : Master) (v : Word) (s : State) : Result := done s (s.pwrRow m v)
/-- POWER_REQ_DORMANT (R393). -/
def execPowerReqDormant (m : Master) (v : Word) (s : State) : Result := done s (s.pwrRow m v)
/-- POWER_REQ_OFF (R393). -/
def execPowerReqOff (m : Master) (v : Word) (s : State) : Result := done s (s.pwrRow m v)
/-- TRANSITION_COMPLETE (R400). -/
def execTransitionComplete (s : State) : Result := done s s.transitionDone
/-- STANDBY_MINIMUM: a request that waited for 5 ms in STANDBY (R396). -/
def execStandbyMinimum (s : State) : Result := done s (if s.fget PWR_STAT.STATE = 1 then s.powerPending else s)
/-- ADDRESS_MATCH (R397). -/
def execAddressMatch (s : State) : Result := done s s.addressMatch
/-- WAKE_ROW (R398). -/
def execWakeRow (s : State) : Result := done s s.wakeNext
/-- WAKE_DEADLINE_MISS (R399). -/
def execWakeDeadlineMiss (s : State) : Result := done s s.wakeMiss
/-- GOVERNOR_EVALUATION (R388). -/
def execGovernorEvaluation (watts : BitVec 16) (s : State) : Result := done s (s.governor watts.toNat)
/-- POWER_LIMIT_UNATTAINABLE (R389). -/
def execPowerLimitUnattainable (s : State) : Result := done s s.limitLow
/-- CLOCK_SET (R387). -/
def execClockSet (m : Master) (v : Word) (s : State) : Result :=
  done s (s.gate true m PWR_CLK_SET.off v (fun s => s.clkSet m v))
/-- CLR_MEAS (R407). -/
def execClrMeas (m : Master) (v : Word) (s : State) : Result := done s (s.gate true m PWR_CTL.off v (fun s => s.pwrCtl m v))
/-- CLR_RES (R401). -/
def execClrRes (m : Master) (v : Word) (s : State) : Result := done s (s.gate true m PWR_CTL.off v (fun s => s.pwrCtl m v))
/-- PARTITION_REAPPLY (R371); a power request that waited for it is then checked (R376). -/
def execPartitionReapply (part : PartId) (s : State) : Result := done s (s.partitionReapply part.val).powerPending

end Sys2Proof.Machine
end

