-- ==== Sys2Proof/Machine/HostPort.lean ====
section
/-! DEFINITION. The PCI Express endpoint (R408 to R417, R425): accesses through BAR2 of PF0 and through the intake windows,
the handling of their errors, endpoint and function resets, link-up and the sleep of functions. -/

namespace Sys2Proof.Machine

/-! ### Accesses to LPDDR5 -/

/-- Whether `n` bytes from an MLA are addressed below 2⁴⁰ and mapped (R412). -/
def mlaServed (a n : Nat) : Bool := mlaMapped a && mlaMapped (a + (n - 1)) && mlaPart a = mlaPart (a + (n - 1))

/-- An error logged in AER for a function. -/
def State.aerLog (s : State) (f : Nat) (e : AerErr) : State :=
  if s.host.aer.contains (f, e) then s else { s with host := { s.host with aer := s.host.aer ++ [(f, e)] } }

/-- Whether a partition refuses host accesses to its LPDDR5: its sluice is closed, or the endpoint's is (R359, R373). -/
def State.barClosed (s : State) (p : Nat) : Bool := s.host.closed || (s.pt p).closed || (s.pt p).held

/-- A request refused: counted in HUB_INTAKE_DROP; a read completes with Unsupported Request (R412, R413, R415). -/
def State.barRefuse (s : State) (f : Nat) (read : Bool) : State :=
  let s := (s.fcount HUB_INTAKE_DROP.DROP 1).aerLog f .unsupportedRequest
  if read then s.emit (.completion .unsupported) else s

/-- The parity groups of 512 bytes that `n` bytes from an address touch. -/
def groupsIn (a n : Nat) : List Nat := (List.range (n / 512 + 2)).map (fun i => (a / 512 + i) * 512) |>.filter (fun g => g < a + n)

/-- A parity hit of a host read: counted, and reported as the parity hit and as the poisoned completion, each a NOTE (R149, R506). -/
def State.barHit (s : State) (b : Nat) : State :=
  ((s.memCount b).raiseAs 0 0x0601 (chanSrc (mlaPart b) (mlaChan b)) b 0).raise 0x0802 0 b 0

/-- A host read of `n` bytes at an MLA that is served. -/
def State.barRead (s : State) (f a n : Nat) : State :=
  if s.barClosed (mlaPart a) then (s.aerLog f .completerAbort).emit (.completion .abort)
  else
    let bytes := s.memRead a n
    let t := State.eachOf (s.memFails a n) (fun b s => s.barHit b) s
    t.emit (.completion (if (s.memBadIn a n).isSome then .poisoned bytes else .data bytes))

/-- A host write at an MLA that is served. Elements of a running job's streams that it meets become undefined (R156). -/
def State.barWrite (s : State) (a : Nat) (data : List Byte) : State :=
  let p := mlaPart a
  if s.barClosed p then s.fcount (PRT_SLU_CNT.REFUSED p) 1
  else
    let s := s.modEn (8 * p + mlaChan a) (fun e =>
      if e.run.isSome then { e with raced := e.raced ++ [(a, a + data.length)] } else e)
    s.memWrite a data

/-- A poisoned write: discarded and counted (R415). An advisory error that is not fatal counts as a correctable one (PRESUMED, log
entry 65). -/
def State.barPoison (s : State) (f : Nat) : State :=
  ((s.fcount HUB_INTAKE_DROP.DROP 1).fcount HUB_PCIE_STAT.CORR 1).aerLog f .poisonedTlp

/-- Whether requests of the host reach the endpoint: the hub runs and the endpoint is not in reset. -/
def State.hostUp (s : State) : Bool := s.hubUp && !s.host.resetting && !s.pins.perstN

/-- The MLA of an offset in PF0 BAR2 (R412). -/
def State.bar2Mla (s : State) (off : Nat) : Nat := s.fget HUB_BAR2_BASE.BASE * 2 ^ 30 + off

/-- A read of PF0 BAR2. -/
def State.bar2Read (s : State) (off n : Nat) : State :=
  if !s.hostUp then s
  else if mlaServed (s.bar2Mla off) n then s.barRead 2 (s.bar2Mla off) n else s.barRefuse 2 true

/-- A write of PF0 BAR2. -/
def State.bar2Write (s : State) (off : Nat) (poisoned : Bool) (data : List Byte) : State :=
  if !s.hostUp then s
  else if poisoned then s.barPoison 2
  else if mlaServed (s.bar2Mla off) data.length then s.barWrite (s.bar2Mla off) data else s.barRefuse 2 false

/-! ### Intake windows (R413) -/

/-- The window entry of an access by a function, and its offset within the window; none where no window covers it. -/
def intakeEntry (m off : Nat) : Option (Nat × Nat) :=
  if m = 3 then (if off < 2 ^ 34 then some (off / 2 ^ 30, off % 2 ^ 30) else none)
  else if 0x10 ≤ m && m < 0x50 then (if off < 2 ^ 30 then some (m, off) else none)
  else none

/-- The base of a window entry. -/
def State.winBase (s : State) (e : Nat) : Nat := s.fget (HUB_WIN_W0.BASE_LO e) * 2 ^ 12 + s.fget (HUB_WIN_W1.BASE_HI e) * 2 ^ 32

/-- The MLA that an intake access of `n` bytes reaches, if the window table and the rigging serve it; behind a closed sluice the endpoint
agent that knows the rigging is not reached (R359, R413, R415). -/
def State.intakeMla (s : State) (m off n : Nat) (read : Bool) : Option Nat :=
  match intakeEntry m off with
  | none => none
  | some (e, o) =>
    let a := s.winBase e + o
    let dir := if read then s.flag (HUB_WIN_W3.RD e) else s.flag (HUB_WIN_W3.WR e)
    if s.flag (HUB_WIN_W3.VALID e) && decide (o + (n - 1) < s.fget (HUB_WIN_W2.LIMIT e) * 4096) && dir && mlaServed a n &&
        (s.barClosed (mlaPart a) || ((s.pt (mlaPart a)).owner.isSome &&
          (groupsIn a n).all (fun g => s.mlaType g = 4 || s.mlaType g = 7)))
    then some a else none

/-- A read through an intake window. -/
def State.intakeRead (s : State) (m off n : Nat) : State :=
  if !s.hostUp then s
  else match s.intakeMla m off n true with
    | some a => s.barRead m a n
    | none => s.barRefuse m true

/-- A write through an intake window. -/
def State.intakeWrite (s : State) (m off : Nat) (poisoned : Bool) (data : List Byte) : State :=
  if !s.hostUp then s
  else if poisoned then s.barPoison m
  else match s.intakeMla m off data.length false with
    | some a => s.barWrite a data
    | none => s.barRefuse m false

/-! ### Resets and link (R416) -/

/-- The endpoint's sluice closed for an endpoint reset, unless a drain is under way. -/
def State.endpointReset (s : State) : State := if s.host.drain.isSome || s.host.resetting then s else s.closeEndpoint .endpoint

/-- 0x0801 and an endpoint reset, which counts (R364). -/
def State.pcieFault (s : State) (arg : Nat) : State := ((s.raise 0x0801 0 0 arg).countEndpoint).endpointReset

/-- An uncorrectable error. -/
def State.pcieError (s : State) (aer : BitVec 16) : State :=
  if s.hubUp then (s.aerLog 2 (.uncorrectable aer)).pcieFault aer.toNat else s

/-- Masters of PF1 and of every virtual function. -/
def intakeMasters : List Nat := 3 :: (List.range 64).map (fun v => 0x10 + v)

/-- Functions reset: their generations advance, they leave D3hot, and their AER log is cleared (R416). -/
def State.resetFns (s : State) (ms : List Nat) : State :=
  let h := { s.host with d3hot := s.host.d3hot.filter (fun m => !ms.contains m), aer := s.host.aer.filter (fun e => !ms.contains e.1) }
  State.eachOf ms (fun m s => s.advGen m) { s with host := h }

/-- A Function Level Reset: of PF0, of PF1 with every VF, of one VF. -/
def State.flr (s : State) (m : Nat) : State :=
  if !s.hostUp || s.host.closed || !isFunction m then s
  else s.resetFns (if m = 3 then intakeMasters else [m])

/-- PERST_N, a hot reset, or the loss of the link; a surprise loss of the link counts (R364). -/
def State.perst (s : State) : PerstEvent → State
  | .released => { s with pins := { s.pins with perstN := false } }
  | .asserted =>
    let s := { s with pins := { s.pins with perstN := true } }
    if s.hubUp then s.endpointReset else s
  | .hotReset => if s.hostUp then s.endpointReset else s
  | .linkDown =>
    if s.hubUp && s.host.linkUp then ({ s with host := { s.host with linkUp := false } }.countEndpoint).endpointReset else s

/-- A function enters D3hot (R425). -/
def State.d3hotEnter (s : State) (m : Nat) : State :=
  if s.hostUp && isFunction m then { s with host := { s.host with d3hot := addKey s.host.d3hot m } } else s

/-- A function returns to D0. -/
def State.d3hotLeave (s : State) (m : Nat) : State :=
  if s.hostUp then { s with host := { s.host with d3hot := s.host.d3hot.filter (fun x => x ≠ m) } } else s

/-- The link comes up at a rate and a width within the limits; not while PERST_N is asserted, a drain is under way, or the
endpoint is out of service. FLIT mode is used at 64 and 128 GT/s (R408). -/
def State.linkUp (s : State) (speed width : Nat) : State :=
  let s0 := s
  if !s.hubUp || s.pins.perstN || s.host.linkUp || s.host.drain.isSome || s.flag HUB_RST_STAT.PCIE_OOS || speed = 0 then s0
  else
    let sp := min speed (s.fget HUB_PCIE_CTL.MAX_SPEED)
    let s := (s.fset HUB_PCIE_STAT.SPEED sp).fset HUB_PCIE_STAT.WIDTH (min (min 2 width) (s.fget HUB_PCIE_CTL.MAX_WIDTH))
    let s := s.fset HUB_PCIE_STAT.FLIT (b2n (decide (6 ≤ sp)))
    { s with host := { s.host with linkUp := true, closed := false, resetting := false } }

/-! ### Commands -/

/-- When a host access is carried out: now, or at the end of the calibration slot of the channel it needs (R414). -/
def State.barFree (s : State) (a : Option Nat) : Nat := (a.map s.chanFree).getD s.now

/-- The channel address that an access of PF0 needs. -/
def State.bar2At (s : State) (off n : Nat) : Option Nat := if mlaServed (s.bar2Mla off) n then some (s.bar2Mla off) else none

/-- BAR2_READ (R412). -/
def execBar2Read (off : BitVec 36) (len : BitVec 13) (s : State) : Result :=
  doneAt s (s.barFree (s.bar2At off.toNat len.toNat)) (fun s => s.bar2Read off.toNat len.toNat)
/-- BAR2_WRITE (R412). -/
def execBar2Write (off : BitVec 36) (poisoned : Bool) (data : List Byte) (s : State) : Result :=
  doneAt s (s.barFree (s.bar2At off.toNat data.length)) (fun s => s.bar2Write off.toNat poisoned data)
/-- INTAKE_READ (R413). -/
def execIntakeRead (m : Master) (off : BitVec 36) (len : BitVec 13) (s : State) : Result :=
  doneAt s (s.barFree (s.intakeMla m.toNat off.toNat len.toNat true)) (fun s => s.intakeRead m.toNat off.toNat len.toNat)
/-- INTAKE_WRITE (R413). -/
def execIntakeWrite (m : Master) (off : BitVec 36) (poisoned : Bool) (data : List Byte) (s : State) : Result :=
  doneAt s (s.barFree (s.intakeMla m.toNat off.toNat data.length false)) (fun s => s.intakeWrite m.toNat off.toNat poisoned data)
/-- PCIE_UNCORRECTABLE_ERROR (R415). -/
def execPcieUncorrectableError (aer : BitVec 16) (s : State) : Result := done s (s.pcieError aer)
/-- FLR (R416). -/
def execFlr (m : Master) (s : State) : Result := done s (s.flr m.toNat)
/-- PERST_N (R416). -/
def execPerstN (e : PerstEvent) (s : State) : Result := done s (s.perst e)
/-- D3HOT_ENTRY (R425). -/
def execD3hotEntry (m : Master) (s : State) : Result := done s (s.d3hotEnter m.toNat)
/-- D3HOT_EXIT (R425). -/
def execD3hotExit (m : Master) (s : State) : Result := done s (s.d3hotLeave m.toNat)
/-- PCIE_LINK_UP (R408). -/
def execPcieLinkUp (speed : BitVec 3) (width : BitVec 2) (s : State) : Result := done s (s.linkUp speed.toNat width.toNat)

end Sys2Proof.Machine
end

