-- ==== Sys2Proof/Machine/Smbus.lean ====
section
/-! DEFINITION. The SMBus target (R397, R418, R419, R438, R448): when it serves a command, and what each command does. -/

namespace Sys2Proof.Machine

/-! ### Service -/

/-- Whether the SMBus target is in full service: in RETAIN and DORMANT only once a wake has run row 6 and 200 ms have passed, or
while the wake goes on as R381; a hub out of service leaves its domain up (R364, R397, R398, R418). -/
def State.smbFull (s : State) : Bool :=
  (s.hubUp || (!s.pwr.off && s.pwr.mainGood && s.flag HUB_RST_STAT.HUB_OOS)) && (decide (s.fget PWR_STAT.STATE < 2) || s.pwr.wakeRow = 16 ||
    (match s.waking with | some t => decide (9 ≤ s.pwr.wakeRow) && decide (t + msUnits 200 ≤ s.now) | none => false))

/-- Whether the wake front end alone runs (R397). -/
def State.smbSleeps (s : State) : Bool := !s.pwr.off && decide (2 ≤ s.fget PWR_STAT.STATE) && !s.smbFull

/-- A command byte served: `f` is its effect; `fw` marks a command that needs firmware, `latch` one that the always-on latches
serve while cause 1 is set (R418, R419). A command that is not served is not acknowledged. -/
def State.smbus (s : State) (code : Nat) (fw latch : Bool) (f : State → State) : State :=
  if s.smbSleeps then
    if latch && s.smb.causes.getLsbD 1 then f s.addressMatch else s.addressMatch.emit (.smbus code none)
  else if !s.smbFull || (fw && !s.fwRuns) then s.emit (.smbus code none)
  else f s

/-- A read command answered. -/
def State.smbRead (s : State) (code : Nat) (b : List Byte) : State := s.emit (.smbus code (some b))

/-- A write command acknowledged. -/
def State.smbAck (s : State) (code : Nat) : State := s.emit (.smbus code (some []))

/-! ### Contents (Table 7) -/

/-- IDENT. -/
def State.smbIdent (s : State) : List Byte :=
  leBytes 4 (s.view 0 PWR_VAR.off).toNat ++ leBytes 8 s.fuses.serial.toNat ++
    leBytes 2 (if s.fwRuns then s.fget SEC_FW_LEVEL.FEAT else 0) ++
    (if 4 ≤ s.pwr.stage then s.fuses.idDig.take 6 else List.replicate 6 0)

/-- STATUS. -/
def State.smbStatus (s : State) : Nat :=
  s.fget PWR_STAT.STATE + s.fget PWR_STAT.MOVING * 2 ^ 3 + s.fget PWR_STAT.OFF_READY * 2 ^ 4 + s.fget FLT_STAT.GRAVE * 2 ^ 5 +
    s.fget HUB_RST_STAT.PWR_CYCLE_REQ * 2 ^ 6 + s.fget HUB_RST_STAT.HUB_OOS * 2 ^ 7 + s.fget PWR_STAT.LP_VALID * 2 ^ 8

/-- The coolant outlet in °C: the reading is signed, in units of 1/16 °C. -/
def State.outletC (s : State) : Nat := ofInt 8 (toInt 16 (s.fget HUB_COOL.OUTLET) / 16)

/-- SENSORS. -/
def State.smbSensors (s : State) : List Byte :=
  leBytes 2 (s.fget PWR_VIN.NOW) ++ leBytes 2 (s.fget PWR_PIN.NOW) ++ leBytes 1 (s.fget HUB_THERM_STAT.HOT_TEMP) ++
    leBytes 1 s.outletC ++ [0, 0]

/-- FAULTS. -/
def State.smbFaults (s : State) : List Byte :=
  (List.range 5).flatMap (fun i => leBytes 4 (s.fget (FLT_CNT.CNT i))) ++ leBytes 2 (s.fget FLT_STAT.GRAVE_CODE)

/-- A record as EVR_READ returns it: 32 zero bytes where it is not held. -/
def State.evrBytes (s : State) (seq : Nat) : List Byte :=
  let r := s.evrRec seq
  let head := s.fget EVR_HEAD.HEAD
  if evrValid seq r && seq < head && s.fget EVR_BASE.BASE ≤ seq && head - 4096 ≤ seq then bytesOf r else List.replicate 32 0

/-- EVR_READ: EVR_HEAD and the records; a count outside 1 to 7 takes the nearer end. -/
def State.smbRecords (s : State) (first n : Nat) : List Byte :=
  leBytes 4 (s.fget EVR_HEAD.HEAD) ++ (List.range (min 7 (max 1 n))).flatMap (fun i => s.evrBytes (first + i))

/-! ### Alerts -/

/-- ALERT_CLR. -/
def State.alertClr (s : State) (v : BitVec 16) : State :=
  State.alertPin { s with smb := { s.smb with causes := s.smb.causes &&& ~~~ v, announced := s.smb.announced &&& ~~~ v } }

/-- ALERT_EN written: bits 0 to 3 cannot be cleared while a power cycle is requested or GRAVE is latched. -/
def State.alertEn (s : State) (v : BitVec 16) : State :=
  let must : BitVec 16 := if s.flag HUB_RST_STAT.PWR_CYCLE_REQ || s.flag FLT_STAT.GRAVE then 0xF else 0
  State.alertPin { s with smb := { s.smb with enables := (v &&& 0x3F) ||| must } }

/-- The address that answers the Alert Response Address. -/
def State.alertByte (s : State) : List Byte := [BitVec.ofNat 8 (0x58 + s.smb.addr.toNat)]

/-- A read of the Alert Response Address: only a module that drives the pin answers; its causes are then announced. Asleep, it
answers only while cause 1 is latched, and the pin stays low (R419). -/
def State.alertResponse (s : State) : State :=
  if s.smbSleeps then
    if s.smb.causes.getLsbD 1 then s.smbRead 0x0C s.alertByte else s.emit (.smbus 0x0C none)
  else if s.smbFull && s.pins.alertN then
    (State.alertPin { s with smb := { s.smb with announced := s.smb.announced ||| (s.smb.causes &&& s.smb.enables) } }).smbRead 0x0C
      s.alertByte
  else s.emit (.smbus 0x0C none)

/-! ### Attestation (R448) -/

/-- Whether a request of the SMBus path waits for its signature. -/
def State.attSigning (s : State) : Bool := s.att.queue.any (fun r => r.path = 1)

/-- The status byte of ATTEST. -/
def State.attStatus (s : State) : Byte := if s.attSigning then 1 else if s.att.smb.isSome then 0 else 2

/-- START: a request queued; the response before it is discarded. -/
def State.attStart (s : State) (sel : Nat) (nonce : List Byte) : State :=
  let s := { s with att := { s.att with smb := none } }
  (s.attAsk ⟨1, sel, nonce, none⟩).smbRead 0x50 [1]

/-- FETCH: the status and the next 240 bytes from an offset. -/
def State.attFetch (s : State) (off : Nat) : State :=
  let b := if s.attStatus = 0 then padTo 240 0 (((s.att.smb.getD []).drop off).take 240) else List.replicate 240 0
  s.smbRead 0x50 (s.attStatus :: b)

/-- MBX_SEND: sixteen words staged and posted as master 0x01 (R418). -/
def State.smbSend (s : State) (c : Nat) (data : List Byte) : State :=
  let s := s.smbAck 0x40
  if s.maySend 1 c then
    (s.modMb c (fun x => { x with stage := List.replicate 16 0 })).chanPost c (wordsOf 16 data)
  else s.badWrite 1 (MBX_SEND.off c 15)

/-- MBX_RECV: RX_HEAD and the oldest message, which is popped (R418). -/
def State.smbRecv (s : State) (c : Nat) : State :=
  if s.mayRecv 1 c then
    let s := s.chanPtrs c
    (s.smbRead 0x41 (leBytes 4 (s.rxHead c).toNat ++ bytesOf (s.rxWords c))).chanPop c
  else (s.smbRead 0x41 (List.replicate 68 0)).badWrite 1 (MBX_RECV.off c 15)

/-! ### Commands -/

/-- SMBUS_IDENT (R418). -/
def execSmbusIdent (s : State) : Result := done s (s.smbus 0x01 false false (fun s => s.smbRead 0x01 s.smbIdent))
/-- STATUS (R418). -/
def execStatus (s : State) : Result :=
  done s (s.smbus 0x02 false true (fun s => s.smbRead 0x02 (leBytes 2 s.smbStatus)))
/-- ALERT_CAUSE (R419). -/
def execAlertCause (s : State) : Result :=
  done s (s.smbus 0x03 false true (fun s => s.smbRead 0x03 (leBytes 2 s.smb.causes.toNat)))
/-- ALERT_CLR (R419). -/
def execAlertClr (v : BitVec 16) (s : State) : Result :=
  done s (s.smbus 0x04 false false (fun s => (s.alertClr v).smbAck 0x04))
/-- ALERT_EN, written or read (R419). -/
def execAlertEn (v : Option (BitVec 16)) (s : State) : Result :=
  done s (s.smbus 0x05 false false (fun s =>
    match v with
    | some w => (s.alertEn w).smbAck 0x05
    | none => s.smbRead 0x05 (leBytes 2 s.smb.enables.toNat)))
/-- ALERT_RESPONSE (R419). -/
def execAlertResponse (s : State) : Result := done s s.alertResponse
/-- POWER_REQ, as a write of PWR_REQ by master 0x01 (R392, R418). -/
def execPowerReq (v : Byte) (s : State) : Result :=
  done s (s.smbus 0x10 false false (fun s => (s.smbAck 0x10).powerReq (bits v.toNat 2 0) (v.toNat.testBit 3) 1))
/-- MODULE_RESET over SMBus (R357, R418). -/
def execSmbusModuleReset (v : BitVec 16) (s : State) : Result :=
  done s (s.smbus 0x11 false false (fun s => if v = 0x4D52 then (s.smbAck 0x11).moduleReset else s.smbAck 0x11))
/-- RESET_NOTIFY (R374, R418). -/
def execResetNotify (s : State) : Result := done s (s.smbus 0x13 false false (fun s => (s.advGen 1).smbAck 0x13))
/-- WARN_LEVEL, written as by master 0x01, or read (R402, R418). -/
def execWarnLevel (v : Option (BitVec 16)) (s : State) : Result :=
  done s (s.smbus 0x14 false false (fun s =>
    match v with
    | some w => (s.warnSet 1 (BitVec.ofNat 32 (PWR_WARN.WARN.of (BitVec.ofNat 32 w.toNat)))).smbAck 0x14
    | none => s.smbRead 0x14 (leBytes 2 (s.fget PWR_WARN.WARN))))
/-- SENSORS (R418). -/
def execSensors (s : State) : Result := done s (s.smbus 0x20 false false (fun s => s.smbRead 0x20 s.smbSensors))
/-- FAULTS (R418). -/
def execFaults (s : State) : Result := done s (s.smbus 0x21 false false (fun s => s.smbRead 0x21 s.smbFaults))
/-- EVR_READ (R438). -/
def execEvrRead (first : Word) (n : Byte) (s : State) : Result :=
  done s (s.smbus 0x30 false false (fun s => s.smbRead 0x30 (s.smbRecords first.toNat n.toNat)))
/-- MBX_SEND (R418). -/
def execMbxSend (chan : Byte) (data : List Byte) (s : State) : Result :=
  done s (s.smbus 0x40 true false (fun s => s.smbSend chan.toNat data))
/-- MBX_RECV (R418). -/
def execMbxRecv (chan : Byte) (s : State) : Result :=
  done s (s.smbus 0x41 true false (fun s => s.smbRecv chan.toNat))
/-- ATTEST START (R448). -/
def execAttestStart (sel : BitVec 16) (nonce : BitVec 256) (s : State) : Result :=
  done s (s.smbus 0x50 true false (fun s => s.attStart sel.toNat (leBytes 32 nonce.toNat)))
/-- ATTEST FETCH (R448). -/
def execAttestFetch (off : Word) (s : State) : Result :=
  done s (s.smbus 0x50 true false (fun s => s.attFetch off.toNat))

end Sys2Proof.Machine
end

