-- ==== Sys2Proof/Machine/Registers.lean ====
section
/-! DEFINITION. BAR0 as a whole (R8 to R10, R411, R475 to R489): what a write of each register does, and what a read of each
offset returns and changes. -/

namespace Sys2Proof.Machine

/-! ### Writes -/

/-- A field of a written word held within a range: the nearer end stands. -/
def Fld.clamp (f : Fld) (lo hi : Nat) (v : Word) : Word := f.into v (min hi (max lo (f.of v)))

/-- A write of HUB_FEAT_FLOOR: the floor only rises (R485). -/
def State.floorSet (s : State) (m : Master) (v : Word) : State :=
  if HUB_FEAT_FLOOR.FLOOR.of v < s.fget HUB_FEAT_FLOOR.FLOOR then s.badWrite m HUB_FEAT_FLOOR.off
  else s.store m HUB_FEAT_FLOOR.off v

/-- A write of FAB_MGR_CTL: DISC_TMO holds at least 1, HB_LEAD at least 16 (R337). -/
def State.mgrCtl (s : State) (m : Master) (v : Word) : State :=
  s.store m FAB_MGR_CTL.off (FAB_MGR_CTL.HB_LEAD.clamp 16 4095 (FAB_MGR_CTL.DISC_TMO.clamp 1 255 v))

/-- A write in the HUB block. -/
def State.putHub (s : State) (m : Master) (off : Nat) (v : Word) : State :=
  if off = HUB_FEAT_FLOOR.off then s.floorSet m v
  else if off = HUB_RST_CMD.off then s.hubCmd v
  else if off = HUB_RST_CTL.off then s.hubCtl m v
  else if off = HUB_PCIE_CTL.off then
    s.store m off (HUB_PCIE_CTL.MAX_WIDTH.clamp 0 2 (HUB_PCIE_CTL.MAX_SPEED.clamp 1 7 v))
  else if off = HUB_THERM_CTL.off then s.store m off (HUB_THERM_CTL.WARN.clamp 70 105 v)
  else if HUB_WIN_W0.off 0 ≤ off && off < HUB_WIN_W0.off 80 && off % 16 = 8 then
    s.store m off ((HUB_WIN_W2.LIMIT ((off - HUB_WIN_W0.off 0) / 16)).clamp 0 262144 v)
  else if off = HUB_FUSE_SEL.off then s.setMreg m off v
  else s.store m off v

/-- A write in the TCK block. -/
def State.putTck (s : State) (m : Master) (off : Nat) (v : Word) : State :=
  if off = TCK_CTL.off then s.tckCtl m v
  else if off = TCK_SYNC_MAX.off then (if v.getLsbD 31 then s.fset TCK_SYNC_MAX.MAX 0 else s)
  else if TCK_SL_CTL.off 0 ≤ off && off < TCK_SL_CTL.off 16 && off % 0x40 = 0 then s.slCtl m ((off - TCK_SL_CTL.off 0) / 0x40) v
  else s.store m off v

/-- A write in the PWR block. -/
def State.putPwr (s : State) (m : Master) (off : Nat) (v : Word) : State :=
  if off = PWR_REQ.off then s.pwrReq m v
  else if off = PWR_CLK_SET.off then s.clkSet m v
  else if off = PWR_PLIM.off then s.plimSet m v
  else if off = PWR_WARN.off then s.warnSet m v
  else if off = PWR_CTL.off then s.pwrCtl m v
  else s.store m off v

/-- A write in the FLT block. -/
def State.putFlt (s : State) (m : Master) (off : Nat) (v : Word) : State :=
  if off = FLT_PROMO.off then s.store m off (FLT_PROMO.WINDOW.clamp 1 3600 (FLT_PROMO.COUNT.clamp 2 255 v))
  else if off = FLT_PIN.off then s.fltPin m v
  else if off = FLT_FORCE.off || off = FLT_FORCE_UNIT.off then s.fltForce m off v
  else if off = FLT_Q_POP.off then s.qPop
  else if off = FLT_SRC_CLR.off then s.srcClr v
  else if off = FLT_FRZ_CMD.off then s.frzCmd v
  else if off = FLT_DUMP_CTL.off then s.dumpCtl m v
  else if off = FLT_SRC_SEL.off || off = FLT_FRZ_SEL.off then s.setMreg m off v
  else s.store m off v

/-- A write of MBX_STAT: the sender clears COLLISION, TIMEOUT and RCV_RESET, either end PTR_ERR (R421). -/
def State.mbxClear (s : State) (m : Master) (c : Nat) (v : Word) : State :=
  let snd := s.chanSender c = m.toNat
  let rcv := s.chanRecv c = m.toNat
  if !(s.chanOpen c && (snd || rcv)) then s.badWrite m (MBX_STAT.off c)
  else
    let mask : Word := if snd then 0x3C0 else 0x200
    s.setReg (MBX_STAT.off c) (s.reg (MBX_STAT.off c) &&& ~~~ (v &&& mask))

/-- A write of MBX_DB_PEND: the target clears bits (R430). -/
def State.pendClear (s : State) (m : Master) (d : Nat) (v : Word) : State :=
  if s.mayPend m d then
    s.setReg (MBX_DB_PEND.off d) (s.reg (MBX_DB_PEND.off d) &&& ~~~ v)
  else s.badWrite m (MBX_DB_PEND.off d)

/-- A write in the MBX block. -/
def State.putMbx (s : State) (m : Master) (off : Nat) (v : Word) : State :=
  if off = MBX_CTL.off then s.mbxCtl m v
  else if MBX_STAT.off 0 ≤ off && off < MBX_STAT.off 256 then s.mbxClear m ((off - MBX_STAT.off 0) / 4) v
  else if MBX_DB_RING.off 0 ≤ off && off < MBX_DB_RING.off 64 then
    let d := (off - MBX_DB_RING.off 0) / 4
    if s.mayRing m d then s.dbRing d v else s.badWrite m off
  else if MBX_DB_PEND.off 0 ≤ off && off < MBX_DB_PEND.off 64 then s.pendClear m ((off - MBX_DB_PEND.off 0) / 4) v
  else if MBX_SEND.off 0 0 ≤ off && off < MBX_SEND.off 256 0 then
    s.sendWrite m ((off - MBX_SEND.off 0 0) / 64) (off % 64 / 4) v
  else s.store m off v

/-- A FAB_CMD that another access than the host's own write carries: on the ACTING module a command is in progress, elsewhere it
completes with NOT_MGR (R306, R323). -/
def State.cmdTurned (s : State) (hseq : Nat) : State :=
  ((s.fset FAB_CMD_STAT.STATUS (if s.acting then 2 else 1)).fset FAB_CMD_STAT.HSEQ hseq).irq 1

/-- A write in the FAB block; the hub controller, which alone writes FAB_MGR_ID and FAB_COORD_TERM (R337), so learns of the coordinator.
Shadow tables are not written while a swap is armed (R256). -/
def State.putFab (s : State) (m : Master) (off : Nat) (v : Word) : State :=
  if off = FAB_RT_CTL.off then s.rtCtl m v
  else if (FAB_POS_SHD.off 0 ≤ off && off < FAB_POS_SHD.off 64) || (FAB_GRP_SHD.off 0 0 ≤ off && off < FAB_GRP_SHD.off 64 0) then
    (if s.flag FAB_RT_CTL.SWAP_ARM then s.badWrite m off else s.store m off v)
  else if off = FAB_MGR_CTL.off then s.mgrCtl m v
  else if off = FAB_MGR_ID.off then
    (s.fset FAB_MGR_ID.COORD (FAB_MGR_ID.COORD.of v)).fset FAB_MGR_ID.COORD_VALID (FAB_MGR_ID.COORD_VALID.of v)
  else if off = FAB_COORD_TERM.off then s.setReg FAB_COORD_TERM.off v
  else if off = FAB_CMD.off then s.cmdTurned (FAB_CMD.HSEQ.of v)
  else if off = FAB_FOLD_CTL.off then s.store m off (FAB_FOLD_CTL.PERIOD.clamp 1 255 v)
  else s.store m off v

/-- A write in the LNK block. -/
def State.putLnk (s : State) (m : Master) (off : Nat) (v : Word) : State :=
  let p := (off - LNK_CTL.off 0) / 0x1000
  let o := off % 0x1000
  if o = 0 then s.lnkCtl m p v
  else if 0x20 ≤ o && o ≤ 0x30 then s.expWrite m p ((o - 0x20) / 4) v
  else s.store m off v

/-- The sticky flags of a core cleared: bits 17 to 8 of PRT_CORE_STAT (R136). -/
def State.coreFlagsClear (s : State) (m : Master) (p o : Nat) (v : Word) : State :=
  let c := s.mget m (PRT_CORE_SEL.CLUS p)
  if 75 ≤ c || o % 8 ≠ 0 then s
  else
    let clr := ((regRow? (PRT_CORE_STAT.off p 0)).map (fun r => r.mask (fun f => f.acc = .w1c))).getD 0
    s.modCo ((75 * p + c) * 250 + (o - 0x8000) / 8) (fun x => { x with stat := x.stat &&& ~~~ (v &&& BitVec.ofNat 32 clr) })

/-- The sticky flags of the engine shown at a UPE slot cleared (R167). -/
def State.upeClear (s : State) (m : Master) (p o : Nat) (v : Word) : State :=
  if o % 0x40 ≠ 0 then s
  else match s.upeSlot p ((o - 0x2000) / 0x40) with
    | none => s
    | some l => s.store m (PRT_UPE_STAT.off p l) v

/-- SAT and POISON of the record that a master selects cleared (R304). -/
def State.redClear (s : State) (m : Master) (p : Nat) (v : Word) : State :=
  let c := s.mget m (PRT_RED_SEL.CLUS p)
  if 75 ≤ c then s
  else s.modTree (75 * p + c) (s.mget m (PRT_RED_SEL.REC p)) (fun t => { t with stat := t.stat &&& ~~~ (v &&& 0x18) })

/-- A write in a PRT window: behind a closed sluice host software reaches only the RST sub-block (R359). -/
def State.putPrt (s : State) (m : Master) (off : Nat) (v : Word) : State :=
  let p := off / 0x10000 % 16
  let o := off % 0x10000
  if m = 2 && (s.pt p).closed && !(0x6000 ≤ o && o < 0x7000) then s
  else if o = 0x18 then s.setMreg m off (s.mreg m off &&& ~~~ v)
  else if isSelector off then s.setMreg m off v
  else if o = 0x1000 then s.store m off ((PRT_MEM_CTL.SWEEP p).clamp 60 86400 v)
  else if 0x2000 ≤ o && o < 0x2240 then s.upeClear m p o v
  else if o = 0x4030 then s.rtrCtl m p v
  else if o = 0x5004 then s.redClear m p v
  else if o = 0x6000 then s.rstCmd p v
  else if o = 0x6008 then s.rstCtl m p v
  else if 0x8000 ≤ o then s.coreFlagsClear m p o v
  else s.store m off v

/-- What a write that passes the gate does, by block (R475). -/
def State.putReg (s : State) (m : Master) (off : Nat) (v : Word) : State :=
  if off < 0x10000 then s.putHub m off v
  else if off < 0x20000 then s.putTck m off v
  else if off < 0x30000 then s.putPwr m off v
  else if off < 0x40000 then s.putFlt m off v
  else if off < 0x50000 then (if off = EVR_PAGE.off then s.setMreg m off v else s.store m off v)
  else if off < 0x60000 then s.putMbx m off v
  else if off = SEC_FW_CMD.off then s.fwCmd v
  else if off = SEC_AUTH_CMD.off then s.authCmd v
  else if off < 0x80000 then s.store m off v
  else if off = RIG_CMD.off then s.rigCmd m v
  else if off = RIG_CTL.off then s.rigCtl m v
  else if off < 0xA0000 then s.store m off v
  else if off < 0x100000 then s.putFab m off v
  else if off < 0x200000 then s.putLnk m off v
  else s.putPrt m off v

/-- The staging window written: only while the boot ROM waits; no NOTE at any other time (R444). -/
def State.stage (s : State) (off : Nat) (v : Word) : State :=
  if s.pwr.stage = 5 && !s.fwRuns then
    State.fwTakes { s with sec := { s.sec with staging := putBytes s.sec.staging (off - 0x2000000) (leBytes 4 v.toNat) } } 0
  else s

/-- A word written to a BAR0 offset by a master; `direct` is false for an access that a manager carries (R411, R477). -/
def State.regPut (s : State) (direct : Bool) (m : Master) (off : Nat) (v : Word) : State :=
  if 0x2000000 ≤ off && off < 0x3000000 then
    if !s.hubUp || (m ≠ 0 && m ≠ 2) || (m = 2 && s.host.closed) then s else s.stage off v
  else if isMbx off && s.mbxShut m.toNat then s
  else s.gate direct m off v (fun s => s.putReg m off v)

/-! ### Reads -/

/-- Whether an offset is the _LO half of a pair that every master only reads (R10). -/
def snapPair (off : Nat) : Bool :=
  off = HUB_SERIAL_LO.off || off = TCK_STEP_LO.off ||
    (TCK_SL_CTL.off 0 ≤ off && off < TCK_SL_CTL.off 16 && off % 0x40 = 8) ||
    (PWR_RES_ACT_LO.off ≤ off && off < PWR_RES_ACT_LO.off + 32 && off % 8 = 0) ||
    (RIG_SL_STAT.off 0 ≤ off && off < RIG_SL_STAT.off 16 && off % 0x40 = 8) ||
    (LNK_CTL.off 0 ≤ off && off < LNK_CTL.off 16 &&
      (off % 0x1000 = 0x70 || off % 0x1000 = 0x78 || off % 0x1000 = 0x80)) ||
    (0x200000 ≤ off && off < 0x300000 &&
      (let o := off % 0x10000; o = 0x1008 || o = 0x1010 || o = 0x4008 || o = 0x4010 || o = 0x4018 || o = 0x4020))

/-- Whether a master reads an offset at all (R411, R421, R477): functions other than PF0 and peer managers see the MBX block alone, and PF0 on a module
that runs firmware and is not ACTING the HUB, FAB and MBX blocks. -/
def State.mayRead (s : State) (direct : Bool) (m : Master) (off : Nat) : Bool :=
  m = 0 ||
    (m = 2 && (!direct || !s.fwRuns || s.acting || off < 0x10000 || isMbx off || (0xA0000 ≤ off && off < 0x100000))) ||
    ((m = 3 || (0x10 ≤ m && m < 0x50) || (0x80 ≤ m && m < 0xC0)) && isMbx off)

/-- Whether a read meets a mailbox window that the master may not use, or a pending word that is not its own: it returns 0 and is a NOTE
(R421, R430). -/
def State.mbxDenied (s : State) (m : Master) (off : Nat) : Bool :=
  if 0x54000 ≤ off && off < 0x58000 then !s.maySend m ((off - 0x54000) / 0x40)
  else if 0x58000 ≤ off && off < 0x60000 then !s.mayRecv m ((off - 0x58000) / 0x80)
  else if 0x52600 ≤ off && off < 0x52700 then !s.mayPend m ((off - 0x52600) / 4)
  else false

/-- The snapshots a master holds. -/
def State.snap (s : State) (m : Master) : Store Word := if m = 2 then s.snap2 else s.snap0

/-- Whether the agent that a master's selectors name cannot answer: its die is in reset, or its position in bypass (R489). -/
def State.indMute (s : State) (m : Master) (p : Nat) : Bool :=
  let c := s.mget m (PRT_IND_SEL.CLUS p)
  s.dieDown p || (decide (c < 75) && s.inBypass p (s.physClus p c))

/-- A read of a word of PRT_IND_WIN (R488, R489): DENIED, NORESP and PERR are the reading master's. -/
def State.indRead (s : State) (m : Master) (p o : Nat) (a : IndAnswer) : Word × State :=
  let note (f : Fld) (s : State) : State := s.setMreg m f.reg (f.into (s.mreg m f.reg) 1)
  match s.indSel m p with
  | none => (0, note (PRT_IND_STAT.DENIED p) s)
  | some _ =>
    match if s.indMute m p then .noResponse else a with
    | .noResponse => (0xFFFFFFFF, note (PRT_IND_STAT.NORESP p) s)
    | .parity => (s.indWord m p o, note (PRT_IND_STAT.PERR p) s)
    | .ok =>
      -- bank bytes whose parity is bad are known to the state
      let k := (75 * p + s.mget m (PRT_IND_SEL.CLUS p)) * 250 + s.mget m (PRT_IND_SEL.CORE p)
      let b := 8192 * s.mget m (PRT_IND_SEL.SUB p) + 4096 * s.mget m (PRT_IND_OFF.PAGE p) + o
      let bad := s.mget m (PRT_IND_SEL.OBJ p) = 3 && s.mget m (PRT_IND_SEL.SHADOW p) = 0 && (s.co k).bad.any (fun x => b ≤ x && x < b + 4)
      (s.indWord m p o, if bad then note (PRT_IND_STAT.PERR p) s else s)

/-- A word read from a BAR0 offset by a master, and the state after it (R10, R411, R479). -/
def State.regRead (s : State) (direct : Bool) (m : Master) (off : Nat) (a : IndAnswer) : Word × State :=
  let p := off / 0x10000 % 16
  let o := off % 0x10000
  let prt := decide (0x200000 ≤ off) && decide (off < 0x300000)
  if !s.mayRead direct m off then (0, s)
  else if m = 2 && prt && (s.pt p).closed && !(0x6000 ≤ o && o < 0x7000) then (0xFFFFFFFF, s)
  else if 0x2000000 ≤ off && !(s.pwr.stage = 5 && !s.fwRuns) then (0, s)
  else if prt && 0x7000 ≤ o && o < 0x8000 then s.indRead m p (o - 0x7000) a
  else if snapPair off then
    let hi := s.view m (off + 4)
    let z : Nat → Word := fun _ => 0
    (s.view m off,
      if m = 2 then { s with snap2 := Store.put z s.snap2 (off + 4) hi } else { s with snap0 := Store.put z s.snap0 (off + 4) hi })
  else if 4 ≤ off && snapPair (off - 4) then (Store.get (fun _ => 0) (s.snap m) off, s)
  else if s.mbxDenied m off then (0, s.badWrite m off)
  else if MBX_RECV.off 0 0 ≤ off && off < MBX_RECV.off 256 0 && off % 0x80 = 0x3C then
    let s := s.chanPtrs ((off - MBX_RECV.off 0 0) / 0x80)
    (s.view m off, s.chanPop ((off - MBX_RECV.off 0 0) / 0x80))
  else (s.view m off, s)

/-- A host or hub read answered: nothing reaches a hub that is down, and a closed endpoint aborts PF0's read (R359). -/
def State.readOut (s : State) (m : Master) (off : Nat) (a : IndAnswer) : State :=
  if !s.hubUp then s
  else if isFunction m.toNat && s.host.closed then s.emit (.completion .abort)
  else
    let (v, t) := s.regRead true m (off / 4 * 4) a
    t.emit (.readData m off v)

/-! ### Commands -/

/-- SNAPSHOT_READ (R10). -/
def execSnapshotRead (m : Master) (off : BitVec 26) (s : State) : Result := done s (s.readOut m off.toNat .ok)
/-- INDIRECT_READ (R489). -/
def execIndirectRead (m : Master) (part : PartId) (off : BitVec 12) (a : IndAnswer) (s : State) : Result :=
  done s (s.readOut m (0x207000 + 0x10000 * part.val + off.toNat) a)
/-- FEAT_FLOOR_WRITE (R485). -/
def execFeatFloorWrite (m : Master) (v : Word) (s : State) : Result :=
  done s (s.gate true m HUB_FEAT_FLOOR.off v (fun s => s.floorSet m v))
/-- FAB_MGR_LOCK (R337). -/
def execFabMgrLock (m : Master) (v : Word) (s : State) : Result :=
  done s (s.gate true m FAB_MGR_CTL.off v (fun s => s.mgrCtl m v))

end Sys2Proof.Machine
end

