-- ==== Sys2Proof/Machine/Tables.lean ====
section
/-! DEFINITION. The route tables a manager computes (R256 to R258, R266, R321): distances over the ACTIVE links of its group, the two
escape families, the group graph with its gateways, and the words of the tables. -/

namespace Sys2Proof.Machine

/-! ### Graphs -/

/-- A graph: the number of its nodes and, for each node, its edges as (label, neighbour). -/
structure Graph where
  size : Nat
  out  : List (List (Nat × Nat))
  deriving DecidableEq, Repr

/-- The edges of a node. -/
def Graph.edges (g : Graph) (u : Nat) : List (Nat × Nat) := g.out.getD u []

/-- A distance that stands for none. -/
def farAway : Nat := 4096

/-- One round of relaxation towards the nodes at distance 0, over the edges that `use` admits. -/
def Graph.relax (g : Graph) (use : Nat → Nat → Bool) (d : List Nat) : List Nat :=
  (List.range g.size).map (fun u =>
    (g.edges u).foldl (fun a e => if use u e.2 then min a (d.getD e.2 farAway + 1) else a) (d.getD u farAway))

/-- Distances from every node, after `n` rounds. -/
def Graph.dist (g : Graph) (use : Nat → Nat → Bool) : Nat → List Nat → List Nat
  | 0, d => d
  | n + 1, d => g.dist use n (g.relax use d)

/-- Distances of every node to a target over every edge. -/
def Graph.distTo (g : Graph) (t : Nat) : List Nat :=
  g.dist (fun _ _ => true) g.size ((List.range g.size).map (fun u => if u = t then 0 else farAway))

/-! ### Up/down escape routes (R266) -/

/-- Whether the edge from u to v goes up: v is nearer the root, or as near with the lower number. -/
def upEdge (depth : List Nat) (u v : Nat) : Bool :=
  let a := depth.getD u farAway
  let b := depth.getD v farAway
  decide (b < a) || (a = b && decide (v < u))

/-- The first edge of the shortest route from u to t of up hops followed by down hops. -/
def Graph.upDown (g : Graph) (root u t : Nat) : Option (Nat × Nat) :=
  let depth := g.distTo root
  let down := g.dist (fun a b => !upEdge depth a b) g.size ((List.range g.size).map (fun x => if x = t then 0 else farAway))
  let any := g.dist (fun a b => upEdge depth a b) g.size down
  let d := any.getD u farAway
  if farAway ≤ d || d = 0 then none
  else (g.edges u).find? (fun e =>
    if upEdge depth u e.2 then any.getD e.2 farAway + 1 = d else down.getD e.2 farAway + 1 = d)

/-! ### The group (R257) -/

/-- The graph of the group's links, ports as labels. -/
def State.groupGraph (s : State) : Graph :=
  { size := s.groupSize
    out := (List.range s.groupSize).map (fun u => (List.range 7).filterMap (fun c => (s.linkPeer u c).map (fun v => (c, v)))) }

/-- Whether every in-group link of the manifest is ACTIVE, so that the escape family is e-cube. -/
def State.allLinks (s : State) : Bool :=
  (manMembers s.mgr.manifest (modGroup s.modId)).all (fun m =>
    match manMod? s.mgr.manifest m with
    | none => true
    | some r => (List.range 7).all (fun c => !(manPort r c).present || (s.linkPeer (modPos m) c).isSome))

/-- The escape port from a position to another. -/
def State.escPort (s : State) (g : Graph) (cube : Bool) (u q : Nat) : Option Nat :=
  if cube then ecube (dims s.groupSize) u q else (g.upDown (modPos s.modId) u q).map Prod.fst

/-- The position table entry of position u towards q (Table 4). -/
def State.posWord (s : State) (g : Graph) (cube : Bool) (u q : Nat) : Nat :=
  if u = q then 0xF * 2 ^ 16 + 2 ^ 24
  else if g.size ≤ q then 0
  else
    let d := g.distTo q
    let h := d.getD u farAway
    match s.escPort g cube u q with
    | none => 0
    | some e =>
      if farAway ≤ h then 0
      else
        let prod := (g.edges u).foldl (fun a x => if d.getD x.2 farAway + 1 = h then a ||| 2 ^ x.1 else a) 0
        prod + e * 2 ^ 16 + min 15 h * 2 ^ 20 + 2 ^ 24

/-! ### Between groups (R255, R258) -/

/-- The group graph of a cross-connect map: 64 groups. -/
def groupsGraph (x : List (Nat × Nat × Nat × Nat)) : Graph :=
  { size := 64
    out := (List.range 64).map (fun g => ((circuits x).filter (fun e => modGroup e.1 = g)).map (fun e => (e.2.1, e.2.2))) }

/-- The circuits of the map that are verified, as the coordinator knows them: both uplinks are ACTIVE, those of its own group as its
modules report and those of other groups as their managers do (R253, R335). -/
def State.verified (s : State) : List (Nat × Nat × Nat × Nat) :=
  let up (m c : Nat) : Bool := if modGroup m = modGroup s.modId then (s.pq (modPos m)).links.contains c else s.mgr.coord.up.contains (m, c)
  s.mgr.xmap.filter (fun e => up e.1 e.2.1 && up e.2.2.1 e.2.2.2)

/-- The group of the machine coordinator: that of the module that acts as it, else the one that the manifest names (R335). -/
def State.coordGroup (s : State) : Nat :=
  if s.flag FAB_MGR_ID.COORD_VALID then modGroup (s.fget FAB_MGR_ID.COORD) else bits (leAt s.mgr.manifest 20 2) 5 0

/-- The root of the escape tree between groups: the coordinator's group, or the lowest group that can be reached where that one cannot
(R255, R266). -/
def State.escRoot (s : State) (d : List Nat) : Nat :=
  let c := s.coordGroup
  if d.getD c farAway < farAway then c else (firstBelow 64 (fun g => decide (d.getD g farAway < farAway))).getD c

/-- Whether a group graph over the groups of a manifest is connected with a diameter of at most 15 (R255). -/
def graphOk (b : List Byte) (x : List (Nat × Nat × Nat × Nat)) : Bool :=
  let gs := (List.range (manGroups b)).map (fun i => (manGroup b i).1)
  let g := groupsGraph x
  gs.all (fun h => let d := g.distTo h; gs.all (fun u => decide (d.getD u farAway ≤ 15)))

/-- The gateway slots towards group h, in order (Table 5): at most eight, one of them the escape gateway. -/
def State.slotsTo (s : State) (h : Nat) : List Gateway :=
  let own := modGroup s.modId
  let x := s.mgr.coord.inputs
  let g := groupsGraph x
  let d := g.distTo h
  let usable := (circuits x).filter (fun e => modGroup e.1 = own && decide (d.getD e.2.2 farAway < 15))
  let all := usable.map (fun e => (d.getD e.2.2 farAway + 1, modPos e.1, e.2.1, e.2.2))
  let sorted := all.mergeSort (fun a b =>
    decide (a.1 * 2 ^ 16 + a.2.1 * 16 + a.2.2.1 ≤ b.1 * 2 ^ 16 + b.2.1 * 16 + b.2.2.1))
  let next := ((g.upDown (s.escRoot d) own h).map Prod.snd)
  let esc := sorted.find? (fun e => next = some e.2.2.2)
  let kept := sorted.take 8
  let kept := match esc with
    | some e => if kept.contains e then kept else kept.take 7 ++ [e]
    | none => kept
  kept.map (fun e => ⟨e.2.1, e.2.2.1, e.1, esc = some e⟩)

/-- The uplinks of this module that lead towards the coordinator's group, as PARENT and ALT_PARENT of a group reference; 0xF for none
(R65). -/
def State.refParents (s : State) : Nat × Nat :=
  let x := s.mgr.coord.inputs
  let d := (groupsGraph x).distTo s.coordGroup
  let own := d.getD (modGroup s.modId) farAway
  let l := [7, 8].filter (fun c =>
    (circuits x).any (fun e => e.1 = s.modId && e.2.1 = c && decide (d.getD e.2.2 farAway < own)))
  if s.flag FAB_MGR_STAT.COORD then (15, 15) else (l.getD 0 15, l.getD 1 15)

/-- The 16 bits of a slot. -/
def Gateway.word (g : Gateway) : Nat := g.pos + g.port * 2 ^ 6 + 2 ^ 10 + min 15 g.ghops * 2 ^ 11 + b2n g.esc * 2 ^ 15

/-- The four words of the group table entry of group h. -/
def State.grpWords (s : State) (h : Nat) : List Nat :=
  let l := if h = modGroup s.modId then [] else (s.slotsTo h).map Gateway.word
  (List.range 4).map (fun i => l.getD (2 * i) 0 + l.getD (2 * i + 1) 0 * 2 ^ 16)

/-- The writes of a module's shadow tables: offset and value. -/
def State.tableWrites (s : State) (u : Nat) : List (Nat × Nat) :=
  let g := s.groupGraph
  let cube := s.allLinks
  (List.range 64).map (fun q => (FAB_POS_SHD.off q, s.posWord g cube u q)) ++
    (List.range 64).flatMap (fun h => let ws := s.grpWords h; (List.range 4).map (fun i => (FAB_GRP_SHD.off h i, ws.getD i 0)))

end Sys2Proof.Machine
end

