-- ==== Sys2Proof/Machine/Management.lean ====
section
/-! DEFINITION. Management traffic (R312 to R314): commands sent and awaited, source routes and multicast over hubs, which packets a
hub acts on, and the register accesses they carry; the journal (R310). -/

namespace Sys2Proof

open Machine

/-- Whether a packet comes from a hub agent. -/
def Packet.fromHub (p : Packet) : Bool := epClus p.src = 0x7F && epCore p.src = 0 && epPart p.src = 0

/-- The master that an access counts as. -/
def Packet.master (p : Packet) : Master := if p.host then 2 else 0

/-- The master that an access to an offset counts as: at a mailbox window that of the manager of the sender's group (R313, R421). -/
def Packet.masterAt (p : Packet) (off : Nat) : Master :=
  if !p.host && 0x54000 ≤ off && off < 0x60000 then BitVec.ofNat 8 (0x80 + modGroup (epMod p.src)) else p.master

end Sys2Proof

namespace Sys2Proof.Machine

/-! ### Sending (R312, R313) -/

/-- A command multicast to modules of this group, answers of any of them awaited; `term` and `mgr` stand in its preamble. -/
def State.castAsk (s : State) (term mgr code : Nat) (mods : List Nat) (body : List Byte) : State :=
  let n := s.mgr.msgNum
  let pre := preamble term mgr true false false n 0 (s.posMask mods) (2 ^ modGroup s.modId)
  let p := s.mgtPacket (hubEp s.modId) code n pre body
  let s := s.modMgr (fun x => { x with
    msgNum := (n + 1) % 2 ^ 16, awaits := x.awaits.filter (fun a => a.code ≠ code || a.mod ≠ 4096) ++ [⟨code, n, 4096, 0, 16⟩] })
  s.hubSend p

/-- Register writes carried to a module: at most 60 pairs a packet; this module's own take place at once (R313). -/
def State.writeAt (s : State) (mod job : Nat) (l : List (Nat × Nat)) : State :=
  if mod = s.modId then
    State.eachOf l (fun e s => s.regPut false 0 e.1 (BitVec.ofNat 32 e.2)) s
  else State.eachOf (chunks 60 l.length l) (fun c s => s.mgtAsk mod 0x10 job false (regPairs c)) s

/-! ### The journal (R310) -/

/-- Cross-connect entries as a record's data: index of the first, then 8 bytes each. -/
def xmapBytes (l : List (Nat × Nat × Nat × Nat)) : List Byte :=
  l.flatMap (fun e => leBytes 4 (e.1 + e.2.1 * 2 ^ 12 + e.2.2.1 * 2 ^ 16 + e.2.2.2 * 2 ^ 28) ++ leBytes 4 0)

/-- The entries that bytes spell (Table 3 of R252). -/
def xmapOf (b : List Byte) : List (Nat × Nat × Nat × Nat) :=
  (List.range (b.length / 8)).map (fun i =>
    let w := leAt b (8 * i) 4
    (bits w 11 0, bits w 15 12, bits w 27 16, bits w 31 28))

/-- The cross-connect map journaled. -/
def State.journalXmap (s : State) (job : Nat) (x : List (Nat × Nat × Nat × Nat)) : State :=
  if x.isEmpty then s.journal 2 job (leBytes 4 0)
  else State.eachOf (List.range (ceilDiv x.length 100)) (fun i s =>
    s.journal 2 job (leBytes 4 (100 * i) ++ xmapBytes ((x.drop (100 * i)).take 100))) s

/-- A reservation journaled: slice, channel, index of the first member, then module, mask and context. -/
def State.journalResv (s : State) (job : Nat) (r : Resv) : State :=
  State.eachOf (List.range (max 1 (ceilDiv r.members.length 100))) (fun i s =>
    s.journal 4 job (leBytes 4 r.slice ++ leBytes 4 r.chan ++ leBytes 4 (100 * i) ++
      ((r.members.drop (100 * i)).take 100).flatMap (fun m =>
        leBytes 4 (whoWord m.1 m.2) ++ leBytes 4 (((r.ctx.find? (fun e => e.1 = m.1)).map Prod.snd).getD 0)))) s

/-- A fence journaled. -/
def State.journalFence (s : State) (job slice who : Nat) (set : Bool) : State :=
  s.journal 6 job (leBytes 4 slice ++ leBytes 4 who ++ leBytes 4 (b2n set))

/-! ### Managers of other groups (R335; DESIGN CHOICE, log entry 62) -/

/-- The manager modules of the other groups. -/
def State.farMgrs (s : State) : List Nat :=
  ((List.range (manGroups s.mgr.manifest)).map (fun i => (manGroup s.mgr.manifest i).1)).flatMap (fun g =>
    if g = modGroup s.modId then [] else managersOf s.mgr.manifest g)

/-- Whether packets find their way to a module: by the tables, or by a source route. -/
def State.reaches (s : State) (mod : Nat) : Bool := (s.escapeOut mod).isSome || s.srcRoute mod ≠ 0

/-- A record sent to managers of other groups, as a JOURNAL packet; only the ACTING one of a group takes it. -/
def State.recordFar (s : State) (mods : List Nat) (kind : Nat) (data : List Byte) : State :=
  State.eachOf (mods.filter s.reaches) (fun m s => s.mgtAsk m 2 0 false (leBytes 4 0 ++ leBytes 4 kind ++ data)) s

/-- A record sent to the coordinator in another group. -/
def State.tellCoord (s : State) (kind : Nat) (data : List Byte) : State :=
  if s.acting && s.flag FAB_MGR_ID.COORD_VALID && s.far (s.fget FAB_MGR_ID.COORD) then
    s.recordFar [s.fget FAB_MGR_ID.COORD] kind data
  else s

/-- Circuits sent in records of at most 100: index of the first, how many there are, and `head` before them. -/
def State.sendCircuits (s : State) (kind : Nat) (head : List Byte) (x : List (Nat × Nat × Nat × Nat)) : State :=
  State.eachOf (List.range (max 1 (ceilDiv x.length 100))) (fun i s =>
    s.recordFar s.farMgrs kind (leBytes 4 (100 * i) ++ leBytes 4 x.length ++ head ++ xmapBytes ((x.drop (100 * i)).take 100))) s

/-- A reservation made known to the managers of other groups that it concerns, and to the coordinator. -/
def State.tellResv (s : State) (r : Resv) : State :=
  let body := leBytes 4 r.slice ++ r.ctx.flatMap (fun e => leBytes 4 e.1 ++ leBytes 4 e.2)
  let gs := r.ctx.map (fun e => modGroup e.1)
  (s.recordFar (s.farMgrs.filter (fun m => gs.contains (modGroup m))) 25 body).tellCoord 25 body

/-- A reservation's end made known in the same way. -/
def State.tellRelease (s : State) (r : Resv) : State :=
  let gs := r.ctx.map (fun e => modGroup e.1)
  (s.recordFar (s.farMgrs.filter (fun m => gs.contains (modGroup m))) 26 (leBytes 4 r.slice)).tellCoord 26 (leBytes 4 r.slice)

/-! ### The state of a group for its other manager (R310) -/

/-- What is known of the group's positions, as a record's data: for each its ACTIVE ports, feature level and discovery state. -/
def State.groupBytes (s : State) : List Byte :=
  (List.range 64).flatMap (fun q =>
    leBytes 2 ((s.pq q).links.foldl (fun a c => a ||| 2 ^ c) 0) ++ leBytes 2 (s.pq q).feat ++ leBytes 1 (s.disc q))

/-- The whole state copied to a manager module that joins (R310). -/
def State.copyState (s : State) : State :=
  let s := (s.modMgr (fun x => { x with sby := 1 })).journal 0 0 []
  let s := (s.journalXmap 0 s.mgr.xmap).journal 3 0 s.groupBytes
  let s := State.eachOf s.mgr.resv (fun r s =>
    State.eachOf r.fences (fun w s => s.journalFence 0 r.slice w true) (s.journalResv 0 r)) s
  let s := State.eachOf s.mgr.load.reports (fun t s =>
    s.journal 7 0 (leBytes 4 t.1 ++ leBytes 4 t.2.1 ++ leBytes 4 t.2.2.2 ++ t.2.2.1)) s
  let s := s.journal 8 0 (leBytes 4 (s.reg FAB_CMD_STAT.off).toNat)
  let s := s.journal 9 0 (leBytes 4 (s.fget FAB_MGR_STAT.MODE))
  let s := s.journal 14 0 (xmapBytes s.mgr.coord.inputs)
  s.journal 10 0 []

/-- A record applied by the other manager module. A command (12) or a commit (13) takes effect on the acting module once its record is
answered; nothing of it stands on the standby but what the records of its effects leave. -/
def State.applyRecord (s : State) (kind : Nat) (d : List Byte) : State :=
  match kind with
  | 0 => s.modMgr (fun x => { x with resv := [], xmap := [] })
  | 2 => s.modMgr (fun x => { x with xmap := x.xmap.take (leAt d 0 4) ++ xmapOf (d.drop 4) })
  | 3 => s.each 64 (fun q s =>
      let m := leAt d (5 * q) 2
      (s.modPq q (fun x => { x with links := (List.range 16).filter m.testBit, feat := leAt d (5 * q + 2) 2 })).setDisc q
        (leAt d (5 * q + 4) 1))
  | 4 =>
    let sl := leAt d 0 4
    let es := (List.range ((d.length - 12) / 8)).map (fun i => (leAt d (12 + 8 * i) 4, leAt d (16 + 8 * i) 4))
    let ms := es.map (fun e => (bits e.1 11 0, bits e.1 27 12))
    let cs := es.map (fun e => (bits e.1 11 0, e.2))
    s.modMgr (fun x =>
      if leAt d 8 4 = 0 then
        { x with resv := x.resv.filter (fun r => r.slice ≠ sl) ++ [⟨sl, ms, leAt d 4 4, cs, []⟩] }
      else { x with resv := x.resv.map (fun r =>
        if r.slice = sl then { r with members := r.members ++ ms, ctx := r.ctx ++ cs } else r) })
  | 5 => s.modMgr (fun x => { x with resv := x.resv.filter (fun r => r.slice ≠ leAt d 0 4) })
  | 6 => s.modMgr (fun x => { x with resv := x.resv.map (fun r =>
      if r.slice = leAt d 0 4 then { r with fences := setFence r.fences (leAt d 4 4) (leAt d 8 4 = 1) } else r) })
  | 7 =>
    let k := (leAt d 0 4, leAt d 4 4)
    let rs := s.mgr.load.reports.filter (fun t => t.1 ≠ k.1 || t.2.1 ≠ k.2) ++ [(k.1, k.2, slice d 12 32, leAt d 8 4)]
    s.modMgr (fun x => { x with load := { x.load with reports := rs } })
  | 8 => s.setReg FAB_CMD_STAT.off (FAB_CMD_STAT.BUSY.into (BitVec.ofNat 32 (leAt d 0 4)) 0)
  | 9 => s.fset FAB_MGR_STAT.MODE (leAt d 0 4)
  | 10 => if s.fget FAB_MGR_STAT.ROLE = 3 then s.setRole 4 else s
  | 11 => s.modMgr (fun x => { x with hbStep := if leAt d 0 8 = 0 then none else some (leAt d 0 8) })
  | 14 => s.modMgr (fun x => { x with coord := { x.coord with inputs := xmapOf d } })
  | _ => s

/-- The records that can be applied in order, each answered (R310): at most `n` of them. -/
def State.applyHeld (s : State) : Nat → State
  | 0 => s
  | n + 1 =>
    match s.mgr.jheld.find? (fun j => j.seq = s.mgr.jwant) with
    | none => s
    | some j =>
      let s := s.modMgr (fun x => { x with jheld := x.jheld.filter (fun k => k.seq ≠ j.seq), jwant := j.seq + 1 })
      State.applyHeld (s.applyRecord j.kind j.data) n

/-- JOURNAL: a record from the acting manager, applied in its turn. The first record of a copy begins the sequence. -/
def State.journalIn (s : State) (p : Packet) (via : Option (Fin 16)) : State :=
  let b := p.body
  if !s.managers.contains s.modId then s.mgtReject p
  else
    let j : Journal := ⟨leAt b 0 4, leAt b 4 4, b.drop 8⟩
    let s := if j.kind = 0 then s.modMgr (fun x => { x with jwant := j.seq, jheld := [] }) else s
    let s := if j.seq < s.mgr.jwant then s
      else s.modMgr (fun x => { x with jheld := x.jheld.filter (fun k => k.seq ≠ j.seq) ++ [j] })
    (s.applyHeld (s.mgr.jheld.length + 1)).mgtReply p via []

/-! ### Acceptance (R308, R314) -/

/-- The awaited command that a reply answers: its code and number, and the agent it went to, or the source route of it. -/
def State.awaited (s : State) (p : Packet) (via : Option (Fin 16)) : Option Await :=
  s.mgr.awaits.find? (fun a =>
    a.code + 0x80 = p.aux.toNat && a.msg = p.msg.toNat &&
      (if p.srcrt then via.map Fin.val = some a.hop
       else p.fromHub && (a.mod = epMod p.src || (a.mod = 4096 && manHas s.mgr.manifest (epMod p.src)))))

/-- Codes that a manager hub takes from member hubs (R314, R429). -/
def memberCodes : List Nat := [0x03, 0x1A, 0x1B, 0x20, 0x29, 0x30]

/-- Codes of Table 2 that a manager sends. -/
def commandCodes : List Nat :=
  [0x01, 0x02, 0x04, 0x08, 0x09, 0x0C, 0x10, 0x11, 0x18, 0x19, 0x20, 0x28, 0x38]

/-- What a hub makes of a management packet. -/
inductive Verdict where
  | accept
  | reject
  | stale
  deriving DecidableEq, Repr

/-- The manager modules of the two groups that COORD names, the coordinator's and the one that stands by for it (R335). -/
def State.coordMgrs (s : State) : List Nat :=
  let w := leAt s.mgr.manifest 20 2
  managersOf s.mgr.manifest (bits w 5 0) ++ managersOf s.mgr.manifest (bits w 13 8)

/-- The same checks for a packet of another group's hub, by the coordinator's terms: the coordinator tether at an ACTING module, records
between the coordinator and the managers, and what the coordinator asks of the members of its slices (R335; DESIGN CHOICE, log entry
62). -/
def State.coordVerdict (s : State) (p : Packet) : Verdict :=
  let code := p.aux.toNat
  let src := epMod p.src
  let low := decide (p.term < s.fget FAB_COORD_TERM.TERM)
  let fromCoord := s.flag FAB_MGR_ID.COORD_VALID && src = s.fget FAB_MGR_ID.COORD
  if p.mgr ≠ src then .reject
  else if code = 1 || code = 4 then
    (if s.acting && s.coordMgrs.contains src then (if low then .stale else .accept) else .reject)
  else if code = 2 then
    (if s.acting && (fromCoord || (s.flag FAB_MGR_STAT.COORD && (managersOf s.mgr.manifest (modGroup src)).contains src)) then
      (if low then .stale else .accept) else .reject)
  else if [0x10, 0x11, 0x18, 0x19, 0x20, 0x28].contains code && fromCoord then (if low then .stale else .accept)
  else .reject

/-- The checks of R308 and R314. A TETHER of a higher term from a named manager tells a hub of its new acting manager. -/
def State.verdict (s : State) (p : Packet) (via : Option (Fin 16)) : Verdict :=
  let code := p.aux.toNat
  let src := epMod p.src
  let own := s.fget FAB_TERM.TERM
  let named := p.fromHub && s.managers.contains src
  let inForce := p.fromHub && s.flag FAB_MGR_ID.VALID && src = s.fget FAB_MGR_ID.ACTING
  if 0x80 ≤ code then (if (s.awaited p via).isSome then .accept else .reject)
  else if memberCodes.contains code && s.manages && p.fromHub && !(code = 0x20 && src = s.modId) then
    (if manHas s.mgr.manifest src then .accept else .reject)
  else if !commandCodes.contains code then .reject
  else if p.fromHub && s.far src then s.coordVerdict p
  else if (named || inForce) && p.term < own then .stale
  else if code = 4 then (if named && p.mgr = src then .accept else .reject)
  else if code = 1 && named && own < p.term then (if p.mgr = src then .accept else .reject)
  else if inForce then (if p.mgr = src then .accept else .reject)
  else if !s.flag FAB_SELF.VALID && p.srcrt && epClus p.src = 0x7C && via.isSome then
    (if p.term < own then .stale else .accept)
  else .reject

/-- The term and the manager of a command taken up. -/
def State.follow (s : State) (term mgr : Nat) : State :=
  let s := s.fset FAB_TERM.TERM (max term (s.fget FAB_TERM.TERM))
  (s.fset FAB_MGR_ID.ACTING mgr).fset FAB_MGR_ID.VALID 1

/-- LAPSED (R305, R308): nothing is issued any more; a command in progress is not completed, and host software sees NOT_MGR. -/
def State.lapse (s : State) : State :=
  let host := s.mgr.cmds.any (fun c => c.hseq < 65536)
  let s := s.modMgr (fun x => { x with
    cmds := [], awaits := [], tethers := [], sby := 0, hbStep := none, hbAgain := false, toArm := false, serves := [],
    recoverAt := none, takeAt := none, load := { x.load with active := false }, commits := [],
    coord := { x.coord with tethers := [], takeAt := none, accepts := [], swapAt := none } })
  let s := (s.setRole 5).fset FAB_MGR_STAT.TETHER_OK 0
  let s := s.fset FAB_MGR_STAT.COORD 0
  let s := if s.flag RIG_STAT.BUSY then ((s.fset RIG_STAT.BUSY 0).fset RIG_STAT.PHASE 0).irq 2 else s
  if host then ((s.fset FAB_CMD_STAT.BUSY 0).fset FAB_CMD_STAT.STATUS 1).irq 1 else s

/-! ### Register accesses (R313) -/

/-- REG_WRITE: up to 60 writes in order, then the answer. -/
def State.regWriteIn (s : State) (p : Packet) (via : Option (Fin 16)) : State :=
  let b := p.body
  let s := State.eachOf (List.range (min 60 (b.length / 8))) (fun i s =>
    s.regPut false (p.masterAt (leAt b (8 * i) 4)) (leAt b (8 * i) 4) (BitVec.ofNat 32 (leAt b (8 * i + 4) 4))) s
  s.mgtReply p via []

/-- Registers read in order, each by the master that `m` gives for its offset, with what the reads change. -/
def State.regReads (s : State) (m : Nat → Master) : List Nat → List Nat × State
  | [] => ([], s)
  | o :: t =>
    let (v, s) := s.regRead false (m o) (o / 4 * 4) .ok
    let (vs, s) := State.regReads s m t
    (v.toNat :: vs, s)

/-- REG_READ: up to 120 values in the answer. -/
def State.regReadIn (s : State) (p : Packet) (via : Option (Fin 16)) : State :=
  let b := p.body
  let (vs, s) := s.regReads p.masterAt ((List.range (min 120 (b.length / 4))).map (fun i => leAt b (4 * i) 4))
  s.mgtReply p via (vs.flatMap (leBytes 4))

/-! ### Relaying over hubs (R313) -/

/-- The copies of a multicast sent on, with their bitmaps. -/
def State.mcOut (s : State) (p : Packet) (cs : List (Nat × Nat × Nat)) : State :=
  State.eachOf cs (fun c s => s.portQueue c.1 3 (Packet.sealed { p with
    payload := p.payload.take 16 ++ leBytes 8 c.2.2 ++ leBytes 8 c.2.1 ++ p.payload.drop 32 })) s

/-- A source-routed command passed on, and remembered for its answer. -/
def State.relayOut (s : State) (p : Packet) (via : Fin 16) : State :=
  let c := bits p.route 7 4
  let r : Relay := ⟨c, p.aux.toNat, p.msg.toNat, via.val, p.src⟩
  let rs := s.mgr.relays.filter (fun e => e.out_ ≠ c || e.code ≠ r.code || e.msg ≠ r.msg) ++ [r]
  (s.modMgr (fun x => { x with relays := rs })).routeOut p

/-- The relay that an answer belongs to. -/
def State.relayOf (s : State) (p : Packet) (via : Option (Fin 16)) : Option Relay :=
  s.mgr.relays.find? (fun r => via.map Fin.val = some r.out_ && r.code + 0x80 = p.aux.toNat && r.msg = p.msg.toNat)

/-- An answer passed back over the port its command came by. -/
def State.relayBack (s : State) (p : Packet) (r : Relay) : State :=
  s.portQueue r.back 3 (Packet.sealed { p with dest := r.src, src := portEp s.modId r.back })

end Sys2Proof.Machine
end

