-- ==== Sys2Proof/Machine/Commands.lean ====
section
/-! DEFINITION. What the acting manager carries out: route tables sent and armed (R321, R322), records that take effect at a step
(R296, R301, R325), and the host commands of Table 7a, each a sequence of phases that waits for its answers (R323 to R325, R333). An
argument that is an address or a step takes two words, low word first (DESIGN CHOICE, log entry 40). -/

namespace Sys2Proof.Machine

/-! ### Route tables (R321, R322) -/

/-- LNK_CTL of a port of a module record with EN 1 and DATA_EN as given. -/
def linkWord (r : List Byte) (c en data : Nat) : Nat :=
  ((LNK_CTL.DATA_EN c).into ((LNK_CTL.EN c).into ((LNK_CTL.MEDIUM c).into (regReset (LNK_CTL.off c)) (manPort r c).medium) en)
    data).toNat

/-- The writes that permit data on the ports of a position that its tables route over. -/
def State.dataWrites (s : State) (m : Nat) : List (Nat × Nat) :=
  let u := modPos m
  match manMod? s.mgr.manifest m with
  | none => []
  | some r => (((s.pq u).links).filter (fun c => (s.linkPeer u c).isSome ||
      (circuits s.mgr.coord.inputs).any (fun e => e.1 = m && e.2.1 = c))).map (fun c =>
      (LNK_CTL.off c,
        if m = s.modId then ((LNK_CTL.DATA_EN c).into (s.reg (LNK_CTL.off c)) 1).toNat else linkWord r c 1 1))

/-- The first boundary at least 2 µs ahead, as a global step. -/
def State.swapStep (s : State) : Nat := if s.now + usUnits 2 ≤ s.tick.bound + s.tick.len then s.step + 1 else s.step + 2

/-- A slice event posted for every reservation. -/
def State.tellSlices (s : State) (code who cause : Nat) : State :=
  State.eachOf s.mgr.resv (fun r s => s.sliceEvent code r.slice who cause) s

/-! ### Records that take effect at a step (log entry 40) -/

/-- The partitions of a drifted slice restored from their system area copies (R329). -/
def State.driftRestore (s : State) (n : Nat) : State :=
  State.eachOf (s.ctxParts n) (fun p s =>
    match s.goodCopy n p with
    | none => s
    | some c =>
      let bad := c.digs.any (fun d => agentDigest (s.cx n).active (s.slId n) (s.fget (RIG_SL_EPOCH.LAST n)) d.1 ≠ d.2)
      if bad && s.slState n = 5 && c.holds then
        s.modCx n (fun x => { x with active := c.sects.foldl putSect x.active })
      else s) s

/-- An ADAPT record at a hub: 1 and 0 write the value for a step, 3 arms what is written, 2 takes it back (R325). -/
def FabSt.adaptRec (f : FabSt) (at_ how : Nat) : FabSt :=
  match how with
  | 2 => { f with adaptHeld := none, adaptAt := none }
  | 3 => { f with adaptHeld := none, adaptAt := match f.adaptHeld with
      | some (t, b) => if t = at_ then some (t, b) else f.adaptAt
      | none => f.adaptAt }
  | _ => { f with adaptHeld := some (at_, decide (how = 1)) }

/-- A fence record of a context: 1 set and 0 clear are written for a step, 3 arms what is written, 2 takes it back (R296, R325). -/
def CtxSt.fenceRec (c : CtxSt) (who at_ how : Nat) : CtxSt :=
  let this (f : Nat × Nat × Bool) : Bool := f.1 = who && f.2.1 = at_
  let held := c.fenceHeld.filter (fun f => !this f)
  match how with
  | 2 => { c with fenceHeld := held, fenceArm := c.fenceArm.filter (fun f => !this f) }
  | 3 => { c with fenceHeld := held, fenceArm := c.fenceArm ++ c.fenceHeld.filter this }
  | _ => { c with fenceHeld := held ++ [(who, at_, decide (how = 1))] }

/-- What a record of the manager does at a hub: a fence (0x09), a tree switch (0x0A), ADAPT (0x0B) or the new root of the tree between
groups (0x0C) for a step, or the restoration of a drifted slice (0x05). -/
def State.recordIn (s : State) (ws : List Word) : State :=
  let w := (ws.getD 0 0).toNat
  let at_ := (ws.getD 1 0).toNat + (ws.getD 2 0).toNat * 2 ^ 32
  let who := (ws.getD 3 0).toNat
  let how := bits (ws.getD 4 0).toNat 7 0
  match w % 256, s.ctxOf (bits w 19 8) with
  | 0x0B, _ => { s with fab := s.fab.adaptRec at_ how }
  | 0x0C, _ => { s with fab := { s.fab with rerootAt := some at_ } }
  | 0x09, some n => s.modCx n (fun c => c.fenceRec who at_ how)
  | 0x0A, some n => s.modCx n (fun c => { c with treeArm := c.treeArm ++ [(who, at_, decide (how = 1))] })
  | 0x05, some n => s.driftRestore n
  | _, _ => s

/-- A record sent to a module's hub; this module's own takes effect at once. -/
def State.recordTo (s : State) (mod job : Nat) (ws : List Word) : State :=
  if mod = s.modId then s.recordIn ws else s.mgtAsk mod 0x20 job false (bytesOf ws)

/-! ### The swap of the tables -/

/-- The swap armed on every module once every shadow write is answered, with DATA_EN in the same step: at the step that the coordinator
has named for the group tables, while it lies ahead, otherwise at the first one that R322 gives. -/
def State.armTables (s : State) : State :=
  if !s.mgr.toArm || s.mgr.awaits.any (fun a => a.job = 2) then s
  else
    let t := match s.mgr.coord.swapAt with
      | some t => max t s.swapStep
      | none => s.swapStep
    let root := s.mgr.coord.reroot && s.mgr.coord.swapAt.isSome
    let ctl := (FAB_RT_CTL.SWAP_ARM.into (FAB_RT_CTL.GROUP_ESC_NEXT.into (s.reg FAB_RT_CTL.off) (b2n (!s.allLinks))) 1).toNat
    let s := s.modMgr (fun x => { x with toArm := false, coord := { x.coord with swapAt := none, reroot := false } })
    let s := State.eachOf (s.modId :: s.peers) (fun m s =>
      let s := if root then s.recordTo m 0 (eventWords 0x0C 0 t 0 0 (s.fget FAB_TERM.TERM)) else s
      s.writeAt m 0 ([(FAB_RT_AT_LO.off, t % 2 ^ 32), (FAB_RT_AT_HI.off, t / 2 ^ 32), (FAB_RT_CTL.off, ctl)] ++ s.dataWrites m)) s
    s.tellSlices 8 0 0

/-- New tables computed and every shadow bank written. -/
def State.installTables (s : State) : State :=
  let s := s.modMgr (fun x => { x with toArm := true, awaits := x.awaits.filter (fun a => a.job ≠ 2) })
  let s := s.journal 3 2 s.groupBytes
  (State.eachOf (s.modId :: s.peers) (fun m s => s.writeAt m 2 (s.tableWrites (modPos m))) s).armTables

/-! ### The group tables' inputs (R321, R322, R335) -/

/-- The role of reference taken up again at the next boundary, with the uplinks that now lead towards the coordinator (R65). -/
def State.aimRef (s : State) : State :=
  if s.acting then { s with tick := { s.tick with roleNext := some (true, s.refParents) } } else s

/-- The circuits of the group graph as the coordinator gives them, with the machine-wide step of the swap. -/
def State.takeInputs (s : State) (t : Nat) (reroot : Bool) (x : List (Nat × Nat × Nat × Nat)) : State :=
  let s := s.modMgr (fun y => { y with coord := { y.coord with inputs := x, swapAt := some t, reroot := reroot } })
  s.aimRef.installTables

/-- The coordinator's circuits verified anew: where they differ, or the root moves, every group manager gets them with one step. -/
def State.nameCircuits (s : State) (reroot : Bool) : State :=
  let x := s.verified
  if !s.acting || !s.flag FAB_MGR_STAT.COORD || (x = s.mgr.coord.inputs && !reroot) then s
  else
    let t := s.step + s.fget RIG_CTL.LEAD
    (s.sendCircuits 21 (leBytes 8 t ++ leBytes 4 (b2n reroot)) x).takeInputs t reroot x

/-! ### The command in progress (R323) -/

/-- The first command changed. -/
def State.modCmd (s : State) (f : HostCmd → HostCmd) : State :=
  s.modMgr (fun x => { x with cmds := match x.cmds with | [] => [] | c :: t => f c :: t })

/-- The next phase, nothing read yet. -/
def State.nextPhase (s : State) : State := s.modCmd (fun c => { c with phase := c.phase + 1, got := [] })

/-- The command ends with a status; the host's shows in FAB_CMD_STAT and is journaled. -/
def State.cmdEnd (s : State) (st : Nat) : State :=
  match s.mgr.cmds with
  | [] => s
  | c :: t =>
    let s := s.modMgr (fun x => { x with cmds := t, awaits := x.awaits.filter (fun a => a.job ≠ 1) })
    if 65536 ≤ c.hseq then s
    else
      let s := (((s.fset FAB_CMD_STAT.BUSY 0).fset FAB_CMD_STAT.STATUS st).fset FAB_CMD_STAT.HSEQ c.hseq).irq 1
      s.journal 8 0 (leBytes 4 (s.reg FAB_CMD_STAT.off).toNat)

/-- Registers read from a module for the command. -/
def State.readAt (s : State) (mod : Nat) (offs : List Nat) : State :=
  if mod = s.modId then
    let (vs, s) := s.regReads (fun _ => 0) offs
    s.modCmd (fun c => { c with got := c.got ++ [(mod, vs)] })
  else s.mgtAsk mod 0x11 1 false (offs.flatMap (leBytes 4))

/-- The members of a reservation that answer: module and context. -/
def State.membersOf (s : State) (r : Resv) : List (Nat × Nat) :=
  r.ctx.filter (fun e => e.1 = s.modId || !s.mgr.lostMods.contains e.1)

/-- The step a command names: 0 asks for RIG_CTL.LEAD boundaries ahead (R325). -/
def State.namedStep (s : State) (c : HostCmd) (i : Nat) : Nat :=
  let t := c.args.getD i 0 + c.args.getD (i + 1) 0 * 2 ^ 32
  if t = 0 then s.step + s.fget RIG_CTL.LEAD else t

/-- Whether a step lies less than 16 boundaries ahead (R325). -/
def State.tooLate (s : State) (t : Nat) : Bool := decide (t < s.step + 16)

/-! ### Manifest (R316, R317) -/

/-- A manifest stored and in force: the identity block goes out again, and the ports' tests run (R232, R317). -/
def State.takeManifest (s : State) (b : List Byte) : State :=
  let s := if s.nor.readable then { s with nor := { s.nor with manifest := b } } else s
  let s := (s.modMgr (fun x => { x with manifest := b })).identAgain
  s.each 16 (fun p s => if s.trained p then s.identTest p false else s)

/-- One segment of the manifest sent to a module. -/
def State.sendManSeg (s : State) (route mod job i : Nat) : State :=
  s.mgtAskBy route mod 0x0C job false (segBody 0 0 i (960 * i) ((s.mgr.manifest.drop (960 * i)).take 960))

/-- The manifest sent to a module in segments (R317). -/
def State.sendManifest (s : State) (route mod job : Nat) : State :=
  State.eachOf (List.range (ceilDiv s.mgr.manifest.length 960)) (fun i s => s.sendManSeg route mod job i) s

/-- Whether the manager refuses a manifest (R250, R315, R316). -/
def State.manRefused (s : State) (b : List Byte) : Bool :=
  let old := s.nor.cached
  !manForm b || !s.manSigOk b || (manForm old && decide (leAt b 8 8 < leAt old 8 8)) ||
    (manForm old && leAt b 8 8 = leAt old 8 8 && manDigest b ≠ manDigest old)

/-- MANIFEST: address, length. -/
def State.cmdManifest (s : State) (c : HostCmd) : State :=
  let a := c.args.getD 0 0 + c.args.getD 1 0 * 2 ^ 32
  let n := c.args.getD 2 0
  let b := s.memRead a n
  match c.phase with
  | 0 =>
    if n = 0 || !mlaRange a n then s.cmdEnd 3
    else if s.manRefused b then s.cmdEnd 6
    else
      let s := s.takeManifest b
      (State.eachOf s.peers (fun m s => s.sendManifest (s.srcRoute m) m 1) s).nextPhase
  | _ => s.cmdEnd 0

/-! ### Cross-connect (R252 to R255) -/

/-- Whether a cross-connect map is refused (R252, R255). -/
def xmapRefused (b : List Byte) (x : List (Nat × Nat × Nat × Nat)) : Bool :=
  let ends := x.flatMap (fun e => [(e.1, e.2.1), (e.2.2.1, e.2.2.2)])
  x.any (fun e => modGroup e.1 = modGroup e.2.2.1) || ends.any (fun e => !(e.2 = 7 || e.2 = 8) || !manHas b e.1) ||
    (pairs ends).any (fun p => p.1 = p.2) || !graphOk b x

/-- The writes that set up an uplink for its circuit (R253). -/
def circuitWrites (b : List Byte) (m c m' c' : Nat) : List (Nat × Nat) :=
  match manMod? b m, manMod? b m' with
  | some r, some q =>
    (List.range 4).map (fun i => (LNK_EXP.off c i, leAt q (4 * i) 4)) ++
      [(LNK_EXP_ID.off c, m' + c' * 2 ^ 12 + 2 ^ 16), (LNK_CTL.off c, linkWord r c 1 0)]
  | _, _ => []

/-- A new map carried out on the uplinks of this group: dropped ones OFF and out of the tables, the others set up. -/
def State.connect (s : State) (x : List (Nat × Nat × Nat × Nat)) : State :=
  let ends (l : List (Nat × Nat × Nat × Nat)) : List (Nat × Nat × Nat × Nat) :=
    (l.flatMap (fun e => [e, (e.2.2.1, e.2.2.2, e.1, e.2.1)])).filter (fun e => modGroup e.1 = modGroup s.modId)
  let old := ends s.mgr.xmap
  let new := ends x
  let gone := old.filter (fun e => !new.contains e)
  let s := s.modMgr (fun y => { y with xmap := x })
  let s := State.eachOf gone (fun e s =>
    let s := s.modPq (modPos e.1) (fun y => { y with links := y.links.filter (fun c => c ≠ e.2.1) })
    match manMod? s.mgr.manifest e.1 with
    | some r => s.writeAt e.1 1 [(LNK_CTL.off e.2.1, linkWord r e.2.1 0 0)]
    | none => s) s
  let s := State.eachOf (new.filter (fun e => !old.contains e)) (fun e s =>
    s.writeAt e.1 1 (circuitWrites s.mgr.manifest e.1 e.2.1 e.2.2.1 e.2.2.2)) s
  s.nameCircuits false

/-- XCONNECT: address, entry count; the coordinator only. -/
def State.cmdXconnect (s : State) (c : HostCmd) : State :=
  let a := c.args.getD 0 0 + c.args.getD 1 0 * 2 ^ 32
  let n := 8 * c.args.getD 2 0
  let x := xmapOf (s.memRead a n)
  match c.phase with
  | 0 =>
    if !s.flag FAB_MGR_STAT.COORD then s.cmdEnd 1
    else if n = 0 || !mlaRange a n then s.cmdEnd 3
    else if xmapRefused s.mgr.manifest x then s.cmdEnd 7
    else (s.journalXmap 1 x).nextPhase
  | 1 => ((s.connect x).sendCircuits 20 [] x).nextPhase
  | _ => s.cmdEnd 0

/-! ### Mode, handover -/

/-- MODE: 1 SERVICE, 2 TEST (R311). -/
def State.cmdMode (s : State) (c : HostCmd) : State :=
  let m := c.args.getD 0 0
  if m ≠ 1 && m ≠ 2 then s.cmdEnd 3
  else match c.phase with
    | 0 => (s.journal 9 1 (leBytes 4 m)).nextPhase
    | _ => (s.fset FAB_MGR_STAT.MODE m).cmdEnd 0

/-- HANDOVER: refused unless the other manager module is in STANDBY. -/
def State.cmdHandover (s : State) : State := if s.mgr.sby ≠ 2 then s.cmdEnd 8 else (s.cmdEnd 0).nameStep true 0

/-! ### Slices (R324, R325) -/

/-- The member list at an address: words of R174's member format in ascending module ID, ended by a zero word. -/
def memberList (b : List Byte) : Nat → Nat → List (Nat × Nat)
  | 0, _ => []
  | n + 1, i =>
    let w := leAt b (4 * i) 4
    if w = 0 then [] else (bits w 11 0, bits w 27 12) :: memberList b n (i + 1)

/-- The lowest context of a module that no reservation holds, of this manager or of another group's. -/
def State.freeCtx (s : State) (m : Nat) : Option Nat :=
  firstBelow 16 (fun n => s.mgr.resv.all (fun r => !r.ctx.contains (m, n)) && s.mgr.coord.held.all (fun h => h.2 ≠ (m, n)) &&
    (m ≠ s.modId || s.ctxFree n))

/-- The reservation that SLICE_RESERVE asks for, or the status that refuses it. -/
def State.reservation (s : State) (c : HostCmd) : Except Nat Resv :=
  let sl := c.args.getD 0 0
  let a := c.args.getD 1 0 + c.args.getD 2 0 * 2 ^ 32
  let ch := c.args.getD 3 0
  let ms := memberList (s.memRead a 16388) 4096 0
  let bound := ch < 256 && s.flag (MBX_BIND_W0.VALID ch) && s.chanSender ch = 0 && s.chanRecv ch = 2
  if 4096 ≤ sl || !mlaRange a 4 || ms.isEmpty || !rising (ms.map (fun m => (m.1, 0))) || ms.any (fun m => m.2 = 0) || !bound ||
      ms.any (fun m => !manHas s.mgr.manifest m.1) then .error 3
  else if ms.any (fun m => modGroup m.1 ≠ modGroup s.modId) && !s.flag FAB_MGR_STAT.COORD then .error 1
  else if s.mgr.resv.any (fun r => r.slice = sl || ms.any (fun m => r.members.any (fun k => k.1 = m.1 && k.2 &&& m.2 ≠ 0))) then
    .error 5
  else
    let cs := ms.map (fun m => (m.1, s.freeCtx m.1))
    if cs.any (fun e => e.2.isNone) then .error 5
    else .ok ⟨sl, ms, ch, cs.map (fun e => (e.1, e.2.getD 0)), []⟩

/-- SLICE_RESERVE: slice, address of the member list, event channel. -/
def State.cmdReserve (s : State) (c : HostCmd) : State :=
  match s.reservation c with
  | .error e => s.cmdEnd e
  | .ok r =>
    match c.phase with
    | 0 => (s.journalResv 1 r).nextPhase
    | _ => ((s.modMgr (fun x => { x with resv := x.resv ++ [r] })).tellResv r).cmdEnd 0

/-- The tick states read from the members. -/
def HostCmd.states (c : HostCmd) : List Nat := c.got.map (fun g => (TCK_SL_STAT.STATE 0).of (BitVec.ofNat 32 (g.2.getD 0 0)))

/-- SLICE_RELEASE: slice; it must be IDLE in every context. -/
def State.cmdRelease (s : State) (c : HostCmd) : State :=
  match s.resvOf (c.args.getD 0 0) with
  | none => s.cmdEnd 3
  | some r =>
    match c.phase with
    | 0 => State.eachOf (s.membersOf r) (fun e s => s.readAt e.1 [TCK_SL_STAT.off e.2]) s.nextPhase
    | 1 =>
      if c.states.any (fun st => st ≠ 0) then s.cmdEnd 8
      else (s.journal 5 1 (leBytes 4 r.slice)).nextPhase
    | _ => ((s.modMgr (fun x => { x with resv := x.resv.filter (fun y => y.slice ≠ r.slice) })).tellRelease r).cmdEnd 0

/-- Whether a tick state admits a slice command: RESUME and DISCARD a held slice, HOLD one at work (R57). -/
def cmdState (k st : Nat) : Bool := if k = 2 then 2 ≤ st && st ≤ 4 else st = 5

/-- TCK_SL_CTL as read from a member, with a command and its arm. -/
def slCtlWord (c : HostCmd) (m k arm : Nat) : Nat :=
  let old := ((c.got.find? (fun g => g.1 = m)).map (fun g => g.2.getD 1 0)).getD 0
  ((TCK_SL_CTL.CMD_ARM 0).into ((TCK_SL_CTL.CMD 0).into (BitVec.ofNat 32 old) k) arm).toNat

/-- A slice command taken back on every member. -/
def State.slCancel (s : State) (c : HostCmd) (r : Resv) : State :=
  State.eachOf (s.membersOf r) (fun e s => s.writeAt e.1 0 [(TCK_SL_CTL.off e.2, slCtlWord c e.1 0 0)]) s

/-- SLICE_CMD: slice, command, step. Written everywhere, then armed everywhere (R325). -/
def State.cmdSlice (s : State) (c : HostCmd) : State :=
  let k := c.args.getD 1 0
  match s.resvOf (c.args.getD 0 0) with
  | none => s.cmdEnd 3
  | some r =>
    if k < 1 || 3 < k then s.cmdEnd 3
    else match c.phase with
      | 0 =>
        let t := s.namedStep c 2
        let s := s.nextPhase.modCmd (fun x => { x with step := t })
        State.eachOf (s.membersOf r) (fun e s => s.readAt e.1 [TCK_SL_STAT.off e.2, TCK_SL_CTL.off e.2]) s
      | 1 =>
        if c.states.any (fun st => !cmdState k st) then s.cmdEnd 8
        else if s.tooLate c.step then s.cmdEnd 4
        else
          let s := State.eachOf (s.membersOf r) (fun e s => s.writeAt e.1 1
            [(TCK_SL_CMD_AT_LO.off e.2, c.step % 2 ^ 32), (TCK_SL_CMD_AT_HI.off e.2, c.step / 2 ^ 32),
             (TCK_SL_CTL.off e.2, slCtlWord c e.1 k 0)]) s
          s.modCmd (fun x => { x with phase := 2 })
      | 2 =>
        if s.tooLate c.step then (s.slCancel c r).cmdEnd 4
        else
          let s := State.eachOf (s.membersOf r) (fun e s => s.writeAt e.1 1 [(TCK_SL_CTL.off e.2, slCtlWord c e.1 k 1)]) s
          s.modCmd (fun x => { x with phase := 3 })
      | _ => s.cmdEnd 0

/-- The fence record of a command: CAUSE 1 set, 0 clear, 3 armed, 2 cancelled. -/
def State.fenceWords (s : State) (slice t who how : Nat) : List Word := eventWords 9 slice t who how (s.fget FAB_TERM.TERM)

/-- A fence command taken back on every member. -/
def State.fenceCancel (s : State) (c : HostCmd) (r : Resv) : State :=
  State.eachOf (s.membersOf r) (fun e s =>
    s.recordTo e.1 0 (s.fenceWords r.slice c.step (whoWord (c.args.getD 1 0) (c.args.getD 2 0)) 2)) s

/-- FENCE: slice, module, mask, set or clear, step; written everywhere, then armed everywhere (R296, R325). -/
def State.cmdFence (s : State) (c : HostCmd) : State :=
  let sl := c.args.getD 0 0
  let who := whoWord (c.args.getD 1 0) (c.args.getD 2 0)
  let set := c.args.getD 3 0
  match s.resvOf sl with
  | none => s.cmdEnd 3
  | some r =>
    if 4096 ≤ c.args.getD 1 0 || 65536 ≤ c.args.getD 2 0 || 1 < set then s.cmdEnd 3
    else match c.phase with
      | 0 =>
        let t := s.namedStep c 4
        if s.tooLate t then s.cmdEnd 4
        else ((s.journalFence 1 sl who (set = 1)).nextPhase).modCmd (fun x => { x with step := t })
      | 1 =>
        if s.tooLate c.step then s.cmdEnd 4
        else State.eachOf (s.membersOf r) (fun e s => s.recordTo e.1 1 (s.fenceWords sl c.step who set)) s.nextPhase
      | 2 =>
        if s.tooLate c.step then (s.fenceCancel c r).cmdEnd 4
        else State.eachOf (s.membersOf r) (fun e s => s.recordTo e.1 1 (s.fenceWords sl c.step who 3)) s.nextPhase
      | _ =>
        let s := s.modMgr (fun x => { x with resv := x.resv.map (fun y =>
          if y.slice = sl then { y with fences := setFence y.fences who (set = 1) } else y) })
        (s.sliceEvent 9 sl who 0).cmdEnd 0

/-- TREE_CFG: slice, RID, 0 primary or 1 alternate; the slice must be in REPAIR or HOLD (R301). -/
def State.cmdTree (s : State) (c : HostCmd) : State :=
  match s.resvOf (c.args.getD 0 0) with
  | none => s.cmdEnd 3
  | some r =>
    if 4096 ≤ c.args.getD 1 0 || 1 < c.args.getD 2 0 then s.cmdEnd 3
    else match c.phase with
      | 0 => State.eachOf (s.membersOf r) (fun e s => s.readAt e.1 [TCK_SL_STAT.off e.2]) s.nextPhase
      | 1 =>
        if c.states.any (fun st => st ≠ 4 && st ≠ 5) then s.cmdEnd 8
        else
          let t := s.step + s.fget RIG_CTL.LEAD
          State.eachOf (s.membersOf r) (fun e s =>
            s.recordTo e.1 1 (eventWords 0x0A r.slice t (c.args.getD 1 0) (c.args.getD 2 0) (s.fget FAB_TERM.TERM))) s.nextPhase
      | _ => s.cmdEnd 0

/-! ### The machine -/

/-- The modules of the machine that the coordinator's commands go to: those of its group, and of the groups that the group graph
reaches those not known as lost. -/
def State.machine (s : State) : List Nat :=
  let d := (groupsGraph s.mgr.coord.inputs).distTo (modGroup s.modId)
  let b := s.mgr.manifest
  s.modId :: s.peers ++ ((List.range (manMods b)).map (fun i => modRecId (manMod b i))).filter (fun m =>
    modGroup m ≠ modGroup s.modId && decide (d.getD (modGroup m) farAway < farAway) && !s.mgr.lostMods.contains m)

/-- PERIOD: period, step; the coordinator only. The new period is written everywhere, then armed everywhere (R37). -/
def State.cmdPeriod (s : State) (c : HostCmd) : State :=
  let period := c.args.getD 0 0
  let t := c.args.getD 1 0 + c.args.getD 2 0 * 2 ^ 32
  let all := s.machine
  if !s.flag FAB_MGR_STAT.COORD then s.cmdEnd 1
  else if period < 1000 || 2 ^ 20 ≤ period then s.cmdEnd 3
  else if s.tooLate t && c.phase < 3 then s.cmdEnd 4
  else match c.phase with
    | 0 => State.eachOf all (fun m s => s.readAt m [TCK_CTL.off]) (s.nextPhase.modCmd (fun x => { x with step := t }))
    | 1 => (State.eachOf all (fun m s =>
        s.writeAt m 1 [(TCK_PERIOD_NEXT.off, period), (TCK_PERIOD_AT_LO.off, t % 2 ^ 32), (TCK_PERIOD_AT_HI.off, t / 2 ^ 32)])
        s).modCmd (fun x => { x with phase := 2 })
    | 2 => (State.eachOf all (fun m s =>
        let ctl := ((c.got.find? (fun g => g.1 = m)).map (fun g => g.2.getD 0 0)).getD 0
        s.writeAt m 1 [(TCK_CTL.off, (TCK_CTL.PERIOD_ARM.into (BitVec.ofNat 32 ctl) 1).toNat)]) s).nextPhase
    | _ => s.cmdEnd 0

/-- An ADAPT command taken back on every module. -/
def State.adaptCancel (s : State) (c : HostCmd) : State :=
  State.eachOf (s.modId :: s.peers) (fun m s => s.recordTo m 0 (eventWords 0x0B 0 c.step 0 2 (s.fget FAB_TERM.TERM))) s

/-- ADAPT: 0 or 1, at one step on every module; written everywhere, then armed everywhere (R325). -/
def State.cmdAdapt (s : State) (c : HostCmd) : State :=
  let v := c.args.getD 0 0
  if 1 < v then s.cmdEnd 3
  else match c.phase with
    | 0 =>
      let t := s.step + s.fget RIG_CTL.LEAD
      let s := s.nextPhase.modCmd (fun x => { x with step := t })
      State.eachOf (s.modId :: s.peers) (fun m s => s.recordTo m 1 (eventWords 0x0B 0 t 0 v (s.fget FAB_TERM.TERM))) s
    | 1 =>
      if s.tooLate c.step then (s.adaptCancel c).cmdEnd 4
      else State.eachOf (s.modId :: s.peers) (fun m s => s.recordTo m 1 (eventWords 0x0B 0 c.step 0 3 (s.fget FAB_TERM.TERM))) s.nextPhase
    | _ => s.cmdEnd 0

/-- The lowest feature level of the group's modules. -/
def State.lowFeat (s : State) : Nat :=
  ((s.peers.map (fun m => (s.pq (modPos m)).feat)).filter (fun f => f ≠ 0)).foldl min (s.fget SEC_FW_LEVEL.FEAT)

/-- FW_STAGE: address, length, level N or N + 1 (R333). -/
def State.cmdStage (s : State) (c : HostCmd) : State :=
  let a := c.args.getD 0 0 + c.args.getD 1 0 * 2 ^ 32
  let n := c.args.getD 2 0
  let lvl := c.args.getD 3 0
  if n < 64 || 2 ^ 24 < n || !mlaRange a n then s.cmdEnd 3
  else
    let b := s.memRead a n
    if leAt b 4 2 ≠ lvl || (lvl ≠ s.lowFeat && lvl ≠ s.lowFeat + 1) then s.cmdEnd 10
    else (s.modMgr (fun x => { x with staged := b, stagedFeat := lvl })).cmdEnd 0

/-- RESTART: module, 0 current or 1 staged firmware: the module reset of a member (R333). -/
def State.cmdRestart (s : State) (c : HostCmd) : State :=
  let m := c.args.getD 0 0
  let f := c.args.getD 1 0
  if 1 < f || !s.peers.contains m || (f = 1 && s.mgr.staged.isEmpty) then s.cmdEnd 3
  else match c.phase with
    | 0 =>
      let rest := s.mgr.restarts.filter (fun x => x ≠ m)
      let s := s.modMgr (fun x => { x with restarts := if f = 1 then rest ++ [m] else rest })
      (s.writeAt m 1 [(HUB_RST_CMD.off, (HUB_RST_CMD.CMD.into 0 1).toNat)]).nextPhase
    | _ => s.cmdEnd 0

/-- FLOOR: feature level, unless a module runs below it (R333). -/
def State.cmdFloor (s : State) (c : HostCmd) : State :=
  let f := c.args.getD 0 0
  match c.phase with
  | 0 =>
    if 65536 ≤ f then s.cmdEnd 3
    else if s.lowFeat < f then s.cmdEnd 10
    else (State.eachOf (s.modId :: s.peers) (fun m s => s.writeAt m 1 [(HUB_FEAT_FLOOR.off, f)]) s).nextPhase
  | _ => s.cmdEnd 0

/-- FORWARD: module, entry count, address of the access list; one entry a phase, as master 0x02 (R313). -/
def State.cmdForward (s : State) (c : HostCmd) : State :=
  let m := c.args.getD 0 0
  let n := c.args.getD 1 0
  let a := c.args.getD 2 0 + c.args.getD 3 0 * 2 ^ 32
  let entry (i : Nat) : Nat × Nat := (leAt (s.memRead (a + 8 * i) 4) 0 4, leAt (s.memRead (a + 8 * i + 4) 4) 0 4)
  if n < 1 || 60 < n || !mlaRange a (8 * n) || !manHas s.mgr.manifest m then s.cmdEnd 3
  else if m ≠ s.modId && !s.peers.contains m then s.cmdEnd 9
  else
    let i := c.phase
    let s := if i = 0 || bit (entry (i - 1)).1 31 then s
      else match c.got with
        | g :: _ => s.memWrite (a + 8 * (i - 1) + 4) (leBytes 4 (g.2.getD 0 0))
        | [] => s
    if n ≤ i then s.cmdEnd 0
    else
      let (w, v) := entry i
      let off := w % 2 ^ 31
      let s := s.nextPhase
      if m = s.modId then
        if bit w 31 then s.regPut false 2 off (BitVec.ofNat 32 v)
        else
          let (vs, s) := s.regReads (fun _ => 2) [off]
          s.modCmd (fun x => { x with got := [(m, vs)] })
      else if bit w 31 then s.mgtAsk m 0x10 1 true (regPairs [(off, v)])
      else s.mgtAsk m 0x11 1 true (leBytes 4 off)

/-! ### Running commands -/

/-- One phase of a command (Table 7a). -/
def State.cmdPhase (s : State) (c : HostCmd) : State :=
  match c.code with
  | 0x01 => s.cmdManifest c
  | 0x02 => s.cmdXconnect c
  | 0x03 => s.cmdMode c
  | 0x04 => s.cmdReserve c
  | 0x05 => s.cmdRelease c
  | 0x06 => s.cmdSlice c
  | 0x07 => s.cmdFence c
  | 0x08 => s.cmdPeriod c
  | 0x09 => s.cmdTree c
  | 0x0A => s.cmdHandover
  | 0x0B => s.cmdStage c
  | 0x0C => s.cmdRestart c
  | 0x0D => s.cmdAdapt c
  | 0x0E => s.cmdFloor c
  | 0x0F => s.cmdForward c
  | _ => s.cmdEnd 3

/-- A command in progress as a record's data. -/
def HostCmd.body (c : HostCmd) : List Byte := leBytes 4 c.code ++ leBytes 4 c.hseq ++ c.args.flatMap (leBytes 4)

/-- Commands run until one waits for an answer, each journaled before it is acted on (R310, R323); `n` bounds the phases. -/
def State.cmdRun : Nat → State → State
  | 0, s => s
  | n + 1, s =>
    match s.mgr.cmds with
    | [] => s
    | c :: _ =>
      if s.mgr.awaits.any (fun a => a.job = 1) then s
      else if !c.told then State.cmdRun n ((s.modCmd (fun x => { x with told := true })).journal 12 1 c.body)
      else State.cmdRun n (s.cmdPhase c)

/-- What waits for answers goes on: commands, tables, and commits. -/
def State.proceed (s : State) : State := ((State.cmdRun 100 s).armTables).armCommits

/-- A command of the manager's own, behind those in progress. -/
def State.ownCmd (s : State) (code : Nat) (args : List Nat) : State :=
  (s.modMgr (fun x => { x with cmds := x.cmds ++ [⟨code, 65536, args, 0, 0, [], false⟩] })).proceed

/-- A write of FAB_CMD by the host (R306, R323): the command begins, or is turned away as NOT_MGR or BUSY. -/
def State.fabCmd (s : State) (v : Word) : State :=
  let hseq := FAB_CMD.HSEQ.of v
  if !s.acting || s.flag FAB_CMD_STAT.BUSY || s.mgr.hbStep.isSome then s.cmdTurned hseq
  else
    let args := (List.range 16).map (fun i => (s.reg (FAB_CMD_ARG.off i)).toNat)
    let s := s.fset FAB_CMD_STAT.BUSY 1
    (s.modMgr (fun x => { x with cmds := x.cmds ++ [⟨FAB_CMD.CODE.of v, hseq, args, 0, 0, [], false⟩] })).proceed

/-- SLICE_CMD_DEADLINE: a command with a step, unanswered 16 boundaries before it, is cancelled everywhere (R325); a PERIOD whose arms are
sent and not all answered ends with LOST. -/
def State.cmdDeadline (s : State) : State :=
  match s.mgr.cmds with
  | [] => s
  | c :: _ =>
    if c.step = 0 || !s.mgr.awaits.any (fun a => a.job = 1) || s.step + 16 < c.step then s
    else
      let s := match c.code, s.resvOf (c.args.getD 0 0) with
        | 0x06, some r => if c.phase < 2 then s else s.slCancel c r
        | 0x07, some r => s.fenceCancel c r
        | 0x0D, _ => s.adaptCancel c
        | _, _ => s
      (s.cmdEnd (if c.code = 8 && c.phase = 3 then 9 else 4)).proceed

/-! ### Commands -/

/-- A host command's row: the write of FAB_CMD that carries its code (R323). -/
def State.fabRow (s : State) (code : Nat) (m : Master) (hseq : BitVec 16) : State :=
  let v := BitVec.ofNat 32 (code + hseq.toNat * 2 ^ 16)
  s.gate true m FAB_CMD.off v (fun s => s.fabCmd v)

/-- MANIFEST (R316). -/
def execManifest (m : Master) (hseq : BitVec 16) (s : State) : Result := done s (s.fabRow 0x01 m hseq)
/-- XCONNECT (R252). -/
def execXconnect (m : Master) (hseq : BitVec 16) (s : State) : Result := done s (s.fabRow 0x02 m hseq)
/-- MODE (R311). -/
def execMode (m : Master) (hseq : BitVec 16) (s : State) : Result := done s (s.fabRow 0x03 m hseq)
/-- SLICE_RESERVE (R324). -/
def execSliceReserve (m : Master) (hseq : BitVec 16) (s : State) : Result := done s (s.fabRow 0x04 m hseq)
/-- SLICE_RELEASE (R323). -/
def execSliceRelease (m : Master) (hseq : BitVec 16) (s : State) : Result := done s (s.fabRow 0x05 m hseq)
/-- SLICE_CMD (R325). -/
def execSliceCmd (m : Master) (hseq : BitVec 16) (s : State) : Result := done s (s.fabRow 0x06 m hseq)
/-- FENCE (R296). -/
def execFence (m : Master) (hseq : BitVec 16) (s : State) : Result := done s (s.fabRow 0x07 m hseq)
/-- PERIOD (R37). -/
def execPeriod (m : Master) (hseq : BitVec 16) (s : State) : Result := done s (s.fabRow 0x08 m hseq)
/-- TREE_CFG (R301). -/
def execTreeCfg (m : Master) (hseq : BitVec 16) (s : State) : Result := done s (s.fabRow 0x09 m hseq)
/-- HANDOVER (R311). -/
def execHandover (m : Master) (hseq : BitVec 16) (s : State) : Result := done s (s.fabRow 0x0A m hseq)
/-- FW_STAGE (R333). -/
def execFwStage (m : Master) (hseq : BitVec 16) (s : State) : Result := done s (s.fabRow 0x0B m hseq)
/-- RESTART (R333). -/
def execRestart (m : Master) (hseq : BitVec 16) (s : State) : Result := done s (s.fabRow 0x0C m hseq)
/-- ADAPT (R323). -/
def execAdapt (m : Master) (hseq : BitVec 16) (s : State) : Result := done s (s.fabRow 0x0D m hseq)
/-- FLOOR (R333). -/
def execFloor (m : Master) (hseq : BitVec 16) (s : State) : Result := done s (s.fabRow 0x0E m hseq)
/-- FORWARD (R313). -/
def execForward (m : Master) (hseq : BitVec 16) (s : State) : Result := done s (s.fabRow 0x0F m hseq)
/-- SLICE_CMD_DEADLINE (R325). -/
def execSliceCmdDeadline (s : State) : Result := done s s.cmdDeadline

end Sys2Proof.Machine
end

