-- ==== Sys2Proof/Machine/Members.lean ====
section
/-! DEFINITION. Members and their manager: members lost and back (R330, R331), heartbeats, rigging distribution as a receiver and
as the sender of what is missing (R326, R327), and firmware served to a starting module (R444). -/

namespace Sys2Proof.Machine

/-! ### Loss (R330, R331) -/

/-- MEMBER_LOST at a hub of the slice: abort, HOLD at the next boundary, an armed commit to be refused (R196), the event forwarded. -/
def State.memberLost (s : State) (b : List Byte) : State :=
  let slice := leAt b 0 4
  match s.ctxOf slice with
  | none => s
  | some n =>
    let s := s.abortTick n 6
    let s := if 2 ≤ s.slState n && s.slState n ≤ 4 then s.holdAt n 6 else s
    let s := if s.fget (RIG_SL_STAT.SHADOW n) = 3 then s.modCx n (fun c => { c with lost := true }) else s
    s.sliceEvent 1 slice (leAt b 4 4) (leAt b 8 4)

/-- One slice told of its lost partitions: MEMBER_LOST to its hubs, its load abandoned, the partitions fenced. A load that is ARMED
when a whole module is lost stays: the other members refuse its commit (R196). -/
def State.loseFor (s : State) (r : Resv) (mod mask cause : Nat) (whole : Bool) : State :=
  let body := leBytes 4 r.slice ++ leBytes 4 (whoWord mod mask) ++ leBytes 4 cause
  let ms := (r.members.map Prod.fst).filter (fun m => m ≠ s.modId && !s.mgr.lostMods.contains m)
  let near := ms.filter (fun m => modGroup m = modGroup s.modId)
  let far := ms.filter (fun m => modGroup m ≠ modGroup s.modId)
  let s := if near.isEmpty then s else s.mgtCast (s.posMask near) 0x28 body
  let s := State.eachOf far (fun m s => s.mgtSend m 0x28 body) s
  let s := (s.memberLost body).raise 0x0905 0 mod r.slice
  let s := if whole && s.mgr.load.armed.any (fun a => a.1 = r.slice) then s else s.loseSlice r.slice 0x29
  s.ownCmd 7 [r.slice, mod, mask, 1, 0, 0]

/-- Answers of a lost module are no longer awaited; a host command that needs one ends with LOST. -/
def State.dropAwaits (s : State) (mod : Nat) : State :=
  let hit := s.mgr.awaits.any (fun a => a.mod = mod && a.job = 1)
  let s := s.modMgr (fun x => { x with awaits := x.awaits.filter (fun a => a.mod ≠ mod) })
  if hit then s.cmdEnd 9 else s

/-- A module, or partitions of it, counted as lost: once until it is back. CAUSE 1 reset notice, 2 heartbeat, 3 unreachable. -/
def State.countLost (s : State) (mod mask : Nat) (whole : Bool) (cause : Nat) : State :=
  let keys := if whole then [mod] else (maskParts mask).map (fun p => 4096 * (p + 1) + mod)
  let new := keys.filter (fun k => !s.mgr.lostMods.contains k)
  if !s.acting || mod = s.modId && whole || s.mgr.lostMods.contains mod || new.isEmpty then s
  else
    let lost := if whole then 0xFFFF else new.foldl (fun a k => a ||| 2 ^ (k / 4096 - 1)) 0
    let s := s.cancelStep.modMgr (fun x => { x with lostMods := x.lostMods ++ new })
    let s := if whole then s.dropAwaits mod else s
    let s := if whole && s.otherMgr = some mod then s.modMgr (fun x => { x with sby := 0 }) else s
    let s := s.tellCoord 23 (leBytes 4 mod ++ leBytes 4 lost ++ leBytes 4 (b2n whole) ++ leBytes 4 cause)
    let s := State.eachOf s.mgr.resv (fun r s =>
      match r.members.find? (fun m => m.1 = mod) with
      | some m => if m.2 &&& lost = 0 then s else s.loseFor r mod (m.2 &&& lost) cause whole
      | none => s) s
    s.proceed

/-- MEMBER_BACK: a module or its partitions discovered again. -/
def State.countBack (s : State) (mod : Nat) (keys : Nat → Bool) : State :=
  let back := s.mgr.lostMods.filter (fun k => k % 4096 = mod && keys k)
  if back.isEmpty then s
  else
    let s := s.modMgr (fun x => { x with lostMods := x.lostMods.filter (fun k => !back.contains k) })
    let s := s.tellCoord 24 (leBytes 4 mod ++ leBytes 4 (b2n (back.contains mod)))
    State.eachOf s.mgr.resv (fun r s =>
      match r.members.find? (fun m => m.1 = mod) with
      | some m => s.sliceEvent 2 r.slice (whoWord mod m.2) 0
      | none => s) s

/-- RESET_NOTICE; that of a group's manager for its whole module advances the generation of its master (R374, R421). -/
def State.noticeIn (s : State) (p : Packet) : State :=
  let w := leAt p.body 0 4
  let m := epMod p.src
  let s := if bit w 16 && (managersOf s.mgr.manifest (modGroup m)).contains m then s.advGen (0x80 + modGroup m) else s
  s.countLost m (bits w 15 0) (bit w 16) 1

/-! ### Feature levels (R332, R333) -/

/-- FEAT_MIN and MIXED of the group's modules. -/
def State.featRefresh (s : State) : State :=
  let low := s.lowFeat
  let mixed := s.peers.any (fun m => let f := (s.pq (modPos m)).feat; f ≠ 0 && f ≠ low) || s.fget SEC_FW_LEVEL.FEAT ≠ low
  (s.fset FAB_MGR_STAT.FEAT_MIN low).fset FAB_MGR_STAT.MIXED (b2n mixed)

/-! ### Firmware served (R444) -/

/-- Segments of an image sent to the position that is served. -/
def State.sendFw (s : State) (v : Serve) (segs : List Nat) : State :=
  State.eachOf (segs.filter (fun i => 960 * i < v.image.length)) (fun i s =>
    s.mgtAskBy v.route.toNat (s.modAt v.pos) 0x38 0 false (segBody 0 0 i (960 * i) ((v.image.drop (960 * i)).take 960))) s

/-- A module reports a neighbour without firmware: each of its neighbours that discovery has not found is served the staged image
if it was restarted for it, else the running one. -/
def State.serveFrom (s : State) (mod : Nat) : State :=
  let base := if mod = s.modId then 0 else (s.pq (modPos mod)).route.toNat
  let n := dims s.groupSize
  if !s.manages || s.sec.image.isEmpty || (mod ≠ s.modId && base = 0) || 6 ≤ bits base 3 0 then s
  else State.eachOf (List.range 7) (fun c s =>
    match portPeer n (modPos mod) c, manMod? s.mgr.manifest mod with
    | some q, some r =>
      let m := s.modAt q
      if !(manPort r c).present || m = s.modId || (s.disc q = 1 && !s.mgr.lostMods.contains m) ||
          s.mgr.serves.any (fun v => v.pos = q) then s
      else
        let route := BitVec.ofNat 32 (extRoute base c)
        let v : Serve := ⟨q, route, if s.mgr.restarts.contains m then s.mgr.staged else s.sec.image⟩
        let s := (s.modPq q (fun x => { x with route := route })).modMgr (fun x => { x with serves := x.serves ++ [v] })
        s.sendFw v (List.range (ceilDiv v.image.length 960))
    | _, _ => s) s

/-- The numbers of (first, count) ranges. -/
def rangesOf (b : List Byte) (n : Nat) : List Nat :=
  (List.range (min n (b.length / 8))).flatMap (fun i =>
    (List.range (min 65536 (leAt b (8 * i + 4) 4))).map (fun j => leAt b (8 * i) 4 + j))

/-- A FW_SEG reply: the missing ranges go again. -/
def State.fwReplyIn (s : State) (mod : Nat) (b : List Byte) : State :=
  match s.mgr.serves.find? (fun v => s.modAt v.pos = mod) with
  | some v => s.sendFw v (rangesOf b 120)
  | none => s

/-- Numbers in rising order as (first, count) ranges. -/
def toRanges : List Nat → List (Nat × Nat)
  | [] => []
  | a :: t =>
    match toRanges t with
    | (f, n) :: r => if f = a + 1 then (a, n + 1) :: r else (a, 1) :: (f, n) :: r
    | [] => [(a, 1)]

/-- The body of a list of missing numbers: at most 120 ranges. -/
def rangeBody (l : List Nat) : List Byte := ((toRanges l).take 120).flatMap (fun r => leBytes 4 r.1 ++ leBytes 4 r.2)

/-- The data of a segment, if its SDIG passes (Table 8). -/
def segData (b : List Byte) : Option (List Byte) :=
  let d := slice b 32 (bits (leAt b 12 4) 9 0)
  if slice b 16 16 = shake256 16 d then some d else none

/-- The segments of the served image that the boot ROM lacks; the first one while the length is unknown. -/
def State.fwMissing (s : State) : List Nat :=
  let rx := s.sec.fwRx
  match rx.find? (fun e => e.1 = 0) with
  | none => [0]
  | some (_, h) => (List.range (ceilDiv (fwTotal h) 960)).filter (fun i => rx.all (fun e => e.1 ≠ i))

/-- FW_SEG at the boot ROM: kept if whole; the complete image is checked and run. -/
def State.fwSegIn (s : State) (p : Packet) (via : Option (Fin 16)) : State :=
  match via, segData p.body with
  | some c, some d =>
    if s.fwRuns || s.pwr.stage ≠ 5 then s.mgtReject p
    else
      let s := { s with sec := { s.sec with
        fwRx := Store.insert s.sec.fwRx (leAt p.body 4 4) d, fwFrom := some (p, c.val), fwAt := s.now } }
      let s := s.fwTakes (1 + c.val)
      if !s.fwMissing.isEmpty then s
      else
        let b := s.sec.fwRx.flatMap Prod.snd
        let b := b.take (fwTotal b)
        ({ s with sec := { s.sec with fwRx := [], fwFrom := none } }).fwImage b (1 + c.val)
  | none, _ => s.mgtReject p
  | _, none => s

/-! ### Heartbeats (R330) -/

/-- The feature levels that a module's trained links show. -/
def State.linkFeats (s : State) : List Nat := ((List.range 16).filter s.trained).map (fun c => leAt (s.peerBlock c) 20 2)

/-- HEARTBEAT: sent by a member; the acting module looks at its own links. -/
def State.heartbeat (s : State) : State :=
  if !s.hubUp || !s.fwRuns then s
  else if s.manages then (if s.linkFeats.contains 0 then s.serveFrom s.modId else s)
  else if !s.flag FAB_MGR_ID.VALID then s
  else
    let l := s.linkFeats
    let low := l.foldl min (l.headD (s.fget SEC_FW_LEVEL.FEAT))
    let high := l.foldl max (l.headD (s.fget SEC_FW_LEVEL.FEAT))
    s.mgtSend (s.fget FAB_MGR_ID.ACTING) 0x30 (leBytes 2 low ++ leBytes 2 high)

/-- A HEARTBEAT at the manager: its module's partitions are back from their resets, and a level of 0 asks for firmware. -/
def State.heartbeatIn (s : State) (p : Packet) : State :=
  let m := epMod p.src
  let s := (s.modPq (modPos m) (fun x => { x with beatAt := s.now })).countBack m (fun k => decide (4096 ≤ k))
  if leAt p.body 0 2 = 0 then s.serveFrom m else s

/-- HEARTBEAT_LOSS: three in a row missing. -/
def State.heartbeatLoss (s : State) (m : Nat) : State :=
  if s.acting && s.peers.contains m && (s.pq (modPos m)).beatAt + msUnits 3 ≤ s.now then s.countLost m 0xFFFF true 2 else s

/-! ### Distribution as a receiver (R326, R327) -/

/-- The first section of a slice of a received load puts its context into LOADING (Table 8 of R189). -/
def State.firstSect (s : State) (n sid : Nat) : State :=
  match s.mgr.recv with
  | none => s
  | some r =>
    if r.begun.contains sid then s
    else ((s.modMgr (fun x => { x with recv := some { r with begun := r.begun ++ [sid] } })).dropShadow n).beginShadow n sid r.delta

/-- A complete section of a received plan, checked against its CHK and handed to its agents; one that fails is missing again. -/
def State.sectionIn (s : State) (r : RecvSt) (e : Nat × Nat × Nat) : State :=
  let segs := (List.range e.2.2).map (fun j => e.2.1 + j)
  match r.heads.find? (fun h => h.1 = e.1) with
  | none => s
  | some (_, h) =>
    let d := dirEntOf h
    if segs.any (fun i => r.segs.all (fun g => g.1 ≠ i)) then s
    else
      let b := segs.flatMap (fun i => Store.get (fun _ => []) r.segs i)
      if leNat (shake256 4 b) ≠ d.chk && !b.isEmpty then
        s.modMgr (fun x => { x with recv := some { r with segs := Store.clear (fun i => segs.contains i) r.segs } })
      else match s.ctxFor d.sid with
        | some n => (s.firstSect n d.sid).takeSect n ⟨d.typ, d.agent, if d.typ = 0x0034 then d.off else d.count, b⟩
        | none => s

/-- RIG_PLAN: what this module will receive. -/
def State.planIn (s : State) (p : Packet) : State :=
  let b := p.body
  let load := leAt b 0 2
  let es := (List.range ((b.length - 4) / 44)).map (fun i => slice b (4 + 44 * i) 44)
  let plan := es.map (fun e => (leAt e 0 4, leAt e 4 4, leAt e 8 4))
  let heads := es.map (fun e => (leAt e 0 4, slice e 12 32))
  let old := match s.mgr.recv with
    | some r => if r.load = load && r.src = p.src then some r else none
    | none => none
  let r : RecvSt := match old with
    | some r => { r with plan := r.plan ++ plan, heads := r.heads ++ heads, lastAt := s.now }
    | none => ⟨load, plan, [], s.now, heads, p.src, bit (leAt b 2 2) 1, []⟩
  let s := s.modMgr (fun x => { x with recv := some r })
  State.eachOf (plan.filter (fun e => e.2.2 = 0)) (fun e s => s.sectionIn r e) s

/-- RIG_SEG: a segment of the plan whose SDIG passes is kept. -/
def State.segIn (s : State) (p : Packet) : State :=
  let b := p.body
  let seg := leAt b 4 4
  match s.mgr.recv, segData b with
  | some r, some d =>
    match r.plan.find? (fun e => e.2.1 ≤ seg && seg < e.2.1 + e.2.2) with
    | none => s
    | some e =>
      if leAt b 0 2 ≠ r.load || r.segs.any (fun g => g.1 = seg) then s
      else
        let r := { r with segs := Store.insert r.segs seg d, lastAt := s.now }
        (s.modMgr (fun x => { x with recv := some r })).sectionIn r e
  | _, _ => s

/-- The segments of the plan that are missing. -/
def RecvSt.missing (r : RecvSt) : List Nat :=
  r.plan.flatMap (fun e => ((List.range e.2.2).map (fun j => e.2.1 + j)).filter (fun i => r.segs.all (fun g => g.1 ≠ i)))

/-- The segments of a manifest on its way here that are missing. -/
def State.manMissing (s : State) : List Nat := (List.range s.mgr.manFor).filter (fun i => s.mgr.manSegs.all (fun e => e.1 ≠ i))

/-- RESEND_TIMER: 2 ms after the latest segment or request, what is missing is asked for again: segments of a plan, of a manifest (R317), of
firmware (R444). -/
def State.resendTimer (s : State) : State :=
  let s := match s.mgr.recv with
    | some r =>
      if r.missing.isEmpty || s.now < r.lastAt + msUnits 2 then s
      else (s.modMgr (fun x => { x with recv := some { r with lastAt := s.now } })).mgtSend (epMod r.src) 0x1A (rangeBody r.missing)
    | none => s
  let s :=
    if s.mgr.manFor = 0 || s.now < s.mgr.manAt + msUnits 2 then s
    else (s.modMgr (fun x => { x with manAt := s.now })).mgtSend (s.fget FAB_MGR_ID.ACTING) 0x1A (rangeBody s.manMissing)
  match s.sec.fwFrom with
  | some (p, c) =>
    if s.fwRuns || s.now < s.sec.fwAt + msUnits 2 then s
    else ({ s with sec := { s.sec with fwAt := s.now } }).mgtReply p (some (Fin.ofNat 16 c)) (rangeBody s.fwMissing)
  | none => s

/-! ### Distribution as the sender (R327) -/

/-- RIG_RESEND: the missing segments go again, to that module alone: those of the manifest while a MANIFEST command waits for that module,
else those of the image in load (DESIGN CHOICE, log entry 61). -/
def State.resendIn (s : State) (p : Packet) : State :=
  let m := epMod p.src
  if s.mgr.awaits.any (fun a => a.code = 0x0C && a.mod = m) then
    State.eachOf (rangesOf p.body 120) (fun i s => s.sendManSeg (s.srcRoute m) m 1 i) s
  else if !s.mgr.load.active then s
  else State.eachOf (rangesOf p.body 120) (fun i s => s.sendSeg m i) s

/-- A member module has re-applied a slice after RETAIN: once every member has, the manager resumes it (R194). -/
def State.warmIn (s : State) (sid m : Nat) : State :=
  match s.resvOf sid with
  | none => s
  | some r =>
    let ms := (s.mgr.warm.filter (fun e => e.1 = sid && e.2 ≠ m)).map Prod.snd ++ [m]
    let rest := s.mgr.warm.filter (fun e => e.1 ≠ sid)
    if (r.members.map Prod.fst).all ms.contains then
      (s.modMgr (fun x => { x with warm := rest })).ownCmd 6 [sid, 1, 0, 0]
    else s.modMgr (fun x => { x with warm := rest ++ ms.map (fun k => (sid, k)) })

/-- Whether every partition of a context on this module has been re-applied: none of them waits (R194). -/
def State.warmDone (s : State) (n : Nat) : Bool :=
  s.flag (RIG_SL_STAT.WARM n) && s.slState n = 5 &&
    (maskParts ((s.sliceMap n).mask s.modId)).all (fun p => !(s.pt p).reapply.contains (Fin.ofNat 16 n))

/-- A module that has re-applied a slice tells the manager, in a RIG_REPORT with status 2 (R194; DESIGN CHOICE, log entry 18). -/
def State.warmTell (s : State) (n : Nat) : State :=
  if !s.warmDone n then s
  else if s.rulerOf n = s.modId then s.warmIn (s.slId n) s.modId
  else s.mgtSend (s.rulerOf n) 0x1B
    (reportBody (s.slId n) 2 ⟨0, 0xFFFF, 0, 0⟩ (xorAll ((s.cx n).digs.map Prod.snd)))

/-- RIG_REPORT: a module's result for a slice, journaled; a failed warm re-apply sends the slice to IDLE on every member (R195). -/
def State.reportIn (s : State) (p : Packet) : State :=
  let b := p.body
  let m := epMod p.src
  let sid := leAt b 0 4
  let e : RigErr := ⟨leAt b 8 4, leAt b 12 4, leAt b 16 4, leAt b 20 4⟩
  let x := slice b 24 32
  if e.code = 0x2B then
    match s.resvOf sid with
    | none => s
    | some r =>
      let s := s.rigErr e
      State.eachOf (r.ctx.filter (fun c => c.1 ≠ m)) (fun c s =>
        if c.1 = s.modId then s.idleCtx c.2
        else s.writeAt c.1 3 [(HUB_RST_CMD.off, (HUB_RST_CMD.CMD.into (HUB_RST_CMD.CTX.into 0 c.2) 2).toNat)]) s
  else if e.code = 0 && leAt b 4 4 = 2 then s.warmIn sid m
  else
    let s := s.takeReport m sid x e
    if e.code = 0 then s.journal 7 0 (leBytes 4 m ++ leBytes 4 sid ++ leBytes 4 0 ++ x) else s

/-- SLICE_EVENT: posted once on the acting module; a record of the manager, or of the coordinator, takes effect here. -/
def State.eventIn (s : State) (p : Packet) (via : Option (Fin 16)) : State :=
  let ws := wordsOf 16 p.body
  let src := epMod p.src
  let fromCoord := s.far src && s.flag FAB_MGR_ID.COORD_VALID && src = s.fget FAB_MGR_ID.COORD
  if s.acting && !fromCoord then s.postEvent ws else (s.recordIn ws).mgtReply p via []

/-! ### Warm re-apply (R194) -/

/-- A partition re-applies its slices after RETAIN, with WARM_EN (R194). -/
def execWarmReapply (part : PartId) (s : State) : Result :=
  let p := part.val
  done s (
    if s.rewarming && s.flag PWR_STAT.LP_VALID && s.fget PWR_STAT.STATE = 0 && !s.flag PWR_STAT.MOVING && !(s.pt p).closed &&
        !(s.pt p).reapply.isEmpty then
      let ns := (s.pt p).reapply.map Fin.val
      State.eachOf ns (fun n s => s.warmTell n) ((s.warmPart p).modPt p (fun t => { t with reapply := [] }))
    else s)

end Sys2Proof.Machine
end

