-- ==== Sys2Proof/Machine/Coordinator.lean ====
section
/-! DEFINITION. The machine coordinator (R335): its tether by R307 to R310 with the groups' acting managers as witnesses, its terms, and the
records between it and the managers of the other groups. The packets are those of R312, told from a group's own by the sender's group
(DESIGN CHOICE, log entry 62). -/

namespace Sys2Proof.Machine

/-- The term after `t`; a term is never 0 (R308). -/
def nextTerm (t : Nat) : Nat := if t + 1 < 2 ^ 32 then t + 1 else 1

/-- The coordinator's role changed. -/
def State.modCoord (s : State) (f : CoordSt → CoordSt) : State := s.modMgr (fun x => { x with coord := f x.coord })

/-- The groups that witness the coordinator's lease: its own and those that the cross-connect map joins. -/
def State.witnesses (s : State) : Nat :=
  ((s.mgr.xmap.flatMap (fun e => [modGroup e.1, modGroup e.2.2.1])).foldl addKey [modGroup s.modId]).length

/-- The group that the manifest names beside a group as its machine coordinator's or the one that stands by for it. -/
def State.coordOther (s : State) (g : Nat) : Option Nat :=
  let w := leAt s.mgr.manifest 20 2
  if g = bits w 5 0 then some (bits w 13 8) else if g = bits w 13 8 then some (bits w 5 0) else none

/-- Whether a coordinator tether that these groups have answered holds the lease: the standby's group, or more than half of the
witnesses (R307). -/
def State.coordHeld (s : State) (got : List Nat) : Bool :=
  decide (s.witnesses < 2 * got.length) ||
    (match s.coordOther (modGroup s.modId) with
     | some g => g ≠ modGroup s.modId && got.contains g
     | none => false)

/-- A coordinator tether sent to the managers of every other group; this group counts at once. -/
def State.coordTetherOut (s : State) : State :=
  let q := s.mgr.coord.seq
  let own := [modGroup s.modId]
  let s := s.modCoord (fun c => { c with
    seq := q + 1, sentAt := s.now, tethers := c.tethers.filter (fun t => s.now < t.at_ + msUnits 45) ++ [⟨q, s.now, own⟩]
    leaseEnd := if s.coordHeld own then s.now + msUnits 45 else c.leaseEnd })
  let s := s.modMgr (fun x => { x with awaits := x.awaits.filter (fun a => a.code ≠ 1 || a.job ≠ 6) })
  State.eachOf (s.farMgrs.filter s.reaches) (fun m s => s.mgtAsk m 0x01 6 false (leBytes 4 q)) s

/-- A coordinator tether due: every 10 ms. -/
def State.coordTether (s : State) : State :=
  if s.acting && s.flag FAB_MGR_STAT.COORD && s.mgr.coord.sentAt + msUnits 10 ≤ s.now then s.coordTetherOut else s

/-- The coordinator that this module knows of, and its term, made known to the modules of the group, so that they take its commands. -/
def State.spreadCoord (s : State) : State :=
  State.eachOf s.peers (fun m s => s.writeAt m 0
    [(FAB_MGR_ID.off, (s.reg FAB_MGR_ID.off).toNat), (FAB_COORD_TERM.off, (s.reg FAB_COORD_TERM.off).toNat)]) s

/-- The role of coordinator given up: nothing is issued as coordinator any more. -/
def State.coordLapse (s : State) : State :=
  let s := (s.fset FAB_MGR_STAT.COORD 0).fset FAB_MGR_ID.COORD_VALID 0
  let s := s.modCoord (fun c => { c with tethers := [], takeAt := none, accepts := [] })
  (s.modMgr (fun x => { x with awaits := x.awaits.filter (fun a => a.job ≠ 6) })).aimRef

/-- The role of coordinator taken: the lease begins, this module is the reference across groups, and the root of the escape tree between
groups moves here with a machine-wide swap (R335). -/
def State.becomeCoord (s : State) : State :=
  let s := ((s.fset FAB_MGR_STAT.COORD 1).fset FAB_MGR_ID.COORD s.modId).fset FAB_MGR_ID.COORD_VALID 1
  let s := s.modCoord (fun c => { c with takeAt := none, accepts := [], tethers := [], leaseEnd := s.now + msUnits 45 })
  let s := s.aimRef.spreadCoord.coordTetherOut
  if s.mgr.xmap.isEmpty then s else s.nameCircuits true

/-- The acting manager of the group that COORD names is the machine coordinator, with the next term, unless another group's is
(R335). -/
def State.coordinate (s : State) : State :=
  if bits (leAt s.mgr.manifest 20 2) 5 0 ≠ modGroup s.modId ||
      (s.flag FAB_MGR_ID.COORD_VALID && s.far (s.fget FAB_MGR_ID.COORD)) then s
  else (s.fset FAB_COORD_TERM.TERM (nextTerm (s.fget FAB_COORD_TERM.TERM))).becomeCoord

/-- What a group's manager knows, told to a coordinator that is new to it: usable uplinks, modules not found or lost, reservations. -/
def State.reportGroup (s : State) : State :=
  let ups := s.groupMods.flatMap (fun m => (((s.pq (modPos m)).links).filter (fun c => c = 7 || c = 8)).map (fun c => (m, c)))
  let s := State.eachOf ups (fun e s => s.tellCoord 22 (leBytes 4 e.1 ++ leBytes 4 e.2 ++ leBytes 4 1)) s
  let gone := s.groupMods.filter (fun m => m ≠ s.modId && !s.peers.contains m)
  let s := State.eachOf gone (fun m s => s.tellCoord 23 (leBytes 4 m ++ leBytes 4 0xFFFF ++ leBytes 4 1 ++ leBytes 4 3)) s
  State.eachOf s.mgr.resv (fun r s => s.tellResv r) s

/-- The coordinator's term and identity taken up; a new coordinator hears of the group. -/
def State.takeCoord (s : State) (term mod : Nat) : State :=
  let new := !s.flag FAB_MGR_ID.COORD_VALID || s.fget FAB_MGR_ID.COORD ≠ mod || s.fget FAB_COORD_TERM.TERM < term
  let s := if s.flag FAB_MGR_STAT.COORD then s.coordLapse else s
  let s := s.fset FAB_COORD_TERM.TERM (max term (s.fget FAB_COORD_TERM.TERM))
  let s := (s.fset FAB_MGR_ID.COORD mod).fset FAB_MGR_ID.COORD_VALID 1
  if new then s.aimRef.spreadCoord.reportGroup else s

/-- A coordinator tether at an acting manager (R307): it witnesses the lease, and in the other group that COORD names it stands by. -/
def State.coordTetherIn (s : State) (p : Packet) (via : Option (Fin 16)) : State :=
  let s := s.takeCoord p.term (epMod p.src)
  let stands := (s.coordOther (modGroup s.modId)).isSome
  let s := s.modCoord (fun c => { c with tetherAt := some s.now, takeAt := none, replyAt := if stands then some s.now else c.replyAt })
  s.mgtReply p via (p.body.take 4)

/-- An answer to a coordinator tether, from a group's manager. -/
def State.coordReplyIn (s : State) (m : Nat) (b : List Byte) : State :=
  let q := leAt b 0 4
  let s := s.modCoord (fun c => { c with
    tethers := c.tethers.map (fun t => if t.seq = q then { t with got := addKey t.got (modGroup m) } else t) })
  match s.mgr.coord.tethers.find? (fun t => t.seq = q) with
  | some t => if s.coordHeld t.got then s.modCoord (fun c => { c with leaseEnd := max c.leaseEnd (t.at_ + msUnits 45) }) else s
  | none => s

/-- The coordinator's lease over (R307). -/
def State.coordLease (s : State) : State :=
  if s.acting && s.flag FAB_MGR_STAT.COORD && s.mgr.coord.leaseEnd ≤ s.now then s.coordLapse else s

/-- Takeover of the coordinator's role (R309): 50 ms after its latest answer the standing-by manager takes the next coordinator term and
asks the managers of the other groups. -/
def State.coordTakeover (s : State) : State :=
  match s.mgr.coord.replyAt with
  | none => s
  | some t =>
    if !s.acting || s.flag FAB_MGR_STAT.COORD || s.mgr.coord.takeAt.isSome || s.now < t + msUnits 50 then s
    else
      let s := s.fset FAB_COORD_TERM.TERM (nextTerm (s.fget FAB_COORD_TERM.TERM))
      let s := s.modCoord (fun c => { c with takeAt := some s.now, accepts := [modGroup s.modId] })
      State.eachOf (s.farMgrs.filter s.reaches) (fun m s => s.mgtAsk m 0x04 6 false []) s

/-- TERM_SET of a coordinator at an acting manager: refused for 48 ms after a coordinator tether, else recorded. -/
def State.coordTermIn (s : State) (p : Packet) (via : Option (Fin 16)) : State :=
  let own := s.fget FAB_COORD_TERM.TERM
  let bound := match s.mgr.coord.tetherAt with
    | some t => decide (s.now < t + msUnits 48)
    | none => false
  if bound && own < p.term then s.mgtReply p via []
  else if p.term = own && !(s.flag FAB_MGR_ID.COORD_VALID && s.fget FAB_MGR_ID.COORD = epMod p.src) then s.mgtStale p via
  else (s.takeCoord p.term (epMod p.src)).mgtReply p via []

/-- An answer to it: with the acceptance of more than half of the groups this module is the coordinator. -/
def State.coordTermReply (s : State) (m : Nat) (p : Packet) : State :=
  if s.mgr.coord.takeAt.isNone || p.term ≠ s.fget FAB_COORD_TERM.TERM then s
  else
    let s := s.modCoord (fun c => { c with accepts := addKey c.accepts (modGroup m) })
    if s.witnesses < 2 * s.mgr.coord.accepts.length then s.becomeCoord else s

/-- No majority after 10 ms: a further 50 ms pass before the next try (R309). -/
def State.coordTermOver (s : State) : State :=
  match s.mgr.coord.takeAt with
  | some t =>
    if t + msUnits 10 ≤ s.now then
      s.modCoord (fun c => { c with takeAt := none, accepts := [], replyAt := c.replyAt.map (fun _ => s.now) })
    else s
  | none => s

/-- Parts of a map or of a set of circuits gathered: complete, or not yet. -/
def State.gather (s : State) (d : List Byte) (head : Nat) : Option (List (Nat × Nat × Nat × Nat)) × State :=
  let x := s.mgr.coord.parts.take (leAt d 0 4) ++ xmapOf (d.drop (8 + head))
  if leAt d 4 4 ≤ x.length then (some x, s.modCoord (fun c => { c with parts := [] }))
  else (none, s.modCoord (fun c => { c with parts := x }))

/-- A record of another group's manager: the coordinator's map (20) or circuits with their step (21); to the coordinator an uplink (22), a
module or partitions lost (23) or back (24); reservations made (25) and ended (26). -/
def State.coordRecord (s : State) (kind : Nat) (d : List Byte) : State :=
  match kind with
  | 20 => match s.gather d 0 with
    | (some x, s) => s.connect x
    | (none, s) => s
  | 21 => match s.gather d 12 with
    | (some x, s) => s.takeInputs (leAt d 8 8) (leAt d 16 4 = 1) x
    | (none, s) => s
  | 22 =>
    let e := (leAt d 0 4, leAt d 4 4)
    (s.modCoord (fun c => { c with
      up := if leAt d 8 4 = 1 then (if c.up.contains e then c.up else c.up ++ [e]) else c.up.filter (fun x => x ≠ e) })).nameCircuits false
  | 23 => s.countLost (leAt d 0 4) (leAt d 4 4) (leAt d 8 4 = 1) (leAt d 12 4)
  | 24 => s.countBack (leAt d 0 4) (fun k => leAt d 4 4 = 1 || decide (4096 ≤ k))
  | 25 =>
    let sl := leAt d 0 4
    let es := (List.range ((d.length - 4) / 8)).map (fun i => (sl, leAt d (4 + 8 * i) 4, leAt d (8 + 8 * i) 4))
    s.modCoord (fun c => { c with held := c.held.filter (fun h => h.1 ≠ sl) ++ es })
  | 26 => s.modCoord (fun c => { c with held := c.held.filter (fun h => h.1 ≠ leAt d 0 4) })
  | _ => s

/-- Such a record at this module, answered. -/
def State.coordRecordIn (s : State) (p : Packet) (via : Option (Fin 16)) : State :=
  (s.coordRecord (leAt p.body 4 4) (p.body.drop 8)).mgtReply p via []

end Sys2Proof.Machine
end

