-- ==== Sys2Proof/Machine/Roles.lean ====
section
/-! DEFINITION. The manager's role (R305 to R311): tether and lease, terms, takeover, handback, and the modes. -/

namespace Sys2Proof.Machine

/-! ### Taking the role -/

/-- More than half of the group's modules in the manifest. -/
def State.majority (s : State) (n : Nat) : Bool := decide (s.groupMods.length < 2 * n)

/-- The modules that a tether goes to: those assigned so far in START, the whole group as ACTING (R307, R309). -/
def State.tethered (s : State) : List Nat :=
  if s.acting then s.groupMods.filter (fun m => m ≠ s.modId) else s.peers

/-- The first port of the way that a command to a module takes. -/
def State.firstPort (s : State) (m : Nat) : Nat :=
  match s.escapeOut m with
  | some c => c
  | none => bits (s.srcRoute m) 7 4

/-- A TETHER to the other manager module over a second path: a source route whose first port differs, wherever there is one (R307). -/
def State.secondPath (s : State) (m : Nat) (body : List Byte) : State :=
  let r := s.routeBy (s.firstPort m) m
  if r = 0 then s else s.mgtAskBy r m 0x01 0 false body

/-- TETHER sent: twice to the other manager module, and to every hub; this module's own hub counts at once. -/
def State.tetherOut (s : State) : State :=
  let q := s.mgr.tetherSeq
  let body := leBytes 4 q
  let s := s.modMgr (fun x => { x with
    tetherSeq := q + 1, sentAt := s.now
    tethers := x.tethers.filter (fun t => s.now < t.at_ + msUnits 45) ++ [⟨q, s.now, [s.modId]⟩]
    awaits := x.awaits.filter (fun a => a.code ≠ 1 || a.job = 6) })
  let s := match s.otherMgr with
    | some m =>
      if s.acting && s.tethered.contains m then (s.mgtAsk m 0x01 0 false body).secondPath m body else s
    | none => s
  if s.acting then s.castAsk s.myTerm s.modId 0x01 s.tethered body
  else State.eachOf s.tethered (fun m s => s.mgtAsk m 0x01 0 false body) s

/-- TETHER due: every 10 ms on the module that holds the role. -/
def State.tether (s : State) : State :=
  if (s.acting || (s.fget FAB_MGR_STAT.ROLE = 1 && s.mgr.termed)) && s.mgr.sentAt + msUnits 10 ≤ s.now then s.tetherOut else s

/-- The members' PARENT on the new escape tree (R65, R309). -/
def State.writeParents (s : State) : State :=
  let g := s.groupGraph
  let cube := s.allLinks
  State.eachOf s.peers (fun m s =>
    match s.escPort g cube (modPos m) (modPos s.modId) with
    | some c =>
      let v := TCK_CTL.PARENT.into (TCK_CTL.ROLE.into (TCK_CTL.PERIOD_ARM.into (s.reg TCK_CTL.off) 0) 0) c
      s.writeAt m 0 [(TCK_CTL.off, v.toNat)]
    | none => s) s

/-- The role of ACTING taken: the lease begins, this module is the tick reference from the next boundary. -/
def State.becomeActing (s : State) : State :=
  let s := (s.fset FAB_MGR_ID.ACTING s.modId).fset FAB_MGR_ID.VALID 1
  let s := s.modMgr (fun x => { x with
    takeAt := none, accepts := [], sby := 0, tethers := [], leaseEnd := s.now + msUnits 45, hbStep := none, termed := true, commits := [],
    pos := x.pos.map (fun e => (e.1, { e.2 with beatAt := s.now })) })
  let s := (s.setRole 2).fset FAB_MGR_STAT.TETHER_OK 1
  (s.aimRef.coordinate.featRefresh).tetherOut

/-- The role moved here from another module: parents on the new tree, and host software told. -/
def State.takeOver (s : State) : State := (s.becomeActing.writeParents).tellSlices 7 s.modId 0

/-! ### TETHER (R307) -/

/-- TETHER at a hub: its term and manager are taken up; a manager module joins as STANDBY_SYNC; the answer echoes the sequence. -/
def State.tetherIn (s : State) (p : Packet) (via : Option (Fin 16)) : State :=
  let src := epMod p.src
  let s := s.follow p.term src
  if src = s.modId then s
  else
    let s := s.modMgr (fun x => { x with tetherAt := some s.now, takeAt := none })
    let role := s.fget FAB_MGR_STAT.ROLE
    let s := if s.managers.contains s.modId && (role = 0 || role = 1 || role = 5) then s.setRole 3 else s
    let s := s.modMgr (fun x => { x with replyAt := s.now })
    let s := if s.fget FAB_MGR_STAT.ROLE = 4 then s.fset FAB_MGR_STAT.TETHER_OK 1 else s
    s.mgtReply p via (p.body.take 4)

/-- TETHER_REPLY: the lease runs 45 ms from the sending of a TETHER that the standby or a majority of hubs has answered. The first
reply of the other manager module starts the copy of the state. -/
def State.tetherReplyIn (s : State) (m : Nat) (b : List Byte) : State :=
  let q := leAt b 0 4
  let s := s.modMgr (fun x => { x with
    tethers := x.tethers.map (fun t => if t.seq = q then { t with got := addKey t.got m } else t) })
  let s := match s.mgr.tethers.find? (fun t => t.seq = q) with
    | some t =>
      if (s.otherMgr = some m && s.mgr.sby = 2) || (if s.acting then s.majority t.got.length
          else decide (s.peers.length + 1 < 2 * t.got.length)) then
        (s.modMgr (fun x => { x with leaseEnd := max x.leaseEnd (t.at_ + msUnits 45) })).fset FAB_MGR_STAT.TETHER_OK 1
      else s
    | none => s
  if s.acting && s.otherMgr = some m && s.mgr.sby = 0 then s.copyState else s

/-- LEASE_EXPIRY. -/
def State.leaseOver (s : State) : State :=
  if (s.acting || (s.fget FAB_MGR_STAT.ROLE = 1 && s.mgr.termed)) && s.mgr.leaseEnd ≤ s.now then s.lapse else s

/-! ### Takeover (R309) -/

/-- TAKEOVER: 50 ms after its latest TETHER reply the standby takes the next term and asks every hub. -/
def State.takeover (s : State) : State :=
  if s.fget FAB_MGR_STAT.ROLE ≠ 4 || s.mgr.takeAt.isSome || s.now < s.mgr.replyAt + msUnits 50 then s
  else
    let t := nextTerm (s.fget FAB_TERM.TERM)
    let s := (s.fset FAB_TERM.TERM t).fset FAB_MGR_STAT.TETHER_OK 0
    let s := s.modMgr (fun x => { x with takeAt := some s.now, accepts := [s.modId] })
    s.castAsk t s.modId 0x04 (s.groupMods.filter (fun m => m ≠ s.modId)) []

/-- TERM_SET at a hub: refused for 48 ms after a TETHER, else recorded. The answer carries the recorded term. -/
def State.termSetIn (s : State) (p : Packet) (via : Option (Fin 16)) : State :=
  let own := s.fget FAB_TERM.TERM
  let src := epMod p.src
  let bound := match s.mgr.tetherAt with
    | some t => decide (s.now < t + msUnits 48)
    | none => false
  if bound && own < p.term then s.mgtReply p via []
  else if p.term = own && src ≠ s.fget FAB_MGR_ID.ACTING then s.mgtStale p via
  else (s.follow p.term src).mgtReply p via []

/-- TERM_SET_REPLY: a majority makes the standby ACTING, in RECOVERY; loads in progress are abandoned (R309). -/
def State.termSetReplyIn (s : State) (m : Nat) (p : Packet) : State :=
  if s.mgr.takeAt.isNone || p.term ≠ s.fget FAB_TERM.TERM then s
  else
    let s := s.modMgr (fun x => { x with accepts := addKey x.accepts m })
    if !s.majority s.mgr.accepts.length then s
    else
      let s := s.becomeActing
      let s := s.modMgr (fun x => { x with recoverAt := some s.now })
      let s := State.eachOf s.mgr.resv (fun r s => (s.dropSlice r.slice).abandonOthers r.slice) s
      let s := ((s.fset RIG_STAT.BUSY 0).fset RIG_STAT.PHASE 0).irq 2
      let s := s.raise 0x0903 0 0 (s.fget FAB_TERM.TERM % 2 ^ 16)
      (s.writeParents).tellSlices 7 s.modId 0

/-- TERM_SET_TIMEOUT: without a majority after 10 ms the module stays STANDBY; it waits a further 50 ms. -/
def State.termTimeout (s : State) : State :=
  match s.mgr.takeAt with
  | some t =>
    if t + msUnits 10 ≤ s.now then s.modMgr (fun x => { x with takeAt := none, accepts := [], replyAt := s.now }) else s
  | none => s

/-! ### Handback (R311, R336) -/

/-- Whether this module is its group's MGR_PRI. -/
def State.isPri (s : State) : Bool := s.managers.head? = some s.modId

/-- HANDBACK sent: by MGR_PRI in STANDBY, in SERVICE. -/
def State.handback (s : State) : State :=
  if s.isPri && s.fget FAB_MGR_STAT.ROLE = 4 && s.fget FAB_MGR_STAT.MODE = 1 && s.mgr.hbStep.isNone then
    s.mgtAsk (s.fget FAB_MGR_ID.ACTING) 0x03 0 false []
  else s

/-- HANDBACK at the acting module: a step is named in SERVICE; in RECOVERY it waits for its end. -/
def State.handbackIn (s : State) (p : Packet) (via : Option (Fin 16)) : State :=
  let s := s.mgtReply p via []
  if !s.acting || s.otherMgr ≠ some (epMod p.src) || s.mgr.sby ≠ 2 || s.mgr.hbStep.isSome then s
  else if s.shownMode = 1 then s.nameStep false 0
  else if s.shownMode = 3 && s.fget FAB_MGR_STAT.MODE = 1 then s.modMgr (fun x => { x with hbAgain := true })
  else s

/-- HANDBACK_STEP: at S the acting module enters STANDBY; from S + 1 the other one acts with the next term. -/
def State.handbackStep (s : State) : State :=
  match s.mgr.hbStep with
  | none => s
  | some t =>
    if s.acting && t ≤ s.step then
      let s := s.modMgr (fun x => { x with
        hbStep := none, sby := 0, cmds := [], awaits := [], tethers := [], toArm := false, recoverAt := none, commits := [],
        replyAt := s.now, coord := { x.coord with tethers := [], takeAt := none, accepts := [], swapAt := none } })
      let s := ((s.setRole 4).fset FAB_MGR_STAT.COORD 0).fset FAB_MGR_STAT.TETHER_OK 0
      { s with tick := { s.tick with roleNext := some (false, 15, 15) } }
    else if s.fget FAB_MGR_STAT.ROLE = 4 && t + 1 ≤ s.step then
      (s.fset FAB_TERM.TERM (nextTerm (s.fget FAB_TERM.TERM))).takeOver
    else s

/-- RECOVERY_END: 10 s after the takeover; a cancelled handback is named again once nothing else keeps the mode (R311, R336). -/
def State.recoveryEnd (s : State) : State :=
  let s := match s.mgr.recoverAt with
    | some t => if t + sUnits 10 ≤ s.now then s.modMgr (fun x => { x with recoverAt := none }) else s
    | none => s
  if s.acting && s.mgr.hbAgain && s.mgr.sby = 2 && s.shownMode ≠ 3 then s.nameStep false 0 else s

/-- MGR_SBY_START: no tether within DISC_TMO of the firmware load (R305). -/
def State.sbyStart (s : State) : State :=
  let seen := match s.mgr.tetherAt with
    | some t => decide (s.sec.ranAt ≤ t)
    | none => false
  match s.ownRec with
  | none => s
  | some r =>
    if s.fwRuns && s.mgrName r = some 1 && s.fget FAB_MGR_STAT.ROLE = 0 && !seen &&
        s.sec.ranAt + sUnits (s.fget FAB_MGR_CTL.DISC_TMO) ≤ s.now then s.beginManager r
    else s

end Sys2Proof.Machine
end

