-- ==== Sys2Proof/Machine/Discovery.lean ====
section
/-! DEFINITION. Discovery (R317 to R322): source-routed DISCOVER and its attestation, the manifest and ASSIGN, the end of discovery,
and the reports of link changes that lead to new tables. -/

namespace Sys2Proof.Machine

/-! ### Asking (R319) -/

/-- Where a source route of `n` hops from a position leads over the manifest's cables, each module on the way being found. -/
def State.walk (s : State) : Nat → Nat → Nat → Option Nat
  | 0, _, u => some u
  | n + 1, ports, u =>
    match manMod? s.mgr.manifest (s.modAt u), portPeer (dims s.groupSize) u (ports % 16) with
    | some r, some v =>
      if !(manPort r (ports % 16)).present || (n ≠ 0 && s.disc v ≠ 1) then none else State.walk s n (ports / 16) v
    | _, _ => none

/-- DISCOVER sent along a source route: to a position that is not found, or whose module was lost. -/
def State.discoverOut (s : State) (pos : Nat) (route : Word) : State :=
  let r := route.toNat
  let n := bits r 3 0
  let m := s.modAt pos
  let again := s.disc pos = 1 && !s.mgr.lostMods.contains m
  if !s.manages || n = 0 || 6 < n || !manHas s.mgr.manifest m || again || m = s.modId ||
      s.walk n (bits r 27 4) (modPos s.modId) ≠ some pos then s
  else
    let (k, s) := s.fresh
    let nonce := Config.discoverNonce k
    let s := (s.fset FAB_MGR_ID.ACTING s.modId).fset FAB_MGR_ID.VALID 1
    let s := s.modPq pos (fun x => { x with nonce := nonce, route := route, began := true, reply := [] })
    let s := s.modMgr (fun x => { x with awaits := x.awaits.filter (fun a => a.code ≠ 8 || a.mod ≠ m) })
    s.mgtAskBy r m 0x08 0 false (leBytes 32 nonce.toNat)

/-- DISCOVER at a hub: firmware signs an attestation over the nonce, SEL 0 (R448). -/
def State.discoverIn (s : State) (p : Packet) (via : Option (Fin 16)) : State :=
  if s.fwRuns then s.attAsk ⟨2, 0, slice p.body 0 32, some (p, via)⟩ else s

/-! ### The end of discovery (R320) -/

/-- Whether every position of the group is resolved. -/
def State.resolved (s : State) : Bool := s.groupMods.all (fun m => s.disc (modPos m) ≠ 0)

/-- Discovery complete: the manager is ACTING and computes the first tables. -/
def State.finish (s : State) : State :=
  if s.fget FAB_MGR_STAT.ROLE ≠ 1 || !s.resolved then s
  else
    let s := if s.mgr.termed then s
      else (s.fset FAB_TERM.TERM (nextTerm (max s.mgr.seen (s.fget FAB_TERM.TERM)))).modMgr (fun x => { x with termed := true })
    let s := (s.fset FAB_MGR_STAT.DISC_DONE 1).becomeActing
    s.installTables

/-- The first ASSIGN takes the term: one above the highest read during discovery, or 1 (R309). -/
def State.takeTerm (s : State) : State :=
  if s.mgr.termed then s
  else
    let s := s.fset FAB_TERM.TERM (nextTerm (max s.mgr.seen (s.fget FAB_TERM.TERM)))
    (s.modMgr (fun x => { x with termed := true, leaseEnd := s.now + msUnits 45 }))

/-- A position found: the manifest if it lacks it, then ASSIGN with its ID and the expectations of its ports. -/
def State.assignOut (s : State) (pos : Nat) (lacks : Bool) : State :=
  let m := s.modAt pos
  let r := (s.pq pos).route.toNat
  let s := if s.fget FAB_MGR_STAT.ROLE = 1 then s.takeTerm else s
  let s := if lacks then s.sendManifest r m 0 else s
  s.mgtAskBy r m 0x09 0 false (leBytes 4 m ++ bytesOf (expWords s.mgr.manifest m))

/-- Bytes of an attestation response without context entries, and its segments (R447). -/
def attLen : Nat := 256 + 49856

/-- A position REFUSED, with "peer attestation refused" (R320). -/
def State.refusePos (s : State) (pos : Nat) : State := (s.setDisc pos 3).raise 0x0B02 0 pos 0

/-- A complete DISCOVER reply checked (R319 step 3): FOUND and assigned, or REFUSED; two positions with one key are both REFUSED. -/
def State.checkReply (s : State) (pos : Nat) : State :=
  let x := s.pq pos
  let b := (x.reply.flatMap Prod.snd).take attLen
  let pub := slice b 176 64
  let key := digest pub
  let m := s.modAt pos
  let want := match manMod? s.mgr.manifest m with
    | some r => slice r 0 32
    | none => []
  let good := leAt b 0 4 = 0x54544144 && key = want && slice b 48 32 = leBytes 32 x.nonce.toNat &&
    Config.slhVerify256f pub (b.take 256) (b.drop 256)
  let twins := (List.range 64).filter (fun q => q ≠ pos && (s.pq q).key = key)
  let s := s.modPq pos (fun y => { y with key := key, reply := [], feat := leAt b 20 2 })
  let s := s.modMgr (fun y => { y with
    awaits := y.awaits.filter (fun a => a.mod ≠ m || (a.code ≠ 8 && a.code ≠ 0x38))
    serves := y.serves.filter (fun v => v.pos ≠ pos), restarts := y.restarts.filter (fun v => v ≠ m) })
  let s := if twins.isEmpty && good then
      let s := (s.setDisc pos 1).modPq pos (fun y => { y with beatAt := s.now })
      ((s.assignOut pos (slice b 144 32 ≠ manDigest s.mgr.manifest)).countBack m (fun _ => true)).featRefresh
    else State.eachOf twins (fun q s => s.refusePos q) (s.refusePos pos)
  s.finish

/-- DISCOVER_REPLY: a segment of the response; the last one completes it. -/
def State.discoverReplyIn (s : State) (m : Nat) (p : Packet) : State :=
  let pos := modPos m
  match segData p.body with
  | none => s
  | some d =>
    let s := s.modMgr (fun x => { x with seen := max x.seen p.term })
    let s := s.modPq pos (fun x => { x with reply := Store.insert x.reply (leAt p.body 4 4) d })
    if (List.range (ceilDiv attLen 960)).all (fun i => (s.pq pos).reply.any (fun e => e.1 = i)) then s.checkReply pos else s

/-- Whether a port of this module towards a position has reached MGMT. -/
def State.meets (s : State) (pos : Nat) : Bool :=
  (List.range 7).any (fun c => portPeer (dims s.groupSize) (modPos s.modId) c = some pos && s.trained c)

/-- DISCOVERY_TIMEOUT: a position unresolved after DISC_TMO is ABSENT, unless a port towards it has reached MGMT. Of the ports of other
modules the manager has no report (DEDUCED, log entry 61). -/
def State.discoverOver (s : State) (pos : Nat) : State :=
  if s.fget FAB_MGR_STAT.ROLE = 1 && manHas s.mgr.manifest (s.modAt pos) && s.disc pos = 0 && !s.meets pos &&
      s.mgr.discAt + sUnits (s.fget FAB_MGR_CTL.DISC_TMO) ≤ s.now then (s.setDisc pos 2).finish
  else s

/-! ### At the module that is discovered (R317, R319) -/

/-- ASSIGN: FAB_SELF, every port's LNK_EXP words and LNK_CTL.EN; the manager and its term are taken up. -/
def State.assignIn (s : State) (p : Packet) (via : Option (Fin 16)) : State :=
  let s := s.follow p.term p.mgr
  (s.takeId (bits (leAt p.body 0 4) 11 0) (wordsOf 80 (p.body.drop 4))).mgtReply p via []

/-- MAN_SEG: a segment kept and answered; the complete manifest, if its form and signature hold, is stored and in force. -/
def State.manSegIn (s : State) (p : Packet) (via : Option (Fin 16)) : State :=
  match segData p.body with
  | none => s
  | some d =>
    let i := leAt p.body 4 4
    let s := s.modMgr (fun x => { x with
      manSegs := Store.insert x.manSegs i d, manFor := if i = 0 then ceilDiv (leAt d 24 8) 960 else x.manFor
      manAt := s.now })
    let s := s.mgtReply p via []
    if s.mgr.manFor = 0 || (List.range s.mgr.manFor).any (fun j => s.mgr.manSegs.all (fun e => e.1 ≠ j)) then s
    else
      let b := s.mgr.manSegs.flatMap Prod.snd
      let b := b.take (leAt b 24 8)
      let s := s.modMgr (fun x => { x with manSegs := [], manFor := 0 })
      if manForm b && s.manSigOk b then s.takeManifest b else s

/-! ### Link changes (R253, R321, R322, R330) -/

/-- ROUTE_RECOMPUTE: a report that a port of a position is usable, or no longer; an uplink held by the tests of R233 is a cross-connect
mismatch (R253). The cable's other end follows; new tables go out, an uplink's report to the coordinator, which names the step of a group table swap
(R335); modules that no ACTIVE path reaches are lost. -/
def State.linkChange (s : State) (pos port : Nat) (now : LinkReport) : State :=
  if !s.acting || s.groupSize ≤ pos then s
  else
    let active : Bool := now = .usable
    let set (q : Nat) (s : State) : State := s.modPq q (fun x =>
      { x with links := if active then addKey x.links port else x.links.filter (fun c => c ≠ port) })
    let s := set pos s
    let s := match portPeer (dims s.groupSize) pos port with
      | some v => set v s
      | none => s
    let m := s.modAt pos
    let uplink := port = 7 || port = 8
    let circuit := uplink && (circuits s.mgr.xmap).any (fun e => e.1 = m && e.2.1 = port)
    let s := if circuit && now = .held then s.raise 0x0902 0 m port else s
    let s := if active then s else s.cancelStep
    let s :=
      if uplink then (s.tellCoord 22 (leBytes 4 m ++ leBytes 4 port ++ leBytes 4 (b2n active))).nameCircuits false
      else s.installTables
    let d := s.groupGraph.distTo (modPos s.modId)
    State.eachOf s.peers (fun m s => if farAway ≤ d.getD (modPos m) farAway then s.countLost m 0xFFFF true 3 else s) s

end Sys2Proof.Machine
end

