-- ==== Sys2Proof/Machine/Folds.lean ====
section
/-! DEFINITION. The running fold (R328, R329): a module's values, their way up the group escape tree, and the manager's check. -/

namespace Sys2Proof.Machine

/-! ### A round (R328) -/

/-- A module's own value of a context: its agents' digests computed again. -/
def State.foldOwn (s : State) (n : Nat) : FoldSt :=
  let ep := s.fget (RIG_SL_EPOCH.LAST n)
  let mask := (s.sliceMap n).mask s.modId
  let l := (s.cx n).active
  { slice := s.slId n, epoch := ep, count := 1
    xor := xorAll ((agentsIn l s.modId mask).map (agentDigest l (s.slId n) ep))
    misses := (s.cx n).misses, kids := [], void := (s.cx n).commitTick }

/-- The children on the escape tree whose values of a slice come through this module, while the escape family is e-cube. -/
def State.foldKids (s : State) (sid : Nat) : List Nat :=
  match s.ctxOf sid with
  | none => []
  | some n =>
    let root := modPos (s.fget FAB_MGR_ID.ACTING)
    let own := modPos s.modId
    let ms := ((s.sliceMap n).members.map Prod.fst).filter (fun m => modGroup m = modGroup s.modId && m ≠ s.modId)
        let far := if s.flag FAB_MGR_STAT.COORD then
        (((s.sliceMap n).members.map (fun m => modGroup m.1)).filter (fun g => g ≠ modGroup s.modId)).foldl addKey [] else []
    (ms.filterMap (fun m => before own (ecubePath (dims s.groupSize) root 8 (modPos m)))).foldl addKey [] ++ far.map (fun g => 4096 + g)

/-- The body of a fold packet: round, slice, epoch, contributors, exclusive or, epoch misses, void, zeros. -/
def FoldSt.body (round : Nat) (f : FoldSt) : List Byte :=
  leBytes 4 round ++ leBytes 4 f.slice ++ leBytes 4 f.epoch ++ leBytes 4 f.count ++ padTo 32 0 f.xor ++ leBytes 4 f.misses ++
    leBytes 4 (b2n f.void) ++ List.replicate 8 0

/-- The value that a fold packet carries. -/
def foldOf (b : List Byte) (kid : Nat) : FoldSt :=
  { slice := bits (leAt b 4 4) 11 0, epoch := leAt b 8 4, count := leAt b 12 4, xor := slice b 16 32, misses := leAt b 48 4,
    kids := [kid], void := leAt b 52 4 ≠ 0 }

/-- Two values of one slice folded; values of two epochs make the round void. -/
def FoldSt.fold (a b : FoldSt) : FoldSt :=
  { a with count := a.count + b.count, xor := xorBytes a.xor b.xor, misses := a.misses + b.misses, kids := a.kids ++ b.kids,
           void := a.void || b.void || a.epoch != b.epoch }

/-! ### The check (R329) -/

/-- What the manager keeps of a slice. -/
def State.driftOf (s : State) (sid : Nat) : DriftSt := (s.mgr.drifts.find? (fun d => d.slice = sid)).getD ⟨sid, 0, 0, 0, 0, 65536⟩

/-- What the manager keeps of a slice, set. -/
def State.setDrift (s : State) (d : DriftSt) : State :=
  s.modMgr (fun x => { x with drifts := x.drifts.filter (fun e => e.slice ≠ d.slice) ++ [d] })

/-- Rigging drift: the fault and the event, and HOLD for the slice. -/
def State.driftFound (s : State) (r : Resv) : State :=
  let s := (s.fset FAB_FOLD_STAT.DRIFT 1).raise 0x0901 0 0 r.slice
  (s.sliceEvent 5 r.slice 0 0).ownCmd 6 [r.slice, 2, 0, 0]

/-- A module's RIG_SL_LOCAL against its stored report of a slice: where it differs, the module is named and restores its agents. -/
def State.driftCompare (s : State) (sid m : Nat) (b : List Byte) : State :=
  match s.mgr.load.reports.find? (fun t => t.1 = m && t.2.1 = sid) with
  | some t =>
    if slice t.2.2.1 0 16 = slice b 0 16 then s
    else (s.sliceEvent 5 sid (whoWord m 0) 0).recordTo m 0 (eventWords 5 sid s.step m 0 (s.fget FAB_TERM.TERM))
  | none => s

/-- Once every member has been read, the next two rounds decide. -/
def State.driftWatch (s : State) : State :=
  if s.mgr.awaits.any (fun a => a.job = 4) then s
  else s.modMgr (fun x => { x with drifts := x.drifts.map (fun d => if d.fix = 3 then { d with fix := 2, good := 0 } else d) })

/-- RIG_SL_LOCAL of every member read, this module's own at once. -/
def State.driftAsk (s : State) (r : Resv) : State :=
  let offs (n : Nat) : List Nat := (List.range 4).map (RIG_SL_LOCAL.off n)
  (State.eachOf (s.membersOf r) (fun e s =>
    if e.1 = s.modId then s.driftCompare r.slice e.1 (bytesOf ((offs e.2).map s.reg))
    else s.mgtAsk e.1 0x11 4 false ((offs e.2).flatMap (leBytes 4))) s).driftWatch

/-- A member's RIG_SL_LOCAL has come. -/
def State.driftRead (s : State) (m : Nat) (b : List Byte) : State :=
  (State.eachOf (s.mgr.drifts.filter (fun d => d.fix = 3)) (fun d s => s.driftCompare d.slice m b) s).driftWatch

/-- A complete round of a slice at the folding manager. -/
def State.foldCheck (s : State) (f : FoldSt) : State :=
  let d := s.driftOf f.slice
  match s.resvOf f.slice with
  | none => s
  | some r =>
    if f.void || (d.epoch ≠ f.epoch && d.epoch ≠ 65536) then s.setDrift { d with bad := 0, calm := 0, epoch := f.epoch }
    else
      let want := match s.ctxOf f.slice with
        | some n => (s.sliceMap n).digest
        | none => ((s.mgr.load.reports.find? (fun t => t.1 = 4096 && t.2.1 = f.slice)).map (fun t => t.2.2.1)).getD []
      let ok := f.xor = want && f.count = (s.membersOf r).length
      let d := { d with epoch := f.epoch, calm := d.calm + 1, bad := if ok then 0 else d.bad + 1, good := if ok then d.good + 1 else 0 }
      let s := s.fcount FAB_FOLD_STAT.ROUNDS 1
      let s := if ok then s else s.fcount FAB_FOLD_STAT.MISMATCH 1
      let s := if s.fget FAB_FOLD_CTL.EMISS_LIM < f.misses && 2 < d.calm then
          (s.raise 0x0904 0 0 f.slice).sliceEvent 6 f.slice 0 0 else s
      if d.fix = 2 then
        if !ok then ((s.setDrift { d with fix := 0, bad := 0 }).sliceEvent 5 f.slice 0 0).ownCmd 6 [f.slice, 3, 0, 0]
        else if 2 ≤ d.good then (s.setDrift { d with fix := 0 }).ownCmd 6 [f.slice, 1, 0, 0]
        else s.setDrift d
      else if d.fix = 1 then (s.setDrift { d with fix := 3 }).driftAsk r
      else if 2 ≤ d.bad && d.fix = 0 then (s.setDrift { d with fix := 1, bad := 0 }).driftFound r
      else s.setDrift d

/-- A slice's value sent on: to the parent; by a group's manager to the coordinator where the slice is not its own; checked where it is
complete. -/
def State.foldSend (s : State) (f : FoldSt) : State :=
  let s := s.modMgr (fun x => { x with folds := x.folds.filter (fun g => g.slice ≠ f.slice) })
  if s.acting && !s.flag FAB_MGR_STAT.COORD && (s.resvOf f.slice).isNone && s.flag FAB_MGR_ID.COORD_VALID then
    let p := s.mgtPacket (hubEp (s.fget FAB_MGR_ID.COORD)) 0x01 0 [] (f.body s.mgr.foldRound)
    s.hubSend (Packet.sealed { p with typ := 0xA })
  else if s.acting then s.foldCheck f
  else if !s.flag FAB_MGR_ID.VALID then s
  else
    match s.escapeOut (s.fget FAB_MGR_ID.ACTING) with
    | some c =>
      if 15 < c then s
      else
        let (m, _) := s.peer c
        let p := s.mgtPacket (hubEp m) 0x01 0 [] (f.body s.mgr.foldRound)
        s.hubSend (Packet.sealed { p with typ := 0xA })
    | none => s

/-- Whether every child that is expected has reported. -/
def State.foldReady (s : State) (f : FoldSt) : Bool :=
  !s.flag FAB_RT_CTL.GROUP_ESC && (s.ctxOf f.slice).isSome && (s.foldKids f.slice).all f.kids.contains

/-- FOLD_ROUND: every PERIOD ms, the agents' digests are computed again and the modules without children send. -/
def State.foldRound (s : State) : State :=
  let due := match s.mgr.foldAt with
    | some t => decide (t + msUnits (s.fget FAB_FOLD_CTL.PERIOD) ≤ s.now)
    | none => true
  if !s.hubUp || !s.fwRuns || !s.flag FAB_FOLD_CTL.EN || !s.flag FAB_SELF.VALID || !due then s
  else
    let ns := (List.range 16).filter (fun n => s.flag (RIG_SL_STAT.ACTIVE n))
    let own := ns.map s.foldOwn
    let s := State.eachOf ns (fun n s => s.modCx n (fun c => { c with misses := 0 })) s
    let s := State.eachOf ns (fun n s => s.each 4 (fun i s =>
      s.setReg (RIG_SL_LOCAL.off n i) (BitVec.ofNat 32 (leAt (s.foldOwn n).xor (4 * i) 4)))) s
    let s := s.modMgr (fun x => { x with foldRound := x.foldRound + 1, foldAt := some s.now, folds := own })
    State.eachOf own (fun f s => if s.foldReady f then s.foldSend f else s) s

/-- FOLD_REPORT: a child's value folded into this module's, at the coordinator also that of another group's manager (R328; R314 names the own
group's agents alone: log entry 62); a value that comes after its slice was sent is dropped. -/
def State.foldReport (s : State) (p : Packet) : State :=
  let m := epMod p.src
  let near := modGroup m = modGroup s.modId || (s.flag FAB_MGR_STAT.COORD && s.farMgrs.contains m)
  if p.typ ≠ 0xA || p.aux ≠ 0x01 || !p.fromHub || !near || epMod p.dest ≠ s.modId ||
      !s.flag FAB_SELF.VALID then s.mgtReject p
  else
    let f := foldOf p.payload (if s.far m then 4096 + modGroup m else m)
    match s.mgr.folds.find? (fun g => g.slice = f.slice) with
    | some g =>
      if f.kids.all g.kids.contains then s
      else
        let h := g.fold f
        let s := s.modMgr (fun x => { x with folds := x.folds.map (fun y => if y.slice = f.slice then h else y) })
        if s.foldReady h then s.foldSend h else s
    | none => if (s.ctxOf f.slice).isSome then s else s.modMgr (fun x => { x with folds := x.folds ++ [f] })

/-- FOLD_TIMEOUT: 1 ms after the round began, what has been reported goes on. -/
def State.foldOver (s : State) : State :=
  match s.mgr.foldAt with
  | some t => if t + msUnits 1 ≤ s.now then State.eachOf s.mgr.folds (fun f s => s.foldSend f) s else s
  | none => s

/-! ### Commands -/

/-- FOLD_ROUND (R328). -/
def execFoldRound (s : State) : Result := done s s.foldRound
/-- FOLD_REPORT (R328). -/
def execFoldReport (p : Packet) (s : State) : Result := done s (if s.hubUp then s.foldReport p else s)
/-- FOLD_TIMEOUT (R328). -/
def execFoldTimeout (s : State) : Result := done s s.foldOver

end Sys2Proof.Machine
end

