-- ==== Sys2Proof/Machine/Manager.lean ====
section
/-! DEFINITION. A management packet at this module's hub: relayed, accepted or turned away, and handled by its code (R308, R312 to
R314); the commands of the fabric manager. -/

namespace Sys2Proof.Machine

/-! ### Handling by code (Table 2 of R312) -/

/-- An accepted answer: it is no longer awaited (multicasts, DISCOVER and FW_SEG go on being answered), and what waited for it goes
on. -/
def State.answerIn (s : State) (p : Packet) (a : Await) : State :=
  let m := if p.srcrt then a.mod else epMod p.src
  let s := if a.mod = 4096 || a.code = 8 || a.code = 0x38 then s
    else s.modMgr (fun x => { x with awaits := x.awaits.filter (fun b => b ≠ a) })
  match a.code with
  | 0x01 => if s.far m then s.coordReplyIn m p.body else s.tetherReplyIn m p.body
  | 0x02 => if s.mgr.sby = 1 && s.mgr.awaits.all (fun b => b.code ≠ 2) then s.modMgr (fun x => { x with sby := 2 }) else s.proceed
  | 0x04 => if s.far m then s.coordTermReply m p else s.termSetReplyIn m p
  | 0x08 => s.discoverReplyIn m p
  | 0x11 =>
    if a.job = 1 then
      let vs := (List.range (p.body.length / 4)).map (fun i => leAt p.body (4 * i) 4)
      (s.modCmd (fun c => { c with got := c.got ++ [(m, vs)] })).proceed
    else if a.job = 4 then s.driftRead m p.body
    else s
  | 0x38 => s.fwReplyIn m p.body
  | _ => s.proceed

/-- An accepted command, or a member's message at its manager. -/
def State.commandIn (s : State) (p : Packet) (via : Option (Fin 16)) : State :=
  match p.aux.toNat with
  | 0x01 => if s.far (epMod p.src) then s.coordTetherIn p via else s.tetherIn p via
  | 0x02 => if s.far (epMod p.src) then s.coordRecordIn p via else s.journalIn p via
  | 0x03 => s.handbackIn p via
  | 0x04 => if s.far (epMod p.src) then s.coordTermIn p via else s.termSetIn p via
  | 0x08 => s.discoverIn p via
  | 0x09 => s.assignIn p via
  | 0x0C => s.manSegIn p via
  | 0x10 => s.regWriteIn p via
  | 0x11 => s.regReadIn p via
  | 0x18 => s.planIn p
  | 0x19 => s.segIn p
  | 0x1A => s.resendIn p
  | 0x1B => s.reportIn p
  | 0x20 => s.eventIn p via
  | 0x28 => s.memberLost p.body
  | 0x29 => s.noticeIn p
  | 0x30 => s.heartbeatIn p
  | 0x38 => s.fwSegIn p via
  | _ => s.mgtReject p

/-- A packet for this hub: a manager, or coordinator, that sees a term above its own lapses first; then the checks of R308 and R314. -/
def State.mgtTake (s : State) (p : Packet) (via : Option (Fin 16)) : State :=
  let above := (s.acting || (s.fget FAB_MGR_STAT.ROLE = 1 && s.mgr.termed)) && p.fromHub &&
    manHas s.mgr.manifest (epMod p.src) && !s.far (epMod p.src) && s.fget FAB_TERM.TERM < p.term
  let s := if above then s.lapse else s
  let passed := s.flag FAB_MGR_STAT.COORD && p.fromHub && s.farMgrs.contains (epMod p.src) && s.fget FAB_COORD_TERM.TERM < p.term
  let s := if passed then s.coordLapse else s
  match s.verdict p via with
  | .reject => s.mgtReject p
  | .stale => s.mgtStale p via
  | .accept =>
    if 0x80 ≤ p.aux.toNat then
      match s.awaited p via with
      | some a => s.answerIn p a
      | none => s
    else
      let command := !(memberCodes.contains p.aux.toNat && s.manages) && p.aux.toNat ≠ 4
      let f := if s.far (epMod p.src) then FAB_COORD_TERM.TERM else FAB_TERM.TERM
      let s := if command then s.fset f (max p.term (s.fget f)) else s
      s.commandIn p via

/-- A management packet at the hub, from the mesh or from a port: multicasts and source routes are relayed (R313), a multicast only
by a module that has its ID (R249). -/
def State.mgtArrive (s : State) (p : Packet) (via : Option (Fin 16)) : State :=
  if !s.hubUp then s
  else if p.typ ≠ 0 || p.aux = 0xFF then s.mgtReject p
  else if p.mc && !s.flag FAB_SELF.VALID then s
  else if p.mc then
    let (here, cs) := s.mcSplit (leAt p.payload 24 8) (leAt p.payload 16 8) (leAt p.payload 16 8)
    let s := s.mcOut p cs
    if here then s.mgtTake p via else s
  else if p.srcrt && p.aux.toNat < 0x80 && bits p.route 3 0 ≠ 0 then
    match via with
    | some c => s.relayOut p c
    | none => s.mgtReject p
  else
    match (if p.srcrt && 0x80 ≤ p.aux.toNat then s.relayOf p via else none) with
    | some r => s.relayBack p r
    | none => s.mgtTake p via

/-- A row of one code: its packet, or the answer to it, at the hub. -/
def State.onCode (s : State) (codes : List Nat) (p : Packet) (via : Option (Fin 16)) : State :=
  if codes.contains p.aux.toNat then s.mgtArrive p via else s

/-! ### Commands -/

/-- MGT (R312). -/
def execMgt (p : Packet) (via : Option Port) (s : State) : Result := done s (s.mgtArrive p via)
/-- TETHER (R307). -/
def execTether (rx : Option Packet) (s : State) : Result :=
  done s (match rx with | some p => s.onCode [0x01] p none | none => s.tether.coordTether)
/-- TETHER_REPLY (R307). -/
def execTetherReply (p : Packet) (s : State) : Result := done s (s.onCode [0x81] p none)
/-- LEASE_EXPIRY (R307). -/
def execLeaseExpiry (s : State) : Result := done s s.leaseOver.coordLease
/-- TAKEOVER (R309). -/
def execTakeover (s : State) : Result := done s s.takeover.coordTakeover
/-- TERM_SET (R309). -/
def execTermSet (p : Packet) (s : State) : Result := done s (s.onCode [0x04] p none)
/-- TERM_SET_REPLY (R309). -/
def execTermSetReply (p : Packet) (s : State) : Result := done s (s.onCode [0x84] p none)
/-- TERM_SET_TIMEOUT (R309). -/
def execTermSetTimeout (s : State) : Result := done s s.termTimeout.coordTermOver
/-- JOURNAL (R310). -/
def execJournal (p : Packet) (s : State) : Result := done s (s.onCode [0x02] p none)
/-- JOURNAL_REPLY (R310). -/
def execJournalReply (p : Packet) (s : State) : Result := done s (s.onCode [0x82] p none)
/-- HANDBACK (R311). -/
def execHandback (rx : Option Packet) (s : State) : Result :=
  done s (match rx with | some p => s.onCode [0x03] p none | none => s.handback)
/-- HANDBACK_STEP (R311). -/
def execHandbackStep (s : State) : Result := done s s.handbackStep
/-- RECOVERY_END (R311). -/
def execRecoveryEnd (s : State) : Result := done s s.recoveryEnd
/-- MGR_SBY_START (R305). -/
def execMgrSbyStart (s : State) : Result := done s s.sbyStart
/-- DISCOVER (R319). -/
def execDiscover (d : DiscoverOp) (s : State) : Result :=
  done s (match d with | .send pos route => s.discoverOut pos.val route | .recv p via => s.onCode [0x08] p (some via))
/-- DISCOVER_REPLY (R320). -/
def execDiscoverReply (pos : Fin 64) (p : Packet) (s : State) : Result :=
  done s (s.onCode [0x88] p (some (Fin.ofNat 16 (bits (s.pq pos.val).route.toNat 7 4))))
/-- DISCOVERY_TIMEOUT (R320). -/
def execDiscoveryTimeout (pos : Fin 64) (s : State) : Result := done s (s.discoverOver pos.val)
/-- ASSIGN (R319). -/
def execAssign (p : Packet) (via : Port) (s : State) : Result := done s (s.onCode [0x09] p (some via))
/-- MAN_SEG (R317). -/
def execManSeg (p : Packet) (s : State) : Result := done s (s.onCode [0x0C, 0x8C] p none)
/-- REG_WRITE (R313). -/
def execRegWrite (p : Packet) (s : State) : Result := done s (s.onCode [0x10, 0x90] p none)
/-- REG_READ (R313). -/
def execRegRead (p : Packet) (s : State) : Result := done s (s.onCode [0x11, 0x91] p none)
/-- RIG_PLAN (R326). -/
def execRigPlan (p : Packet) (s : State) : Result := done s (s.onCode [0x18] p none)
/-- RIG_SEG (R326). -/
def execRigSeg (p : Packet) (s : State) : Result := done s (s.onCode [0x19] p none)
/-- RESEND_TIMER (R327). -/
def execResendTimer (s : State) : Result := done s s.resendTimer
/-- RIG_RESEND (R327). -/
def execRigResend (p : Packet) (s : State) : Result := done s (s.onCode [0x1A] p none)
/-- RIG_REPORT (R327). -/
def execRigReport (p : Packet) (s : State) : Result := done s (s.onCode [0x1B] p none)
/-- SLICE_EVENT (R429). -/
def execSliceEvent (p : Packet) (s : State) : Result := done s (s.onCode [0x20, 0xA0] p none)
/-- MEMBER_LOST (R331). -/
def execMemberLost (p : Packet) (s : State) : Result := done s (s.onCode [0x28] p none)
/-- RESET_NOTICE (R330). -/
def execResetNotice (p : Packet) (s : State) : Result := done s (s.onCode [0x29] p none)
/-- HEARTBEAT (R330). -/
def execHeartbeat (rx : Option Packet) (s : State) : Result :=
  done s (match rx with | some p => s.onCode [0x30] p none | none => s.heartbeat)
/-- HEARTBEAT_LOSS (R330). -/
def execHeartbeatLoss (mod : BitVec 12) (s : State) : Result := done s (s.heartbeatLoss mod.toNat)
/-- FW_SEG (R444). -/
def execFwSeg (p : Packet) (via : Port) (s : State) : Result := done s (s.onCode [0x38] p (some via))
/-- FW_SEG_REPLY (R444). -/
def execFwSegReply (p : Packet) (s : State) : Result :=
  let via := match s.mgr.awaits.find? (fun a => a.code = 0x38 && a.msg = p.msg.toNat) with
    | some a => some (Fin.ofNat 16 (bits (s.pq (modPos a.mod)).route.toNat 7 4))
    | none => none
  done s (s.onCode [0xB8] p via)
/-- ROUTE_RECOMPUTE (R322). -/
def execRouteRecompute (pos : Fin 64) (port : Port) (now : LinkReport) (s : State) : Result :=
  done s (s.linkChange pos.val port.val now)

end Sys2Proof.Machine
end

