-- ==== Sys2Proof/Machine/Fabric.lean ====
section
/-! DEFINITION. Packets on the mesh: injection and its check (R204, R249, R272), the decision and the way to an attachment
router or an endpoint (R212, R213, R260, R264), the move to VC_ESC (R265), and multicast (R294, R297). -/

namespace Sys2Proof

/-- The number of a channel: 0 VC_REQ, 1 VC_RSP, 2 VC_ESC, 3 VC_MGT (R212). -/
def Vc.num : Vc → Nat
  | .req => 0
  | .rsp => 1
  | .esc => 2
  | .mgt => 3

open Machine

/-- The in port, as 8 + its number, that a packet delivered at LOCAL contends for; LOCAL itself for a router agent. -/
def Packet.localKey (p : Packet) : Nat :=
  if epClus p.dest < 75 && epCore p.dest < 250 then 8 + epCore p.dest + 256 * b2n (epPort p.dest) else 4

end Sys2Proof

namespace Sys2Proof.Machine

/-! ### Input buffers (R202, R212) -/

/-- Whether an input buffer has room for a packet; a bypass stage takes VC_ESC and VC_MGT, one whole packet each (R202). -/
def State.roomAt (s : State) (x y inp vc units : Nat) : Bool :=
  let (d, q) := meshDP x y
  let held := (s.rt (y * 40 + x)).depth inp vc
  if s.inBypass d q then decide (2 ≤ vc) && decide (held + units ≤ 33) else decide (held + units ≤ inRoom vc)

/-- The head of an input buffer changed. -/
def RtrSt.modHead (inp vc : Nat) (f : Queued → Queued) (r : RtrSt) : RtrSt :=
  { r with bufs := Store.upd (fun _ => []) r.bufs (4 * inp + vc) (fun l =>
      match l with
      | h :: t => f h :: t
      | [] => []) }

/-- An input buffer without its head; the next one begins to wait, and what is offered to the input moves up. -/
def RtrSt.pop (now inp vc : Nat) (r : RtrSt) : RtrSt :=
  let r := { r with bufs := Store.upd (fun _ => []) r.bufs (4 * inp + vc) List.tail }
  (r.modHead inp vc (fun h => { h with at_ := now })).letIn now inp vc

/-- A packet counted at the port of a router that sends it (R216). -/
def State.sent (s : State) (rk o : Nat) (p : Packet) : State :=
  (s.flows rk o).modRt rk (RtrSt.count o (fun c => { c with pkt := c.pkt + 1, byte := c.byte + 32 + p.len.toNat }))

/-! ### What stands before an input -/

/-- Of some numbers the next one after the latest in cyclic ascending order (R204, R214); `latest` is one more than it, 0 for none. -/
def nextOf (latest : Nat) (l : List Nat) : Option Nat :=
  let least (l : List Nat) : Option Nat := l.foldl (fun m x => some (match m with | none => x | some y => min x y)) none
  match least (l.filter (fun x => latest ≤ x)) with
  | some x => some x
  | none => least l

/-- The packet that a cluster's crossbar takes next in a channel, by round-robin among the cores that offer one; a frozen core emits
nothing (R204, R273). -/
def State.coreDraw (s : State) (rk d c vc : Nat) : State :=
  let key (i : Nat) : Nat := (75 * d + c) * 250 + i
  let fits (p : Bool × Packet) : Bool := p.2.chan = vc
  let l := (List.range 250).filter (fun i =>
    ((s.co (key i)).sends.head?.map fits).getD false && !s.isFrozen 1 (s.coreSrc (key i)) 0)
  match nextOf (s.rt rk).core l with
  | none => s
  | some i =>
    match (s.co (key i)).sends with
    | p :: t =>
      ((s.modCo (key i) (fun c => { c with sends := t })).modRt rk (fun r => { r with core := i + 1 })).queueAt rk 4 vc p.2
    | [] => s

/-- The packet of a port's receive buffers that comes next in a channel of the mesh, with its buffer: a packet that crossed the
link on VC_ESC enters the channel of its CLASS (R265), and waits during a quiesce (R267). -/
def State.portHead (s : State) (port vc : Nat) : Option (Nat × Packet) :=
  let head (ch : Nat) : Option Packet := (Store.get (fun _ => ([] : List Packet)) (s.po port).rxq ch).head?
  if vc = 2 then none
  else match head vc with
    | some p => some (vc, p)
    | none =>
      if vc = 3 || s.fab.quiesceEnd.isSome then none
      else match head 2 with
        | some p => if (if p.chan < 2 then p.chan else 0) = vc then some (2, p) else none
        | none => none

/-- The next packet of a port of a port die taken in at an attachment router: link credit is freed, and a management packet
for this hub keeps the port it came by. -/
def State.portDraw (s : State) (rk inp pd vc : Nat) : State :=
  match firstBelow 16 (fun c => (s.portDies c).contains pd && (s.portHead c vc).isSome) with
  | none => s
  | some c =>
    match s.portHead c vc with
    | none => s
    | some (ch, p) =>
      let s := s.modPo c (fun x => { x with rxq := Store.upd (fun _ => []) x.rxq ch List.tail })
      let via := if p.typ = 0 && (p.mc || p.srcrt) then some (32 + c) else none
      (s.freeUnits c ch p.units).modRt rk (RtrSt.push inp vc ⟨p, s.now, via, none, none⟩)

/-- An empty input buffer filled by what stands before it: what is offered there, the cluster's cores, or the ports of a port die. -/
def State.refill (s : State) (rk inp vc : Nat) : State :=
  let (x, y) := rtrXY rk
  let (d, q) := meshDP x y
  let s := s.modRt rk (RtrSt.letIn s.now inp vc)
  if !((s.rt rk).queue inp vc).isEmpty || s.inBypass d q then s
  else if inp = 4 then
    match s.logClus d q with
    | some c => s.coreDraw rk d c vc
    | none => s
  else match portDieAt x y inp with
    | some pd => s.portDraw rk inp pd vc
    | none => s

/-! ### The check at injection (R272, R273) -/

/-- The master that emitted a packet of this module at a router's LOCAL or MEM input, as a freeze kind and a source word: a core or
an update engine. -/
def State.emitter (s : State) (rk inp : Nat) (p : Packet) : Option (Nat × Word) :=
  let (x, y) := rtrXY rk
  let (d, q) := meshDP x y
  if epMod p.src ≠ s.modId || p.typ = 0 || p.typ = 0xA || p.typ = 6 then none
  else if inp = 4 && epClus p.src < 75 && epCore p.src < 250 then
    some (1, s.coreSrc ((epPart p.src * 75 + epClus p.src) * 250 + epCore p.src))
  else if inp = 5 then (firstBelow 8 (fun k => s.memRtr d k = q)).map (fun k => (2, s.engSrc (8 * d + k)))
  else none

/-- Whether a packet's slice, epoch and destination are those of the slice that holds its source's partition. -/
def State.injectOk (s : State) (p : Packet) : Bool :=
  match s.ctxHolding (epPart p.src) with
  | none => false
  | some n =>
    let m := s.sliceMap n
    p.slice.toNat = s.slId n && p.epochLo.toNat = m.epoch % 256 && (m.mask (epMod p.dest)).testBit (epPart p.dest)

/-- A violation at injection: counted, the master frozen and reported with its physical position, and the slice to HOLD without replay
(R272, R273); one by a master that is frozen already is only counted (R349). The slice named is the one that holds the partition, whose
release frees the master; where none holds it, the packet's. -/
def State.injectFail (s : State) (kind : Nat) (src : Word) (p : Packet) : State :=
  let was := s.isFrozen kind src 0
  let s := s.fcount FAB_ISO_INJ.COUNT 1
  if was then s
  else match s.ctxHolding (epPart p.src) with
    | some n => ((s.freeze kind (s.slId n) src 0).isoFault (epPart p.src) src (s.slId n)).holdAt n 7
    | none => (s.freeze kind p.slice.toNat src 0).isoFault (epPart p.src) src p.slice.toNat

/-! ### The way through the mesh (R212, R213, R264) -/

/-- Mesh hops between two positions. -/
def meshHops (x y a b : Nat) : Nat := (x - a) + (a - x) + ((y - b) + (b - y))

/-- The attachment router of a port that is nearest to a position, with its outward port: ties to the lower port die, Y, X. -/
def State.attachNear (s : State) (x y port : Nat) : Option (Nat × Nat × Nat) :=
  let free (e : Nat × Nat × Nat) : Bool := let (d, q) := meshDP e.1 e.2.1; !s.inBypass d q
  let l := (s.portDies port).flatMap (fun pd => ((portDieRtrs pd).filter free).map (fun e => (pd, e)))
  let key (e : Nat × Nat × Nat × Nat) : Nat := ((meshHops x y e.2.1 e.2.2.1 * 4 + e.1) * 32 + e.2.2.1) * 40 + e.2.1
  (l.foldl (fun m e => match m with
    | none => some e
    | some f => if key e < key f then some e else some f) none).map (fun e => e.2)

/-- Where a packet leaves the mesh, as 8 × router + output. `via` is its logical port; 16 for this module; 32 and a port for this hub,
reached by that port. DEST names logical units: the table as it stands now gives the position (R213). -/
def State.exitOf (s : State) (rk via : Nat) (p : Packet) : Option Nat :=
  let d := epPart p.dest
  if via < 16 then
    let (x, y) := rtrXY rk
    (s.attachNear x y via).map (fun e => 8 * (e.2.1 * 40 + e.1) + e.2.2)
  else if 32 ≤ via || (p.typ = 0 && p.mc) || epClus p.dest = 0x7F then some (8 * s.hubRtr + 6)
  else if p.isMem then some (8 * meshKey d (s.memRtr d (mlaChan p.addr.toNat)) + 5)
  else if epClus p.dest < 75 then some (8 * meshKey d (s.physClus d (epClus p.dest)) + 4)
  else some (8 * rk + 7)

/-- Whether an exit still serves a port: its router is not in bypass, and the port die there carries an active granule of the port. -/
def State.exitServes (s : State) (via g : Nat) : Bool :=
  let (x, y) := rtrXY (g / 8)
  let (d, q) := meshDP x y
  !s.inBypass d q && (match portDieAt x y (g % 8) with | some pd => (s.portDies via).contains pd | none => false)

/-- The die of an exit. -/
def exitDie (g : Nat) : Nat := let (x, y) := rtrXY (g / 8); (meshDP x y).1

/-- The exit of a packet: the one found where its output was chosen, on this module once (R213, R264); a port whose exit has ceased to
serve it gets another, and so does the hub while the die of its router is in reset (R358). -/
def State.goalOf (s : State) (rk via : Nat) (goal : Option Nat) (p : Packet) : Option Nat :=
  match goal with
  | some g =>
    if (via < 16 && !s.exitServes via g) || (16 ≤ via && g % 8 = 6 && s.dieDown (exitDie g)) then s.exitOf rk via p else some g
  | none => s.exitOf rk via p

/-- A packet at its endpoint on this module; one whose payload fails its parity is dropped there, and its message stays incomplete
(R210; DESIGN CHOICE, log entry 25: the spec names the check and no outcome). -/
def State.deliver (s : State) (via : Nat) (p : Packet) : State :=
  if !p.whole then s
  else match p.typ.toNat with
  | 0 =>
    if 32 ≤ via then s.mgtArrive p (some (Fin.ofNat 16 (via - 32)))
    else if epClus p.dest = 0x7F then s.mgtArrive p none
    else s.mgtReject p
  | 4 => s.arriveWrite p
  | 5 => s.arriveRead p
  | 6 => s.arriveReply p
  | 7 => s.arriveWrite p
  | 8 => s.arriveRed p
  | 0xA => if p.aux = 1 then s.foldReport p else s.pruneReport p
  | _ => s.arriveCore p

/-- The direction of the first hop in X-then-Y order. -/
def xyDir (x y a b : Nat) : Nat := if x < a then 1 else if a < x then 3 else if y < b then 2 else 0

/-- The minimal directions towards a position. -/
def minDirs (x y a b : Nat) : List Nat :=
  (if x < a then [1] else if a < x then [3] else []) ++ (if y < b then [2] else if b < y then [0] else [])

/-- The directions of a packet of a channel towards a position: minimal ones on VC_REQ and VC_RSP, X-then-Y on the others. -/
def dirsTo (x y a b vc : Nat) : List Nat := if vc < 2 then minDirs x y a b else [xyDir x y a b]

/-- Whether a packet meets the sluice of its partition's die in reset with its next hop: it goes no further (R358, R359). -/
def State.atSluice (s : State) (rk via g vc : Nat) : Bool :=
  let (x, y) := rtrXY rk
  let (a, b) := rtrXY (g / 8)
  via = 16 && s.dieDown (exitDie g) && ((meshDP x y).1 = exitDie g || (dirsTo x y a b vc).any (fun o =>
    match meshNext x y o with
    | some (u, v) => (meshDP u v).1 = exitDie g
    | none => false))

/-- The directions in which the next router has room for a packet. -/
def State.roomDirs (s : State) (x y a b vc units : Nat) : List Nat :=
  (dirsTo x y a b vc).filter (fun o =>
    match meshNext x y o with
    | some (u, v) => s.roomAt u v (meshBack o) vc units
    | none => false)

/-- One of the directions with room; of two, which one is open (R212). -/
def State.pickDir (s : State) (l : List Nat) : Option Nat × State :=
  match l with
  | [] => (none, s)
  | [o] => (some o, s)
  | _ => let (d, s) := s.fresh; (l[Config.meshPick d % l.length]?, s)

/-- The outputs that a packet at a router could be granted now: its exit there, or the directions with room. -/
def State.outsOf (s : State) (rk goal vc units : Nat) : List Nat :=
  if goal / 8 = rk then [goal % 8]
  else
    let (x, y) := rtrXY rk
    let (a, b) := rtrXY (goal / 8)
    s.roomDirs x y a b vc units

/-- A head that waits in a channel whose next hop has got room begins its wait for VC_ESC anew (R265, R276). -/
def State.restartWait (s : State) (rk inp vc : Nat) : State :=
  match (s.rt rk).queue inp vc with
  | h :: _ =>
    match h.goal with
    | some g => if (s.outsOf rk g vc h.pkt.units).isEmpty then s else s.modRt rk (RtrSt.modHead inp vc (fun h => { h with at_ := s.now }))
    | none => s
  | [] => s

/-- The head of an input buffer gone; the room that it leaves reaches the heads of the router before it. -/
def State.popAt (s : State) (rk inp vc : Nat) : State :=
  let s := s.modRt rk (RtrSt.pop s.now inp vc)
  let (x, y) := rtrXY rk
  match meshNext x y inp with
  | some (u, v) => if vc < 2 then s.each 7 (fun i s => s.restartWait (v * 40 + u) i vc) else s
  | none => s

/-! ### Arbitration (R204, R214) -/

/-- The tokens of an output's VC_MGT bucket now: one for each 32 cycles, at most 66. -/
def State.tokensAt (s : State) (rk o : Nat) : Nat :=
  let (n, t) := Store.get (fun _ => (66, 0)) (s.rt rk).tokens o
  min 66 (n + (s.now - t) / s.cycUnits 32)

/-- Tokens taken by a management packet; the part of the 32 cycles towards the next token is kept. -/
def State.takeTokens (s : State) (rk o n : Nat) : State :=
  let have_ := s.tokensAt rk o
  let t := (Store.get (fun _ => (66, 0)) (s.rt rk).tokens o).2
  let at_ := if have_ = 66 then s.now else s.now - (s.now - t) % s.cycUnits 32
  s.modRt rk (fun r => { r with tokens := Store.put (fun _ => (66, 0)) r.tokens o (have_ - n, at_) })

/-- The rank of a channel's packet at an output (R214): VC_MGT first while it has a token and after the strands without one. -/
def State.packetRank (s : State) (rk o vc : Nat) : Nat :=
  match vc with
  | 3 => if s.tokensAt rk o = 0 then 3 else 1
  | 2 => 4
  | 1 => 5
  | _ => 6

/-- The rank of a strand's next unit: within its reservation, or beyond it after VC_REQ (R209, R214). -/
def State.strandRank (s : State) (rk slice : Nat) (r : StrandRec) : Nat :=
  if (s.rt rk).seen slice r.sid < r.units then 2 else 7

/-- What a record contends for: its outputs; at the crossbar each in port, as 8 + its number (R204). -/
def StrandRec.keys (r : StrandRec) : List Nat := r.outs.flatMap (fun o => if o = 4 then r.dests.map (fun e => 8 + e % 512) else [o])

/-- Whether a unit of a strand waits at its router's input: in a queue of a neighbour, a port or the source core, or to be read from
memory outside the channel's calibration slot (R41). -/
def State.strandOffers (s : State) (rk d c slice n : Nat) (r : StrandRec) : Bool :=
  let (x, y) := rtrXY rk
  let mine (u : StrandUnit) : Bool := u.slice = slice && u.sid = r.sid
  match r.inp with
  | 4 =>
    let k := (75 * d + c) * 250 + r.srcCore
    !(if r.srcPort then (s.co k).out1 else (s.co k).out0).isEmpty && !s.isFrozen 1 (s.coreSrc k) 0
  | 5 => decide ((s.rt rk).seen slice r.sid < r.units) && decide ((s.ch (8 * d + r.memCh)).slotEnd ≤ s.now)
  | 6 => false
  | i =>
    if (meshNext x y i).isSome then (Store.get (fun _ => ([] : List StrandUnit)) (s.rt rk).fifo i).any mine
    else match s.strandPort n r.sid false with
      | some p => (s.po p).strandRx.any mine
      | none => false

/-- The strands at a router that could send a unit now. -/
def State.strandsReady (s : State) (rk : Nat) : List StrandRec :=
  let (x, y) := rtrXY rk
  let (d, q) := meshDP x y
  match s.ctxHolding d, s.logClus d q with
  | some n, some c =>
    if !s.working n || s.inBypass d q then []
    else (s.strands n (routerAgent s.modId d c)).filter (fun r => s.strandRoom x y r && s.strandOffers rk d c (s.slId n) n r)
  | _, _ => []

/-- The slice whose strands a router carries. -/
def State.rtrSlice (s : State) (rk : Nat) : Nat :=
  let (d, _) := meshDP (rtrXY rk).1 (rtrXY rk).2
  match s.ctxHolding d with
  | some n => s.slId n
  | none => 4096

/-- What a head with its output chosen could be granted now; the copies of a multicast are its several packets. -/
def State.headOuts (s : State) (rk vc : Nat) (h : Queued) : List Nat :=
  match h.copies, h.goal with
  | none, some g => s.outsOf rk g vc h.pkt.units
  | _, _ => []

/-- Whether something of a better rank waits for an output, or at LOCAL for an in port, and could be granted it (R204, R214). A packet
that may take either of two directions claims neither. -/
def State.outrankedAt (s : State) (rk key rank : Nat) : Bool :=
  let o := if key < 8 then key else 4
  let slice := s.rtrSlice rk
  (List.range 7).any (fun i => (List.range 4).any (fun vc =>
    match (s.rt rk).queue i vc with
    | h :: _ => decide (s.packetRank rk o vc < rank) && s.headOuts rk vc h = [o]
    | [] => false)) ||
  (s.strandsReady rk).any (fun r => decide (s.strandRank rk slice r < rank) && r.keys.contains key)

/-- Whether a strand's unit has to wait for another of its rank or of a better one: its turn among the SIDs comes at the first of what it
contends for (R204, R214; log entry 26). -/
def State.strandHeld (s : State) (rk slice : Nat) (r : StrandRec) : Bool :=
  let rank := s.strandRank rk slice r
  let key := r.keys.headD 0
  let l := (s.strandsReady rk).filter (fun t => s.strandRank rk slice t = rank && t.keys.headD 0 = key)
  r.keys.any (fun k => s.outrankedAt rk k rank) ||
    (l.any (fun t => t.sid = r.sid) && nextOf (Store.get (fun _ => 0) (s.rt rk).last key) (l.map StrandRec.sid) ≠ some r.sid)

/-- STRAND_UNIT: a unit of a strand is granted its outputs, and forwarded by the record of its SID. -/
def State.strandGrant (s : State) (rk inp slice sid : Nat) (u : XUnit) : State :=
  let (x, y) := rtrXY rk
  let (d, q) := meshDP x y
  match s.ctxOf slice, s.logClus d q with
  | some n, some c =>
    match (s.strands n (routerAgent s.modId d c)).find? (fun r => r.sid = sid && r.inp = inp) with
    | none => s
    | some r =>
      if s.strandHeld rk slice r then s
      else
        let t := s.strandUnit rk inp slice sid u
        if (t.rt rk).seen slice sid = (s.rt rk).seen slice sid then t
        else t.modRt rk (fun x => { x with last := r.keys.foldl (fun m k => Store.put (fun _ => 0) m k (sid + 1)) x.last })
  | _, _ => s

/-! ### Forwarding (R211, R212, R263, R269) -/

/-- Whether packets of a class can leave by a port: ACTIVE, or MGMT for management packets (R234). -/
def State.portOpen (s : State) (port : Nat) (p : Packet) : Bool :=
  if p.cls = 3 then s.trained port else decide (s.fget (LNK_STAT.STATE port) = 6)

/-- A packet granted an output of its router in channel `out`, towards its exit: the flag says that it has left, as one does whose exit
lies at a position in bypass, where it is lost (DESIGN CHOICE, log entry 25). Without a next hop that has room it stalls; it waits
where its outputs go to something of a better rank. -/
def State.place (s : State) (rk out via g : Nat) (p : Packet) : Bool × State :=
  let (x, y) := rtrXY rk
  let (d, q) := meshDP x y
  let key (o : Nat) : Nat := if o = 4 && via = 16 then p.localKey else o
  let held (o : Nat) : Bool := s.outrankedAt rk (key o) (s.packetRank rk o out)
  let paid (o : Nat) (s : State) : State := if out = 3 then s.takeTokens rk o p.units else s
  if s.atSluice rk via g out then (true, s.deliver via p)
  else if g / 8 = rk then
    if s.inBypass d q then (true, s)
    else if held (g % 8) then (false, s)
    else
      let s := paid (g % 8) (s.sent rk (g % 8) p)
      (true, if via < 16 then s.portQueue via p.vc p else s.deliver via p)
  else
    let (a, b) := rtrXY (g / 8)
    let room := s.roomDirs x y a b out p.units
    if room.isEmpty then (false, s.stalls rk ((dirsTo x y a b out).headD 0))
    else
      let (o, s) := s.pickDir (room.filter (fun o => !held o))
      match o with
      | none => (false, s)
      | some o =>
        match meshNext x y o with
        | none => (false, s)
        | some (u, v) =>
          (true, (paid o (s.sent rk o p)).modRt (v * 40 + u) (RtrSt.push (meshBack o) out ⟨p, s.now, some via, some g, none⟩))

/-- The head of an input buffer sent on towards its output, in the channel `out`; a port that has closed returns it to a fresh decision
here, or it waits for other tables (R269). -/
def State.sendOn (s : State) (rk inp vc out : Nat) (p : Packet) (via : Nat) (goal : Option Nat) : State :=
  let shut := via < 16 && !s.portOpen via p
  match (if shut then none else s.goalOf rk via goal p) with
  | none =>
    match s.decideAgain via rk p with
    | some c => s.modRt rk (RtrSt.modHead inp vc (fun h => { h with via := some c, goal := none, at_ := s.now }))
    | none => (s.popAt rk inp vc).parkBack via p
  | some g =>
    let s := s.modRt rk (RtrSt.modHead inp vc (fun h => { h with via := some via, goal := some g }))
    let (left, s) := s.place rk out via g p
    if left then s.popAt rk inp vc else s

/-- The decision at a router (R260 to R263): the output, kept with the packet, and the router's pick. -/
def State.decide_ (s : State) (rk inp vc : Nat) (p : Packet) : State :=
  let m := epMod p.dest
  match (if p.typ = 0 && p.mc then some 16 else s.routeFor rk p none) with
  | none => ((s.popAt rk inp vc).fcount FAB_RT_DROP.COUNT 1).raise 0x0307 0 m 0
  | some c =>
    let free := c < 16 && vc < 2 && s.flag FAB_RT_CTL.ADAPT && (s.candidates rk p.slice.toNat m).contains c
    let s := s.modRt rk (fun r => { r with pick := if free then c else r.pick })
    s.sendOn rk inp vc vc p c none

/-! ### Multicast (R294, R295, R297) -/

/-- The prune report of a decision point (R297). -/
def State.pruneTell (s : State) (rk : Nat) (p : Packet) (n : Nat) : State :=
  let (x, y) := rtrXY rk
  let (d, q) := meshDP x y
  let src := match s.logClus d q with
    | some c => epWord s.modId d c 0xFF false
    | none => hubEp s.modId
  s.queueAt rk 4 3 (Packet.sealed { p with
    typ := 0xA, cls := 3, last := true, rbw := false, len := 8, esc := false, dest := p.src, src := src, count := 1, seq := 0,
    slot := 0, addr := 0, aux := 0x10, payload := leBytes 4 (p.msg.toNat % 4096) ++ leBytes 4 (sat 8 n) })

/-- The destination word of a copy for this module. -/
def State.ownDest (s : State) (w : Word) : Word := BitVec.ofNat 32 (setBits w.toNat 11 0 s.modId)

/-- A copy of a multicast: its bitmaps rewritten, and for this module its destination (R294). -/
def State.copyOfCast (s : State) (p : Packet) (c : Nat × Nat × Nat) : Packet :=
  let tail := p.payload.drop 16
  if c.1 = 16 then Packet.sealed { p with dest := s.ownDest p.dest, payload := leBytes 8 c.2.2 ++ leBytes 8 c.2.1 ++ tail }
  else { p with payload := leBytes 8 c.2.2 ++ leBytes 8 c.2.1 ++ tail }

/-- A multicast packet split at its decision point: fenced destinations are removed and reported, and every copy is to be granted
(R294, R297). -/
def State.castSplit (s : State) (rk : Nat) (p : Packet) : State × List (Nat × Nat × Nat) :=
  let pos := leAt p.payload 0 8
  let grp := leAt p.payload 8 8
  let g := modGroup s.modId
  let gone := match s.ctxOf p.slice.toNat with
    | some n => if grp.testBit g then
        (List.range 64).filter (fun q => pos.testBit q && s.fenced n (64 * g + q + epPart p.dest * 2 ^ 12)) else []
    | none => []
  let here := gone.foldl (fun w q => setBits w q q 0) pos
  let s := if gone.isEmpty || p.seq ≠ 0 then s else s.pruneTell rk p gone.length
  let (own, cs) := s.mcSplit grp pos here
  (s, (if own then [(16, 2 ^ g, 2 ^ modPos s.modId)] else []) ++ cs)

/-- One copy granted its output, if it can be: the flag says that the router need not hold the packet for it any longer. A copy whose
port has closed waits for other tables (R269). -/
def State.castCopy (s : State) (rk out : Nat) (p : Packet) (c : Nat × Nat × Nat) : Bool × State :=
  let k := s.copyOfCast p c
  let shut := c.1 < 16 && !s.portOpen c.1 k
  match (if shut then none else s.exitOf rk c.1 k) with
  | none => (true, s.parkBack c.1 k)
  | some g => s.place rk out c.1 g k

/-- The copies of the multicast packet at the head of an input buffer: the router holds it until every copy has been granted its output
(R294). -/
def State.castOn (s : State) (rk inp vc : Nat) (p : Packet) (cs : List (Nat × Nat × Nat)) : State :=
  let (s, left) := cs.foldl (fun (x : State × List (Nat × Nat × Nat)) c =>
    let (ok, t) := x.1.castCopy rk vc p c
    (t, if ok then x.2 else x.2 ++ [c])) (s, [])
  if left.isEmpty then s.popAt rk inp vc
  else s.modRt rk (RtrSt.modHead inp vc (fun h => { h with copies := some left }))

/-- A multicast packet at the head of an input buffer that meets its decision point (R294). -/
def State.castAt (s : State) (rk inp vc : Nat) (p : Packet) : State :=
  let (s, cs) := s.castSplit rk p
  s.castOn rk inp vc p cs

/-! ### The head of an input buffer -/

/-- Whether a packet may move while this module has no ID: management traffic along a source route, or for this hub (R249). -/
def linkLocal (p : Packet) (via : Option Nat) : Bool := p.typ = 0 && (p.srcrt || (via.map (fun v => decide (32 ≤ v))).getD false)

/-- PACKET_FORWARD: the head of an input buffer checked, decided on, and forwarded where the next hop has room for all of it. A frozen
engine emits nothing (R273). -/
def State.forward (s : State) (rk inp vc : Nat) : State :=
  let s := s.refill rk inp vc
  match (s.rt rk).queue inp vc with
  | [] => s
  | h :: _ =>
    let p := h.pkt
    if !p.good then (s.popAt rk inp vc).badPacket rk p
    else if !s.flag FAB_SELF.VALID && !linkLocal p h.via then s
    else match h.copies, h.via with
      | some cs, _ => s.castOn rk inp vc p cs
      | none, some v => s.sendOn rk inp vc vc p v h.goal
      | none, none =>
        let who := s.emitter rk inp p
        match (if s.injectOk p then none else who) with
        | some (kind, src) => (s.popAt rk inp vc).injectFail kind src p
        | none =>
          if (who.map (fun w => w.1 = 2 && s.isFrozen 2 w.2 0)).getD false then s
          else if p.typ = 9 then s.castAt rk inp vc p
          else s.decide_ rk inp vc p

/-- ESCAPE_MOVE: a head that has waited ESC_WAIT, in all of which no productive direction has had room, goes on by VC_ESC, to the escape
output of its target (R265). -/
def State.escapeMove (s : State) (rk inp vc : Nat) : State :=
  match (s.rt rk).queue inp vc with
  | [] => s
  | h :: _ =>
    let p := h.pkt
    match h.via, h.goal with
    | some v, some g =>
      if 2 ≤ vc || p.typ = 9 || !(s.outsOf rk g vc p.units).isEmpty || s.now < h.at_ + s.cycUnits (16 * s.fget FAB_RT_CTL.ESC_WAIT) then s
      else match (if v < 16 then s.escapeOut (epMod p.dest) else some v) with
        | none => s
        | some e => s.sendOn rk inp vc 2 (Packet.sealed { p with esc := true }) e (if e = v then some g else none)
    | _, _ => s

/-! ### Commands -/

/-- STRAND_UNIT (R205). -/
def execStrandUnit (r : RouterId) (inp : Fin 8) (slice : BitVec 12) (sid : BitVec 12) (u : XUnit) (s : State) : Result :=
  doneAt s (s.strandFree r.key inp.val slice.toNat sid.toNat) (fun s => s.strandGrant r.key inp.val slice.toNat sid.toNat u)
/-- PACKET_FORWARD (R212). -/
def execPacketForward (r : RouterId) (inp : Fin 8) (vc : Vc) (s : State) : Result := done s (s.forward r.key inp.val vc.num)
/-- ESCAPE_MOVE (R265). -/
def execEscapeMove (r : RouterId) (inp : Fin 8) (vc : Vc) (s : State) : Result := done s (s.escapeMove r.key inp.val vc.num)
/-- MCAST (R294): a multicast packet meets its decision point at a router's LOCAL input, behind what waits there. -/
def execMcast (r : RouterId) (p : Packet) (s : State) : Result :=
  done s (
    if !p.good then s.badPacket r.key p
    else if p.typ ≠ 9 then s
    else (s.queueAt r.key 4 p.chan p).forward r.key 4 p.chan)

end Sys2Proof.Machine
end

