-- ==== Sys2Proof/Machine/Physical.lean ====
section
/-! DEFINITION. Sensors, thermal warning and trip, leaks and rail overcurrent (R465 to R469, R474). -/

namespace Sys2Proof.Machine

/-- The registers of the die temperatures hold the readings, byte k of word i for die 4i + k (R474). -/
def State.setDieTemps (s : State) (l : List Byte) : State :=
  s.each 6 (fun i s => s.setReg (HUB_DIE_TEMP.off i) (BitVec.ofNat 32 (leNat (padTo 4 0 (((l.take 21).drop (4 * i)).take 4)))))

/-- The hottest die and its temperature; the lowest number of equal ones. -/
def hottest : Nat → List Byte → Nat × Int
  | _, [] => (0, -128)
  | i, b :: t =>
    let r := hottest (i + 1) t
    if r.2 ≤ b.toInt || t.isEmpty then (i, b.toInt) else r

/-- Whether every die is below the warning level less 5 K (R466). -/
def State.diesCool (s : State) (l : List Byte) : Bool := l.all (fun b => decide (b.toInt < (s.fget HUB_THERM_CTL.WARN : Int) - 5))

/-- SENSOR_UPDATE (R465): the readings enter the registers; while the thermal request is in force, the time since every die has
been cool is kept. -/
def State.sensorUpdate (s : State) (r : Readings) : State :=
  if s.pwr.off then s
  else
    let s := (s.fset HUB_AUX.AUX_V r.auxV.toNat).fset HUB_AUX.AUX_P r.auxP.toNat
    if !s.hubUp then s
    else
      let h := hottest 0 (r.dies.take 21)
      let s := s.setDieTemps r.dies
      let s := (s.fset HUB_THERM_STAT.HOT_TEMP (ofInt 8 h.2)).fset HUB_THERM_STAT.HOT_DIE h.1
      let s := (s.fset HUB_COOL.INLET r.inlet.toNat).fset HUB_COOL.OUTLET r.outlet.toNat
      let s := (s.setVin r.vin.toNat).setPin r.watts.toNat
      if !s.flag HUB_THERM_STAT.WARN_ACT then s
      else
        let t := if s.diesCool (r.dies.take 21) then some (s.pwr.therm.getD s.now) else none
        { s with pwr := { s.pwr with therm := t } }

/-- What a temperature warning does (R466). -/
def State.thermAct (s : State) (temp : Nat) : State :=
  let s := (s.raise 0x0A03 0 0 temp).fset HUB_THERM_STAT.WARN_ACT 1
  ((s.askStretch 2).fcount PWR_EVT.GOV 1).govFlag

/-- THERMAL_WARNING (R466): once for the episode a NOTE and a stretch request, counted as the governor's are. -/
def State.thermalWarning (s : State) (temp : Byte) : State :=
  if !s.hubUp || temp.toInt < s.fget HUB_THERM_CTL.WARN then s
  else
    let s := { s with pwr := { s.pwr with therm := none } }
    if s.flag HUB_THERM_STAT.WARN_ACT then s else s.thermAct temp.toNat

/-- THERMAL_WITHDRAW: 10 ms after every die has fallen below the level. -/
def State.thermalWithdraw (s : State) : State :=
  match s.pwr.therm with
  | some t =>
    if s.flag HUB_THERM_STAT.WARN_ACT && t + msUnits 10 ≤ s.now then
      let s := { s with pwr := { s.pwr with therm := none } }
      ((s.fset HUB_THERM_STAT.WARN_ACT 0).endStretch 2).govFlag
    else s
  | none => s

/-- A GRAVE condition that the always-on domain takes alone while the hub is unpowered (R469). -/
def State.aonGrave (s : State) (code arg : Nat) : State :=
  let first := !s.flag FLT_STAT.GRAVE
  let s := if first then (s.fset FLT_STAT.GRAVE 1).fset FLT_STAT.GRAVE_CODE code else s
  let s := s.recordFault (s.msgOf code 0 0 arg) 4 false
  ((s.fset FLT_PIN.HELD 1).pinFollow.alert 1).alertPin

/-- A GRAVE condition of the module, taken by the hub or by the always-on domain. -/
def State.graveEvent (s : State) (code arg : Nat) : State :=
  if s.hubUp then s.raise code 0 0 arg else s.aonGrave code arg

/-- THERMAL_TRIP (R467): a die at 110 °C or above; the first die that tripped is kept. -/
def State.thermalTrip (s : State) (die : Nat) (temp : Byte) : State :=
  if s.pwr.off || temp.toInt < 110 then s
  else
    let s := if s.flag HUB_THERM_STAT.TRIP then s else (s.fset HUB_THERM_STAT.TRIP 1).fset HUB_THERM_STAT.TRIP_DIE die
    s.graveEvent 0x0A04 temp.toNat

/-- LEAK (R468): the latch of the place where liquid is sensed. -/
def State.leak (s : State) (src : LeakSrc) : State :=
  if s.pwr.off then s
  else
    let s := match src with
      | .pin => s.fset HUB_THERM_STAT.LEAK_IN 1
      | .cable => s.fset HUB_THERM_STAT.LEAK_INT 1
    s.graveEvent 0x0A05 0

/-- RAIL_OVERCURRENT (R468): the converter switches its rail off. -/
def State.railOver (s : State) (rail : Nat) : State :=
  if s.pwr.off then s
  else ({ s with pwr := { s.pwr with railsOff := addKey s.pwr.railsOff rail } }).graveEvent 0x0A06 rail

/-! ### Commands -/

/-- THERMAL_WARNING (R466). -/
def execThermalWarning (_die : Fin 21) (temp : BitVec 8) (s : State) : Result := done s (s.thermalWarning temp)
/-- THERMAL_WITHDRAW (R466). -/
def execThermalWithdraw (s : State) : Result := done s s.thermalWithdraw
/-- THERMAL_TRIP (R467). -/
def execThermalTrip (die : Fin 21) (temp : BitVec 8) (s : State) : Result := done s (s.thermalTrip die.val temp)
/-- LEAK (R468). -/
def execLeak (src : LeakSrc) (s : State) : Result := done s (s.leak src)
/-- RAIL_OVERCURRENT (R468). -/
def execRailOvercurrent (rail : BitVec 16) (s : State) : Result := done s (s.railOver rail.toNat)
/-- SENSOR_UPDATE (R465). -/
def execSensorUpdate (r : Readings) (s : State) : Result := done s (s.sensorUpdate r)

end Sys2Proof.Machine
end

