-- ==== Sys2Proof/Machine/Injection.lean ====
section
/-! DEFINITION. Injection of faults (R346, R347): what the source of a forced code does at its detector's first opportunity. -/

namespace Sys2Proof.Machine

/-! ### The forced source -/

/-- The units that a source word names: its partition, the logical cluster and core at its position, the logical engine. -/
structure Forced where
  part : Nat
  pos  : Nat
  sub  : Nat
  clus : Option Nat
  core : Option Nat
  eng  : Option Nat
  deriving DecidableEq, Repr

/-- The units of a source word; clusters, cores and engines by their numbers. -/
def State.forcedUnits (s : State) (w : Word) : Forced :=
  let p := bits w.toNat 3 0
  let pos := bits w.toNat 10 4
  let sub := bits w.toNat 18 11
  let clus := firstBelow 75 (fun c => s.physClus p c = pos)
  { part := p, pos := pos, sub := sub
    clus := clus.map (fun c => 75 * p + c)
    core := clus.bind (fun c => (firstBelow 250 (fun i => s.physCore p c i = sub)).map (fun i => (75 * p + c) * 250 + i))
    eng := (firstBelow 8 (fun e => s.physEng p e = pos)).map (fun e => 8 * p + e) }

/-- The context of a partition whose tick is under way, not aborted. -/
def State.tickAt (s : State) (p : Nat) : Option Nat := (s.ctxHolding p).filter s.working

/-! ### Cores: the next read of a bank, the next K -/

/-- The unit that a core reads next, of an ACC bank or of any other: of the entry that has issued, or the first operand of the one that
issues next. -/
def State.nextRead (s : State) (n k : Nat) (acc : Bool) : Option Nat :=
  let b := s.coreBanks n k
  let fits (u : Nat) : Bool := (b.cfg.role (u / 256) = 4) == acc
  match (s.co k).work with
  | some w =>
    ((w.reads.filter (fun r => (s.co k).prog < r.1 && fits r.2)).foldl
      (fun m r => match m with | none => some r | some x => some (if r.1 < x.1 then r else x)) none).map Prod.snd
  | none => let u := (s.coreDesc n k).addrA; if fits u then some u else none

/-- A forced parity hit of a core's bank: at its next read, or, while its slice does not work, at the scrubber's next read of one of its
WEIGHT banks. -/
def State.forcedBank (s : State) (k : Nat) (acc : Bool) : Option State :=
  match s.coreCtx k with
  | some n => (s.nextRead n k acc).map (fun u => s.bankHit n k u (s.coreBanks n k))
  | none =>
    match s.ctxHolding (corePart k) with
    | none => none
    | some n =>
      if acc || s.working n || !s.flag (PRT_SCR_CTL.EN (corePart k)) then none
      else (firstBelow 24 (fun b => (s.coreCfg n k).role b = 1 && (s.tileOf n k b).isSome &&
        !(s.cl (k / 250)).fenced.contains (24 * coreIdx k + b))).map (fun b => s.fence n k b true)

/-- What a check at K does for a hang indicator: the abort, and the ladder where the hang recurs (R361). -/
def State.atK (s : State) (n code : Nat) (w : Word) (f : State → State) : Option State := some ((f s).recur (some n) code [w])

/-! ### The catalogue -/

/-- A forced code of a core (class 0x02). -/
def State.forcedCore (s : State) (code : Nat) (w : Word) (u : Forced) : Option State :=
  match u.core with
  | none => none
  | some k =>
    let tick := s.tickAt u.part
    match code with
    | 0x0201 => tick.bind (fun n => s.atK n code w (fun s => s.overrun n [k]))
    | 0x0202 => s.forcedBank k false
    | 0x0203 => s.forcedBank k true
    | 0x0204 => tick.map (fun n => s.coreFlags n k 1 { poison := true })
    | 0x0205 => tick.map (fun n => s.missing n [(k, false)] [] [] [])
    | 0x0206 => tick.map (fun n => (s.raise code w 0 0).abortTick n 0xFF)
    | _ =>
      let i := k % 250
      some (s.unitFailed (Fin.ofNat 16 u.part) (.core (Fin.ofNat 75 (k / 250 % 75)) (Fin.ofNat 250 i)) 0x0207 0xFF w)

/-- The first packet that waits in a router's buffers taken out and dropped as one with a bad header (R211). -/
def State.forcedDrop (s : State) (rk : Nat) : Option State :=
  ((s.rt rk).bufs.find? (fun e => !e.2.isEmpty)).map (fun e =>
    match e.2 with
    | q :: t => (s.modRt rk (fun r => { r with bufs := Store.put (fun _ => []) r.bufs e.1 t })).badPacket rk q.pkt
    | [] => s)

/-- A forced code of a router or of its agent (class 0x03). -/
def State.forcedRouter (s : State) (code : Nat) (w : Word) (u : Forced) : Option State :=
  if 80 ≤ u.pos then none
  else
    let tick := s.tickAt u.part
    match code with
    | 0x0301 => some (s.routerFail (meshKey u.part u.pos))
    | 0x0302 => some (match tick with | some n => (s.raise code w 0 0).abortTick n 6 | none => s.raise code w 0 0)
    | 0x0303 => tick.bind (fun n => s.atK n code w (fun s => s.strandStall n [(w, 0)]))
    | 0x0304 =>
      match tick, u.clus with
      | some n, some k => ((s.trees n u.part (k % 75)).head?).map (fun r => s.missing n [] [(k, r.rid)] [] [])
      | _, _ => none
    | 0x0305 => s.forcedDrop (meshKey u.part u.pos)
    | 0x0306 =>
      (firstBelow 16 (fun q => !(s.po q).waiting.isEmpty)).map (fun q =>
        match (s.po q).waiting with | x :: _ => s.routeGone q x.1 | [] => s)
    | _ => some (s.raise code w 0 0)

/-- A forced code of an update engine (class 0x05). -/
def State.forcedEngine (s : State) (code : Nat) (w : Word) (u : Forced) : Option State :=
  match u.eng with
  | none => none
  | some k =>
    let job := (((s.en k).run.map Prod.fst).orElse (fun _ => (s.en k).pubJob)).getD 0
    match code with
    | 0x0501 => (s.tickAt u.part).bind (fun n => s.atK n code w (fun s => s.engTimeout n [(k, job)]))
    | 0x0502 => some (s.engineFailed ⟨Fin.ofNat 16 u.part, Fin.ofNat 8 k⟩)
    | _ => (s.tickAt u.part).map (fun n => s.missing n [] [] [] [(u.part, 0xE000 + 32 * job + 4 * (k % 8))])

/-- A forced code of an LPDDR5 channel or of the scrubbers (class 0x06); the channel's next read is that of its scrubber. -/
def State.forcedMem (s : State) (code : Nat) (w : Word) (u : Forced) : Option State :=
  let p := u.part
  if code = 0x0605 then u.clus.map (fun k => s.sweepLate p (s.clusSrc k) 0)
  else if 8 ≤ u.pos then none
  else match code with
    | 0x0601 =>
      let c := s.ch (8 * p + u.pos)
      if c.selfRef then none else some (s.scrubHit p u.pos (mlaOf p u.pos (512 * c.scrub)))
    | 0x0602 => some (s.memHot p u.pos)
    | 0x0603 => some (s.retrainLate p u.pos)
    | 0x0604 => some (s.calLate p u.pos)
    | _ => some (s.raise 0x0606 w 0x1F8000000 0)

/-- A forced code of a link port (class 0x07). -/
def State.forcedLink (s : State) (code : Nat) (w : Word) (u : Forced) : Option State :=
  let p := u.pos
  if 16 ≤ p then none
  else
    let st := s.fget (LNK_STAT.STATE p)
    let up := decide (4 ≤ st) && decide (st ≤ 6)
    match code with
    | 0x0701 => if up then some (s.laneFault p (u.sub % 32) false) else none
    | 0x0702 => if up then some (s.stormAct p 0 none) else none
    | 0x0703 => if up then some (s.portReset p) else none
    | 0x0705 => if up then some ((s.holdEnter p 2).portEval p) else none
    | 0x0706 => if up then some ((s.holdEnter p 3).portEval p) else none
    | 0x0707 => some (s.portOos p)
    | 0x0708 => if s.fget (LNK_CTL.MEDIUM p) = 2 then some (s.opticsAlarm p 0) else none
    | 0x0709 => if st = 5 then some (s.mgmtDrop p 0 1) else none
    | _ => some (s.raise 0x0704 w 0 (s.po p).rxAct.length)

/-- The first slice in a state. -/
def State.ctxIn (s : State) (p : Nat → Bool) : Option Nat := firstBelow 16 p

/-- A forced code of the hub, the tick master or the always-on domain. -/
def State.forcedHub (s : State) (code : Nat) : Option State :=
  let say (s : State) : State := s.raise code 0 0 0
  match code with
  | 0x0003 => some s.wdtAct
  | 0x0101 => some s.syncLostAct
  | 0x0102 => (s.ctxIn (fun n => s.ticking n && (s.cx n).aborted)).map (fun n =>
      (s.raise code 0 (s.slStep n) (s.slId n)).holdAt n 2)
  | 0x0103 => (s.ctxIn (fun n => s.slState n = 4)).map (fun n => (s.raise code 0 (s.slStep n) (s.slId n)).enterHold n 3 true)
  | 0x0104 => (s.ctxIn (fun n => s.ticking n && s.slStep n ≠ 0)).map (fun n => s.raise code 0 (s.slStep n - 1) (s.slId n))
  | 0x0105 => (s.ctxIn (fun n => s.fget (RIG_SL_STAT.SHADOW n) = 3)).map (fun n =>
      let at_ := s.pair (RIG_SL_AT_LO.off n)
      (s.refuseArrives (s.slId n) (at_ % 2 ^ 16)).raise code 0 at_ (s.slId n))
  | 0x0801 => some (s.pcieFault 0)
  | 0x0803 => (firstBelow 256 s.chanOpen).map s.chanBroken
  | 0x0804 => some (say (s.fset HUB_RST_STAT.PCIE_OOS 1))
  | 0x0A01 => if s.flag PWR_STAT.DIP then none else some (s.dipAct (s.fget PWR_VIN.NOW))
  | 0x0A02 => some (say s).countHub.moduleReset
  | 0x0A03 => if s.flag HUB_THERM_STAT.WARN_ACT then none else some (s.thermAct (s.fget HUB_THERM_STAT.HOT_TEMP))
  | _ => some (say s)

/-- A forced code of the endpoint agents and sluices (class 0x04): a violation freezes nothing but the source word's own master, a core. -/
def State.forcedGuard (s : State) (code : Nat) (w : Word) (u : Forced) : Option State :=
  match code with
  | 0x0401 =>
    (s.ctxHolding u.part).map (fun n =>
      if s.isFrozen 1 w 0 then s.fcount FAB_ISO_INJ.COUNT 1
      else (((s.fcount FAB_ISO_INJ.COUNT 1).freeze 1 (s.slId n) w 0).isoFault u.part w (s.slId n)).holdAt n 7)
  | 0x0402 => if (s.pt u.part).drain.isSome then some (s.drainLimit u.part) else none
  | _ => some ((s.fcount (PRT_RST_STALE.N u.part) 1).raise code w 0 (s.gen u.part))

/-- What a source does at the first opportunity for a forced code: as for a real detection (R346); none while no opportunity has come,
and for a code or a unit that no source has. A forced hit leaves the data as they are. -/
def State.forcedAct (s : State) (f : FaultMsg) : Option State :=
  let code := f.code.toNat
  let u := s.forcedUnits f.src
  if !faultCodes.contains code then none
  else match codeClass code with
    | 2 => s.forcedCore code f.src u
    | 3 => s.forcedRouter code f.src u
    | 4 => s.forcedGuard code f.src u
    | 5 => s.forcedEngine code f.src u
    | 6 => s.forcedMem code f.src u
    | 7 => s.forcedLink code f.src u
    | _ => if f.src = 0 then s.forcedHub code else none

/-- FORCED_DETECTION: the detector fires at its first opportunity; the force bit clears itself, and every message carries INJ. -/
def State.forced (s : State) : State :=
  match s.flt.force with
  | none => s
  | some f =>
    let t := { s with flt := { s.flt with force := none, inj := true } }.fset FLT_FORCE.GO 0
    match t.forcedAct f with
    | none => s
    | some u => { u with flt := { u.flt with inj := false } }

/-- FORCED_DETECTION (R346). -/
def execForcedDetection (s : State) : Result := done s s.forced

end Sys2Proof.Machine
end

