-- ==== Sys2Proof/Machine/Write.lean ====
section
/-! DEFINITION. REGISTER_WRITE (R9): a write of the host or the hub to any register. -/

namespace Sys2Proof.Machine

/-- A register write: a word or nothing (R411); the host's FAB_CMD begins a command of the manager (R323). -/
def State.regWrite (s : State) (m : Master) (off : Nat) (be : BitVec 4) (v : Word) : State :=
  let off := off / 4 * 4
  if be ≠ 0xF then (if s.hubUp && !(m = 2 && s.host.closed) then s.badWrite m off else s)
  else if off = FAB_CMD.off then s.gate true m off v (fun s => s.fabCmd v)
  else s.regPut true m off v

/-- REGISTER_WRITE (R9). -/
def execRegisterWrite (m : Master) (off : BitVec 26) (be : BitVec 4) (v : Word) (s : State) : Result :=
  done s (s.regWrite m off.toNat be v)

end Sys2Proof.Machine
end

