-- ==== Sys2Proof/Machine/Dispatch.lean ====
section
/-! DEFINITION. The meaning of each command, one arm a constructor. -/

namespace Sys2Proof.Machine

/-- A command's effect on everything but the queue. -/
def exec (i : Instr) (s : State) : Host.Outcome State Fault Refusal :=
  match i with
  | .registerWrite m off be v => Sys2Proof.Machine.execRegisterWrite m off be v s
  | .snapshotRead m off => Sys2Proof.Machine.execSnapshotRead m off s
  | .tickBoundary => Sys2Proof.Machine.execTickBoundary s
  | .computeStart n => Sys2Proof.Machine.execComputeStart n s
  | .completionCheck n => Sys2Proof.Machine.execCompletionCheck n s
  | .abort slice tick attempt cause => Sys2Proof.Machine.execAbort slice tick attempt cause s
  | .repairComplete n r => Sys2Proof.Machine.execRepairComplete n r s
  | .repairLimit n => Sys2Proof.Machine.execRepairLimit n s
  | .periodArm m v => Sys2Proof.Machine.execPeriodArm m v s
  | .periodChange => Sys2Proof.Machine.execPeriodChange s
  | .sliceCmdArm m n v => Sys2Proof.Machine.execSliceCmdArm m n v s
  | .resume n => Sys2Proof.Machine.execResume n s
  | .hold n => Sys2Proof.Machine.execHold n s
  | .discard n => Sys2Proof.Machine.execDiscard n s
  | .supplyDip vin => Sys2Proof.Machine.execSupplyDip vin s
  | .supplyRecover vin => Sys2Proof.Machine.execSupplyRecover vin s
  | .stretchWithdraw => Sys2Proof.Machine.execStretchWithdraw s
  | .syncSend p => Sys2Proof.Machine.execSyncSend p s
  | .sync p step tb locked stretch => Sys2Proof.Machine.execSync p step tb locked stretch s
  | .syncAcquire step tb => Sys2Proof.Machine.execSyncAcquire step tb s
  | .syncLost => Sys2Proof.Machine.execSyncLost s
  | .tckSyncMaxClear m v => Sys2Proof.Machine.execTckSyncMaxClear m v s
  | .calibrationSlot n slot => Sys2Proof.Machine.execCalibrationSlot n slot s
  | .calibrationOverdue part ch => Sys2Proof.Machine.execCalibrationOverdue part ch s
  | .linkCalibrationWindow p heights widths => Sys2Proof.Machine.execLinkCalibrationWindow p heights widths s
  | .matmul e => Sys2Proof.Machine.execMatmul e s
  | .matmulT e => Sys2Proof.Machine.execMatmulT e s
  | .outer e => Sys2Proof.Machine.execOuter e s
  | .vecAdd e => Sys2Proof.Machine.execVecAdd e s
  | .vecSub e => Sys2Proof.Machine.execVecSub e s
  | .vecMul e => Sys2Proof.Machine.execVecMul e s
  | .vecFma e => Sys2Proof.Machine.execVecFma e s
  | .vecMax e => Sys2Proof.Machine.execVecMax e s
  | .vecMin e => Sys2Proof.Machine.execVecMin e s
  | .vecAbs e => Sys2Proof.Machine.execVecAbs e s
  | .vecNeg e => Sys2Proof.Machine.execVecNeg e s
  | .func e => Sys2Proof.Machine.execFunc e s
  | .reduceSum e => Sys2Proof.Machine.execReduceSum e s
  | .reduceMax e => Sys2Proof.Machine.execReduceMax e s
  | .reduceMaxabs e => Sys2Proof.Machine.execReduceMaxabs e s
  | .reduceSumsq e => Sys2Proof.Machine.execReduceSumsq e s
  | .convert e => Sys2Proof.Machine.execConvert e s
  | .moveCopy e => Sys2Proof.Machine.execMoveCopy e s
  | .moveOut e => Sys2Proof.Machine.execMoveOut e s
  | .movePass e => Sys2Proof.Machine.execMovePass e s
  | .sendDispatch e => Sys2Proof.Machine.execSendDispatch e s
  | .sendReply e => Sys2Proof.Machine.execSendReply e s
  | .waitDrain c => Sys2Proof.Machine.execWaitDrain c s
  | .waitInject c => Sys2Proof.Machine.execWaitInject c s
  | .waitOffset c => Sys2Proof.Machine.execWaitOffset c s
  | .waitEnd c => Sys2Proof.Machine.execWaitEnd c s
  | .skipZero c => Sys2Proof.Machine.execSkipZero c s
  | .skipEmpty c => Sys2Proof.Machine.execSkipEmpty c s
  | .endEntry c => Sys2Proof.Machine.execEndEntry c s
  | .inPortLanding c port a => Sys2Proof.Machine.execInPortLanding c port a s
  | .coreStatusPoll c answers => Sys2Proof.Machine.execCoreStatusPoll c answers s
  | .updateJobTick e => Sys2Proof.Machine.execUpdateJobTick e s
  | .mul e => Sys2Proof.Machine.execMul e s
  | .add e => Sys2Proof.Machine.execAdd e s
  | .fma e => Sys2Proof.Machine.execFma e s
  | .sqrt e => Sys2Proof.Machine.execSqrt e s
  | .rsqrt e => Sys2Proof.Machine.execRsqrt e s
  | .recip e => Sys2Proof.Machine.execRecip e s
  | .clamp e => Sys2Proof.Machine.execClamp e s
  | .sign e => Sys2Proof.Machine.execSign e s
  | .csel e => Sys2Proof.Machine.execCsel e s
  | .publication e => Sys2Proof.Machine.execPublication e s
  | .sramScrub k => Sys2Proof.Machine.execSramScrub k s
  | .republication c bank => Sys2Proof.Machine.execRepublication c bank s
  | .lpddr5Scrub part ch => Sys2Proof.Machine.execLpddr5Scrub part ch s
  | .mirrorRestore part ch group data => Sys2Proof.Machine.execMirrorRestore part ch group data s
  | .lpddr5Hot part ch => Sys2Proof.Machine.execLpddr5Hot part ch s
  | .retrainOverdue part ch => Sys2Proof.Machine.execRetrainOverdue part ch s
  | .load m v => Sys2Proof.Machine.execLoad m v s
  | .abandon m v => Sys2Proof.Machine.execAbandon m v s
  | .rigLock m v => Sys2Proof.Machine.execRigLock m v s
  | .agentReport n agent => Sys2Proof.Machine.execAgentReport n agent s
  | .loadTimeout => Sys2Proof.Machine.execLoadTimeout s
  | .systemAreaCopy part => Sys2Proof.Machine.execSystemAreaCopy part s
  | .warmReapply part => Sys2Proof.Machine.execWarmReapply part s
  | .packetForward r inp vc => Sys2Proof.Machine.execPacketForward r inp vc s
  | .escapeMove r inp vc => Sys2Proof.Machine.execEscapeMove r inp vc s
  | .routerFail r => Sys2Proof.Machine.execRouterFail r s
  | .rtrClr m part v => Sys2Proof.Machine.execRtrClr m part v s
  | .rtrClrAll m part v => Sys2Proof.Machine.execRtrClrAll m part v s
  | .strandUnit r inp slice sid u => Sys2Proof.Machine.execStrandUnit r inp slice sid u s
  | .mgt p via => Sys2Proof.Machine.execMgt p via s
  | .row p => Sys2Proof.Machine.execRow p s
  | .direct p => Sys2Proof.Machine.execDirect p s
  | .stream p => Sys2Proof.Machine.execStream p s
  | .memWr p => Sys2Proof.Machine.execMemWr p s
  | .memRd p => Sys2Proof.Machine.execMemRd p s
  | .memRdr p => Sys2Proof.Machine.execMemRdr p s
  | .mirror p => Sys2Proof.Machine.execMirror p s
  | .red p => Sys2Proof.Machine.execRed p s
  | .mcast r p => Sys2Proof.Machine.execMcast r p s
  | .linkCredit port p => Sys2Proof.Machine.execLinkCredit port p s
  | .foldReport p => Sys2Proof.Machine.execFoldReport p s
  | .pruneReport p => Sys2Proof.Machine.execPruneReport p s
  | .treeContribution c port u => Sys2Proof.Machine.execTreeContribution c port u s
  | .treeMemSource k rec => Sys2Proof.Machine.execTreeMemSource k rec s
  | .rbwPacketClose port slice sid => Sys2Proof.Machine.execRbwPacketClose port slice sid s
  | .frame port rx => Sys2Proof.Machine.execFrame port rx s
  | .nak port seq => Sys2Proof.Machine.execNak port seq s
  | .ackTimeout port => Sys2Proof.Machine.execAckTimeout port s
  | .tickEdge port low => Sys2Proof.Machine.execTickEdge port low s
  | .refuse slice step => Sys2Proof.Machine.execRefuse slice step s
  | .laneDrop port lane seq calib => Sys2Proof.Machine.execLaneDrop port lane seq calib s
  | .laneAdd port lane seq => Sys2Proof.Machine.execLaneAdd port lane seq s
  | .ident port seg data => Sys2Proof.Machine.execIdent port seg data s
  | .echo port token => Sys2Proof.Machine.execEcho port token s
  | .echoReply port token => Sys2Proof.Machine.execEchoReply port token s
  | .trainingBlock port lane head pattern => Sys2Proof.Machine.execTrainingBlock port lane head pattern s
  | .signalDetect port lanes => Sys2Proof.Machine.execSignalDetect port lanes s
  | .equalizeTimeout port => Sys2Proof.Machine.execEqualizeTimeout port s
  | .excludedRetry port => Sys2Proof.Machine.execExcludedRetry port s
  | .portEnable m port v => Sys2Proof.Machine.execPortEnable m port v s
  | .retrain m port v => Sys2Proof.Machine.execRetrain m port v s
  | .unpark m port v => Sys2Proof.Machine.execUnpark m port v s
  | .dataEn m port v => Sys2Proof.Machine.execDataEn m port v s
  | .expectationWrite m port idx v => Sys2Proof.Machine.execExpectationWrite m port idx v s
  | .laneFault port lane cause => Sys2Proof.Machine.execLaneFault port lane cause s
  | .laneClean port lane => Sys2Proof.Machine.execLaneClean port lane s
  | .retryStorm port dominant => Sys2Proof.Machine.execRetryStorm port dominant s
  | .cmisMonitorPoll port ready rev temp => Sys2Proof.Machine.execCmisMonitorPoll port ready rev temp s
  | .cmisFlagPoll port warn alarm flags los => Sys2Proof.Machine.execCmisFlagPoll port warn alarm flags los s
  | .opticsAbsent port => Sys2Proof.Machine.execOpticsAbsent port s
  | .loadBroadcast port => Sys2Proof.Machine.execLoadBroadcast port s
  | .swapArm m v => Sys2Proof.Machine.execSwapArm m v s
  | .tableSwap => Sys2Proof.Machine.execTableSwap s
  | .escapeQuiesceEnd => Sys2Proof.Machine.execEscapeQuiesceEnd s
  | .routeTimeout p => Sys2Proof.Machine.execRouteTimeout p s
  | .tether rx => Sys2Proof.Machine.execTether rx s
  | .tetherReply p => Sys2Proof.Machine.execTetherReply p s
  | .leaseExpiry => Sys2Proof.Machine.execLeaseExpiry s
  | .takeover => Sys2Proof.Machine.execTakeover s
  | .termSet p => Sys2Proof.Machine.execTermSet p s
  | .termSetReply p => Sys2Proof.Machine.execTermSetReply p s
  | .termSetTimeout => Sys2Proof.Machine.execTermSetTimeout s
  | .journal p => Sys2Proof.Machine.execJournal p s
  | .journalReply p => Sys2Proof.Machine.execJournalReply p s
  | .handback rx => Sys2Proof.Machine.execHandback rx s
  | .handbackStep => Sys2Proof.Machine.execHandbackStep s
  | .recoveryEnd => Sys2Proof.Machine.execRecoveryEnd s
  | .discover d => Sys2Proof.Machine.execDiscover d s
  | .discoverReply pos p => Sys2Proof.Machine.execDiscoverReply pos p s
  | .discoveryTimeout pos => Sys2Proof.Machine.execDiscoveryTimeout pos s
  | .assign p via => Sys2Proof.Machine.execAssign p via s
  | .manSeg p => Sys2Proof.Machine.execManSeg p s
  | .regWrite p => Sys2Proof.Machine.execRegWrite p s
  | .regRead p => Sys2Proof.Machine.execRegRead p s
  | .rigPlan p => Sys2Proof.Machine.execRigPlan p s
  | .rigSeg p => Sys2Proof.Machine.execRigSeg p s
  | .resendTimer => Sys2Proof.Machine.execResendTimer s
  | .rigResend p => Sys2Proof.Machine.execRigResend p s
  | .rigReport p => Sys2Proof.Machine.execRigReport p s
  | .sliceEvent p => Sys2Proof.Machine.execSliceEvent p s
  | .memberLost p => Sys2Proof.Machine.execMemberLost p s
  | .resetNotice p => Sys2Proof.Machine.execResetNotice p s
  | .heartbeat rx => Sys2Proof.Machine.execHeartbeat rx s
  | .heartbeatLoss mod => Sys2Proof.Machine.execHeartbeatLoss mod s
  | .fwSeg p via => Sys2Proof.Machine.execFwSeg p via s
  | .fwSegReply p => Sys2Proof.Machine.execFwSegReply p s
  | .routeRecompute pos port now => Sys2Proof.Machine.execRouteRecompute pos port now s
  | .sliceCmdDeadline => Sys2Proof.Machine.execSliceCmdDeadline s
  | .foldRound => Sys2Proof.Machine.execFoldRound s
  | .foldTimeout => Sys2Proof.Machine.execFoldTimeout s
  | .manifest m hseq => Sys2Proof.Machine.execManifest m hseq s
  | .xconnect m hseq => Sys2Proof.Machine.execXconnect m hseq s
  | .mode m hseq => Sys2Proof.Machine.execMode m hseq s
  | .sliceReserve m hseq => Sys2Proof.Machine.execSliceReserve m hseq s
  | .sliceRelease m hseq => Sys2Proof.Machine.execSliceRelease m hseq s
  | .sliceCmd m hseq => Sys2Proof.Machine.execSliceCmd m hseq s
  | .fence m hseq => Sys2Proof.Machine.execFence m hseq s
  | .period m hseq => Sys2Proof.Machine.execPeriod m hseq s
  | .treeCfg m hseq => Sys2Proof.Machine.execTreeCfg m hseq s
  | .handover m hseq => Sys2Proof.Machine.execHandover m hseq s
  | .fwStage m hseq => Sys2Proof.Machine.execFwStage m hseq s
  | .restart m hseq => Sys2Proof.Machine.execRestart m hseq s
  | .adapt m hseq => Sys2Proof.Machine.execAdapt m hseq s
  | .floor m hseq => Sys2Proof.Machine.execFloor m hseq s
  | .forward m hseq => Sys2Proof.Machine.execForward m hseq s
  | .faultMessage f => Sys2Proof.Machine.execFaultMessage f s
  | .sourceWindowExpiry entry => Sys2Proof.Machine.execSourceWindowExpiry entry s
  | .graveHoldLimit => Sys2Proof.Machine.execGraveHoldLimit s
  | .force m v => Sys2Proof.Machine.execForce m v s
  | .forcedDetection => Sys2Proof.Machine.execForcedDetection s
  | .pulseEnd => Sys2Proof.Machine.execPulseEnd s
  | .srcClr m v => Sys2Proof.Machine.execSrcClr m v s
  | .qPop m v => Sys2Proof.Machine.execQPop m v s
  | .release m v => Sys2Proof.Machine.execRelease m v s
  | .fltLock m v => Sys2Proof.Machine.execFltLock m v s
  | .dumpStart m v => Sys2Proof.Machine.execDumpStart m v s
  | .dumpRegionRead a => Sys2Proof.Machine.execDumpRegionRead a s
  | .dumpDone => Sys2Proof.Machine.execDumpDone s
  | .coreReset m part v => Sys2Proof.Machine.execCoreReset m part v s
  | .clusterReset m part v => Sys2Proof.Machine.execClusterReset m part v s
  | .engineReset m part v => Sys2Proof.Machine.execEngineReset m part v s
  | .partitionReset m part v => Sys2Proof.Machine.execPartitionReset m part v s
  | .remapCore m part v => Sys2Proof.Machine.execRemapCore m part v s
  | .remapCluster m part v => Sys2Proof.Machine.execRemapCluster m part v s
  | .remapEngine m part v => Sys2Proof.Machine.execRemapEngine m part v s
  | .rotate m part v => Sys2Proof.Machine.execRotate m part v s
  | .moduleReset m v => Sys2Proof.Machine.execModuleReset m v s
  | .sliceContextReset m v => Sys2Proof.Machine.execSliceContextReset m v s
  | .endpointReset m v => Sys2Proof.Machine.execEndpointReset m v s
  | .powerCycleRequest m v => Sys2Proof.Machine.execPowerCycleRequest m v s
  | .drainComplete d => Sys2Proof.Machine.execDrainComplete d s
  | .drainTimeout d => Sys2Proof.Machine.execDrainTimeout d s
  | .partitionReapply part => Sys2Proof.Machine.execPartitionReapply part s
  | .incidentClose => Sys2Proof.Machine.execIncidentClose s
  | .watchdogExpiry => Sys2Proof.Machine.execWatchdogExpiry s
  | .wdtKick m v => Sys2Proof.Machine.execWdtKick m v s
  | .spareReplace part u => Sys2Proof.Machine.execSpareReplace part u s
  | .auxPowerOn addr => Sys2Proof.Machine.execAuxPowerOn addr s
  | .auxLoss => Sys2Proof.Machine.execAuxLoss s
  | .mainInputGood => Sys2Proof.Machine.execMainInputGood s
  | .mainInputLoss => Sys2Proof.Machine.execMainInputLoss s
  | .mainOvervoltage => Sys2Proof.Machine.execMainOvervoltage s
  | .supplyResetLevel vin => Sys2Proof.Machine.execSupplyResetLevel vin s
  | .firmwareGo m v => Sys2Proof.Machine.execFirmwareGo m v s
  | .firmwareWaitTimeout => Sys2Proof.Machine.execFirmwareWaitTimeout s
  | .lpddr5TrainingDone => Sys2Proof.Machine.execLpddr5TrainingDone s
  | .computeWave failed => Sys2Proof.Machine.execComputeWave failed s
  | .powerReqActive m v => Sys2Proof.Machine.execPowerReqActive m v s
  | .powerReqStandby m v => Sys2Proof.Machine.execPowerReqStandby m v s
  | .powerReqRetain m v => Sys2Proof.Machine.execPowerReqRetain m v s
  | .powerReqDormant m v => Sys2Proof.Machine.execPowerReqDormant m v s
  | .powerReqOff m v => Sys2Proof.Machine.execPowerReqOff m v s
  | .transitionComplete => Sys2Proof.Machine.execTransitionComplete s
  | .standbyMinimum => Sys2Proof.Machine.execStandbyMinimum s
  | .addressMatch => Sys2Proof.Machine.execAddressMatch s
  | .wakeRow => Sys2Proof.Machine.execWakeRow s
  | .wakeDeadlineMiss => Sys2Proof.Machine.execWakeDeadlineMiss s
  | .governorEvaluation watts => Sys2Proof.Machine.execGovernorEvaluation watts s
  | .powerLimitUnattainable => Sys2Proof.Machine.execPowerLimitUnattainable s
  | .clockSet m v => Sys2Proof.Machine.execClockSet m v s
  | .clrMeas m v => Sys2Proof.Machine.execClrMeas m v s
  | .clrRes m v => Sys2Proof.Machine.execClrRes m v s
  | .bar2Read off len => Sys2Proof.Machine.execBar2Read off len s
  | .bar2Write off poisoned data => Sys2Proof.Machine.execBar2Write off poisoned data s
  | .intakeRead m off len => Sys2Proof.Machine.execIntakeRead m off len s
  | .intakeWrite m off poisoned data => Sys2Proof.Machine.execIntakeWrite m off poisoned data s
  | .pcieUncorrectableError aer => Sys2Proof.Machine.execPcieUncorrectableError aer s
  | .flr m => Sys2Proof.Machine.execFlr m s
  | .perstN e => Sys2Proof.Machine.execPerstN e s
  | .d3hotEntry m => Sys2Proof.Machine.execD3hotEntry m s
  | .smbusIdent => Sys2Proof.Machine.execSmbusIdent s
  | .status => Sys2Proof.Machine.execStatus s
  | .alertCause => Sys2Proof.Machine.execAlertCause s
  | .alertClr v => Sys2Proof.Machine.execAlertClr v s
  | .alertEn v => Sys2Proof.Machine.execAlertEn v s
  | .alertResponse => Sys2Proof.Machine.execAlertResponse s
  | .powerReq v => Sys2Proof.Machine.execPowerReq v s
  | .smbusModuleReset v => Sys2Proof.Machine.execSmbusModuleReset v s
  | .resetNotify => Sys2Proof.Machine.execResetNotify s
  | .warnLevel v => Sys2Proof.Machine.execWarnLevel v s
  | .sensors => Sys2Proof.Machine.execSensors s
  | .faults => Sys2Proof.Machine.execFaults s
  | .evrRead first n => Sys2Proof.Machine.execEvrRead first n s
  | .mbxSend chan data => Sys2Proof.Machine.execMbxSend chan data s
  | .mbxRecv chan => Sys2Proof.Machine.execMbxRecv chan s
  | .attestStart sel nonce => Sys2Proof.Machine.execAttestStart sel nonce s
  | .attestFetch off => Sys2Proof.Machine.execAttestFetch off s
  | .mbxLock m v => Sys2Proof.Machine.execMbxLock m v s
  | .mbxStage m chan word v => Sys2Proof.Machine.execMbxStage m chan word v s
  | .post m chan v => Sys2Proof.Machine.execPost m chan v s
  | .pop m chan => Sys2Proof.Machine.execPop m chan s
  | .mbxTimeout chan => Sys2Proof.Machine.execMbxTimeout chan s
  | .dbRing m d v => Sys2Proof.Machine.execDbRing m d v s
  | .clearEvr m v => Sys2Proof.Machine.execClearEvr m v s
  | .clearRemap m v => Sys2Proof.Machine.execClearRemap m v s
  | .enroll m v => Sys2Proof.Machine.execEnroll m v s
  | .revoke m v => Sys2Proof.Machine.execRevoke m v s
  | .raiseSvn m v => Sys2Proof.Machine.execRaiseSvn m v s
  | .norCommit ok => Sys2Proof.Machine.execNorCommit ok s
  | .counterSave => Sys2Proof.Machine.execCounterSave s
  | .doeRequest sel nonce => Sys2Proof.Machine.execDoeRequest sel nonce s
  | .doeAbort => Sys2Proof.Machine.execDoeAbort s
  | .attestationSigned => Sys2Proof.Machine.execAttestationSigned s
  | .thermalWarning die temp => Sys2Proof.Machine.execThermalWarning die temp s
  | .thermalWithdraw => Sys2Proof.Machine.execThermalWithdraw s
  | .thermalTrip die temp => Sys2Proof.Machine.execThermalTrip die temp s
  | .leak src => Sys2Proof.Machine.execLeak src s
  | .railOvercurrent rail => Sys2Proof.Machine.execRailOvercurrent rail s
  | .sensorUpdate r => Sys2Proof.Machine.execSensorUpdate r s
  | .featFloorWrite m v => Sys2Proof.Machine.execFeatFloorWrite m v s
  | .indirectRead m part off a => Sys2Proof.Machine.execIndirectRead m part off a s
  | .rigCommit m v => Sys2Proof.Machine.execRigCommit m v s
  | .fabMgrLock m v => Sys2Proof.Machine.execFabMgrLock m v s
  | .frameTime port => Sys2Proof.Machine.execFrameTime port s
  | .linkCreditSend port => Sys2Proof.Machine.execLinkCreditSend port s
  | .rbwPacket port p => Sys2Proof.Machine.execRbwPacket port p s
  | .engineFailed e => Sys2Proof.Machine.execEngineFailed e s
  | .sysclkLoss => Sys2Proof.Machine.execSysclkLoss s
  | .pcieLinkUp speed width => Sys2Proof.Machine.execPcieLinkUp speed width s
  | .d3hotExit m => Sys2Proof.Machine.execD3hotExit m s
  | .mgrSbyStart => Sys2Proof.Machine.execMgrSbyStart s

end Sys2Proof.Machine
end

