-- ==== Sys2Proof/Safety.lean ====
section
/-! DEFINITION. What counts as a safe run, when a register write is admitted, and what a step leaves alone, in the terms the
statements use. -/

namespace Sys2Proof

/-- Whether an answer is a next state. -/
def Safe (r : Machine.Result) : Prop := ∃ t, r = .next t

namespace Machine

/-- A command runs: exec answers a next state, and that state has a property. -/
def Runs (c : Instr) (s : State) (P : State → Prop) : Prop := ∃ t, exec c s = .next t ∧ P t

/-- A register write of the host or the hub that is admitted: the hub runs, the endpoint does not turn it away (R359), the
master may write the register (R411, R477), and no reserved bit is set (R9). -/
def State.admits (s : State) (m : Master) (off : Nat) (v : Word) : Bool :=
  s.hubUp && !(decide (m = 2) && s.host.closed) && s.mayWrite true m off && rsvOk off v

/-- A register write that reaches the hub and is not admitted: its master may not write the register, or it sets a reserved
bit. -/
def State.turnsAway (s : State) (m : Master) (off : Nat) (v : Word) : Bool :=
  s.hubUp && !(decide (m = 2) && s.host.closed) && !(s.mayWrite true m off && rsvOk off v)

/-- Nothing but the register file differs, and no register outside a list does. -/
def OnlyRegs (l : List Nat) (s t : State) : Prop := t = { s with regs := t.regs } ∧ ∀ o, o ∉ l → t.reg o = s.reg o

/-- A byte of a core's banks after bytes written in order, each to the half that writes reach. -/
def CoreSt.after (c : CoreSt) (cfg : CoreCfg) (w : List (Nat × Byte)) (x : Nat) : Byte :=
  ((w.reverse.find? (fun e => writeByte cfg c.odd (e.1 / 32) (e.1 % 32) = x)).map Prod.snd).getD (Store.get byteZero c.banks x)

/-- Nothing but cores differs, and of the cores one alone. -/
def OnlyCore (k : Nat) (s t : State) : Prop := t = { s with core := t.core } ∧ ∀ j, j ≠ k → t.co j = s.co j

/-- The registers that a fault message can write: recorder, collector, FAULT_N pin and the interrupt causes. -/
def faultRegs : List Nat :=
  [EVR_HEAD.HEAD.reg, EVR_REPEAT_AT.AT.reg, HUB_PCIE_IRQ.IRQ.reg, FLT_PIN.HELD.reg, FLT_STAT.GRAVE.reg,
   FLT_DUMP_STAT.BUSY.reg, FLT_Q_STAT.LOST.reg, (FLT_CNT.CNT 0).reg, (FLT_CNT.CNT 1).reg, (FLT_CNT.CNT 2).reg,
   (FLT_CNT.CNT 3).reg, (FLT_CNT.CNT 4).reg]

/-- Two states that differ only in what a fault message can change: the collector with the dump that it may start, the
recorder, the signals, the hold that a slice is still to enter, and the retirements that wait. -/
structure FaultOnly (s t : State) : Prop where
  pending : t.pending = s.pending
  now : t.now = s.now
  draws : t.draws = s.draws
  fuses : t.fuses = s.fuses
  priv2 : t.priv2 = s.priv2
  snap0 : t.snap0 = s.snap0
  snap2 : t.snap2 = s.snap2
  tick : t.tick = s.tick
  core : t.core = s.core
  clus : t.clus = s.clus
  eng : t.eng = s.eng
  chan : t.chan = s.chan
  rtr : t.rtr = s.rtr
  port : t.port = s.port
  mem : t.mem = s.mem
  memBad : t.memBad = s.memBad
  fab : t.fab = s.fab
  mgr : t.mgr = s.mgr
  sec : t.sec = s.sec
  nor : t.nor = s.nor
  att : t.att = s.att
  mbx : t.mbx = s.mbx
  pwr : t.pwr = s.pwr
  rst : t.rst = s.rst
  host : t.host = s.host
  frz : t.flt.frz = s.flt.frz
  force : t.flt.force = s.flt.force
  inj : t.flt.inj = s.flt.inj
  graveDone : t.flt.graveDone = s.flt.graveDone
  incidents : t.flt.incidents = s.flt.incidents
  lastTot : t.flt.lastTot = s.flt.lastTot
  reg : ∀ o, o ∉ faultRegs → t.reg o = s.reg o
  cx : ∀ n, { t.cx n with holdNext := (s.cx n).holdNext } = s.cx n
  pt : ∀ p, { t.pt p with waiting := (s.pt p).waiting } = s.pt p

/-- A unicast management packet for this hub that passes its checks (R308, R313, R314): no hop is left, no relay waits for it, and
no higher term ends this module's own role as manager or coordinator. -/
def State.hears (s : State) (p : Packet) (via : Option (Fin 16)) : Bool :=
  s.hubUp && decide (p.typ = 0) && decide (p.aux ≠ 0xFF) && !p.mc &&
    !(p.srcrt && (if p.aux.toNat < 0x80 then decide (bits p.route 3 0 ≠ 0) else (s.relayOf p via).isSome)) &&
    !((s.acting || (s.fget FAB_MGR_STAT.ROLE = 1 && s.mgr.termed)) && p.fromHub &&
      manHas s.mgr.manifest (epMod p.src) && !s.far (epMod p.src) && decide (s.fget FAB_TERM.TERM < p.term)) &&
    !(s.flag FAB_MGR_STAT.COORD && p.fromHub && s.farMgrs.contains (epMod p.src) &&
      decide (s.fget FAB_COORD_TERM.TERM < p.term)) &&
    decide (s.verdict p via = .accept)

/-- The packets at a router's input in a channel, in order: those that its buffer holds, and those offered that wait for room. -/
def RtrSt.line (r : RtrSt) (inp vc : Nat) : List Packet := (r.queue inp vc).map Queued.pkt ++ r.offers inp vc

/-- One packet queued behind the others at the hub's port of the mesh, and at no other input. -/
def HubSent (q : Packet) (s t : State) : Prop :=
  (t.rt s.hubRtr).line 6 3 = (s.rt s.hubRtr).line 6 3 ++ [q] ∧
  (∀ i c, i < 8 → c < 4 → (i, c) ≠ (6, 3) → (t.rt s.hubRtr).line i c = (s.rt s.hubRtr).line i c) ∧
  (∀ k, k ≠ s.hubRtr → t.rt k = s.rt k) ∧ ∀ c, t.po c = s.po c

/-- One packet queued for VC_MGT of a port, and no other buffer changed. -/
def PortSent (c : Nat) (q : Packet) (s t : State) : Prop :=
  t.po c = { s.po c with txq := Store.upd (fun _ => []) (s.po c).txq 3 (fun l => l ++ [q]) } ∧ (∀ d, d ≠ c → t.po d = s.po d) ∧
  t.rtr = s.rtr

/-- A management packet's code, number, destination, term and body. -/
def Packet.says (q : Packet) (code msg : Nat) (dest : Word) (term : Nat) (body : List Byte) : Prop :=
  q.typ = 0 ∧ q.cls = 3 ∧ q.aux = BitVec.ofNat 8 code ∧ q.msg = BitVec.ofNat 16 msg ∧ q.dest = dest ∧ q.term = term ∧ q.body = body ∧ q.good = true

/-- The answer to a command leaves the hub: through the mesh, or through the port that brought a source-routed command. -/
def Answered (p : Packet) (via : Option (Fin 16)) (term : Nat) (body : List Byte) (s t : State) : Prop :=
  ∃ q : Packet, Packet.says q (p.aux.toNat + 0x80) p.msg.toNat p.src term body ∧ q.mc = false ∧ q.srcrt = p.srcrt ∧
    match (if p.srcrt then via else none) with
    | some c => PortSent c.val q s t
    | none => HubSent q s t

/-- A command that a hub sends: its number is the next one, and its answer is awaited for a job. -/
def Asked (code mod job : Nat) (term : Nat) (body : List Byte) (s t : State) : Prop :=
  (∃ q : Packet, Packet.says q code s.mgr.msgNum (hubEp mod) term body ∧ q.mc = false ∧ q.srcrt = false ∧ HubSent q s t) ∧
  t.mgr.msgNum = (s.mgr.msgNum + 1) % 2 ^ 16 ∧ ⟨code, s.mgr.msgNum, mod, job, 16⟩ ∈ t.mgr.awaits

/-- A command of the host that the manager takes up with nothing else in progress (R306, R323). -/
def State.takesUp (s : State) (m : Master) (code : Nat) (hseq : BitVec 16) : Bool :=
  s.admits m FAB_CMD.off (BitVec.ofNat 32 (code + hseq.toNat * 2 ^ 16)) && s.acting && !s.flag FAB_CMD_STAT.BUSY &&
    s.mgr.hbStep.isNone && s.mgr.cmds.isEmpty && s.mgr.awaits.isEmpty && !s.mgr.toArm && s.mgr.commits.isEmpty

/-- An argument of a host command. -/
def State.arg (s : State) (i : Nat) : Nat := (s.reg (FAB_CMD_ARG.off i)).toNat
/-- Two arguments as one number, the low word first. -/
def State.arg2 (s : State) (i : Nat) : Nat := s.arg i + s.arg (i + 1) * 2 ^ 32

/-- A host command has ended: its status and number are shown, vector 1 of PF0 is latched (R306, R417). -/
def Ended (st : Nat) (hseq : BitVec 16) (t : State) : Prop :=
  t.fget FAB_CMD_STAT.STATUS = st ∧ t.fget FAB_CMD_STAT.BUSY = 0 ∧ t.fget FAB_CMD_STAT.HSEQ = hseq.toNat ∧ t.mgr.cmds = [] ∧
  (t.fget HUB_PCIE_IRQ.IRQ).testBit 1 = true

end Machine

end Sys2Proof
end

