-- ==== Sys2Proof/WellFormed.lean ====
section
/-! DEFINITION. What a command must satisfy for its operands to be ones that the module can meet: lengths of payloads,
frames and transfers, master numbers, aligned register offsets. A meaning never asks for it: every command has an effect
on every operand; a statement may assume it. -/

namespace Sys2Proof

/-- The payload has the LEN bytes that the header names, at most 1,024 (R210). -/
def Packet.wf (p : Packet) : Bool := p.payload.length == p.len.toNat && decide (p.len.toNat ≤ 1024)

/-- A frame is 2,720 PAM4 levels: 544 symbols of five (R218). -/
def LaneRx.wf : LaneRx → Bool
  | .absent | .lost => true
  | .levels l => decide (l.length = 2720)

/-- A packet that reaches an in port is well-formed. -/
def Arrival.wf : Arrival → Bool
  | .unit _ => true
  | .packet p => p.wf

/-- A parity group lies in its channel (R146), and a tile header in LPDDR5 (R148). -/
def Repair.wf : Repair → Bool
  | .restore _ _ g => decide (g < 14 * 2 ^ 20)
  | .slot _ _ h => decide (h < 2 ^ 40 ∧ h % 2 ^ 36 < 0xE00000000)
  | .tile .. | .spareCore .. | .spareCluster .. | .spareEngine .. | .tree _ | .route | .linkPort _ | .unitReset _
  | .records .. => true

/-- A DISCOVER that arrives is well-formed. -/
def DiscoverOp.wf : DiscoverOp → Bool
  | .send .. => true
  | .recv p _ => p.wf

/-- The masters of R409 and R421. -/
def Master.valid (m : Master) : Bool :=
  let n := m.toNat
  decide (n < 4) || (decide (0x10 ≤ n) && decide (n < 0x50)) || (decide (0x80 ≤ n) && decide (n < 0xC0))

/-- The masters that are functions of the endpoint: PF0, PF1 and the virtual functions (R409). -/
def Master.function (m : Master) : Bool :=
  let n := m.toNat
  n == 2 || n == 3 || (decide (0x10 ≤ n) && decide (n < 0x50))

/-- The functions with an intake window: PF1 and the virtual functions (R413). -/
def Master.intake (m : Master) : Bool := m.function && m != 2

/-- A register's offset is a multiple of 4 (R7). -/
def aligned {n : Nat} (off : BitVec n) : Bool := off.toNat % 4 == 0

/-- A host request asks for 1 to 4,096 bytes. -/
def reqLen (len : BitVec 13) : Bool := decide (1 ≤ len.toNat) && decide (len.toNat ≤ 4096)

/-- A host write carries 1 to 4,096 bytes. -/
def burst (data : List Byte) : Bool := decide (1 ≤ data.length) && decide (data.length ≤ 4096)

/-- The operands of a command are ones that the module can meet. -/
def Instr.wf : Instr → Bool
  | .registerWrite m off _ _ | .snapshotRead m off | .indirectRead m _ off _ => Master.valid m && aligned off
  | .tickBoundary | .computeStart _ | .completionCheck _ | .abort _ _ _ _ | .repairLimit _ | .periodChange
  | .resume _ | .hold _ | .discard _ | .supplyDip _ | .supplyRecover _ | .stretchWithdraw | .syncSend _
  | .sync _ _ _ _ _ | .syncAcquire _ _ | .syncLost | .calibrationSlot _ _ | .calibrationOverdue _ _
  | .linkCalibrationWindow _ _ _ | .matmul _ | .matmulT _ | .outer _ | .vecAdd _ | .vecSub _ | .vecMul _ | .vecFma _
  | .vecMax _ | .vecMin _ | .vecAbs _ | .vecNeg _ | .func _ | .reduceSum _ | .reduceMax _ | .reduceMaxabs _
  | .reduceSumsq _ | .convert _ | .moveCopy _ | .moveOut _ | .movePass _ | .sendDispatch _ | .sendReply _
  | .waitDrain _ | .waitInject _ | .waitOffset _ | .waitEnd _ | .skipZero _ | .skipEmpty _ | .endEntry _
  | .coreStatusPoll _ _ | .updateJobTick _ | .mul _ | .add _ | .fma _ | .sqrt _ | .rsqrt _ | .recip _ | .clamp _
  | .sign _ | .csel _ | .publication _ | .sramScrub _ | .republication _ _ | .lpddr5Scrub _ _ | .lpddr5Hot _ _
  | .retrainOverdue _ _ | .agentReport _ _ | .loadTimeout | .systemAreaCopy _ | .warmReapply _
  | .packetForward _ _ _ | .escapeMove _ _ _ | .routerFail _ | .strandUnit _ _ _ _ _ | .treeContribution _ _ _
  | .treeMemSource _ _ | .rbwPacketClose _ _ _ | .nak _ _ | .ackTimeout _ | .tickEdge _ _ | .refuse _ _
  | .laneDrop _ _ _ _ | .laneAdd _ _ _ | .ident _ _ _ | .echo _ _ | .echoReply _ _
  | .signalDetect _ _ | .equalizeTimeout _ | .excludedRetry _ | .laneFault _ _ _ | .laneClean _ _ | .retryStorm _ _
  | .cmisMonitorPoll _ _ _ _ | .cmisFlagPoll _ _ _ _ _ | .opticsAbsent _ | .loadBroadcast _ | .tableSwap
  | .escapeQuiesceEnd | .leaseExpiry | .takeover | .termSetTimeout | .handbackStep | .recoveryEnd
  | .discoveryTimeout _ | .resendTimer | .heartbeatLoss _ | .routeRecompute _ _ _ | .sliceCmdDeadline | .foldRound
  | .foldTimeout | .faultMessage _ | .sourceWindowExpiry _ | .graveHoldLimit | .forcedDetection | .pulseEnd
  | .dumpRegionRead _ | .dumpDone | .drainComplete _ | .drainTimeout _ | .partitionReapply _ | .incidentClose
  | .watchdogExpiry | .spareReplace _ _ | .auxPowerOn _ | .auxLoss | .mainInputGood | .mainInputLoss
  | .mainOvervoltage | .supplyResetLevel _ | .firmwareWaitTimeout | .lpddr5TrainingDone | .computeWave _
  | .transitionComplete | .standbyMinimum | .addressMatch | .wakeRow | .wakeDeadlineMiss | .governorEvaluation _
  | .powerLimitUnattainable | .pcieUncorrectableError _ | .perstN _ | .smbusIdent | .status | .alertCause
  | .alertClr _ | .alertEn _ | .alertResponse | .powerReq _ | .smbusModuleReset _ | .resetNotify | .warnLevel _
  | .sensors | .faults | .mbxRecv _ | .attestStart _ _ | .attestFetch _ | .mbxTimeout _ | .norCommit _
  | .counterSave | .doeRequest _ _ | .doeAbort | .attestationSigned | .thermalWarning _ _ | .thermalWithdraw
  | .thermalTrip _ _ | .leak _ | .railOvercurrent _ | .frameTime _ | .linkCreditSend _ | .engineFailed _
  | .sysclkLoss | .pcieLinkUp _ _ | .mgrSbyStart => true
  | .repairComplete _ r => r.wf
  | .periodArm m _ | .sliceCmdArm m _ _ | .tckSyncMaxClear m _ | .load m _ | .abandon m _ | .rigLock m _
  | .rtrClr m _ _ | .rtrClrAll m _ _ | .portEnable m _ _ | .retrain m _ _ | .unpark m _ _ | .dataEn m _ _
  | .expectationWrite m _ _ _ | .swapArm m _ | .manifest m _ | .xconnect m _ | .mode m _ | .sliceReserve m _
  | .sliceRelease m _ | .sliceCmd m _ | .fence m _ | .period m _ | .treeCfg m _ | .handover m _ | .fwStage m _
  | .restart m _ | .adapt m _ | .floor m _ | .forward m _ | .force m _ | .srcClr m _ | .qPop m _ | .release m _
  | .fltLock m _ | .dumpStart m _ | .coreReset m _ _ | .clusterReset m _ _ | .engineReset m _ _
  | .partitionReset m _ _ | .remapCore m _ _ | .remapCluster m _ _ | .remapEngine m _ _ | .rotate m _ _
  | .moduleReset m _ | .sliceContextReset m _ | .endpointReset m _ | .powerCycleRequest m _ | .wdtKick m _
  | .firmwareGo m _ | .powerReqActive m _ | .powerReqStandby m _ | .powerReqRetain m _ | .powerReqDormant m _
  | .powerReqOff m _ | .clockSet m _ | .clrMeas m _ | .clrRes m _ | .mbxLock m _ | .mbxStage m _ _ _ | .post m _ _
  | .pop m _ | .dbRing m _ _ | .clearEvr m _ | .clearRemap m _ | .enroll m _ | .revoke m _ | .raiseSvn m _
  | .featFloorWrite m _ | .rigCommit m _ | .fabMgrLock m _ => Master.valid m
  | .inPortLanding _ _ a => a.wf
  | .mirrorRestore _ _ group data => decide (group.toNat < 14 * 2 ^ 20) && (data.length == 512 || data.isEmpty)
  | .mgt p _ | .linkCredit _ p | .routeTimeout p | .tetherReply p | .termSet p | .termSetReply p | .journal p
  | .journalReply p | .discoverReply _ p | .assign p _ | .manSeg p | .regWrite p | .regRead p | .rigPlan p
  | .rigSeg p | .rigResend p | .rigReport p | .sliceEvent p | .memberLost p | .resetNotice p | .fwSeg p _
  | .fwSegReply p | .rbwPacket _ p => p.wf
  | .row p => p.wf && p.typ == 1
  | .direct p => p.wf && p.typ == 2
  | .stream p => p.wf && p.typ == 3
  | .memWr p => p.wf && p.typ == 4
  | .memRd p => p.wf && p.typ == 5
  | .memRdr p => p.wf && p.typ == 6
  | .mirror p => p.wf && p.typ == 7
  | .red p => p.wf && p.typ == 8
  | .mcast _ p => p.wf && p.typ == 9
  | .foldReport p | .pruneReport p => p.wf && p.typ == 10
  | .trainingBlock _ _ head pattern => decide (head.length = 256) && decide (pattern.length = 768)
  | .frame _ rx => decide (rx.lanes.length ≤ 32) && rx.lanes.all LaneRx.wf
  | .tether rx | .handback rx | .heartbeat rx => rx.all Packet.wf
  | .discover d => d.wf
  | .bar2Read _ len => reqLen len
  | .bar2Write _ _ data => burst data
  | .intakeRead m _ len => Master.intake m && reqLen len
  | .intakeWrite m _ _ data => Master.intake m && burst data
  | .flr m | .d3hotEntry m | .d3hotExit m => Master.function m
  | .evrRead _ n => decide (1 ≤ n.toNat) && decide (n.toNat ≤ 7)
  | .mbxSend _ data => data.length == 64
  | .sensorUpdate r => r.dies.length == 21

end Sys2Proof
end

