-- ==== Sys2Proof/Certificates/Slice0/Obligations.lean ====
section
/-! DEFINITION. The statements for the provers. Each docstring names the rules of spec/ it formalises. -/

open Sys2Proof Sys2Proof.Machine

/-- A step of a state with command c at the front of its queue is exec of c on that state with the queue's rest. (R2).
-/
def Obligations.StepRunsFront : Prop :=
  ∀ (c : Instr) (s : State) (rest : List Instr),
    Machine.step { s with pending := c :: rest } = Machine.exec c { s with pending := rest }

/-- On an empty queue a step answers the state with its time one timebase unit later and nothing else changed: the
model's choice, log entry 1. (R35). -/
def Obligations.IdleStep : Prop :=
  ∀ s : State, s.pending = [] → Machine.step s = .next { s with now := s.now + 1 }

/-- For every command and every state exec answers a next state; it changes neither the commands that wait nor a fuse,
and the time does not go back. (R11, R385). -/
def Obligations.EveryCommandRuns : Prop :=
  ∀ (c : Instr) (s : State), Runs c s fun t => t.pending = s.pending ∧ s.now ≤ t.now ∧ t.fuses = s.fuses

/-- From every state, n steps answer a next state: the first n commands have been taken from the queue in order, at
least one timebase unit has passed for every step beyond the last command, and no fuse has changed. (R11, R385). -/
def Obligations.RunServesQueue : Prop :=
  ∀ (n : Nat) (s : State), ∃ t, Host.Core.run Sys2Proof.core n s = .next t ∧
    t.pending = s.pending.drop n ∧ s.now + (n - s.pending.length) ≤ t.now ∧ t.fuses = s.fuses

/-- An admitted write of FLT_Q_POP removes the oldest queue entry; FLT_SRC_CLR frees the entry it names, or all with
ALL; FLT_FRZ_CMD with RELEASE empties the freeze entry it names while its slice is in HOLD or IDLE or unknown here;
FLT_CTL sets LOCK, the bits INJ_COUNTS and INJ_PIN, and INJ_EN while LOCK is 0; FLT_FORCE with GO, INJ_EN set and no
force pending sets GO and the force bit of the source in FLT_FORCE_UNIT; FLT_DUMP_CTL with START starts a dump unless
one is in progress. Each leaves the rest of the state as it was. (R342, R346, R350, R351, R355). -/
def Obligations.CollectorWrites : Prop :=
  ∀ (s : State) (m : Master) (v : Word),
    (s.admits m FLT_Q_POP.off v = true →
      exec (.qPop m v) s = .next { s with flt := { s.flt with queue := s.flt.queue.tail } }) ∧
    (s.admits m FLT_SRC_CLR.off v = true → Runs (.srcClr m v) s fun t =>
      (∀ i, t.srcEnt i = if FLT_SRC_CLR.ALL.of v = 1 ∨ i = FLT_SRC_CLR.ENTRY.of v then SrcEnt.init else s.srcEnt i) ∧
      t = { s with regs := t.regs, flt := { s.flt with srcs := t.flt.srcs } } ∧
      ∀ o, o ≠ FLT_STAT.off → t.reg o = s.reg o) ∧
    (s.admits m FLT_FRZ_CMD.off v = true → FLT_FRZ_CMD.RELEASE.of v = 1 →
      (s.frzEnt (FLT_FRZ_CMD.INDEX.of v)).kind ≠ 0 →
      (s.ctxOf (s.frzEnt (FLT_FRZ_CMD.INDEX.of v)).slice).all (fun n => s.slState n = 0 || s.slState n = 5) = true →
      Runs (.release m v) s fun t =>
        (∀ i, t.frzEnt i = if i = FLT_FRZ_CMD.INDEX.of v then FrzEnt.init else s.frzEnt i) ∧
        t = { s with flt := { s.flt with frz := t.flt.frz } }) ∧
    (s.admits m FLT_CTL.off v = true → (s.flag FLT_CTL.LOCK = true → FLT_CTL.INJ_EN.of v = s.fget FLT_CTL.INJ_EN) →
      Runs (.fltLock m v) s fun t =>
        t.fget FLT_CTL.INJ_EN = FLT_CTL.INJ_EN.of v ∧ t.fget FLT_CTL.INJ_COUNTS = FLT_CTL.INJ_COUNTS.of v ∧
        t.fget FLT_CTL.INJ_PIN = FLT_CTL.INJ_PIN.of v ∧
        t.flag FLT_CTL.LOCK = (s.flag FLT_CTL.LOCK || decide (FLT_CTL.LOCK.of v = 1)) ∧ OnlyRegs [FLT_CTL.off] s t) ∧
    (s.admits m FLT_FORCE.off v = true → s.flag FLT_CTL.INJ_EN = true → s.flt.force = none → FLT_FORCE.GO.of v = 1 →
      Runs (.force m v) s fun t =>
        (∃ f, t.flt.force = some f ∧ f.code.toNat = FLT_FORCE.CODE.of v ∧ f.inj = true ∧
          f.src = s.reg FLT_FORCE_UNIT.off) ∧
        t.fget FLT_FORCE.GO = 1 ∧ t.fget FLT_FORCE.CODE = FLT_FORCE.CODE.of v ∧
        t = { s with regs := t.regs, flt := { s.flt with force := t.flt.force } } ∧
        ∀ o, o ≠ FLT_FORCE.off → t.reg o = s.reg o) ∧
    (s.admits m FLT_DUMP_CTL.off v = true → s.flag FLT_DUMP_STAT.BUSY = false → FLT_DUMP_CTL.START.of v = 1 →
      Runs (.dumpStart m v) s fun t =>
        t.flag FLT_DUMP_STAT.BUSY = true ∧ t.fget FLT_DUMP_STAT.NORESP = 0 ∧ t.flt.dump.left = s.dumpRegions ∧
        t.fget FLT_DUMP_CTL.AUTO = FLT_DUMP_CTL.AUTO.of v ∧ t.fget FLT_DUMP_CTL.ON_SEVERE = FLT_DUMP_CTL.ON_SEVERE.of v ∧
        t.fget FLT_DUMP_CTL.HOLD_LIM = max 1 (FLT_DUMP_CTL.HOLD_LIM.of v) ∧
        t = { s with regs := t.regs, flt := { s.flt with dump := t.flt.dump } } ∧
        ∀ o, o ≠ FLT_DUMP_CTL.off → o ≠ FLT_DUMP_STAT.off → t.reg o = s.reg o)

/-- A source entry whose window has passed becomes FREE. A FAULT_N pulse that is over ends and the pin follows HELD
and SW_LOW. A forced NOTE of the hub is detected at once: the force bit and GO clear, and its message enters the queue
with INJ. Reading a region of a dump in progress takes it from the regions left, the dump buffer shows what has been
read, and a region that gives no answer, its rails on, is counted in NORESP. A dump with every region read is DONE, no
longer BUSY, and latches vector 4. The hold that follows a real GRAVE message is taken once its limit has come, and
then stands. (R342, R344, R346, R348, R352, R353). -/
def Obligations.CollectorEvents : Prop :=
  ∀ s : State,
    (∀ e : Fin 512, s.srcExpired (s.srcEnt e.val) = true → Runs (.sourceWindowExpiry e) s fun t =>
      (∀ i, t.srcEnt i = if i = e.val then SrcEnt.init else s.srcEnt i) ∧
      t = { s with regs := t.regs, flt := { s.flt with srcs := t.flt.srcs } } ∧
      ∀ o, o ≠ FLT_STAT.off → t.reg o = s.reg o) ∧
    (∀ u, s.flt.pulse = some u → u ≤ s.now → Runs .pulseEnd s fun t =>
      t.flt.pulse = none ∧ t.flag FLT_PIN.PULSING = false ∧
      t.pins.faultN = (s.flag FLT_PIN.HELD || s.flag FLT_PIN.SW_LOW) ∧
      t = { s with regs := t.regs, flt := { s.flt with pulse := none }, pins := { s.pins with faultN := t.pins.faultN } } ∧
      ∀ o, o ≠ FLT_PIN.off → t.reg o = s.reg o) ∧
    (∀ f, s.flt.force = some f → f.code = 0x0001 ∨ f.code = 0x0002 → f.src = 0 → s.flt.queue.length < 1024 →
      Runs .forcedDetection s fun t =>
        t.flt.force = none ∧ t.fget FLT_FORCE.GO = 0 ∧ t.flt.inj = false ∧
        (∃ e : QEntry, t.flt.queue = s.flt.queue ++ [e] ∧ e.msg.code = f.code ∧ e.msg.inj = true ∧ e.cls = 0) ∧
        t.mem = s.mem ∧ t.core = s.core ∧ t.ctx = s.ctx) ∧
    (∀ a r rest, s.flt.dump.left = r :: rest → s.hubUp = true → s.flag FLT_DUMP_STAT.BUSY = true →
      let mute := match a with | .noResponse _ => true | _ => false
      let silent := !s.dumpDark r && (s.dumpDead r || mute)
      let read (t : State) : Prop :=
        t.flt.dump.left = rest ∧ (∃ x, t.flt.dump.bytes = s.flt.dump.bytes ++ x ∧ 16 ≤ x.length) ∧
        (∀ i, i < 16384 → Store.get byteZero t.flt.window i = t.flt.dump.bytes.getD i 0) ∧
        t = { s with regs := t.regs, flt := { s.flt with dump := t.flt.dump, window := t.flt.window } } ∧
        ∀ o, o ≠ FLT_DUMP_STAT.off → t.reg o = s.reg o
      (silent = true → Runs (.dumpRegionRead a) s fun t =>
        read t ∧ t.fget FLT_DUMP_STAT.NORESP = min 255 (s.fget FLT_DUMP_STAT.NORESP + 1)) ∧
      (silent = false → Runs (.dumpRegionRead a) s fun t =>
        read t ∧ t.fget FLT_DUMP_STAT.NORESP = s.fget FLT_DUMP_STAT.NORESP)) ∧
    (s.hubUp = true → s.flag FLT_DUMP_STAT.BUSY = true → s.flt.dump.left = [] → s.flag FLT_STAT.GRAVE = false →
      Runs .dumpDone s fun t =>
        t.flag FLT_DUMP_STAT.BUSY = false ∧ t.flag FLT_DUMP_STAT.DONE = true ∧ t.flt.dump.done = true ∧
        (t.fget HUB_PCIE_IRQ.IRQ).testBit 4 = true ∧ t.flt.window = s.flt.window ∧
        t.core = s.core ∧ t.part = s.part ∧ t.ctx = s.ctx) ∧
    (∀ u, s.flt.graveAt = some u → s.flag FLT_STAT.GRAVE = true → s.flt.graveDone = false →
      u + sUnits (s.fget FLT_DUMP_CTL.HOLD_LIM) ≤ s.now → Runs .graveHoldLimit s fun t =>
        t.flag HUB_RST_STAT.PWR_CYCLE_REQ = true ∧ t.smb.causes.getLsbD 3 = true)

/-- An admitted write of PRT_RST_CMD that commands a core, cluster or engine reset of a partition not under reset is
recorded in LAST_CMD and resets the unit: the core, every core and the router of the cluster, or the engine. Banks,
counters, job records and LPDDR5 stay; every other core and engine is as it was. (R356, R357, R358, R377). -/
def Obligations.UnitResets : Prop :=
  ∀ (s : State) (m : Master) (p : PartId) (v : Word), s.admits m (PRT_RST_CMD.off p.val) v = true →
    s.partResetting p.val = false →
    ((PRT_RST_CMD.CMD p.val).of v = 1 → (PRT_RST_CMD.CLUS p.val).of v < 75 → (PRT_RST_CMD.CORE p.val).of v < 250 →
      Runs (.coreReset m p v) s fun t =>
        let k := (75 * p.val + (PRT_RST_CMD.CLUS p.val).of v) * 250 + (PRT_RST_CMD.CORE p.val).of v
        (∀ j, t.co j = if j = k then (s.co k).reset else s.co j) ∧ (t.co k).banks = (s.co k).banks ∧
        t.fget (PRT_RST_STAT.LAST_CMD p.val) = 1 ∧ t.eng = s.eng ∧ t.mem = s.mem ∧ t.rtr = s.rtr ∧ t.part = s.part) ∧
    ((PRT_RST_CMD.CMD p.val).of v = 2 → (PRT_RST_CMD.CLUS p.val).of v < 75 →
      (s.pt p.val).bypass.all (fun x => x = s.physClus p.val ((PRT_RST_CMD.CLUS p.val).of v)) = true →
      Runs (.clusterReset m p v) s fun t =>
        let c := (PRT_RST_CMD.CLUS p.val).of v
        (∀ i, i < 250 → t.co ((75 * p.val + c) * 250 + i) = (s.co ((75 * p.val + c) * 250 + i)).reset) ∧
        (∀ j, j / 250 ≠ 75 * p.val + c → t.co j = s.co j) ∧
        t.rt (meshKey p.val (s.physClus p.val c)) = (s.rt (meshKey p.val (s.physClus p.val c))).reset ∧
        t.fget (PRT_RST_STAT.LAST_CMD p.val) = 2 ∧ t.eng = s.eng ∧ t.mem = s.mem ∧ t.part = s.part) ∧
    ((PRT_RST_CMD.CMD p.val).of v = 3 →
      Runs (.engineReset m p v) s fun t =>
        let k := 8 * p.val + (PRT_RST_CMD.ENGINE p.val).of v
        (∀ j, t.en j = if j = k then (s.en k).reset else s.en j) ∧
        t.fget (PRT_RST_STAT.LAST_CMD p.val) = 3 ∧ t.core = s.core ∧ t.mem = s.mem ∧ t.rtr = s.rtr ∧ t.part = s.part)

/-- An admitted command closes the sluice of the partition, of the endpoint and of every partition whose die is not in
reset, or of the endpoint alone, for a drain that begins now; a slice context returns to IDLE; a power cycle request
is shown in PWR_CYCLE_REQ and as alert cause 3; a watchdog kick restarts the watchdog now. During a power transition a
partition reset and a module reset wait. (R356, R359, R363, R364, R376, R377, R405, R416). -/
def Obligations.PartitionAndModuleResets : Prop :=
  ∀ (s : State) (m : Master) (v : Word),
    (∀ p : PartId, s.admits m (PRT_RST_CMD.off p.val) v = true → (PRT_RST_CMD.CMD p.val).of v = 4 →
      s.partResetting p.val = false →
      (s.flag PWR_STAT.MOVING = false → (s.pt p.val).held = false → Runs (.partitionReset m p v) s fun t =>
        (t.pt p.val).closed = true ∧ (t.pt p.val).drain = some .partition ∧ (t.pt p.val).drainAt = s.now ∧
        t.fget (PRT_RST_STAT.LAST_CMD p.val) = 4 ∧ t.mem = s.mem) ∧
      (s.flag PWR_STAT.MOVING = true → Runs (.partitionReset m p v) s fun t =>
        p.val ∈ t.rst.later ∧ t.part = s.part ∧ t.fget (PRT_RST_STAT.LAST_CMD p.val) = 4)) ∧
    (s.admits m HUB_RST_CMD.off v = true →
      (HUB_RST_CMD.CMD.of v = 1 → s.rst.modWait = false →
        (s.flag PWR_STAT.MOVING = false → Runs (.moduleReset m v) s fun t =>
          t.rst.modWait = true ∧ t.host.closed = true ∧ t.host.drain = some .module ∧ t.host.drainAt = s.now ∧
          t.mem = s.mem ∧
          ∀ p, p < 16 → s.dieDown p = false → (t.pt p).closed = true ∧ (t.pt p).drain = some .module) ∧
        (s.flag PWR_STAT.MOVING = true → exec (.moduleReset m v) s = .next { s with rst := { s.rst with modWait := true } })) ∧
      (HUB_RST_CMD.CMD.of v = 2 → Runs (.sliceContextReset m v) s fun t =>
        t.slState (HUB_RST_CMD.CTX.of v) = 0 ∧ t.flag (RIG_SL_STAT.ACTIVE (HUB_RST_CMD.CTX.of v)) = false ∧
        t.cx (HUB_RST_CMD.CTX.of v) = CtxSt.init) ∧
      (HUB_RST_CMD.CMD.of v = 3 → s.host.drain = none → Runs (.endpointReset m v) s fun t =>
        t = { s with host := { s.host with closed := true, drain := some .endpoint, drainAt := s.now } }) ∧
      (HUB_RST_CMD.CMD.of v = 4 → Runs (.powerCycleRequest m v) s fun t =>
        t.flag HUB_RST_STAT.PWR_CYCLE_REQ = true ∧ t.smb.causes.getLsbD 3 = true)) ∧
    (s.admits m HUB_RST_CTL.off v = true → HUB_RST_CTL.WDT_KICK.of v = 1 → Runs (.wdtKick m v) s fun t =>
      t.fget HUB_RST_CTL.ESC_WIN = max 1 (HUB_RST_CTL.ESC_WIN.of v) ∧ t.fget HUB_RST_CTL.WDT = max 10 (HUB_RST_CTL.WDT.of v) ∧
      t.fget HUB_RST_CTL.AUTO = HUB_RST_CTL.AUTO.of v ∧
      t = { s with regs := t.regs, rst := { s.rst with kickAt := s.now } } ∧
      ∀ o, o ≠ HUB_RST_CTL.off → t.reg o = s.reg o)

/-- An admitted remap command puts the unit among the retirements that wait for REPAIR or HOLD. SPARE_REPLACE, in a
partition that no slice holds and with no message that waits for it, gives a waiting core's place to the lowest
healthy spare core of its cluster, records the retirement and removes it from those that wait. ROTATE advances the
core rotation count, and the cluster rotation count with every eighth rotation, and undoes every substitution. (R365,
R366, R367, R369, R377). -/
def Obligations.RetirementsAndRotation : Prop :=
  ∀ (s : State) (m : Master) (p : PartId) (v : Word),
    (s.admits m (PRT_RST_CMD.off p.val) v = true →
      ((PRT_RST_CMD.CMD p.val).of v = 5 → ∀ (c : Fin 75) (i : Fin 250), (PRT_RST_CMD.CLUS p.val).of v = c.val →
        (PRT_RST_CMD.CORE p.val).of v = i.val → Runs (.remapCore m p v) s fun t =>
          .core c i ∈ (t.pt p.val).waiting ∧ t = { s with regs := t.regs, part := t.part } ∧
          t.fget (PRT_RST_STAT.LAST_CMD p.val) = 5 ∧ ∀ q, q ≠ p.val → t.pt q = s.pt q) ∧
      ((PRT_RST_CMD.CMD p.val).of v = 6 → ∀ c : Fin 75, (PRT_RST_CMD.CLUS p.val).of v = c.val →
        Runs (.remapCluster m p v) s fun t =>
          .cluster c ∈ (t.pt p.val).waiting ∧ t = { s with regs := t.regs, part := t.part } ∧
          t.fget (PRT_RST_STAT.LAST_CMD p.val) = 6 ∧ ∀ q, q ≠ p.val → t.pt q = s.pt q) ∧
      ((PRT_RST_CMD.CMD p.val).of v = 7 → ∀ e : Fin 8, (PRT_RST_CMD.ENGINE p.val).of v = e.val →
        Runs (.remapEngine m p v) s fun t =>
          .engine e ∈ (t.pt p.val).waiting ∧ t = { s with regs := t.regs, part := t.part } ∧
          t.fget (PRT_RST_STAT.LAST_CMD p.val) = 7 ∧ ∀ q, q ≠ p.val → t.pt q = s.pt q) ∧
      ((PRT_RST_CMD.CMD p.val).of v = 8 → (s.pt p.val).owner = none → Runs (.rotate m p v) s fun t =>
        t.pt p.val = { s.pt p.val with
          coreRot := (s.pt p.val).coreRot + 1, rotates := (s.pt p.val).rotates + 1,
          clusRot := if ((s.pt p.val).rotates + 1) % 8 = 0 then (s.pt p.val).clusRot + 1 else (s.pt p.val).clusRot,
          rotFrom := (s.pt p.val).retired.length, clusSub := [], coreSub := [] } ∧
        t = { s with regs := t.regs, part := t.part } ∧ t.fget (PRT_RST_STAT.LAST_CMD p.val) = 8)) ∧
    (∀ (c : Fin 75) (i : Fin 250) (q : Nat), (s.pt p.val).owner = none → .core c i ∈ (s.pt p.val).waiting →
      (s.spareCores p.val c.val).head? = some q →
      s.flt.held.all (fun e => e.2 ≠ .action (Retiree.key p (.core c i))) = true → Runs (.spareReplace p (.core c i)) s fun t =>
        (t.pt p.val).coreSub = Store.insert (s.pt p.val).coreSub (250 * c.val + i.val) q ∧
        .core c i ∉ (t.pt p.val).waiting ∧ (t.pt p.val).remaps = (s.pt p.val).remaps + 1 ∧
        (t.pt p.val).retired = (s.pt p.val).retired ++ [(s.physClus p.val c.val, s.physCore p.val c.val i.val)] ∧
        t.co ((75 * p.val + c.val) * 250 + i.val) = CoreSt.init)

/-- A partition whose drain for a partition reset is complete, or has reached its limit, enters reset with its sluice
closed and no slice holding it. A partition in reset that is released, whose slices do not run and that asks for no
re-apply, opens its sluice and is in service. Incidents for which ESC_WIN has passed since their latest step completed
close. A watchdog that expires without an open incident of its kind opens one, with step 4 taken, and asks for a
module reset. (R359, R361, R362, R363, R364, R371). -/
def Obligations.DrainsAndLadder : Prop :=
  ∀ s : State,
    (∀ p : PartId, (s.pt p.val).drain = some .partition → s.outbound p.val = 0 → Runs (.drainComplete (.part p)) s fun t =>
      (t.pt p.val).closed = true ∧ (t.pt p.val).drain = none ∧ (t.pt p.val).owner = none ∧
      t.fget (PRT_RST_STAT.STATE p.val) = (if (s.pt p.val).oos then 4 else 2) ∧ t.mem = s.mem ∧ t.nor = s.nor) ∧
    (∀ p : PartId, (s.pt p.val).drain = some .partition → s.flt.incidents = [] →
      (s.pt p.val).drainAt + usUnits (s.fget (PRT_RST_CTL.DRAIN p.val)) ≤ s.now →
      Runs (.drainTimeout (.part p)) s fun t =>
        (t.pt p.val).closed = true ∧ (t.pt p.val).drain = none ∧ (t.pt p.val).owner = none ∧ t.mem = s.mem) ∧
    (∀ p : PartId, s.fget (PRT_RST_STAT.STATE p.val) = 2 → (s.pt p.val).held = false → 8 ≤ s.pwr.stage →
      s.fget PWR_STAT.STATE = 0 → s.flag PWR_STAT.MOVING = false →
      s.flag PWR_STAT.PEND = false → (s.pt p.val).reapply.all (fun n => !s.ticking n.val) = true → s.flag (PRT_RST_CTL.REAPPLY p.val) = false → Runs (.partitionReapply p) s fun t =>
        (t.pt p.val).closed = false ∧ t.fget (PRT_RST_STAT.STATE p.val) = 0 ∧ t.flag (PRT_RST_STAT.BUSY p.val) = false ∧
        t.fget (PRT_MEM_STAT.TRAINED p.val) = 0xFF ∧ ∀ k, k < 8 → (t.ch (8 * p.val + k)).selfRef = false) ∧
    (Runs .incidentClose s fun t =>
      t.flt.incidents = s.flt.incidents.filter (fun i =>
        i.ended.all (fun u => s.now < u + sUnits (s.fget HUB_RST_CTL.ESC_WIN))) ∧
      t = { s with regs := t.regs, flt := { s.flt with incidents := t.flt.incidents } } ∧
      ∀ o, o ≠ HUB_RST_STAT.off → t.reg o = s.reg o) ∧
    (s.fwRuns = true → s.rst.kickAt + msUnits (s.fget HUB_RST_CTL.WDT) ≤ s.now → s.incident none 0x0003 [0] = none →
      s.rst.modWait = false → Runs .watchdogExpiry s fun t =>
        t.rst.modWait = true ∧ t.flt.incidents =
          s.flt.incidents.filter (fun i => i.code ≠ 0x0003) ++ [⟨0x0003, none, [0], 0, 4, 4, s.now, none⟩])

/-- A command armed for a step still ahead is stored armed; for a step that has come or passed it sets CMD_MISSED. At
its step RESUME takes a held slice with an active rigging to RUN with its attempts reset, on a locked ACTIVE module
without a GRAVE latch whose period the rigging names; HOLD takes a slice in RUN, REPLAY or REPAIR to HOLD with cause
1; DISCARD takes a held slice to IDLE. (R37, R57, R58, R71). -/
def Obligations.SliceCommands : Prop :=
  ∀ (s : State) (n : Ctx),
    (∀ (m : Master) (v : Word), s.admits m (TCK_SL_CTL.off n.val) v = true → (TCK_SL_CTL.CMD_ARM n.val).of v = 1 →
      Runs (.sliceCmdArm m n v) s fun t =>
        t.fget (TCK_SL_CTL.CMD n.val) = (TCK_SL_CTL.CMD n.val).of v ∧
        t.fget (TCK_SL_CTL.MAX_REPLAY n.val) = min 2 ((TCK_SL_CTL.MAX_REPLAY n.val).of v) ∧
        t.fget (TCK_SL_CTL.RPR_LIM n.val) = max 1 ((TCK_SL_CTL.RPR_LIM n.val).of v) ∧
        (s.pair (TCK_SL_CMD_AT_LO.off n.val) ≤ s.step → t.flag (TCK_SL_STAT.CMD_MISSED n.val) = true) ∧
        (s.step < s.pair (TCK_SL_CMD_AT_LO.off n.val) → t.flag (TCK_SL_CTL.CMD_ARM n.val) = true) ∧
        OnlyRegs [TCK_SL_CTL.off n.val, TCK_SL_STAT.off n.val] s t) ∧
    (s.cmdDue n.val 1 = true → s.slState n.val = 5 → s.isLocked = true → s.flag FLT_STAT.GRAVE = false →
      s.fget PWR_STAT.STATE = 0 → s.flag (RIG_SL_STAT.ACTIVE n.val) = true →
      (s.sched n.val).period = s.fget TCK_PERIOD.PERIOD → Runs (.resume n) s fun t =>
        t.slState n.val = 2 ∧ t.fget (TCK_SL_STAT.ATTEMPT n.val) = 0 ∧ t.fget (TCK_SL_STAT.HOLD_CAUSE n.val) = 0 ∧
        t.flag (TCK_SL_CTL.CMD_ARM n.val) = false ∧ (t.cx n.val).repairs = [] ∧ t.core = s.core ∧ t.mem = s.mem) ∧
    (s.cmdDue n.val 2 = true → (s.cx n.val).commitTick = false → 2 ≤ s.slState n.val → s.slState n.val ≤ 4 →
      Runs (.hold n) s fun t =>
        t.slState n.val = 5 ∧ t.fget (TCK_SL_STAT.HOLD_CAUSE n.val) = 1 ∧ t.flag (TCK_SL_CTL.CMD_ARM n.val) = false ∧
        t.core = s.core ∧ t.mem = s.mem) ∧
    (s.cmdDue n.val 3 = true → s.slState n.val = 5 → Runs (.discard n) s fun t =>
      t.slState n.val = 0 ∧ t.fget (TCK_SL_STAT.HOLD_CAUSE n.val) = 0 ∧ t.flag (TCK_SL_CTL.CMD_ARM n.val) = false ∧
      t = { s with regs := t.regs, ctx := t.ctx })

/-- With one slice in RUN, whose tick has no hold cause and no command due, and no rigging loading, TICK_BOUNDARY
happens at the end of the tick, or now where that has passed, and advances the global step by one. A tick that no
abort reached commits: the slice step advances, the attempt count is 0, and the slice stays in RUN. An aborted tick
with replays left and nothing to repair is replayed: the slice step stays, the attempt count advances, and the state
is REPLAY. (R35, R38, R48, R55, R57). -/
def Obligations.BoundaryCommitsOrReplays : Prop :=
  ∀ (s : State) (n : Ctx), s.flag TCK_CTL.TM_EN = true → s.step + 1 < 2 ^ 64 → s.tick.roleNext = none → s.fab.adaptAt = none →
    (∀ k, k < 16 → s.fget (RIG_SL_STAT.SHADOW k) = 0 ∧ (k ≠ n.val → s.slState k = 0)) →
    s.slState n.val = 2 → (s.cx n.val).commitTick = false → (s.cx n.val).holdNext = none →
    s.flag (TCK_SL_CTL.CMD_ARM n.val) = false → s.slStep n.val + 1 < 2 ^ 64 → s.flt.held = [] →
    ((s.cx n.val).aborted = false → Runs .tickBoundary s fun t =>
      t.now = max s.now (s.tick.bound + s.tick.len) ∧ t.tick.bound = t.now ∧ t.step = s.step + 1 ∧
      t.slStep n.val = s.slStep n.val + 1 ∧ t.slState n.val = 2 ∧ t.fget (TCK_SL_STAT.ATTEMPT n.val) = 0) ∧
    ((s.cx n.val).aborted = true → (s.cx n.val).repairs = [] →
      s.fget (TCK_SL_STAT.ATTEMPT n.val) < s.fget (TCK_SL_CTL.MAX_REPLAY n.val) → Runs .tickBoundary s fun t =>
      t.now = max s.now (s.tick.bound + s.tick.len) ∧ t.tick.bound = t.now ∧ t.step = s.step + 1 ∧
      t.slStep n.val = s.slStep n.val ∧ t.slState n.val = 3 ∧
      t.fget (TCK_SL_STAT.ATTEMPT n.val) = s.fget (TCK_SL_STAT.ATTEMPT n.val) + 1)

/-- COMPUTE_START, at the end of the commit edge, starts the cores of a slice once in a tick, unless an abort has
reached it. An abort of the tick and attempt under way marks the tick aborted and records its cause; an abort of
another tick does not. A repair complete is no longer waited for; that of a route or of records is complete once no
strand crosses the position in bypass, or the records can be moved. A slice in REPAIR at its limit holds with cause 3.
(R54, R56, R57, R69, R132). -/
def Obligations.TickEvents : Prop :=
  ∀ (s : State) (n : Ctx),
    (s.ticking n.val = true → (s.cx n.val).aborted = false → (s.cx n.val).commitTick = false → (s.cx n.val).started = false →
      Runs (.computeStart n) s fun t =>
        t.cx n.val = { s.cx n.val with started := true } ∧ (∀ k, k ≠ n.val → t.cx k = s.cx k) ∧
        t = { s with ctx := t.ctx, now := max s.now (s.tick.bound + 16) }) ∧
    (∀ (slice : BitVec 12) (tick cause : BitVec 8) (att : BitVec 2), s.ctxOf slice.toNat = some n.val →
      s.ticking n.val = true →
      (tick.toNat = s.slStep n.val % 256 → att.toNat = s.fget (TCK_SL_STAT.ATTEMPT n.val) →
        Runs (.abort slice tick att cause) s fun t =>
          (t.cx n.val).aborted = true ∧ t.fget (TCK_SL_STAT.LAST_ABORT n.val) = cause.toNat ∧
          t.slState n.val = s.slState n.val ∧ t.core = s.core ∧ t.eng = s.eng ∧ t.mem = s.mem) ∧
      (tick.toNat ≠ s.slStep n.val % 256 → Runs (.abort slice tick att cause) s fun t =>
        (t.cx n.val).aborted = (s.cx n.val).aborted ∧
        t.fget (TCK_SL_STAT.LAST_ABORT n.val) = s.fget (TCK_SL_STAT.LAST_ABORT n.val))) ∧
    (∀ r : Repair, (r = .route → s.strandsClear n.val = true) →
      (∀ d k, r = .records d k → (s.moveRecords n.val d.val k.val).1 = true) → Runs (.repairComplete n r) s fun t =>
        (t.cx n.val).repairs = (s.cx n.val).repairs.filter (fun x => x ≠ r) ∧
        (∀ k, k ≠ n.val → t.cx k = s.cx k) ∧ t = { s with ctx := t.ctx, clus := t.clus }) ∧
    (s.strandsClear n.val = false → exec (.repairComplete n .route) s = .next s) ∧
    (s.slState n.val = 4 → s.fget (TCK_SL_CTL.RPR_LIM n.val) ≤ (s.cx n.val).inRepair → s.flt.lastTot = [] →
      Runs (.repairLimit n) s fun t => t.slState n.val = 5 ∧ t.fget (TCK_SL_STAT.HOLD_CAUSE n.val) = 3)

/-- A reading below the warning level sets DIP, once until recovery; where the hub runs it steps the clock to 3/4,
asks for a stretch and latches vector 3. A reading 1.0 V above the level ends DIP; ten milliseconds after that the
cause is over. A power average above the limit asks for a stretch once. Readings enter PWR_VIN and PWR_PIN. (R61, R63,
R388, R389, R402). -/
def Obligations.StretchAndSupply : Prop :=
  ∀ s : State,
    (∀ vin : BitVec 10, vin.toNat < s.fget PWR_WARN.WARN → s.flag PWR_STAT.DIP = false →
      (s.hubUp = true → Runs (.supplyDip vin) s fun t =>
        t.flag PWR_STAT.DIP = true ∧ t.fget PWR_VIN.NOW = vin.toNat ∧ t.tick.reqDip = true ∧ t.tick.steps.testBit 0 = true ∧
        t.flag TCK_STRETCH.LOCAL = true ∧ t.tick.recover = none ∧ (t.fget HUB_PCIE_IRQ.IRQ).testBit 3 = true ∧
        t.core = s.core ∧ t.mem = s.mem) ∧
      (s.hubUp = false → Runs (.supplyDip vin) s fun t =>
        t.flag PWR_STAT.DIP = true ∧ t.fget PWR_VIN.NOW = vin.toNat ∧ t.tick = { s.tick with recover := none } ∧
        t = { s with regs := t.regs, tick := t.tick })) ∧
    (∀ vin : BitVec 10, s.fget PWR_WARN.WARN + 10 < vin.toNat → s.flag PWR_STAT.DIP = true →
      Runs (.supplyRecover vin) s fun t =>
        t.flag PWR_STAT.DIP = false ∧ t.fget PWR_VIN.NOW = vin.toNat ∧ t.tick = { s.tick with recover := some s.now } ∧
        t = { s with regs := t.regs, tick := t.tick }) ∧
    (∀ u, s.tick.recover = some u → u + msUnits 10 ≤ s.now → s.tick.steps.testBit 0 = true → Runs .stretchWithdraw s fun t =>
      t.tick = { s.tick with recover := none, steps := s.tick.steps ||| 8 } ∧ t = { s with tick := t.tick }) ∧
    (∀ w : BitVec 16, s.hubUp = true → s.fget PWR_STAT.STATE < 2 → 100 * s.fget PWR_PLIM.PLIM < w.toNat → s.govOn = false →
      Runs (.governorEvaluation w) s fun t =>
        t.fget PWR_PIN.NOW = w.toNat ∧ t.fget PWR_PIN.MAX = max w.toNat (s.fget PWR_PIN.MAX) ∧ t.tick.reqGov = true ∧
        t.tick.steps.testBit 1 = true ∧ t.tick.steps.testBit 4 = false ∧ t.flag PWR_STAT.GOV = true ∧
        t = { s with regs := t.regs, tick := t.tick, pwr := { s.pwr with gov := none } }) ∧
    (s.govOn = true → s.flag TCK_STRETCH.ACTIVE = true → s.tick.effAt + msUnits 10 ≤ s.now → s.flag PWR_STAT.PLIM_LOW = false →
      100 * s.fget PWR_PLIM.PLIM < s.fget PWR_PIN.NOW → Runs .powerLimitUnattainable s fun t =>
        t.flag PWR_STAT.PLIM_LOW = true ∧ t.core = s.core ∧ t.tick = s.tick ∧ t.mem = s.mem)

/-- A SYNC becomes due on a trained port, for the next frame time to carry. A locked SYNC of the parent followed sets
ACT_PARENT, ends holdover and gives the stretch order; one at another port moves no clock. A module that is not the
free-running reference, with no slice at work, takes the step number of its reference. A millisecond of holdover sets
SYNC_LOST and holds every slice at its boundary, once until the parent is followed again. A period armed for a later
step is stored armed; at its step PERIOD takes the armed value. (R37, R65, R66, R67, R71, R226). -/
def Obligations.SyncAndPeriod : Prop :=
  ∀ s : State,
    (∀ p : Port, s.flag TCK_CTL.SYNC_EN = true → s.trained p.val = true → Runs (.syncSend p) s fun t =>
      t.po p.val = { s.po p.val with syncSend := true } ∧
      (∀ q, q ≠ p.val → t.po q = s.po q) ∧ t = { s with port := t.port }) ∧
    (∀ (p : Port) (step : BitVec 16) (tb : BitVec 20), s.flag TCK_CTL.SYNC_EN = true →
      (∀ ask : Bool, s.follows p.val = true → Runs (.sync p step tb true ask) s fun t =>
        t.fget TCK_SYNC_STAT.ACT_PARENT = p.val ∧ t.flag TCK_SYNC_STAT.HOLDOVER = false ∧ t.tick.holdover = none ∧
        t.tick.lostSaid = false ∧ t.tick.order = ask ∧ t = { s with regs := t.regs, tick := t.tick }) ∧
      (∀ locked ask : Bool, s.follows p.val = false → Runs (.sync p step tb locked ask) s fun t =>
        t.tick.bound = s.tick.bound ∧ t.tick.window = s.tick.window ∧ t.tick.order = s.tick.order ∧ t = { s with tick := t.tick })) ∧
    (∀ (step : DWord) (tb : BitVec 20), s.isRoot = false → s.anyRunning = false → step.toNat ≠ s.step →
      Runs (.syncAcquire step tb) s fun t =>
        t.step = step.toNat ∧ t.tick.bound = s.now - tb.toNat ∧ t.flag TCK_SYNC_STAT.STEPPED = true ∧
        t = { s with regs := t.regs, tick := t.tick }) ∧
    (∀ u, s.tick.holdover = some u → u + msUnits 1 ≤ s.now → s.tick.lostSaid = false →
      Runs .syncLost s fun t =>
        t.flag TCK_SYNC_STAT.SYNC_LOST = true ∧ t.tick.lostSaid = true ∧ t.core = s.core ∧
        ∀ n, n < 16 → 2 ≤ s.slState n → s.slState n ≤ 4 → (t.cx n).holdNext ≠ none) ∧
    (∀ (m : Master) (v : Word), s.admits m TCK_SYNC_MAX.off v = true → v.getLsbD 31 = true →
      Runs (.tckSyncMaxClear m v) s fun t => t.fget TCK_SYNC_MAX.MAX = 0 ∧ OnlyRegs [TCK_SYNC_MAX.off] s t) ∧
    (∀ (m : Master) (v : Word), s.admits m TCK_CTL.off v = true → TCK_CTL.PERIOD_ARM.of v = 1 →
      1000 ≤ s.fget TCK_PERIOD_NEXT.NEXT → s.step < s.pair TCK_PERIOD_AT_LO.off → Runs (.periodArm m v) s fun t =>
        t.flag TCK_CTL.PERIOD_ARM = true ∧ t.fget TCK_CTL.PARENT = TCK_CTL.PARENT.of v ∧ OnlyRegs [TCK_CTL.off] s t) ∧
    (s.flag TCK_CTL.PERIOD_ARM = true → s.pair TCK_PERIOD_AT_LO.off = s.step → Runs .periodChange s fun t =>
      t.fget TCK_PERIOD.PERIOD = s.fget TCK_PERIOD_NEXT.NEXT ∧ t.flag TCK_CTL.PERIOD_ARM = false ∧
      ∀ n, n < 16 → 2 ≤ s.slState n → s.slState n ≤ 4 → t.slState n = 5 ∧ t.fget (TCK_SL_STAT.HOLD_CAUSE n) = 5)

/-- An admitted write of PWR_REQ, and POWER_REQ over SMBus, ask for the state TARGET names. A request during a
transition is kept as pending, with REPLACED where one was. A request that Table 6 does not allow is refused with code
2, and one while a slice is at work, without FORCE, with code 1; a refusal changes no state. A request for STANDBY,
RETAIN, DORMANT or OFF from ACTIVE that is accepted begins: MOVING is set with TO, MASTER is the master, the sluice of
every partition whose die is not in reset and the endpoint's close. (R391, R392, R393, R396, R400, R406). -/
def Obligations.PowerRequests : Prop :=
  ∀ (s : State) (m : Master) (v : Word) (c : Instr),
    c ∈ [.powerReqActive m v, .powerReqStandby m v, .powerReqRetain m v, .powerReqDormant m v, .powerReqOff m v] →
    s.admits m PWR_REQ.off v = true → s.pwr.off = false →
    (s.flag PWR_STAT.MOVING = true → Runs c s fun t =>
      t.flag PWR_STAT.PEND = true ∧ t.fget PWR_STAT.PEND_TGT = PWR_REQ.TARGET.of v ∧
      t.flag PWR_STAT.REPLACED = (s.flag PWR_STAT.REPLACED || s.flag PWR_STAT.PEND) ∧
      t = { s with regs := t.regs, pwr := { s.pwr with pendMaster := m.toNat, pendForce := decide (PWR_REQ.FORCE.of v = 1) } } ∧
      ∀ o, o ≠ PWR_STAT.off → t.reg o = s.reg o) ∧
    (s.flag PWR_STAT.MOVING = false → s.fget PWR_STAT.STATE ≠ PWR_REQ.TARGET.of v → s.flag FLT_STAT.GRAVE = false →
      s.flag HUB_RST_STAT.HUB_OOS = false →
      (moveAllowed (s.fget PWR_STAT.STATE) (PWR_REQ.TARGET.of v) = false → Runs c s fun t =>
        t.fget PWR_STAT.REFUSED = 2 ∧ t = { s with regs := t.regs, out := t.out } ∧
        ∀ o, o ≠ PWR_STAT.off → o ≠ HUB_PCIE_IRQ.off → t.reg o = s.reg o) ∧
      (moveAllowed (s.fget PWR_STAT.STATE) (PWR_REQ.TARGET.of v) = true → s.fget PWR_STAT.STATE ≤ 1 →
        PWR_REQ.FORCE.of v = 0 → s.slicesBusy = true → Runs c s fun t =>
        t.fget PWR_STAT.REFUSED = 1 ∧ t = { s with regs := t.regs, out := t.out } ∧
        ∀ o, o ≠ PWR_STAT.off → o ≠ HUB_PCIE_IRQ.off → t.reg o = s.reg o) ∧
      (s.fget PWR_STAT.STATE = 0 → 1 ≤ PWR_REQ.TARGET.of v → PWR_REQ.TARGET.of v ≤ 4 →
        (PWR_REQ.FORCE.of v = 1 ∨ s.slicesBusy = false) → s.resetBusy = false → Runs c s fun t =>
        t.flag PWR_STAT.MOVING = true ∧ t.fget PWR_STAT.TO = PWR_REQ.TARGET.of v ∧ t.fget PWR_STAT.MASTER = m.toNat ∧
        t.fget PWR_STAT.REFUSED = 0 ∧ t.host.closed = true ∧
        ∀ p, p < 16 → s.dieDown p = false → (t.pt p).closed = true) ∧
      (s.fget PWR_STAT.STATE = 1 → PWR_REQ.TARGET.of v = 0 → (PWR_REQ.FORCE.of v = 1 ∨ s.slicesBusy = false) →
        s.pwr.sbyAt + msUnits 5 ≤ s.now → s.resetBusy = false → Runs c s fun t =>
        t.flag PWR_STAT.MOVING = true ∧ t.fget PWR_STAT.TO = 0 ∧ t.fget PWR_STAT.MASTER = m.toNat ∧
        t = { s with regs := t.regs, pwr := { s.pwr with fromTgt := 1 } } ∧ ∀ o, o ≠ PWR_STAT.off → t.reg o = s.reg o))

/-- A transition to ACTIVE or STANDBY whose drains are over reaches its state, with MOVING clear and the entry
counted. After 5 ms in STANDBY the pending request is taken up. An address match in RETAIN or DORMANT, and a request
for ACTIVE there, begins a wake from time 0. The first row of the wake table is done at its offset. A wake that misses
a deadline goes on as a start from step 3, with FAIL set. (R396, R397, R398, R399, R400, R401). -/
def Obligations.PowerTransitions : Prop :=
  ∀ s : State,
    (s.flag PWR_STAT.MOVING = true → s.fget PWR_STAT.TO ≤ 1 → s.fget PWR_STAT.STATE ≤ 1 → s.modDrained = true →
      s.rst.modWait = false → s.rst.later = [] → s.flag PWR_STAT.PEND = false → Runs .transitionComplete s fun t =>
        t.flag PWR_STAT.MOVING = false ∧ t.fget PWR_STAT.STATE = s.fget PWR_STAT.TO ∧ t.pwr.stateAt = s.now ∧
        t.core = s.core ∧ t.mem = s.mem ∧ (s.fget PWR_STAT.TO = 1 → t.pwr.sbyAt = s.now ∧ t.host.closed = false)) ∧
    (s.fget PWR_STAT.STATE = 1 → s.flag PWR_STAT.PEND = true → s.flag PWR_STAT.MOVING = false → s.resetBusy = false →
      s.pwr.sbyAt + msUnits 5 ≤ s.now → s.fget PWR_STAT.PEND_TGT = 0 → s.pwr.off = false → s.flag FLT_STAT.GRAVE = false →
      s.flag HUB_RST_STAT.HUB_OOS = false → s.slicesBusy = false → Runs .standbyMinimum s fun t =>
        t.flag PWR_STAT.PEND = false ∧ t.flag PWR_STAT.MOVING = true ∧ t.fget PWR_STAT.TO = 0 ∧
        t = { s with regs := t.regs, pwr := { s.pwr with fromTgt := 1 } }) ∧
    (s.pwr.off = false → s.flag PWR_STAT.MOVING = false → 2 ≤ s.fget PWR_STAT.STATE → s.fget PWR_STAT.STATE ≤ 3 →
      s.flag FLT_STAT.GRAVE = false → s.flag HUB_RST_STAT.HUB_OOS = false → s.resetBusy = false → s.pwr.mainGood = true →
      s.flag PWR_STAT.LP_VALID = true → Runs .addressMatch s fun t =>
        t.flag PWR_STAT.MOVING = true ∧ t.fget PWR_STAT.TO = 0 ∧ t.pwr.wakeAt = some s.now ∧ t.pwr.wakeRow = 0 ∧
        t.pwr.fromTgt = s.fget PWR_STAT.STATE ∧ t = { s with regs := t.regs, pwr := t.pwr } ∧
        ∀ o, o ≠ PWR_STAT.off → o ≠ PWR_WAKE.off → t.reg o = s.reg o) ∧
    (∀ u, s.waking = some u → s.pwr.wakeRow = 0 → u ≤ s.now → Runs .wakeRow s fun t =>
      t = { s with regs := t.regs, pwr := { s.pwr with wakeRow := 1 } } ∧ OnlyRegs [PWR_WAKE.off] { s with pwr := t.pwr } t) ∧
    (∀ u r off lim, s.waking = some u → wakeTable[s.pwr.wakeRow]? = some (off, lim, r) → u + usUnits (100 * lim) < s.now →
      s.flag HUB_RST_STAT.HUB_OOS = false → s.fuses.intact = true → s.flag FLT_STAT.GRAVE = false →
      Runs .wakeDeadlineMiss s fun t =>
        t.flag PWR_WAKE.FAIL = true ∧ t.pwr.wakeRow = 16 ∧ t.pwr.stage = 5 ∧ t.pwr.image = [] ∧ t.core = s.core)

/-- Loss of 12V_AUX leaves OFF, with the fuses, the NOR and the remap lists kept and every register at its Reset
value. Its return starts the always-on domain, samples the address and advances the power-cycle count, which begins
anew where its NOR object fails its tag and stays 0 without a readable NOR. The main input's return starts the boot
ROM where the module waits for it; its loss, and an overvoltage, in ACTIVE or STANDBY loses the main-fed domains and
LPDDR5 and rests the module as DORMANT. A supply below the reset level in ACTIVE is counted and asks for a module
reset. (R379, R380, R381, R403, R404, R449, R460). -/
def Obligations.SupplyEvents : Prop :=
  ∀ s : State,
    (s.pwr.off = false → Runs .auxLoss s fun t =>
      t.pwr.off = true ∧ t.regs = [] ∧ t.nor = s.nor ∧ t.mem = [] ∧ t.core = [] ∧ t.ctx = [] ∧ t.evr = [] ∧
      ∀ p, p < 16 → (t.pt p).retired = (s.pt p).retired ∧ (t.pt p).oos = (s.pt p).oos ∧ (t.pt p).owner = none) ∧
    (∀ a : BitVec 3, s.pwr.off = true → Runs (.auxPowerOn a) s fun t =>
      t.pwr.off = false ∧ t.pwr.stage = 1 ∧ t.smb.addr = a ∧
      t.nor.cycles = (if s.nor.readable = false then 0 else if s.nor.failed.contains 1 = true then 1
        else (s.nor.cycles + 1) % 2 ^ 32) ∧ t.core = s.core) ∧
    (s.pwr.off = false → s.pwr.mainGood = false → s.fget PWR_STAT.STATE ≤ 1 → s.pwr.stage = 1 →
      s.flag HUB_RST_STAT.HUB_OOS = false → s.fuses.intact = true → s.flag FLT_STAT.GRAVE = false →
      Runs .mainInputGood s fun t =>
        t.pwr.mainGood = true ∧ t.pwr.stage = 5 ∧ t.sec.waitAt = s.now ∧
        ∀ p, p < 4 → t.flag (LNK_CTL.EN p) = true ∧ t.fget (LNK_STAT.STATE p) = 1) ∧
    (∀ c, c ∈ [Instr.mainInputLoss, .mainOvervoltage] → s.pwr.off = false → s.pwr.mainGood = true →
      s.fget PWR_STAT.STATE ≤ 1 → s.flag PWR_STAT.MOVING = false → s.flag PWR_STAT.PEND = false → Runs c s fun t =>
        t.pwr.mainGood = false ∧ t.fget PWR_STAT.STATE = 3 ∧ t.mem = [] ∧ t.memBad = [] ∧ t.flag PWR_STAT.LP_VALID = false ∧
        t.pwr.stage = 1 ∧ t.ctx = [] ∧ t.nor = s.nor) ∧
    (∀ vin : BitVec 10, s.pwr.off = false → vin.toNat < 380 → s.fget PWR_STAT.STATE ≤ 1 → s.hubUp = true →
      s.rst.modWait = false → Runs (.supplyResetLevel vin) s fun t =>
        t.rst.modWait = true ∧ t.pwr.mainGood = false ∧ t.fget PWR_VIN.NOW = vin.toNat ∧
        t.fget PWR_EVT.SUPPLY_RESETS = min 255 (s.fget PWR_EVT.SUPPLY_RESETS + 1))

/-- While the boot ROM waits, an admitted GO checks the staged image: a refused one leaves its reason in REFUSED,
after an accepted one LPDDR5 training begins. Sixty seconds without an image set WAITED once. Trained channels leave
self refresh. A wave enables two partitions. (R381, R382, R383, R443, R444, R445). -/
def Obligations.StartUp : Prop :=
  ∀ s : State,
    (∀ (m : Master) (v : Word), s.admits m SEC_FW_CMD.off v = true → SEC_FW_CMD.GO.of v = 1 → s.pwr.stage = 5 →
      ∀ why, s.fwCheck ((List.range (s.fget SEC_FW_LEN.LEN)).map (Store.get byteZero s.sec.staging)) = why →
      (why ≠ 0 → Runs (.firmwareGo m v) s fun t =>
        t.fget SEC_FW_STAT.REFUSED = why ∧ t.fget SEC_FW_STAT.PHASE = 0 ∧ t.pwr = s.pwr ∧ t.core = s.core) ∧
      (why = 0 → Runs (.firmwareGo m v) s fun t =>
        t.pwr.stage = 6 ∧ t.pwr.training = true ∧ t.fget SEC_FW_STAT.PHASE = 3 ∧ t.core = s.core ∧ t.mem = s.mem)) ∧
    (s.pwr.stage = 5 → s.sec.waitAt + sUnits 60 ≤ s.now → s.flag SEC_FW_STAT.WAITED = false →
      Runs .firmwareWaitTimeout s fun t =>
        t.flag SEC_FW_STAT.WAITED = true ∧ t = { s with regs := t.regs, evr := t.evr }) ∧
    (s.pwr.training = true → Runs .lpddr5TrainingDone s fun t =>
      t.pwr.training = false ∧ t.pwr.stage = 7 ∧ t.pwr.waves = 0 ∧
      (∀ p, p < 16 → t.fget (PRT_MEM_STAT.TRAINED p) = 0xFF) ∧
      (∀ k, k < 128 → (t.ch k).selfRef = false ∧ (t.ch k).slotAt = s.now) ∧
      t = { s with regs := t.regs, chan := t.chan, pwr := t.pwr, nor := { s.nor with calib := t.nor.calib } }) ∧
    (∀ failed : List CoreId, s.pwr.stage = 7 → s.fwRuns = true → s.waking = none → s.pwr.waves < 7 →
      (s.pwr.waves = 0 ∨ s.pwr.waveAt + msUnits 60 ≤ s.now) → (s.pt (2 * s.pwr.waves)).held = false →
      (s.pt (2 * s.pwr.waves + 1)).held = false → Runs (.computeWave failed) s fun t =>
        t.pwr = { s.pwr with waves := s.pwr.waves + 1, waveAt := s.now } ∧
        t.flag (PRT_ID.POWERED (2 * s.pwr.waves)) = true ∧ t.flag (PRT_ID.POWERED (2 * s.pwr.waves + 1)) = true ∧
        (∀ c ∈ failed, c.part.val = 2 * s.pwr.waves → .core c.clus c.core ∈ (t.pt c.part.val).waiting) ∧
        t = { s with regs := t.regs, core := t.core, part := t.part, pwr := t.pwr })

/-- Readings enter their registers. A die at the warning level sets WARN_ACT, counts an event and asks for a stretch,
once for the episode; ten milliseconds after every die is 5 K below it the warning ends. A die at 110 °C sets TRIP
with the first die's number; a leak sets the latch of its place; an overcurrent switches its rail off: each while the
hub is unpowered latches GRAVE, with the first code kept, and holds FAULT_N low. A lost reference puts the tick master
into holdover without a lock. (R67, R465, R466, R467, R468, R469). -/
def Obligations.SensorsAndTrips : Prop :=
  ∀ s : State,
    (∀ r : Readings, s.hubUp = true → s.flag HUB_THERM_STAT.WARN_ACT = false → Runs (.sensorUpdate r) s fun t =>
      t.fget HUB_COOL.INLET = r.inlet.toNat ∧ t.fget HUB_COOL.OUTLET = r.outlet.toNat ∧ t.fget PWR_VIN.NOW = r.vin.toNat ∧
      t.fget PWR_PIN.NOW = r.watts.toNat ∧ t.fget HUB_AUX.AUX_V = r.auxV.toNat ∧ t.fget HUB_AUX.AUX_P = r.auxP.toNat ∧
      t.fget HUB_THERM_STAT.HOT_DIE = (hottest 0 (r.dies.take 21)).1 % 32 ∧ t = { s with regs := t.regs }) ∧
    (∀ (d : Fin 21) (x : BitVec 8), s.hubUp = true → s.flag HUB_THERM_STAT.WARN_ACT = false →
      (s.fget HUB_THERM_CTL.WARN : Int) ≤ x.toInt → Runs (.thermalWarning d x) s fun t =>
        t.flag HUB_THERM_STAT.WARN_ACT = true ∧ t.tick.reqTherm = true ∧ t.tick.steps.testBit 2 = true ∧
        t.pwr = { s.pwr with therm := none } ∧ t.core = s.core ∧ t.mem = s.mem) ∧
    (∀ u, s.pwr.therm = some u → s.flag HUB_THERM_STAT.WARN_ACT = true → u + msUnits 10 ≤ s.now → Runs .thermalWithdraw s fun t =>
      t.flag HUB_THERM_STAT.WARN_ACT = false ∧ t.pwr = { s.pwr with therm := none } ∧
      t = { s with regs := t.regs, tick := t.tick, pwr := t.pwr }) ∧
    (s.pwr.off = false → s.hubUp = false →
      (∀ (d : Fin 21) (x : BitVec 8), 110 ≤ x.toInt → Runs (.thermalTrip d x) s fun t =>
        t.flag HUB_THERM_STAT.TRIP = true ∧ (s.flag HUB_THERM_STAT.TRIP = false → t.fget HUB_THERM_STAT.TRIP_DIE = d.val) ∧
        t.flag FLT_STAT.GRAVE = true ∧ (s.flag FLT_STAT.GRAVE = false → t.fget FLT_STAT.GRAVE_CODE = 0x0A04) ∧
        t.pins.faultN = true ∧ t.smb.causes.getLsbD 1 = true) ∧
      (∀ src : LeakSrc, Runs (.leak src) s fun t =>
        (src = .pin → t.flag HUB_THERM_STAT.LEAK_IN = true) ∧ (src = .cable → t.flag HUB_THERM_STAT.LEAK_INT = true) ∧
        t.flag FLT_STAT.GRAVE = true ∧ (s.flag FLT_STAT.GRAVE = false → t.fget FLT_STAT.GRAVE_CODE = 0x0A05) ∧
        t.pins.faultN = true ∧ t.smb.causes.getLsbD 1 = true) ∧
      (∀ rail : BitVec 16, Runs (.railOvercurrent rail) s fun t =>
        rail.toNat ∈ t.pwr.railsOff ∧ t.flag FLT_STAT.GRAVE = true ∧
        (s.flag FLT_STAT.GRAVE = false → t.fget FLT_STAT.GRAVE_CODE = 0x0A06) ∧ t.pins.faultN = true)) ∧
    (Runs .sysclkLoss s fun t =>
      t.pins.sysclk = false ∧ t.flag TCK_SYNC_STAT.HOLDOVER = true ∧ t.flag TCK_SYNC_STAT.LOCKED = false ∧
      t.fget TCK_SYNC_STAT.ACT_PARENT = 15 ∧ t.tick.holdover ≠ none)

/-- An admitted GO checks the staged block in the order of R439 and shows the command and the status; a refused
command has no other effect on keys, records or the NOR, and a command while another is in progress is refused with
BUSY. An accepted command that writes the NOR is in progress until its write is committed, and then has its effect.
CLEAR_EVR takes effect at once: EVR_BASE takes the head as it stands after the parity hits of the staged block. (R439,
R440, R441, R449, R450). -/
def Obligations.AuthorisedCommands : Prop :=
  ∀ s : State,
    (∀ (m : Master) (v : Word) (c : Instr),
      c ∈ [.clearEvr m v, .clearRemap m v, .enroll m v, .revoke m v, .raiseSvn m v] →
      s.admits m SEC_AUTH_CMD.off v = true → SEC_AUTH_CMD.GO.of v = 1 →
      (s.sec.auth.isSome = true → Runs c s fun t =>
        t.fget SEC_AUTH_STAT.STATUS = 1 ∧ t.fget SEC_AUTH_STAT.CMD = leAt s.authBlock 4 2 % 256 ∧ t.nor = s.nor ∧ t.sec = s.sec) ∧
      (∀ st, s.sec.auth = none → (s.authCheck s.authBlock).1 = st → st ≠ 0 → Runs c s fun t =>
        t.fget SEC_AUTH_STAT.STATUS = st ∧ t.fget SEC_AUTH_STAT.CMD = leAt s.authBlock 4 2 % 256 ∧ t.nor = s.nor ∧ t.sec = s.sec) ∧
      (∀ cmd, s.sec.auth = none → (s.authCheck s.authBlock).1 = 0 → leAt s.authBlock 4 2 = cmd →
        (cmd ≠ 1 → Runs c s fun t =>
          t.fget SEC_AUTH_STAT.STATUS = 0 ∧ t.fget SEC_AUTH_STAT.CMD = cmd % 256 ∧ t.flag SEC_AUTH_STAT.BUSY = true ∧
          t.sec = { s.sec with auth := some (cmd, slice s.authBlock 48 64) } ∧ t.nor = s.nor) ∧
        (cmd = 1 → Runs c s fun t =>
          t.fget SEC_AUTH_STAT.STATUS = 0 ∧ t.fget SEC_AUTH_STAT.CMD = 1 ∧
          t.fget EVR_BASE.BASE = s.authHits.fget EVR_HEAD.HEAD ∧ t.sec = s.sec ∧ t.nor = s.nor))) ∧
    (∀ arg, s.sec.auth = some (2, arg) → Runs (.norCommit true) s fun t =>
      (∀ p ∈ remapParts arg, p ∈ t.nor.remapClr) ∧ t.sec.auth = none ∧ t.flag SEC_AUTH_STAT.BUSY = false ∧
      t.nor.keys = s.nor.keys ∧ t.nor.svn = s.nor.svn) ∧
    (∀ arg i, s.sec.auth = some (3, arg) → s.freeKey = some i → Runs (.norCommit true) s fun t =>
      t.nor.keys = Store.insert s.nor.keys i (leAt arg 0 1, slice arg 32 32) ∧ t.sec.auth = none ∧
      t.flag SEC_AUTH_STAT.BUSY = false ∧ t.nor.svn = s.nor.svn) ∧
    (∀ arg, s.sec.auth = some (4, arg) → Runs (.norCommit true) s fun t =>
      t.nor.keys = Store.erase s.nor.keys (leAt arg 0 1) ∧ t.sec.auth = none ∧ t.flag SEC_AUTH_STAT.BUSY = false) ∧
    (∀ arg, s.sec.auth = some (5, arg) → Runs (.norCommit true) s fun t =>
      t.nor.svn = max s.nor.svn (leAt arg 0 2) ∧ t.nor.keys = s.nor.keys ∧ t.sec.auth = none ∧
      t.flag SEC_AUTH_STAT.BUSY = false) ∧
    (∀ a, s.sec.auth = some a → Runs (.norCommit false) s fun t => t.sec.auth = some a ∧ t.nor = s.nor) ∧
    (s.pwr.off = false → s.nor.readable = true → s.pwr.savedAt + sUnits 600 ≤ s.now → Runs .counterSave s fun t =>
      t = { s with nor := { s.nor with opsec := s.opsec }, pwr := { s.pwr with savedAt := s.now } })

/-- With firmware running, a request joins the queue behind the others; DOE_ABORT removes the first request of its
path; a signature serves the oldest request, whose response leaves on DOE or becomes ready on SMBus. START answers
status 1 and drops the response before it; FETCH answers the status, and while a response is ready 240 bytes of it
from the offset. (R447, R448). -/
def Obligations.Attestation : Prop :=
  ∀ s : State,
    (∀ (sel : BitVec 16) (nonce : BitVec 256), s.fwRuns = true → s.host.linkUp = true → Runs (.doeRequest sel nonce) s fun t =>
      t = { s with att := { s.att with queue := s.att.queue ++ [⟨0, sel.toNat, leBytes 32 nonce.toNat, none⟩] } }) ∧
    (∀ r, s.att.queue.find? (fun r => r.path = 0) = some r → Runs .doeAbort s fun t =>
      t = { s with att := { s.att with queue := s.att.queue.erase r } }) ∧
    (∀ r rest, s.att.queue = r :: rest →
      (r.path = 0 → Runs .attestationSigned s fun t =>
        t = { s with att := { s.att with queue := rest }, out := s.out ++ [.doe (s.attResponse r.sel r.nonce)] }) ∧
      (r.path = 1 → Runs .attestationSigned s fun t =>
        t = { s with att := { queue := rest, smb := some (s.attResponse r.sel r.nonce) } })) ∧
    (∀ (sel : BitVec 16) (nonce : BitVec 256), s.smbFull = true → s.fwRuns = true → Runs (.attestStart sel nonce) s fun t =>
      t = { s with att := { queue := s.att.queue ++ [⟨1, sel.toNat, leBytes 32 nonce.toNat, none⟩], smb := none },
                   out := s.out ++ [.smbus 0x50 (some [1])] }) ∧
    (∀ off : Word, s.smbFull = true → s.fwRuns = true →
      (∀ b, s.attSigning = false → s.att.smb = some b → Runs (.attestFetch off) s fun t =>
        t = { s with out := s.out ++ [.smbus 0x50 (some (0 :: padTo 240 0 ((b.drop off.toNat).take 240)))] }) ∧
      (s.attSigning = true → Runs (.attestFetch off) s fun t =>
        t = { s with out := s.out ++ [.smbus 0x50 (some (1 :: List.replicate 240 0))] }) ∧
      (s.attSigning = false → s.att.smb = none → Runs (.attestFetch off) s fun t =>
        t = { s with out := s.out ++ [.smbus 0x50 (some (2 :: List.replicate 240 0))] }))

/-- In full service each read answers the contents of Table 7 and changes nothing else; a read of the Alert Response
Address by a module that drives the pin answers its address and announces its enabled causes. MBX_RECV answers RX_HEAD
and the oldest message, which is popped. (R418, R419, R438). -/
def Obligations.SmbusReads : Prop :=
  ∀ s : State, s.smbFull = true →
    (Runs .smbusIdent s fun t => t = s.emit (.smbus 0x01 (some s.smbIdent))) ∧
    (Runs .status s fun t => t = s.emit (.smbus 0x02 (some (leBytes 2 s.smbStatus)))) ∧
    (Runs .alertCause s fun t => t = s.emit (.smbus 0x03 (some (leBytes 2 s.smb.causes.toNat)))) ∧
    (Runs (.alertEn none) s fun t => t = s.emit (.smbus 0x05 (some (leBytes 2 s.smb.enables.toNat)))) ∧
    (Runs (.warnLevel none) s fun t => t = s.emit (.smbus 0x14 (some (leBytes 2 (s.fget PWR_WARN.WARN))))) ∧
    (Runs .sensors s fun t => t = s.emit (.smbus 0x20 (some s.smbSensors))) ∧
    (Runs .faults s fun t => t = s.emit (.smbus 0x21 (some s.smbFaults))) ∧
    (∀ (first : Word) (n : Byte), 1 ≤ n.toNat → n.toNat ≤ 7 → Runs (.evrRead first n) s fun t =>
      t = s.emit (.smbus 0x30 (some (leBytes 4 (s.fget EVR_HEAD.HEAD) ++
        (List.range n.toNat).flatMap (fun i => s.evrBytes (first.toNat + i)))))) ∧
    (s.pins.alertN = true → Runs .alertResponse s fun t =>
      t.out = s.out ++ [.smbus 0x0C (some [BitVec.ofNat 8 (0x58 + s.smb.addr.toNat)])] ∧
      t.smb = { s.smb with announced := s.smb.announced ||| (s.smb.causes &&& s.smb.enables) } ∧
      t = { s with out := t.out, smb := t.smb, pins := { s.pins with alertN := t.pins.alertN } } ∧
      (s.fget PWR_STAT.STATE < 2 → t.pins.alertN = false)) ∧
    (∀ c : Byte, s.fwRuns = true → s.mayRecv 1 c.toNat = true → (s.mb c.toNat).head1 = (s.mb c.toNat).head2 →
      (s.mb c.toNat).tail1 = (s.mb c.toNat).tail2 → Runs (.mbxRecv c) s fun t =>
        t.out = s.out ++ [.smbus 0x41 (some (leBytes 4 (s.rxHead c.toNat).toNat ++ bytesOf (s.rxWords c.toNat)))] ∧
        (t.mb c.toNat).queue = (s.mb c.toNat).queue.tail ∧ (∀ d, d ≠ c.toNat → t.mb d = s.mb d) ∧
        t = { s with out := t.out, mbx := t.mbx })

/-- In full service ALERT_CLR clears the causes named; ALERT_EN stores the enables, of which 0 to 3 cannot be cleared
while a power cycle is requested or GRAVE is latched; WARN_LEVEL stores the level within 400 to 460; MODULE_RESET with
its code asks for a module reset and with any other value has no effect; RESET_NOTIFY advances the generation of
master 0x01; MBX_SEND queues the message on a channel it may send on; POWER_REQ during a transition is kept as
pending. (R357, R374, R392, R402, R418, R419, R422). -/
def Obligations.SmbusWrites : Prop :=
  ∀ s : State, s.smbFull = true →
    (∀ v : BitVec 16, Runs (.alertClr v) s fun t =>
      t.smb = { s.smb with causes := s.smb.causes &&& ~~~ v, announced := s.smb.announced &&& ~~~ v } ∧
      t.out = s.out ++ [.smbus 0x04 (some [])] ∧
      t = { s with out := t.out, smb := t.smb, pins := { s.pins with alertN := t.pins.alertN } }) ∧
    (∀ v : BitVec 16, Runs (.alertEn (some v)) s fun t =>
      (∀ i, i < 16 → t.smb.enables.getLsbD i = ((v.getLsbD i && decide (i < 6)) ||
        (decide (i < 4) && (s.flag HUB_RST_STAT.PWR_CYCLE_REQ || s.flag FLT_STAT.GRAVE)))) ∧
      t.smb.causes = s.smb.causes ∧ t.out = s.out ++ [.smbus 0x05 (some [])] ∧
      t = { s with out := t.out, smb := t.smb, pins := { s.pins with alertN := t.pins.alertN } }) ∧
    (∀ v : Byte, s.flag PWR_STAT.MOVING = true → s.pwr.off = false → Runs (.powerReq v) s fun t =>
      t.flag PWR_STAT.PEND = true ∧ t.fget PWR_STAT.PEND_TGT = v.toNat % 8 ∧ t.pwr.pendMaster = 1 ∧
      t.out = s.out ++ [.smbus 0x10 (some [])]) ∧
    (s.rst.modWait = false → Runs (.smbusModuleReset 0x4D52) s fun t =>
      t.rst.modWait = true ∧ t.out = s.out ++ [.smbus 0x11 (some [])]) ∧
    (∀ v : BitVec 16, v ≠ 0x4D52 → Runs (.smbusModuleReset v) s fun t => t = s.emit (.smbus 0x11 (some []))) ∧
    (Runs .resetNotify s fun t => t.mgen 1 = (s.mgen 1 + 1) % 256 ∧ ∀ m, m < 256 → m ≠ 1 → t.mgen m = s.mgen m) ∧
    (∀ v : BitVec 16, Runs (.warnLevel (some v)) s fun t =>
      t.fget PWR_WARN.WARN = min 460 (max 400 (v.toNat % 1024)) ∧ t.out = s.out ++ [.smbus 0x14 (some [])] ∧
      t = { s with regs := t.regs, out := t.out } ∧ ∀ o, o ≠ PWR_WARN.off → t.reg o = s.reg o) ∧
    (∀ (c : Byte) (data : List Byte), data.length = 64 → s.fwRuns = true → s.maySend 1 c.toNat = true →
      s.inReset (s.chanRecv c.toNat) = false → (s.mb c.toNat).head1 = (s.mb c.toNat).head2 →
      (s.mb c.toNat).tail1 = (s.mb c.toNat).tail2 → (s.mb c.toNat).queue.length < s.chanDepth c.toNat →
      Runs (.mbxSend c data) s fun t =>
        (∃ x, (t.mb c.toNat).queue = (s.mb c.toNat).queue ++ [x] ∧ x.words = wordsOf 16 data ∧
          x.sgen = BitVec.ofNat 8 (s.mgen (s.chanSender c.toNat))) ∧ ∀ d, d ≠ c.toNat → t.mb d = s.mb d)

/-- A word staged in the window of a channel that the master sends on is held in the staging buffer; word 15 posts the
sixteen words behind the others while the queue has room, and over the newest message of a full queue with COLLISION.
A pop by the receiver takes the oldest message. A message unread for TMO sets TIMEOUT once. Master 0x00 locks valid
bindings. A doorbell's ringer sets bits of its pending word. (R420, R421, R422, R423, R424, R425, R430). -/
def Obligations.Mailboxes : Prop :=
  ∀ s : State, s.hubUp = true →
    (∀ (m : Master) (c : Fin 256) (w : Fin 15) (v : Word), s.mbxShut m.toNat = false → s.maySend m c.val = true →
      Runs (.mbxStage m c w v) s fun t =>
        t.mb c.val = { s.mb c.val with stage := (s.mb c.val).stage.set w.val v } ∧ (∀ d, d ≠ c.val → t.mb d = s.mb d) ∧
        t = { s with mbx := t.mbx }) ∧
    (∀ (m : Master) (c : Fin 256) (v : Word), s.mbxShut m.toNat = false → s.maySend m c.val = true →
      s.inReset (s.chanRecv c.val) = false → (s.mb c.val).head1 = (s.mb c.val).head2 →
      (s.mb c.val).tail1 = (s.mb c.val).tail2 → Runs (.post m c v) s fun t =>
        (t.mb c.val).stage = List.replicate 16 0 ∧
        (∃ x, x.words = (s.mb c.val).stage.set 15 v ∧ x.sgen = BitVec.ofNat 8 (s.mgen (s.chanSender c.val)) ∧
          (t.mb c.val).queue = (if (s.mb c.val).queue.length < s.chanDepth c.val then (s.mb c.val).queue
            else (s.mb c.val).queue.dropLast) ++ [x]) ∧
        (s.chanDepth c.val ≤ (s.mb c.val).queue.length → t.flag (MBX_STAT.COLLISION c.val) = true) ∧
        (∀ d, d ≠ c.val → t.mb d = s.mb d) ∧ t.core = s.core ∧ t.mem = s.mem) ∧
    (∀ (m : Master) (c : Fin 256), s.mbxShut m.toNat = false → s.mayRecv m c.val = true →
      (s.mb c.val).head1 = (s.mb c.val).head2 → (s.mb c.val).tail1 = (s.mb c.val).tail2 → Runs (.pop m c) s fun t =>
        t.out = s.out ++ [.completion (.data (bytesOf (s.rxWords c.val)))] ∧
        (t.mb c.val).queue = (s.mb c.val).queue.tail ∧ (∀ d, d ≠ c.val → t.mb d = s.mb d) ∧
        t = { s with out := t.out, mbx := t.mbx }) ∧
    (∀ (c : Fin 256) q rest, (s.mb c.val).queue = q :: rest → s.chanOpen c.val = true → s.fget (MBX_BIND_W0.TMO c.val) ≠ 0 →
      q.timed = false → q.at_ + msUnits (s.fget (MBX_BIND_W0.TMO c.val)) ≤ s.now → Runs (.mbxTimeout c) s fun t =>
        t.flag (MBX_STAT.TIMEOUT c.val) = true ∧ (t.mb c.val).queue = { q with timed := true } :: rest ∧
        (∀ d, d ≠ c.val → t.mb d = s.mb d)) ∧
    (∀ v : Word, s.admits 0 MBX_CTL.off v = true → v.getLsbD 0 = true → s.bindOk = true → Runs (.mbxLock 0 v) s fun t =>
      t.flag MBX_CTL.LOCK = true ∧ OnlyRegs [MBX_CTL.off] s t) ∧
    (∀ (m : Master) (d : Fin 64) (v : Word), s.mbxShut m.toNat = false → s.mayRing m d.val = true →
      Runs (.dbRing m d v) s fun t =>
        t.reg (MBX_DB_PEND.off d.val) = s.reg (MBX_DB_PEND.off d.val) ||| v ∧ t.mbx = s.mbx ∧ t.core = s.core ∧
        ∀ o, o ≠ MBX_DB_PEND.off d.val → t.reg o = s.reg o)

/-- A request that is served waits for the end of its channel's calibration slot, then reads or writes the bytes of
LPDDR5 at its address and no other byte; a request outside the mapped space, the window or its rights is counted in
HUB_INTAKE_DROP, and a read then completes with Unsupported Request; a poisoned write is discarded, counted there and
logged. (R412, R413, R414, R415). -/
def Obligations.HostAccesses : Prop :=
  ∀ s : State, s.hostUp = true →
    (∀ (off : BitVec 36) (len : BitVec 13), 1 ≤ len.toNat →
      (mlaServed (s.bar2Mla off.toNat) len.toNat = true → s.barClosed (mlaPart (s.bar2Mla off.toNat)) = false →
        s.memBadIn (s.bar2Mla off.toNat) len.toNat = none → Runs (.bar2Read off len) s fun t =>
          t = { s.emit (.completion (.data (s.memRead (s.bar2Mla off.toNat) len.toNat))) with
            now := max s.now (s.chanFree (s.bar2Mla off.toNat)) }) ∧
      (mlaServed (s.bar2Mla off.toNat) len.toNat = false → Runs (.bar2Read off len) s fun t =>
        t.out = s.out ++ [.completion .unsupported] ∧ t.mem = s.mem ∧
        t.fget HUB_INTAKE_DROP.DROP = min (2 ^ HUB_INTAKE_DROP.DROP.width - 1) (s.fget HUB_INTAKE_DROP.DROP + 1))) ∧
    (∀ (off : BitVec 36) (data : List Byte),
      mlaServed (s.bar2Mla off.toNat) data.length = true → s.barClosed (mlaPart (s.bar2Mla off.toNat)) = false →
      Runs (.bar2Write off false data) s fun t =>
        (∀ a, t.memGet a = if s.bar2Mla off.toNat ≤ a ∧ a < s.bar2Mla off.toNat + data.length
          then data.getD (a - s.bar2Mla off.toNat) 0 else s.memGet a) ∧
        t = { s with mem := t.mem, memBad := t.memBad, eng := t.eng, now := max s.now (s.chanFree (s.bar2Mla off.toNat)) }) ∧
    (∀ (off : BitVec 36) (data : List Byte), Runs (.bar2Write off true data) s fun t =>
      t.fget HUB_INTAKE_DROP.DROP = min (2 ^ HUB_INTAKE_DROP.DROP.width - 1) (s.fget HUB_INTAKE_DROP.DROP + 1) ∧
      (2, .poisonedTlp) ∈ t.host.aer ∧ t.mem = s.mem ∧ t.memBad = s.memBad ∧ t.eng = s.eng ∧ t.core = s.core) ∧
    (∀ (m : Master) (off : BitVec 36) (len : BitVec 13),
      (∀ a, s.intakeMla m.toNat off.toNat len.toNat true = some a → s.barClosed (mlaPart a) = false →
        s.memBadIn a len.toNat = none → Runs (.intakeRead m off len) s fun t =>
          t = { s.emit (.completion (.data (s.memRead a len.toNat))) with now := max s.now (s.chanFree a) }) ∧
      (s.intakeMla m.toNat off.toNat len.toNat true = none → Runs (.intakeRead m off len) s fun t =>
        t.out = s.out ++ [.completion .unsupported] ∧ t.mem = s.mem)) ∧
    (∀ (m : Master) (off : BitVec 36) (data : List Byte),
      (∀ a, s.intakeMla m.toNat off.toNat data.length false = some a → s.barClosed (mlaPart a) = false →
        Runs (.intakeWrite m off false data) s fun t =>
          (∀ b, t.memGet b = if a ≤ b ∧ b < a + data.length then data.getD (b - a) 0 else s.memGet b) ∧
          t = { s with mem := t.mem, memBad := t.memBad, eng := t.eng, now := max s.now (s.chanFree a) }) ∧
      (s.intakeMla m.toNat off.toNat data.length false = none → Runs (.intakeWrite m off false data) s fun t =>
        t.mem = s.mem ∧ t.memBad = s.memBad ∧ t.core = s.core))

/-- A link comes up at the lower of the offered and the permitted rate. An uncorrectable error, and PERST_N asserted,
close the endpoint's sluice for an endpoint reset. A function level reset of PF0 or of one virtual function advances
that master's generation alone, and the function leaves D3hot. D3hot is entered and left. (R408, R415, R416, R425). -/
def Obligations.EndpointEvents : Prop :=
  ∀ s : State,
    (∀ (sp : BitVec 3) (w : BitVec 2), s.hubUp = true → s.pins.perstN = false → s.host.linkUp = false → s.host.drain = none →
      s.flag HUB_RST_STAT.PCIE_OOS = false → sp.toNat ≠ 0 → Runs (.pcieLinkUp sp w) s fun t =>
        t.host = { s.host with linkUp := true, closed := false, resetting := false } ∧
        t.fget HUB_PCIE_STAT.SPEED = min sp.toNat (s.fget HUB_PCIE_CTL.MAX_SPEED) ∧
        t.fget HUB_PCIE_STAT.WIDTH = min (min 2 w.toNat) (s.fget HUB_PCIE_CTL.MAX_WIDTH) ∧
        t = { s with regs := t.regs, host := t.host } ∧ ∀ o, o ≠ HUB_PCIE_STAT.off → t.reg o = s.reg o) ∧
    (∀ a : BitVec 16, s.hubUp = true → s.host.drain = none → s.host.resetting = false → Runs (.pcieUncorrectableError a) s fun t =>
      t.host.closed = true ∧ t.host.drain = some .endpoint ∧ t.host.drainAt = s.now ∧
      (2, .uncorrectable a) ∈ t.host.aer ∧ t.core = s.core ∧ t.mem = s.mem) ∧
    (∀ m : Master, s.hostUp = true → s.host.closed = false → isFunction m.toNat = true → m ≠ 3 → Runs (.flr m) s fun t =>
      t.mgen m.toNat = (s.mgen m.toNat + 1) % 256 ∧ (∀ k, k < 256 → k ≠ m.toNat → t.mgen k = s.mgen k) ∧ m.toNat ∉ t.host.d3hot ∧
      t.core = s.core ∧ t.mem = s.mem) ∧
    (s.hubUp = true → s.host.drain = none → s.host.resetting = false → Runs (.perstN .asserted) s fun t =>
      t.pins.perstN = true ∧ t.host.closed = true ∧ t.host.drain = some .endpoint ∧
      t = { s with pins := t.pins, host := t.host }) ∧
    (Runs (.perstN .released) s fun t => t = { s with pins := { s.pins with perstN := false } }) ∧
    (∀ m : Master, s.hostUp = true → isFunction m.toNat = true → Runs (.d3hotEntry m) s fun t =>
      m.toNat ∈ t.host.d3hot ∧ t = { s with host := { s.host with d3hot := t.host.d3hot } }) ∧
    (∀ m : Master, s.hostUp = true → Runs (.d3hotExit m) s fun t =>
      m.toNat ∉ t.host.d3hot ∧ (∀ k, k ≠ m.toNat → (k ∈ t.host.d3hot ↔ k ∈ s.host.d3hot)) ∧
      t = { s with host := { s.host with d3hot := t.host.d3hot } })

/-- An admitted whole-word write of a register of the recorder, security or rigging blocks without an effect of its
own stores each field by its access code and leaves every other register and the rest of the state. HUB_FEAT_FLOOR
takes a value not below the one it holds. LOCK of FAB_MGR_CTL and of RIG_CTL, once set, stands. PWR_CLK_SET takes the
step of 50 MHz at or below the value, within 500 and the fused clock, unless a rigging needs more. CLR_MEAS restarts
the supply measurements, and CLR_RES by master 0x00 zeroes the residency counters and entries. (R8, R9, R198, R337,
R388, R401, R407, R485). -/
def Obligations.RegisterWrites : Prop :=
  ∀ (s : State) (m : Master) (v : Word),
    (∀ (off : BitVec 26) (r : RegRow), off.toNat % 4 = 0 → regRow? off.toNat = some r →
      ((0x40000 ≤ off.toNat ∧ off.toNat < 0x50000 ∧ off.toNat ≠ EVR_PAGE.off) ∨
        (0x60000 ≤ off.toNat ∧ off.toNat < 0x70000 ∧ off.toNat ≠ SEC_FW_CMD.off ∧ off.toNat ≠ SEC_AUTH_CMD.off) ∨
        (0x80000 ≤ off.toNat ∧ off.toNat < 0xA0000 ∧ off.toNat ≠ RIG_CMD.off ∧ off.toNat ≠ RIG_CTL.off)) →
      s.admits m off.toNat v = true → Runs (.registerWrite m off 0xF v) s fun t =>
        (∀ f ∈ r.flds, bits (t.reg off.toNat).toNat f.hi f.lo =
          (let old := bits (s.reg off.toNat).toNat f.hi f.lo
           let new := bits v.toNat f.hi f.lo
           match f.acc with
           | .rw => new
           | .w1c => old - (old &&& new)
           | .w1s => old ||| new
           | _ => old)) ∧ OnlyRegs [off.toNat] s t) ∧
    (s.admits m HUB_FEAT_FLOOR.off v = true → s.fget HUB_FEAT_FLOOR.FLOOR ≤ HUB_FEAT_FLOOR.FLOOR.of v →
      Runs (.featFloorWrite m v) s fun t =>
        t.fget HUB_FEAT_FLOOR.FLOOR = HUB_FEAT_FLOOR.FLOOR.of v ∧ OnlyRegs [HUB_FEAT_FLOOR.off] s t) ∧
    (s.admits m HUB_FEAT_FLOOR.off v = true → HUB_FEAT_FLOOR.FLOOR.of v < s.fget HUB_FEAT_FLOOR.FLOOR →
      Runs (.featFloorWrite m v) s fun t => FaultOnly s t) ∧
    (s.admits m FAB_MGR_CTL.off v = true →
      (s.flag FAB_MGR_CTL.LOCK = true → FAB_MGR_CTL.MAN_REQ_SIG.of v = s.fget FAB_MGR_CTL.MAN_REQ_SIG) →
      Runs (.fabMgrLock m v) s fun t =>
        t.fget FAB_MGR_CTL.MAN_REQ_SIG = FAB_MGR_CTL.MAN_REQ_SIG.of v ∧
        t.fget FAB_MGR_CTL.DISC_TMO = max 1 (FAB_MGR_CTL.DISC_TMO.of v) ∧
        t.fget FAB_MGR_CTL.HB_LEAD = max 16 (FAB_MGR_CTL.HB_LEAD.of v) ∧
        t.flag FAB_MGR_CTL.LOCK = (s.flag FAB_MGR_CTL.LOCK || decide (FAB_MGR_CTL.LOCK.of v = 1)) ∧
        OnlyRegs [FAB_MGR_CTL.off] s t) ∧
    (s.admits m RIG_CTL.off v = true → (s.flag RIG_CTL.LOCK = true → RIG_CTL.REQ_SIG.of v = s.fget RIG_CTL.REQ_SIG) →
      Runs (.rigLock m v) s fun t =>
        t.fget RIG_CTL.REQ_SIG = RIG_CTL.REQ_SIG.of v ∧ t.fget RIG_CTL.WARM_EN = RIG_CTL.WARM_EN.of v ∧
        t.fget RIG_CTL.LEAD = max 16 (RIG_CTL.LEAD.of v) ∧ t.fget RIG_CTL.TMO = max 1 (RIG_CTL.TMO.of v) ∧
        t.flag RIG_CTL.LOCK = (s.flag RIG_CTL.LOCK || decide (RIG_CTL.LOCK.of v = 1)) ∧ OnlyRegs [RIG_CTL.off] s t) ∧
    (s.admits m PWR_CLK_SET.off v = true →
      let c := min s.fuses.clkFuse.toNat (max 500 (PWR_CLK_SET.CLK.of v))
      (s.clockLow (500 + (c - 500) / 50 * 50) = false → Runs (.clockSet m v) s fun t =>
        t.fget PWR_CLK_SET.CLK = 500 + (c - 500) / 50 * 50 ∧ OnlyRegs [PWR_CLK_SET.off] s t) ∧
      (s.clockLow (500 + (c - 500) / 50 * 50) = true → Runs (.clockSet m v) s fun t => FaultOnly s t)) ∧
    (s.admits m PWR_CTL.off v = true → PWR_CTL.CLR_MEAS.of v = 1 → PWR_CTL.CLR_RES.of v = 0 → Runs (.clrMeas m v) s fun t =>
      t.fget PWR_VIN.MIN = s.fget PWR_VIN.NOW ∧ t.fget PWR_PIN.MAX = s.fget PWR_PIN.NOW ∧
      OnlyRegs [PWR_VIN.off, PWR_PIN.off] s t) ∧
    (s.admits 0 PWR_CTL.off v = true → PWR_CTL.CLR_MEAS.of v = 0 → PWR_CTL.CLR_RES.of v = 1 → Runs (.clrRes 0 v) s fun t =>
      (∀ i, i < 4 → t.pair (PWR_RES_ACT_LO.off + 8 * i) = 0) ∧ t.reg PWR_ENTRIES.off = 0 ∧
      t = { s with regs := t.regs, snap0 := t.snap0, snap2 := t.snap2, pwr := { s.pwr with stateAt := s.now } } ∧
      ∀ o, ¬ (PWR_RES_ACT_LO.off ≤ o ∧ o < PWR_RES_ACT_LO.off + 32) → o ≠ PWR_ENTRIES.off → t.reg o = s.reg o)

/-- A write command whose master may not write the register, or which sets a reserved bit, and a write of less than a
word, leave every register but those of collector, recorder and interrupt causes, and every unit of the machine, as
they were; with room in its queue the collector holds a NOTE with code 0x0001, the register's offset and the master.
(R9, R70, R411, R476, R477). -/
def Obligations.TurnedAwayWrites : Prop :=
  ∀ (s : State) (m : Master) (v : Word),
    let turned (c : Instr) (off : Nat) : Prop := Runs c s fun t => FaultOnly s t ∧ t.flt.window = s.flt.window ∧
      (s.flt.queue.length < 1024 → ∃ e, t.flt.queue = s.flt.queue ++ [e] ∧ e.cls = 0 ∧ e.msg.code = 0x0001 ∧
        e.msg.addr = BitVec.ofNat 48 off ∧ e.msg.arg = BitVec.ofNat 16 m.toNat)
    (∀ x ∈ [(Instr.qPop m v, FLT_Q_POP.off), (.srcClr m v, FLT_SRC_CLR.off), (.release m v, FLT_FRZ_CMD.off),
        (.fltLock m v, FLT_CTL.off), (.force m v, FLT_FORCE.off), (.dumpStart m v, FLT_DUMP_CTL.off),
        (.featFloorWrite m v, HUB_FEAT_FLOOR.off), (.fabMgrLock m v, FAB_MGR_CTL.off), (.rigLock m v, RIG_CTL.off),
        (.clockSet m v, PWR_CLK_SET.off), (.clrMeas m v, PWR_CTL.off), (.clrRes m v, PWR_CTL.off),
        (.moduleReset m v, HUB_RST_CMD.off), (.sliceContextReset m v, HUB_RST_CMD.off), (.endpointReset m v, HUB_RST_CMD.off),
        (.powerCycleRequest m v, HUB_RST_CMD.off), (.wdtKick m v, HUB_RST_CTL.off), (.powerReqActive m v, PWR_REQ.off),
        (.powerReqStandby m v, PWR_REQ.off), (.powerReqRetain m v, PWR_REQ.off), (.powerReqDormant m v, PWR_REQ.off),
        (.powerReqOff m v, PWR_REQ.off), (.clearEvr m v, SEC_AUTH_CMD.off), (.clearRemap m v, SEC_AUTH_CMD.off),
        (.enroll m v, SEC_AUTH_CMD.off), (.revoke m v, SEC_AUTH_CMD.off), (.raiseSvn m v, SEC_AUTH_CMD.off),
        (.firmwareGo m v, SEC_FW_CMD.off), (.periodArm m v, TCK_CTL.off), (.tckSyncMaxClear m v, TCK_SYNC_MAX.off),
        (.mbxLock m v, MBX_CTL.off), (.swapArm m v, FAB_RT_CTL.off)],
      s.turnsAway m x.2 v = true → turned x.1 x.2) ∧
    (∀ p : PartId, ∀ c ∈ [Instr.coreReset m p v, .clusterReset m p v, .engineReset m p v, .partitionReset m p v,
        .remapCore m p v, .remapCluster m p v, .remapEngine m p v, .rotate m p v],
      s.turnsAway m (PRT_RST_CMD.off p.val) v = true → turned c (PRT_RST_CMD.off p.val)) ∧
    (∀ p : Port, ∀ c ∈ [Instr.portEnable m p v, .retrain m p v, .unpark m p v, .dataEn m p v],
      s.turnsAway m (LNK_CTL.off p.val) v = true → turned c (LNK_CTL.off p.val)) ∧
    (∀ n : Ctx, s.turnsAway m (TCK_SL_CTL.off n.val) v = true → turned (.sliceCmdArm m n v) (TCK_SL_CTL.off n.val)) ∧
    (∀ off : BitVec 26, off.toNat % 4 = 0 → off.toNat < 0x2000000 → isMbx off.toNat = false →
      s.turnsAway m off.toNat v = true → turned (.registerWrite m off 0xF v) off.toNat) ∧
    (∀ (off : BitVec 26) (be : BitVec 4), be ≠ 0xF → off.toNat % 4 = 0 → s.hubUp = true →
      (m = 2 → s.host.closed = false) → turned (.registerWrite m off be v) off.toNat)

/-- The hub's read of the low word of a read-only pair answers it and keeps the high word for the hub alone; a read of
the high word answers what was kept; every other read answers the register and changes nothing. The host's read of a
low word keeps the host's own copy. A read through PRT_IND_WIN answers the selected word; where the selection is
denied it answers 0 and sets DENIED, and without an answer, as from a die in reset or a position in bypass, it gives
all ones and sets NORESP. (R10, R478, R479, R488, R489). -/
def Obligations.RegisterReads : Prop :=
  ∀ s : State, s.hubUp = true →
    (∀ off : BitVec 26, off.toNat % 4 = 0 →
      (snapPair off.toNat = true → Runs (.snapshotRead 0 off) s fun t =>
        t.out = s.out ++ [.readData 0 off.toNat (s.view 0 off.toNat)] ∧
        Store.get (fun _ => 0) t.snap0 (off.toNat + 4) = s.view 0 (off.toNat + 4) ∧
        (∀ o, o ≠ off.toNat + 4 → Store.get (fun _ => 0) t.snap0 o = Store.get (fun _ => 0) s.snap0 o) ∧
        t = { s with out := t.out, snap0 := t.snap0 }) ∧
      (4 ≤ off.toNat → snapPair (off.toNat - 4) = true → Runs (.snapshotRead 0 off) s fun t =>
        t = s.emit (.readData 0 off.toNat (Store.get (fun _ => 0) s.snap0 off.toNat))) ∧
      (snapPair off.toNat = false → snapPair (off.toNat - 4) = false → isMbx off.toNat = false → off.toNat < 0x200000 →
        Runs (.snapshotRead 0 off) s fun t => t = s.emit (.readData 0 off.toNat (s.view 0 off.toNat))) ∧
      (snapPair off.toNat = true → off.toNat < 0x200000 → s.host.closed = false → s.mayRead true 2 off.toNat = true →
        Runs (.snapshotRead 2 off) s fun t =>
          t.out = s.out ++ [.readData 2 off.toNat (s.view 2 off.toNat)] ∧
          Store.get (fun _ => 0) t.snap2 (off.toNat + 4) = s.view 2 (off.toNat + 4) ∧
          t = { s with out := t.out, snap2 := t.snap2 })) ∧
    (∀ (p : PartId) (off : BitVec 12), off.toNat % 4 = 0 →
      (∀ a, s.indSel 0 p.val = none → Runs (.indirectRead 0 p off a) s fun t =>
        t.out = s.out ++ [.readData 0 (0x207000 + 0x10000 * p.val + off.toNat) 0] ∧ t.flag (PRT_IND_STAT.DENIED p.val) = true ∧
        t = { s with out := t.out, regs := t.regs } ∧ ∀ o, o ≠ PRT_IND_STAT.off p.val → t.reg o = s.reg o) ∧
      (∀ a, (s.indSel 0 p.val).isSome = true → a = .noResponse ∨ s.indMute 0 p.val = true → Runs (.indirectRead 0 p off a) s fun t =>
        t.out = s.out ++ [.readData 0 (0x207000 + 0x10000 * p.val + off.toNat) 0xFFFFFFFF] ∧
        t.flag (PRT_IND_STAT.NORESP p.val) = true ∧ t = { s with out := t.out, regs := t.regs } ∧
        ∀ o, o ≠ PRT_IND_STAT.off p.val → t.reg o = s.reg o) ∧
      (∀ l, s.indSel 0 p.val = some l → s.indMute 0 p.val = false → s.fget (PRT_IND_SEL.OBJ p.val) ≠ 3 →
        Runs (.indirectRead 0 p off .ok) s fun t =>
        t = s.emit (.readData 0 (0x207000 + 0x10000 * p.val + off.toNat)
          (BitVec.ofNat 32 (leAt l (4096 * s.fget (PRT_IND_OFF.PAGE p.val) + off.toNat) 4)))))

/-- A message that is not injected, with no incident open: a NOTE is queued and counted and signals nothing; the first
RECOVERED or DEGRADED message of a source opens a COUNTING entry and latches the fault vector; the message with which
the count reaches FLT_PROMO.COUNT is SEVERE, promotes the entry and pulls FAULT_N; a GRAVE message latches GRAVE with
its code, holds FAULT_N and asks every running slice to hold; a message by outcome of a partition whose slice is in
RUN or REPLAY waits for the boundary. (R338, R339, R340, R341, R342, R344, R417). -/
def Obligations.FaultMessages : Prop :=
  ∀ (s : State) (f : FaultMsg), s.hubUp = true → f.code.toNat ∈ faultCodes → s.staleMsg f = false → f.inj = false →
    s.flt.incidents = [] → s.flt.queue.length < 1024 →
    (faultBase f.code.toNat = some 0 → Runs (.faultMessage f) s fun t =>
      FaultOnly s t ∧ (∃ e, t.flt.queue = s.flt.queue ++ [e] ∧ e.msg = f ∧ e.cls = 0 ∧ e.stale = false) ∧
      t.fget (FLT_CNT.CNT 0) = min (2 ^ 32 - 1) (s.fget (FLT_CNT.CNT 0) + 1) ∧ t.flt.srcs = s.flt.srcs ∧
      t.flt.window = s.flt.window ∧ t.pins = s.pins ∧ t.smb = s.smb ∧ t.fget HUB_PCIE_IRQ.IRQ = s.fget HUB_PCIE_IRQ.IRQ) ∧
    (∀ c i, faultBase f.code.toNat = some c → 1 ≤ c → c ≤ 2 →
      s.srcExits.flt.srcs.find? (fun e => e.2.state ≠ 0 && e.2.cls = codeClass f.code.toNat && e.2.src = f.src) = none →
      firstBelow 512 (fun j => (s.srcExits.srcEnt j).state = 0) = some i → Runs (.faultMessage f) s fun t =>
        FaultOnly s t ∧ (∃ e, t.flt.queue = s.flt.queue ++ [e] ∧ e.msg = f ∧ e.cls = c) ∧
        t.srcEnt i = ⟨1, 1, codeClass f.code.toNat, f.src, s.now, s.now⟩ ∧
        t.fget (FLT_CNT.CNT c) = min (2 ^ 32 - 1) (s.fget (FLT_CNT.CNT c) + 1) ∧
        (t.fget HUB_PCIE_IRQ.IRQ).testBit 0 = true ∧ t.pins = s.pins ∧ t.smb = s.smb) ∧
    (∀ c i e, faultBase f.code.toNat = some c → 1 ≤ c → c ≤ 2 →
      s.srcExits.flt.srcs.find? (fun e => e.2.state ≠ 0 && e.2.cls = codeClass f.code.toNat && e.2.src = f.src) = some (i, e) →
      e.state = 1 → s.fget FLT_PROMO.COUNT ≤ e.count + 1 → Runs (.faultMessage f) s fun t =>
        FaultOnly s t ∧ (∃ e, t.flt.queue = s.flt.queue ++ [e] ∧ e.msg = f ∧ e.cls = 3) ∧
        (t.srcEnt i).state = 2 ∧ (t.srcEnt i).last = s.now ∧ t.pins.faultN = true ∧ t.flag FLT_PIN.PULSING = true ∧
        t.smb.causes.getLsbD 0 = true ∧ (t.fget HUB_PCIE_IRQ.IRQ).testBit 0 = true) ∧
    (faultBase f.code.toNat = some 4 → Runs (.faultMessage f) s fun t =>
      FaultOnly s t ∧ (∃ e, t.flt.queue = s.flt.queue ++ [e] ∧ e.msg = f ∧ e.cls = 4) ∧ t.flag FLT_STAT.GRAVE = true ∧
      t.fget FLT_STAT.GRAVE_CODE = (if s.flag FLT_STAT.GRAVE = true then s.fget FLT_STAT.GRAVE_CODE else f.code.toNat) ∧
      t.flag FLT_PIN.HELD = true ∧ t.pins.faultN = true ∧ t.smb.causes.getLsbD 1 = true ∧
      ∀ n, n < 16 → 2 ≤ s.slState n → s.slState n ≤ 4 → (t.cx n).holdNext = some 7) ∧
    (∀ n : Ctx, faultBase f.code.toNat = none → s.runningCtx (bits f.src.toNat 3 0) = some n →
      Runs (.faultMessage f) s fun t => t = { s with flt := { s.flt with held := s.flt.held ++ [(f, .tick n)] } })

/-- A message whose GEN differs from the current generation of its partition is queued as a NOTE with STALE set and
recorded; no source entry, signal, pin, latch, hold, incident or unit changes. (R345). -/
def Obligations.StaleMessages : Prop :=
  ∀ (s : State) (f : FaultMsg), s.hubUp = true → f.code.toNat ∈ faultCodes → codeInPart f.code.toNat = true →
    f.gen.toNat ≠ s.gen (bits f.src.toNat 3 0) → Runs (.faultMessage f) s fun t =>
      (s.flt.queue.length < 1024 →
        ∃ e, t.flt.queue = s.flt.queue ++ [e] ∧ e.msg = f ∧ e.cls = 0 ∧ e.stale = true ∧ e.held = false) ∧
      t = { s with regs := t.regs, evr := t.evr, flt := { s.flt with queue := t.flt.queue } } ∧
      ∀ o, o ∉ [EVR_HEAD.off, EVR_REPEAT_AT.off, (FLT_CNT.CNT 0).reg, FLT_Q_STAT.off] → t.reg o = s.reg o

/-- The check happens at the close point, or now where that has passed. A tick whose cores, strands, messages, trees
and engines are done is left as it is; a late core aborts the tick and counts an overrun, with OVR_HOLD for a hold. A
slot of the schedule, in a tick that holds it, begins at its offset: it restarts the time of the channels it names and
closes them until its length has passed. A channel of a slice at work 32 ms without a slot shows CAL_DUE. A link
calibration window takes the next receive lane in rotation out until the window's end and shows the least of its
margins. (R38, R41, R53, R59, R110, R165, R241). -/
def Obligations.CompletionAndCalibration : Prop :=
  ∀ s : State,
    (∀ (n : Ctx) (u : State), u = { s with now := max s.now (s.tick.bound + s.closePoint n.val) } → u.working n.val = true →
      s.fget (RIG_SL_STAT.SHADOW n.val) ≠ 3 →
      (u.lateCores n.val = [] → u.lateStrands n.val = [] → u.lateOuts n.val = [] → u.latePorts n.val = [] →
        u.lateTrees n.val = [] → u.lateWrites n.val = [] → u.lateMirrors n.val = [] → s.tick.unarmed = [] →
        (u.engsOf n.val).all (fun k => (u.engLate n.val k).isNone) = true → exec (.completionCheck n) s = .next u) ∧
      (u.lateCores n.val ≠ [] → s.flt.incidents = [] → Runs (.completionCheck n) s fun t =>
        (t.cx n.val).aborted = true ∧
        t.fget (TCK_SL_OVERRUNS.OVERRUNS n.val) = min (2 ^ 32 - 1) (s.fget (TCK_SL_OVERRUNS.OVERRUNS n.val) + 1) ∧
        (s.flag (TCK_SL_CTL.OVR_HOLD n.val) = true → (t.cx n.val).holdNext ≠ none) ∧
        t.core = s.core ∧ t.eng = s.eng ∧ t.mem = s.mem ∧ t.now = u.now)) ∧
    (∀ (n : Ctx) (j : Fin 4) d, (s.sched n.val).slots[j.val]? = some d → s.slotDue n.val d = true →
      Runs (.calibrationSlot n j) s fun t =>
        t.now = max s.now (s.tick.bound + d.offset) ∧
        (∀ p ∈ s.ctxParts n.val, ∀ k ∈ d.chans (s.slStep n.val), (t.ch (8 * p + k)).slotAt = t.now ∧
          (t.ch (8 * p + k)).slotEnd = t.now + d.length ∧ (t.fget (PRT_MEM_STAT.CAL_DUE p)).testBit k = false) ∧
        (∀ i, (∀ p ∈ s.ctxParts n.val, ∀ k ∈ d.chans (s.slStep n.val), i ≠ 8 * p + k) → t.ch i = s.ch i) ∧
        t = { s with regs := t.regs, chan := t.chan, draws := t.draws, now := t.now }) ∧
    (∀ (p : PartId) (k : Chan) (n : Nat), s.ctxHolding p.val = some n → 2 ≤ s.slState n → s.slState n ≤ 4 →
      (s.ch (8 * p.val + k.val)).slotAt + msUnits 32 < s.now →
      (s.fget (PRT_MEM_STAT.CAL_DUE p.val)).testBit k.val = false → Runs (.calibrationOverdue p k) s fun t =>
        (t.fget (PRT_MEM_STAT.CAL_DUE p.val)).testBit k.val = true ∧
        FaultOnly { s with regs := (s.memStat (PRT_MEM_STAT.CAL_DUE p.val) k.val true).regs } t) ∧
    (∀ (p : Port) (h w : BitVec 8 × BitVec 8 × BitVec 8), 5 ≤ s.fget (LNK_STAT.STATE p.val) → s.fget (LNK_STAT.STATE p.val) ≤ 6 →
      s.calTick = true → s.now < s.calTo → (s.po p.val).cal = none → s.flag (LNK_CTL.LCAL_SKIP p.val) = false →
      5 ≤ (s.po p.val).rxAct.length → s.fget (LNK_STAT.NEED_W p.val) < (s.po p.val).rxAct.length →
      ∀ lane first, ((s.po p.val).rxAct.find? (fun i => (s.po p.val).calRot ≤ i)).getD ((s.po p.val).rxAct.headD 0) = lane →
        s.seqAt p.val s.calFrom = first → Runs (.linkCalibrationWindow p h w) s fun t =>
        t.po p.val = { s.po p.val with
          calRot := lane + 1, cal := some (lane, s.calTo), rxChange := (s.po p.val).rxChange ++ [(lane, first, false)],
          ctl := (s.po p.val).ctl ++ [BitVec.ofNat 48 (laneDropMsg lane first true)] } ∧
        (lane < 32 → t.fget (LNK_MARGIN.LANE p.val) = lane) ∧
        t.fget (LNK_MARGIN.EYE_H p.val) = min h.1.toNat (min h.2.1.toNat h.2.2.toNat) ∧
        t.fget (LNK_MARGIN.EYE_W p.val) = min w.1.toNat (min w.2.1.toNat w.2.2.toNat) ∧ (∀ q, q ≠ p.val → t.po q = s.po q) ∧
        t = { s with regs := t.regs, port := t.port } ∧ ∀ o, o ≠ LNK_MARGIN.off p.val → t.reg o = s.reg o)

/-- An entry that issues at a core and runs to its end, all of whose reads pass parity, whose emissions find credit
and whose ACC writes are not suppressed, writes the bytes of its results, the last write of a byte standing, and no
other byte of a bank; it takes the cycles of the operation, leaves accumulators, maxima and generator as the operation
gives them, queues the units that a MOVE emits on its out port, and the core comes to the next entry; no other core,
no engine, channel, router, port or byte of LPDDR5 changes. One that is stopped in a cycle before its last has written
what the cycles that have passed write, and stays the current entry with its plan and that cycle. (R112, R114, R117,
R118, R119, R120, R121, R122, R123, R124, R125, R131). -/
def Obligations.CoreEntries : Prop :=
  ∀ (s : State) (c : EntryRun) (n : Nat) (d : Desc),
    let k := c.core.key
    (s.co k).work = none → (s.co k).prog = 0 → (s.co k).stalled = false →
    let fn (d : Desc) := (s.ctxHolding (corePart k)).elim [] (fun n => s.funcTable n (corePart k) (coreClus k) (d.sub % 16))
    let vec (code : Nat) : (Desc → Bool) × (Banks → Desc → Nat → CoreSt → Rng → Plan) :=
      (fun d => d.op = 4 && d.sub % 16 = code, fun b d r x g => keepAcc x (planVec b d r g))
    let red (sub : Nat) : (Desc → Bool) × (Banks → Desc → Nat → CoreSt → Rng → Plan) :=
      (fun d => d.op = 6 && d.sub = sub, fun b d r x g => planReduce b d r x.accs x.maxs g)
    ∀ e ∈ ([(.matmul c, fun d => d.op = 1, fun b d r x g => planMatmul b d r x.accs g),
        (.matmulT c, fun d => d.op = 2, fun b d r x g => planMatmul b d r x.accs g),
        (.outer c, fun d => d.op = 3, fun b d r _ g => planOuter b d r g),
        (.vecAdd c, vec 0), (.vecSub c, vec 1), (.vecMul c, vec 2), (.vecFma c, vec 3), (.vecMax c, vec 4), (.vecMin c, vec 5),
        (.vecAbs c, vec 6), (.vecNeg c, vec 7),
        (.func c, fun d => d.op = 5, fun b d r x g => keepAcc x (planFunc b d r (fn d) g)),
        (.reduceSum c, red 0), (.reduceMax c, red 1), (.reduceMaxabs c, red 2), (.reduceSumsq c, red 3),
        (.convert c, fun d => d.op = 7, fun b d r x g => keepAcc x (planConvert b d r g)),
        (.moveCopy c, fun d => d.op = 8 && d.sub = 0, fun b d r x g => keepAcc x (planCopy b d r g)),
        (.moveOut c, fun d => d.op = 8 && d.sub = 1, fun b d r x g => keepAcc x (planOut b d r d.addrA (d.k * r) g)),
        (.movePass c, fun d => d.op = 8 && d.sub = 2, fun b d r x g =>
          keepAcc x (planOut b d r (b.cfg.inw d.pin).base (min (if d.pin then x.in1.cons else x.in0.cons) (d.k * r)) g))] :
        List (Instr × (Desc → Bool) × (Banks → Desc → Nat → CoreSt → Rng → Plan))),
      s.entryAt k e.2.1 = some (n, d) → (s.co k).supp = 0 →
      let b := s.coreBanks n k
      let r := (s.rowsOf n k d).1
      let all := e.2.2 b d r (s.co k) (s.coreRng n k)
      let pl := all.window 0 none
      pl.reads.all (fun x => !s.unitBad b k x.2) = true → stallAt pl.emit 0 ((s.co k).outHeld d.pout) = none →
      ((∀ u, c.upto = some u → all.cyc ≤ u) → Runs e.1 s fun t =>
          (∀ x, Store.get byteZero (t.co k).banks x = (s.co k).after b.cfg (pl.items.flatMap Item.bytes) x) ∧
          (t.co k).entry = (s.co k).entry + 1 ∧ (t.co k).cyc = (s.co k).cyc + entryCycles d r b.cfg.dispLen ∧
          (t.co k).accs = pl.accs ∧ (t.co k).maxs = pl.maxs ∧ (t.co k).rng = some pl.rng ∧
          (t.co k).work = none ∧ (t.co k).prog = 0 ∧
          (∀ us : List XUnit, pl.emit.map Prod.snd = us.map Emit.unit →
            (t.co k).out0 = (s.co k).out0 ++ (if d.pout = true then [] else us) ∧
            (t.co k).out1 = (s.co k).out1 ++ (if d.pout = true then us else [])) ∧
          (∀ j, j ≠ k → t.co j = s.co j) ∧ t.eng = s.eng ∧ t.chan = s.chan ∧ t.rtr = s.rtr ∧ t.port = s.port ∧ t.mem = s.mem) ∧
      (∀ u, c.upto = some u → u < all.cyc → Runs e.1 s fun t =>
        (∀ x, Store.get byteZero (t.co k).banks x =
          (s.co k).after b.cfg ((all.window 0 (some (u + 1))).items.flatMap Item.bytes) x) ∧
        (t.co k).entry = (s.co k).entry ∧ (t.co k).cyc = (s.co k).cyc ∧ (t.co k).work = some all ∧ (t.co k).prog = u ∧
        (t.co k).accs = (s.co k).accs ∧ (∀ j, j ≠ k → t.co j = s.co j) ∧ t.mem = s.mem)

/-- A VEC entry that issues and runs to its end, whose operands pass parity and whose emissions find credit, with an
IEEE destination and a rounding mode that draws nothing, leaves in element e of its destination the sub-operation of
element e of A with element e, or the scalar, of B and, for the fused sub-operation, of the addend, rounded once to
the destination's format; a FUNC entry leaves the function of element e of A. Every other byte of the core's banks is
as it was. (R121, R122). -/
def Obligations.VectorResults : Prop :=
  ∀ (s : State) (c : CoreId) (n : Nat) (d : Desc),
    let k := c.key
    let b := s.coreBanks n k
    let r := (s.rowsOf n k d).1
    let sz := fmtBits d.fmtD / 8
    let bytes (v : Nat → Val) : List (Nat × Byte) := (List.range (32 * d.k * r)).flatMap (fun e =>
      bytesAt (32 * d.addrD + e * sz) (leBytes sz (roundIeee d.fmtD d.rnd 0 (v e)).1))
    isHank d.fmtD = false → d.rnd ≠ 2 → (s.co k).supp = 0 → (s.co k).work = none → (s.co k).prog = 0 →
    (s.co k).stalled = false →
    (∀ e ∈ [(Instr.vecAdd ⟨c, none⟩, 0), (.vecSub ⟨c, none⟩, 1), (.vecMul ⟨c, none⟩, 2), (.vecFma ⟨c, none⟩, 3), (.vecMax ⟨c, none⟩, 4), (.vecMin ⟨c, none⟩, 5), (.vecAbs ⟨c, none⟩, 6),
        (.vecNeg ⟨c, none⟩, 7)],
      s.entryAt k (fun d => d.op = 4 && d.sub % 16 = e.2) = some (n, d) →
      (planVec b d r (s.coreRng n k)).reads.all (fun x => !s.unitBad b k x.2) = true →
      stallAt (planVec b d r (s.coreRng n k)).emit 0 ((s.co k).outHeld d.pout) = none → Runs e.1 s fun t =>
        ∀ x, Store.get byteZero (t.co k).banks x = (s.co k).after b.cfg (bytes (fun i =>
          (vecOp e.2 (b.elem d.fmtA d.addrA i)
            (if 6 ≤ e.2 then .fin false 0 else if d.sub.testBit 4 = true then b.scalar d.addrB else b.elem d.fmtB d.addrB i)
            (if e.2 ≠ 3 then .fin false 0 else if d.sub.testBit 5 = true then b.scalar d.addrX
              else b.elem d.fmtD d.addrX i)).1)) x) ∧
    (∀ l : List Byte, s.entryAt k (fun d => d.op = 5) = some (n, d) → l = s.funcTable n (corePart k) (coreClus k) (d.sub % 16) →
      (planFunc b d r l (s.coreRng n k)).reads.all (fun x => !s.unitBad b k x.2) = true →
      stallAt (planFunc b d r l (s.coreRng n k)).emit 0 ((s.co k).outHeld d.pout) = none → Runs (.func ⟨c, none⟩) s fun t =>
        ∀ x, Store.get byteZero (t.co k).banks x = (s.co k).after b.cfg (bytes (fun i =>
          (funcEval l d.fmtD (b.elem d.fmtA d.addrA i)).1)) x)

/-- A SEND whose reads pass parity and whose packets find credit adds its messages to the packets that wait for
injection at its out port and comes to the next entry. A WAIT whose condition holds comes to the next entry, another
one stalls, and a stalled one goes on when the condition holds. A SKIP passes over IMM entries where its region holds
only zero hanks, or its port has nothing to consume. END stops the core, keeps the smallest margin before the close
point and counts an intrusion into the weir. A unit and a packet land at the in port by its mode; a duplicate is
counted and dropped. A core that does not answer the poll is silent. (R60, R106, R108, R126, R127, R128, R129, R130,
R132, R289, R290, R365). -/
def Obligations.CoreControl : Prop :=
  ∀ (s : State) (c : CoreId),
    let k := c.key
    (∀ n d, ∀ e ∈ [(Instr.sendDispatch ⟨c, none⟩, false), (.sendReply ⟨c, none⟩, true)],
      s.entryAt k (fun d => d.op = 9 && d.sub.testBit 0 == e.2) = some (n, d) →
      (s.co k).work = none → (s.co k).prog = 0 → (s.co k).stalled = false →
      let b := s.coreBanks n k
      let r := (s.rowsOf n k d).1
      let s1 := (s.rowsOf n k d).2
      let rows := if e.2 = true then s1.replyRows n k d b r else s1.dispatchRows n k d b r
      let last := 6 + r + r * (if d.sub.testBit 1 = true then 2 else 1) * sendRowCycles d
      let msgs := s1.sendMsgs n k (if e.2 = true then 2 else 1) (s.coreEp k (d.sub.testBit 2)) last (rows.filterMap id)
      (sendReads b d r).all (fun x => !s.unitBad b k x.2) = true →
      stallAt (msgs.map (fun x => (x.1, Emit.packet x.2))) 0 ((s.co k).outHeld d.pout) = none → Runs e.1 s fun t =>
        (t.co k).sends = (s.co k).sends ++ msgs.map (fun x => (d.pout, x.2)) ∧
        (t.co k).entry = (s.co k).entry + 1 ∧ (t.co k).cyc = (s.co k).cyc + entryCycles d r b.cfg.dispLen ∧
        (t.co k).banks = (s.co k).banks ∧ OnlyCore k s1 t) ∧
    (∀ n d, ∀ e ∈ [(Instr.waitDrain c, 0), (.waitInject c, 1), (.waitOffset c, 2)],
      s.entryAt k (fun d => d.op = 10 && d.imm = e.2) = some (n, d) →
      (s.waitOver k d = true → Runs e.1 s fun t =>
        (t.co k).entry = (s.co k).entry + 1 ∧ (t.co k).waiting = false ∧ (s.co k).cyc + 1 ≤ (t.co k).cyc ∧ OnlyCore k s t) ∧
      (s.waitOver k d = false → Runs e.1 s fun t => t.co k = { s.co k with waiting := true } ∧ OnlyCore k s t)) ∧
    (∀ n, s.coreCtx k = some n → (s.co k).waiting = true → s.waitOver k (s.coreDesc n k) = true → Runs (.waitEnd c) s fun t =>
      (t.co k).entry = (s.co k).entry + 1 ∧ (t.co k).waiting = false ∧ (s.co k).cyc + 1 ≤ (t.co k).cyc ∧ OnlyCore k s t) ∧
    (∀ n d, s.entryAt k (fun d => d.op = 11 && d.sub = 0) = some (n, d) →
      (zeroReads (s.coreBanks n k) d).all (fun x => !s.unitBad (s.coreBanks n k) k x.2) = true → Runs (.skipZero c) s fun t =>
        t.co k = (s.co k).advance (1 + if (s.coreBanks n k).allZero d = true then d.imm else 0) 1 ∧ OnlyCore k s t) ∧
    (∀ n d, s.entryAt k (fun d => d.op = 11 && d.sub = 1) = some (n, d) → Runs (.skipEmpty c) s fun t =>
      t.co k = (s.co k).advance
        (1 + if (if d.pin = true then (s.co k).in1.cons else (s.co k).in0.cons) = 0 then d.imm else 0) 1 ∧ OnlyCore k s t) ∧
    (∀ n d, s.entryAt k (fun d => d.op = 0) = some (n, d) → s.endAt (s.co k).cyc ≤ s.closePoint n → n < 16 →
      Runs (.endEntry c) s fun t =>
        t.co k = { s.co k with atEnd := true } ∧
        t.fget (TCK_SL_MARGIN.MARGIN n) =
          min (s.fget (TCK_SL_MARGIN.MARGIN n)) (s.closePoint n - s.endAt (s.co k).cyc) ∧
        t.fget (TCK_SL_INTRUSIONS.INTRUSIONS n) = (if s.weirStart n < s.endAt (s.co k).cyc
          then min (2 ^ 32 - 1) (s.fget (TCK_SL_INTRUSIONS.INTRUSIONS n) + 1) else s.fget (TCK_SL_INTRUSIONS.INTRUSIONS n)) ∧
        t = { s with core := t.core, regs := t.regs } ∧ ∀ j, j ≠ k → t.co j = s.co j) ∧
    (∀ n port, s.ctxHolding (corePart k) = some n →
      let cfg := s.coreCfg n k
      let w := cfg.inw port
      let x := (s.co k).inp port
      (∀ u : XUnit, s.working n = true → w.mode = 0 → x.fill < w.cap * w.stride → Runs (.inPortLanding c port (.unit u)) s fun t =>
        (∀ y, Store.get byteZero (t.co k).banks y =
          (s.co k).after cfg (bytesAt (32 * (w.base + x.fill)) (leBytes 32 u.toNat)) y) ∧
        ((t.co k).inp port) = { x with fill := x.fill + 1 } ∧ OnlyCore k s t) ∧
      (∀ p : Packet, s.takes n p = true → w.cap ≠ 0 → modeFits w.mode p = true → p.seq.toNat < p.count.toNat →
        (x.holds p = false → Runs (.inPortLanding c port (.packet p)) s fun t =>
          t.co k = ((s.co k).landPacket cfg port p).modIn port (fun x => x.count p) ∧ OnlyCore k s t) ∧
        (x.holds p = true → Runs (.inPortLanding c port (.packet p)) s fun t =>
          t.core = s.core ∧ t.mem = s.mem ∧ OnlyRegs [PRT_RED_DUP.off (corePart k)] s t))) ∧
    (Runs (.coreStatusPoll c true) s fun t => t = s) ∧
    (Runs (.coreStatusPoll c false) s fun t => t.co k = { s.co k with silent := true } ∧
      .core c.clus c.core ∈ (t.pt c.part.val).waiting ∧ (∀ j, j ≠ k → t.co j = s.co j) ∧ t.mem = s.mem ∧ t.eng = s.eng)

/-- An engine that has come to an operation of its element, with every operand as the element's streams, parameters,
constants and earlier results give it, adds the operation's exact result, rounded once to binary32 under nearest-even,
to the element's results; a further operation follows. After the last operation of an element of a job that publishes
nothing and has one output that draws nothing, the output's bytes hold the result in the output's format, and no other
byte of LPDDR5 changes. (R152, R153, R154, R156). -/
def Obligations.RecipeOperations : Prop :=
  ∀ (s : State) (e : EngId) (n : Nat) (u : UpJob) (el : ElemSt), s.engWork e.key = some (n, u) →
    (s.en e.key).cur = some el → s.raced e.key u el.elem = false →
    let k := e.key
    let w := u.rcp.ops.getD el.res.length 0
    let v (hi lo : Nat) : Val := s.operand k u el.elem el.res (bits w hi lo)
    let a := v 13 8
    let b := v 19 14
    let c := v 25 20
    let d := v 31 26
    let neg := bit w 4
    ∀ op ∈ ([(.mul e, 0, vecResult (a.mul b)), (.add e, 1, vecResult (a.add (if neg = true then b.negate else b))),
        (.fma e, 2, vecResult ((if neg = true then (a.mul b).negate else a.mul b).add c)), (.sqrt e, 3, a.sqrt),
        (.rsqrt e, 4, a.rsqrt), (.recip e, 5, a.recip),
        (.clamp e, 6, if (a.isNan || b.isNan || c.isNan) = true then nanPoison else (Val.min (Val.max a b) c, {})),
        (.sign e, 7, a.sgn),
        (.csel e, 8, (if cselHolds (bits w 6 4) a b = true then c else d,
          { poison := a.isNan || b.isNan || c.isNan || d.isNan }))] : List (Instr × Nat × VF)),
      bits w 3 0 = op.2.1 →
      let r := BitVec.ofNat 32 (roundIeee 10 0 0 op.2.2.1).1
      (el.res.length + 1 < u.rcp.nops → Runs op.1 s fun t =>
        t.en k = { s.en k with cur := some { el with res := el.res ++ [r] } } ∧ (∀ j, j ≠ k → t.en j = s.en j) ∧
        t.mem = s.mem ∧ t.core = s.core ∧ t.rtr = s.rtr) ∧
      (∀ i src fmt rnd, u.rcp.nops = el.res.length + 1 → u.rcp.pubEn = false → u.mirror = false → (s.en k).supp = 0 →
        u.rcp.enabled = [(i, src, fmt, rnd)] → rnd ≠ 2 → Runs op.1 s fun t =>
        let at_ := streamAt k (u.outs.getD i 0) fmt el.elem
        let bs := leBytes (elemBytes fmt) (roundIeee fmt rnd 0 (ieeeVal 10 ((el.res ++ [r]).getD src 0).toNat)).1
        (∀ x, t.memGet x = if at_ ≤ x ∧ x < at_ + elemBytes fmt then bs.getD (x - at_) 0 else s.memGet x) ∧
        (t.en k).cur = none ∧ (t.en k).tick = (s.en k).tick + 1 ∧ (t.en k).done = (s.en k).done ∧
        ((t.en k).ran = true ↔ s.quota k u ≤ (s.en k).tick + 1 ∨ (s.en k).ran = true) ∧
        (∀ j, j ≠ k → t.en j = s.en j) ∧ t.core = s.core)

/-- Where no byte of LPDDR5 fails parity and no restore of a group is awaited, an engine at the start of its tick
processes the tick's quota of elements of a job that publishes and mirrors nothing, is then done for the tick, and
writes nothing but the elements of its enabled output streams. In a publication tick it copies the tick's tiles to the
banks of their cores, each header with PEND set. An engine that fails is marked failed, stops, and with a spare waits
for its replacement. (R150, R155, R156, R158, R365). -/
def Obligations.UpdateAndPublication : Prop :=
  ∀ (s : State) (e : EngId),
    let k := e.key
    (∀ n u, s.engWork k = some (n, u) → s.memBad = [] → (s.en k).cur = none → (s.en k).held = [] → (s.en k).tick = 0 →
      (∀ x, s.restoring k u x = false) → u.rcp.nops ≠ 0 → u.rcp.pubEn = false → u.mirror = false → s.quota k u ≠ 0 → Runs (.updateJobTick e) s fun t =>
        (t.en k).ran = true ∧ (t.en k).tick = s.quota k u ∧ (t.en k).done = (s.en k).done ∧
        (t.en k).run = some (u.idx, u.start) ∧ (t.en k).cur = none ∧
        (∀ x, (∀ o ∈ u.rcp.enabled, ¬ (streamAt k (u.outs.getD o.1 0) o.2.2.1 (s.en k).done ≤ x ∧
          x < streamAt k (u.outs.getD o.1 0) o.2.2.1 ((s.en k).done + s.quota k u))) → t.memGet x = s.memGet x) ∧
        (∀ j, j ≠ k → t.en j = s.en j) ∧ t.core = s.core ∧ t.chan = s.chan) ∧
    (∀ n i base tiles qt, s.engCtx k = some n → s.pubWork n k = some (i, base, tiles, qt) → s.memBad = [] →
      (s.en k).ran = false → (s.en k).pubTick = 0 → (s.en k).pubNext < tiles → 1 ≤ qt → Runs (.publication e) s fun t =>
        (t.en k).ran = true ∧ (t.en k).pubTick = min qt (tiles - (s.en k).pubNext) ∧ (t.en k).pubJob = some i ∧
        (t.en k).pend.length = (s.en k).pend.length + min qt (tiles - (s.en k).pubNext) ∧
        (∀ j, j ≠ k → t.en j = s.en j) ∧ t.chan = s.chan ∧
        (qt = 1 →
          let a := mlaOf (k / 8) (k % 8) (64 * base + tileBytes * (s.en k).pubNext)
          let h := s.tileHdr a
          let bs := s.memRead (tileSlot a (!h.cur)) 8192
          (t.en k).pend = (s.en k).pend ++ [a] ∧ (t.tileHdr a).pend = true ∧ (t.tileHdr a).cur = h.cur ∧
          (if h.cur = true then (t.tileHdr a).dig0 else (t.tileHdr a).dig1) = slotDigest bs ∧
          (∀ j, t.co j = if j = h.key (k / 8) then (s.co j).putBank h.bank bs else s.co j) ∧
          ∀ x, ¬ (a ≤ x ∧ x < a + 64) → t.memGet x = s.memGet x)) ∧
    (Runs (.engineFailed e) s fun t =>
      t.en k = { s.en k with failed := true, stop := true } ∧ (∀ j, j ≠ k → t.en j = s.en j) ∧
      (s.spareEngine e.part.val = true → .engine e.eng ∈ (t.pt e.part.val).waiting) ∧ t.core = s.core ∧ t.mem = s.mem)

/-- The scrubber goes on to the next WEIGHT bank; a bank that passes parity and digest is left alone, and one that
fails parity is fenced. A republication writes the bank from the current slot of its tile and ends the fence. The
LPDDR5 scrubber goes on to the next group of a channel; a failing group waits, counted, for its restore. A restore
writes the group of a MASTER or MOMENT region, whose bytes then pass parity. A hot channel shows HOT, and one with an
overdue retrain DEGRADED. (R145, R159, R160, R161, R163, R164, R165, R506). -/
def Obligations.MemoryMaintenance : Prop :=
  ∀ s : State,
    (∀ (c : ClusId) n w wrap, s.ctxHolding (c.key / 75) = some n → s.flag (PRT_SCR_CTL.EN (c.key / 75)) = true →
      s.nextWeight n (c.key / 75) (c.key % 75) (s.cl c.key).scrub = some (w, wrap) → s.memBad = [] →
      let core := 250 * c.key + w / 24
      let bank := w % 24
      (∀ a, (s.cl (core / 250)).fenced.contains (24 * coreIdx core + bank) = false → s.tileOf n core bank = some a →
        (s.tileHdr a).pend = false → (s.co core).bad.any (fun x => x / 8192 = bank) = false →
        slotDigest ((List.range 8192).map (fun i => Store.get byteZero (s.co core).banks (8192 * bank + i))) =
          (if (s.tileHdr a).cur = true then (s.tileHdr a).dig1 else (s.tileHdr a).dig0) →
        Runs (.sramScrub c) s fun t => (t.cl c.key).scrub = w + 1 ∧ (t.cl c.key).fenced = (s.cl c.key).fenced ∧
          (∀ j, j ≠ c.key → t.cl j = s.cl j) ∧ t.core = s.core ∧ t.mem = s.mem) ∧
      ((s.cl (core / 250)).fenced.contains (24 * coreIdx core + bank) = false →
        (s.co core).bad.any (fun x => x / 8192 = bank) = true → core / 250 = c.key → Runs (.sramScrub c) s fun t =>
          24 * coreIdx core + bank ∈ (t.cl c.key).fenced ∧ t.flag (PRT_SCR_STAT.FENCED (corePart core)) = true ∧
          (s.tileOf n core bank = none → (t.cx n).holdNext ≠ none) ∧ t.core = s.core ∧ t.mem = s.mem)) ∧
    (∀ (c : CoreId) (bank : Fin 24) n a, s.ctxHolding (corePart c.key) = some n →
      (s.cl (c.key / 250)).fenced.contains (24 * coreIdx c.key + bank.val) = true → s.mayRepublish n c.key = true →
      s.tileOf n c.key bank.val = some a → s.memBad = [] → (s.tileHdr a).pend = false →
      slotDigest (s.memRead (tileSlot a (s.tileHdr a).cur) 8192) =
        (if (s.tileHdr a).cur = true then (s.tileHdr a).dig1 else (s.tileHdr a).dig0) → Runs (.republication c bank) s fun t =>
        t.co c.key = (s.co c.key).putBank bank.val (s.memRead (tileSlot a (s.tileHdr a).cur) 8192) ∧
        24 * coreIdx c.key + bank.val ∉ (t.cl (c.key / 250)).fenced ∧ (∀ j, j ≠ c.key → t.co j = s.co j) ∧ t.mem = s.mem) ∧
    (∀ (p : PartId) (k : Chan), (s.ch (8 * p.val + k.val)).selfRef = false →
      let a := mlaOf p.val k.val (512 * (s.ch (8 * p.val + k.val)).scrub)
      (s.memBadIn a 512 = none → Runs (.lpddr5Scrub p k) s fun t =>
        t.ch (8 * p.val + k.val) = { s.ch (8 * p.val + k.val) with
          scrub := ((s.ch (8 * p.val + k.val)).scrub + 1) % chanGroups } ∧
        (∀ j, j ≠ 8 * p.val + k.val → t.ch j = s.ch j) ∧ t = { s with chan := t.chan }) ∧
      (∀ b, s.memBadIn a 512 = some b → s.ctxHolding p.val = none → mlaPart b = p.val → Runs (.lpddr5Scrub p k) s fun t =>
        (t.ch (8 * p.val + k.val)).scrub = ((s.ch (8 * p.val + k.val)).scrub + 1) % chanGroups ∧
        t.pair (PRT_MEM_PADDR_LO.off p.val) = b % 2 ^ 64 ∧
        t.pair (PRT_MEM_PERR_LO.off p.val) = (s.pair (PRT_MEM_PERR_LO.off p.val) + 1) % 2 ^ 64 ∧
        (∃ f, t.flt.held = s.flt.held ++ [(f, .action (groupKey b))] ∧ f.code = 0x0601) ∧
        t.mem = s.mem ∧ t.memBad = s.memBad)) ∧
    (∀ (p : PartId) (k : Chan) (g : BitVec 24) (data : List Byte) n, data.length = 512 → g.toNat < chanGroups →
      s.ctxHolding p.val = some n →
      let a := mlaOf p.val k.val (512 * g.toNat)
      (s.mlaType a = 1 ∨ s.mlaType a = 2) → (s.mirrorSrc n (8 * p.val + k.val) a).isSome = true →
      Runs (.mirrorRestore p k g data) s fun t =>
        (∀ x, t.memGet x = if a ≤ x ∧ x < a + 512 then data.getD (x - a) 0 else s.memGet x) ∧ t.memBadIn a 512 = none ∧
        t.core = s.core ∧ t.eng = s.eng) ∧
    (∀ (p : PartId) (k : Chan), Runs (.lpddr5Hot p k) s fun t =>
      (t.fget (PRT_MEM_STAT.HOT p.val)).testBit k.val = true ∧
      FaultOnly { s with regs := (s.memStat (PRT_MEM_STAT.HOT p.val) k.val true).regs } t) ∧
    (∀ (p : PartId) (k : Chan), (s.fget (PRT_MEM_STAT.DEGRADED p.val)).testBit k.val = false →
      Runs (.retrainOverdue p k) s fun t => (t.fget (PRT_MEM_STAT.DEGRADED p.val)).testBit k.val = true ∧
        FaultOnly { s with regs := (s.memStat (PRT_MEM_STAT.DEGRADED p.val) k.val true).regs } t)

/-- LOAD on a module that is not ACTING ends with code 0x2D, and while a load is busy with 0x2C; otherwise the staged
image is checked: an error is reported with its code in phase 5, and an image without one begins to load, busy in
phase 2, its slices' contexts LOADING. ABANDON empties the shadow of the slice. COMMIT by the hub on a member arms a
VERIFIED shadow for a later step and takes an IDLE slice to ARMED; a shadow that is not VERIFIED ends with 0x26 and a
step that has come with 0x27; on the ACTING module, here the only member and without a standby, every member must have
reported, and the reports must make up the digest of the slice map. (R187, R188, R189, R190, R198, R306). -/
def Obligations.LoadAndCommit : Prop :=
  ∀ (s : State) (m : Master) (v : Word), s.admits m RIG_CMD.off v = true →
    let sid := RIG_CMD.SLICE_ID.of v
    let step := s.pair RIG_AT_LO.off
    (RIG_CMD.CMD.of v = 1 → s.acting = false → Runs (.load m v) s fun t =>
      t.fget RIG_ERR.CODE = 0x2D ∧ OnlyRegs [RIG_ERR.off, RIG_ERR_AGENT.off, RIG_ERR_AUX.off] s t) ∧
    (RIG_CMD.CMD.of v = 1 → s.acting = true → s.flag RIG_STAT.BUSY = true → Runs (.load m v) s fun t =>
      t.fget RIG_ERR.CODE = 0x2C ∧ OnlyRegs [RIG_ERR.off, RIG_ERR_AGENT.off, RIG_ERR_AUX.off] s t) ∧
    (RIG_CMD.CMD.of v = 1 → s.acting = true → s.flag RIG_STAT.BUSY = false → s.rewarming = false → s.stagedImage = none →
      Runs (.load m v) s fun t =>
        t.fget RIG_ERR.CODE = 0x03 ∧ t.fget RIG_STAT.PHASE = 5 ∧ t = { s with regs := t.regs, out := t.out }) ∧
    (∀ x e, RIG_CMD.CMD.of v = 1 → s.acting = true → s.flag RIG_STAT.BUSY = false → s.rewarming = false →
      s.stagedImage = some x → (s.rigCode 0 0).imageErr x = some e → Runs (.load m v) s fun t =>
        t.fget RIG_ERR.CODE = e.code % 256 ∧ t.fget RIG_STAT.PHASE = 5 ∧ t = { s with regs := t.regs, out := t.out }) ∧
    (∀ x, RIG_CMD.CMD.of v = 1 → s.acting = true → s.flag RIG_STAT.BUSY = false → s.rewarming = false →
      s.stagedImage = some x → (s.rigCode 0 0).imageErr x = none → Runs (.load m v) s fun t =>
        t.flag RIG_STAT.BUSY = true ∧ t.fget RIG_STAT.PHASE = 2 ∧ t.mgr.load.active = true ∧
        t.mgr.load.slices = x.slices ∧ t.mgr.load.begun = s.now ∧ t.core = s.core ∧ t.mem = s.mem ∧ t.eng = s.eng) ∧
    (∀ x i n, RIG_CMD.CMD.of v = 1 → s.acting = true → s.flag RIG_STAT.BUSY = false → s.rewarming = false →
      s.stagedImage = some x → (s.rigCode 0 0).imageErr x = none → x.slices = [i] → s.ctxFor i = some n → n < 16 →
      Runs (.load m v) s fun t =>
        t.fget (RIG_SL_STAT.SHADOW n) = 1 ∧ t.flag RIG_STAT.BUSY = true ∧ (∀ k, k ≠ n → t.cx k = s.cx k)) ∧
    (∀ n, RIG_CMD.CMD.of v = 3 →
      (s.acting = false ∧ m = 0) ∨ (s.acting = true ∧ s.mgr.load.slices.contains sid = false ∧ s.others sid = []) →
      s.ctxOf sid = some n → s.fget (RIG_SL_STAT.SHADOW n) ≠ 0 → Runs (.abandon m v) s fun t =>
        t.fget (RIG_SL_STAT.SHADOW n) = 0 ∧ (t.cx n).shadow = [] ∧ (t.cx n).active = (s.cx n).active ∧
        t.slState n = (if s.slState n = 1 then 0 else s.slState n) ∧ (∀ k, k ≠ n → t.cx k = s.cx k) ∧
        t = { s with regs := t.regs, ctx := t.ctx,
                     mgr := { s.mgr with commits := s.mgr.commits.filter (fun e => e.1 ≠ sid) } }) ∧
    (∀ n, RIG_CMD.CMD.of v = 2 → m = 0 → s.acting = false → s.ctxOf sid = some n → s.slId n = sid →
      s.fget PWR_STAT.STATE = 0 → s.fget (RIG_SL_STAT.SHADOW n) = 2 → s.step < step →
      (s.shadSched n).period = s.periodAt step → Runs (.rigCommit m v) s fun t =>
        t.fget (RIG_SL_STAT.SHADOW n) = 3 ∧ t.pair (RIG_SL_AT_LO.off n) = step ∧
        t.slState n = (if s.slState n = 0 then 1 else s.slState n) ∧ (∀ k, k ≠ n → t.cx k = s.cx k) ∧
        t.tick.unarmed = s.tick.unarmed.filter (fun e => e.1 ≠ sid) ∧
        t = { s with regs := t.regs, ctx := t.ctx, tick := { s.tick with unarmed := t.tick.unarmed } }) ∧
    (∀ n, RIG_CMD.CMD.of v = 2 → m = 0 → s.acting = false → s.ctxOf sid = some n → s.fget (RIG_SL_STAT.SHADOW n) ≠ 2 →
      Runs (.rigCommit m v) s fun t =>
        t.fget RIG_ERR.CODE = 0x26 ∧ (sid, step) ∈ t.tick.unarmed ∧
        OnlyRegs [RIG_ERR.off, RIG_ERR_AGENT.off, RIG_ERR_AUX.off] { s with tick := { s.tick with unarmed := t.tick.unarmed } } t) ∧
    (∀ n, RIG_CMD.CMD.of v = 2 → m = 0 → s.acting = false → s.ctxOf sid = some n → s.fget PWR_STAT.STATE = 0 →
      s.fget (RIG_SL_STAT.SHADOW n) = 2 → step ≤ s.step → Runs (.rigCommit m v) s fun t =>
        t.fget RIG_ERR.CODE = 0x27 ∧ OnlyRegs [RIG_ERR.off, RIG_ERR_AGENT.off, RIG_ERR_AUX.off] s t) ∧
    (∀ n r want, RIG_CMD.CMD.of v = 2 → s.acting = true → s.resvOf sid = some r → s.allReported sid = true →
      s.others sid = [] → r.members ≠ [] → s.ctxFor sid = some n → s.slId n = sid → s.fget (RIG_SL_STAT.SHADOW n) = 2 →
      s.mgr.load.reports.find? (fun x => x.1 = 4096 && x.2.1 = sid) = some (4096, sid, want, 0) →
      xorAll ((s.mgr.load.reports.filter (fun x => x.2.1 = sid && x.1 < 4096)).map (fun x => x.2.2.1)) = want →
      s.step + s.fget RIG_CTL.LEAD ≤ step → s.step + 1 < step → (s.shadSched n).period = s.periodAt step →
      (∀ i e, (imageOf s.mgr.load.image).find sid 0x0003 = some (i, e) →
        (tickSchedOf ((imageOf s.mgr.load.image).data e)).period = s.periodAt step) →
      s.mgr.sby = 0 → s.mgr.commits = [] → s.mgr.awaits.any (fun a => a.job = 5) = false → Runs (.rigCommit m v) s fun t =>
        t.fget (RIG_SL_STAT.SHADOW n) = 3 ∧ t.pair (RIG_SL_AT_LO.off n) = step ∧
        t.slState n = (if s.slState n = 0 then 1 else s.slState n) ∧
        t.mgr.load.armed = s.mgr.load.armed.filter (fun a => a.1 ≠ sid) ++ [(sid, step)] ∧
        t = { s with regs := t.regs, ctx := t.ctx, tick := { s.tick with unarmed := t.tick.unarmed },
                     mgr := { s.mgr with load := { s.mgr.load with armed := t.mgr.load.armed } } })

/-- The report of an agent of a shadow that is LOADING, once this module holds its plan, checks the agent's sections:
an error empties the shadow, and otherwise its digest is kept, the shadow becoming VERIFIED with the last agent. A
load that has lasted its time ends in phase 5 with code 0x25. An endpoint agent writes the active rigging of its
partition to two channels. After a wake that kept LPDDR5 a partition whose copy can be read and holds its digests
returns its slice to HOLD, by command unless a tile is lost, with its step and epoch. (R147, R185, R188, R189, R193,
R194, R195, R327). -/
def Obligations.LoadProgress : Prop :=
  ∀ s : State,
    (∀ (n : Ctx) (agent : Word), s.fget (RIG_SL_STAT.SHADOW n.val) = 1 →
      s.planDone = true ∨ (s.acting = true ∧ s.mgr.load.slices.contains (s.slId n.val) = true) →
      (s.shadAgents n.val).contains agent.toNat = true → (s.cx n.val).shadDigs.any (fun d => d.1 = agent.toNat) = false →
      (∀ e, s.agentErr n.val agent.toNat = some e → Runs (.agentReport n agent) s fun t =>
        t.fget (RIG_SL_STAT.SHADOW n.val) = 0 ∧ (t.cx n.val).shadow = [] ∧ t.core = s.core) ∧
      (s.agentErr n.val agent.toNat = none → Runs (.agentReport n agent) s fun t =>
        (t.cx n.val).shadDigs = (s.cx n.val).shadDigs ++
          [(agent.toNat, agentDigest (t.cx n.val).shadow (s.slId n.val) (s.shadMap n.val).epoch agent.toNat)] ∧
        t.fget (RIG_SL_STAT.SHADOW n.val) = (if (t.shadAgents n.val).all (fun a => (t.cx n.val).shadDigs.any (fun e => e.1 = a)) =
          true then 2 else 1)) ∧
      (s.agentErr n.val agent.toNat = none → agentKind agent.toNat ≠ 1 → Runs (.agentReport n agent) s fun t =>
        (t.cx n.val).shadDigs = (s.cx n.val).shadDigs ++
          [(agent.toNat, agentDigest (s.cx n.val).shadow (s.slId n.val) (s.shadMap n.val).epoch agent.toNat)] ∧
        (t.cx n.val).shadow = (s.cx n.val).shadow ∧ t.core = s.core ∧ t.mem = s.mem)) ∧
    (s.mgr.load.active = true → s.mgr.load.begun + sUnits (s.fget RIG_CTL.TMO) ≤ s.now → Runs .loadTimeout s fun t =>
      t.mgr.load.active = false ∧ t.fget RIG_ERR.CODE = 0x25 ∧ t.fget RIG_STAT.PHASE = 5 ∧ t.flag RIG_STAT.BUSY = false ∧
      t.core = s.core ∧ t.mem = s.mem) ∧
    (s.mgr.load.active = false → Runs .loadTimeout s fun t =>
      (∀ n, n < 16 → s.fget (RIG_SL_STAT.SHADOW n) = 1 → (s.cx n).loadAt + sUnits (s.fget RIG_CTL.TMO) ≤ s.now →
        t.fget (RIG_SL_STAT.SHADOW n) = 0 ∧ (t.cx n).shadow = []) ∧
      (∀ n, n < 16 → s.fget (RIG_SL_STAT.SHADOW n) ≠ 1 → t.cx n = s.cx n) ∧ t = { s with regs := t.regs, ctx := t.ctx }) ∧
    (∀ (p : PartId) (n : Ctx), (s.pt p.val).owner = some n → s.flag (RIG_SL_STAT.ACTIVE n.val) = true →
      Runs (.systemAreaCopy p) s fun t =>
        (∀ k, k = 8 * p.val ∨ k = 8 * p.val + 4 → (t.ch k).copies.find? (fun e => e.1 = n.val) = some (n.val, s.copyOf n.val p.val)) ∧
        (∀ k, k ≠ 8 * p.val → k ≠ 8 * p.val + 4 → t.ch k = s.ch k) ∧ t = { s with chan := t.chan }) ∧
    (∀ (p : PartId) (n : Ctx) (c : CopySt), s.rewarming = true → s.flag PWR_STAT.LP_VALID = true → s.fget PWR_STAT.STATE = 0 →
      s.flag PWR_STAT.MOVING = false → (s.pt p.val).closed = false → (s.pt p.val).reapply = [n] →
      s.goodCopy n.val p.val = some c → c.holds = true → c.step < 2 ^ 64 → (s.cx n.val).holdNext = none →
      s.fget FAB_MGR_ID.ACTING ≠ s.modId → s.flag FAB_MGR_ID.COORD_VALID = false → Runs (.warmReapply p) s fun t =>
        t.slState n.val = 5 ∧ (t.fget (TCK_SL_STAT.HOLD_CAUSE n.val) = 1 ∨ t.fget (TCK_SL_STAT.HOLD_CAUSE n.val) = 7) ∧
        t.slStep n.val = c.step ∧ t.flag (RIG_SL_STAT.ACTIVE n.val) = true ∧ t.flag (RIG_SL_STAT.WARM n.val) = true ∧
        t.slId n.val = c.sid % 4096 ∧ t.fget (RIG_SL_EPOCH.LAST n.val) = c.epoch % 65536 ∧
        (t.pt p.val).owner = some n ∧ (t.pt p.val).reapply = [])

/-- The head of an input buffer that fails its check is dropped and counted in PRT_RTR_BAD. A head whose output is
decided moves to the next router where the one direction of its way has room for all of it and nothing of a better
rank waits for it, counted at the port that sends it, and stays, counted as a stall, where none has room. An undecided
head for another module takes the output of the route decision: a packet at the attachment router of an open port is
queued there, and one without a route is dropped and counted in FAB_RT_DROP. A head that has waited ESC_WAIT without
room goes on by VC_ESC towards its escape output. A multicast packet whose split has one bundle leaves as one copy
with the bitmaps rewritten, and the router holds it until that copy is granted its output. A packet that has waited
RT_TMO for a route is dropped and counted. A port's broadcast LOAD is its queued units and 64 for each missing lane.
(R211, R212, R216, R260, R262, R263, R265, R269, R294). -/
def Obligations.PacketForwarding : Prop :=
  ∀ (s : State) (r : RouterId) (inp : Fin 8) (vc : Vc) (p : Packet),
    let k := r.key
    let x := r.x.val
    let y := r.y.val
    let line (t : State) (j i c : Nat) : List Packet := (t.rt j).line i c
    let cnt (t : State) (o : Nat) : RtrCnt := Store.get (fun _ => RtrCnt.init) (t.rt k).cnt o
    let gone (ic : Nat) (vn : Nat) (t : State) : Prop := line t k ic vn = (line s k ic vn).tail ∧
      ∀ j i c, i < 8 → c < 4 → (j, i, c) ≠ (k, ic, vn) → line t j i c = line s j i c
    let moved (ic vn d out v g : Nat) (q : Packet) (t : State) : Prop := ∃ a b, meshNext x y d = some (a, b) ∧
      line t k ic vn = (line s k ic vn).tail ∧
      ((t.rt (b * 40 + a)).queue (meshBack d) out).map Queued.pkt =
        ((s.rt (b * 40 + a)).queue (meshBack d) out).map Queued.pkt ++ [q] ∧
      ((t.rt (b * 40 + a)).queue (meshBack d) out).getLast? = some ⟨q, s.now, some v, some g, none⟩ ∧
      (∀ j i c, i < 8 → c < 4 → (j, i, c) ≠ (k, ic, vn) → (j, i, c) ≠ (b * 40 + a, meshBack d, out) →
        line t j i c = line s j i c) ∧
      (cnt t d).pkt = (cnt s d).pkt + 1 ∧ (cnt t d).byte = (cnt s d).byte + 32 + q.len.toNat ∧
      (∀ o, o ≠ d → (cnt t o).pkt = (cnt s o).pkt ∧ (cnt t o).byte = (cnt s o).byte) ∧ t = { s with rtr := t.rtr }
    let free (d n : Nat) : Prop := s.outrankedAt k d (s.packetRank k d n) = false
    let legal (ic : Nat) : Prop := ∀ w, s.emitter k ic p = some w → s.injectOk p = true ∧ s.isFrozen w.1 w.2 0 = false
    (∀ h l, (s.rt k).queue inp.val vc.num = h :: l → h.pkt = p →
      (p.good = false → Runs (.packetForward r inp vc) s fun t =>
        gone inp.val vc.num t ∧ (t.rt k).bad = min ((s.rt k).bad + 1) 65535 ∧ FaultOnly { s with rtr := t.rtr } t) ∧
      (∀ v g d, p.good = true → s.flag FAB_SELF.VALID = true ∨ linkLocal p h.via = true → h.copies = none → h.via = some v →
        (v < 16 → s.portOpen v p = true) → s.goalOf k v h.goal p = some g → s.atSluice k v g vc.num = false → g / 8 ≠ k →
        vc ≠ .mgt → s.roomDirs x y (rtrXY (g / 8)).1 (rtrXY (g / 8)).2 vc.num p.units = [d] → free d vc.num →
        Runs (.packetForward r inp vc) s fun t => moved inp.val vc.num d vc.num v g p t) ∧
      (∀ v g, p.good = true → s.flag FAB_SELF.VALID = true ∨ linkLocal p h.via = true → h.copies = none → h.via = some v →
        (v < 16 → s.portOpen v p = true) → s.goalOf k v h.goal p = some g → s.atSluice k v g vc.num = false → g / 8 ≠ k →
        s.roomDirs x y (rtrXY (g / 8)).1 (rtrXY (g / 8)).2 vc.num p.units = [] →
        let o := (dirsTo x y (rtrXY (g / 8)).1 (rtrXY (g / 8)).2 vc.num).headD 0
        Store.get (fun _ => none) (s.rt k).stuck o = none → Runs (.packetForward r inp vc) s fun t =>
          (∀ j i c, i < 8 → c < 4 → line t j i c = line s j i c) ∧ (cnt t o).stall = (cnt s o).stall + 1 ∧
          (∀ j, j ≠ k → t.rt j = s.rt j) ∧ t = { s with rtr := t.rtr }) ∧
      (∀ c g, p.good = true → s.flag FAB_SELF.VALID = true → h.copies = none → h.via = none → legal inp.val → p.typ ≠ 9 →
        (p.typ = 0 → p.mc = false) → s.routeFor k p none = some c → c < 16 → s.portOpen c p = true →
        s.exitOf k c p = some g → g / 8 = k → (s.inBypass r.die r.pos) = false → free (g % 8) vc.num →
        Runs (.packetForward r inp vc) s fun t => gone inp.val vc.num t ∧
          t.po c = { s.po c with txq := Store.upd (fun _ => []) (s.po c).txq p.vc (fun q => q ++ [p]) } ∧
          (∀ j, j ≠ c → t.po j = s.po j) ∧ t = { s with rtr := t.rtr, port := t.port }) ∧
      (p.good = true → s.flag FAB_SELF.VALID = true → h.copies = none → h.via = none → legal inp.val → p.typ ≠ 9 →
        (p.typ = 0 → p.mc = false) → s.routeFor k p none = none → Runs (.packetForward r inp vc) s fun t =>
          gone inp.val vc.num t ∧ t.fget FAB_RT_DROP.COUNT = min (s.fget FAB_RT_DROP.COUNT + 1) 65535 ∧
          FaultOnly { s with rtr := t.rtr, regs := (s.fset FAB_RT_DROP.COUNT (min (s.fget FAB_RT_DROP.COUNT + 1) 65535)).regs } t) ∧
      (∀ v g e g2 d, vc = .req ∨ vc = .rsp → p.typ ≠ 9 → h.via = some v → h.goal = some g → s.outsOf k g vc.num p.units = [] →
        h.at_ + s.cycUnits (16 * s.fget FAB_RT_CTL.ESC_WAIT) ≤ s.now →
        (if v < 16 then s.escapeOut (epMod p.dest) else some v) = some e →
        let q := Packet.sealed { p with esc := true }
        (e < 16 → s.portOpen e q = true) → s.goalOf k e (if e = v then some g else none) q = some g2 →
        s.atSluice k e g2 2 = false → g2 / 8 ≠ k →
        s.roomDirs x y (rtrXY (g2 / 8)).1 (rtrXY (g2 / 8)).2 2 p.units = [d] → free d 2 →
        Runs (.escapeMove r inp vc) s fun t => moved inp.val vc.num d 2 e g2 q t)) ∧
    (∀ c gb pb g, p.good = true → p.typ = 9 → p.chan < 2 → s.flag FAB_SELF.VALID = true → line s k 4 p.chan = [] →
      p.units ≤ inRoom p.chan → legal 4 → (∀ n w, s.ctxOf p.slice.toNat = some n → s.fenced n w = false) →
      s.mcSplit (leAt p.payload 8 8) (leAt p.payload 0 8) (leAt p.payload 0 8) = (false, [(c, gb, pb)]) → c < 16 →
      let q : Packet := { p with payload := leBytes 8 pb ++ leBytes 8 gb ++ p.payload.drop 16 }
      s.portOpen c q = true → s.exitOf k c q = some g →
      (∀ d a b, g / 8 ≠ k → s.roomDirs x y (rtrXY (g / 8)).1 (rtrXY (g / 8)).2 p.chan q.units = [d] → meshNext x y d = some (a, b) →
        free d p.chan → Runs (.mcast r p) s fun t =>
          (t.rt (b * 40 + a)).queue (meshBack d) p.chan =
            (s.rt (b * 40 + a)).queue (meshBack d) p.chan ++ [⟨q, s.now, some c, some g, none⟩] ∧
          (∀ j i n, i < 8 → n < 4 → (j, i, n) ≠ (b * 40 + a, meshBack d, p.chan) → line t j i n = line s j i n) ∧
          t = { s with rtr := t.rtr }) ∧
      (g / 8 ≠ k → s.roomDirs x y (rtrXY (g / 8)).1 (rtrXY (g / 8)).2 p.chan q.units = [] → Runs (.mcast r p) s fun t =>
          (t.rt k).queue 4 p.chan = [⟨p, s.now, none, none, some [(c, gb, pb)]⟩] ∧
          (∀ j i n, i < 8 → n < 4 → (j, i, n) ≠ (k, 4, p.chan) → line t j i n = line s j i n) ∧ t = { s with rtr := t.rtr })) ∧
    (∀ q, firstBelow 16 (fun c => (s.po c).waiting.any (fun w =>
        w.1 = p && decide (w.2 + usUnits (16 * s.fget FAB_RT_CTL.RT_TMO) ≤ s.now))) = some q → Runs (.routeTimeout p) s fun t =>
      t.po q = { s.po q with waiting := (s.po q).waiting.filter (fun w => w.1 ≠ p) } ∧ (∀ k, k ≠ q → t.po k = s.po k) ∧
      t.fget FAB_RT_DROP.COUNT = min (s.fget FAB_RT_DROP.COUNT + 1) 65535 ∧
      FaultOnly { s with port := t.port, regs := (s.fset FAB_RT_DROP.COUNT (min (s.fget FAB_RT_DROP.COUNT + 1) 65535)).regs } t) ∧
    (∀ c : Port, Runs (.loadBroadcast c) s fun t =>
      t.fab.load = s.fab.load.set c.val ((s.po c.val).txq.foldl (fun n e => n + e.2.foldl (fun k z => k + z.units) 0) 0 +
        64 * (s.fget (LNK_STAT.TRAINED_W c.val) - s.fget (LNK_STAT.WIDTH c.val))) ∧
      t = { s with fab := { s.fab with load := t.fab.load } })

/-- The first router of a die that fails, in a partition that no slice holds, is put in bypass and emptied, its
counters kept, its cluster waits for a spare, and its channels serve from their alternate routers; a second failure on
the die is reported with code 0x0302 and puts nothing in bypass. CLR clears the counters of the selected router port,
CLR_ALL those of every router of the partition. A write of FAB_RT_CTL arms a swap for a step to come, and holds its
times at 1 or more; an arm for a step that has come is refused. At the armed step both banks of both tables exchange,
the arm ends, the next escape family is taken, and a change of it or of the root quiets VC_ESC for 8 µs, after which
the quiet ends. (R202, R203, R216, R256, R267, R277). -/
def Obligations.RoutersAndTables : Prop :=
  ∀ s : State,
    (∀ r : RouterId, (s.pt r.die).owner = none →
      ((s.pt r.die).bypass = [] → Runs (.routerFail r) s fun t =>
        (t.pt r.die).bypass = [r.pos] ∧ t.rt r.key = (s.rt r.key).reset ∧ (∀ k, k ≠ r.key → t.rt k = s.rt k) ∧
        (∀ k, k < 8 → (memPos k).1 = r.pos → t.memRtr r.die k = (memPos k).2) ∧
        (∀ c : Fin 75, s.logClus r.die r.pos = some c.val → .cluster c ∈ (t.pt r.die).waiting) ∧
        (s.flt.queue.length < 1024 → ∃ e, t.flt.queue = s.flt.queue ++ [e] ∧ e.msg.code = 0x0301) ∧
        (∀ p, p ≠ r.die → (t.pt p).bypass = (s.pt p).bypass) ∧ t.core = s.core ∧ t.mem = s.mem ∧ t.eng = s.eng ∧ t.port = s.port) ∧
      ((s.pt r.die).bypass ≠ [] → (s.pt r.die).bypass.contains r.pos = false → Runs (.routerFail r) s fun t =>
        t.rt r.key = (s.rt r.key).reset ∧ (∀ k, k ≠ r.key → t.rt k = s.rt k) ∧ FaultOnly { s with rtr := t.rtr } t ∧
        (s.flt.inj = false → t.flag FLT_STAT.GRAVE = true))) ∧
    (∀ (m : Master) (p : PartId) (v : Word), s.admits m (PRT_RTR_CTL.off p.val) v = true →
      ((PRT_RTR_CTL.CLR p.val).of v = 1 → (PRT_RTR_CTL.CLR_ALL p.val).of v = 0 → Runs (.rtrClr m p v) s fun t =>
        let c := s.rtrSel m p.val
        (∀ k i, Store.get (fun _ => RtrCnt.init) (t.rt k).cnt i =
          if k = c.1 ∧ i = c.2 then RtrCnt.init else Store.get (fun _ => RtrCnt.init) (s.rt k).cnt i) ∧
        (∀ k, k ≠ c.1 → t.rt k = s.rt k) ∧ { t.rt c.1 with cnt := [] } = { s.rt c.1 with cnt := [] } ∧
        t = { s with rtr := t.rtr, snap0 := t.snap0, snap2 := t.snap2 }) ∧
      ((PRT_RTR_CTL.CLR p.val).of v = 0 → (PRT_RTR_CTL.CLR_ALL p.val).of v = 1 → Runs (.rtrClrAll m p v) s fun t =>
        (∀ q, q < 80 → t.rt (meshKey p.val q) = { s.rt (meshKey p.val q) with cnt := [], bad := 0 }) ∧
        (∀ k, (∀ q, q < 80 → k ≠ meshKey p.val q) → t.rt k = s.rt k) ∧
        t = { s with rtr := t.rtr, snap0 := t.snap0, snap2 := t.snap2 })) ∧
    (∀ (m : Master) (v : Word), s.admits m FAB_RT_CTL.off v = true →
      let set (t : State) : Prop := t.fget FAB_RT_CTL.ADAPT = FAB_RT_CTL.ADAPT.of v ∧
        t.fget FAB_RT_CTL.GROUP_ESC_NEXT = FAB_RT_CTL.GROUP_ESC_NEXT.of v ∧
        t.fget FAB_RT_CTL.GROUP_ESC = s.fget FAB_RT_CTL.GROUP_ESC ∧
        t.fget FAB_RT_CTL.ESC_WAIT = max 1 (FAB_RT_CTL.ESC_WAIT.of v) ∧ t.fget FAB_RT_CTL.RT_TMO = max 1 (FAB_RT_CTL.RT_TMO.of v)
      (FAB_RT_CTL.SWAP_ARM.of v = 0 → Runs (.swapArm m v) s fun t =>
        set t ∧ t.fget FAB_RT_CTL.SWAP_ARM = s.fget FAB_RT_CTL.SWAP_ARM ∧ OnlyRegs [FAB_RT_CTL.off] s t) ∧
      (FAB_RT_CTL.SWAP_ARM.of v = 1 → s.step < s.pair FAB_RT_AT_LO.off → Runs (.swapArm m v) s fun t =>
        set t ∧ t.flag FAB_RT_CTL.SWAP_ARM = true ∧ OnlyRegs [FAB_RT_CTL.off] s t) ∧
      (FAB_RT_CTL.SWAP_ARM.of v = 1 → s.pair FAB_RT_AT_LO.off ≤ s.step → Runs (.swapArm m v) s fun t =>
        set t ∧ t.flag FAB_RT_CTL.SWAP_ARM = false ∧ FaultOnly { s with regs := (s.setReg FAB_RT_CTL.off (t.reg FAB_RT_CTL.off)).regs } t)) ∧
    (s.flag FAB_RT_CTL.SWAP_ARM = true → s.pair FAB_RT_AT_LO.off = s.step →
      (List.range 16).all (fun p => (s.po p).waiting.isEmpty) = true → Runs .tableSwap s fun t =>
        (∀ q, q < 64 → t.reg (FAB_POS_ACT.off q) = s.reg (FAB_POS_SHD.off q) ∧ t.reg (FAB_POS_SHD.off q) = s.reg (FAB_POS_ACT.off q)) ∧
        (∀ g i, g < 64 → i < 4 → t.reg (FAB_GRP_ACT.off g i) = s.reg (FAB_GRP_SHD.off g i) ∧
          t.reg (FAB_GRP_SHD.off g i) = s.reg (FAB_GRP_ACT.off g i)) ∧
        t.flag FAB_RT_CTL.SWAP_ARM = false ∧ t.fget FAB_RT_CTL.GROUP_ESC = s.fget FAB_RT_CTL.GROUP_ESC_NEXT ∧
        t.fab.quiesceEnd = (if s.fget FAB_RT_CTL.GROUP_ESC_NEXT = s.fget FAB_RT_CTL.GROUP_ESC ∧ s.fab.rerootAt ≠ some s.step
          then s.fab.quiesceEnd else some (s.now + usUnits 8)) ∧
        (∀ p, t.po p = s.po p) ∧ 
        t = { s with regs := t.regs, port := t.port,
                     fab := { s.fab with quiesceEnd := t.fab.quiesceEnd, rerootAt := t.fab.rerootAt } } ∧
        ∀ o, o ≠ FAB_RT_CTL.off → ¬ (FAB_POS_ACT.off 0 ≤ o ∧ o < FAB_POS_SHD.off 64) →
          ¬ (FAB_GRP_ACT.off 0 0 ≤ o ∧ o < FAB_GRP_SHD.off 64 0) → t.reg o = s.reg o) ∧
    (∀ e, s.fab.quiesceEnd = some e → e ≤ s.now → Runs .escapeQuiesceEnd s fun t =>
      t = { s with fab := { s.fab with quiesceEnd := none } })

/-- An LPDDR5 access waits for the end of its channel's calibration slot. At a closed sluice a write or an in-port
packet is dropped and counted in REFUSED, a read is answered without data and AUX 0x01, and a reply is absorbed and
counted. A packet of another slice than that which holds the partition is an isolation violation, counted in
FAB_ISO_EJ; one of another epoch is dropped and counted in FAB_EPOCH_MISS. A row, direct or stream packet of the
current tick lands at the in port that DEST names and counts towards its message; a duplicate is counted in
PRT_RED_DUP. A write of the current tick stores its payload at its address and nothing else; a duplicate stores
nothing. A read is answered with the bytes it names. A reply with another generation is counted in PRT_RST_STALE; the
reply that a restore awaits writes its group. (R110, R164, R211, R248, R274, R289, R290, R359, R360). -/
def Obligations.PacketArrivals : Prop :=
  ∀ (s : State) (p : Packet), epMod p.dest = s.modId → p.whole = true →
    let d := epPart p.dest
    let a := p.addr.toNat
    let rd := meshKey d (s.memRtr d (mlaChan a))
    let reply (aux : Nat) (data : List Byte) : Packet := Packet.sealed { p with
      typ := 6, cls := 1, last := true, len := BitVec.ofNat 11 data.length, esc := false, dest := p.src, src := p.dest,
      count := 1, seq := 0, aux := BitVec.ofNat 8 aux, payload := data }
    let answered (aux : Nat) (data : List Byte) (t : State) : Prop :=
      (t.rt rd).line 5 1 = (s.rt rd).line 5 1 ++ [reply aux data] ∧
      (∀ i c, i < 8 → c < 4 → (i, c) ≠ (5, 1) → (t.rt rd).line i c = (s.rt rd).line i c) ∧
      (∀ k, k ≠ rd → t.rt k = s.rt k) ∧ t = { s with rtr := t.rtr }
    let ours (n : Nat) : Prop := (s.pt d).closed = false ∧ s.ctxHolding d = some n ∧ p.slice.toNat = s.slId n ∧
      p.memForm = true ∧ p.epochLo.toNat = (s.sliceMap n).epoch % 256
    (p.isMem = true → s.now ≤ s.chanFree a → ∀ c ∈ [Instr.memWr p, .mirror p, .memRd p],
      exec c s = exec c { s with now := s.chanFree a }) ∧
    (s.chanFree a ≤ s.now →
    ((s.pt d).closed = true →
      (p.typ ≠ 5 → p.typ ≠ 6 → ∀ c ∈ [Instr.row p, .direct p, .stream p, .memWr p, .mirror p, .red p], Runs c s fun t =>
        t.fget (PRT_SLU_CNT.REFUSED d) = min (s.fget (PRT_SLU_CNT.REFUSED d) + 1) 65535 ∧ OnlyRegs [PRT_SLU_CNT.off d] s t) ∧
      (p.typ = 5 → s.dieDown d = false → Runs (.memRd p) s fun t => answered 1 [] t) ∧
      (Runs (.memRdr p) s fun t =>
        t.fget (PRT_SLU_CNT.ABSORBED d) = min (s.fget (PRT_SLU_CNT.ABSORBED d) + 1) 65535 ∧ OnlyRegs [PRT_SLU_CNT.off d] s t)) ∧
    (∀ c ∈ [Instr.row p, .direct p, .stream p, .memWr p, .mirror p, .red p, .memRd p], (s.pt d).closed = false →
      (∀ n, s.ctxHolding d = some n → p.slice.toNat ≠ s.slId n → Runs c s fun t =>
        t.fget FAB_ISO_EJ.COUNT = min (s.fget FAB_ISO_EJ.COUNT + 1) 65535 ∧
        FaultOnly { s with regs := (s.setReg FAB_ISO_EJ.off (t.reg FAB_ISO_EJ.off)).regs } t) ∧
      (∀ n, s.ctxHolding d = some n → p.slice.toNat = s.slId n → p.memForm = true →
        p.epochLo.toNat ≠ (s.sliceMap n).epoch % 256 → Runs c s fun t =>
        t.fget FAB_EPOCH_MISS.COUNT = min (s.fget FAB_EPOCH_MISS.COUNT + 1) (2 ^ 24 - 1) ∧
        t.cx n = { s.cx n with misses := (s.cx n).misses + 1 } ∧ (∀ k, k ≠ n → t.cx k = s.cx k) ∧
        t = { s with regs := t.regs, ctx := t.ctx } ∧ ∀ o, o ≠ FAB_EPOCH_MISS.off → t.reg o = s.reg o)) ∧
    (∀ n, ours n → s.takes n p = true → p.seq.toNat < p.count.toNat → epClus p.dest < 75 → epCore p.dest < 250 →
      let k := (d * 75 + epClus p.dest) * 250 + epCore p.dest
      let x := (s.co k).inp (epPort p.dest)
      ((s.coreCfg n k).inw (epPort p.dest)).cap ≠ 0 → modeFits ((s.coreCfg n k).inw (epPort p.dest)).mode p = true →
      ∀ c ∈ [Instr.row p, .direct p, .stream p],
        (x.holds p = false → Runs c s fun t =>
          t.co k = ((s.co k).landPacket (s.coreCfg n k) (epPort p.dest) p).modIn (epPort p.dest) (fun x => x.count p) ∧
          OnlyCore k s t) ∧
        (x.holds p = true → Runs c s fun t => t.fget (PRT_RED_DUP.N d) = min (s.fget (PRT_RED_DUP.N d) + 1) 65535 ∧
          OnlyRegs [PRT_RED_DUP.off d] s t)) ∧
    (∀ n, ours n → s.takes n p = true → p.seq.toNat < p.count.toNat → mlaRange a (max 1 p.payload.length) = true →
      ∀ c ∈ [Instr.memWr p, .mirror p],
        (∀ l, countMsg (s.pt d).msgs p = (l, false) → Runs c s fun t =>
          (∀ x, t.memGet x = if a ≤ x ∧ x < a + p.payload.length then p.payload.getD (x - a) 0 else s.memGet x) ∧
          t.pt d = { s.pt d with msgs := l } ∧ (∀ q, q ≠ d → t.pt q = s.pt q) ∧
          t = { s with mem := t.mem, memBad := t.memBad, part := t.part }) ∧
        (∀ l, countMsg (s.pt d).msgs p = (l, true) → Runs c s fun t =>
          t.fget (PRT_RED_DUP.N d) = min (s.fget (PRT_RED_DUP.N d) + 1) 65535 ∧ OnlyRegs [PRT_RED_DUP.off d] s t)) ∧
    (∀ n, ours n → p.aux.toNat < 32 → mlaRange a (32 * (p.aux.toNat + 1)) = true →
      s.memFail a (32 * (p.aux.toNat + 1)) = none → s.dieDown d = false → Runs (.memRd p) s fun t =>
        answered 0 (s.memRead a (32 * (p.aux.toNat + 1))) t) ∧
    (p.gen.toNat ≠ s.gen d → (s.pt d).closed = false → Runs (.memRdr p) s fun t =>
      t.fget (PRT_RST_STALE.N d) = min (s.fget (PRT_RST_STALE.N d) + 1) 65535 ∧
      FaultOnly { s with regs := (s.setReg (PRT_RST_STALE.off d) (t.reg (PRT_RST_STALE.off d))).regs } t) ∧
    (∀ n r, ours n → p.gen.toNat = s.gen d → s.fab.reads.find? (fun e => e.1.msg = p.msg && e.1.dest = p.src) = some r →
      let g := mlaOf (mlaPart r.2) (mlaChan r.2) (512 * (mlaCda r.2 / 512))
      ∀ o, s.ctxHolding (mlaPart r.2) = some o → mlaCda r.2 / 512 < chanGroups → (s.mlaType g = 1 ∨ s.mlaType g = 2) →
        (s.mirrorSrc o (8 * mlaPart r.2 + mlaChan r.2) g).isSome = true → p.payload.length = 512 → Runs (.memRdr p) s fun t =>
          (∀ x, t.memGet x = if g ≤ x ∧ x < g + 512 then p.payload.getD (x - g) 0 else s.memGet x) ∧
          t.fab.reads = s.fab.reads.filter (fun e => e ≠ r) ∧ t.core = s.core ∧ t.eng = s.eng))

/-- A unit that waits at a mesh input of a router, and for which nothing of its rank or a better one has the turn,
goes on to the neighbour that the strand's record names, counted at the port; a unit of a source core leaves the
core's out port; a unit within the reservation whose record ends in memory is written at its place. Units gathered for
a strand for 64 cycles leave in one RBW packet; an RBW packet of the strand's slice, epoch and tick adds its units to
those received, frees its room while it keeps to the reservation, and one without a record is counted in PRT_RTR_BAD.
The units freed at a port leave in one credit packet once it is due, and a credit packet adds its counts to the port's
credit. (R205, R207, R216, R224, R268, R270, R271). -/
def Obligations.StrandsAndCredit : Prop :=
  ∀ s : State,
    (∀ (rt : RouterId) (inp : Fin 8) (slice sid : BitVec 12) (u v : XUnit) n c r,
      s.ctxOf slice.toNat = some n → s.logClus rt.die rt.pos = some c →
      (s.strands n (routerAgent s.modId rt.die c)).find? (fun r => decide (r.sid = sid.toNat) && decide (r.inp = inp.val)) = some r →
      s.working n = true → s.inBypass rt.die rt.pos = false → s.strandRoom rt.x.val rt.y.val r = true →
      s.strandHeld rt.key slice.toNat r = false →
      let k := rt.key
      let i := (s.rt k).seen slice.toNat sid.toNat
      let fifo (t : State) (j q : Nat) : List StrandUnit := Store.get (fun _ => []) (t.rt j).fifo q
      let src := (75 * rt.die + c) * 250 + r.srcCore
      (∀ o a b l, inp.val < 4 → (meshNext rt.x.val rt.y.val inp.val).isSome = true → r.outs = [o] →
        meshNext rt.x.val rt.y.val o = some (a, b) → takeUnit slice.toNat sid.toNat (fifo s k inp.val) = some (v, l) →
        Runs (.strandUnit rt inp slice sid u) s fun t =>
          fifo t k inp.val = l ∧ fifo t (b * 40 + a) (meshBack o) = fifo s (b * 40 + a) (meshBack o) ++ [⟨slice.toNat, sid.toNat, v⟩] ∧
          (t.rt k).seen slice.toNat sid.toNat = i + 1 ∧
          (Store.get (fun _ => RtrCnt.init) (t.rt k).cnt o).stru = (Store.get (fun _ => RtrCnt.init) (s.rt k).cnt o).stru + 1 ∧
          (∀ j, j ≠ k → j ≠ b * 40 + a → t.rt j = s.rt j) ∧ t = { s with rtr := t.rtr }) ∧
      (∀ o a b l, inp.val = 4 → s.isFrozen 1 (s.coreSrc src) 0 = false → r.srcPort = false → r.outs = [o] →
        meshNext rt.x.val rt.y.val o = some (a, b) → (s.co src).out0 = v :: l → Runs (.strandUnit rt inp slice sid u) s fun t =>
          t.co src = { s.co src with out0 := l } ∧
          fifo t (b * 40 + a) (meshBack o) = fifo s (b * 40 + a) (meshBack o) ++ [⟨slice.toNat, sid.toNat, v⟩] ∧
          (t.rt k).seen slice.toNat sid.toNat = i + 1 ∧ (∀ j, j ≠ src → t.co j = s.co j) ∧
          t = { s with core := t.core, rtr := t.rtr }) ∧
      (∀ l, inp.val < 4 → (meshNext rt.x.val rt.y.val inp.val).isSome = true → r.outs = [5] → i < r.units →
        (s.ch (8 * rt.die + r.memCh)).slotEnd ≤ s.now →
        takeUnit slice.toNat sid.toNat (fifo s k inp.val) = some (v, l) → Runs (.strandUnit rt inp slice sid u) s fun t =>
          let a := s.strandAddr n rt.die r i
          (∀ x, t.memGet x = if a ≤ x ∧ x < a + 32 then (leBytes 32 v.toNat).getD (x - a) 0 else s.memGet x) ∧
          fifo t k inp.val = l ∧ (∀ j, j ≠ k → t.rt j = s.rt j) ∧
          t = { s with rtr := t.rtr, mem := t.mem, memBad := t.memBad })) ∧
    (∀ (q : Port) (slice sid : BitVec 12) n, s.ctxOf slice.toNat = some n →
      let key := rbwKey slice.toNat sid.toNat
      let us := Store.get (fun _ => ([] : List StrandUnit)) (s.po q.val).rbw key
      us ≠ [] → Store.get (fun _ => 0) (s.po q.val).rbwAt key + s.cycUnits 64 ≤ s.now →
      Runs (.rbwPacketClose q slice sid) s fun t =>
        let p := s.rbwPacket n q.val sid.toNat (us.map StrandUnit.unit)
        Store.get (fun _ => []) (t.po q.val).txq 4 = Store.get (fun _ => []) (s.po q.val).txq 4 ++ [p] ∧
        p.rbw = true ∧ p.payload = us.flatMap (fun x => leBytes 32 x.unit.toNat) ∧ p.slot = sid ∧
        Store.get (fun _ => ([] : List StrandUnit)) (t.po q.val).rbw key = [] ∧ (∀ j, j ≠ q.val → t.po j = s.po j) ∧
        t = { s with port := t.port }) ∧
    (∀ (q : Port) (p : Packet) n r, p.good = true → (List.range 16).any (fun k => (s.portStrand k q.val p.slot.toNat).isSome) = true →
      s.ctxOf p.slice.toNat = some n → s.portStrand n q.val p.slot.toNat = some r → r.inp = 0 →
      p.epochLo.toNat = (s.sliceMap n).epoch % 256 → s.sameTick n p = true →
      Store.get (fun _ => 0) (s.po q.val).strandM (rbwKey p.slice.toNat r.sid) + p.units ≤ r.units →
      Runs (.rbwPacket q p) s fun t =>
        (t.po q.val).strandRx = (s.po q.val).strandRx ++
          (payloadUnits p.payload).map (fun u => ⟨p.slice.toNat, p.slot.toNat, u⟩) ∧
        Store.get (fun _ => 0) (t.po q.val).freed 4 = Store.get (fun _ => 0) (s.po q.val).freed 4 + p.units ∧
        (∀ j, j ≠ q.val → t.po j = s.po j) ∧ t = { s with port := t.port }) ∧
    (∀ (q : Port) (p : Packet), p.good = true → (List.range 16).any (fun k => (s.portStrand k q.val p.slot.toNat).isSome) = false →
      Runs (.rbwPacket q p) s fun t =>
        (∃ k, (t.rt k).bad = min ((s.rt k).bad + 1) 65535 ∧ ∀ j, j ≠ k → t.rt j = s.rt j) ∧
        (t.po q.val).strandRx = (s.po q.val).strandRx ∧ t = { s with rtr := t.rtr, port := t.port }) ∧
    (∀ q : Port, s.creditDue q.val = true → Runs (.linkCreditSend q) s fun t =>
      (∃ p, Store.get (fun _ => []) (t.po q.val).txq 5 = Store.get (fun _ => []) (s.po q.val).txq 5 ++ [p] ∧ p.typ = 0 ∧
        p.aux = 0xFF ∧ p.payload = (List.range 5).flatMap (fun c => leBytes 2 (Store.get (fun _ => 0) (s.po q.val).freed c)) ++
          List.replicate 6 0) ∧
      (t.po q.val).freed = [] ∧ (∀ j, j ≠ q.val → t.po j = s.po j) ∧ t = { s with port := t.port }) ∧
    (∀ (q : Port) (p : Packet), p.typ = 0 → p.aux = 0xFF → p.good = true → Runs (.linkCredit q p) s fun t =>
      (∀ c, c < 5 → Store.get (fun _ => 0) (t.po q.val).credit c =
        Store.get (fun _ => 0) (s.po q.val).credit c + leAt p.payload (2 * c) 2) ∧
      (∀ j, j ≠ q.val → t.po j = s.po j) ∧ t = { s with port := t.port })

/-- Every element that a contribution of a core's out port, of the memory source or of a child agent completes is
combined with the tree's partial value, and no other element changes; a child's chunk is noted as delivered. A
complete chunk of a tree with one chunk leaves for the parent of an agent that is not the root. A prune report adds to
PRUNED. A fold round computes the digests of every active slice again and clears the epoch misses; a child's report is
folded into the module's value; a millisecond after the round began the value goes to the parent. (R283, R284, R285,
R286, R289, R297, R298, R328). -/
def Obligations.TreesAndFolds : Prop :=
  ∀ s : State,
    let val (t : TreeSt) (e : Nat) : Word := Store.get (fun _ => (0 : Word)) t.vals e
    let joined (r : TreeRec) (x : TreeSt) (e : Nat) (v : Val) : Word := BitVec.ofNat 32
      (r.combine (if x.first.contains e = true then some (ieeeVal r.cfmt (val x e).toNat) else none) v).1
    (∀ (c : CoreId) (port : Bool) (u v : XUnit) n i r j l, s.ctxHolding (corePart c.key) = some n →
      s.treeOfPort n c.key port = some (i, r, j) → s.working n = true → s.isFrozen 1 (s.coreSrc c.key) 0 = false →
      (if port = true then (s.co c.key).out1 else (s.co c.key).out0) = v :: l →
      let k := c.key / 250
      let x := s.tree k i
      let us := Store.get (fun _ => ([] : List XUnit)) x.units j
      entIn x.alt (r.ents.getD j 0) = true → 32 * us.length < r.inBytes → Runs (.treeContribution c port u) s fun t =>
        t.co c.key = (if port = true then { s.co c.key with out1 := l } else { s.co c.key with out0 := l }) ∧
        Store.get (fun _ => ([] : List XUnit)) (t.tree k i).units j = us ++ [v] ∧
        (∀ e, val (t.tree k i) e =
          if r.heldIn (32 * us.length) ≤ e ∧ e < r.heldIn (32 * (us.length + 1)) then
            joined r x e (r.widen (r.elemOf ((us ++ [v]).flatMap (fun z => leBytes 32 z.toNat)) e)).1 else val x e) ∧
        ∀ q, q ≠ c.key → t.co q = s.co q) ∧
    (∀ (k : ClusId) (i : Fin 256) n r, s.ctxHolding (k.key / 75) = some n →
      (s.trees n (k.key / 75) (k.key % 75))[i.val]? = some r → s.working n = true → r.memEn = true →
      (s.tree k.key i.val).got.contains (memContrib, 0) = false → s.memBad = [] → Runs (.treeMemSource k i) s fun t =>
        let a := mlaOf (k.key / 75) r.srcCh (64 * (r.srcCda + (s.slStep n % max 1 r.wrap) * r.step64 r.ifmt))
        (∀ e, val (t.tree k.key i.val) e = if e < r.n then
          joined r (s.tree k.key i.val) e (r.widen (r.elemOf (s.memRead a (r.n * elemBytes r.ifmt)) e)).1 else val (s.tree k.key i.val) e) ∧
        (∀ c, c < r.chunks → (memContrib, c) ∈ (t.tree k.key i.val).got) ∧ t.core = s.core) ∧
    (∀ (p : Packet) n i r j, epMod p.dest = s.modId → p.whole = true → (s.pt (epPart p.dest)).closed = false →
      s.ctxHolding (epPart p.dest) = some n → p.typ = 8 → p.epochLo.toNat = (s.sliceMap n).epoch % 256 → s.takes n p = true →
      epClus p.dest < 75 → epCore p.dest = 0xFF →
      let k := 75 * epPart p.dest + epClus p.dest
      let x := s.tree k i
      let id := bits p.src.toNat 22 0
      let c := p.seq.toNat
      let sz := elemBytes r.cfmt
      s.treeRid n k p.msg.toNat = some (i, r) → p.count.toNat = r.chunks → c < r.chunks →
      firstBelow r.ents.length (fun q => entChild (r.ents.getD q 0) && decide (entId (r.ents.getD q 0) = id) &&
        entIn x.alt (r.ents.getD q 0)) = some j →
      s.fenced n id = false → p.payload.length = (r.span c).2 * sz → x.got.contains (j, c) = false →
      (Runs (.red p) s fun t =>
        (∀ e, val (t.tree k i) e = if (r.span c).1 ≤ e ∧ e < (r.span c).1 + (r.span c).2 then
          joined r x e (ieeeVal r.cfmt (leAt p.payload (sz * (e - (r.span c).1)) sz)) else val x e) ∧
        (t.tree k i).got = x.got ++ [(j, c)] ∧ t.core = s.core) ∧
      (r.chunks = 1 → r.root = false → x.alt = false → s.isFrozen 3 (s.clusSrc k) i = false → x.sent = [] →
        s.fencedKids n r false = 0 → (s.expected n r false).all (fun y => (x.got ++ [(j, c)]).contains (y, 0)) = true →
        Runs (.red p) s fun t => (t.tree k i).sent = [0] ∧
          ∃ q : Packet, (t.rt (s.clusRtr k)).line 4 0 = (s.rt (s.clusRtr k)).line 4 0 ++ [q] ∧ q.typ = 8 ∧
            q.dest = BitVec.ofNat 32 r.parent ∧ q.payload = (t.tree k i).chunkBytes r 0 ∧ q.msg = BitVec.ofNat 16 r.rid)) ∧
    (∀ (p : Packet) n i r, epMod p.dest = s.modId → (s.pt (epPart p.dest)).closed = false → epClus p.dest < 75 →
      p.typ = 0xA → p.aux = 0x10 → epMod p.src / 64 = s.modId / 64 → s.ctxHolding (epPart p.dest) = some n → s.takes n p = true →
      let k := 75 * epPart p.dest + epClus p.dest
      s.treeRid n k (bits (leAt p.payload 0 4) 11 0) = some (i, r) → Runs (.pruneReport p) s fun t =>
        t.tree k i = { s.tree k i with pruned := (s.tree k i).pruned + bits (leAt p.payload 4 4) 7 0 } ∧
        (∀ j, j ≠ k → t.cl j = s.cl j) ∧ t = { s with clus := t.clus }) ∧
    (s.hubUp = true → s.fwRuns = true → s.flag FAB_FOLD_CTL.EN = true → s.flag FAB_SELF.VALID = true →
      (∀ x, s.mgr.foldAt = some x → x + msUnits (s.fget FAB_FOLD_CTL.PERIOD) ≤ s.now) →
      let ns := (List.range 16).filter (fun n => s.flag (RIG_SL_STAT.ACTIVE n))
      ns.all (fun n => !s.foldReady (s.foldOwn n)) = true → Runs .foldRound s fun t =>
        t.mgr = { s.mgr with foldRound := s.mgr.foldRound + 1, foldAt := some s.now, folds := ns.map s.foldOwn } ∧
        (∀ n, t.cx n = if n ∈ ns then { s.cx n with misses := 0 } else s.cx n) ∧
        (∀ n i, n ∈ ns → i < 4 → t.reg (RIG_SL_LOCAL.off n i) = BitVec.ofNat 32 (leAt (s.foldOwn n).xor (4 * i) 4)) ∧
        t = { s with mgr := t.mgr, ctx := t.ctx, regs := t.regs }) ∧
    (∀ p : Packet, s.hubUp = true → p.typ = 0xA → p.aux = 0x01 → p.fromHub = true → modGroup (epMod p.src) = modGroup s.modId →
      epMod p.dest = s.modId → s.flag FAB_SELF.VALID = true →
      let f := foldOf p.payload (epMod p.src)
      (∀ g, s.mgr.folds.find? (fun g => g.slice = f.slice) = some g → g.kids.contains (epMod p.src) = false →
        s.foldReady (g.fold f) = false → Runs (.foldReport p) s fun t =>
          t = { s with mgr := { s.mgr with folds := s.mgr.folds.map (fun y => if y.slice = f.slice then g.fold f else y) } }) ∧
      (s.mgr.folds.find? (fun g => g.slice = f.slice) = none → s.ctxOf f.slice = none → Runs (.foldReport p) s fun t =>
        t = { s with mgr := { s.mgr with folds := s.mgr.folds ++ [f] } })) ∧
    (∀ x f c, s.mgr.foldAt = some x → x + msUnits 1 ≤ s.now → s.mgr.folds = [f] → s.acting = false → s.flag FAB_MGR_ID.VALID = true →
      s.escapeOut (s.fget FAB_MGR_ID.ACTING) = some c → c ≤ 15 → Runs .foldTimeout s fun t =>
        (∃ q : Packet, (t.rt s.hubRtr).line 6 3 = (s.rt s.hubRtr).line 6 3 ++ [q] ∧ q.typ = 0xA ∧ q.aux = 0x01 ∧
          q.payload = f.body s.mgr.foldRound ∧ q.dest = hubEp (s.peer c).1) ∧
        t = { s with rtr := t.rtr, mgr := { s.mgr with folds := [] } })

/-- A frame time whose every active lane decodes and passes CRC and whose SEQ is the one expected is accepted: the
next SEQ is expected, the frame times that its ACK covers leave the retry buffer, and a whole packet that its units
carry joins the receive buffer of its channel. A frame time with a failed lane is not accepted and asks once for a
retry from the expected SEQ. A frame time sent by an ACTIVE port carries one coded message per active lane, with the
next SEQ, the latest SEQ accepted and the units that the output grants, and is kept for retry; it carries only IDLE
units while 256 frame times are outstanding. In DETECT and EQUALIZE every lane sends its training block. A NAK, or an
acknowledgement overdue, sends every kept unit from its SEQ on again. TICK_EDGE is kept. (R218, R219, R220, R221,
R223, R225, R246). -/
def Obligations.LinkFrames : Prop :=
  ∀ (s : State) (q : Port),
    let p := q.val
    let x := s.po p
    let st := s.fget (LNK_STAT.STATE p)
    let same (t : State) : Prop := (∀ j, j ≠ p → t.po j = s.po j) ∧ t.core = s.core ∧ t.mem = s.mem ∧ t.rtr = s.rtr ∧ t.ctx = s.ctx
    (∀ (act : Word) (lanes : List LaneRx), 4 ≤ st → st ≤ 6 → x.rxChange = [] → x.cal = none →
      (List.range 32).filter act.getLsbD = x.rxAct →
      (s.framesIn p lanes).all (fun e => !(x.lane e.1).faulty (e.2.2.judge s.now e.2.1)) = true →
      let ok := x.rxAct.map (fun j => gotMsg (s.framesIn p lanes) (x.physLane j))
      (ctlMsgs ok).all (fun m => m % 16 = 0) = true →
      (∀ m ms, ok = (m :: ms).map some → (m :: ms).all (fun f => f.seq.toNat = x.seqRx) = true →
        ((frameUnits (m :: ms)).all (fun u => u.1 = 0) = true → Runs (.frame q ⟨act, lanes⟩) s fun t =>
          (t.po p).seqRx = (x.seqRx + 1) % 4096 ∧ (t.po p).nakOut = false ∧
          (t.po p).retry = x.retry.filter (fun e => !seqLe e.seq m.ack.toNat) ∧
          (t.po p).rxPart = x.rxPart ∧ (t.po p).rxq = x.rxq ∧ (t.po p).strandRx = x.strandRx ∧ same t) ∧
        (∀ us, st = 6 → x.rxPart = [] → us ≠ [] → (frameUnits (m :: ms)).filter (fun u => u.1 ≠ 0) = us.map (fun u => (1, u)) →
          us.length = (packetOf us).units → rxChan (packetOf us) ≠ 5 → Runs (.frame q ⟨act, lanes⟩) s fun t =>
          (t.po p).seqRx = (x.seqRx + 1) % 4096 ∧ (t.po p).rxPart = [] ∧
          Store.get (fun _ => []) (t.po p).rxq (rxChan (packetOf us)) =
            Store.get (fun _ => []) x.rxq (rxChan (packetOf us)) ++ [packetOf us] ∧ same t)) ∧
      (ok.contains none = true → x.nakOut = false → Runs (.frame q ⟨act, lanes⟩) s fun t =>
        (t.po p).seqRx = x.seqRx ∧ (t.po p).nakOut = true ∧ (t.po p).rxPart = x.rxPart ∧ (t.po p).rxq = x.rxq ∧
        (t.po p).strandRx = x.strandRx ∧ (t.po p).ctl = x.ctl ++ [BitVec.ofNat 48 (5 + x.seqRx % 4096 * 2 ^ 4)] ∧ same t)) ∧
    (st = 6 → x.txChange = [] → x.txAct.Nodup → x.txAct.all (fun i => i < x.size) = true → x.resend = [] → x.retry.length < 256 →
      Runs (.frameTime q) s fun t =>
        let w := x.txAct.length
        let g := x.fill (s.txRules p) (20 * w) false
        (∃ cs ls, t.out = s.out ++ [.frame p (laneMask x.txAct) ls] ∧ ls.length = x.size ∧
          ∀ i, i < w → ls.getD (x.txAct.getD i 0) .idle =
            .frame ((x.lane (x.txAct.getD i 0)).send (txMsg w x.seqTx (x.seqRx + 4095) g.1 cs i)).1) ∧
        (t.po p).seqTx = (x.seqTx + 1) % 4096 ∧ (t.po p).txq = g.2.txq ∧
        (t.po p).retry = x.retry ++ [⟨x.seqTx, g.1.filter (fun u => u.1 ≠ 0), s.now⟩] ∧
        t = { s with port := t.port, out := t.out } ∧ ∀ j, j ≠ p → t.po j = s.po j) ∧
    (st = 6 → x.txChange = [] → 256 ≤ x.retry.length → Runs (.frameTime q) s fun t =>
        (t.po p).retry = x.retry ++ [⟨x.seqTx, [], s.now⟩] ∧ (t.po p).txq = x.txq ∧ (t.po p).resend = x.resend ∧
        (t.po p).seqTx = (x.seqTx + 1) % 4096 ∧ t = { s with port := t.port, out := t.out } ∧ ∀ j, j ≠ p → t.po j = s.po j) ∧
    (st = 6 → x.txChange = [] → x.retry.length < 256 → 20 * x.txAct.length ≤ x.resend.length → Runs (.frameTime q) s fun t =>
        (t.po p).retry = x.retry ++ [⟨x.seqTx, (x.resend.take (20 * x.txAct.length)).filter (fun u => u.1 ≠ 0), s.now⟩] ∧
        (t.po p).resend = x.resend.drop (20 * x.txAct.length) ∧ (t.po p).txq = x.txq ∧ t = { s with port := t.port, out := t.out }) ∧
    (st = 1 ∨ st = 2 → x.txCal = [] → Runs (.frameTime q) s fun t =>
      t = { s with out := s.out ++ [.frame p 0 ((List.range x.size).map (fun i =>
        .block (blockOf ((x.lane i).word i (s.flag (LNK_CTL.PRECODE p))))))] }) ∧
    (let replay (seq : Nat) (t : State) : Prop :=
      t.po p = { x with
        retry := x.retry.filter (fun e => !seqLe seq e.seq),
        seqTx := (((x.retry.filter (fun e => seqLe seq e.seq)).head?).map RetryEnt.seq).getD seq,
        resend := (x.retry.filter (fun e => seqLe seq e.seq)).flatMap RetryEnt.units ++ x.resend } ∧
      (∀ j, j ≠ p → t.po j = s.po j) ∧ t.pair (LNK_REPLAY_LO.off p) = (s.pair (LNK_REPLAY_LO.off p) + 1) % 2 ^ 64 ∧
      t = { s with port := t.port, regs := t.regs } ∧
      ∀ o, o ≠ LNK_REPLAY_LO.off p → o ≠ LNK_REPLAY_LO.off p + 4 → t.reg o = s.reg o
    (∀ seq : BitVec 12, x.retry.any (fun e => seqLe seq.toNat e.seq) = true → Runs (.nak q seq) s (replay seq.toNat)) ∧
    (∀ e l, x.retry = e :: l → e.at_ + s.fget (LNK_DELAY.NS p) + usUnits 1 ≤ s.now → Runs (.ackTimeout q) s (replay e.seq))) ∧
    (∀ low : BitVec 8, Runs (.tickEdge q low) s fun t =>
      t.po p = { x with peerTick := low.toNat } ∧ (∀ j, j ≠ p → t.po j = s.po j) ∧ t = { s with port := t.port })

/-- SIGNAL_DETECT with 4 lanes of signal leads from DETECT to EQUALIZE, and EQUALIZE leads to LOCK when every lane
used is ready or after 400 ms. A training block is mapped with its polarity, and its request is answered by the lane's
next block. EXCLUDED leads to DETECT after 60 s, unless the port waits for an optical module. ECHO is answered, and
its reply gives the delay. The last segment of the peer's block sets HOLD_CAUSE by its tests and leads to MGMT, or to
ACTIVE. EN leads from OFF to DETECT and back, RETRAIN resets the port into DETECT and UNPARK empties the parked lanes;
DATA_EN leads a port without a hold to ACTIVE with a ready peer, and has no effect in a hold. A write of an
expectation stores it and tests again. (R230, R231, R232, R233, R234, R235, R246). -/
def Obligations.LinkTraining : Prop :=
  ∀ (s : State) (q : Port),
    let p := q.val
    let x := s.po p
    let st := s.fget (LNK_STAT.STATE p)
    let own (l : List Nat) (t : State) : Prop := FaultOnly { s with port := t.port, regs := t.regs } t ∧
      (∀ j, j ≠ p → t.po j = s.po j) ∧ ∀ o, o ∉ l → o ∉ faultRegs → t.reg o = s.reg o
    (∀ m : Word, st = 1 → Runs (.signalDetect q m) s fun t =>
      (∀ i, i < x.size → ((t.po p).lane i).sigLost = !m.getLsbD i) ∧
      t.fget (LNK_STAT.STATE p) = (if 4 ≤ (t.usable p).length then 2 else 1) ∧ own [LNK_STAT.off p] t) ∧
    (st = 2 → x.since + msUnits 400 ≤ s.now → Runs (.equalizeTimeout q) s fun t =>
      t.fget (LNK_STAT.STATE p) = 3 ∧ t.po p = { x with since := s.now } ∧ own [LNK_STAT.off p] t) ∧
    (∀ (i : Fin 32) (head pattern : List (BitVec 2)) w inv, st = 1 ∨ st = 2 → i.val < x.size →
      blockWord (head ++ pattern) = some (w, inv) → Runs (.trainingBlock q i head pattern) s fun t =>
        let l := (t.po p).lane i.val
        l.inverted = inv ∧ l.order = some (bits w 5 0) ∧ l.ready = bit w 14 ∧
        l.precode = (s.flag (LNK_CTL.PRECODE p) && bit w 15) ∧ (bits w 9 6 = 0 → l.answer = 0) ∧ (8 ≤ bits w 9 6 → l.answer = 3) ∧
        (l.answer = 1 → l.taps = (x.lane i.val).taps.move (bits w 9 6)) ∧ (l.answer = 2 → l.taps = (x.lane i.val).taps) ∧
        t.fget (LNK_STAT.STATE p) = (if st = 2 ∧ t.allReady p = true then 3 else st) ∧
        (∀ j, j ≠ p → t.po j = s.po j) ∧ t.core = s.core ∧ t.mem = s.mem ∧ t.rtr = s.rtr) ∧
    (st = 8 → s.flag (LNK_STAT.OOS p) = false → s.fget (LNK_CTL.MEDIUM p) ≠ 2 → x.since + sUnits 60 ≤ s.now → Runs (.excludedRetry q) s fun t =>
      t.fget (LNK_STAT.STATE p) = 1 ∧ (t.po p).fails = 0 ∧ own [LNK_STAT.off p] t) ∧
    (∀ token : BitVec 12, Runs (.echo q token) s fun t =>
      t.po p = { x with ctl := x.ctl ++ [BitVec.ofNat 48 (10 + token.toNat * 2 ^ 4)] } ∧ (∀ j, j ≠ p → t.po j = s.po j) ∧
      t = { s with port := t.port }) ∧
    (∀ (token : BitVec 12) (since : Nat), x.token = some (token.toNat, since) → Runs (.echoReply q token) s fun t =>
      t.fget (LNK_DELAY.NS p) = min 65535 (s.now - since) ∧ t.po p = { x with token := none } ∧ own [LNK_DELAY.off p] t) ∧
    (∀ (seg : BitVec 4) (d : Word), 4 ≤ st → st ≤ 6 → seg.toNat < 12 →
      let held := Store.insert x.ident seg.toNat d
      let b := bytesOf (held.map Prod.snd)
      let whole := decide (held.length = 12) && decide (leAt b 44 4 = crc32 (b.take 44))
      (whole = false → Runs (.ident q seg d) s fun t => t.po p = { x with ident := held } ∧
        (∀ j, j ≠ p → t.po j = s.po j) ∧ t = { s with port := t.port }) ∧
      (whole = true → st = 4 → s.fget (LNK_STAT.HOLD_CAUSE p) ≠ 2 → Runs (.ident q seg d) s fun t =>
        (∀ i, i < 12 → t.reg (LNK_PEER.off p i) = (held.map Prod.snd).getD i 0) ∧
        t.fget (LNK_STAT.PEER_READY p) = b2n (bit (leAt b 22 2) 2) ∧ t.fget (LNK_STAT.HOLD_CAUSE p) = t.holdTest p ∧
        t.fget (LNK_STAT.STATE p) = (if t.flag (LNK_CTL.DATA_EN p) = true ∧ t.holdTest p = 0 ∧
          t.flag (LNK_STAT.PEER_READY p) = true then 6 else 5) ∧
        own ([LNK_STAT.off p, LNK_CTL.off p] ++ (List.range 12).map (LNK_PEER.off p)) t)) ∧
    (∀ (m : Master) (v : Word), s.admits m (LNK_CTL.off p) v = true → s.flag (LNK_STAT.OOS p) = false →
      (s.flag (LNK_CTL.EN p) = false → (LNK_CTL.EN p).of v = 1 → (LNK_CTL.MEDIUM p).of v ≠ 2 → (LNK_CTL.DATA_EN p).of v = 0 → (LNK_CTL.RETRAIN p).of v = 0 →
        (LNK_CTL.UNPARK p).of v = 0 → Runs (.portEnable m q v) s fun t =>
        t.fget (LNK_STAT.STATE p) = 1 ∧ t.flag (LNK_CTL.EN p) = true ∧ (t.po p).grans = s.granules p ∧
        own [LNK_CTL.off p, LNK_STAT.off p] t) ∧
      (s.flag (LNK_CTL.EN p) = true → (LNK_CTL.EN p).of v = 0 → (LNK_CTL.DATA_EN p).of v = 0 →
        Runs (.portEnable m q v) s fun t => t.fget (LNK_STAT.STATE p) = 0 ∧ t.flag (LNK_CTL.EN p) = false ∧
        t.core = s.core ∧ t.mem = s.mem) ∧
      (s.flag (LNK_CTL.EN p) = true → (LNK_CTL.EN p).of v = 1 → (LNK_CTL.DATA_EN p).of v = 0 → (LNK_CTL.RETRAIN p).of v = 1 →
        (LNK_CTL.MEDIUM p).of v ≠ 2 →
        (st = 8 → Runs (.retrain m q v) s fun t => t.fget (LNK_STAT.STATE p) = 1 ∧ t.fget (LNK_LANE_PARK.LANES p) = 0 ∧
          (t.po p).retrain = true ∧ t.core = s.core ∧ t.mem = s.mem) ∧
        (st ≠ 8 → (x.retrains.filter (fun u => decide (s.now < u + sUnits 600))).length < 2 →
          (4 ≤ st ∧ x.fails < 3) ∨ x.fails < 2 → Runs (.retrain m q v) s fun t =>
          t.fget (LNK_STAT.STATE p) = 1 ∧ t.fget (LNK_LANE_PARK.LANES p) = 0 ∧ (t.po p).retrain = true ∧
          (t.po p).retry = [] ∧ (t.po p).strandTx = [] ∧ (t.po p).txq = [] ∧ s.now ∈ (t.po p).retrains ∧
          t.core = s.core ∧ t.mem = s.mem)) ∧
      ((LNK_CTL.EN p).of v = s.fget (LNK_CTL.EN p) → (LNK_CTL.DATA_EN p).of v = 0 → (LNK_CTL.RETRAIN p).of v = 0 →
        (LNK_CTL.UNPARK p).of v = 1 → st ≠ 5 → st ≠ 6 → x.dataReady = false → Runs (.unpark m q v) s fun t =>
        t.fget (LNK_LANE_PARK.LANES p) = 0 ∧ own [LNK_CTL.off p, LNK_LANE_PARK.off p] t)) ∧
    (∀ (m : Master) (v : Word), s.admits m (LNK_CTL.off p) v = true → s.flag (LNK_STAT.OOS p) = false →
      s.flag (LNK_CTL.EN p) = true → (LNK_CTL.EN p).of v = 1 → (LNK_CTL.DATA_EN p).of v = 1 → (LNK_CTL.RETRAIN p).of v = 0 →
      (LNK_CTL.UNPARK p).of v = 0 →
      (s.flag (LNK_STAT.HOLD_CAUSE p) = false → st = 5 → s.flag (LNK_STAT.PEER_READY p) = true → Runs (.dataEn m q v) s fun t =>
        t.fget (LNK_STAT.STATE p) = 6 ∧ t.flag (LNK_CTL.DATA_EN p) = true ∧ (t.po p).dataReady = true ∧
        own [LNK_CTL.off p, LNK_STAT.off p] t) ∧
      (s.flag (LNK_STAT.HOLD_CAUSE p) = true → st = 5 → x.dataReady = false → Runs (.dataEn m q v) s fun t =>
        t.fget (LNK_CTL.DATA_EN p) = s.fget (LNK_CTL.DATA_EN p) ∧ t.fget (LNK_STAT.STATE p) = 5 ∧
        (s.flt.queue.length < 1024 → ∃ e, t.flt.queue = s.flt.queue ++ [e] ∧ e.cls = 0 ∧ e.msg.code = 0x0002) ∧
        own [LNK_CTL.off p] t)) ∧
    (∀ (m : Master) (i : Fin 5) (v : Word),
      let off := if i.val < 4 then LNK_EXP.off p i.val else LNK_EXP_ID.off p
      s.admits m off v = true →
      (st ≠ 5 → st ≠ 6 → Runs (.expectationWrite m q i v) s fun t =>
        (i.val < 4 → t.reg off = v) ∧ (i.val = 4 → t.fget (LNK_EXP_ID.MODID p) = (LNK_EXP_ID.MODID p).of v ∧
          t.fget (LNK_EXP_ID.PORT p) = (LNK_EXP_ID.PORT p).of v ∧ t.fget (LNK_EXP_ID.VALID p) = (LNK_EXP_ID.VALID p).of v) ∧
        OnlyRegs [off] s t) ∧
      (st = 5 → Runs (.expectationWrite m q i v) s fun t =>
        t.fget (LNK_STAT.HOLD_CAUSE p) = t.holdTest p ∧ own [off, LNK_STAT.off p] t))

/-- A faulty lane leaves the receiving direction where 4 would remain: it is shown in LNK_LANE_OUT, counted in
LNK_SPLICES, parked with the third splice within 600 s, and LANE_DROP is queued for the peer, with a NAK for the
expected SEQ; so is the dominant lane of a retry storm, which sets STORM. A lane that has been clean for 1 s and is
not parked leaves LNK_LANE_OUT outside a calibration window, and LANE_ADD is queued. LANE_DROP and LANE_ADD of the
peer note the change of the transmitting direction. A REFUSE of an armed commit is noted, and goes out once on every
ACTIVE port. Polls of an optical module show PRESENT, READY, TEMP and ALARM; a port that waits for its module begins
to train once the module is ready, and stays EXCLUDED with one of a revision before CMIS 5.0; an absent module resets
a port in service. (R191, R226, R239, R240, R242, R243, R244, R246). -/
def Obligations.LaneService : Prop :=
  ∀ (s : State) (q : Port),
    let p := q.val
    let x := s.po p
    let st := s.fget (LNK_STAT.STATE p)
    let own (l : List Nat) (t : State) : Prop := FaultOnly { s with port := t.port, regs := t.regs } t ∧
      (∀ j, j ≠ p → t.po j = s.po j) ∧ ∀ o, o ∉ l → o ∉ faultRegs → t.reg o = s.reg o
    let few : Prop := (x.retrains.filter (fun u => decide (s.now < u + sUnits 600))).length < 2 ∧ x.fails < 3
    let spliced (i : Nat) (t : State) : Prop :=
      (t.po p).rxAct = x.rxAct.filter (fun j => j ≠ i) ∧
      t.fget (LNK_STAT.WIDTH p) = (x.rxAct.filter (fun j => j ≠ i)).length % 64 ∧
      t.fget (LNK_LANE_OUT.LANES p) = s.fget (LNK_LANE_OUT.LANES p) ||| 2 ^ i ∧
      t.fget (LNK_SPLICES.SPLICES p) = min (s.fget (LNK_SPLICES.SPLICES p) + 1) 65535 ∧ t.fget (LNK_SPLICES.LANE p) = i ∧
      t.fget (LNK_LANE_PARK.LANES p) =
        (if 2 ≤ ((x.lane (x.physLane i)).splices.filter (fun u => decide (s.now < u + sUnits 600))).length
          then s.fget (LNK_LANE_PARK.LANES p) ||| 2 ^ i else s.fget (LNK_LANE_PARK.LANES p)) ∧
      (t.po p).ctl = x.ctl ++ [BitVec.ofNat 48 (laneDropMsg i x.seqRx false), BitVec.ofNat 48 (5 + x.seqRx % 4096 * 2 ^ 4)] ∧
      own [LNK_STAT.off p, LNK_LANE_ACT.off p, LNK_LANE_OUT.off p, LNK_LANE_PARK.off p, LNK_SPLICES.off p] t
    (∀ (i : Fin 32) (cause : LaneCause), 4 ≤ st → st ≤ 6 → x.rxAct.contains (x.logLane i.val) = true → x.logLane i.val < 32 →
      (5 ≤ x.rxAct.length → Runs (.laneFault q i cause) s (spliced (x.logLane i.val))) ∧
      (x.rxAct.length < 5 → few → s.fget (LNK_CTL.MEDIUM p) ≠ 2 → Runs (.laneFault q i cause) s fun t =>
        t.fget (LNK_STAT.STATE p) = 1 ∧ t.core = s.core ∧ t.mem = s.mem)) ∧
    (∀ i : Fin 32, 4 ≤ st → st ≤ 6 → (s.fget (LNK_LANE_OUT.LANES p)).testBit i.val = true →
      (s.fget (LNK_LANE_PARK.LANES p)).testBit i.val = false → (x.lane (x.physLane i.val)).clean s.now = true →
      (s.calTick && decide (s.calFrom ≤ s.now) && decide (s.now < s.calTo)) = false → Runs (.laneClean q i) s fun t =>
        (∀ j, j < 32 → (t.fget (LNK_LANE_OUT.LANES p)).testBit j = ((s.fget (LNK_LANE_OUT.LANES p)).testBit j && decide (j ≠ i.val))) ∧
        t.po p = { x with
          ctl := x.ctl ++ [BitVec.ofNat 48 (laneAddMsg i.val (s.leadSeq p))],
          rxChange := x.rxChange ++ [(i.val, s.leadSeq p, true)] } ∧ own [LNK_LANE_OUT.off p] t) ∧
    (s.fget (LNK_CTL.STORM p) < (x.naks.filter (fun u => decide (s.now < u + usUnits 100))).length → 4 ≤ st → st ≤ 6 →
      (∀ (o : Option (Fin 32)) l, s.dominant p (o.map Fin.val) = some l → x.rxAct.contains l = true → l < 32 → 5 ≤ x.rxAct.length → Runs (.retryStorm q o) s fun t =>
        spliced l t ∧ t.flag (LNK_STAT.STORM p) = true) ∧
      (∀ o : Option (Fin 32), s.dominant p (o.map Fin.val) = none → few → s.fget (LNK_CTL.MEDIUM p) ≠ 2 → Runs (.retryStorm q o) s fun t =>
        t.flag (LNK_STAT.STORM p) = true ∧ t.fget (LNK_STAT.STATE p) = 1 ∧ t.core = s.core ∧ t.mem = s.mem)) ∧
    (∀ (i : Fin 32) (seq : BitVec 12) (cal : Bool),
      (Runs (.laneDrop q i seq cal) s fun t => t.po p = { x with
          txChange := x.txChange ++ [(i.val, seq.toNat, false)],
          txCal := if cal = true then addKey x.txCal i.val else x.txCal.filter (fun j => j ≠ i.val) } ∧
        (∀ j, j ≠ p → t.po j = s.po j) ∧ t = { s with port := t.port }) ∧
      (Runs (.laneAdd q i seq) s fun t => t.po p = { x with txChange := x.txChange ++ [(i.val, seq.toNat, true)] } ∧
        (∀ j, j ≠ p → t.po j = s.po j) ∧ t = { s with port := t.port })) ∧
    (∀ (slice : BitVec 12) (step : BitVec 16) n, s.ctxOf slice.toNat = some n → s.fget (RIG_SL_STAT.SHADOW n) = 3 →
      s.pair (RIG_SL_AT_LO.off n) % 2 ^ 16 = step.toNat → (s.cx n).refused = false →
      s.mgr.load.armed.any (fun a => a.1 = slice.toNat && a.2 % 2 ^ 16 = step.toNat) = false → Runs (.refuse slice step) s fun t =>
        t.cx n = { s.cx n with refused := true } ∧ (∀ k, k ≠ n → t.cx k = s.cx k) ∧
        (∀ j, j < 16 → t.po j = if s.fget (LNK_STAT.STATE j) = 6 then { s.po j with ctl := (s.po j).ctl ++
          [BitVec.ofNat 48 (4 + slice.toNat * 2 ^ 4 + step.toNat * 2 ^ 16)] } else s.po j) ∧
        t = { s with ctx := t.ctx, port := t.port }) ∧
    (∀ (ready : Bool) (rev temp : BitVec 8), s.fget (LNK_CTL.MEDIUM p) = 2 →
      (x.optAt = none → 0x50 ≤ rev.toNat → Runs (.cmisMonitorPoll q (some ready) rev temp) s fun t =>
        t.fget (LNK_CMIS.PRESENT p) = 1 ∧ t.fget (LNK_CMIS.READY p) = b2n (ready && st ≠ 0 && st ≠ 8) ∧
        t.fget (LNK_CMIS.TEMP p) = temp.toNat ∧ t.fget (LNK_CMIS.ALARM p) = s.fget (LNK_CMIS.ALARM p) ∧
        OnlyRegs [LNK_CMIS.off p] s t) ∧
      (x.optAt.isSome = true → 0x50 ≤ rev.toNat → Runs (.cmisMonitorPoll q (some true) rev temp) s fun t =>
        t.fget (LNK_CMIS.READY p) = 1 ∧ t.fget (LNK_STAT.STATE p) = 1 ∧ (t.po p).optAt = none ∧
        own [LNK_CMIS.off p, LNK_STAT.off p] t) ∧
      (x.optAt.isSome = true → rev.toNat < 0x50 → Runs (.cmisMonitorPoll q (some ready) rev temp) s fun t =>
        t.fget (LNK_CMIS.READY p) = 0 ∧ t.fget (LNK_STAT.STATE p) = 8 ∧ own [LNK_CMIS.off p, LNK_STAT.off p] t) ∧
      (x.optAt = none → Runs (.cmisMonitorPoll q none rev temp) s fun t =>
        t.fget (LNK_CMIS.PRESENT p) = 0 ∧ t.fget (LNK_CMIS.READY p) = 0 ∧ OnlyRegs [LNK_CMIS.off p] s t)) ∧
    (∀ (warn : Bool) (flags : BitVec 8), s.fget (LNK_CTL.MEDIUM p) = 2 → s.flt.queue.length < 1024 →
      (Runs (.cmisFlagPoll q warn true flags 0) s fun t => t.fget (LNK_CMIS.ALARM p) = 1 ∧
        (∃ e, t.flt.queue = s.flt.queue ++ [e] ∧ e.msg.code = 0x0708) ∧ own [LNK_CMIS.off p] t) ∧
      (Runs (.cmisFlagPoll q true false flags 0) s fun t =>
        (∃ e, t.flt.queue = s.flt.queue ++ [e] ∧ e.msg.code = 0x0708 ∧ e.cls = 0) ∧ own [] t) ∧
      (Runs (.cmisFlagPoll q false false flags 0) s fun t => t = s)) ∧
    (s.fget (LNK_CTL.MEDIUM p) = 2 →
      (st < 4 ∨ 6 < st → Runs (.opticsAbsent q) s fun t =>
        t.fget (LNK_CMIS.PRESENT p) = 0 ∧ t.fget (LNK_CMIS.READY p) = 0 ∧ OnlyRegs [LNK_CMIS.off p] s t) ∧
      (4 ≤ st → st ≤ 6 → few → Runs (.opticsAbsent q) s fun t => t.fget (LNK_CMIS.PRESENT p) = 0 ∧
          t.fget (LNK_STAT.STATE p) = 7 ∧ (t.po p).optAt = some s.now ∧ t.core = s.core ∧ t.mem = s.mem))

/-- A command of Table 2 from the hub agent that FAB_MGR_ID.ACTING names, or from a manager module of the group, with
a lower term is discarded, counted in FAB_MGT_REJ and answered with the recorded term. A command of Table 2 from any
other agent of the group's modules is dropped, counted and recorded as a NOTE. A manager that receives a packet of a
module of the manifest with a term above its own enters LAPSED. A source-routed command with a hop left goes on by the
port that its ROUTE names, with one hop fewer, and a multicast that is not for this module leaves by the port of its
bundle with the bitmaps rewritten. A REG_WRITE of the acting manager writes its pairs in order and is answered, and a
REG_READ is answered with the values of its registers; each raises FAB_TERM to its term and changes nothing else.
(R308, R312, R313, R314). -/
def Obligations.ManagementAcceptance : Prop :=
  ∀ (s : State) (p : Packet) (via : Option Port), s.hubUp = true → p.typ = 0 → p.aux ≠ 0xFF →
    let src := epMod p.src
    let code := p.aux.toNat
    let own := s.fget FAB_TERM.TERM
    let named := p.fromHub = true ∧ src ∈ s.managers
    let inForce := p.fromHub = true ∧ s.flag FAB_MGR_ID.VALID = true ∧ src = s.fget FAB_MGR_ID.ACTING
    let rej (t : State) : Prop := t.fget FAB_MGT_REJ.REJ = min (s.fget FAB_MGT_REJ.REJ + 1) 65535
    (p.mc = false → (p.srcrt = true → bits p.route 3 0 = 0) → code ∈ commandCodes → modGroup src = modGroup s.modId →
      (code ∈ memberCodes → s.manages = false) →
      (named ∨ inForce → p.term < own → Runs (.mgt p via) s fun t => rej t ∧ Answered p via own [] s t ∧
        t = { s with regs := t.regs, rtr := t.rtr, port := t.port } ∧ ∀ o, o ≠ FAB_MGT_REJ.off → t.reg o = s.reg o) ∧
      (¬ named → ¬ inForce → s.flag FAB_SELF.VALID = true →
        (own < p.term → s.acting = false ∧ s.fget FAB_MGR_STAT.ROLE ≠ 1) → Runs (.mgt p via) s fun t =>
          rej t ∧ FaultOnly { s with regs := (s.setReg FAB_MGT_REJ.off (t.reg FAB_MGT_REJ.off)).regs } t ∧
          (s.flt.queue.length < 1024 → ∃ e, t.flt.queue = s.flt.queue ++ [e] ∧ e.msg.code = 0x0305)) ∧
      (¬ named → ¬ inForce → s.flag FAB_SELF.VALID = true → s.acting = true → p.fromHub = true →
        manHas s.mgr.manifest src = true → own < p.term → Runs (.mgt p via) s fun t =>
          t.fget FAB_MGR_STAT.ROLE = 5 ∧ t.fget FAB_MGR_STAT.COORD = 0 ∧ t.fget FAB_MGR_STAT.TETHER_OK = 0 ∧
          t.mgr.cmds = [] ∧ t.mgr.awaits = [] ∧ t.fget FAB_TERM.TERM = own ∧ rej t ∧ t.rtr = s.rtr ∧ t.port = s.port ∧
          t.core = s.core ∧ t.mem = s.mem)) ∧
    (∀ c, via = some c → p.mc = false → p.srcrt = true → code < 0x80 → bits p.route 3 0 ≠ 0 →
      let out := bits p.route 7 4
      s.trained out = true → Runs (.mgt p via) s fun t =>
        (∃ q : Packet, PortSent out q s t ∧ q.hcrc = q.crc ∧ q.payload.take 12 = p.payload.take 12 ∧
          q.route = bits p.route 3 0 - 1 + bits p.route 27 8 * 16 ∧ q.body = p.body ∧ q.aux = p.aux ∧ q.msg = p.msg ∧
          q.dest = p.dest ∧ q.src = if code ∈ [0x08, 0x09, 0x0C, 0x38] then portEp s.modId out else p.src) ∧
        ⟨out, code, p.msg.toNat, c.val, p.src⟩ ∈ t.mgr.relays ∧
        t = { s with port := t.port, mgr := { s.mgr with relays := t.mgr.relays } }) ∧
    (∀ c g q, p.mc = true → s.flag FAB_SELF.VALID = true →
      s.mcSplit (leAt p.payload 24 8) (leAt p.payload 16 8) (leAt p.payload 16 8) = (false, [(c, g, q)]) →
      Runs (.mgt p via) s fun t =>
        PortSent c (Packet.sealed { p with
          payload := p.payload.take 16 ++ leBytes 8 q ++ leBytes 8 g ++ p.payload.drop 32 }) s t ∧
        t = { s with port := t.port }) ∧
    (p.mc = false → p.srcrt = false → p.host = false → inForce → p.mgr = src → own ≤ p.term → s.manages = false →
      modGroup src = modGroup s.modId →
      let set (t : State) : Prop := t.fget FAB_TERM.TERM = p.term ∧
        t = { s with regs := t.regs, rtr := t.rtr, snap0 := t.snap0, snap2 := t.snap2 }
      (∀ es : List (Fin 16 × Word), code = 0x10 → es.length ≤ 60 →
        p.body = es.flatMap (fun e => leBytes 4 (FAB_CMD_ARG.off e.1.val) ++ leBytes 4 e.2.toNat) →
        Runs (.regWrite p) s fun t => set t ∧ Answered p none p.term [] s t ∧
          (∀ i : Fin 16, t.reg (FAB_CMD_ARG.off i.val) =
            ((es.reverse.find? (fun e => e.1 = i)).map Prod.snd).getD (s.reg (FAB_CMD_ARG.off i.val))) ∧
          ∀ o, o ≠ FAB_TERM.off → (∀ i, i < 16 → o ≠ FAB_CMD_ARG.off i) → t.reg o = s.reg o) ∧
      (∀ es : List (Fin 16), code = 0x11 → es.length ≤ 120 →
        p.body = es.flatMap (fun i => leBytes 4 (FAB_CMD_ARG.off i.val)) → Runs (.regRead p) s fun t => set t ∧
          Answered p none p.term (es.flatMap (fun i => leBytes 4 (s.reg (FAB_CMD_ARG.off i.val)).toNat)) s t ∧
          ∀ o, o ≠ FAB_TERM.off → t.reg o = s.reg o))

/-- Ten milliseconds after the latest TETHER the acting module multicasts the next one to its group, and sends it to
the standby as well, again over a second path where there is one. A hub that receives a TETHER of its group takes up
its term and manager, notes the time and answers it; a manager module becomes STANDBY_SYNC. An answer of the standby,
or of a majority of the group's hubs, extends the lease to 45 ms after that TETHER was sent. At the end of its lease
the module is LAPSED and issues nothing. Fifty milliseconds after its latest answer the standby records the next term
and multicasts TERM_SET. A hub refuses a TERM_SET of a higher term for 48 ms after a TETHER and does not record it;
otherwise it records it and answers. The answers of a majority make the standby ACTING, the tick reference from the
next boundary, in RECOVERY, with no load in progress; 10 ms without one make it wait again. The machine coordinator's
tether, lease, takeover and timeout run beside them by the coordinator's term, with the acting managers of the other
groups (how its packets are told from a group's is the model's choice, log entry 62). (R305, R307, R308, R309, R335).
-/
def Obligations.TermsAndTethers : Prop :=
  ∀ s : State,
    let own := s.fget FAB_TERM.TERM
    let cterm := s.fget FAB_COORD_TERM.TERM
    let hub (t : State) : List Packet := (t.rt s.hubRtr).line 6 3
    let others := s.groupMods.filter (fun m => m ≠ s.modId)
    let cast (q : Packet) (code term : Nat) (body : List Byte) : Prop := q.typ = 0 ∧ q.aux = BitVec.ofNat 8 code ∧
      q.mc = true ∧ q.term = term ∧ q.mgr = s.modId ∧ q.body = body ∧ leAt q.payload 16 8 = s.posMask others ∧
      leAt q.payload 24 8 = 2 ^ modGroup s.modId
    (s.acting = true → s.mgr.sentAt + msUnits 10 ≤ s.now →
      (s.flag FAB_MGR_STAT.COORD = true → s.now < s.mgr.coord.sentAt + msUnits 10) →
      let body := leBytes 4 s.mgr.tetherSeq
      let told (t : State) : Prop := t.mgr.sentAt = s.now ∧ t.mgr.tetherSeq = s.mgr.tetherSeq + 1 ∧
        ⟨s.mgr.tetherSeq, s.now, [s.modId]⟩ ∈ t.mgr.tethers ∧
        t = { s with rtr := t.rtr, port := t.port, mgr := { s.mgr with
          sentAt := s.now, tetherSeq := t.mgr.tetherSeq, tethers := t.mgr.tethers, awaits := t.mgr.awaits, msgNum := t.mgr.msgNum } }
      (s.otherMgr = none → Runs (.tether none) s fun t =>
        told t ∧ ∃ q, hub t = hub s ++ [q] ∧ cast q 1 own body) ∧
      (∀ m, s.otherMgr = some m → m ∈ s.groupMods → (s.escapeOut m).isSome = true →
        let r := s.routeBy ((s.escapeOut m).getD 16) m
        Runs (.tether none) s fun t =>
          told t ∧ (∃ u q, hub t = hub s ++ [u, q] ∧ cast q 1 own body ∧
            Packet.says u 1 s.mgr.msgNum (hubEp m) own body ∧ u.mc = false) ∧
          (r ≠ 0 → s.trained (bits r 7 4) = true → ∃ w : Packet,
            Packet.says w 1 ((s.mgr.msgNum + 1) % 2 ^ 16) (hubEp m) own body ∧ w.srcrt = true ∧
            t.po (bits r 7 4) = { s.po (bits r 7 4) with
              txq := Store.upd (fun _ => []) (s.po (bits r 7 4)).txq 3 (fun y => y ++ [w]) }))) ∧
    (∀ m k, s.acting = true → s.flag FAB_MGR_STAT.COORD = true → s.mgr.coord.sentAt + msUnits 10 ≤ s.now →
      s.now < s.mgr.sentAt + msUnits 10 → s.farMgrs.filter s.reaches = [m, k] → s.srcRoute m = 0 → s.srcRoute k = 0 →
      s.far m = true → s.far k = true →
      let n := s.mgr.msgNum
      let body := leBytes 4 s.mgr.coord.seq
      Runs (.tether none) s fun t =>
        (∃ q r : Packet, hub t = hub s ++ [q, r] ∧ Packet.says q 1 n (hubEp m) cterm body ∧
          Packet.says r 1 ((n + 1) % 2 ^ 16) (hubEp k) cterm body ∧ q.mc = false ∧ r.mc = false ∧ q.srcrt = false ∧
          r.srcrt = false) ∧ (∀ j, j ≠ s.hubRtr → t.rt j = s.rt j) ∧
        t.mgr.msgNum = (n + 2) % 2 ^ 16 ∧ ⟨1, n, m, 6, 16⟩ ∈ t.mgr.awaits ∧ ⟨1, (n + 1) % 2 ^ 16, k, 6, 16⟩ ∈ t.mgr.awaits ∧
        t.mgr.coord.sentAt = s.now ∧
        t.mgr.coord.seq = s.mgr.coord.seq + 1 ∧ ⟨s.mgr.coord.seq, s.now, [modGroup s.modId]⟩ ∈ t.mgr.coord.tethers ∧
        t = { s with rtr := t.rtr, mgr := { s.mgr with coord := t.mgr.coord, awaits := t.mgr.awaits, msgNum := t.mgr.msgNum } }) ∧
    (∀ p : Packet, p.aux = 1 → s.hears p none = true → epMod p.src ≠ s.modId → s.far (epMod p.src) = false →
      let role := s.fget FAB_MGR_STAT.ROLE
      Runs (.tether (some p)) s fun t =>
        t.fget FAB_TERM.TERM = max p.term own ∧ t.fget FAB_MGR_ID.ACTING = epMod p.src ∧ t.flag FAB_MGR_ID.VALID = true ∧
        t.fget FAB_MGR_STAT.ROLE = (if s.modId ∈ s.managers ∧ (role = 0 ∨ role = 1 ∨ role = 5) then 3 else role) ∧
        Answered p none (max p.term own) (p.body.take 4) s t ∧
        t.mgr = { s.mgr with tetherAt := some s.now, takeAt := none, replyAt := s.now } ∧
        (role = 4 → t.flag FAB_MGR_STAT.TETHER_OK = true) ∧ t.core = s.core ∧ t.ctx = s.ctx ∧ t.mem = s.mem ∧ t.port = s.port) ∧
    (∀ p : Packet, p.aux = 1 → s.hears p none = true → s.far (epMod p.src) = true → s.flag FAB_MGR_STAT.COORD = false →
      s.flag FAB_MGR_ID.COORD_VALID = true → s.fget FAB_MGR_ID.COORD = epMod p.src → p.term = cterm →
      Runs (.tether (some p)) s fun t =>
        Answered p none cterm (p.body.take 4) s t ∧ t.mgr.coord.tetherAt = some s.now ∧ t.mgr.coord.takeAt = none ∧
        t = { s with regs := t.regs, rtr := t.rtr, mgr := { s.mgr with coord := t.mgr.coord } } ∧ ∀ o, t.reg o = s.reg o) ∧
    (∀ (p : Packet) (x : TetherSt), p.aux = 0x81 → s.hears p none = true → s.acting = true → s.far (epMod p.src) = false →
      s.mgr.tethers.find? (fun y => y.seq = leAt p.body 0 4) = some x → (s.otherMgr = some (epMod p.src) → s.mgr.sby ≠ 0) →
      let held := (s.otherMgr = some (epMod p.src) ∧ s.mgr.sby = 2) ∨
        s.groupMods.length < 2 * (addKey x.got (epMod p.src)).length
      let counted (t : State) : Prop := t = { s with regs := t.regs, mgr := { s.mgr with
          tethers := s.mgr.tethers.map (fun y => if y.seq = leAt p.body 0 4 then { y with got := addKey y.got (epMod p.src) } else y),
          leaseEnd := t.mgr.leaseEnd, awaits := t.mgr.awaits } } ∧ ∀ o, o ≠ FAB_MGR_STAT.off → t.reg o = s.reg o
      (held → Runs (.tetherReply p) s fun t =>
        t.mgr.leaseEnd = max s.mgr.leaseEnd (x.at_ + msUnits 45) ∧ t.flag FAB_MGR_STAT.TETHER_OK = true ∧ counted t) ∧
      (¬ held → Runs (.tetherReply p) s fun t =>
        t.mgr.leaseEnd = s.mgr.leaseEnd ∧ t.regs = s.regs ∧ counted t)) ∧
    (s.acting = true → s.mgr.leaseEnd ≤ s.now → Runs .leaseExpiry s fun t =>
      t.fget FAB_MGR_STAT.ROLE = 5 ∧ t.fget FAB_MGR_STAT.TETHER_OK = 0 ∧ t.fget FAB_MGR_STAT.COORD = 0 ∧
      t.mgr.cmds = [] ∧ t.mgr.awaits = [] ∧ t.mgr.tethers = [] ∧ t.mgr.hbStep = none ∧ t.mgr.commits = [] ∧
      (∀ c l, s.mgr.cmds = c :: l → c.hseq < 65536 → t.fget FAB_CMD_STAT.BUSY = 0 ∧ t.fget FAB_CMD_STAT.STATUS = 1) ∧
      t.core = s.core ∧ t.ctx = s.ctx ∧ t.rtr = s.rtr ∧ t.port = s.port ∧ t.mem = s.mem) ∧
    (s.acting = true → s.now < s.mgr.leaseEnd → s.flag FAB_MGR_STAT.COORD = true → s.mgr.coord.leaseEnd ≤ s.now →
      Runs .leaseExpiry s fun t =>
        t.flag FAB_MGR_STAT.COORD = false ∧ t.flag FAB_MGR_ID.COORD_VALID = false ∧ t.acting = true ∧
        t.mgr.coord.tethers = [] ∧ (∃ a b, t.tick.roleNext = some (true, a, b)) ∧ t.rtr = s.rtr ∧ t.core = s.core) ∧
    (s.fget FAB_MGR_STAT.ROLE = 4 → s.mgr.takeAt = none → s.mgr.replyAt + msUnits 50 ≤ s.now → Runs .takeover s fun t =>
      t.fget FAB_TERM.TERM = nextTerm own ∧ t.fget FAB_MGR_STAT.ROLE = 4 ∧
      t.fget FAB_MGR_STAT.TETHER_OK = 0 ∧ t.mgr.takeAt = some s.now ∧ t.mgr.accepts = [s.modId] ∧
      (∃ q, hub t = hub s ++ [q] ∧ cast q 4 (nextTerm own) []) ∧
      t = { s with regs := t.regs, rtr := t.rtr, mgr := { s.mgr with
        takeAt := some s.now, accepts := [s.modId], awaits := t.mgr.awaits, msgNum := t.mgr.msgNum } } ∧
      ∀ o, o ≠ FAB_TERM.off → o ≠ FAB_MGR_STAT.off → t.reg o = s.reg o) ∧
    (∀ x, s.acting = true → s.flag FAB_MGR_STAT.COORD = false → s.mgr.coord.replyAt = some x → x + msUnits 50 ≤ s.now →
      s.mgr.coord.takeAt = none → Runs .takeover s fun t =>
        t.fget FAB_COORD_TERM.TERM = nextTerm cterm ∧ t.mgr.coord.takeAt = some s.now ∧
        t.mgr.coord.accepts = [modGroup s.modId] ∧ t.core = s.core ∧ t.ctx = s.ctx ∧ t.mem = s.mem ∧
        ∀ o, o ≠ FAB_COORD_TERM.off → t.reg o = s.reg o) ∧
    (∀ p : Packet, p.aux = 4 → s.hears p none = true → s.far (epMod p.src) = false →
      (∀ x, s.mgr.tetherAt = some x → s.now < x + msUnits 48 → own < p.term → Runs (.termSet p) s fun t =>
        Answered p none own [] s t ∧ t = { s with rtr := t.rtr }) ∧
      ((∀ x, s.mgr.tetherAt = some x → x + msUnits 48 ≤ s.now) → own < p.term → Runs (.termSet p) s fun t =>
        t.fget FAB_TERM.TERM = p.term ∧ t.fget FAB_MGR_ID.ACTING = epMod p.src ∧ t.flag FAB_MGR_ID.VALID = true ∧
        Answered p none p.term [] s t ∧ t = { s with regs := t.regs, rtr := t.rtr } ∧
        ∀ o, o ≠ FAB_TERM.off → o ≠ FAB_MGR_ID.off → t.reg o = s.reg o)) ∧
    (∀ (p : Packet) x, p.aux = 4 → s.hears p none = true → s.far (epMod p.src) = true → s.mgr.coord.tetherAt = some x →
      s.now < x + msUnits 48 → cterm < p.term → Runs (.termSet p) s fun t =>
        Answered p none cterm [] s t ∧ t = { s with rtr := t.rtr }) ∧
    (∀ (p : Packet) x, p.aux = 0x84 → s.hears p none = true → s.far (epMod p.src) = false → s.mgr.takeAt = some x →
      p.term = own →
      let l := addKey s.mgr.accepts (epMod p.src)
      (2 * l.length ≤ s.groupMods.length → Runs (.termSetReply p) s fun t =>
        t = { s with mgr := { s.mgr with accepts := l, awaits := t.mgr.awaits } }) ∧
      (s.groupMods.length < 2 * l.length → Runs (.termSetReply p) s fun t =>
        t.fget FAB_MGR_STAT.ROLE = 2 ∧ t.fget FAB_MGR_ID.ACTING = s.modId ∧ t.flag FAB_MGR_ID.VALID = true ∧
        t.fget FAB_TERM.TERM = own ∧ t.mgr.recoverAt = some s.now ∧ t.mgr.leaseEnd = s.now + msUnits 45 ∧
        (∃ a b, t.tick.roleNext = some (true, a, b)) ∧ t.fget RIG_STAT.BUSY = 0 ∧ t.fget RIG_STAT.PHASE = 0 ∧
        t.core = s.core ∧ t.eng = s.eng ∧ t.mem = s.mem)) ∧
    (∀ x, s.mgr.takeAt = some x → x + msUnits 10 ≤ s.now → s.mgr.coord.takeAt = none → Runs .termSetTimeout s fun t =>
      t = { s with mgr := { s.mgr with takeAt := none, accepts := [], replyAt := s.now } }) ∧
    (∀ x, s.mgr.coord.takeAt = some x → x + msUnits 10 ≤ s.now → s.mgr.takeAt = none → Runs .termSetTimeout s fun t =>
      t = { s with mgr := { s.mgr with coord := { s.mgr.coord with
        takeAt := none, accepts := [], replyAt := s.mgr.coord.replyAt.map (fun _ => s.now) } } })

/-- A record at the turn is applied and answered: a mode record sets MODE, the last record of a copy makes
STANDBY_SYNC STANDBY; a record ahead of its turn is kept. The answer to the last record of a copy shows the other
manager module in STANDBY, and the answer that a command waits for lets it take effect: MODE sets the mode, HANDOVER
names a step. MGR_PRI in STANDBY in SERVICE asks for the role; the acting module names a step HB_LEAD boundaries ahead
and journals it. At that step it enters STANDBY and gives up the tick reference, and from the next step the other
module acts with the next term. Ten seconds after a takeover RECOVERY ends, and a handback that was cancelled is named
again. MGR_SBY without a tether for DISC_TMO enters START. (R305, R309, R310, R311, R335, R336). -/
def Obligations.JournalAndHandback : Prop :=
  ∀ s : State,
    let own := s.fget FAB_TERM.TERM
    let hub (t : State) : List Packet := (t.rt s.hubRtr).line 6 3
    (∀ p : Packet, p.aux = 2 → s.hears p none = true → s.far (epMod p.src) = false → s.modId ∈ s.managers →
      let j : Journal := ⟨leAt p.body 0 4, leAt p.body 4 4, p.body.drop 8⟩
      let heard (t : State) : Prop := t.fget FAB_TERM.TERM = max p.term own ∧ Answered p none (max p.term own) [] s t
      (∀ v, v < 4 → j.kind = 9 → j.data = leBytes 4 v → j.seq = s.mgr.jwant → s.mgr.jheld = [] → Runs (.journal p) s fun t =>
        heard t ∧ t.fget FAB_MGR_STAT.MODE = v ∧ t.fget FAB_MGR_STAT.ROLE = s.fget FAB_MGR_STAT.ROLE ∧
        t = { s with regs := t.regs, rtr := t.rtr, mgr := { s.mgr with jwant := s.mgr.jwant + 1 } } ∧
        ∀ o, o ≠ FAB_TERM.off → o ≠ FAB_MGR_STAT.off → t.reg o = s.reg o) ∧
      (j.kind = 10 → j.seq = s.mgr.jwant → s.mgr.jheld = [] → s.fget FAB_MGR_STAT.ROLE = 3 → Runs (.journal p) s fun t =>
        heard t ∧ t.fget FAB_MGR_STAT.ROLE = 4 ∧ t.mgr = { s.mgr with jwant := s.mgr.jwant + 1 } ∧ t.core = s.core ∧
        t.ctx = s.ctx ∧ t.mem = s.mem ∧ t.port = s.port) ∧
      (j.kind ≠ 0 → s.mgr.jwant < j.seq → (∀ k ∈ s.mgr.jheld, k.seq ≠ s.mgr.jwant) → Runs (.journal p) s fun t =>
        heard t ∧ t = { s with regs := t.regs, rtr := t.rtr, mgr := { s.mgr with
          jheld := s.mgr.jheld.filter (fun k => k.seq ≠ j.seq) ++ [j] } } ∧ ∀ o, o ≠ FAB_TERM.off → t.reg o = s.reg o)) ∧
    (∀ p : Packet, p.aux = 2 → s.hears p none = true → s.far (epMod p.src) = true → leAt p.body 4 4 = 26 →
      Runs (.journal p) s fun t =>
        t.mgr = { s.mgr with coord := { s.mgr.coord with
          held := s.mgr.coord.held.filter (fun h => h.1 ≠ leAt (p.body.drop 8) 0 4) } } ∧
        t.fget FAB_COORD_TERM.TERM = max p.term (s.fget FAB_COORD_TERM.TERM) ∧
        Answered p none (max p.term (s.fget FAB_COORD_TERM.TERM)) [] s t ∧
        t = { s with regs := t.regs, rtr := t.rtr, mgr := t.mgr } ∧ ∀ o, o ≠ FAB_COORD_TERM.off → t.reg o = s.reg o) ∧
    (∀ (p : Packet) (a : Await), p.aux = 0x82 → s.hears p none = true → s.awaited p none = some a → a.mod ≠ 4096 →
      (s.mgr.sby = 1 → (∀ b ∈ s.mgr.awaits, b ≠ a → b.code ≠ 2) → Runs (.journalReply p) s fun t =>
        t = { s with mgr := { s.mgr with sby := 2, awaits := s.mgr.awaits.filter (fun b => b ≠ a) } }) ∧
      (∀ (c : HostCmd) (hseq : BitVec 16) v, s.mgr.sby = 2 → s.mgr.awaits = [a] → s.mgr.cmds = [c] → s.mgr.toArm = false →
        s.mgr.commits = [] → c.told = true → c.code = 3 → c.hseq = hseq.toNat → c.phase = 1 → c.args.getD 0 0 = v → v = 1 ∨ v = 2 → Runs (.journalReply p) s fun t =>
          t.fget FAB_MGR_STAT.MODE = v ∧ Ended 0 hseq t ∧ t.core = s.core ∧ t.ctx = s.ctx ∧ t.mem = s.mem) ∧
      (∀ (c : HostCmd) (hseq : BitVec 16), s.mgr.sby = 2 → s.mgr.awaits = [a] → s.mgr.cmds = [c] → s.mgr.toArm = false →
        s.mgr.commits = [] → c.told = true → c.code = 10 → c.hseq = hseq.toNat → Runs (.journalReply p) s fun t =>
          t.mgr.hbStep = some (s.step + s.fget FAB_MGR_CTL.HB_LEAD) ∧ t.mgr.hbHost = true ∧ Ended 0 hseq t ∧
          t.fget FAB_MGR_STAT.ROLE = s.fget FAB_MGR_STAT.ROLE ∧ t.core = s.core ∧ t.ctx = s.ctx ∧ t.mem = s.mem)) ∧
    (s.managers.head? = some s.modId → s.fget FAB_MGR_STAT.ROLE = 4 → s.fget FAB_MGR_STAT.MODE = 1 → s.mgr.hbStep = none →
      (s.escapeOut (s.fget FAB_MGR_ID.ACTING)).isSome = true → Runs (.handback none) s fun t =>
        Asked 3 (s.fget FAB_MGR_ID.ACTING) 0 0 [] s t ∧
        t = { s with rtr := t.rtr, mgr := { s.mgr with msgNum := t.mgr.msgNum, awaits := t.mgr.awaits } }) ∧
    (∀ p : Packet, p.aux = 3 → s.hears p none = true → s.acting = true → s.otherMgr = some (epMod p.src) → s.mgr.sby = 2 →
      s.mgr.hbStep = none → s.shownMode = 1 → (s.escapeOut (epMod p.src)).isSome = true → Runs (.handback (some p)) s fun t =>
        let S := s.step + s.fget FAB_MGR_CTL.HB_LEAD
        t.mgr.hbStep = some S ∧
        (∃ q r : Packet, hub t = hub s ++ [q, r] ∧
          Packet.says q 0x83 p.msg.toNat p.src own [] ∧
          Packet.says r 2 s.mgr.msgNum (hubEp (epMod p.src)) own (leBytes 4 s.mgr.jseq ++ leBytes 4 11 ++ leBytes 8 S)) ∧
        t = { s with rtr := t.rtr, mgr := { s.mgr with
          hbStep := some S, hbAgain := false, hbHost := false, jseq := s.mgr.jseq + 1, msgNum := t.mgr.msgNum, awaits := t.mgr.awaits } }) ∧
    (∀ S, s.mgr.hbStep = some S → S ≤ s.step → s.acting = true → Runs .handbackStep s fun t =>
      t.fget FAB_MGR_STAT.ROLE = 4 ∧ t.fget FAB_MGR_STAT.COORD = 0 ∧ t.fget FAB_MGR_STAT.TETHER_OK = 0 ∧
      t.fget FAB_TERM.TERM = own ∧ t.tick.roleNext = some (false, 15, 15) ∧ t.mgr.hbStep = none ∧ t.mgr.cmds = [] ∧ t.mgr.awaits = [] ∧
      t.core = s.core ∧ t.ctx = s.ctx ∧ t.rtr = s.rtr ∧ t.port = s.port ∧ t.mem = s.mem) ∧
    (∀ S, s.mgr.hbStep = some S → S + 1 ≤ s.step → s.fget FAB_MGR_STAT.ROLE = 4 → Runs .handbackStep s fun t =>
      t.fget FAB_MGR_STAT.ROLE = 2 ∧ t.fget FAB_TERM.TERM = nextTerm own ∧
      t.fget FAB_MGR_ID.ACTING = s.modId ∧ t.flag FAB_MGR_ID.VALID = true ∧ (∃ a b, t.tick.roleNext = some (true, a, b)) ∧
      t.mgr.hbStep = none ∧ t.mgr.leaseEnd = s.now + msUnits 45 ∧ t.core = s.core ∧ t.mem = s.mem) ∧
    (∀ x, s.mgr.recoverAt = some x → x + sUnits 10 ≤ s.now →
      (s.mgr.hbAgain = false → Runs .recoveryEnd s fun t => t = { s with mgr := { s.mgr with recoverAt := none } }) ∧
      (s.mgr.hbAgain = true → s.acting = true → s.mgr.sby = 2 → s.unsettled = false → s.fget FAB_MGR_STAT.MODE ≠ 3 →
        Runs .recoveryEnd s fun t => t.mgr.recoverAt = none ∧ t.shownMode = s.fget FAB_MGR_STAT.MODE ∧
          t.mgr.hbStep = some (s.step + s.fget FAB_MGR_CTL.HB_LEAD) ∧ t.mgr.hbAgain = false ∧ t.regs = s.regs ∧ t.core = s.core)) ∧
    (∀ r, s.ownRec = some r → s.mgrName r = some 1 → s.fwRuns = true → s.fget FAB_MGR_STAT.ROLE = 0 →
      (∀ x, s.mgr.tetherAt = some x → x < s.sec.ranAt) → s.sec.ranAt + sUnits (s.fget FAB_MGR_CTL.DISC_TMO) ≤ s.now →
      Runs .mgrSbyStart s fun t =>
        t.fget FAB_MGR_STAT.ROLE = 1 ∧ t.fget FAB_SELF.MODID = modRecId r ∧ t.flag FAB_SELF.VALID = true ∧
        t.mgr.discAt = s.now ∧ t.disc (modPos (modRecId r)) = 1 ∧ t.core = s.core ∧ t.mem = s.mem)

/-- A manager sends DISCOVER with a fresh nonce by source route to a position that is not found; the module asks for
an attestation over it. Segments of the answer are kept; the complete answer makes the position FOUND and ASSIGN goes
to it, after the manifest if it lacks it, where its key is that of its record, its nonce the one sent and its
signature good, and REFUSED otherwise; another position with the same key is REFUSED as well. A position unresolved
after DISC_TMO is ABSENT, and discovery that is complete makes the manager ACTING. ASSIGN binds the module to its ID
and manager, writes the expectations of every port and enables the ports of its record. Manifest segments are kept and
answered, and the complete manifest comes into force where its form and signature hold. The boot ROM keeps firmware
segments, checks the complete image and runs it; missing segments are sent again. A report of a link of the group is
noted at both ends of the cable, and new tables are written to the shadow banks and armed; that of an uplink goes to
the machine coordinator (as a record, the model's choice, log entry 62). (R233, R256, R309, R313, R317, R319, R320,
R321, R322, R335, R444). -/
def Obligations.DiscoveryAndRoutes : Prop :=
  ∀ s : State,
    let own := s.fget FAB_TERM.TERM
    (∀ (pos : Fin 64) (route : Word),
      let r := route.toNat
      let m := 64 * modGroup s.modId + pos.val
      let out := bits r 7 4
      s.manages = true → 1 ≤ bits r 3 0 → bits r 3 0 ≤ 6 → manHas s.mgr.manifest m = true → m ≠ s.modId →
      (s.disc pos.val = 1 → m ∈ s.mgr.lostMods) → s.walk (bits r 3 0) (bits r 27 4) (modPos s.modId) = some pos.val →
      s.trained out = true → Runs (.discover (.send pos route)) s fun t =>
        (∃ q : Packet, Packet.says q 8 s.mgr.msgNum (hubEp m) own (leBytes 32 (t.pq pos.val).nonce.toNat) ∧ q.srcrt = true ∧
          q.route = bits r 3 0 - 1 + bits r 27 8 * 16 ∧ q.src = portEp s.modId out ∧ PortSent out q s t) ∧
        (∃ n, t.pq pos.val = { s.pq pos.val with nonce := n, route := route, began := true, reply := [] }) ∧
        (∀ q, q ≠ pos.val → t.pq q = s.pq q) ∧ ⟨8, s.mgr.msgNum, m, 0, out⟩ ∈ t.mgr.awaits ∧
        t.fget FAB_MGR_ID.ACTING = s.modId ∧ t.flag FAB_MGR_ID.VALID = true ∧
        t = { s with draws := t.draws, regs := t.regs, port := t.port, mgr := { s.mgr with
          pos := t.mgr.pos, awaits := t.mgr.awaits, msgNum := t.mgr.msgNum } } ∧
        ∀ o, o ≠ FAB_MGR_ID.off → t.reg o = s.reg o) ∧
    (∀ (p : Packet) (via : Port), p.aux = 8 → s.hears p (some via) = true → s.fwRuns = true →
      Runs (.discover (.recv p via)) s fun t => t.fget FAB_TERM.TERM = max p.term own ∧
        t = { s with regs := t.regs, att := { s.att with queue := s.att.queue ++ [⟨2, 0, slice p.body 0 32, some (p, some via)⟩] } } ∧
        ∀ o, o ≠ FAB_TERM.off → t.reg o = s.reg o) ∧
    (∀ (pos : Fin 64) (p : Packet) (d : List Byte) (a : Await), p.aux = 0x88 →
      let via : Option Port := some (Fin.ofNat 16 (bits (s.pq pos.val).route.toNat 7 4))
      let m := 64 * modGroup s.modId + pos.val
      let x := s.pq pos.val
      let l := Store.insert x.reply (leAt p.body 4 4) d
      let b := (l.flatMap Prod.snd).take (256 + 49856)
      let key := digest (slice b 176 64)
      let twins := (List.range 64).filter (fun q => decide (q ≠ pos.val) && decide ((s.pq q).key = key))
      s.hears p via = true → s.awaited p via = some a → (if p.srcrt = true then a.mod else epMod p.src) = m →
      segData p.body = some d →
      ((∃ i, i < 53 ∧ ∀ e ∈ l, e.1 ≠ i) → Runs (.discoverReply pos p) s fun t =>
        t.pq pos.val = { x with reply := l } ∧ (∀ q, q ≠ pos.val → t.pq q = s.pq q) ∧
        t = { s with mgr := { s.mgr with seen := max s.mgr.seen p.term, pos := t.mgr.pos } }) ∧
      (∀ r, (∀ i, i < 53 → ∃ e ∈ l, e.1 = i) → manMod? s.mgr.manifest m = some r → twins = [] →
        s.fget FAB_MGR_STAT.ROLE = 2 ∨ (∃ k ∈ s.groupMods, modPos k ≠ pos.val ∧ s.disc (modPos k) = 0) →
        let good := leAt b 0 4 = 0x54544144 ∧ key = slice r 0 32 ∧ slice b 48 32 = leBytes 32 x.nonce.toNat ∧
          Config.slhVerify256f (slice b 176 64) (b.take 256) (b.drop 256) = true
        (good → Runs (.discoverReply pos p) s fun t =>
          t.disc pos.val = 1 ∧ (t.pq pos.val).key = key ∧ (t.pq pos.val).feat = leAt b 20 2 ∧
          (x.route ≠ 0 → s.trained (bits x.route.toNat 7 4) = true → ∃ (w v : List Packet) (q : Packet),
            Store.get (fun _ => []) (t.po (bits x.route.toNat 7 4)).txq 3 =
              Store.get (fun _ => []) (s.po (bits x.route.toNat 7 4)).txq 3 ++ w ++ [q] ++ v ∧
            (∀ z ∈ w, z.aux = 0x0C) ∧ (slice b 144 32 = manDigest s.mgr.manifest → w = []) ∧
            ((∀ k ∈ s.mgr.lostMods, k % 4096 ≠ m) → v = []) ∧
            q.aux = 9 ∧ q.dest = hubEp m ∧
            q.body = leBytes 4 m ++ (expWords s.mgr.manifest m).flatMap (fun v => leBytes 4 v.toNat))) ∧
        (¬ good → Runs (.discoverReply pos p) s fun t => t.disc pos.val = 3)) ∧
      (∀ q ∈ twins, (∀ i, i < 53 → ∃ e ∈ l, e.1 = i) → Runs (.discoverReply pos p) s fun t =>
        t.disc pos.val = 3 ∧ t.disc q = 3)) ∧
    (∀ pos : Fin 64, s.fget FAB_MGR_STAT.ROLE = 1 → manHas s.mgr.manifest (64 * modGroup s.modId + pos.val) = true →
      s.disc pos.val = 0 → s.meets pos.val = false → s.mgr.discAt + sUnits (s.fget FAB_MGR_CTL.DISC_TMO) ≤ s.now →
      ((∃ k ∈ s.groupMods, modPos k ≠ pos.val ∧ s.disc (modPos k) = 0) → Runs (.discoveryTimeout pos) s fun t =>
        t.disc pos.val = 2 ∧ (∀ q, q < 64 → q ≠ pos.val → t.disc q = s.disc q) ∧ OnlyRegs [FAB_DISC.off (pos.val / 16)] s t) ∧
      ((∀ k ∈ s.groupMods, modPos k ≠ pos.val → s.disc (modPos k) ≠ 0) → Runs (.discoveryTimeout pos) s fun t =>
        t.disc pos.val = 2 ∧ t.flag FAB_MGR_STAT.DISC_DONE = true ∧ t.fget FAB_MGR_STAT.ROLE = 2 ∧
        t.fget FAB_TERM.TERM = (if s.mgr.termed = true then own else nextTerm (max s.mgr.seen own)) ∧
        t.fget FAB_MGR_ID.ACTING = s.modId ∧ (∃ a b, t.tick.roleNext = some (true, a, b)) ∧ t.mgr.leaseEnd = s.now + msUnits 45 ∧ t.mem = s.mem)) ∧
    (∀ (p : Packet) (via : Port), p.aux = 9 → s.hears p (some via) = true → p.srcrt = true →
      modGroup (epMod p.src) = modGroup (bits (leAt p.body 0 4) 11 0) → Runs (.assign p via) s fun t =>
      let word (c i : Nat) : Nat := leAt p.body (4 + 4 * (5 * c + i)) 4
      t.fget FAB_SELF.MODID = bits (leAt p.body 0 4) 11 0 ∧ t.flag FAB_SELF.VALID = true ∧
      t.fget FAB_TERM.TERM = max p.term own ∧ t.fget FAB_MGR_ID.ACTING = p.mgr ∧ t.flag FAB_MGR_ID.VALID = true ∧
      (∀ c, c < 16 → (∀ i, i < 4 → (t.reg (LNK_EXP.off c i)).toNat = word c i) ∧
        t.fget (LNK_EXP_ID.MODID c) = bits (word c 4) 11 0 ∧
        t.fget (LNK_EXP_ID.PORT c) = bits (word c 4) 15 12 ∧ t.fget (LNK_EXP_ID.VALID c) = bits (word c 4) 16 16) ∧
      (∀ r c, c < 16 → manMod? s.mgr.manifest (bits (leAt p.body 0 4) 11 0) = some r → (manPort r c).present = true →
        t.flag (LNK_CTL.EN c) = true) ∧
      (∃ (l : List Packet) (q : Packet), Store.get (fun _ => []) (t.po via.val).txq 3 = l ++ [q] ∧
        Packet.says q 0x89 p.msg.toNat p.src (max p.term own) []) ∧ t.mem = s.mem) ∧
    (∀ (p : Packet) (d : List Byte), p.aux = 0x0C → s.hears p none = true → segData p.body = some d →
      let i := leAt p.body 4 4
      let l := Store.insert s.mgr.manSegs i d
      let n := if i = 0 then ceilDiv (leAt d 24 8) 960 else s.mgr.manFor
      let b := (l.flatMap Prod.snd).take (leAt (l.flatMap Prod.snd) 24 8)
      let whole := n ≠ 0 ∧ ∀ j, j < n → ∃ e ∈ l, e.1 = j
      let good := manForm b = true ∧ s.manSigOk b = true
      (¬ whole → Runs (.manSeg p) s fun t => t.fget FAB_TERM.TERM = max p.term own ∧
        Answered p none (max p.term own) [] s t ∧
        t = { s with regs := t.regs, rtr := t.rtr, mgr := { s.mgr with manSegs := l, manFor := n, manAt := s.now } } ∧
        ∀ o, o ≠ FAB_TERM.off → t.reg o = s.reg o) ∧
      (whole → good → Runs (.manSeg p) s fun t => t.fget FAB_TERM.TERM = max p.term own ∧
        t.mgr.manSegs = [] ∧ t.mgr.manifest = b ∧ (s.nor.readable = true → t.nor.manifest = b) ∧ t.mem = s.mem) ∧
      (whole → ¬ good → Runs (.manSeg p) s fun t => t.fget FAB_TERM.TERM = max p.term own ∧
        t.mgr.manSegs = [] ∧ t.mgr.manifest = s.mgr.manifest ∧ t.nor = s.nor ∧ t.mem = s.mem)) ∧
    (∀ (p : Packet) (via : Port) (d : List Byte), p.aux = 0x38 → s.hears p (some via) = true → segData p.body = some d →
      s.fwRuns = false → s.pwr.stage = 5 →
      let l := Store.insert s.sec.fwRx (leAt p.body 4 4) d
      let full := (∃ e ∈ l, e.1 = 0) ∧
        ∀ e, l.find? (fun e => decide (e.1 = 0)) = some e → ∀ i, i < ceilDiv (fwTotal e.2) 960 → ∃ g ∈ l, g.1 = i
      let b := (l.flatMap Prod.snd).take (fwTotal (l.flatMap Prod.snd))
      (¬ full → Runs (.fwSeg p via) s fun t =>
        t = { s with regs := t.regs, sec := { s.sec with fwRx := l, fwFrom := some (p, via.val), fwAt := s.now } } ∧
        t.fget SEC_FW_STAT.PHASE = 1 ∧ t.fget SEC_FW_STAT.SOURCE = 1 + via.val ∧
        ∀ o, o ≠ FAB_TERM.off → o ≠ SEC_FW_STAT.off → t.reg o = s.reg o) ∧
      (full → s.fwCheck b = 0 → Runs (.fwSeg p via) s fun t =>
        t.sec.fwRx = [] ∧ t.fget SEC_FW_STAT.PHASE = 3 ∧ t.sec.image = b ∧ t.pwr.stage = 6) ∧
      (full → s.fwCheck b ≠ 0 → Runs (.fwSeg p via) s fun t =>
        t.sec.fwRx = [] ∧ t.fget SEC_FW_STAT.REFUSED = s.fwCheck b ∧ t.fget SEC_FW_STAT.PHASE = 0 ∧
        t.fget SEC_FW_STAT.SOURCE = 1 + via.val ∧ t.sec.image = s.sec.image)) ∧
    (∀ (p : Packet) (a : Await) (v : Serve) (i : Nat), p.aux = 0xB8 →
      s.mgr.awaits.find? (fun a => decide (a.code = 0x38) && decide (a.msg = p.msg.toNat)) = some a →
      let via : Option Port := some (Fin.ofNat 16 (bits (s.pq (modPos a.mod)).route.toNat 7 4))
      s.hears p via = true → s.awaited p via = some a → p.srcrt = true →
      s.mgr.serves.find? (fun v => decide (64 * modGroup s.modId + v.pos = a.mod)) = some v →
      p.body = leBytes 4 i ++ leBytes 4 1 → i < 2 ^ 32 → 960 * i < v.image.length → v.route ≠ 0 → s.manages = true →
      s.trained (bits v.route.toNat 7 4) = true → Runs (.fwSegReply p) s fun t =>
        (∃ q : Packet, PortSent (bits v.route.toNat 7 4) q s t ∧
          Packet.says q 0x38 s.mgr.msgNum (hubEp a.mod) own (segBody 0 0 i (960 * i) ((v.image.drop (960 * i)).take 960))) ∧
        t = { s with port := t.port, mgr := { s.mgr with msgNum := t.mgr.msgNum, awaits := t.mgr.awaits } }) ∧
    (∀ (pos : Fin 64) (port : Port) (now : LinkReport),
      let m := 64 * modGroup s.modId + pos.val
      let new (q : Nat) : List Nat := if now = .usable then addKey (s.pq q).links port.val
        else (s.pq q).links.filter (fun c => c ≠ port.val)
      s.acting = true → pos.val < s.groupSize → s.peers = [] → s.mgr.sby = 0 →
      (now = .usable ∨ s.mgr.hbStep = none) → s.hubUp = true →
      (port.val ≠ 7 → port.val ≠ 8 → s.flag FAB_RT_CTL.SWAP_ARM = false → rsvOk FAB_RT_CTL.off (s.reg FAB_RT_CTL.off) = true →
        s.step + 2 < 2 ^ 64 → s.mgr.coord.swapAt = none → Runs (.routeRecompute pos port now) s fun t =>
          (t.pq pos.val).links = new pos.val ∧
          (∀ v, portPeer (dims s.groupSize) pos.val port.val = some v → v ≠ pos.val → (t.pq v).links = new v) ∧
          (∀ q, q < 64 → t.reg (FAB_POS_SHD.off q) = BitVec.ofNat 32 (t.posWord t.groupGraph t.allLinks (modPos s.modId) q)) ∧
          (∀ h i, h < 64 → i < 4 → t.reg (FAB_GRP_SHD.off h i) = BitVec.ofNat 32 ((t.grpWords h).getD i 0)) ∧
          t.flag FAB_RT_CTL.SWAP_ARM = true ∧ t.pair FAB_RT_AT_LO.off = s.swapStep ∧ t.mem = s.mem) ∧
      (port.val = 7 ∨ port.val = 8 → now ≠ .held → s.flag FAB_MGR_STAT.COORD = false → s.flag FAB_MGR_ID.COORD_VALID = true →
        s.far (s.fget FAB_MGR_ID.COORD) = true → (s.escapeOut (s.fget FAB_MGR_ID.COORD)).isSome = true →
        portPeer (dims s.groupSize) pos.val port.val = none → Runs (.routeRecompute pos port now) s fun t =>
          (t.pq pos.val).links = new pos.val ∧
          Asked 2 (s.fget FAB_MGR_ID.COORD) 0 (s.fget FAB_COORD_TERM.TERM) (leBytes 4 0 ++ leBytes 4 22 ++
            (leBytes 4 m ++ leBytes 4 port.val ++ leBytes 4 (b2n (decide (now = .usable))))) s t ∧
          t = { s with rtr := t.rtr, mgr := { s.mgr with pos := t.mgr.pos, awaits := t.mgr.awaits, msgNum := t.mgr.msgNum } }))

/-- A plan is kept, and a further plan of the same load is added to it. A segment of the plan whose SDIG passes is
kept; a complete section goes to its context where its CHK passes and is missing again where it fails; the first
section of a slice puts its context into LOADING. Two milliseconds after the latest segment or request a receiver asks
for what it lacks, and the manager sends each named segment again to it alone. A module's report enters the load's
reports; an error ends the load. The acting module posts one message for each code, slice and step; a member carries
out a record for a step. MEMBER_LOST aborts the tick, leaves an armed commit to be refused, holds the slice with cause
6 at the next boundary and is forwarded. A reset notice, or three missing heartbeats, count a module or its partitions
as lost once, and the lost partitions of a slice are fenced at a named step; a heartbeat brings partitions back.
(R189, R289, R314, R326, R327, R330, R331, R429). -/
def Obligations.MembersAndDistribution : Prop :=
  ∀ s : State,
    let own := s.fget FAB_TERM.TERM
    let cterm := s.fget FAB_COORD_TERM.TERM
    let hub (t : State) : List Packet := (t.rt s.hubRtr).line 6 3
    let noCoord := (s.flag FAB_MGR_ID.COORD_VALID && s.far (s.fget FAB_MGR_ID.COORD)) = false
    let term (p : Packet) : Fld := if s.far (epMod p.src) = true then FAB_COORD_TERM.TERM else FAB_TERM.TERM
    let told (p : Packet) (t : State) : Prop := t.fget (term p) = max p.term (s.fget (term p)) ∧
      ∀ o, o ≠ (term p).reg → t.reg o = s.reg o
    (∀ (p : Packet) (ent first cnt : Nat) (h : List Byte), p.aux = 0x18 → s.hears p none = true →
      h.length = 32 → ent < 2 ^ 32 → first < 2 ^ 32 → 0 < cnt → cnt < 2 ^ 32 →
      p.body.drop 4 = leBytes 4 ent ++ leBytes 4 first ++ leBytes 4 cnt ++ h →
      ((∀ r, s.mgr.recv = some r → r.load ≠ leAt p.body 0 2) → Runs (.rigPlan p) s fun t => told p t ∧
        t = { s with regs := t.regs, mgr := { s.mgr with
          recv := some ⟨leAt p.body 0 2, [(ent, first, cnt)], [], s.now, [(ent, h)], p.src, bit (leAt p.body 2 2) 1, []⟩ } }) ∧
      (∀ r, s.mgr.recv = some r → r.load = leAt p.body 0 2 → r.src = p.src → Runs (.rigPlan p) s fun t => told p t ∧
        t = { s with regs := t.regs, mgr := { s.mgr with
          recv := some { r with plan := r.plan ++ [(ent, first, cnt)], heads := r.heads ++ [(ent, h)], lastAt := s.now } } })) ∧
    (∀ (p : Packet) (d : List Byte) (r : RecvSt) (ent first cnt : Nat) (h : List Byte), p.aux = 0x19 → s.hears p none = true →
      segData p.body = some d → s.mgr.recv = some r → leAt p.body 0 2 = r.load →
      let seg := leAt p.body 4 4
      let l := Store.insert r.segs seg d
      let r' := { r with segs := l, lastAt := s.now }
      let b := (List.range cnt).flatMap (fun j => Store.get (fun _ => []) l (first + j))
      r.plan.find? (fun e => decide (e.2.1 ≤ seg) && decide (seg < e.2.1 + e.2.2)) = some (ent, first, cnt) →
      (∀ g ∈ r.segs, g.1 ≠ seg) → r.heads.find? (fun x => decide (x.1 = ent)) = some (ent, h) →
      ((∃ j, j < cnt ∧ ∀ g ∈ l, g.1 ≠ first + j) → Runs (.rigSeg p) s fun t => told p t ∧
        t = { s with regs := t.regs, mgr := { s.mgr with recv := some r' } }) ∧
      ((∀ j, j < cnt → ∃ g ∈ l, g.1 = first + j) → leNat (shake256 4 b) ≠ (dirEntOf h).chk → b ≠ [] →
        Runs (.rigSeg p) s fun t => told p t ∧ t = { s with regs := t.regs, mgr := { s.mgr with
          recv := some { r' with segs := Store.clear (fun i => decide (first ≤ i) && decide (i < first + cnt)) l } } }) ∧
      (∀ n, (∀ j, j < cnt → ∃ g ∈ l, g.1 = first + j) → leNat (shake256 4 b) = (dirEntOf h).chk → s.ctxFor (dirEntOf h).sid = some n →
        (dirEntOf h).typ ≠ 2 → (dirEntOf h).typ ≠ 0x34 → (dirEntOf h).sid ∈ r.begun → Runs (.rigSeg p) s fun t => told p t ∧
          (t.cx n).shadow = putSect (s.cx n).shadow ⟨(dirEntOf h).typ, (dirEntOf h).agent, (dirEntOf h).count, b⟩ ∧
          { t.cx n with shadow := [] } = { s.cx n with shadow := [] } ∧ (∀ k, k ≠ n → t.cx k = s.cx k) ∧
          t = { s with regs := t.regs, ctx := t.ctx, mgr := { s.mgr with recv := some r' } }) ∧
      (∀ n, (∀ j, j < cnt → ∃ g ∈ l, g.1 = first + j) → leNat (shake256 4 b) = (dirEntOf h).chk → s.ctxFor (dirEntOf h).sid = some n →
        n < 16 → (dirEntOf h).typ ≠ 2 → (dirEntOf h).typ ≠ 0x34 → (dirEntOf h).sid ∉ r.begun → s.fget (RIG_SL_STAT.SHADOW n) = 0 →
        Runs (.rigSeg p) s fun t =>
          t.fget (RIG_SL_STAT.SHADOW n) = 1 ∧ t.fget (RIG_SL_STAT.SLICE_ID n) = (dirEntOf h).sid ∧
          t.fget (RIG_SL_STAT.DELTA n) = b2n r.delta ∧ t.fget (RIG_SL_STAT.ACTIVE n) = s.fget (RIG_SL_STAT.ACTIVE n) ∧
          t.cx n = { s.cx n with
            shadow := putSect (if r.delta = true then (s.cx n).active else []) ⟨(dirEntOf h).typ, (dirEntOf h).agent, (dirEntOf h).count, b⟩
            shadDigs := [], loadAt := s.now } ∧ (∀ k, k ≠ n → t.cx k = s.cx k) ∧
          t = { s with regs := t.regs, ctx := t.ctx, mgr := { s.mgr with
            recv := some { r' with begun := r.begun ++ [(dirEntOf h).sid] } } })) ∧
    (∀ r, s.mgr.recv = some r → r.missing ≠ [] → r.lastAt + msUnits 2 ≤ s.now → s.mgr.manFor = 0 → s.sec.fwFrom = none →
      s.manages = false → Runs .resendTimer s fun t =>
        (∃ q, HubSent q s t ∧ Packet.says q 0x1A s.mgr.msgNum (hubEp (epMod r.src)) 0 (rangeBody r.missing)) ∧
        t = { s with rtr := t.rtr, mgr := { s.mgr with recv := some { r with lastAt := s.now }, msgNum := t.mgr.msgNum } }) ∧
    (s.mgr.recv = none → s.mgr.manFor ≠ 0 → s.mgr.manAt + msUnits 2 ≤ s.now → s.sec.fwFrom = none → s.manages = false →
      Runs .resendTimer s fun t =>
        (∃ q, HubSent q s t ∧ Packet.says q 0x1A s.mgr.msgNum (hubEp (s.fget FAB_MGR_ID.ACTING)) 0 (rangeBody s.manMissing)) ∧
        t = { s with rtr := t.rtr, mgr := { s.mgr with manAt := s.now, msgNum := t.mgr.msgNum } }) ∧
    (∀ (p : Packet) (c : Port), s.mgr.recv = none → s.mgr.manFor = 0 → s.far (epMod p.src) = false →
      s.sec.fwFrom = some (p, c.val) → s.fwRuns = false → s.sec.fwAt + msUnits 2 ≤ s.now →
      Runs .resendTimer s fun t => Answered p (some c) own (rangeBody s.fwMissing) s t ∧
        t = { s with rtr := t.rtr, port := t.port, sec := { s.sec with fwAt := s.now } }) ∧
    (∀ (p : Packet) (i : Nat), p.aux = 0x1A → s.hears p none = true → s.manages = true →
      p.body = leBytes 4 i ++ leBytes 4 1 → i < 2 ^ 32 →
      let asks := s.mgr.awaits.any (fun a => decide (a.code = 0x0C) && decide (a.mod = epMod p.src))
      (∀ (e o : Nat) (b : List Byte), asks = false → s.mgr.load.active = true →
        (imageOf s.mgr.load.image).segment i = some (e, o, b) → Runs (.rigResend p) s fun t =>
          (∃ q, HubSent q s t ∧ Packet.says q 0x19 s.mgr.msgNum (hubEp (epMod p.src)) (s.termTo (epMod p.src))
            (segBody s.mgr.load.num e i o b) ∧ q.mc = false) ∧
          t = { s with rtr := t.rtr, mgr := { s.mgr with msgNum := t.mgr.msgNum } }) ∧
      (asks = true → s.srcRoute (epMod p.src) = 0 → Runs (.rigResend p) s fun t =>
        Asked 0x0C (epMod p.src) 1 (s.termTo (epMod p.src))
          (segBody 0 0 i (960 * i) ((s.mgr.manifest.drop (960 * i)).take 960)) s t ∧
        t = { s with rtr := t.rtr, mgr := { s.mgr with msgNum := t.mgr.msgNum, awaits := t.mgr.awaits } })) ∧
    (∀ (p : Packet) (sid code : Nat), p.aux = 0x1B → s.hears p none = true → s.manages = true → s.mgr.load.active = true →
      leAt p.body 0 4 = sid → leAt p.body 8 4 = code → sid ∈ s.mgr.load.slices → s.mgr.sby = 0 →
      let rs := s.mgr.load.reports.filter (fun x => x.1 ≠ epMod p.src || x.2.1 ≠ sid) ++ [(epMod p.src, sid, slice p.body 24 32, 0)]
      let all := s.mgr.load.slices.all (fun y => !s.mgr.load.spent.contains y && match s.resvOf y with
        | some r => r.members.all (fun m => rs.any (fun z => z.1 = m.1 && z.2.1 = y && z.2.2.2 = 0))
        | none => false)
      let kept (t : State) : Prop := t.mgr.load.reports = rs ∧ t.core = s.core ∧ t.ctx = s.ctx ∧ t.mem = s.mem ∧ t.rtr = s.rtr
      (code = 0 → leAt p.body 4 4 ≠ 2 → all = false → Runs (.rigReport p) s fun t =>
        kept t ∧ t.mgr.load.active = true ∧ t.fget RIG_STAT.PHASE = s.fget RIG_STAT.PHASE) ∧
      (code = 0 → leAt p.body 4 4 ≠ 2 → all = true → Runs (.rigReport p) s fun t =>
        kept t ∧ t.mgr.load.active = false ∧ t.fget RIG_STAT.PHASE = 4 ∧ t.fget RIG_STAT.BUSY = 0) ∧
      (code ≠ 0 → code ≠ 0x2B → code < 256 → Runs (.rigReport p) s fun t =>
        t.fget RIG_STAT.PHASE = 5 ∧ t.fget RIG_STAT.BUSY = 0 ∧ t.fget RIG_ERR.CODE = code ∧
        t.fget RIG_ERR.SECTION = leAt p.body 12 4 % 2 ^ 16 ∧ (t.reg RIG_ERR_AGENT.off).toNat = leAt p.body 16 4 ∧
        (t.reg RIG_ERR_AUX.off).toNat = leAt p.body 20 4 ∧ t.core = s.core ∧ t.mem = s.mem)) ∧
    (∀ (p : Packet) (r : Resv), p.aux = 0x1B → s.hears p none = true → s.manages = true → leAt p.body 8 4 = 0 →
      leAt p.body 4 4 = 2 → s.resvOf (leAt p.body 0 4) = some r →
      let ms := (s.mgr.warm.filter (fun e => e.1 = leAt p.body 0 4 && e.2 ≠ epMod p.src)).map Prod.snd ++ [epMod p.src]
      (∃ k ∈ r.members, k.1 ∉ ms) → Runs (.rigReport p) s fun t =>
        t = { s with mgr := { s.mgr with
          warm := s.mgr.warm.filter (fun e => e.1 ≠ leAt p.body 0 4) ++ ms.map (fun k => (leAt p.body 0 4, k)) } }) ∧
    (∀ p : Packet, p.aux = 0x20 → s.hears p none = true →
      let ws := wordsOf 16 p.body
      let w := (ws.getD 0 0).toNat
      let how := bits (ws.getD 4 0).toNat 7 0
      let key := (w % 256, bits w 19 8, (ws.getD 1 0).toNat + (ws.getD 2 0).toNat * 2 ^ 32)
      (s.acting = true → epMod p.src ≠ s.modId → s.far (epMod p.src) = false → key ∈ s.mgr.events →
        Runs (.sliceEvent p) s fun t => t = s) ∧
      (∀ r, s.acting = true → epMod p.src ≠ s.modId → s.far (epMod p.src) = false →
        key ∉ s.mgr.events → s.mgr.resv.find? (fun r => decide (r.slice = key.2.1)) = some r → s.chanOpen r.chan = true →
        s.chanRecv r.chan = 2 → s.inReset 2 = false → (s.mb r.chan).queue.length < s.chanDepth r.chan →
        (s.mb r.chan).head1 = (s.mb r.chan).head2 → (s.mb r.chan).tail1 = (s.mb r.chan).tail2 →
        Runs (.sliceEvent p) s fun t => t.mgr = { s.mgr with events := s.mgr.events ++ [key] } ∧
          (∃ m, (t.mb r.chan).queue = (s.mb r.chan).queue ++ [m] ∧ m.words = ws) ∧ t.core = s.core ∧ t.mem = s.mem) ∧
      (s.manages = false → w % 256 = 0x0B → how ≤ 1 → s.far (epMod p.src) = false → Runs (.sliceEvent p) s fun t => told p t ∧
        Answered p none (max p.term own) [] s t ∧
        t = { s with regs := t.regs, rtr := t.rtr, fab := { s.fab with adaptHeld := some (key.2.2, decide (how = 1)) } }) ∧
      (∀ b, s.manages = false → w % 256 = 0x0B → how = 3 → s.far (epMod p.src) = false → s.fab.adaptHeld = some (key.2.2, b) →
        Runs (.sliceEvent p) s fun t => told p t ∧ Answered p none (max p.term own) [] s t ∧
          t = { s with regs := t.regs, rtr := t.rtr, fab := { s.fab with adaptHeld := none, adaptAt := some (key.2.2, b) } }) ∧
      (s.acting = true → s.far (epMod p.src) = true → s.flag FAB_MGR_ID.COORD_VALID = true →
        s.fget FAB_MGR_ID.COORD = epMod p.src → w % 256 = 0x0C → Runs (.sliceEvent p) s fun t =>
          Answered p none cterm [] s t ∧ t = { s with rtr := t.rtr, fab := { s.fab with rerootAt := some key.2.2 } })) ∧
    (∀ (p : Packet) n, p.aux = 0x28 → s.hears p none = true → s.manages = false → s.ctxOf (leAt p.body 0 4) = some n →
      2 ≤ s.slState n → s.slState n ≤ 4 → s.ticking n = true → s.flag FAB_MGR_ID.VALID = true →
      Runs (.memberLost p) s fun t =>
        (t.cx n).aborted = true ∧ t.fget (TCK_SL_STAT.LAST_ABORT n) = 6 ∧
        (t.cx n).holdNext = some ((s.cx n).holdNext.getD 6) ∧ (s.fget (RIG_SL_STAT.SHADOW n) = 3 → (t.cx n).lost = true) ∧
        (∃ q, hub t = hub s ++ [q] ∧ Packet.says q 0x20 s.mgr.msgNum (hubEp (s.rulerOf n)) 0
          (bytesOf (eventWords 1 (leAt p.body 0 4) s.step (leAt p.body 4 4) (leAt p.body 8 4) (t.fget FAB_TERM.TERM)))) ∧
        (∀ k, k ≠ n → t.cx k = s.cx k) ∧ t.core = s.core ∧ t.mem = s.mem) ∧
    (∀ p : Packet, p.aux = 0x29 → s.hears p none = true → s.acting = true → s.mgr.hbStep = none → s.mgr.cmds = [] →
      s.mgr.toArm = false → s.mgr.commits = [] → noCoord →
      let m := epMod p.src
      let w := leAt p.body 0 4
      let keys := if bit w 16 = true then [m] else (maskParts (bits w 15 0)).map (fun d => 4096 * (d + 1) + m)
      let new := keys.filter (fun k => !s.mgr.lostMods.contains k)
      let mgr := bit w 16 = true ∧ m ∈ managersOf s.mgr.manifest (modGroup m)
      (¬ mgr → new = [] ∨ m ∈ s.mgr.lostMods → Runs (.resetNotice p) s fun t => t = s) ∧
      (mgr → m ∈ s.mgr.lostMods → Runs (.resetNotice p) s fun t =>
        t.mgen (0x80 + modGroup m) = (s.mgen (0x80 + modGroup m) + 1) % 256 ∧ t.mgr = s.mgr ∧ t.core = s.core ∧ t.mem = s.mem) ∧
      (¬ mgr → new ≠ [] → m ∉ s.mgr.lostMods → m ≠ s.modId → s.mgr.resv = [] → (∀ a ∈ s.mgr.awaits, a.mod ≠ m) →
        s.otherMgr ≠ some m →
        Runs (.resetNotice p) s fun t => t = { s with mgr := { s.mgr with lostMods := s.mgr.lostMods ++ new } }) ∧
      (∀ (r : Resv) (mask n : Nat), new ≠ [] → bit w 16 = false → m ∉ s.mgr.lostMods → m ≠ s.modId → s.mgr.resv = [r] →
        r.members = [(m, mask)] → r.ctx = [(s.modId, n)] → mask &&& bits w 15 0 ≠ 0 → mask < 2 ^ 16 →
        (∀ k ∈ keys, k ∉ s.mgr.lostMods) → s.mgr.load.active = false → s.mgr.sby = 0 → s.mgr.awaits = [] →
        16 ≤ s.fget RIG_CTL.LEAD → s.step + s.fget RIG_CTL.LEAD < 2 ^ 64 → s.ctxOf r.slice = some n → r.slice < 4096 →
        s.flag (RIG_SL_STAT.ACTIVE n) = true → Runs (.resetNotice p) s fun t =>
          t.mgr.lostMods = s.mgr.lostMods ++ new ∧
          t.mgr.resv = [{ r with fences := setFence r.fences (whoWord m (mask &&& bits w 15 0)) true }] ∧
          (whoWord m (mask &&& bits w 15 0), s.step + s.fget RIG_CTL.LEAD, true) ∈ (t.cx n).fenceArm ∧
          (2 ≤ s.slState n → s.slState n ≤ 4 → (s.cx n).holdNext = none → (t.cx n).holdNext = some 6) ∧
          t.mgr.cmds = [] ∧ t.core = s.core ∧ t.mem = s.mem)) ∧
    (s.hubUp = true → s.fwRuns = true → s.manages = false → s.flag FAB_MGR_ID.VALID = true →
      let sent (low high : Nat) (t : State) : Prop := (∃ q, HubSent q s t ∧
          Packet.says q 0x30 s.mgr.msgNum (hubEp (s.fget FAB_MGR_ID.ACTING)) 0 (leBytes 2 low ++ leBytes 2 high)) ∧
        t = { s with rtr := t.rtr, mgr := { s.mgr with msgNum := t.mgr.msgNum } }
      (s.linkFeats = [] → Runs (.heartbeat none) s fun t => sent (s.fget SEC_FW_LEVEL.FEAT) (s.fget SEC_FW_LEVEL.FEAT) t) ∧
      (s.linkFeats ≠ [] → Runs (.heartbeat none) s fun t => ∃ low high, sent low high t ∧
        low ∈ s.linkFeats ∧ high ∈ s.linkFeats ∧ ∀ x ∈ s.linkFeats, low ≤ x ∧ x ≤ high)) ∧
    (∀ p : Packet, p.aux = 0x30 → s.hears p none = true → s.manages = true → leAt p.body 0 2 ≠ 0 → s.mgr.resv = [] →
      s.acting = false ∨ noCoord → Runs (.heartbeat (some p)) s fun t =>
        t.pq (modPos (epMod p.src)) = { s.pq (modPos (epMod p.src)) with beatAt := s.now } ∧
        (∀ q, q ≠ modPos (epMod p.src) → t.pq q = s.pq q) ∧
        (∀ k, k ∈ t.mgr.lostMods ↔ k ∈ s.mgr.lostMods ∧ ¬ (k % 4096 = epMod p.src ∧ 4096 ≤ k)) ∧
        t = { s with mgr := { s.mgr with pos := t.mgr.pos, lostMods := t.mgr.lostMods } }) ∧
    (∀ m : BitVec 12, s.acting = true → m.toNat ∈ s.peers → s.mgr.hbStep = none → s.mgr.cmds = [] → s.mgr.toArm = false →
      s.mgr.commits = [] → s.mgr.resv = [] →
      let late := (s.pq (modPos m.toNat)).beatAt + msUnits 3 ≤ s.now ∧ (∀ a ∈ s.mgr.awaits, a.mod ≠ m.toNat) ∧
        s.otherMgr ≠ some m.toNat
      (late → noCoord → Runs (.heartbeatLoss m) s fun t =>
        t = { s with mgr := { s.mgr with lostMods := s.mgr.lostMods ++ [m.toNat] } }) ∧
      (late → s.flag FAB_MGR_ID.COORD_VALID = true → s.far (s.fget FAB_MGR_ID.COORD) = true →
        (s.escapeOut (s.fget FAB_MGR_ID.COORD)).isSome = true → Runs (.heartbeatLoss m) s fun t =>
          Asked 2 (s.fget FAB_MGR_ID.COORD) 0 cterm (leBytes 4 0 ++ leBytes 4 23 ++
            (leBytes 4 m.toNat ++ leBytes 4 0xFFFF ++ leBytes 4 1 ++ leBytes 4 2)) s t ∧
          t = { s with rtr := t.rtr, mgr := { s.mgr with
            lostMods := s.mgr.lostMods ++ [m.toNat], awaits := t.mgr.awaits, msgNum := t.mgr.msgNum } }) ∧
      (s.now < (s.pq (modPos m.toNat)).beatAt + msUnits 3 → Runs (.heartbeatLoss m) s fun t => t = s))

/-- A host command written where this module is not ACTING completes with NOT_MGR, one written while a command or a
handback is in progress with BUSY, and neither does anything else. On an acting module with no standby and, where it
matters, no other module to ask, a command ends at once with its status: MODE sets the mode, HANDOVER is refused,
FW_STAGE stores an image of the group's level or the next, FLOOR raises the feature floor, ADAPT and PERIOD arm their
step, MANIFEST and XCONNECT put an accepted manifest or map in force and refuse others, FORWARD carries its accesses
out as master 0x02 and returns what it read. With a standby every command is first journaled to it and waits for the
answer, and RESTART asks the named member's hub to reset its module. (R37, R252, R253, R306, R310, R311, R313, R316,
R323, R325, R333). -/
def Obligations.HostCommands : Prop :=
  ∀ (s : State) (m : Master) (hseq : BitVec 16),
    let own := s.fget FAB_TERM.TERM
    let only (l : List Nat) (t : State) : Prop :=
      ∀ o, o ≠ FAB_CMD_STAT.off → o ≠ HUB_PCIE_IRQ.off → o ∉ l → t.reg o = s.reg o
    let quiet (l : List Nat) (t : State) : Prop := t = { s with regs := t.regs, out := t.out } ∧ only l t
    let alone := s.peers = []
    let cmds := [(Instr.manifest m hseq, 1), (.xconnect m hseq, 2), (.mode m hseq, 3), (.sliceReserve m hseq, 4),
      (.sliceRelease m hseq, 5), (.sliceCmd m hseq, 6), (.fence m hseq, 7), (.period m hseq, 8), (.treeCfg m hseq, 9),
      (.handover m hseq, 10), (.fwStage m hseq, 11), (.restart m hseq, 12), (.adapt m hseq, 13), (.floor m hseq, 14),
      (.forward m hseq, 15)]
    (∀ e ∈ cmds, s.admits m FAB_CMD.off (BitVec.ofNat 32 (e.2 + hseq.toNat * 2 ^ 16)) = true →
      let turned (st : Nat) (t : State) : Prop := quiet [] t ∧ t.fget FAB_CMD_STAT.STATUS = st ∧
        t.fget FAB_CMD_STAT.HSEQ = hseq.toNat ∧ t.fget FAB_CMD_STAT.BUSY = s.fget FAB_CMD_STAT.BUSY ∧
        (t.fget HUB_PCIE_IRQ.IRQ).testBit 1 = true
      (s.acting = false → Runs e.1 s fun t => turned 1 t) ∧
      (s.acting = true → s.flag FAB_CMD_STAT.BUSY = true ∨ s.mgr.hbStep ≠ none → Runs e.1 s fun t => turned 2 t)) ∧
    (∀ e ∈ cmds, ∀ x, s.takesUp m e.2 hseq = true → s.mgr.sby = 2 → s.otherMgr = some x → (s.escapeOut x).isSome = true →
      Runs e.1 s fun t => t.flag FAB_CMD_STAT.BUSY = true ∧ only [] t ∧
        Asked 2 x 1 own (leBytes 4 s.mgr.jseq ++ leBytes 4 12 ++ (leBytes 4 e.2 ++ leBytes 4 hseq.toNat ++
          (List.range 16).flatMap (fun i => leBytes 4 (s.arg i)))) s t ∧
        (∃ c, t.mgr.cmds = [c] ∧ c.code = e.2 ∧ c.hseq = hseq.toNat ∧ c.phase = 0 ∧ c.told = true ∧
          c.args = (List.range 16).map s.arg) ∧
        t = { s with regs := t.regs, rtr := t.rtr, mgr := { s.mgr with
          jseq := s.mgr.jseq + 1, msgNum := t.mgr.msgNum, awaits := t.mgr.awaits, cmds := t.mgr.cmds } }) ∧
    (s.takesUp m 3 hseq = true →
      (s.mgr.sby = 0 → s.arg 0 = 1 ∨ s.arg 0 = 2 → Runs (.mode m hseq) s fun t =>
        Ended 0 hseq t ∧ t.fget FAB_MGR_STAT.MODE = s.arg 0 ∧ t.fget FAB_MGR_STAT.ROLE = 2 ∧ quiet [FAB_MGR_STAT.off] t) ∧
      (s.mgr.sby = 0 → s.arg 0 ≠ 1 → s.arg 0 ≠ 2 → Runs (.mode m hseq) s fun t => Ended 3 hseq t ∧ quiet [] t)) ∧
    (s.takesUp m 10 hseq = true → s.mgr.sby = 0 → Runs (.handover m hseq) s fun t => Ended 8 hseq t ∧ quiet [] t) ∧
    (s.takesUp m 11 hseq = true → s.mgr.sby = 0 → 64 ≤ s.arg 2 → s.arg 2 ≤ 2 ^ 24 → mlaRange (s.arg2 0) (s.arg 2) = true →
      let b := s.memRead (s.arg2 0) (s.arg 2)
      let fits := leAt b 4 2 = s.arg 3 ∧ (s.arg 3 = s.lowFeat ∨ s.arg 3 = s.lowFeat + 1)
      (fits → Runs (.fwStage m hseq) s fun t => only [] t ∧ Ended 0 hseq t ∧
        t = { s with regs := t.regs, out := t.out, mgr := { s.mgr with staged := b, stagedFeat := s.arg 3 } }) ∧
      (¬ fits → Runs (.fwStage m hseq) s fun t => Ended 10 hseq t ∧ quiet [] t)) ∧
    (s.takesUp m 12 hseq = true →
      (∀ x f, s.mgr.sby = 0 → s.arg 0 = x → s.arg 1 = f → x ∈ s.peers → f ≤ 1 → (f = 1 → s.mgr.staged ≠ []) → (s.escapeOut x).isSome = true →
        Runs (.restart m hseq) s fun t => t.flag FAB_CMD_STAT.BUSY = true ∧
          Asked 0x10 x 1 own (leBytes 4 HUB_RST_CMD.off ++ leBytes 4 (HUB_RST_CMD.CMD.into 0 1).toNat) s t ∧
          (x ∈ t.mgr.restarts ↔ f = 1) ∧ only [] t ∧
          t = { s with regs := t.regs, rtr := t.rtr, mgr := { s.mgr with
            restarts := t.mgr.restarts, msgNum := t.mgr.msgNum, awaits := t.mgr.awaits, cmds := t.mgr.cmds } }) ∧
      (s.mgr.sby = 0 → 1 < s.arg 1 ∨ s.arg 0 ∉ s.peers → Runs (.restart m hseq) s fun t => Ended 3 hseq t ∧ quiet [] t)) ∧
    (s.takesUp m 13 hseq = true → s.mgr.sby = 0 → alone →
      (s.arg 0 ≤ 1 → 16 ≤ s.fget RIG_CTL.LEAD → s.step + s.fget RIG_CTL.LEAD < 2 ^ 64 →
        Runs (.adapt m hseq) s fun t => Ended 0 hseq t ∧ only [] t ∧
        t = { s with regs := t.regs, out := t.out, fab := { s.fab with
          adaptHeld := none, adaptAt := some (s.step + s.fget RIG_CTL.LEAD, decide (s.arg 0 = 1)) } }) ∧
      (1 < s.arg 0 → Runs (.adapt m hseq) s fun t => Ended 3 hseq t ∧ quiet [] t)) ∧
    (s.takesUp m 14 hseq = true → s.mgr.sby = 0 → alone →
      (s.fget HUB_FEAT_FLOOR.FLOOR ≤ s.arg 0 → s.arg 0 ≤ s.fget SEC_FW_LEVEL.FEAT → Runs (.floor m hseq) s fun t =>
        Ended 0 hseq t ∧ t.fget HUB_FEAT_FLOOR.FLOOR = s.arg 0 ∧ quiet [HUB_FEAT_FLOOR.off] t) ∧
      (s.fget SEC_FW_LEVEL.FEAT < s.arg 0 → s.arg 0 < 65536 → Runs (.floor m hseq) s fun t => Ended 10 hseq t ∧ quiet [] t)) ∧
    (s.takesUp m 15 hseq = true → s.mgr.sby = 0 → manHas s.mgr.manifest (s.arg 0) = true → s.arg 1 = 1 →
      mlaRange (s.arg2 2) 8 = true →
      (∀ (i : Fin 16) (v : Word), s.arg 0 = s.modId →
        s.memRead (s.arg2 2) 8 = leBytes 4 (FAB_CMD_ARG.off i.val + 2 ^ 31) ++ leBytes 4 v.toNat → Runs (.forward m hseq) s fun t =>
          Ended 0 hseq t ∧ t.reg (FAB_CMD_ARG.off i.val) = v ∧ quiet [FAB_CMD_ARG.off i.val] t) ∧
      (s.arg 0 = s.modId → leAt (s.memRead (s.arg2 2) 8) 0 4 = HUB_FEAT_FLOOR.off → Runs (.forward m hseq) s fun t =>
        Ended 0 hseq t ∧ only [] t ∧ t = { s with regs := t.regs, out := t.out, mem := t.mem, memBad := t.memBad } ∧
        ∀ x, t.memGet x = if s.arg2 2 + 4 ≤ x ∧ x < s.arg2 2 + 8 then
          (leBytes 4 (s.reg HUB_FEAT_FLOOR.off).toNat).getD (x - (s.arg2 2 + 4)) 0 else s.memGet x) ∧
      (s.arg 0 ≠ s.modId → s.arg 0 ∉ s.peers → Runs (.forward m hseq) s fun t => Ended 9 hseq t ∧ quiet [] t)) ∧
    (s.takesUp m 1 hseq = true → s.mgr.sby = 0 → (∀ q, q < 64 → q ≠ modPos s.modId → s.disc q ≠ 1) →
      (s.arg 2 ≠ 0 → mlaRange (s.arg2 0) (s.arg 2) = true →
        let b := s.memRead (s.arg2 0) (s.arg 2)
        (s.manRefused b = true → Runs (.manifest m hseq) s fun t => Ended 6 hseq t ∧ quiet [] t) ∧
        (s.manRefused b = false → Runs (.manifest m hseq) s fun t => t.mem = s.mem ∧ t.core = s.core ∧
          Ended 0 hseq t ∧ t.mgr.manifest = b ∧ (s.nor.readable = true → t.nor.manifest = b))) ∧
      (s.arg 2 = 0 ∨ mlaRange (s.arg2 0) (s.arg 2) = false → Runs (.manifest m hseq) s fun t => Ended 3 hseq t ∧ quiet [] t)) ∧
    (s.takesUp m 2 hseq = true → s.mgr.sby = 0 →
      let n := 8 * s.arg 2
      let x := xmapOf (s.memRead (s.arg2 0) n)
      (s.flag FAB_MGR_STAT.COORD = false → Runs (.xconnect m hseq) s fun t => Ended 1 hseq t ∧ quiet [] t) ∧
      (s.flag FAB_MGR_STAT.COORD = true → n ≠ 0 → mlaRange (s.arg2 0) n = true →
        (xmapRefused s.mgr.manifest x = true → Runs (.xconnect m hseq) s fun t => Ended 7 hseq t ∧ quiet [] t) ∧
        (xmapRefused s.mgr.manifest x = false → s.mgr.xmap = [] →
          (∀ e ∈ x, (modGroup e.1 = modGroup s.modId → e.1 = s.modId) ∧ (modGroup e.2.2.1 = modGroup s.modId → e.2.2.1 = s.modId)) →
          Runs (.xconnect m hseq) s fun t => Ended 0 hseq t ∧ t.mgr.xmap = x ∧ t.mem = s.mem ∧ ∀ e ∈ x,
            (e.1 = s.modId → t.fget (LNK_EXP_ID.MODID e.2.1) = e.2.2.1 ∧ t.fget (LNK_EXP_ID.PORT e.2.1) = e.2.2.2 ∧
              t.flag (LNK_CTL.EN e.2.1) = true) ∧
            (e.2.2.1 = s.modId → t.fget (LNK_EXP_ID.MODID e.2.2.2) = e.1 ∧ t.fget (LNK_EXP_ID.PORT e.2.2.2) = e.2.1 ∧
              t.flag (LNK_CTL.EN e.2.2.2) = true)))) ∧
    (s.takesUp m 8 hseq = true → s.mgr.sby = 0 → s.machine = [s.modId] →
      let t0 := s.arg2 1
      (s.flag FAB_MGR_STAT.COORD = false → Runs (.period m hseq) s fun t => Ended 1 hseq t ∧ quiet [] t) ∧
      (s.flag FAB_MGR_STAT.COORD = true → s.arg 0 < 1000 ∨ 2 ^ 20 ≤ s.arg 0 → Runs (.period m hseq) s fun t =>
        Ended 3 hseq t ∧ quiet [] t) ∧
      (s.flag FAB_MGR_STAT.COORD = true → 1000 ≤ s.arg 0 → s.arg 0 < 2 ^ 20 →
        (t0 < s.step + 16 → Runs (.period m hseq) s fun t => Ended 4 hseq t ∧ quiet [] t) ∧
        (s.step + 16 ≤ t0 → rsvOk TCK_CTL.off (s.reg TCK_CTL.off) = true → Runs (.period m hseq) s fun t => Ended 0 hseq t ∧
          t.fget TCK_PERIOD_NEXT.NEXT = s.arg 0 ∧ t.pair TCK_PERIOD_AT_LO.off = t0 ∧ t.flag TCK_CTL.PERIOD_ARM = true ∧
          t.fget TCK_CTL.PARENT = s.fget TCK_CTL.PARENT ∧ t.fget TCK_PERIOD.PERIOD = s.fget TCK_PERIOD.PERIOD ∧
          quiet [TCK_PERIOD_NEXT.off, TCK_PERIOD_AT_LO.off, TCK_PERIOD_AT_HI.off, TCK_CTL.off] t)))

/-- On an acting module without a standby: SLICE_RESERVE that is not refused records the slice with its members, its
channel and for each member a context that no reservation holds; SLICE_RELEASE frees the reservation of a slice that
is IDLE and is refused in any other state; SLICE_CMD writes the command and its step into the slice context and arms
it at least 16 boundaries ahead, with step 0 standing for RIG_CTL.LEAD boundaries ahead, and is refused where the tick
state forbids it or the step is too near; FENCE and TREE_CFG arm their step. A command that still waits for an answer
16 boundaries before its step is cancelled and completes with LATE_STEP; a PERIOD whose arms are sent and not all
answered completes with LOST. (R57, R296, R301, R323, R324, R325, R429). -/
def Obligations.SliceHostCommands : Prop :=
  ∀ (s : State) (m : Master) (hseq : BitVec 16),
    let only (l : List Nat) (t : State) : Prop :=
      ∀ o, o ≠ FAB_CMD_STAT.off → o ≠ HUB_PCIE_IRQ.off → o ∉ l → t.reg o = s.reg o
    let kept (g : MgrSt) (t : State) : Prop := t = { s with regs := t.regs, out := t.out, mgr := g }
    let quiet (t : State) : Prop := kept s.mgr t ∧ only [] t
    let noCoord := (s.flag FAB_MGR_ID.COORD_VALID && s.far (s.fget FAB_MGR_ID.COORD)) = false
    let near (r : Resv) : Prop := ∀ e ∈ r.ctx, modGroup e.1 = modGroup s.modId
    let lead := s.step + s.fget RIG_CTL.LEAD
    let here (r : Resv) (n : Nat) : Prop := s.resvOf (s.arg 0) = some r ∧ s.membersOf r = [(s.modId, n)] ∧ n < 16
    s.mgr.sby = 0 →
    (s.takesUp m 4 hseq = true →
      (∀ r, s.reservation ⟨4, hseq.toNat, (List.range 16).map s.arg, 0, 0, [], false⟩ = .ok r → Runs (.sliceReserve m hseq) s fun t =>
        Ended 0 hseq t ∧ t.mgr.resv = s.mgr.resv ++ [r] ∧ only [] t ∧
        (noCoord → near r → kept { s.mgr with resv := s.mgr.resv ++ [r] } t) ∧ r.slice = s.arg 0 ∧ r.chan = s.arg 3 ∧
        r.fences = [] ∧ r.ctx.map Prod.fst = r.members.map Prod.fst ∧
        (∀ k ∈ r.members, manHas s.mgr.manifest k.1 = true ∧ k.2 ≠ 0) ∧
        (∀ y ∈ s.mgr.resv, y.slice ≠ r.slice ∧ (∀ k ∈ r.members, ∀ l ∈ y.members, k.1 = l.1 → l.2 &&& k.2 = 0) ∧
          ∀ e ∈ r.ctx, e.2 < 16 ∧ e ∉ y.ctx) ∧ s.chanSender r.chan = 0 ∧ s.chanRecv r.chan = 2) ∧
      (∀ st, s.reservation ⟨4, hseq.toNat, (List.range 16).map s.arg, 0, 0, [], false⟩ = .error st → Runs (.sliceReserve m hseq) s fun t =>
        Ended st hseq t ∧ quiet t ∧ (st = 1 ∨ st = 3 ∨ st = 5))) ∧
    (s.takesUp m 5 hseq = true →
      (s.resvOf (s.arg 0) = none → Runs (.sliceRelease m hseq) s fun t => Ended 3 hseq t ∧ quiet t) ∧
      (∀ r n, here r n →
        (s.slState n ≠ 0 → Runs (.sliceRelease m hseq) s fun t => Ended 8 hseq t ∧ quiet t) ∧
        (s.slState n = 0 → Runs (.sliceRelease m hseq) s fun t => Ended 0 hseq t ∧ only [] t ∧
          t.mgr.resv = s.mgr.resv.filter (fun y => y.slice ≠ r.slice) ∧
          (noCoord → near r → kept { s.mgr with resv := s.mgr.resv.filter (fun y => y.slice ≠ r.slice) } t)))) ∧
    (s.takesUp m 6 hseq = true →
      (s.resvOf (s.arg 0) = none ∨ s.arg 1 < 1 ∨ 3 < s.arg 1 → Runs (.sliceCmd m hseq) s fun t => Ended 3 hseq t ∧ quiet t) ∧
      (∀ r n T, here r n → 1 ≤ s.arg 1 → s.arg 1 ≤ 3 → T = (if s.arg2 2 = 0 then lead else s.arg2 2) →
        let fits := if s.arg 1 = 2 then 2 ≤ s.slState n ∧ s.slState n ≤ 4 else s.slState n = 5
        (¬ fits → Runs (.sliceCmd m hseq) s fun t => Ended 8 hseq t ∧ quiet t) ∧
        (fits → T < s.step + 16 → Runs (.sliceCmd m hseq) s fun t => Ended 4 hseq t ∧ quiet t) ∧
        (fits → s.step + 16 ≤ T → T < 2 ^ 64 → rsvOk (TCK_SL_CTL.off n) (s.reg (TCK_SL_CTL.off n)) = true →
          Runs (.sliceCmd m hseq) s fun t => Ended 0 hseq t ∧ t.pair (TCK_SL_CMD_AT_LO.off n) = T ∧
            t.fget (TCK_SL_CTL.CMD n) = s.arg 1 ∧ t.flag (TCK_SL_CTL.CMD_ARM n) = true ∧
            t.fget (TCK_SL_CTL.EN n) = s.fget (TCK_SL_CTL.EN n) ∧ kept s.mgr t ∧
            only [TCK_SL_CTL.off n, TCK_SL_CMD_AT_LO.off n, TCK_SL_CMD_AT_HI.off n] t))) ∧
    (s.takesUp m 7 hseq = true →
      (s.resvOf (s.arg 0) = none ∨ 4096 ≤ s.arg 1 ∨ 65536 ≤ s.arg 2 ∨ 1 < s.arg 3 → Runs (.fence m hseq) s fun t =>
        Ended 3 hseq t ∧ quiet t) ∧
      (∀ r n T, here r n → s.arg 1 < 4096 → s.arg 2 < 65536 → s.arg 3 ≤ 1 → T = (if s.arg2 4 = 0 then lead else s.arg2 4) →
        let who := whoWord (s.arg 1) (s.arg 2)
        (T < s.step + 16 → Runs (.fence m hseq) s fun t => Ended 4 hseq t ∧ quiet t) ∧
        (s.step + 16 ≤ T → T < 2 ^ 64 → s.arg 0 < 4096 → s.ctxOf (s.arg 0) = some n → Runs (.fence m hseq) s fun t =>
          Ended 0 hseq t ∧ t.cx n = { s.cx n with
            fenceHeld := (s.cx n).fenceHeld.filter (fun f => !(f.1 = who && f.2.1 = T)), fenceArm := (s.cx n).fenceArm ++ [(who, T, decide (s.arg 3 = 1))] } ∧
          (∀ k, k ≠ n → t.cx k = s.cx k) ∧
          t.mgr.resv = s.mgr.resv.map (fun y =>
            if y.slice = s.arg 0 then { y with fences := setFence y.fences who (s.arg 3 = 1) } else y) ∧
          t.core = s.core ∧ t.mem = s.mem))) ∧
    (s.takesUp m 9 hseq = true →
      (s.resvOf (s.arg 0) = none ∨ 4096 ≤ s.arg 1 ∨ 1 < s.arg 2 → Runs (.treeCfg m hseq) s fun t => Ended 3 hseq t ∧ quiet t) ∧
      (∀ r n, here r n → s.arg 1 < 4096 → s.arg 2 ≤ 1 →
        (s.slState n ≠ 4 → s.slState n ≠ 5 → Runs (.treeCfg m hseq) s fun t => Ended 8 hseq t ∧ quiet t) ∧
        (s.slState n = 4 ∨ s.slState n = 5 → lead < 2 ^ 64 → s.arg 0 < 4096 → s.ctxOf (s.arg 0) = some n →
          Runs (.treeCfg m hseq) s fun t => Ended 0 hseq t ∧
            t.cx n = { s.cx n with treeArm := (s.cx n).treeArm ++ [(s.arg 1, lead, decide (s.arg 2 = 1))] } ∧
            (∀ k, k ≠ n → t.cx k = s.cx k) ∧ only [] t ∧
            t = { s with regs := t.regs, out := t.out, ctx := t.ctx }))) ∧
    (∀ (c : HostCmd) (a : Await), s.mgr.cmds = [c] → s.mgr.awaits = [a] → a.job = 1 → s.mgr.toArm = false → s.mgr.commits = [] →
      c.hseq = hseq.toNat → c.step ≠ 0 → c.step ≤ s.step + 16 →
      (c.code = 6 → c.phase < 2 → Runs .sliceCmdDeadline s fun t => Ended 4 hseq t ∧
        kept { s.mgr with cmds := [], awaits := [] } t ∧ only [] t) ∧
      (∀ r n, c.code = 6 → 2 ≤ c.phase → s.resvOf (c.args.getD 0 0) = some r → s.membersOf r = [(s.modId, n)] → n < 16 →
        s.hubUp = true → rsvOk (TCK_SL_CTL.off n) (BitVec.ofNat 32 (slCtlWord c s.modId 0 0)) = true → Runs .sliceCmdDeadline s fun t =>
          Ended 4 hseq t ∧ t.fget (TCK_SL_CTL.CMD n) = 0 ∧ kept { s.mgr with cmds := [], awaits := [] } t ∧
          only [TCK_SL_CTL.off n] t) ∧
      (∀ r n, c.code = 7 → s.resvOf (c.args.getD 0 0) = some r → s.membersOf r = [(s.modId, n)] → r.slice < 4096 →
        s.ctxOf r.slice = some n → c.step < 2 ^ 64 → Runs .sliceCmdDeadline s fun t => Ended 4 hseq t ∧
          (∀ f ∈ (t.cx n).fenceArm, f ∈ (s.cx n).fenceArm ∧
            ¬ (f.1 = whoWord (c.args.getD 1 0) (c.args.getD 2 0) ∧ f.2.1 = c.step)) ∧ t.mgr.resv = s.mgr.resv) ∧
      (c.code = 8 → c.phase ≠ 3 → Runs .sliceCmdDeadline s fun t => Ended 4 hseq t ∧
        kept { s.mgr with cmds := [], awaits := [] } t ∧ only [] t) ∧
      (c.code = 8 → c.phase = 3 → Runs .sliceCmdDeadline s fun t => Ended 9 hseq t ∧
        kept { s.mgr with cmds := [], awaits := [] } t ∧ only [] t) ∧
      (c.code = 13 → s.peers = [] → Runs .sliceCmdDeadline s fun t => Ended 4 hseq t ∧ t.fab.adaptAt = none ∧ t.core = s.core))

/-- A post to a channel that holds DEPTH messages puts the new message in the place of the newest one, which is lost,
and sets COLLISION; the others stay, no message is added, and FULL stays set. (R424). -/
def Obligations.FullChannelPost : Prop :=
  ∀ (s : State) (m : Master) (c : Fin 256) (v : Word), s.hubUp = true → s.mbxShut m.toNat = false → s.maySend m c.val = true →
    s.inReset (s.chanRecv c.val) = false → (s.mb c.val).head1 = (s.mb c.val).head2 → (s.mb c.val).tail1 = (s.mb c.val).tail2 →
    (s.mb c.val).queue.length = s.chanDepth c.val → Runs (.post m c v) s fun t =>
      (t.mb c.val).queue.length = s.chanDepth c.val ∧ (t.mb c.val).queue.dropLast = (s.mb c.val).queue.dropLast ∧
      (∃ x, (t.mb c.val).queue.getLast? = some x ∧ x.words = (s.mb c.val).stage.set 15 v) ∧
      t.flag (MBX_STAT.COLLISION c.val) = true ∧ (MBX_STAT.FULL c.val).of (s.mbxStat c.val) = 1 ∧
      (MBX_STAT.FULL c.val).of (t.mbxStat c.val) = 1 ∧ (∀ d, d ≠ c.val → t.mb d = s.mb d) ∧ t.core = s.core ∧ t.mem = s.mem

/-- Every register that the start-up has not written holds the value of its Reset column, the period is 5,000 units,
the module is MEMBER with term 0 and no ID, no slice context holds a rigging, every partition's sluice is closed,
ports 0 to 3 are in DETECT and the others OFF, and no firmware runs. (R11, R308, R381). -/
def Obligations.ResetState : Prop :=
  let s := State.reset
  (∀ o, o ∉ [0x0000000, 0x0020008, 0x002000C, 0x0020010, 0x0040004, 0x0100000, 0x0100004, 0x0100008, 0x0101000, 0x0101004, 0x0101008,
      0x0102000, 0x0102004, 0x0102008, 0x0103000, 0x0103004, 0x0103008] → s.reg o = regReset o) ∧
  s.fget TCK_PERIOD.PERIOD = 5000 ∧ s.fget FAB_MGR_STAT.ROLE = 0 ∧ s.fget FAB_TERM.TERM = 0 ∧ s.flag FAB_SELF.VALID = false ∧
  (∀ n, n < 16 → s.slState n = 0 ∧ s.flag (RIG_SL_STAT.ACTIVE n) = false ∧ s.fget (RIG_SL_STAT.SHADOW n) = 0) ∧
  (∀ p, p < 16 → (s.pt p).closed = true) ∧
  (∀ p, p < 16 → s.fget (LNK_STAT.STATE p) = if p < 4 then 1 else 0) ∧ s.fwRuns = false ∧ s.hubUp = true ∧ s.pending = []

/-- A state whose LPDDR5 and register file list their keys in rising order, none of them with the value that an
unlisted key reads as, steps to such a state, whatever command stands at the front of the queue. Two such states that
read alike at every address and at every offset have equal memories and register files. The form is the model's own.
(R7, R143). -/
def Obligations.CanonicalStep : Prop :=
  let canonical (s : State) : Prop := Memory.wf s.mem ∧ Store.wf regReset s.regs = true
  (∀ s t : State, canonical s → Machine.step s = .next t → canonical t) ∧
  (∀ s t : State, canonical s → canonical t → (∀ a, s.memGet a = t.memGet a) → (∀ o, s.reg o = t.reg o) →
    s.mem = t.mem ∧ s.regs = t.regs)

/-- LPDDR5 and the register file of the reset state are in canonical form. (R7, R143). -/
def Obligations.CanonicalReset : Prop :=
  Memory.wf State.reset.mem ∧ Store.wf regReset State.reset.regs = true
end

