-- ==== Sys2Proof/Laws/Digest.lean ====
section
/-! SUPPORT. Slices of byte lists, and the lengths of byte encodings and of SHAKE256's output. -/

namespace Sys2Proof.Machine

@[simp] theorem leBytes_length (n x : Nat) : (leBytes n x).length = n := by
  induction n generalizing x with
  | zero => rfl
  | succ n ih => simp [leBytes, ih]

/-- A slice that lies within the first of two lists. -/
theorem slice_left (x y : List Byte) {o n : Nat} (h : o + n ≤ x.length) : slice (x ++ y) o n = slice x o n := by
  have e : ((x ++ y).drop o).take n = (x.drop o).take n := by
    rw [List.drop_append_of_le_length (by omega), List.take_append_of_le_length (by simp; omega)]
  simp only [slice, e]

/-- A slice that lies beyond the first of two lists. -/
theorem slice_right (x y : List Byte) {o n : Nat} (h : x.length ≤ o) : slice (x ++ y) o n = slice y (o - x.length) n := by
  have e : (x ++ y).drop o = y.drop (o - x.length) := by
    rw [List.drop_append, List.drop_eq_nil_of_le h, List.nil_append]
  simp only [slice, e]

/-- A slice of a whole list. -/
theorem slice_all (x : List Byte) {n : Nat} (h : x.length = n) : slice x 0 n = x := by
  subst h
  simp [slice]

/-- A part of a list is the slice that begins where it begins. -/
theorem slice_mid (x y z : List Byte) {o n : Nat} (h : x.length = o) (k : y.length = n) : slice (x ++ (y ++ z)) o n = y := by
  subst h
  rw [slice_right _ _ (Nat.le_refl _), Nat.sub_self, slice_left _ _ (by omega), slice_all _ k]

theorem giveOut_length (n a : Nat) : (giveOut n a).length = 136 * n := by
  induction n generalizing a with
  | zero => rfl
  | succ n ih => simp only [giveOut, List.length_append, leBytes_length, ih]; omega

/-- SHAKE256 answers as many bytes as it is asked for. -/
theorem shake256_length (n : Nat) (m : List Byte) : (shake256 n m).length = n := by
  have e : n ≤ 136 * ceilDiv n 136 := by unfold ceilDiv; omega
  simp only [shake256, List.length_take, giveOut_length]
  omega

end Sys2Proof.Machine
end

