-- ==== Sys2Proof/Laws/Store.lean ====
section
/-! SUPPORT. Sparse data by key: a read after a write gives the value written, a write leaves every other key alone,
and every operation keeps the canonical form. -/

namespace Sys2Proof.Machine

variable {α : Type}

theorem Store.get_insert_same (d : Nat → α) (l : Store α) (k : Nat) (v : α) :
    Store.get d (Store.insert l k v) k = v := by
  induction l with
  | nil => simp [Store.insert, Store.get]
  | cons e t ih =>
    obtain ⟨a, w⟩ := e
    simp only [Store.insert]
    split_ifs with h₁ h₂ <;> simp_all [Store.get]

theorem Store.get_insert_other (d : Nat → α) (l : Store α) {k j : Nat} (h : j ≠ k) (v : α) :
    Store.get d (Store.insert l k v) j = Store.get d l j := by
  induction l with
  | nil => simp [Store.insert, Store.get, h.symm]
  | cons e t ih =>
    obtain ⟨a, w⟩ := e
    simp only [Store.insert]
    split_ifs with h₁ h₂
    · subst h₁; simp [Store.get, h.symm]
    · simp [Store.get, h.symm]
    · simp [Store.get, ih]

theorem Store.get_erase_other (d : Nat → α) (l : Store α) {k j : Nat} (h : j ≠ k) :
    Store.get d (Store.erase l k) j = Store.get d l j := by
  induction l with
  | nil => rfl
  | cons e t ih =>
    obtain ⟨a, w⟩ := e
    simp only [Store.erase]
    split_ifs with h₁
    · subst h₁; simp [Store.get, h.symm, ih]
    · simp [Store.get, ih]

/-- A write leaves every other key as it was. -/
theorem Store.get_put_other [DecidableEq α] (d : Nat → α) (l : Store α) {k j : Nat} (h : j ≠ k) (v : α) :
    Store.get d (Store.put d l k v) j = Store.get d l j := by
  unfold Store.put
  split_ifs
  · exact Store.get_erase_other d l h
  · exact Store.get_insert_other d l h v

theorem Store.get_erase_same (d : Nat → α) (l : Store α) (k : Nat) : Store.get d (Store.erase l k) k = d k := by
  induction l with
  | nil => rfl
  | cons e t ih =>
    obtain ⟨a, w⟩ := e
    simp only [Store.erase]
    split_ifs with h₁
    · exact ih
    · rw [Store.get, if_neg h₁]; exact ih

/-- A read after a write to the same key gives the value written. -/
theorem Store.get_put_same [DecidableEq α] (d : Nat → α) (l : Store α) (k : Nat) (v : α) :
    Store.get d (Store.put d l k v) k = v := by
  unfold Store.put
  split_ifs with h
  · rw [h]; exact Store.get_erase_same d l k
  · exact Store.get_insert_same d l k v

theorem Store.wfFrom_mono [DecidableEq α] (d : Nat → α) {l : Store α} {lo lo' : Nat} (h : lo' ≤ lo)
    (hl : Store.wfFrom d lo l = true) : Store.wfFrom d lo' l = true := by
  cases l with
  | nil => rfl
  | cons e t =>
    obtain ⟨a, w⟩ := e
    simp only [Store.wfFrom, Bool.and_eq_true, decide_eq_true_eq] at hl ⊢
    exact ⟨⟨by omega, hl.1.2⟩, hl.2⟩

theorem Store.wfFrom_insert [DecidableEq α] (d : Nat → α) {l : Store α} {lo k : Nat} {v : α} (hk : lo ≤ k)
    (hv : v ≠ d k) (hl : Store.wfFrom d lo l = true) : Store.wfFrom d lo (Store.insert l k v) = true := by
  induction l generalizing lo with
  | nil => simp [Store.insert, Store.wfFrom, hk, hv]
  | cons e t ih =>
    obtain ⟨a, w⟩ := e
    simp only [Store.wfFrom, Bool.and_eq_true, decide_eq_true_eq] at hl
    obtain ⟨⟨h₁, h₂⟩, h₃⟩ := hl
    simp only [Store.insert]
    split_ifs with e₁ e₂
    · subst e₁; simp [Store.wfFrom, hk, hv, h₃]
    · simp only [Store.wfFrom, Bool.and_eq_true, decide_eq_true_eq]
      exact ⟨⟨hk, hv⟩, ⟨by omega, h₂⟩, h₃⟩
    · simp only [Store.wfFrom, Bool.and_eq_true, decide_eq_true_eq]
      exact ⟨⟨h₁, h₂⟩, ih (by omega) h₃⟩

theorem Store.wfFrom_erase [DecidableEq α] (d : Nat → α) {l : Store α} {lo : Nat} (k : Nat)
    (hl : Store.wfFrom d lo l = true) : Store.wfFrom d lo (Store.erase l k) = true := by
  induction l generalizing lo with
  | nil => rfl
  | cons e t ih =>
    obtain ⟨a, w⟩ := e
    simp only [Store.wfFrom, Bool.and_eq_true, decide_eq_true_eq] at hl
    obtain ⟨⟨h₁, h₂⟩, h₃⟩ := hl
    simp only [Store.erase]
    split_ifs with e₁
    · exact Store.wfFrom_mono d (by omega) (ih h₃)
    · simp only [Store.wfFrom, Bool.and_eq_true, decide_eq_true_eq]
      exact ⟨⟨h₁, h₂⟩, ih h₃⟩

/-- A write keeps the canonical form. -/
theorem Store.wf_put [DecidableEq α] (d : Nat → α) {l : Store α} (hl : Store.wf d l = true) (k : Nat) (v : α) :
    Store.wf d (Store.put d l k v) = true := by
  unfold Store.put
  split_ifs with h
  · exact Store.wfFrom_erase d k hl
  · exact Store.wfFrom_insert d (Nat.zero_le k) h hl

/-- An update keeps the canonical form. -/
theorem Store.wf_upd [DecidableEq α] (d : Nat → α) {l : Store α} (hl : Store.wf d l = true) (k : Nat) (f : α → α) :
    Store.wf d (Store.upd d l k f) = true := Store.wf_put d hl k _

/-- An update of a key gives the function of its value. -/
theorem Store.get_upd_same [DecidableEq α] (d : Nat → α) (l : Store α) (k : Nat) (f : α → α) :
    Store.get d (Store.upd d l k f) k = f (Store.get d l k) := Store.get_put_same d l k _

/-- An update leaves every other key as it was. -/
theorem Store.get_upd_other [DecidableEq α] (d : Nat → α) (l : Store α) {k j : Nat} (h : j ≠ k) (f : α → α) :
    Store.get d (Store.upd d l k f) j = Store.get d l j := Store.get_put_other d l h _

theorem Store.wfFrom_clear [DecidableEq α] (d : Nat → α) (p : Nat → Bool) {l : Store α} {lo : Nat}
    (hl : Store.wfFrom d lo l = true) : Store.wfFrom d lo (Store.clear p l) = true := by
  induction l generalizing lo with
  | nil => rfl
  | cons e t ih =>
    obtain ⟨a, w⟩ := e
    simp only [Store.wfFrom, Bool.and_eq_true, decide_eq_true_eq] at hl
    obtain ⟨⟨h₁, h₂⟩, h₃⟩ := hl
    have := ih h₃
    unfold Store.clear at this ⊢
    rw [List.filter_cons]
    split_ifs
    · simp only [Store.wfFrom, Bool.and_eq_true, decide_eq_true_eq]
      exact ⟨⟨h₁, h₂⟩, this⟩
    · exact Store.wfFrom_mono d (by omega) this

/-- Clearing keys keeps the canonical form. -/
theorem Store.wf_clear [DecidableEq α] (d : Nat → α) (p : Nat → Bool) {l : Store α} (hl : Store.wf d l = true) :
    Store.wf d (Store.clear p l) = true := Store.wfFrom_clear d p hl

/-- A cleared key reads as an unlisted one; any other as before. -/
theorem Store.get_clear (d : Nat → α) (p : Nat → Bool) (l : Store α) (k : Nat) :
    Store.get d (Store.clear p l) k = if p k then d k else Store.get d l k := by
  induction l with
  | nil => simp [Store.clear, Store.get]
  | cons e t ih =>
    obtain ⟨a, w⟩ := e
    unfold Store.clear at ih ⊢
    rw [List.filter_cons]
    by_cases hp : p a = true
    · simp only [hp, Bool.not_true, Bool.false_eq_true, if_false, ih, Store.get]
      by_cases e : a = k
      · subst e; simp [hp]
      · simp [e]
    · simp only [Bool.not_eq_true] at hp
      simp only [hp, Bool.not_false, if_true, Store.get, ih]
      by_cases e : a = k
      · subst e; simp [hp]
      · simp [e]

end Sys2Proof.Machine
end

