-- ==== Sys2Proof/Laws/Fields.lean ====
section
/-! SUPPORT. Bit fields and registers: what a field reads after a field of the same or of another register has been
written. -/

namespace Sys2Proof.Machine

theorem bits_testBit (x hi lo i : Nat) : (bits x hi lo).testBit i = (decide (i < hi + 1 - lo) && x.testBit (lo + i)) := by
  simp [bits, Nat.testBit_mod_two_pow, Nat.testBit_shiftRight]

theorem bits_lt (x hi lo : Nat) : bits x hi lo < 2 ^ (hi + 1 - lo) := Nat.mod_lt _ (by positivity)

/-- A number is its part above a field, the field, and its part below. -/
theorem bits_split (x hi lo : Nat) :
    x = (x >>> lo / 2 ^ (hi + 1 - lo)) * 2 ^ (hi + 1 - lo) * 2 ^ lo + bits x hi lo * 2 ^ lo + x % 2 ^ lo := by
  have h₁ := Nat.div_add_mod x (2 ^ lo)
  have h₂ := Nat.div_add_mod (x >>> lo) (2 ^ (hi + 1 - lo))
  rw [Nat.shiftRight_eq_div_pow] at *
  unfold bits
  rw [Nat.shiftRight_eq_div_pow, ← Nat.add_mul]
  calc x = 2 ^ lo * (x / 2 ^ lo) + x % 2 ^ lo := h₁.symm
    _ = _ := by rw [Nat.mul_comm (2 ^ lo), Nat.mul_comm _ (2 ^ (hi + 1 - lo)), h₂]

theorem setBits_eq (x hi lo v : Nat) :
    setBits x hi lo v =
      (x >>> lo / 2 ^ (hi + 1 - lo)) * 2 ^ (hi + 1 - lo) * 2 ^ lo + (v % 2 ^ (hi + 1 - lo)) * 2 ^ lo + x % 2 ^ lo := by
  have h := bits_split x hi lo
  simp only [setBits]
  omega

theorem setBits_testBit (x hi lo v i : Nat) :
    (setBits x hi lo v).testBit i =
      if lo ≤ i ∧ i < lo + (hi + 1 - lo) then v.testBit (i - lo) else x.testBit i := by
  rw [setBits_eq]
  generalize hw : hi + 1 - lo = w
  have e : (x >>> lo / 2 ^ w) * 2 ^ w * 2 ^ lo + (v % 2 ^ w) * 2 ^ lo + x % 2 ^ lo =
      2 ^ lo * (2 ^ w * (x >>> lo / 2 ^ w) + v % 2 ^ w) + x % 2 ^ lo := by ring
  rw [e, Nat.testBit_two_pow_mul_add _ (Nat.mod_lt _ (by positivity))]
  by_cases h₁ : i < lo
  · simp [h₁, Nat.testBit_mod_two_pow]
  · rw [if_neg h₁, Nat.testBit_two_pow_mul_add _ (Nat.mod_lt _ (by positivity))]
    by_cases h₂ : i - lo < w
    · rw [if_pos h₂, if_pos ⟨by omega, by omega⟩]; simp [Nat.testBit_mod_two_pow, h₂]
    · rw [if_neg h₂, if_neg (by omega), ← Nat.shiftRight_eq_div_pow, Nat.testBit_shiftRight, Nat.testBit_shiftRight]
      congr 1; omega

/-- A field reads what was written to it. -/
theorem bits_setBits (x hi lo v : Nat) : bits (setBits x hi lo v) hi lo = v % 2 ^ (hi + 1 - lo) := by
  apply Nat.eq_of_testBit_eq; intro i
  rw [bits_testBit, setBits_testBit, Nat.testBit_mod_two_pow]
  by_cases h : i < hi + 1 - lo
  · rw [if_pos ⟨by omega, by omega⟩]; simp [h]
  · simp [h]

/-- A field is not changed by the write of a field below or above it. -/
theorem bits_setBits_other (x hi lo v hi' lo' : Nat) (h : hi' < lo ∨ hi < lo') :
    bits (setBits x hi lo v) hi' lo' = bits x hi' lo' := by
  apply Nat.eq_of_testBit_eq; intro i
  rw [bits_testBit, bits_testBit, setBits_testBit]
  by_cases h' : i < hi' + 1 - lo'
  · rw [if_neg (by omega)]
  · simp [h']

theorem bits_mod (x hi lo : Nat) (h : hi < 32) : bits (x % 2 ^ 32) hi lo = bits x hi lo := by
  apply Nat.eq_of_testBit_eq; intro i
  rw [bits_testBit, bits_testBit, Nat.testBit_mod_two_pow]
  by_cases h' : i < hi + 1 - lo
  · have : lo + i < 32 := by omega
    simp [this]
  · simp [h']

/-- A field of a word reads what was written to it. -/
theorem Fld.of_into (f : Fld) (w : Word) (v : Nat) (h : f.hi < 32) :
    f.of (f.into w v) = v % 2 ^ f.width := by
  simp only [Fld.of, Fld.into, BitVec.toNat_ofNat, Fld.width]
  rw [bits_mod _ _ _ h, bits_setBits]

/-- A field of a word is not changed by the write of a field below or above it. -/
theorem Fld.of_into_other (f g : Fld) (w : Word) (v : Nat) (hg : g.hi < 32) (h : g.hi < f.lo ∨ f.hi < g.lo) :
    g.of (f.into w v) = g.of w := by
  simp only [Fld.of, Fld.into, BitVec.toNat_ofNat]
  rw [bits_mod _ _ _ hg, bits_setBits_other _ _ _ _ _ _ h]

/-! ### Registers -/

@[simp] theorem State.reg_setReg_same (s : State) (o : Nat) (v : Word) : (s.setReg o v).reg o = v :=
  Store.get_put_same _ _ _ _

theorem State.reg_setReg_other (s : State) {o o' : Nat} (h : o' ≠ o) (v : Word) : (s.setReg o v).reg o' = s.reg o' :=
  Store.get_put_other _ _ h _

theorem State.reg_setReg (s : State) (o o' : Nat) (v : Word) :
    (s.setReg o v).reg o' = if o' = o then v else s.reg o' := by
  by_cases h : o' = o
  · subst h; simp
  · rw [if_neg h, State.reg_setReg_other s h]

/-- A field reads what was written to it. -/
theorem State.fget_fset_same (s : State) (f : Fld) (v : Nat) (h : f.hi < 32) :
    (s.fset f v).fget f = v % 2 ^ f.width := by
  simp only [State.fget, State.fset, State.reg_setReg_same, Fld.of_into f _ v h]

/-- A field of another register is as it was. -/
theorem State.fget_fset_reg (s : State) (f g : Fld) (v : Nat) (h : g.reg ≠ f.reg) :
    (s.fset f v).fget g = s.fget g := by
  simp only [State.fget, State.fset, State.reg_setReg_other s h]

/-- Another field of the same register is as it was. -/
theorem State.fget_fset_bits (s : State) (f g : Fld) (v : Nat) (hg : g.hi < 32) (h : g.hi < f.lo ∨ f.hi < g.lo) :
    (s.fset f v).fget g = s.fget g := by
  by_cases e : g.reg = f.reg
  · simp only [State.fget, State.fset, e, State.reg_setReg_same, Fld.of_into_other f g _ v hg h]
  · exact State.fget_fset_reg s f g v e

/-- Another register is as it was. -/
theorem State.reg_fset_other (s : State) (f : Fld) (v : Nat) {o : Nat} (h : o ≠ f.reg) :
    (s.fset f v).reg o = s.reg o := State.reg_setReg_other s h _

@[simp] theorem State.reg_fset_same (s : State) (f : Fld) (v : Nat) :
    (s.fset f v).reg f.reg = f.into (s.reg f.reg) v := State.reg_setReg_same s _ _

/-- The low half of a pair reads the low word, the high half the high word, of what was written. -/
theorem State.pair_setPair (s : State) (lo v : Nat) (h : v < 2 ^ 64) : (s.setPair lo v).pair lo = v := by
  simp only [State.pair, State.setPair, State.reg_setReg, if_true, BitVec.toNat_ofNat]
  rw [if_neg (by omega), BitVec.toNat_ofNat]
  omega

/-- A register outside a pair is as it was. -/
theorem State.reg_setPair_other (s : State) (lo v : Nat) {o : Nat} (h : o ≠ lo) (h' : o ≠ lo + 4) :
    (s.setPair lo v).reg o = s.reg o := by
  simp only [State.setPair, State.reg_setReg, if_neg h, if_neg h']

/-- A write of a register keeps the canonical form of the register file. -/
theorem State.setReg_regs_wf (s : State) (o : Nat) (v : Word) (h : Store.wf regReset s.regs = true) :
    Store.wf regReset (s.setReg o v).regs = true := Store.wf_put _ h _ _

end Sys2Proof.Machine
end

