-- ==== Sys2Proof/Laws/State.lean ====
section
/-! SUPPORT. What each update of the state leaves alone, one lemma for each field, and what it reads back. -/

namespace Sys2Proof.Machine

variable (s : State)

@[simp] theorem State.setReg_pending (o : Nat) (v : Word) : (s.setReg o v).pending = s.pending := rfl
@[simp] theorem State.setReg_now (o : Nat) (v : Word) : (s.setReg o v).now = s.now := rfl
@[simp] theorem State.setReg_draws (o : Nat) (v : Word) : (s.setReg o v).draws = s.draws := rfl
@[simp] theorem State.setReg_out (o : Nat) (v : Word) : (s.setReg o v).out = s.out := rfl
@[simp] theorem State.setReg_fuses (o : Nat) (v : Word) : (s.setReg o v).fuses = s.fuses := rfl
@[simp] theorem State.setReg_priv2 (o : Nat) (v : Word) : (s.setReg o v).priv2 = s.priv2 := rfl
@[simp] theorem State.setReg_snap0 (o : Nat) (v : Word) : (s.setReg o v).snap0 = s.snap0 := rfl
@[simp] theorem State.setReg_snap2 (o : Nat) (v : Word) : (s.setReg o v).snap2 = s.snap2 := rfl
@[simp] theorem State.setReg_tick (o : Nat) (v : Word) : (s.setReg o v).tick = s.tick := rfl
@[simp] theorem State.setReg_ctx (o : Nat) (v : Word) : (s.setReg o v).ctx = s.ctx := rfl
@[simp] theorem State.setReg_core (o : Nat) (v : Word) : (s.setReg o v).core = s.core := rfl
@[simp] theorem State.setReg_clus (o : Nat) (v : Word) : (s.setReg o v).clus = s.clus := rfl
@[simp] theorem State.setReg_eng (o : Nat) (v : Word) : (s.setReg o v).eng = s.eng := rfl
@[simp] theorem State.setReg_chan (o : Nat) (v : Word) : (s.setReg o v).chan = s.chan := rfl
@[simp] theorem State.setReg_part (o : Nat) (v : Word) : (s.setReg o v).part = s.part := rfl
@[simp] theorem State.setReg_rtr (o : Nat) (v : Word) : (s.setReg o v).rtr = s.rtr := rfl
@[simp] theorem State.setReg_port (o : Nat) (v : Word) : (s.setReg o v).port = s.port := rfl
@[simp] theorem State.setReg_mem (o : Nat) (v : Word) : (s.setReg o v).mem = s.mem := rfl
@[simp] theorem State.setReg_memBad (o : Nat) (v : Word) : (s.setReg o v).memBad = s.memBad := rfl
@[simp] theorem State.setReg_fab (o : Nat) (v : Word) : (s.setReg o v).fab = s.fab := rfl
@[simp] theorem State.setReg_mgr (o : Nat) (v : Word) : (s.setReg o v).mgr = s.mgr := rfl
@[simp] theorem State.setReg_flt (o : Nat) (v : Word) : (s.setReg o v).flt = s.flt := rfl
@[simp] theorem State.setReg_evr (o : Nat) (v : Word) : (s.setReg o v).evr = s.evr := rfl
@[simp] theorem State.setReg_sec (o : Nat) (v : Word) : (s.setReg o v).sec = s.sec := rfl
@[simp] theorem State.setReg_nor (o : Nat) (v : Word) : (s.setReg o v).nor = s.nor := rfl
@[simp] theorem State.setReg_att (o : Nat) (v : Word) : (s.setReg o v).att = s.att := rfl
@[simp] theorem State.setReg_mbx (o : Nat) (v : Word) : (s.setReg o v).mbx = s.mbx := rfl
@[simp] theorem State.setReg_pwr (o : Nat) (v : Word) : (s.setReg o v).pwr = s.pwr := rfl
@[simp] theorem State.setReg_rst (o : Nat) (v : Word) : (s.setReg o v).rst = s.rst := rfl
@[simp] theorem State.setReg_host (o : Nat) (v : Word) : (s.setReg o v).host = s.host := rfl
@[simp] theorem State.setReg_smb (o : Nat) (v : Word) : (s.setReg o v).smb = s.smb := rfl
@[simp] theorem State.setReg_pins (o : Nat) (v : Word) : (s.setReg o v).pins = s.pins := rfl

@[simp] theorem State.fset_pending (f : Fld) (v : Nat) : (s.fset f v).pending = s.pending := rfl
@[simp] theorem State.fset_now (f : Fld) (v : Nat) : (s.fset f v).now = s.now := rfl
@[simp] theorem State.fset_draws (f : Fld) (v : Nat) : (s.fset f v).draws = s.draws := rfl
@[simp] theorem State.fset_out (f : Fld) (v : Nat) : (s.fset f v).out = s.out := rfl
@[simp] theorem State.fset_fuses (f : Fld) (v : Nat) : (s.fset f v).fuses = s.fuses := rfl
@[simp] theorem State.fset_priv2 (f : Fld) (v : Nat) : (s.fset f v).priv2 = s.priv2 := rfl
@[simp] theorem State.fset_snap0 (f : Fld) (v : Nat) : (s.fset f v).snap0 = s.snap0 := rfl
@[simp] theorem State.fset_snap2 (f : Fld) (v : Nat) : (s.fset f v).snap2 = s.snap2 := rfl
@[simp] theorem State.fset_tick (f : Fld) (v : Nat) : (s.fset f v).tick = s.tick := rfl
@[simp] theorem State.fset_ctx (f : Fld) (v : Nat) : (s.fset f v).ctx = s.ctx := rfl
@[simp] theorem State.fset_core (f : Fld) (v : Nat) : (s.fset f v).core = s.core := rfl
@[simp] theorem State.fset_clus (f : Fld) (v : Nat) : (s.fset f v).clus = s.clus := rfl
@[simp] theorem State.fset_eng (f : Fld) (v : Nat) : (s.fset f v).eng = s.eng := rfl
@[simp] theorem State.fset_chan (f : Fld) (v : Nat) : (s.fset f v).chan = s.chan := rfl
@[simp] theorem State.fset_part (f : Fld) (v : Nat) : (s.fset f v).part = s.part := rfl
@[simp] theorem State.fset_rtr (f : Fld) (v : Nat) : (s.fset f v).rtr = s.rtr := rfl
@[simp] theorem State.fset_port (f : Fld) (v : Nat) : (s.fset f v).port = s.port := rfl
@[simp] theorem State.fset_mem (f : Fld) (v : Nat) : (s.fset f v).mem = s.mem := rfl
@[simp] theorem State.fset_memBad (f : Fld) (v : Nat) : (s.fset f v).memBad = s.memBad := rfl
@[simp] theorem State.fset_fab (f : Fld) (v : Nat) : (s.fset f v).fab = s.fab := rfl
@[simp] theorem State.fset_mgr (f : Fld) (v : Nat) : (s.fset f v).mgr = s.mgr := rfl
@[simp] theorem State.fset_flt (f : Fld) (v : Nat) : (s.fset f v).flt = s.flt := rfl
@[simp] theorem State.fset_evr (f : Fld) (v : Nat) : (s.fset f v).evr = s.evr := rfl
@[simp] theorem State.fset_sec (f : Fld) (v : Nat) : (s.fset f v).sec = s.sec := rfl
@[simp] theorem State.fset_nor (f : Fld) (v : Nat) : (s.fset f v).nor = s.nor := rfl
@[simp] theorem State.fset_att (f : Fld) (v : Nat) : (s.fset f v).att = s.att := rfl
@[simp] theorem State.fset_mbx (f : Fld) (v : Nat) : (s.fset f v).mbx = s.mbx := rfl
@[simp] theorem State.fset_pwr (f : Fld) (v : Nat) : (s.fset f v).pwr = s.pwr := rfl
@[simp] theorem State.fset_rst (f : Fld) (v : Nat) : (s.fset f v).rst = s.rst := rfl
@[simp] theorem State.fset_host (f : Fld) (v : Nat) : (s.fset f v).host = s.host := rfl
@[simp] theorem State.fset_smb (f : Fld) (v : Nat) : (s.fset f v).smb = s.smb := rfl
@[simp] theorem State.fset_pins (f : Fld) (v : Nat) : (s.fset f v).pins = s.pins := rfl

@[simp] theorem State.fcount_pending (f : Fld) (n : Nat) : (s.fcount f n).pending = s.pending := rfl
@[simp] theorem State.fcount_now (f : Fld) (n : Nat) : (s.fcount f n).now = s.now := rfl
@[simp] theorem State.fcount_draws (f : Fld) (n : Nat) : (s.fcount f n).draws = s.draws := rfl
@[simp] theorem State.fcount_out (f : Fld) (n : Nat) : (s.fcount f n).out = s.out := rfl
@[simp] theorem State.fcount_fuses (f : Fld) (n : Nat) : (s.fcount f n).fuses = s.fuses := rfl
@[simp] theorem State.fcount_priv2 (f : Fld) (n : Nat) : (s.fcount f n).priv2 = s.priv2 := rfl
@[simp] theorem State.fcount_snap0 (f : Fld) (n : Nat) : (s.fcount f n).snap0 = s.snap0 := rfl
@[simp] theorem State.fcount_snap2 (f : Fld) (n : Nat) : (s.fcount f n).snap2 = s.snap2 := rfl
@[simp] theorem State.fcount_tick (f : Fld) (n : Nat) : (s.fcount f n).tick = s.tick := rfl
@[simp] theorem State.fcount_ctx (f : Fld) (n : Nat) : (s.fcount f n).ctx = s.ctx := rfl
@[simp] theorem State.fcount_core (f : Fld) (n : Nat) : (s.fcount f n).core = s.core := rfl
@[simp] theorem State.fcount_clus (f : Fld) (n : Nat) : (s.fcount f n).clus = s.clus := rfl
@[simp] theorem State.fcount_eng (f : Fld) (n : Nat) : (s.fcount f n).eng = s.eng := rfl
@[simp] theorem State.fcount_chan (f : Fld) (n : Nat) : (s.fcount f n).chan = s.chan := rfl
@[simp] theorem State.fcount_part (f : Fld) (n : Nat) : (s.fcount f n).part = s.part := rfl
@[simp] theorem State.fcount_rtr (f : Fld) (n : Nat) : (s.fcount f n).rtr = s.rtr := rfl
@[simp] theorem State.fcount_port (f : Fld) (n : Nat) : (s.fcount f n).port = s.port := rfl
@[simp] theorem State.fcount_mem (f : Fld) (n : Nat) : (s.fcount f n).mem = s.mem := rfl
@[simp] theorem State.fcount_memBad (f : Fld) (n : Nat) : (s.fcount f n).memBad = s.memBad := rfl
@[simp] theorem State.fcount_fab (f : Fld) (n : Nat) : (s.fcount f n).fab = s.fab := rfl
@[simp] theorem State.fcount_mgr (f : Fld) (n : Nat) : (s.fcount f n).mgr = s.mgr := rfl
@[simp] theorem State.fcount_flt (f : Fld) (n : Nat) : (s.fcount f n).flt = s.flt := rfl
@[simp] theorem State.fcount_evr (f : Fld) (n : Nat) : (s.fcount f n).evr = s.evr := rfl
@[simp] theorem State.fcount_sec (f : Fld) (n : Nat) : (s.fcount f n).sec = s.sec := rfl
@[simp] theorem State.fcount_nor (f : Fld) (n : Nat) : (s.fcount f n).nor = s.nor := rfl
@[simp] theorem State.fcount_att (f : Fld) (n : Nat) : (s.fcount f n).att = s.att := rfl
@[simp] theorem State.fcount_mbx (f : Fld) (n : Nat) : (s.fcount f n).mbx = s.mbx := rfl
@[simp] theorem State.fcount_pwr (f : Fld) (n : Nat) : (s.fcount f n).pwr = s.pwr := rfl
@[simp] theorem State.fcount_rst (f : Fld) (n : Nat) : (s.fcount f n).rst = s.rst := rfl
@[simp] theorem State.fcount_host (f : Fld) (n : Nat) : (s.fcount f n).host = s.host := rfl
@[simp] theorem State.fcount_smb (f : Fld) (n : Nat) : (s.fcount f n).smb = s.smb := rfl
@[simp] theorem State.fcount_pins (f : Fld) (n : Nat) : (s.fcount f n).pins = s.pins := rfl

@[simp] theorem State.setPair_pending (o v : Nat) : (s.setPair o v).pending = s.pending := rfl
@[simp] theorem State.setPair_now (o v : Nat) : (s.setPair o v).now = s.now := rfl
@[simp] theorem State.setPair_draws (o v : Nat) : (s.setPair o v).draws = s.draws := rfl
@[simp] theorem State.setPair_out (o v : Nat) : (s.setPair o v).out = s.out := rfl
@[simp] theorem State.setPair_fuses (o v : Nat) : (s.setPair o v).fuses = s.fuses := rfl
@[simp] theorem State.setPair_priv2 (o v : Nat) : (s.setPair o v).priv2 = s.priv2 := rfl
@[simp] theorem State.setPair_snap0 (o v : Nat) : (s.setPair o v).snap0 = s.snap0 := rfl
@[simp] theorem State.setPair_snap2 (o v : Nat) : (s.setPair o v).snap2 = s.snap2 := rfl
@[simp] theorem State.setPair_tick (o v : Nat) : (s.setPair o v).tick = s.tick := rfl
@[simp] theorem State.setPair_ctx (o v : Nat) : (s.setPair o v).ctx = s.ctx := rfl
@[simp] theorem State.setPair_core (o v : Nat) : (s.setPair o v).core = s.core := rfl
@[simp] theorem State.setPair_clus (o v : Nat) : (s.setPair o v).clus = s.clus := rfl
@[simp] theorem State.setPair_eng (o v : Nat) : (s.setPair o v).eng = s.eng := rfl
@[simp] theorem State.setPair_chan (o v : Nat) : (s.setPair o v).chan = s.chan := rfl
@[simp] theorem State.setPair_part (o v : Nat) : (s.setPair o v).part = s.part := rfl
@[simp] theorem State.setPair_rtr (o v : Nat) : (s.setPair o v).rtr = s.rtr := rfl
@[simp] theorem State.setPair_port (o v : Nat) : (s.setPair o v).port = s.port := rfl
@[simp] theorem State.setPair_mem (o v : Nat) : (s.setPair o v).mem = s.mem := rfl
@[simp] theorem State.setPair_memBad (o v : Nat) : (s.setPair o v).memBad = s.memBad := rfl
@[simp] theorem State.setPair_fab (o v : Nat) : (s.setPair o v).fab = s.fab := rfl
@[simp] theorem State.setPair_mgr (o v : Nat) : (s.setPair o v).mgr = s.mgr := rfl
@[simp] theorem State.setPair_flt (o v : Nat) : (s.setPair o v).flt = s.flt := rfl
@[simp] theorem State.setPair_evr (o v : Nat) : (s.setPair o v).evr = s.evr := rfl
@[simp] theorem State.setPair_sec (o v : Nat) : (s.setPair o v).sec = s.sec := rfl
@[simp] theorem State.setPair_nor (o v : Nat) : (s.setPair o v).nor = s.nor := rfl
@[simp] theorem State.setPair_att (o v : Nat) : (s.setPair o v).att = s.att := rfl
@[simp] theorem State.setPair_mbx (o v : Nat) : (s.setPair o v).mbx = s.mbx := rfl
@[simp] theorem State.setPair_pwr (o v : Nat) : (s.setPair o v).pwr = s.pwr := rfl
@[simp] theorem State.setPair_rst (o v : Nat) : (s.setPair o v).rst = s.rst := rfl
@[simp] theorem State.setPair_host (o v : Nat) : (s.setPair o v).host = s.host := rfl
@[simp] theorem State.setPair_smb (o v : Nat) : (s.setPair o v).smb = s.smb := rfl
@[simp] theorem State.setPair_pins (o v : Nat) : (s.setPair o v).pins = s.pins := rfl

@[simp] theorem State.emit_pending (o : Output) : (s.emit o).pending = s.pending := rfl
@[simp] theorem State.emit_now (o : Output) : (s.emit o).now = s.now := rfl
@[simp] theorem State.emit_draws (o : Output) : (s.emit o).draws = s.draws := rfl
@[simp] theorem State.emit_fuses (o : Output) : (s.emit o).fuses = s.fuses := rfl
@[simp] theorem State.emit_regs (o : Output) : (s.emit o).regs = s.regs := rfl
@[simp] theorem State.emit_priv2 (o : Output) : (s.emit o).priv2 = s.priv2 := rfl
@[simp] theorem State.emit_snap0 (o : Output) : (s.emit o).snap0 = s.snap0 := rfl
@[simp] theorem State.emit_snap2 (o : Output) : (s.emit o).snap2 = s.snap2 := rfl
@[simp] theorem State.emit_tick (o : Output) : (s.emit o).tick = s.tick := rfl
@[simp] theorem State.emit_ctx (o : Output) : (s.emit o).ctx = s.ctx := rfl
@[simp] theorem State.emit_core (o : Output) : (s.emit o).core = s.core := rfl
@[simp] theorem State.emit_clus (o : Output) : (s.emit o).clus = s.clus := rfl
@[simp] theorem State.emit_eng (o : Output) : (s.emit o).eng = s.eng := rfl
@[simp] theorem State.emit_chan (o : Output) : (s.emit o).chan = s.chan := rfl
@[simp] theorem State.emit_part (o : Output) : (s.emit o).part = s.part := rfl
@[simp] theorem State.emit_rtr (o : Output) : (s.emit o).rtr = s.rtr := rfl
@[simp] theorem State.emit_port (o : Output) : (s.emit o).port = s.port := rfl
@[simp] theorem State.emit_mem (o : Output) : (s.emit o).mem = s.mem := rfl
@[simp] theorem State.emit_memBad (o : Output) : (s.emit o).memBad = s.memBad := rfl
@[simp] theorem State.emit_fab (o : Output) : (s.emit o).fab = s.fab := rfl
@[simp] theorem State.emit_mgr (o : Output) : (s.emit o).mgr = s.mgr := rfl
@[simp] theorem State.emit_flt (o : Output) : (s.emit o).flt = s.flt := rfl
@[simp] theorem State.emit_evr (o : Output) : (s.emit o).evr = s.evr := rfl
@[simp] theorem State.emit_sec (o : Output) : (s.emit o).sec = s.sec := rfl
@[simp] theorem State.emit_nor (o : Output) : (s.emit o).nor = s.nor := rfl
@[simp] theorem State.emit_att (o : Output) : (s.emit o).att = s.att := rfl
@[simp] theorem State.emit_mbx (o : Output) : (s.emit o).mbx = s.mbx := rfl
@[simp] theorem State.emit_pwr (o : Output) : (s.emit o).pwr = s.pwr := rfl
@[simp] theorem State.emit_rst (o : Output) : (s.emit o).rst = s.rst := rfl
@[simp] theorem State.emit_host (o : Output) : (s.emit o).host = s.host := rfl
@[simp] theorem State.emit_smb (o : Output) : (s.emit o).smb = s.smb := rfl
@[simp] theorem State.emit_pins (o : Output) : (s.emit o).pins = s.pins := rfl

@[simp] theorem State.modCx_pending (n : Nat) (f : CtxSt → CtxSt) : (s.modCx n f).pending = s.pending := rfl
@[simp] theorem State.modCx_now (n : Nat) (f : CtxSt → CtxSt) : (s.modCx n f).now = s.now := rfl
@[simp] theorem State.modCx_draws (n : Nat) (f : CtxSt → CtxSt) : (s.modCx n f).draws = s.draws := rfl
@[simp] theorem State.modCx_out (n : Nat) (f : CtxSt → CtxSt) : (s.modCx n f).out = s.out := rfl
@[simp] theorem State.modCx_fuses (n : Nat) (f : CtxSt → CtxSt) : (s.modCx n f).fuses = s.fuses := rfl
@[simp] theorem State.modCx_regs (n : Nat) (f : CtxSt → CtxSt) : (s.modCx n f).regs = s.regs := rfl
@[simp] theorem State.modCx_priv2 (n : Nat) (f : CtxSt → CtxSt) : (s.modCx n f).priv2 = s.priv2 := rfl
@[simp] theorem State.modCx_snap0 (n : Nat) (f : CtxSt → CtxSt) : (s.modCx n f).snap0 = s.snap0 := rfl
@[simp] theorem State.modCx_snap2 (n : Nat) (f : CtxSt → CtxSt) : (s.modCx n f).snap2 = s.snap2 := rfl
@[simp] theorem State.modCx_tick (n : Nat) (f : CtxSt → CtxSt) : (s.modCx n f).tick = s.tick := rfl
@[simp] theorem State.modCx_core (n : Nat) (f : CtxSt → CtxSt) : (s.modCx n f).core = s.core := rfl
@[simp] theorem State.modCx_clus (n : Nat) (f : CtxSt → CtxSt) : (s.modCx n f).clus = s.clus := rfl
@[simp] theorem State.modCx_eng (n : Nat) (f : CtxSt → CtxSt) : (s.modCx n f).eng = s.eng := rfl
@[simp] theorem State.modCx_chan (n : Nat) (f : CtxSt → CtxSt) : (s.modCx n f).chan = s.chan := rfl
@[simp] theorem State.modCx_part (n : Nat) (f : CtxSt → CtxSt) : (s.modCx n f).part = s.part := rfl
@[simp] theorem State.modCx_rtr (n : Nat) (f : CtxSt → CtxSt) : (s.modCx n f).rtr = s.rtr := rfl
@[simp] theorem State.modCx_port (n : Nat) (f : CtxSt → CtxSt) : (s.modCx n f).port = s.port := rfl
@[simp] theorem State.modCx_mem (n : Nat) (f : CtxSt → CtxSt) : (s.modCx n f).mem = s.mem := rfl
@[simp] theorem State.modCx_memBad (n : Nat) (f : CtxSt → CtxSt) : (s.modCx n f).memBad = s.memBad := rfl
@[simp] theorem State.modCx_fab (n : Nat) (f : CtxSt → CtxSt) : (s.modCx n f).fab = s.fab := rfl
@[simp] theorem State.modCx_mgr (n : Nat) (f : CtxSt → CtxSt) : (s.modCx n f).mgr = s.mgr := rfl
@[simp] theorem State.modCx_flt (n : Nat) (f : CtxSt → CtxSt) : (s.modCx n f).flt = s.flt := rfl
@[simp] theorem State.modCx_evr (n : Nat) (f : CtxSt → CtxSt) : (s.modCx n f).evr = s.evr := rfl
@[simp] theorem State.modCx_sec (n : Nat) (f : CtxSt → CtxSt) : (s.modCx n f).sec = s.sec := rfl
@[simp] theorem State.modCx_nor (n : Nat) (f : CtxSt → CtxSt) : (s.modCx n f).nor = s.nor := rfl
@[simp] theorem State.modCx_att (n : Nat) (f : CtxSt → CtxSt) : (s.modCx n f).att = s.att := rfl
@[simp] theorem State.modCx_mbx (n : Nat) (f : CtxSt → CtxSt) : (s.modCx n f).mbx = s.mbx := rfl
@[simp] theorem State.modCx_pwr (n : Nat) (f : CtxSt → CtxSt) : (s.modCx n f).pwr = s.pwr := rfl
@[simp] theorem State.modCx_rst (n : Nat) (f : CtxSt → CtxSt) : (s.modCx n f).rst = s.rst := rfl
@[simp] theorem State.modCx_host (n : Nat) (f : CtxSt → CtxSt) : (s.modCx n f).host = s.host := rfl
@[simp] theorem State.modCx_smb (n : Nat) (f : CtxSt → CtxSt) : (s.modCx n f).smb = s.smb := rfl
@[simp] theorem State.modCx_pins (n : Nat) (f : CtxSt → CtxSt) : (s.modCx n f).pins = s.pins := rfl

@[simp] theorem State.modCo_pending (n : Nat) (f : CoreSt → CoreSt) : (s.modCo n f).pending = s.pending := rfl
@[simp] theorem State.modCo_now (n : Nat) (f : CoreSt → CoreSt) : (s.modCo n f).now = s.now := rfl
@[simp] theorem State.modCo_draws (n : Nat) (f : CoreSt → CoreSt) : (s.modCo n f).draws = s.draws := rfl
@[simp] theorem State.modCo_out (n : Nat) (f : CoreSt → CoreSt) : (s.modCo n f).out = s.out := rfl
@[simp] theorem State.modCo_fuses (n : Nat) (f : CoreSt → CoreSt) : (s.modCo n f).fuses = s.fuses := rfl
@[simp] theorem State.modCo_regs (n : Nat) (f : CoreSt → CoreSt) : (s.modCo n f).regs = s.regs := rfl
@[simp] theorem State.modCo_priv2 (n : Nat) (f : CoreSt → CoreSt) : (s.modCo n f).priv2 = s.priv2 := rfl
@[simp] theorem State.modCo_snap0 (n : Nat) (f : CoreSt → CoreSt) : (s.modCo n f).snap0 = s.snap0 := rfl
@[simp] theorem State.modCo_snap2 (n : Nat) (f : CoreSt → CoreSt) : (s.modCo n f).snap2 = s.snap2 := rfl
@[simp] theorem State.modCo_tick (n : Nat) (f : CoreSt → CoreSt) : (s.modCo n f).tick = s.tick := rfl
@[simp] theorem State.modCo_ctx (n : Nat) (f : CoreSt → CoreSt) : (s.modCo n f).ctx = s.ctx := rfl
@[simp] theorem State.modCo_clus (n : Nat) (f : CoreSt → CoreSt) : (s.modCo n f).clus = s.clus := rfl
@[simp] theorem State.modCo_eng (n : Nat) (f : CoreSt → CoreSt) : (s.modCo n f).eng = s.eng := rfl
@[simp] theorem State.modCo_chan (n : Nat) (f : CoreSt → CoreSt) : (s.modCo n f).chan = s.chan := rfl
@[simp] theorem State.modCo_part (n : Nat) (f : CoreSt → CoreSt) : (s.modCo n f).part = s.part := rfl
@[simp] theorem State.modCo_rtr (n : Nat) (f : CoreSt → CoreSt) : (s.modCo n f).rtr = s.rtr := rfl
@[simp] theorem State.modCo_port (n : Nat) (f : CoreSt → CoreSt) : (s.modCo n f).port = s.port := rfl
@[simp] theorem State.modCo_mem (n : Nat) (f : CoreSt → CoreSt) : (s.modCo n f).mem = s.mem := rfl
@[simp] theorem State.modCo_memBad (n : Nat) (f : CoreSt → CoreSt) : (s.modCo n f).memBad = s.memBad := rfl
@[simp] theorem State.modCo_fab (n : Nat) (f : CoreSt → CoreSt) : (s.modCo n f).fab = s.fab := rfl
@[simp] theorem State.modCo_mgr (n : Nat) (f : CoreSt → CoreSt) : (s.modCo n f).mgr = s.mgr := rfl
@[simp] theorem State.modCo_flt (n : Nat) (f : CoreSt → CoreSt) : (s.modCo n f).flt = s.flt := rfl
@[simp] theorem State.modCo_evr (n : Nat) (f : CoreSt → CoreSt) : (s.modCo n f).evr = s.evr := rfl
@[simp] theorem State.modCo_sec (n : Nat) (f : CoreSt → CoreSt) : (s.modCo n f).sec = s.sec := rfl
@[simp] theorem State.modCo_nor (n : Nat) (f : CoreSt → CoreSt) : (s.modCo n f).nor = s.nor := rfl
@[simp] theorem State.modCo_att (n : Nat) (f : CoreSt → CoreSt) : (s.modCo n f).att = s.att := rfl
@[simp] theorem State.modCo_mbx (n : Nat) (f : CoreSt → CoreSt) : (s.modCo n f).mbx = s.mbx := rfl
@[simp] theorem State.modCo_pwr (n : Nat) (f : CoreSt → CoreSt) : (s.modCo n f).pwr = s.pwr := rfl
@[simp] theorem State.modCo_rst (n : Nat) (f : CoreSt → CoreSt) : (s.modCo n f).rst = s.rst := rfl
@[simp] theorem State.modCo_host (n : Nat) (f : CoreSt → CoreSt) : (s.modCo n f).host = s.host := rfl
@[simp] theorem State.modCo_smb (n : Nat) (f : CoreSt → CoreSt) : (s.modCo n f).smb = s.smb := rfl
@[simp] theorem State.modCo_pins (n : Nat) (f : CoreSt → CoreSt) : (s.modCo n f).pins = s.pins := rfl

@[simp] theorem State.modCl_pending (n : Nat) (f : ClusSt → ClusSt) : (s.modCl n f).pending = s.pending := rfl
@[simp] theorem State.modCl_now (n : Nat) (f : ClusSt → ClusSt) : (s.modCl n f).now = s.now := rfl
@[simp] theorem State.modCl_draws (n : Nat) (f : ClusSt → ClusSt) : (s.modCl n f).draws = s.draws := rfl
@[simp] theorem State.modCl_out (n : Nat) (f : ClusSt → ClusSt) : (s.modCl n f).out = s.out := rfl
@[simp] theorem State.modCl_fuses (n : Nat) (f : ClusSt → ClusSt) : (s.modCl n f).fuses = s.fuses := rfl
@[simp] theorem State.modCl_regs (n : Nat) (f : ClusSt → ClusSt) : (s.modCl n f).regs = s.regs := rfl
@[simp] theorem State.modCl_priv2 (n : Nat) (f : ClusSt → ClusSt) : (s.modCl n f).priv2 = s.priv2 := rfl
@[simp] theorem State.modCl_snap0 (n : Nat) (f : ClusSt → ClusSt) : (s.modCl n f).snap0 = s.snap0 := rfl
@[simp] theorem State.modCl_snap2 (n : Nat) (f : ClusSt → ClusSt) : (s.modCl n f).snap2 = s.snap2 := rfl
@[simp] theorem State.modCl_tick (n : Nat) (f : ClusSt → ClusSt) : (s.modCl n f).tick = s.tick := rfl
@[simp] theorem State.modCl_ctx (n : Nat) (f : ClusSt → ClusSt) : (s.modCl n f).ctx = s.ctx := rfl
@[simp] theorem State.modCl_core (n : Nat) (f : ClusSt → ClusSt) : (s.modCl n f).core = s.core := rfl
@[simp] theorem State.modCl_eng (n : Nat) (f : ClusSt → ClusSt) : (s.modCl n f).eng = s.eng := rfl
@[simp] theorem State.modCl_chan (n : Nat) (f : ClusSt → ClusSt) : (s.modCl n f).chan = s.chan := rfl
@[simp] theorem State.modCl_part (n : Nat) (f : ClusSt → ClusSt) : (s.modCl n f).part = s.part := rfl
@[simp] theorem State.modCl_rtr (n : Nat) (f : ClusSt → ClusSt) : (s.modCl n f).rtr = s.rtr := rfl
@[simp] theorem State.modCl_port (n : Nat) (f : ClusSt → ClusSt) : (s.modCl n f).port = s.port := rfl
@[simp] theorem State.modCl_mem (n : Nat) (f : ClusSt → ClusSt) : (s.modCl n f).mem = s.mem := rfl
@[simp] theorem State.modCl_memBad (n : Nat) (f : ClusSt → ClusSt) : (s.modCl n f).memBad = s.memBad := rfl
@[simp] theorem State.modCl_fab (n : Nat) (f : ClusSt → ClusSt) : (s.modCl n f).fab = s.fab := rfl
@[simp] theorem State.modCl_mgr (n : Nat) (f : ClusSt → ClusSt) : (s.modCl n f).mgr = s.mgr := rfl
@[simp] theorem State.modCl_flt (n : Nat) (f : ClusSt → ClusSt) : (s.modCl n f).flt = s.flt := rfl
@[simp] theorem State.modCl_evr (n : Nat) (f : ClusSt → ClusSt) : (s.modCl n f).evr = s.evr := rfl
@[simp] theorem State.modCl_sec (n : Nat) (f : ClusSt → ClusSt) : (s.modCl n f).sec = s.sec := rfl
@[simp] theorem State.modCl_nor (n : Nat) (f : ClusSt → ClusSt) : (s.modCl n f).nor = s.nor := rfl
@[simp] theorem State.modCl_att (n : Nat) (f : ClusSt → ClusSt) : (s.modCl n f).att = s.att := rfl
@[simp] theorem State.modCl_mbx (n : Nat) (f : ClusSt → ClusSt) : (s.modCl n f).mbx = s.mbx := rfl
@[simp] theorem State.modCl_pwr (n : Nat) (f : ClusSt → ClusSt) : (s.modCl n f).pwr = s.pwr := rfl
@[simp] theorem State.modCl_rst (n : Nat) (f : ClusSt → ClusSt) : (s.modCl n f).rst = s.rst := rfl
@[simp] theorem State.modCl_host (n : Nat) (f : ClusSt → ClusSt) : (s.modCl n f).host = s.host := rfl
@[simp] theorem State.modCl_smb (n : Nat) (f : ClusSt → ClusSt) : (s.modCl n f).smb = s.smb := rfl
@[simp] theorem State.modCl_pins (n : Nat) (f : ClusSt → ClusSt) : (s.modCl n f).pins = s.pins := rfl

@[simp] theorem State.modTree_pending (k r : Nat) (f : TreeSt → TreeSt) : (s.modTree k r f).pending = s.pending := rfl
@[simp] theorem State.modTree_now (k r : Nat) (f : TreeSt → TreeSt) : (s.modTree k r f).now = s.now := rfl
@[simp] theorem State.modTree_draws (k r : Nat) (f : TreeSt → TreeSt) : (s.modTree k r f).draws = s.draws := rfl
@[simp] theorem State.modTree_out (k r : Nat) (f : TreeSt → TreeSt) : (s.modTree k r f).out = s.out := rfl
@[simp] theorem State.modTree_fuses (k r : Nat) (f : TreeSt → TreeSt) : (s.modTree k r f).fuses = s.fuses := rfl
@[simp] theorem State.modTree_regs (k r : Nat) (f : TreeSt → TreeSt) : (s.modTree k r f).regs = s.regs := rfl
@[simp] theorem State.modTree_priv2 (k r : Nat) (f : TreeSt → TreeSt) : (s.modTree k r f).priv2 = s.priv2 := rfl
@[simp] theorem State.modTree_snap0 (k r : Nat) (f : TreeSt → TreeSt) : (s.modTree k r f).snap0 = s.snap0 := rfl
@[simp] theorem State.modTree_snap2 (k r : Nat) (f : TreeSt → TreeSt) : (s.modTree k r f).snap2 = s.snap2 := rfl
@[simp] theorem State.modTree_tick (k r : Nat) (f : TreeSt → TreeSt) : (s.modTree k r f).tick = s.tick := rfl
@[simp] theorem State.modTree_ctx (k r : Nat) (f : TreeSt → TreeSt) : (s.modTree k r f).ctx = s.ctx := rfl
@[simp] theorem State.modTree_core (k r : Nat) (f : TreeSt → TreeSt) : (s.modTree k r f).core = s.core := rfl
@[simp] theorem State.modTree_eng (k r : Nat) (f : TreeSt → TreeSt) : (s.modTree k r f).eng = s.eng := rfl
@[simp] theorem State.modTree_chan (k r : Nat) (f : TreeSt → TreeSt) : (s.modTree k r f).chan = s.chan := rfl
@[simp] theorem State.modTree_part (k r : Nat) (f : TreeSt → TreeSt) : (s.modTree k r f).part = s.part := rfl
@[simp] theorem State.modTree_rtr (k r : Nat) (f : TreeSt → TreeSt) : (s.modTree k r f).rtr = s.rtr := rfl
@[simp] theorem State.modTree_port (k r : Nat) (f : TreeSt → TreeSt) : (s.modTree k r f).port = s.port := rfl
@[simp] theorem State.modTree_mem (k r : Nat) (f : TreeSt → TreeSt) : (s.modTree k r f).mem = s.mem := rfl
@[simp] theorem State.modTree_memBad (k r : Nat) (f : TreeSt → TreeSt) : (s.modTree k r f).memBad = s.memBad := rfl
@[simp] theorem State.modTree_fab (k r : Nat) (f : TreeSt → TreeSt) : (s.modTree k r f).fab = s.fab := rfl
@[simp] theorem State.modTree_mgr (k r : Nat) (f : TreeSt → TreeSt) : (s.modTree k r f).mgr = s.mgr := rfl
@[simp] theorem State.modTree_flt (k r : Nat) (f : TreeSt → TreeSt) : (s.modTree k r f).flt = s.flt := rfl
@[simp] theorem State.modTree_evr (k r : Nat) (f : TreeSt → TreeSt) : (s.modTree k r f).evr = s.evr := rfl
@[simp] theorem State.modTree_sec (k r : Nat) (f : TreeSt → TreeSt) : (s.modTree k r f).sec = s.sec := rfl
@[simp] theorem State.modTree_nor (k r : Nat) (f : TreeSt → TreeSt) : (s.modTree k r f).nor = s.nor := rfl
@[simp] theorem State.modTree_att (k r : Nat) (f : TreeSt → TreeSt) : (s.modTree k r f).att = s.att := rfl
@[simp] theorem State.modTree_mbx (k r : Nat) (f : TreeSt → TreeSt) : (s.modTree k r f).mbx = s.mbx := rfl
@[simp] theorem State.modTree_pwr (k r : Nat) (f : TreeSt → TreeSt) : (s.modTree k r f).pwr = s.pwr := rfl
@[simp] theorem State.modTree_rst (k r : Nat) (f : TreeSt → TreeSt) : (s.modTree k r f).rst = s.rst := rfl
@[simp] theorem State.modTree_host (k r : Nat) (f : TreeSt → TreeSt) : (s.modTree k r f).host = s.host := rfl
@[simp] theorem State.modTree_smb (k r : Nat) (f : TreeSt → TreeSt) : (s.modTree k r f).smb = s.smb := rfl
@[simp] theorem State.modTree_pins (k r : Nat) (f : TreeSt → TreeSt) : (s.modTree k r f).pins = s.pins := rfl

@[simp] theorem State.modEn_pending (n : Nat) (f : EngSt → EngSt) : (s.modEn n f).pending = s.pending := rfl
@[simp] theorem State.modEn_now (n : Nat) (f : EngSt → EngSt) : (s.modEn n f).now = s.now := rfl
@[simp] theorem State.modEn_draws (n : Nat) (f : EngSt → EngSt) : (s.modEn n f).draws = s.draws := rfl
@[simp] theorem State.modEn_out (n : Nat) (f : EngSt → EngSt) : (s.modEn n f).out = s.out := rfl
@[simp] theorem State.modEn_fuses (n : Nat) (f : EngSt → EngSt) : (s.modEn n f).fuses = s.fuses := rfl
@[simp] theorem State.modEn_regs (n : Nat) (f : EngSt → EngSt) : (s.modEn n f).regs = s.regs := rfl
@[simp] theorem State.modEn_priv2 (n : Nat) (f : EngSt → EngSt) : (s.modEn n f).priv2 = s.priv2 := rfl
@[simp] theorem State.modEn_snap0 (n : Nat) (f : EngSt → EngSt) : (s.modEn n f).snap0 = s.snap0 := rfl
@[simp] theorem State.modEn_snap2 (n : Nat) (f : EngSt → EngSt) : (s.modEn n f).snap2 = s.snap2 := rfl
@[simp] theorem State.modEn_tick (n : Nat) (f : EngSt → EngSt) : (s.modEn n f).tick = s.tick := rfl
@[simp] theorem State.modEn_ctx (n : Nat) (f : EngSt → EngSt) : (s.modEn n f).ctx = s.ctx := rfl
@[simp] theorem State.modEn_core (n : Nat) (f : EngSt → EngSt) : (s.modEn n f).core = s.core := rfl
@[simp] theorem State.modEn_clus (n : Nat) (f : EngSt → EngSt) : (s.modEn n f).clus = s.clus := rfl
@[simp] theorem State.modEn_chan (n : Nat) (f : EngSt → EngSt) : (s.modEn n f).chan = s.chan := rfl
@[simp] theorem State.modEn_part (n : Nat) (f : EngSt → EngSt) : (s.modEn n f).part = s.part := rfl
@[simp] theorem State.modEn_rtr (n : Nat) (f : EngSt → EngSt) : (s.modEn n f).rtr = s.rtr := rfl
@[simp] theorem State.modEn_port (n : Nat) (f : EngSt → EngSt) : (s.modEn n f).port = s.port := rfl
@[simp] theorem State.modEn_mem (n : Nat) (f : EngSt → EngSt) : (s.modEn n f).mem = s.mem := rfl
@[simp] theorem State.modEn_memBad (n : Nat) (f : EngSt → EngSt) : (s.modEn n f).memBad = s.memBad := rfl
@[simp] theorem State.modEn_fab (n : Nat) (f : EngSt → EngSt) : (s.modEn n f).fab = s.fab := rfl
@[simp] theorem State.modEn_mgr (n : Nat) (f : EngSt → EngSt) : (s.modEn n f).mgr = s.mgr := rfl
@[simp] theorem State.modEn_flt (n : Nat) (f : EngSt → EngSt) : (s.modEn n f).flt = s.flt := rfl
@[simp] theorem State.modEn_evr (n : Nat) (f : EngSt → EngSt) : (s.modEn n f).evr = s.evr := rfl
@[simp] theorem State.modEn_sec (n : Nat) (f : EngSt → EngSt) : (s.modEn n f).sec = s.sec := rfl
@[simp] theorem State.modEn_nor (n : Nat) (f : EngSt → EngSt) : (s.modEn n f).nor = s.nor := rfl
@[simp] theorem State.modEn_att (n : Nat) (f : EngSt → EngSt) : (s.modEn n f).att = s.att := rfl
@[simp] theorem State.modEn_mbx (n : Nat) (f : EngSt → EngSt) : (s.modEn n f).mbx = s.mbx := rfl
@[simp] theorem State.modEn_pwr (n : Nat) (f : EngSt → EngSt) : (s.modEn n f).pwr = s.pwr := rfl
@[simp] theorem State.modEn_rst (n : Nat) (f : EngSt → EngSt) : (s.modEn n f).rst = s.rst := rfl
@[simp] theorem State.modEn_host (n : Nat) (f : EngSt → EngSt) : (s.modEn n f).host = s.host := rfl
@[simp] theorem State.modEn_smb (n : Nat) (f : EngSt → EngSt) : (s.modEn n f).smb = s.smb := rfl
@[simp] theorem State.modEn_pins (n : Nat) (f : EngSt → EngSt) : (s.modEn n f).pins = s.pins := rfl

@[simp] theorem State.modCh_pending (n : Nat) (f : ChanSt → ChanSt) : (s.modCh n f).pending = s.pending := rfl
@[simp] theorem State.modCh_now (n : Nat) (f : ChanSt → ChanSt) : (s.modCh n f).now = s.now := rfl
@[simp] theorem State.modCh_draws (n : Nat) (f : ChanSt → ChanSt) : (s.modCh n f).draws = s.draws := rfl
@[simp] theorem State.modCh_out (n : Nat) (f : ChanSt → ChanSt) : (s.modCh n f).out = s.out := rfl
@[simp] theorem State.modCh_fuses (n : Nat) (f : ChanSt → ChanSt) : (s.modCh n f).fuses = s.fuses := rfl
@[simp] theorem State.modCh_regs (n : Nat) (f : ChanSt → ChanSt) : (s.modCh n f).regs = s.regs := rfl
@[simp] theorem State.modCh_priv2 (n : Nat) (f : ChanSt → ChanSt) : (s.modCh n f).priv2 = s.priv2 := rfl
@[simp] theorem State.modCh_snap0 (n : Nat) (f : ChanSt → ChanSt) : (s.modCh n f).snap0 = s.snap0 := rfl
@[simp] theorem State.modCh_snap2 (n : Nat) (f : ChanSt → ChanSt) : (s.modCh n f).snap2 = s.snap2 := rfl
@[simp] theorem State.modCh_tick (n : Nat) (f : ChanSt → ChanSt) : (s.modCh n f).tick = s.tick := rfl
@[simp] theorem State.modCh_ctx (n : Nat) (f : ChanSt → ChanSt) : (s.modCh n f).ctx = s.ctx := rfl
@[simp] theorem State.modCh_core (n : Nat) (f : ChanSt → ChanSt) : (s.modCh n f).core = s.core := rfl
@[simp] theorem State.modCh_clus (n : Nat) (f : ChanSt → ChanSt) : (s.modCh n f).clus = s.clus := rfl
@[simp] theorem State.modCh_eng (n : Nat) (f : ChanSt → ChanSt) : (s.modCh n f).eng = s.eng := rfl
@[simp] theorem State.modCh_part (n : Nat) (f : ChanSt → ChanSt) : (s.modCh n f).part = s.part := rfl
@[simp] theorem State.modCh_rtr (n : Nat) (f : ChanSt → ChanSt) : (s.modCh n f).rtr = s.rtr := rfl
@[simp] theorem State.modCh_port (n : Nat) (f : ChanSt → ChanSt) : (s.modCh n f).port = s.port := rfl
@[simp] theorem State.modCh_mem (n : Nat) (f : ChanSt → ChanSt) : (s.modCh n f).mem = s.mem := rfl
@[simp] theorem State.modCh_memBad (n : Nat) (f : ChanSt → ChanSt) : (s.modCh n f).memBad = s.memBad := rfl
@[simp] theorem State.modCh_fab (n : Nat) (f : ChanSt → ChanSt) : (s.modCh n f).fab = s.fab := rfl
@[simp] theorem State.modCh_mgr (n : Nat) (f : ChanSt → ChanSt) : (s.modCh n f).mgr = s.mgr := rfl
@[simp] theorem State.modCh_flt (n : Nat) (f : ChanSt → ChanSt) : (s.modCh n f).flt = s.flt := rfl
@[simp] theorem State.modCh_evr (n : Nat) (f : ChanSt → ChanSt) : (s.modCh n f).evr = s.evr := rfl
@[simp] theorem State.modCh_sec (n : Nat) (f : ChanSt → ChanSt) : (s.modCh n f).sec = s.sec := rfl
@[simp] theorem State.modCh_nor (n : Nat) (f : ChanSt → ChanSt) : (s.modCh n f).nor = s.nor := rfl
@[simp] theorem State.modCh_att (n : Nat) (f : ChanSt → ChanSt) : (s.modCh n f).att = s.att := rfl
@[simp] theorem State.modCh_mbx (n : Nat) (f : ChanSt → ChanSt) : (s.modCh n f).mbx = s.mbx := rfl
@[simp] theorem State.modCh_pwr (n : Nat) (f : ChanSt → ChanSt) : (s.modCh n f).pwr = s.pwr := rfl
@[simp] theorem State.modCh_rst (n : Nat) (f : ChanSt → ChanSt) : (s.modCh n f).rst = s.rst := rfl
@[simp] theorem State.modCh_host (n : Nat) (f : ChanSt → ChanSt) : (s.modCh n f).host = s.host := rfl
@[simp] theorem State.modCh_smb (n : Nat) (f : ChanSt → ChanSt) : (s.modCh n f).smb = s.smb := rfl
@[simp] theorem State.modCh_pins (n : Nat) (f : ChanSt → ChanSt) : (s.modCh n f).pins = s.pins := rfl

@[simp] theorem State.modPt_pending (n : Nat) (f : PartSt → PartSt) : (s.modPt n f).pending = s.pending := rfl
@[simp] theorem State.modPt_now (n : Nat) (f : PartSt → PartSt) : (s.modPt n f).now = s.now := rfl
@[simp] theorem State.modPt_draws (n : Nat) (f : PartSt → PartSt) : (s.modPt n f).draws = s.draws := rfl
@[simp] theorem State.modPt_out (n : Nat) (f : PartSt → PartSt) : (s.modPt n f).out = s.out := rfl
@[simp] theorem State.modPt_fuses (n : Nat) (f : PartSt → PartSt) : (s.modPt n f).fuses = s.fuses := rfl
@[simp] theorem State.modPt_regs (n : Nat) (f : PartSt → PartSt) : (s.modPt n f).regs = s.regs := rfl
@[simp] theorem State.modPt_priv2 (n : Nat) (f : PartSt → PartSt) : (s.modPt n f).priv2 = s.priv2 := rfl
@[simp] theorem State.modPt_snap0 (n : Nat) (f : PartSt → PartSt) : (s.modPt n f).snap0 = s.snap0 := rfl
@[simp] theorem State.modPt_snap2 (n : Nat) (f : PartSt → PartSt) : (s.modPt n f).snap2 = s.snap2 := rfl
@[simp] theorem State.modPt_tick (n : Nat) (f : PartSt → PartSt) : (s.modPt n f).tick = s.tick := rfl
@[simp] theorem State.modPt_ctx (n : Nat) (f : PartSt → PartSt) : (s.modPt n f).ctx = s.ctx := rfl
@[simp] theorem State.modPt_core (n : Nat) (f : PartSt → PartSt) : (s.modPt n f).core = s.core := rfl
@[simp] theorem State.modPt_clus (n : Nat) (f : PartSt → PartSt) : (s.modPt n f).clus = s.clus := rfl
@[simp] theorem State.modPt_eng (n : Nat) (f : PartSt → PartSt) : (s.modPt n f).eng = s.eng := rfl
@[simp] theorem State.modPt_chan (n : Nat) (f : PartSt → PartSt) : (s.modPt n f).chan = s.chan := rfl
@[simp] theorem State.modPt_rtr (n : Nat) (f : PartSt → PartSt) : (s.modPt n f).rtr = s.rtr := rfl
@[simp] theorem State.modPt_port (n : Nat) (f : PartSt → PartSt) : (s.modPt n f).port = s.port := rfl
@[simp] theorem State.modPt_mem (n : Nat) (f : PartSt → PartSt) : (s.modPt n f).mem = s.mem := rfl
@[simp] theorem State.modPt_memBad (n : Nat) (f : PartSt → PartSt) : (s.modPt n f).memBad = s.memBad := rfl
@[simp] theorem State.modPt_fab (n : Nat) (f : PartSt → PartSt) : (s.modPt n f).fab = s.fab := rfl
@[simp] theorem State.modPt_mgr (n : Nat) (f : PartSt → PartSt) : (s.modPt n f).mgr = s.mgr := rfl
@[simp] theorem State.modPt_flt (n : Nat) (f : PartSt → PartSt) : (s.modPt n f).flt = s.flt := rfl
@[simp] theorem State.modPt_evr (n : Nat) (f : PartSt → PartSt) : (s.modPt n f).evr = s.evr := rfl
@[simp] theorem State.modPt_sec (n : Nat) (f : PartSt → PartSt) : (s.modPt n f).sec = s.sec := rfl
@[simp] theorem State.modPt_nor (n : Nat) (f : PartSt → PartSt) : (s.modPt n f).nor = s.nor := rfl
@[simp] theorem State.modPt_att (n : Nat) (f : PartSt → PartSt) : (s.modPt n f).att = s.att := rfl
@[simp] theorem State.modPt_mbx (n : Nat) (f : PartSt → PartSt) : (s.modPt n f).mbx = s.mbx := rfl
@[simp] theorem State.modPt_pwr (n : Nat) (f : PartSt → PartSt) : (s.modPt n f).pwr = s.pwr := rfl
@[simp] theorem State.modPt_rst (n : Nat) (f : PartSt → PartSt) : (s.modPt n f).rst = s.rst := rfl
@[simp] theorem State.modPt_host (n : Nat) (f : PartSt → PartSt) : (s.modPt n f).host = s.host := rfl
@[simp] theorem State.modPt_smb (n : Nat) (f : PartSt → PartSt) : (s.modPt n f).smb = s.smb := rfl
@[simp] theorem State.modPt_pins (n : Nat) (f : PartSt → PartSt) : (s.modPt n f).pins = s.pins := rfl

@[simp] theorem State.modRt_pending (n : Nat) (f : RtrSt → RtrSt) : (s.modRt n f).pending = s.pending := rfl
@[simp] theorem State.modRt_now (n : Nat) (f : RtrSt → RtrSt) : (s.modRt n f).now = s.now := rfl
@[simp] theorem State.modRt_draws (n : Nat) (f : RtrSt → RtrSt) : (s.modRt n f).draws = s.draws := rfl
@[simp] theorem State.modRt_out (n : Nat) (f : RtrSt → RtrSt) : (s.modRt n f).out = s.out := rfl
@[simp] theorem State.modRt_fuses (n : Nat) (f : RtrSt → RtrSt) : (s.modRt n f).fuses = s.fuses := rfl
@[simp] theorem State.modRt_regs (n : Nat) (f : RtrSt → RtrSt) : (s.modRt n f).regs = s.regs := rfl
@[simp] theorem State.modRt_priv2 (n : Nat) (f : RtrSt → RtrSt) : (s.modRt n f).priv2 = s.priv2 := rfl
@[simp] theorem State.modRt_snap0 (n : Nat) (f : RtrSt → RtrSt) : (s.modRt n f).snap0 = s.snap0 := rfl
@[simp] theorem State.modRt_snap2 (n : Nat) (f : RtrSt → RtrSt) : (s.modRt n f).snap2 = s.snap2 := rfl
@[simp] theorem State.modRt_tick (n : Nat) (f : RtrSt → RtrSt) : (s.modRt n f).tick = s.tick := rfl
@[simp] theorem State.modRt_ctx (n : Nat) (f : RtrSt → RtrSt) : (s.modRt n f).ctx = s.ctx := rfl
@[simp] theorem State.modRt_core (n : Nat) (f : RtrSt → RtrSt) : (s.modRt n f).core = s.core := rfl
@[simp] theorem State.modRt_clus (n : Nat) (f : RtrSt → RtrSt) : (s.modRt n f).clus = s.clus := rfl
@[simp] theorem State.modRt_eng (n : Nat) (f : RtrSt → RtrSt) : (s.modRt n f).eng = s.eng := rfl
@[simp] theorem State.modRt_chan (n : Nat) (f : RtrSt → RtrSt) : (s.modRt n f).chan = s.chan := rfl
@[simp] theorem State.modRt_part (n : Nat) (f : RtrSt → RtrSt) : (s.modRt n f).part = s.part := rfl
@[simp] theorem State.modRt_port (n : Nat) (f : RtrSt → RtrSt) : (s.modRt n f).port = s.port := rfl
@[simp] theorem State.modRt_mem (n : Nat) (f : RtrSt → RtrSt) : (s.modRt n f).mem = s.mem := rfl
@[simp] theorem State.modRt_memBad (n : Nat) (f : RtrSt → RtrSt) : (s.modRt n f).memBad = s.memBad := rfl
@[simp] theorem State.modRt_fab (n : Nat) (f : RtrSt → RtrSt) : (s.modRt n f).fab = s.fab := rfl
@[simp] theorem State.modRt_mgr (n : Nat) (f : RtrSt → RtrSt) : (s.modRt n f).mgr = s.mgr := rfl
@[simp] theorem State.modRt_flt (n : Nat) (f : RtrSt → RtrSt) : (s.modRt n f).flt = s.flt := rfl
@[simp] theorem State.modRt_evr (n : Nat) (f : RtrSt → RtrSt) : (s.modRt n f).evr = s.evr := rfl
@[simp] theorem State.modRt_sec (n : Nat) (f : RtrSt → RtrSt) : (s.modRt n f).sec = s.sec := rfl
@[simp] theorem State.modRt_nor (n : Nat) (f : RtrSt → RtrSt) : (s.modRt n f).nor = s.nor := rfl
@[simp] theorem State.modRt_att (n : Nat) (f : RtrSt → RtrSt) : (s.modRt n f).att = s.att := rfl
@[simp] theorem State.modRt_mbx (n : Nat) (f : RtrSt → RtrSt) : (s.modRt n f).mbx = s.mbx := rfl
@[simp] theorem State.modRt_pwr (n : Nat) (f : RtrSt → RtrSt) : (s.modRt n f).pwr = s.pwr := rfl
@[simp] theorem State.modRt_rst (n : Nat) (f : RtrSt → RtrSt) : (s.modRt n f).rst = s.rst := rfl
@[simp] theorem State.modRt_host (n : Nat) (f : RtrSt → RtrSt) : (s.modRt n f).host = s.host := rfl
@[simp] theorem State.modRt_smb (n : Nat) (f : RtrSt → RtrSt) : (s.modRt n f).smb = s.smb := rfl
@[simp] theorem State.modRt_pins (n : Nat) (f : RtrSt → RtrSt) : (s.modRt n f).pins = s.pins := rfl

@[simp] theorem State.modPo_pending (n : Nat) (f : PortSt → PortSt) : (s.modPo n f).pending = s.pending := rfl
@[simp] theorem State.modPo_now (n : Nat) (f : PortSt → PortSt) : (s.modPo n f).now = s.now := rfl
@[simp] theorem State.modPo_draws (n : Nat) (f : PortSt → PortSt) : (s.modPo n f).draws = s.draws := rfl
@[simp] theorem State.modPo_out (n : Nat) (f : PortSt → PortSt) : (s.modPo n f).out = s.out := rfl
@[simp] theorem State.modPo_fuses (n : Nat) (f : PortSt → PortSt) : (s.modPo n f).fuses = s.fuses := rfl
@[simp] theorem State.modPo_regs (n : Nat) (f : PortSt → PortSt) : (s.modPo n f).regs = s.regs := rfl
@[simp] theorem State.modPo_priv2 (n : Nat) (f : PortSt → PortSt) : (s.modPo n f).priv2 = s.priv2 := rfl
@[simp] theorem State.modPo_snap0 (n : Nat) (f : PortSt → PortSt) : (s.modPo n f).snap0 = s.snap0 := rfl
@[simp] theorem State.modPo_snap2 (n : Nat) (f : PortSt → PortSt) : (s.modPo n f).snap2 = s.snap2 := rfl
@[simp] theorem State.modPo_tick (n : Nat) (f : PortSt → PortSt) : (s.modPo n f).tick = s.tick := rfl
@[simp] theorem State.modPo_ctx (n : Nat) (f : PortSt → PortSt) : (s.modPo n f).ctx = s.ctx := rfl
@[simp] theorem State.modPo_core (n : Nat) (f : PortSt → PortSt) : (s.modPo n f).core = s.core := rfl
@[simp] theorem State.modPo_clus (n : Nat) (f : PortSt → PortSt) : (s.modPo n f).clus = s.clus := rfl
@[simp] theorem State.modPo_eng (n : Nat) (f : PortSt → PortSt) : (s.modPo n f).eng = s.eng := rfl
@[simp] theorem State.modPo_chan (n : Nat) (f : PortSt → PortSt) : (s.modPo n f).chan = s.chan := rfl
@[simp] theorem State.modPo_part (n : Nat) (f : PortSt → PortSt) : (s.modPo n f).part = s.part := rfl
@[simp] theorem State.modPo_rtr (n : Nat) (f : PortSt → PortSt) : (s.modPo n f).rtr = s.rtr := rfl
@[simp] theorem State.modPo_mem (n : Nat) (f : PortSt → PortSt) : (s.modPo n f).mem = s.mem := rfl
@[simp] theorem State.modPo_memBad (n : Nat) (f : PortSt → PortSt) : (s.modPo n f).memBad = s.memBad := rfl
@[simp] theorem State.modPo_fab (n : Nat) (f : PortSt → PortSt) : (s.modPo n f).fab = s.fab := rfl
@[simp] theorem State.modPo_mgr (n : Nat) (f : PortSt → PortSt) : (s.modPo n f).mgr = s.mgr := rfl
@[simp] theorem State.modPo_flt (n : Nat) (f : PortSt → PortSt) : (s.modPo n f).flt = s.flt := rfl
@[simp] theorem State.modPo_evr (n : Nat) (f : PortSt → PortSt) : (s.modPo n f).evr = s.evr := rfl
@[simp] theorem State.modPo_sec (n : Nat) (f : PortSt → PortSt) : (s.modPo n f).sec = s.sec := rfl
@[simp] theorem State.modPo_nor (n : Nat) (f : PortSt → PortSt) : (s.modPo n f).nor = s.nor := rfl
@[simp] theorem State.modPo_att (n : Nat) (f : PortSt → PortSt) : (s.modPo n f).att = s.att := rfl
@[simp] theorem State.modPo_mbx (n : Nat) (f : PortSt → PortSt) : (s.modPo n f).mbx = s.mbx := rfl
@[simp] theorem State.modPo_pwr (n : Nat) (f : PortSt → PortSt) : (s.modPo n f).pwr = s.pwr := rfl
@[simp] theorem State.modPo_rst (n : Nat) (f : PortSt → PortSt) : (s.modPo n f).rst = s.rst := rfl
@[simp] theorem State.modPo_host (n : Nat) (f : PortSt → PortSt) : (s.modPo n f).host = s.host := rfl
@[simp] theorem State.modPo_smb (n : Nat) (f : PortSt → PortSt) : (s.modPo n f).smb = s.smb := rfl
@[simp] theorem State.modPo_pins (n : Nat) (f : PortSt → PortSt) : (s.modPo n f).pins = s.pins := rfl

@[simp] theorem State.modMb_pending (n : Nat) (f : MbxCh → MbxCh) : (s.modMb n f).pending = s.pending := rfl
@[simp] theorem State.modMb_now (n : Nat) (f : MbxCh → MbxCh) : (s.modMb n f).now = s.now := rfl
@[simp] theorem State.modMb_draws (n : Nat) (f : MbxCh → MbxCh) : (s.modMb n f).draws = s.draws := rfl
@[simp] theorem State.modMb_out (n : Nat) (f : MbxCh → MbxCh) : (s.modMb n f).out = s.out := rfl
@[simp] theorem State.modMb_fuses (n : Nat) (f : MbxCh → MbxCh) : (s.modMb n f).fuses = s.fuses := rfl
@[simp] theorem State.modMb_regs (n : Nat) (f : MbxCh → MbxCh) : (s.modMb n f).regs = s.regs := rfl
@[simp] theorem State.modMb_priv2 (n : Nat) (f : MbxCh → MbxCh) : (s.modMb n f).priv2 = s.priv2 := rfl
@[simp] theorem State.modMb_snap0 (n : Nat) (f : MbxCh → MbxCh) : (s.modMb n f).snap0 = s.snap0 := rfl
@[simp] theorem State.modMb_snap2 (n : Nat) (f : MbxCh → MbxCh) : (s.modMb n f).snap2 = s.snap2 := rfl
@[simp] theorem State.modMb_tick (n : Nat) (f : MbxCh → MbxCh) : (s.modMb n f).tick = s.tick := rfl
@[simp] theorem State.modMb_ctx (n : Nat) (f : MbxCh → MbxCh) : (s.modMb n f).ctx = s.ctx := rfl
@[simp] theorem State.modMb_core (n : Nat) (f : MbxCh → MbxCh) : (s.modMb n f).core = s.core := rfl
@[simp] theorem State.modMb_clus (n : Nat) (f : MbxCh → MbxCh) : (s.modMb n f).clus = s.clus := rfl
@[simp] theorem State.modMb_eng (n : Nat) (f : MbxCh → MbxCh) : (s.modMb n f).eng = s.eng := rfl
@[simp] theorem State.modMb_chan (n : Nat) (f : MbxCh → MbxCh) : (s.modMb n f).chan = s.chan := rfl
@[simp] theorem State.modMb_part (n : Nat) (f : MbxCh → MbxCh) : (s.modMb n f).part = s.part := rfl
@[simp] theorem State.modMb_rtr (n : Nat) (f : MbxCh → MbxCh) : (s.modMb n f).rtr = s.rtr := rfl
@[simp] theorem State.modMb_port (n : Nat) (f : MbxCh → MbxCh) : (s.modMb n f).port = s.port := rfl
@[simp] theorem State.modMb_mem (n : Nat) (f : MbxCh → MbxCh) : (s.modMb n f).mem = s.mem := rfl
@[simp] theorem State.modMb_memBad (n : Nat) (f : MbxCh → MbxCh) : (s.modMb n f).memBad = s.memBad := rfl
@[simp] theorem State.modMb_fab (n : Nat) (f : MbxCh → MbxCh) : (s.modMb n f).fab = s.fab := rfl
@[simp] theorem State.modMb_mgr (n : Nat) (f : MbxCh → MbxCh) : (s.modMb n f).mgr = s.mgr := rfl
@[simp] theorem State.modMb_flt (n : Nat) (f : MbxCh → MbxCh) : (s.modMb n f).flt = s.flt := rfl
@[simp] theorem State.modMb_evr (n : Nat) (f : MbxCh → MbxCh) : (s.modMb n f).evr = s.evr := rfl
@[simp] theorem State.modMb_sec (n : Nat) (f : MbxCh → MbxCh) : (s.modMb n f).sec = s.sec := rfl
@[simp] theorem State.modMb_nor (n : Nat) (f : MbxCh → MbxCh) : (s.modMb n f).nor = s.nor := rfl
@[simp] theorem State.modMb_att (n : Nat) (f : MbxCh → MbxCh) : (s.modMb n f).att = s.att := rfl
@[simp] theorem State.modMb_pwr (n : Nat) (f : MbxCh → MbxCh) : (s.modMb n f).pwr = s.pwr := rfl
@[simp] theorem State.modMb_rst (n : Nat) (f : MbxCh → MbxCh) : (s.modMb n f).rst = s.rst := rfl
@[simp] theorem State.modMb_host (n : Nat) (f : MbxCh → MbxCh) : (s.modMb n f).host = s.host := rfl
@[simp] theorem State.modMb_smb (n : Nat) (f : MbxCh → MbxCh) : (s.modMb n f).smb = s.smb := rfl
@[simp] theorem State.modMb_pins (n : Nat) (f : MbxCh → MbxCh) : (s.modMb n f).pins = s.pins := rfl

@[simp] theorem State.memWrite_pending (a : Nat) (b : List Byte) : (s.memWrite a b).pending = s.pending := rfl
@[simp] theorem State.memWrite_now (a : Nat) (b : List Byte) : (s.memWrite a b).now = s.now := rfl
@[simp] theorem State.memWrite_draws (a : Nat) (b : List Byte) : (s.memWrite a b).draws = s.draws := rfl
@[simp] theorem State.memWrite_out (a : Nat) (b : List Byte) : (s.memWrite a b).out = s.out := rfl
@[simp] theorem State.memWrite_fuses (a : Nat) (b : List Byte) : (s.memWrite a b).fuses = s.fuses := rfl
@[simp] theorem State.memWrite_regs (a : Nat) (b : List Byte) : (s.memWrite a b).regs = s.regs := rfl
@[simp] theorem State.memWrite_priv2 (a : Nat) (b : List Byte) : (s.memWrite a b).priv2 = s.priv2 := rfl
@[simp] theorem State.memWrite_snap0 (a : Nat) (b : List Byte) : (s.memWrite a b).snap0 = s.snap0 := rfl
@[simp] theorem State.memWrite_snap2 (a : Nat) (b : List Byte) : (s.memWrite a b).snap2 = s.snap2 := rfl
@[simp] theorem State.memWrite_tick (a : Nat) (b : List Byte) : (s.memWrite a b).tick = s.tick := rfl
@[simp] theorem State.memWrite_ctx (a : Nat) (b : List Byte) : (s.memWrite a b).ctx = s.ctx := rfl
@[simp] theorem State.memWrite_core (a : Nat) (b : List Byte) : (s.memWrite a b).core = s.core := rfl
@[simp] theorem State.memWrite_clus (a : Nat) (b : List Byte) : (s.memWrite a b).clus = s.clus := rfl
@[simp] theorem State.memWrite_eng (a : Nat) (b : List Byte) : (s.memWrite a b).eng = s.eng := rfl
@[simp] theorem State.memWrite_chan (a : Nat) (b : List Byte) : (s.memWrite a b).chan = s.chan := rfl
@[simp] theorem State.memWrite_part (a : Nat) (b : List Byte) : (s.memWrite a b).part = s.part := rfl
@[simp] theorem State.memWrite_rtr (a : Nat) (b : List Byte) : (s.memWrite a b).rtr = s.rtr := rfl
@[simp] theorem State.memWrite_port (a : Nat) (b : List Byte) : (s.memWrite a b).port = s.port := rfl
@[simp] theorem State.memWrite_fab (a : Nat) (b : List Byte) : (s.memWrite a b).fab = s.fab := rfl
@[simp] theorem State.memWrite_mgr (a : Nat) (b : List Byte) : (s.memWrite a b).mgr = s.mgr := rfl
@[simp] theorem State.memWrite_flt (a : Nat) (b : List Byte) : (s.memWrite a b).flt = s.flt := rfl
@[simp] theorem State.memWrite_evr (a : Nat) (b : List Byte) : (s.memWrite a b).evr = s.evr := rfl
@[simp] theorem State.memWrite_sec (a : Nat) (b : List Byte) : (s.memWrite a b).sec = s.sec := rfl
@[simp] theorem State.memWrite_nor (a : Nat) (b : List Byte) : (s.memWrite a b).nor = s.nor := rfl
@[simp] theorem State.memWrite_att (a : Nat) (b : List Byte) : (s.memWrite a b).att = s.att := rfl
@[simp] theorem State.memWrite_mbx (a : Nat) (b : List Byte) : (s.memWrite a b).mbx = s.mbx := rfl
@[simp] theorem State.memWrite_pwr (a : Nat) (b : List Byte) : (s.memWrite a b).pwr = s.pwr := rfl
@[simp] theorem State.memWrite_rst (a : Nat) (b : List Byte) : (s.memWrite a b).rst = s.rst := rfl
@[simp] theorem State.memWrite_host (a : Nat) (b : List Byte) : (s.memWrite a b).host = s.host := rfl
@[simp] theorem State.memWrite_smb (a : Nat) (b : List Byte) : (s.memWrite a b).smb = s.smb := rfl
@[simp] theorem State.memWrite_pins (a : Nat) (b : List Byte) : (s.memWrite a b).pins = s.pins := rfl

@[simp] theorem State.cx_modCx_same (n : Nat) (f : CtxSt → CtxSt) : (s.modCx n f).cx n = f (s.cx n) :=
  Store.get_upd_same _ _ _ _
theorem State.cx_modCx_other {n k : Nat} (h : k ≠ n) (f : CtxSt → CtxSt) : (s.modCx n f).cx k = s.cx k :=
  Store.get_upd_other _ _ h _
@[simp] theorem State.co_modCo_same (n : Nat) (f : CoreSt → CoreSt) : (s.modCo n f).co n = f (s.co n) :=
  Store.get_upd_same _ _ _ _
theorem State.co_modCo_other {n k : Nat} (h : k ≠ n) (f : CoreSt → CoreSt) : (s.modCo n f).co k = s.co k :=
  Store.get_upd_other _ _ h _
@[simp] theorem State.cl_modCl_same (n : Nat) (f : ClusSt → ClusSt) : (s.modCl n f).cl n = f (s.cl n) :=
  Store.get_upd_same _ _ _ _
theorem State.cl_modCl_other {n k : Nat} (h : k ≠ n) (f : ClusSt → ClusSt) : (s.modCl n f).cl k = s.cl k :=
  Store.get_upd_other _ _ h _
@[simp] theorem State.en_modEn_same (n : Nat) (f : EngSt → EngSt) : (s.modEn n f).en n = f (s.en n) :=
  Store.get_upd_same _ _ _ _
theorem State.en_modEn_other {n k : Nat} (h : k ≠ n) (f : EngSt → EngSt) : (s.modEn n f).en k = s.en k :=
  Store.get_upd_other _ _ h _
@[simp] theorem State.ch_modCh_same (n : Nat) (f : ChanSt → ChanSt) : (s.modCh n f).ch n = f (s.ch n) :=
  Store.get_upd_same _ _ _ _
theorem State.ch_modCh_other {n k : Nat} (h : k ≠ n) (f : ChanSt → ChanSt) : (s.modCh n f).ch k = s.ch k :=
  Store.get_upd_other _ _ h _
@[simp] theorem State.pt_modPt_same (n : Nat) (f : PartSt → PartSt) : (s.modPt n f).pt n = f (s.pt n) :=
  Store.get_upd_same _ _ _ _
theorem State.pt_modPt_other {n k : Nat} (h : k ≠ n) (f : PartSt → PartSt) : (s.modPt n f).pt k = s.pt k :=
  Store.get_upd_other _ _ h _
@[simp] theorem State.rt_modRt_same (n : Nat) (f : RtrSt → RtrSt) : (s.modRt n f).rt n = f (s.rt n) :=
  Store.get_upd_same _ _ _ _
theorem State.rt_modRt_other {n k : Nat} (h : k ≠ n) (f : RtrSt → RtrSt) : (s.modRt n f).rt k = s.rt k :=
  Store.get_upd_other _ _ h _
@[simp] theorem State.po_modPo_same (n : Nat) (f : PortSt → PortSt) : (s.modPo n f).po n = f (s.po n) :=
  Store.get_upd_same _ _ _ _
theorem State.po_modPo_other {n k : Nat} (h : k ≠ n) (f : PortSt → PortSt) : (s.modPo n f).po k = s.po k :=
  Store.get_upd_other _ _ h _
@[simp] theorem State.mb_modMb_same (n : Nat) (f : MbxCh → MbxCh) : (s.modMb n f).mb n = f (s.mb n) :=
  Store.get_upd_same _ _ _ _
theorem State.mb_modMb_other {n k : Nat} (h : k ≠ n) (f : MbxCh → MbxCh) : (s.modMb n f).mb k = s.mb k :=
  Store.get_upd_other _ _ h _

/-! The readers of one kind of unit see no update of another kind. -/

@[simp] theorem State.cx_setReg_frame (o : Nat) (v : Word) (k : Nat) : (s.setReg o v).cx k = s.cx k := rfl
@[simp] theorem State.co_setReg_frame (o : Nat) (v : Word) (k : Nat) : (s.setReg o v).co k = s.co k := rfl
@[simp] theorem State.cl_setReg_frame (o : Nat) (v : Word) (k : Nat) : (s.setReg o v).cl k = s.cl k := rfl
@[simp] theorem State.en_setReg_frame (o : Nat) (v : Word) (k : Nat) : (s.setReg o v).en k = s.en k := rfl
@[simp] theorem State.ch_setReg_frame (o : Nat) (v : Word) (k : Nat) : (s.setReg o v).ch k = s.ch k := rfl
@[simp] theorem State.pt_setReg_frame (o : Nat) (v : Word) (k : Nat) : (s.setReg o v).pt k = s.pt k := rfl
@[simp] theorem State.rt_setReg_frame (o : Nat) (v : Word) (k : Nat) : (s.setReg o v).rt k = s.rt k := rfl
@[simp] theorem State.po_setReg_frame (o : Nat) (v : Word) (k : Nat) : (s.setReg o v).po k = s.po k := rfl
@[simp] theorem State.mb_setReg_frame (o : Nat) (v : Word) (k : Nat) : (s.setReg o v).mb k = s.mb k := rfl
@[simp] theorem State.memGet_setReg (o : Nat) (v : Word) (k : Nat) : (s.setReg o v).memGet k = s.memGet k := rfl

@[simp] theorem State.cx_fset_frame (f : Fld) (v : Nat) (k : Nat) : (s.fset f v).cx k = s.cx k := rfl
@[simp] theorem State.co_fset_frame (f : Fld) (v : Nat) (k : Nat) : (s.fset f v).co k = s.co k := rfl
@[simp] theorem State.cl_fset_frame (f : Fld) (v : Nat) (k : Nat) : (s.fset f v).cl k = s.cl k := rfl
@[simp] theorem State.en_fset_frame (f : Fld) (v : Nat) (k : Nat) : (s.fset f v).en k = s.en k := rfl
@[simp] theorem State.ch_fset_frame (f : Fld) (v : Nat) (k : Nat) : (s.fset f v).ch k = s.ch k := rfl
@[simp] theorem State.pt_fset_frame (f : Fld) (v : Nat) (k : Nat) : (s.fset f v).pt k = s.pt k := rfl
@[simp] theorem State.rt_fset_frame (f : Fld) (v : Nat) (k : Nat) : (s.fset f v).rt k = s.rt k := rfl
@[simp] theorem State.po_fset_frame (f : Fld) (v : Nat) (k : Nat) : (s.fset f v).po k = s.po k := rfl
@[simp] theorem State.mb_fset_frame (f : Fld) (v : Nat) (k : Nat) : (s.fset f v).mb k = s.mb k := rfl
@[simp] theorem State.memGet_fset (f : Fld) (v : Nat) (k : Nat) : (s.fset f v).memGet k = s.memGet k := rfl

@[simp] theorem State.cx_fcount_frame (f : Fld) (n : Nat) (k : Nat) : (s.fcount f n).cx k = s.cx k := rfl
@[simp] theorem State.co_fcount_frame (f : Fld) (n : Nat) (k : Nat) : (s.fcount f n).co k = s.co k := rfl
@[simp] theorem State.cl_fcount_frame (f : Fld) (n : Nat) (k : Nat) : (s.fcount f n).cl k = s.cl k := rfl
@[simp] theorem State.en_fcount_frame (f : Fld) (n : Nat) (k : Nat) : (s.fcount f n).en k = s.en k := rfl
@[simp] theorem State.ch_fcount_frame (f : Fld) (n : Nat) (k : Nat) : (s.fcount f n).ch k = s.ch k := rfl
@[simp] theorem State.pt_fcount_frame (f : Fld) (n : Nat) (k : Nat) : (s.fcount f n).pt k = s.pt k := rfl
@[simp] theorem State.rt_fcount_frame (f : Fld) (n : Nat) (k : Nat) : (s.fcount f n).rt k = s.rt k := rfl
@[simp] theorem State.po_fcount_frame (f : Fld) (n : Nat) (k : Nat) : (s.fcount f n).po k = s.po k := rfl
@[simp] theorem State.mb_fcount_frame (f : Fld) (n : Nat) (k : Nat) : (s.fcount f n).mb k = s.mb k := rfl
@[simp] theorem State.memGet_fcount (f : Fld) (n : Nat) (k : Nat) : (s.fcount f n).memGet k = s.memGet k := rfl

@[simp] theorem State.cx_setPair_frame (o v : Nat) (k : Nat) : (s.setPair o v).cx k = s.cx k := rfl
@[simp] theorem State.co_setPair_frame (o v : Nat) (k : Nat) : (s.setPair o v).co k = s.co k := rfl
@[simp] theorem State.cl_setPair_frame (o v : Nat) (k : Nat) : (s.setPair o v).cl k = s.cl k := rfl
@[simp] theorem State.en_setPair_frame (o v : Nat) (k : Nat) : (s.setPair o v).en k = s.en k := rfl
@[simp] theorem State.ch_setPair_frame (o v : Nat) (k : Nat) : (s.setPair o v).ch k = s.ch k := rfl
@[simp] theorem State.pt_setPair_frame (o v : Nat) (k : Nat) : (s.setPair o v).pt k = s.pt k := rfl
@[simp] theorem State.rt_setPair_frame (o v : Nat) (k : Nat) : (s.setPair o v).rt k = s.rt k := rfl
@[simp] theorem State.po_setPair_frame (o v : Nat) (k : Nat) : (s.setPair o v).po k = s.po k := rfl
@[simp] theorem State.mb_setPair_frame (o v : Nat) (k : Nat) : (s.setPair o v).mb k = s.mb k := rfl
@[simp] theorem State.memGet_setPair (o v : Nat) (k : Nat) : (s.setPair o v).memGet k = s.memGet k := rfl

@[simp] theorem State.cx_emit_frame (o : Output) (k : Nat) : (s.emit o).cx k = s.cx k := rfl
@[simp] theorem State.co_emit_frame (o : Output) (k : Nat) : (s.emit o).co k = s.co k := rfl
@[simp] theorem State.cl_emit_frame (o : Output) (k : Nat) : (s.emit o).cl k = s.cl k := rfl
@[simp] theorem State.en_emit_frame (o : Output) (k : Nat) : (s.emit o).en k = s.en k := rfl
@[simp] theorem State.ch_emit_frame (o : Output) (k : Nat) : (s.emit o).ch k = s.ch k := rfl
@[simp] theorem State.pt_emit_frame (o : Output) (k : Nat) : (s.emit o).pt k = s.pt k := rfl
@[simp] theorem State.rt_emit_frame (o : Output) (k : Nat) : (s.emit o).rt k = s.rt k := rfl
@[simp] theorem State.po_emit_frame (o : Output) (k : Nat) : (s.emit o).po k = s.po k := rfl
@[simp] theorem State.mb_emit_frame (o : Output) (k : Nat) : (s.emit o).mb k = s.mb k := rfl
@[simp] theorem State.reg_emit (o : Output) (k : Nat) : (s.emit o).reg k = s.reg k := rfl
@[simp] theorem State.fget_emit (o : Output) (g : Fld) : (s.emit o).fget g = s.fget g := rfl
@[simp] theorem State.flag_emit (o : Output) (g : Fld) : (s.emit o).flag g = s.flag g := rfl
@[simp] theorem State.memGet_emit (o : Output) (k : Nat) : (s.emit o).memGet k = s.memGet k := rfl

@[simp] theorem State.co_modCx_frame (n : Nat) (f : CtxSt → CtxSt) (k : Nat) : (s.modCx n f).co k = s.co k := rfl
@[simp] theorem State.cl_modCx_frame (n : Nat) (f : CtxSt → CtxSt) (k : Nat) : (s.modCx n f).cl k = s.cl k := rfl
@[simp] theorem State.en_modCx_frame (n : Nat) (f : CtxSt → CtxSt) (k : Nat) : (s.modCx n f).en k = s.en k := rfl
@[simp] theorem State.ch_modCx_frame (n : Nat) (f : CtxSt → CtxSt) (k : Nat) : (s.modCx n f).ch k = s.ch k := rfl
@[simp] theorem State.pt_modCx_frame (n : Nat) (f : CtxSt → CtxSt) (k : Nat) : (s.modCx n f).pt k = s.pt k := rfl
@[simp] theorem State.rt_modCx_frame (n : Nat) (f : CtxSt → CtxSt) (k : Nat) : (s.modCx n f).rt k = s.rt k := rfl
@[simp] theorem State.po_modCx_frame (n : Nat) (f : CtxSt → CtxSt) (k : Nat) : (s.modCx n f).po k = s.po k := rfl
@[simp] theorem State.mb_modCx_frame (n : Nat) (f : CtxSt → CtxSt) (k : Nat) : (s.modCx n f).mb k = s.mb k := rfl
@[simp] theorem State.reg_modCx (n : Nat) (f : CtxSt → CtxSt) (k : Nat) : (s.modCx n f).reg k = s.reg k := rfl
@[simp] theorem State.fget_modCx (n : Nat) (f : CtxSt → CtxSt) (g : Fld) : (s.modCx n f).fget g = s.fget g := rfl
@[simp] theorem State.flag_modCx (n : Nat) (f : CtxSt → CtxSt) (g : Fld) : (s.modCx n f).flag g = s.flag g := rfl
@[simp] theorem State.memGet_modCx (n : Nat) (f : CtxSt → CtxSt) (k : Nat) : (s.modCx n f).memGet k = s.memGet k := rfl

@[simp] theorem State.cx_modCo_frame (n : Nat) (f : CoreSt → CoreSt) (k : Nat) : (s.modCo n f).cx k = s.cx k := rfl
@[simp] theorem State.cl_modCo_frame (n : Nat) (f : CoreSt → CoreSt) (k : Nat) : (s.modCo n f).cl k = s.cl k := rfl
@[simp] theorem State.en_modCo_frame (n : Nat) (f : CoreSt → CoreSt) (k : Nat) : (s.modCo n f).en k = s.en k := rfl
@[simp] theorem State.ch_modCo_frame (n : Nat) (f : CoreSt → CoreSt) (k : Nat) : (s.modCo n f).ch k = s.ch k := rfl
@[simp] theorem State.pt_modCo_frame (n : Nat) (f : CoreSt → CoreSt) (k : Nat) : (s.modCo n f).pt k = s.pt k := rfl
@[simp] theorem State.rt_modCo_frame (n : Nat) (f : CoreSt → CoreSt) (k : Nat) : (s.modCo n f).rt k = s.rt k := rfl
@[simp] theorem State.po_modCo_frame (n : Nat) (f : CoreSt → CoreSt) (k : Nat) : (s.modCo n f).po k = s.po k := rfl
@[simp] theorem State.mb_modCo_frame (n : Nat) (f : CoreSt → CoreSt) (k : Nat) : (s.modCo n f).mb k = s.mb k := rfl
@[simp] theorem State.reg_modCo (n : Nat) (f : CoreSt → CoreSt) (k : Nat) : (s.modCo n f).reg k = s.reg k := rfl
@[simp] theorem State.fget_modCo (n : Nat) (f : CoreSt → CoreSt) (g : Fld) : (s.modCo n f).fget g = s.fget g := rfl
@[simp] theorem State.flag_modCo (n : Nat) (f : CoreSt → CoreSt) (g : Fld) : (s.modCo n f).flag g = s.flag g := rfl
@[simp] theorem State.memGet_modCo (n : Nat) (f : CoreSt → CoreSt) (k : Nat) : (s.modCo n f).memGet k = s.memGet k := rfl

@[simp] theorem State.cx_modCl_frame (n : Nat) (f : ClusSt → ClusSt) (k : Nat) : (s.modCl n f).cx k = s.cx k := rfl
@[simp] theorem State.co_modCl_frame (n : Nat) (f : ClusSt → ClusSt) (k : Nat) : (s.modCl n f).co k = s.co k := rfl
@[simp] theorem State.en_modCl_frame (n : Nat) (f : ClusSt → ClusSt) (k : Nat) : (s.modCl n f).en k = s.en k := rfl
@[simp] theorem State.ch_modCl_frame (n : Nat) (f : ClusSt → ClusSt) (k : Nat) : (s.modCl n f).ch k = s.ch k := rfl
@[simp] theorem State.pt_modCl_frame (n : Nat) (f : ClusSt → ClusSt) (k : Nat) : (s.modCl n f).pt k = s.pt k := rfl
@[simp] theorem State.rt_modCl_frame (n : Nat) (f : ClusSt → ClusSt) (k : Nat) : (s.modCl n f).rt k = s.rt k := rfl
@[simp] theorem State.po_modCl_frame (n : Nat) (f : ClusSt → ClusSt) (k : Nat) : (s.modCl n f).po k = s.po k := rfl
@[simp] theorem State.mb_modCl_frame (n : Nat) (f : ClusSt → ClusSt) (k : Nat) : (s.modCl n f).mb k = s.mb k := rfl
@[simp] theorem State.reg_modCl (n : Nat) (f : ClusSt → ClusSt) (k : Nat) : (s.modCl n f).reg k = s.reg k := rfl
@[simp] theorem State.fget_modCl (n : Nat) (f : ClusSt → ClusSt) (g : Fld) : (s.modCl n f).fget g = s.fget g := rfl
@[simp] theorem State.flag_modCl (n : Nat) (f : ClusSt → ClusSt) (g : Fld) : (s.modCl n f).flag g = s.flag g := rfl
@[simp] theorem State.memGet_modCl (n : Nat) (f : ClusSt → ClusSt) (k : Nat) : (s.modCl n f).memGet k = s.memGet k := rfl

@[simp] theorem State.cx_modTree_frame (k r : Nat) (f : TreeSt → TreeSt) (k : Nat) : (s.modTree k r f).cx k = s.cx k := rfl
@[simp] theorem State.co_modTree_frame (k r : Nat) (f : TreeSt → TreeSt) (k : Nat) : (s.modTree k r f).co k = s.co k := rfl
@[simp] theorem State.en_modTree_frame (k r : Nat) (f : TreeSt → TreeSt) (k : Nat) : (s.modTree k r f).en k = s.en k := rfl
@[simp] theorem State.ch_modTree_frame (k r : Nat) (f : TreeSt → TreeSt) (k : Nat) : (s.modTree k r f).ch k = s.ch k := rfl
@[simp] theorem State.pt_modTree_frame (k r : Nat) (f : TreeSt → TreeSt) (k : Nat) : (s.modTree k r f).pt k = s.pt k := rfl
@[simp] theorem State.rt_modTree_frame (k r : Nat) (f : TreeSt → TreeSt) (k : Nat) : (s.modTree k r f).rt k = s.rt k := rfl
@[simp] theorem State.po_modTree_frame (k r : Nat) (f : TreeSt → TreeSt) (k : Nat) : (s.modTree k r f).po k = s.po k := rfl
@[simp] theorem State.mb_modTree_frame (k r : Nat) (f : TreeSt → TreeSt) (k : Nat) : (s.modTree k r f).mb k = s.mb k := rfl
@[simp] theorem State.reg_modTree (k r : Nat) (f : TreeSt → TreeSt) (k : Nat) : (s.modTree k r f).reg k = s.reg k := rfl
@[simp] theorem State.fget_modTree (k r : Nat) (f : TreeSt → TreeSt) (g : Fld) : (s.modTree k r f).fget g = s.fget g := rfl
@[simp] theorem State.flag_modTree (k r : Nat) (f : TreeSt → TreeSt) (g : Fld) : (s.modTree k r f).flag g = s.flag g := rfl
@[simp] theorem State.memGet_modTree (k r : Nat) (f : TreeSt → TreeSt) (k : Nat) : (s.modTree k r f).memGet k = s.memGet k := rfl

@[simp] theorem State.cx_modEn_frame (n : Nat) (f : EngSt → EngSt) (k : Nat) : (s.modEn n f).cx k = s.cx k := rfl
@[simp] theorem State.co_modEn_frame (n : Nat) (f : EngSt → EngSt) (k : Nat) : (s.modEn n f).co k = s.co k := rfl
@[simp] theorem State.cl_modEn_frame (n : Nat) (f : EngSt → EngSt) (k : Nat) : (s.modEn n f).cl k = s.cl k := rfl
@[simp] theorem State.ch_modEn_frame (n : Nat) (f : EngSt → EngSt) (k : Nat) : (s.modEn n f).ch k = s.ch k := rfl
@[simp] theorem State.pt_modEn_frame (n : Nat) (f : EngSt → EngSt) (k : Nat) : (s.modEn n f).pt k = s.pt k := rfl
@[simp] theorem State.rt_modEn_frame (n : Nat) (f : EngSt → EngSt) (k : Nat) : (s.modEn n f).rt k = s.rt k := rfl
@[simp] theorem State.po_modEn_frame (n : Nat) (f : EngSt → EngSt) (k : Nat) : (s.modEn n f).po k = s.po k := rfl
@[simp] theorem State.mb_modEn_frame (n : Nat) (f : EngSt → EngSt) (k : Nat) : (s.modEn n f).mb k = s.mb k := rfl
@[simp] theorem State.reg_modEn (n : Nat) (f : EngSt → EngSt) (k : Nat) : (s.modEn n f).reg k = s.reg k := rfl
@[simp] theorem State.fget_modEn (n : Nat) (f : EngSt → EngSt) (g : Fld) : (s.modEn n f).fget g = s.fget g := rfl
@[simp] theorem State.flag_modEn (n : Nat) (f : EngSt → EngSt) (g : Fld) : (s.modEn n f).flag g = s.flag g := rfl
@[simp] theorem State.memGet_modEn (n : Nat) (f : EngSt → EngSt) (k : Nat) : (s.modEn n f).memGet k = s.memGet k := rfl

@[simp] theorem State.cx_modCh_frame (n : Nat) (f : ChanSt → ChanSt) (k : Nat) : (s.modCh n f).cx k = s.cx k := rfl
@[simp] theorem State.co_modCh_frame (n : Nat) (f : ChanSt → ChanSt) (k : Nat) : (s.modCh n f).co k = s.co k := rfl
@[simp] theorem State.cl_modCh_frame (n : Nat) (f : ChanSt → ChanSt) (k : Nat) : (s.modCh n f).cl k = s.cl k := rfl
@[simp] theorem State.en_modCh_frame (n : Nat) (f : ChanSt → ChanSt) (k : Nat) : (s.modCh n f).en k = s.en k := rfl
@[simp] theorem State.pt_modCh_frame (n : Nat) (f : ChanSt → ChanSt) (k : Nat) : (s.modCh n f).pt k = s.pt k := rfl
@[simp] theorem State.rt_modCh_frame (n : Nat) (f : ChanSt → ChanSt) (k : Nat) : (s.modCh n f).rt k = s.rt k := rfl
@[simp] theorem State.po_modCh_frame (n : Nat) (f : ChanSt → ChanSt) (k : Nat) : (s.modCh n f).po k = s.po k := rfl
@[simp] theorem State.mb_modCh_frame (n : Nat) (f : ChanSt → ChanSt) (k : Nat) : (s.modCh n f).mb k = s.mb k := rfl
@[simp] theorem State.reg_modCh (n : Nat) (f : ChanSt → ChanSt) (k : Nat) : (s.modCh n f).reg k = s.reg k := rfl
@[simp] theorem State.fget_modCh (n : Nat) (f : ChanSt → ChanSt) (g : Fld) : (s.modCh n f).fget g = s.fget g := rfl
@[simp] theorem State.flag_modCh (n : Nat) (f : ChanSt → ChanSt) (g : Fld) : (s.modCh n f).flag g = s.flag g := rfl
@[simp] theorem State.memGet_modCh (n : Nat) (f : ChanSt → ChanSt) (k : Nat) : (s.modCh n f).memGet k = s.memGet k := rfl

@[simp] theorem State.cx_modPt_frame (n : Nat) (f : PartSt → PartSt) (k : Nat) : (s.modPt n f).cx k = s.cx k := rfl
@[simp] theorem State.co_modPt_frame (n : Nat) (f : PartSt → PartSt) (k : Nat) : (s.modPt n f).co k = s.co k := rfl
@[simp] theorem State.cl_modPt_frame (n : Nat) (f : PartSt → PartSt) (k : Nat) : (s.modPt n f).cl k = s.cl k := rfl
@[simp] theorem State.en_modPt_frame (n : Nat) (f : PartSt → PartSt) (k : Nat) : (s.modPt n f).en k = s.en k := rfl
@[simp] theorem State.ch_modPt_frame (n : Nat) (f : PartSt → PartSt) (k : Nat) : (s.modPt n f).ch k = s.ch k := rfl
@[simp] theorem State.rt_modPt_frame (n : Nat) (f : PartSt → PartSt) (k : Nat) : (s.modPt n f).rt k = s.rt k := rfl
@[simp] theorem State.po_modPt_frame (n : Nat) (f : PartSt → PartSt) (k : Nat) : (s.modPt n f).po k = s.po k := rfl
@[simp] theorem State.mb_modPt_frame (n : Nat) (f : PartSt → PartSt) (k : Nat) : (s.modPt n f).mb k = s.mb k := rfl
@[simp] theorem State.reg_modPt (n : Nat) (f : PartSt → PartSt) (k : Nat) : (s.modPt n f).reg k = s.reg k := rfl
@[simp] theorem State.fget_modPt (n : Nat) (f : PartSt → PartSt) (g : Fld) : (s.modPt n f).fget g = s.fget g := rfl
@[simp] theorem State.flag_modPt (n : Nat) (f : PartSt → PartSt) (g : Fld) : (s.modPt n f).flag g = s.flag g := rfl
@[simp] theorem State.memGet_modPt (n : Nat) (f : PartSt → PartSt) (k : Nat) : (s.modPt n f).memGet k = s.memGet k := rfl

@[simp] theorem State.cx_modRt_frame (n : Nat) (f : RtrSt → RtrSt) (k : Nat) : (s.modRt n f).cx k = s.cx k := rfl
@[simp] theorem State.co_modRt_frame (n : Nat) (f : RtrSt → RtrSt) (k : Nat) : (s.modRt n f).co k = s.co k := rfl
@[simp] theorem State.cl_modRt_frame (n : Nat) (f : RtrSt → RtrSt) (k : Nat) : (s.modRt n f).cl k = s.cl k := rfl
@[simp] theorem State.en_modRt_frame (n : Nat) (f : RtrSt → RtrSt) (k : Nat) : (s.modRt n f).en k = s.en k := rfl
@[simp] theorem State.ch_modRt_frame (n : Nat) (f : RtrSt → RtrSt) (k : Nat) : (s.modRt n f).ch k = s.ch k := rfl
@[simp] theorem State.pt_modRt_frame (n : Nat) (f : RtrSt → RtrSt) (k : Nat) : (s.modRt n f).pt k = s.pt k := rfl
@[simp] theorem State.po_modRt_frame (n : Nat) (f : RtrSt → RtrSt) (k : Nat) : (s.modRt n f).po k = s.po k := rfl
@[simp] theorem State.mb_modRt_frame (n : Nat) (f : RtrSt → RtrSt) (k : Nat) : (s.modRt n f).mb k = s.mb k := rfl
@[simp] theorem State.reg_modRt (n : Nat) (f : RtrSt → RtrSt) (k : Nat) : (s.modRt n f).reg k = s.reg k := rfl
@[simp] theorem State.fget_modRt (n : Nat) (f : RtrSt → RtrSt) (g : Fld) : (s.modRt n f).fget g = s.fget g := rfl
@[simp] theorem State.flag_modRt (n : Nat) (f : RtrSt → RtrSt) (g : Fld) : (s.modRt n f).flag g = s.flag g := rfl
@[simp] theorem State.memGet_modRt (n : Nat) (f : RtrSt → RtrSt) (k : Nat) : (s.modRt n f).memGet k = s.memGet k := rfl

@[simp] theorem State.cx_modPo_frame (n : Nat) (f : PortSt → PortSt) (k : Nat) : (s.modPo n f).cx k = s.cx k := rfl
@[simp] theorem State.co_modPo_frame (n : Nat) (f : PortSt → PortSt) (k : Nat) : (s.modPo n f).co k = s.co k := rfl
@[simp] theorem State.cl_modPo_frame (n : Nat) (f : PortSt → PortSt) (k : Nat) : (s.modPo n f).cl k = s.cl k := rfl
@[simp] theorem State.en_modPo_frame (n : Nat) (f : PortSt → PortSt) (k : Nat) : (s.modPo n f).en k = s.en k := rfl
@[simp] theorem State.ch_modPo_frame (n : Nat) (f : PortSt → PortSt) (k : Nat) : (s.modPo n f).ch k = s.ch k := rfl
@[simp] theorem State.pt_modPo_frame (n : Nat) (f : PortSt → PortSt) (k : Nat) : (s.modPo n f).pt k = s.pt k := rfl
@[simp] theorem State.rt_modPo_frame (n : Nat) (f : PortSt → PortSt) (k : Nat) : (s.modPo n f).rt k = s.rt k := rfl
@[simp] theorem State.mb_modPo_frame (n : Nat) (f : PortSt → PortSt) (k : Nat) : (s.modPo n f).mb k = s.mb k := rfl
@[simp] theorem State.reg_modPo (n : Nat) (f : PortSt → PortSt) (k : Nat) : (s.modPo n f).reg k = s.reg k := rfl
@[simp] theorem State.fget_modPo (n : Nat) (f : PortSt → PortSt) (g : Fld) : (s.modPo n f).fget g = s.fget g := rfl
@[simp] theorem State.flag_modPo (n : Nat) (f : PortSt → PortSt) (g : Fld) : (s.modPo n f).flag g = s.flag g := rfl
@[simp] theorem State.memGet_modPo (n : Nat) (f : PortSt → PortSt) (k : Nat) : (s.modPo n f).memGet k = s.memGet k := rfl

@[simp] theorem State.cx_modMb_frame (n : Nat) (f : MbxCh → MbxCh) (k : Nat) : (s.modMb n f).cx k = s.cx k := rfl
@[simp] theorem State.co_modMb_frame (n : Nat) (f : MbxCh → MbxCh) (k : Nat) : (s.modMb n f).co k = s.co k := rfl
@[simp] theorem State.cl_modMb_frame (n : Nat) (f : MbxCh → MbxCh) (k : Nat) : (s.modMb n f).cl k = s.cl k := rfl
@[simp] theorem State.en_modMb_frame (n : Nat) (f : MbxCh → MbxCh) (k : Nat) : (s.modMb n f).en k = s.en k := rfl
@[simp] theorem State.ch_modMb_frame (n : Nat) (f : MbxCh → MbxCh) (k : Nat) : (s.modMb n f).ch k = s.ch k := rfl
@[simp] theorem State.pt_modMb_frame (n : Nat) (f : MbxCh → MbxCh) (k : Nat) : (s.modMb n f).pt k = s.pt k := rfl
@[simp] theorem State.rt_modMb_frame (n : Nat) (f : MbxCh → MbxCh) (k : Nat) : (s.modMb n f).rt k = s.rt k := rfl
@[simp] theorem State.po_modMb_frame (n : Nat) (f : MbxCh → MbxCh) (k : Nat) : (s.modMb n f).po k = s.po k := rfl
@[simp] theorem State.reg_modMb (n : Nat) (f : MbxCh → MbxCh) (k : Nat) : (s.modMb n f).reg k = s.reg k := rfl
@[simp] theorem State.fget_modMb (n : Nat) (f : MbxCh → MbxCh) (g : Fld) : (s.modMb n f).fget g = s.fget g := rfl
@[simp] theorem State.flag_modMb (n : Nat) (f : MbxCh → MbxCh) (g : Fld) : (s.modMb n f).flag g = s.flag g := rfl
@[simp] theorem State.memGet_modMb (n : Nat) (f : MbxCh → MbxCh) (k : Nat) : (s.modMb n f).memGet k = s.memGet k := rfl

@[simp] theorem State.cx_memWrite_frame (a : Nat) (b : List Byte) (k : Nat) : (s.memWrite a b).cx k = s.cx k := rfl
@[simp] theorem State.co_memWrite_frame (a : Nat) (b : List Byte) (k : Nat) : (s.memWrite a b).co k = s.co k := rfl
@[simp] theorem State.cl_memWrite_frame (a : Nat) (b : List Byte) (k : Nat) : (s.memWrite a b).cl k = s.cl k := rfl
@[simp] theorem State.en_memWrite_frame (a : Nat) (b : List Byte) (k : Nat) : (s.memWrite a b).en k = s.en k := rfl
@[simp] theorem State.ch_memWrite_frame (a : Nat) (b : List Byte) (k : Nat) : (s.memWrite a b).ch k = s.ch k := rfl
@[simp] theorem State.pt_memWrite_frame (a : Nat) (b : List Byte) (k : Nat) : (s.memWrite a b).pt k = s.pt k := rfl
@[simp] theorem State.rt_memWrite_frame (a : Nat) (b : List Byte) (k : Nat) : (s.memWrite a b).rt k = s.rt k := rfl
@[simp] theorem State.po_memWrite_frame (a : Nat) (b : List Byte) (k : Nat) : (s.memWrite a b).po k = s.po k := rfl
@[simp] theorem State.mb_memWrite_frame (a : Nat) (b : List Byte) (k : Nat) : (s.memWrite a b).mb k = s.mb k := rfl
@[simp] theorem State.reg_memWrite (a : Nat) (b : List Byte) (k : Nat) : (s.memWrite a b).reg k = s.reg k := rfl
@[simp] theorem State.fget_memWrite (a : Nat) (b : List Byte) (g : Fld) : (s.memWrite a b).fget g = s.fget g := rfl
@[simp] theorem State.flag_memWrite (a : Nat) (b : List Byte) (g : Fld) : (s.memWrite a b).flag g = s.flag g := rfl

@[simp] theorem State.emit_out (x : Output) : (s.emit x).out = s.out ++ [x] := rfl

/-! ### LPDDR5 -/

/-- What a byte of LPDDR5 reads after bytes have been written. -/
theorem get_putBytes (m : Store Byte) (a : Nat) (bs : List Byte) (k : Nat) :
    Store.get byteZero (putBytes m a bs) k =
      if a ≤ k ∧ k < a + bs.length then bs.getD (k - a) 0 else Store.get byteZero m k := by
  induction bs generalizing m a with
  | nil => rw [if_neg (by simp)]; rfl
  | cons b t ih =>
    rw [putBytes, ih]
    simp only [List.length_cons]
    by_cases h₁ : k = a
    · subst h₁
      rw [if_neg (by omega), if_pos (by omega), Store.get_put_same]; simp
    · rw [Store.get_put_other _ _ h₁]
      by_cases h₂ : a + 1 ≤ k ∧ k < a + 1 + t.length
      · rw [if_pos h₂, if_pos (by omega)]
        obtain ⟨j, rfl⟩ : ∃ j, k = a + 1 + j := ⟨k - (a + 1), by omega⟩
        have e : a + 1 + j - a = j + 1 := by omega
        rw [e]; simp
      · rw [if_neg h₂, if_neg (by omega)]

/-- Bytes written keep the canonical form. -/
theorem wf_putBytes (m : Store Byte) (a : Nat) (bs : List Byte) (h : Store.wf byteZero m = true) :
    Store.wf byteZero (putBytes m a bs) = true := by
  induction bs generalizing m a with
  | nil => exact h
  | cons b t ih => exact ih _ _ (Store.wf_put _ h _ _)

/-- A byte of LPDDR5 after a write: the byte written, or what it was. -/
theorem State.memGet_memWrite (a : Nat) (bs : List Byte) (k : Nat) :
    (s.memWrite a bs).memGet k = if a ≤ k ∧ k < a + bs.length then bs.getD (k - a) 0 else s.memGet k :=
  get_putBytes _ _ _ _

/-- Every operation that writes LPDDR5 keeps its canonical form. -/
theorem State.memWrite_wf (a : Nat) (bs : List Byte) (h : Memory.wf s.mem) : Memory.wf (s.memWrite a bs).mem :=
  wf_putBytes _ _ _ h

/-- LPDDR5 at reset is in canonical form. -/
theorem State.reset_mem_wf : Memory.wf State.reset.mem := rfl

/-! ### What a meaning answers -/

/-- A meaning's answer: the effect, with the queue, the time and the fuses of the state before. -/
theorem done_eq (t : State) : done s t = .next { t with pending := s.pending, now := s.now, fuses := s.fuses } := rfl

end Sys2Proof.Machine
end

