-- ==== Sys2Proof/Laws/Faults.lean ====
section
/-! SUPPORT. What taking a fault message can change: the collector, the recorder, the signals, a hold still to come and
the retirements that wait; nothing else (R338 to R349). -/

namespace Sys2Proof.Machine

theorem FaultOnly.refl (s : State) : FaultOnly s s := by
  constructor <;> intros <;> rfl

theorem FaultOnly.trans {s t u : State} (h : FaultOnly s t) (k : FaultOnly t u) : FaultOnly s u where
  pending := k.pending.trans h.pending
  now := k.now.trans h.now
  draws := k.draws.trans h.draws
  fuses := k.fuses.trans h.fuses
  priv2 := k.priv2.trans h.priv2
  snap0 := k.snap0.trans h.snap0
  snap2 := k.snap2.trans h.snap2
  tick := k.tick.trans h.tick
  core := k.core.trans h.core
  clus := k.clus.trans h.clus
  eng := k.eng.trans h.eng
  chan := k.chan.trans h.chan
  rtr := k.rtr.trans h.rtr
  port := k.port.trans h.port
  mem := k.mem.trans h.mem
  memBad := k.memBad.trans h.memBad
  fab := k.fab.trans h.fab
  mgr := k.mgr.trans h.mgr
  sec := k.sec.trans h.sec
  nor := k.nor.trans h.nor
  att := k.att.trans h.att
  mbx := k.mbx.trans h.mbx
  pwr := k.pwr.trans h.pwr
  rst := k.rst.trans h.rst
  host := k.host.trans h.host
  frz := k.frz.trans h.frz
  force := k.force.trans h.force
  inj := k.inj.trans h.inj
  graveDone := k.graveDone.trans h.graveDone
  incidents := k.incidents.trans h.incidents
  lastTot := k.lastTot.trans h.lastTot
  reg := fun o ho => (k.reg o ho).trans (h.reg o ho)
  cx := fun n => by
    have a := h.cx n; have b := k.cx n
    rw [← b] at a; exact a
  pt := fun p => by
    have a := h.pt p; have b := k.pt p
    rw [← b] at a; exact a

/-- A field of a register of the list written. -/
theorem FaultOnly.fset (s : State) (f : Fld) (v : Nat) (h : f.reg ∈ faultRegs) : FaultOnly s (s.fset f v) := by
  constructor <;> intros <;> first | rfl | skip
  exact State.reg_fset_other s f v (fun e => by simp_all)

/-- What is neither a register of the machine at large nor a unit changed. -/
theorem FaultOnly.of_eq {s t : State} (h : t = { s with out := t.out, flt := t.flt, evr := t.evr, smb := t.smb, pins := t.pins })
    (k : t.flt = { t.flt with frz := s.flt.frz, force := s.flt.force, inj := s.flt.inj, graveDone := s.flt.graveDone, incidents := s.flt.incidents, lastTot := s.flt.lastTot } := by rfl) :
    FaultOnly s t := by
  constructor <;> intros <;> first | (rw [k]; done) | (rw [h]; done) | (rw [h]; rfl)

theorem FaultOnly.fcount (s : State) (f : Fld) (n : Nat) (h : f.reg ∈ faultRegs) : FaultOnly s (s.fcount f n) :=
  FaultOnly.fset s f _ h

theorem FaultOnly.putEvr (s : State) (q : Nat) (ws : List Word) : FaultOnly s (s.putEvr q ws) := .of_eq rfl

theorem FaultOnly.alertPin (s : State) : FaultOnly s s.alertPin := .of_eq rfl

theorem FaultOnly.setFlt (s : State) (x : FltSt)
    (k : x = { x with frz := s.flt.frz, force := s.flt.force, inj := s.flt.inj, graveDone := s.flt.graveDone, incidents := s.flt.incidents, lastTot := s.flt.lastTot } := by rfl) :
    FaultOnly s { s with flt := x } := .of_eq rfl k

theorem FaultOnly.emit (s : State) (x : Output) : FaultOnly s (s.emit x) := .of_eq rfl

theorem FaultOnly.record (s : State) (code sev : Nat) (inj : Bool) (cls p0 p1 p2 : Nat) :
    FaultOnly s (s.record code sev inj cls p0 p1 p2) := by
  unfold State.record
  simp only
  split
  · exact (FaultOnly.putEvr _ _ _).trans (.fset _ _ _ (by decide))
  · exact (FaultOnly.putEvr _ _ _).trans (.fset _ _ _ (by decide))

theorem FaultOnly.irq (s : State) (v : Nat) : FaultOnly s (s.irq v) := by
  unfold State.irq
  simp only
  split
  · exact .refl _
  · split
    · exact (FaultOnly.fset _ _ _ (by decide)).trans (.emit _ _)
    · exact .fset _ _ _ (by decide)

theorem FaultOnly.alert (s : State) (b : Nat) : FaultOnly s (s.alert b) := by
  unfold State.alert
  split
  · exact .refl _
  · exact .of_eq rfl

theorem FaultOnly.pulse (s : State) : FaultOnly s s.pulse :=
  ((FaultOnly.of_eq (t := { s with
      flt := { s.flt with pulse := some (s.now + usUnits (s.fget FLT_PIN.PULSE)) }
      pins := { s.pins with faultN := true } }) rfl).trans (.fset _ _ _ (by decide))).trans (.fcount _ _ _ (by decide))

theorem FaultOnly.setSrc (s : State) (i : Nat) (e : SrcEnt) : FaultOnly s (s.setSrc i e) :=
  (FaultOnly.setFlt s { s.flt with srcs := Store.put (fun _ => SrcEnt.init) s.flt.srcs i e }).trans
    (.fset _ _ _ (by decide))

theorem FaultOnly.foldl {α : Type} (l : List α) (f : State → α → State) (h : ∀ s a, FaultOnly s (f s a)) (s : State) :
    FaultOnly s (l.foldl f s) := by
  induction l generalizing s with
  | nil => exact .refl _
  | cons a t ih => exact (h s a).trans (ih _)

theorem FaultOnly.srcExits (s : State) : FaultOnly s s.srcExits := by
  unfold State.srcExits
  apply FaultOnly.foldl
  intro t e
  split
  · exact .setSrc _ _ _
  · exact .refl _

theorem FaultOnly.count (s : State) (f : FaultMsg) (cls : Nat) : FaultOnly s (s.count f cls).2 := by
  unfold State.count
  refine (FaultOnly.srcExits s).trans ?_
  generalize s.srcExits = s
  simp only
  split
  · split
    · exact .setSrc _ _ _
    · split <;> exact .setSrc _ _ _
  · split
    · exact .setSrc _ _ _
    · split
      · exact .setSrc _ _ _
      · exact .fset _ _ _ (by decide)

theorem FaultOnly.dumpStart (s : State) (g : Bool) (code : Nat) (src : Word) : FaultOnly s (s.dumpStart g code src) := by
  unfold State.dumpStart
  split
  · exact .refl _
  · simp only
    generalize s.dumpRegions = rs
    generalize s.dumpHead code src rs.length = h
    generalize putBytes [] 0 h = w
    exact ((FaultOnly.setFlt _ _).trans (.fset _ _ _ (by decide))).trans (.fset _ _ _ (by decide))

theorem FaultOnly.modCx (s : State) (n : Nat) (x : Option Nat) :
    FaultOnly s (s.modCx n (fun c => { c with holdNext := x })) := by
  constructor <;> intros <;> first | rfl | skip
  rename_i k
  by_cases e : k = n
  · subst e; simp
  · rw [State.cx_modCx_other s e]

theorem FaultOnly.modPt (s : State) (p : Nat) (f : List Retiree → List Retiree) :
    FaultOnly s (s.modPt p (fun t => { t with waiting := f t.waiting })) := by
  constructor <;> intros <;> first | rfl | skip
  rename_i k
  by_cases e : k = p
  · subst e; simp
  · rw [State.pt_modPt_other s e]

theorem FaultOnly.await (s : State) (p : Nat) (u : Retiree) : FaultOnly s (s.modPt p (PartSt.await u)) :=
  .modPt s p (fun l => if l.contains u then l else l ++ [u])

theorem FaultOnly.graveLatch (s : State) (f : FaultMsg) : FaultOnly s (s.graveLatch f) := by
  unfold State.graveLatch
  simp only
  have h₁ : FaultOnly s (if (!s.flag FLT_STAT.GRAVE) = true then
      (s.fset FLT_STAT.GRAVE 1).fset FLT_STAT.GRAVE_CODE f.code.toNat else s) := by
    split
    · exact (FaultOnly.fset _ _ _ (by decide)).trans (.fset _ _ _ (by decide))
    · exact .refl _
  generalize (if (!s.flag FLT_STAT.GRAVE) = true then
      (s.fset FLT_STAT.GRAVE 1).fset FLT_STAT.GRAVE_CODE f.code.toNat else s) = s₁ at *
  refine h₁.trans ?_
  have h₂ : FaultOnly s₁ (if (!s.flag FLT_STAT.GRAVE) = true then
      { s₁ with flt := { s₁.flt with graveAt := some s₁.now } } else s₁) := by
    split
    · exact .setFlt _ _
    · exact .refl _
  generalize (if (!s.flag FLT_STAT.GRAVE) = true then
      { s₁ with flt := { s₁.flt with graveAt := some s₁.now } } else s₁) = s₂ at *
  refine h₂.trans ((FaultOnly.fset _ FLT_PIN.HELD 1 (by decide)).trans ?_)
  generalize s₂.fset FLT_PIN.HELD 1 = s₃
  have h₃ : FaultOnly s₃ (s₃.each 16 (fun n s =>
      if (decide (2 ≤ s.slState n) && decide (s.slState n ≤ 4)) = true then s.modCx n (fun c => { c with holdNext := some 7 }) else s)) := by
    unfold State.each
    apply FaultOnly.foldl
    intro t n
    show FaultOnly t (if _ then _ else _)
    split
    · exact .modCx _ _ _
    · exact .refl _
  refine h₃.trans ?_
  generalize (s₃.each 16 _) = s₄
  refine (FaultOnly.alert s₄ 1).trans ?_
  split
  · exact .dumpStart _ _ _ _
  · exact .refl _

theorem FaultOnly.promoted (s : State) (f : FaultMsg) : FaultOnly s (s.promoted f) := by
  unfold State.promoted
  simp only
  split
  · exact .refl _
  · split
    · split
      · exact .refl _
      · split
        · exact .refl _
        · exact .await _ _ _
    · split
      · split
        · exact .refl _
        · exact .await _ _ _
      · exact .refl _

theorem FaultOnly.enqueue (s : State) (f : FaultMsg) (c : Nat) (a b : Bool) : FaultOnly s (s.enqueue f c a b) := by
  unfold State.enqueue
  split
  · exact .setFlt _ _
  · exact .fcount _ _ _ (by decide)

theorem FaultOnly.recordFault (s : State) (f : FaultMsg) (c : Nat) (a : Bool) : FaultOnly s (s.recordFault f c a) := by
  unfold State.recordFault
  split
  · exact .refl _
  · exact .record _ _ _ _ _ _ _ _

theorem FaultOnly.ite {s a b : State} {c : Prop} [Decidable c] (h : FaultOnly s a) (k : FaultOnly s b) :
    FaultOnly s (if c then a else b) := by
  split
  · exact h
  · exact k

theorem FaultOnly.signal (s : State) (f : FaultMsg) (c : Nat) : FaultOnly s (s.signal f c) := by
  have h₁ : FaultOnly s (if 1 ≤ c then s.irq 0 else s) := .ite (.irq s 0) (.refl s)
  unfold State.signal
  simp only
  refine h₁.trans ?_
  generalize (if 1 ≤ c then s.irq 0 else s) = s
  have h₂ : FaultOnly s (if (decide (3 ≤ c) && (!f.inj || s.flag FLT_CTL.INJ_PIN)) = true then s.pulse else s) :=
    .ite (.pulse s) (.refl s)
  refine h₂.trans ?_
  generalize (if (decide (3 ≤ c) && (!f.inj || s.flag FLT_CTL.INJ_PIN)) = true then s.pulse else s) = s
  have h₃ : FaultOnly s (if c = 3 then s.alert 0 else s) := .ite (.alert s 0) (.refl s)
  refine h₃.trans ?_
  generalize (if c = 3 then s.alert 0 else s) = s
  exact FaultOnly.ite (.dumpStart _ _ _ _) (.refl _)

/-- The class that a message takes lies below 5, so the counter it advances is one of the five. -/
theorem count_class (s : State) (f : FaultMsg) (cls : Nat) (h : cls < 5) : (s.count f cls).1 < 5 := by
  unfold State.count
  simp only
  split
  · split
    · exact Nat.lt_of_sub_eq_succ rfl
    · split
      · exact Nat.lt_of_sub_eq_succ rfl
      · exact h
  · split
    · exact h
    · split <;> exact h

theorem FaultOnly.classify (s : State) (f : FaultMsg) (cls : Nat) (stale held : Bool) (h : cls < 5) :
    FaultOnly s (s.classify f cls stale held) := by
  unfold State.classify
  simp only
  have hc : (if stale = true then 0 else cls) < 5 := by split <;> omega
  generalize (if stale = true then 0 else cls) = k at *
  have h₁ : FaultOnly s (if ((decide (k = 1) || decide (k = 2)) && (!f.inj || s.flag FLT_CTL.INJ_COUNTS)) = true then
      s.count f k else (k, s)).2 ∧ (if ((decide (k = 1) || decide (k = 2)) && (!f.inj || s.flag FLT_CTL.INJ_COUNTS)) = true then
      s.count f k else (k, s)).1 < 5 := by
    split
    · exact ⟨.count _ _ _, count_class _ _ _ hc⟩
    · exact ⟨.refl _, hc⟩
  generalize (if ((decide (k = 1) || decide (k = 2)) && (!f.inj || s.flag FLT_CTL.INJ_COUNTS)) = true then
      s.count f k else (k, s)) = r at *
  obtain ⟨c, s₁⟩ := r
  obtain ⟨h₁, h₂⟩ := h₁
  simp only at h₁ h₂ ⊢
  refine h₁.trans ?_
  have h₃ : FaultOnly s₁ (if (decide (c = 3) && decide (k ≠ 3)) = true then s₁.promoted f else s₁) :=
    .ite (.promoted s₁ f) (.refl s₁)
  refine h₃.trans ?_
  generalize (if (decide (c = 3) && decide (k ≠ 3)) = true then s₁.promoted f else s₁) = s₁
  refine (FaultOnly.enqueue _ f c stale held).trans ?_
  refine FaultOnly.trans (FaultOnly.fcount _ (FLT_CNT.CNT c) 1 ?_) ?_
  · interval_cases c <;> decide
  refine (FaultOnly.recordFault _ f c stale).trans ?_
  refine (FaultOnly.signal _ f c).trans ?_
  exact FaultOnly.ite (.graveLatch _ _) (.refl _)

theorem faultBase_lt (code c : Nat) (h : faultBase code = some c) : c < 5 := by
  unfold faultBase at h
  split at h <;> first | (cases h; done) | (have e := Option.some.inj h; omega)

theorem FaultOnly.take (s : State) (f : FaultMsg) : FaultOnly s (s.take f) := by
  unfold State.take
  split
  · exact .classify _ _ _ _ _ (by decide)
  split
  · exact .classify _ _ _ _ _ (faultBase_lt _ _ ‹_›)
  · split
    · exact .setFlt _ _
    · exact .classify _ _ _ _ _ (by decide)

/-- A fault detected changes nothing but what a fault message can change. -/
theorem FaultOnly.raise (s : State) (code : Nat) (src : Word) (addr arg : Nat) : FaultOnly s (s.raise code src addr arg) :=
  .take _ _

theorem FaultOnly.raiseFor (s : State) (key code : Nat) (src : Word) (addr arg : Nat) :
    FaultOnly s (s.raiseFor key code src addr arg) := .setFlt _ _

theorem FaultOnly.raiseAs (s : State) (cls code : Nat) (src : Word) (addr arg : Nat) (h : cls < 5) :
    FaultOnly s (s.raiseAs cls code src addr arg) := .classify _ _ _ _ _ h

/-- A bad register write changes nothing but what a fault message can change (R9). -/
theorem FaultOnly.badWrite (s : State) (m : Master) (off : Nat) : FaultOnly s (s.badWrite m off) := .raise _ _ _ _ _

theorem FaultOnly.refuse (s : State) (off : Nat) : FaultOnly s (s.refuse off) := .raise _ _ _ _ _

/-- A field outside the registers of fault messages. -/
theorem FaultOnly.fget {s t : State} (h : FaultOnly s t) (f : Fld) (hf : f.reg ∉ faultRegs) : t.fget f = s.fget f := by
  simp only [State.fget, h.reg _ hf]

@[simp] theorem State.raise_pending (s : State) (code : Nat) (src : Word) (addr arg : Nat) : (s.raise code src addr arg).pending = s.pending :=
  (FaultOnly.raise s code src addr arg).pending
@[simp] theorem State.raise_now (s : State) (code : Nat) (src : Word) (addr arg : Nat) : (s.raise code src addr arg).now = s.now :=
  (FaultOnly.raise s code src addr arg).now
@[simp] theorem State.raise_draws (s : State) (code : Nat) (src : Word) (addr arg : Nat) : (s.raise code src addr arg).draws = s.draws :=
  (FaultOnly.raise s code src addr arg).draws
@[simp] theorem State.raise_fuses (s : State) (code : Nat) (src : Word) (addr arg : Nat) : (s.raise code src addr arg).fuses = s.fuses :=
  (FaultOnly.raise s code src addr arg).fuses
@[simp] theorem State.raise_priv2 (s : State) (code : Nat) (src : Word) (addr arg : Nat) : (s.raise code src addr arg).priv2 = s.priv2 :=
  (FaultOnly.raise s code src addr arg).priv2
@[simp] theorem State.raise_snap0 (s : State) (code : Nat) (src : Word) (addr arg : Nat) : (s.raise code src addr arg).snap0 = s.snap0 :=
  (FaultOnly.raise s code src addr arg).snap0
@[simp] theorem State.raise_snap2 (s : State) (code : Nat) (src : Word) (addr arg : Nat) : (s.raise code src addr arg).snap2 = s.snap2 :=
  (FaultOnly.raise s code src addr arg).snap2
@[simp] theorem State.raise_tick (s : State) (code : Nat) (src : Word) (addr arg : Nat) : (s.raise code src addr arg).tick = s.tick :=
  (FaultOnly.raise s code src addr arg).tick
@[simp] theorem State.raise_core (s : State) (code : Nat) (src : Word) (addr arg : Nat) : (s.raise code src addr arg).core = s.core :=
  (FaultOnly.raise s code src addr arg).core
@[simp] theorem State.raise_clus (s : State) (code : Nat) (src : Word) (addr arg : Nat) : (s.raise code src addr arg).clus = s.clus :=
  (FaultOnly.raise s code src addr arg).clus
@[simp] theorem State.raise_eng (s : State) (code : Nat) (src : Word) (addr arg : Nat) : (s.raise code src addr arg).eng = s.eng :=
  (FaultOnly.raise s code src addr arg).eng
@[simp] theorem State.raise_chan (s : State) (code : Nat) (src : Word) (addr arg : Nat) : (s.raise code src addr arg).chan = s.chan :=
  (FaultOnly.raise s code src addr arg).chan
@[simp] theorem State.raise_rtr (s : State) (code : Nat) (src : Word) (addr arg : Nat) : (s.raise code src addr arg).rtr = s.rtr :=
  (FaultOnly.raise s code src addr arg).rtr
@[simp] theorem State.raise_port (s : State) (code : Nat) (src : Word) (addr arg : Nat) : (s.raise code src addr arg).port = s.port :=
  (FaultOnly.raise s code src addr arg).port
@[simp] theorem State.raise_mem (s : State) (code : Nat) (src : Word) (addr arg : Nat) : (s.raise code src addr arg).mem = s.mem :=
  (FaultOnly.raise s code src addr arg).mem
@[simp] theorem State.raise_memBad (s : State) (code : Nat) (src : Word) (addr arg : Nat) : (s.raise code src addr arg).memBad = s.memBad :=
  (FaultOnly.raise s code src addr arg).memBad
@[simp] theorem State.raise_fab (s : State) (code : Nat) (src : Word) (addr arg : Nat) : (s.raise code src addr arg).fab = s.fab :=
  (FaultOnly.raise s code src addr arg).fab
@[simp] theorem State.raise_mgr (s : State) (code : Nat) (src : Word) (addr arg : Nat) : (s.raise code src addr arg).mgr = s.mgr :=
  (FaultOnly.raise s code src addr arg).mgr
@[simp] theorem State.raise_sec (s : State) (code : Nat) (src : Word) (addr arg : Nat) : (s.raise code src addr arg).sec = s.sec :=
  (FaultOnly.raise s code src addr arg).sec
@[simp] theorem State.raise_nor (s : State) (code : Nat) (src : Word) (addr arg : Nat) : (s.raise code src addr arg).nor = s.nor :=
  (FaultOnly.raise s code src addr arg).nor
@[simp] theorem State.raise_att (s : State) (code : Nat) (src : Word) (addr arg : Nat) : (s.raise code src addr arg).att = s.att :=
  (FaultOnly.raise s code src addr arg).att
@[simp] theorem State.raise_mbx (s : State) (code : Nat) (src : Word) (addr arg : Nat) : (s.raise code src addr arg).mbx = s.mbx :=
  (FaultOnly.raise s code src addr arg).mbx
@[simp] theorem State.raise_pwr (s : State) (code : Nat) (src : Word) (addr arg : Nat) : (s.raise code src addr arg).pwr = s.pwr :=
  (FaultOnly.raise s code src addr arg).pwr
@[simp] theorem State.raise_rst (s : State) (code : Nat) (src : Word) (addr arg : Nat) : (s.raise code src addr arg).rst = s.rst :=
  (FaultOnly.raise s code src addr arg).rst
@[simp] theorem State.raise_host (s : State) (code : Nat) (src : Word) (addr arg : Nat) : (s.raise code src addr arg).host = s.host :=
  (FaultOnly.raise s code src addr arg).host
@[simp] theorem State.badWrite_pending (s : State) (m : Master) (off : Nat) : (s.badWrite m off).pending = s.pending :=
  (FaultOnly.badWrite s m off).pending
@[simp] theorem State.badWrite_now (s : State) (m : Master) (off : Nat) : (s.badWrite m off).now = s.now :=
  (FaultOnly.badWrite s m off).now
@[simp] theorem State.badWrite_draws (s : State) (m : Master) (off : Nat) : (s.badWrite m off).draws = s.draws :=
  (FaultOnly.badWrite s m off).draws
@[simp] theorem State.badWrite_fuses (s : State) (m : Master) (off : Nat) : (s.badWrite m off).fuses = s.fuses :=
  (FaultOnly.badWrite s m off).fuses
@[simp] theorem State.badWrite_priv2 (s : State) (m : Master) (off : Nat) : (s.badWrite m off).priv2 = s.priv2 :=
  (FaultOnly.badWrite s m off).priv2
@[simp] theorem State.badWrite_snap0 (s : State) (m : Master) (off : Nat) : (s.badWrite m off).snap0 = s.snap0 :=
  (FaultOnly.badWrite s m off).snap0
@[simp] theorem State.badWrite_snap2 (s : State) (m : Master) (off : Nat) : (s.badWrite m off).snap2 = s.snap2 :=
  (FaultOnly.badWrite s m off).snap2
@[simp] theorem State.badWrite_tick (s : State) (m : Master) (off : Nat) : (s.badWrite m off).tick = s.tick :=
  (FaultOnly.badWrite s m off).tick
@[simp] theorem State.badWrite_core (s : State) (m : Master) (off : Nat) : (s.badWrite m off).core = s.core :=
  (FaultOnly.badWrite s m off).core
@[simp] theorem State.badWrite_clus (s : State) (m : Master) (off : Nat) : (s.badWrite m off).clus = s.clus :=
  (FaultOnly.badWrite s m off).clus
@[simp] theorem State.badWrite_eng (s : State) (m : Master) (off : Nat) : (s.badWrite m off).eng = s.eng :=
  (FaultOnly.badWrite s m off).eng
@[simp] theorem State.badWrite_chan (s : State) (m : Master) (off : Nat) : (s.badWrite m off).chan = s.chan :=
  (FaultOnly.badWrite s m off).chan
@[simp] theorem State.badWrite_rtr (s : State) (m : Master) (off : Nat) : (s.badWrite m off).rtr = s.rtr :=
  (FaultOnly.badWrite s m off).rtr
@[simp] theorem State.badWrite_port (s : State) (m : Master) (off : Nat) : (s.badWrite m off).port = s.port :=
  (FaultOnly.badWrite s m off).port
@[simp] theorem State.badWrite_mem (s : State) (m : Master) (off : Nat) : (s.badWrite m off).mem = s.mem :=
  (FaultOnly.badWrite s m off).mem
@[simp] theorem State.badWrite_memBad (s : State) (m : Master) (off : Nat) : (s.badWrite m off).memBad = s.memBad :=
  (FaultOnly.badWrite s m off).memBad
@[simp] theorem State.badWrite_fab (s : State) (m : Master) (off : Nat) : (s.badWrite m off).fab = s.fab :=
  (FaultOnly.badWrite s m off).fab
@[simp] theorem State.badWrite_mgr (s : State) (m : Master) (off : Nat) : (s.badWrite m off).mgr = s.mgr :=
  (FaultOnly.badWrite s m off).mgr
@[simp] theorem State.badWrite_sec (s : State) (m : Master) (off : Nat) : (s.badWrite m off).sec = s.sec :=
  (FaultOnly.badWrite s m off).sec
@[simp] theorem State.badWrite_nor (s : State) (m : Master) (off : Nat) : (s.badWrite m off).nor = s.nor :=
  (FaultOnly.badWrite s m off).nor
@[simp] theorem State.badWrite_att (s : State) (m : Master) (off : Nat) : (s.badWrite m off).att = s.att :=
  (FaultOnly.badWrite s m off).att
@[simp] theorem State.badWrite_mbx (s : State) (m : Master) (off : Nat) : (s.badWrite m off).mbx = s.mbx :=
  (FaultOnly.badWrite s m off).mbx
@[simp] theorem State.badWrite_pwr (s : State) (m : Master) (off : Nat) : (s.badWrite m off).pwr = s.pwr :=
  (FaultOnly.badWrite s m off).pwr
@[simp] theorem State.badWrite_rst (s : State) (m : Master) (off : Nat) : (s.badWrite m off).rst = s.rst :=
  (FaultOnly.badWrite s m off).rst
@[simp] theorem State.badWrite_host (s : State) (m : Master) (off : Nat) : (s.badWrite m off).host = s.host :=
  (FaultOnly.badWrite s m off).host
@[simp] theorem State.refuse_pending (s : State) (off : Nat) : (s.refuse off).pending = s.pending :=
  (FaultOnly.refuse s off).pending
@[simp] theorem State.refuse_now (s : State) (off : Nat) : (s.refuse off).now = s.now :=
  (FaultOnly.refuse s off).now
@[simp] theorem State.refuse_draws (s : State) (off : Nat) : (s.refuse off).draws = s.draws :=
  (FaultOnly.refuse s off).draws
@[simp] theorem State.refuse_fuses (s : State) (off : Nat) : (s.refuse off).fuses = s.fuses :=
  (FaultOnly.refuse s off).fuses
@[simp] theorem State.refuse_priv2 (s : State) (off : Nat) : (s.refuse off).priv2 = s.priv2 :=
  (FaultOnly.refuse s off).priv2
@[simp] theorem State.refuse_snap0 (s : State) (off : Nat) : (s.refuse off).snap0 = s.snap0 :=
  (FaultOnly.refuse s off).snap0
@[simp] theorem State.refuse_snap2 (s : State) (off : Nat) : (s.refuse off).snap2 = s.snap2 :=
  (FaultOnly.refuse s off).snap2
@[simp] theorem State.refuse_tick (s : State) (off : Nat) : (s.refuse off).tick = s.tick :=
  (FaultOnly.refuse s off).tick
@[simp] theorem State.refuse_core (s : State) (off : Nat) : (s.refuse off).core = s.core :=
  (FaultOnly.refuse s off).core
@[simp] theorem State.refuse_clus (s : State) (off : Nat) : (s.refuse off).clus = s.clus :=
  (FaultOnly.refuse s off).clus
@[simp] theorem State.refuse_eng (s : State) (off : Nat) : (s.refuse off).eng = s.eng :=
  (FaultOnly.refuse s off).eng
@[simp] theorem State.refuse_chan (s : State) (off : Nat) : (s.refuse off).chan = s.chan :=
  (FaultOnly.refuse s off).chan
@[simp] theorem State.refuse_rtr (s : State) (off : Nat) : (s.refuse off).rtr = s.rtr :=
  (FaultOnly.refuse s off).rtr
@[simp] theorem State.refuse_port (s : State) (off : Nat) : (s.refuse off).port = s.port :=
  (FaultOnly.refuse s off).port
@[simp] theorem State.refuse_mem (s : State) (off : Nat) : (s.refuse off).mem = s.mem :=
  (FaultOnly.refuse s off).mem
@[simp] theorem State.refuse_memBad (s : State) (off : Nat) : (s.refuse off).memBad = s.memBad :=
  (FaultOnly.refuse s off).memBad
@[simp] theorem State.refuse_fab (s : State) (off : Nat) : (s.refuse off).fab = s.fab :=
  (FaultOnly.refuse s off).fab
@[simp] theorem State.refuse_mgr (s : State) (off : Nat) : (s.refuse off).mgr = s.mgr :=
  (FaultOnly.refuse s off).mgr
@[simp] theorem State.refuse_sec (s : State) (off : Nat) : (s.refuse off).sec = s.sec :=
  (FaultOnly.refuse s off).sec
@[simp] theorem State.refuse_nor (s : State) (off : Nat) : (s.refuse off).nor = s.nor :=
  (FaultOnly.refuse s off).nor
@[simp] theorem State.refuse_att (s : State) (off : Nat) : (s.refuse off).att = s.att :=
  (FaultOnly.refuse s off).att
@[simp] theorem State.refuse_mbx (s : State) (off : Nat) : (s.refuse off).mbx = s.mbx :=
  (FaultOnly.refuse s off).mbx
@[simp] theorem State.refuse_pwr (s : State) (off : Nat) : (s.refuse off).pwr = s.pwr :=
  (FaultOnly.refuse s off).pwr
@[simp] theorem State.refuse_rst (s : State) (off : Nat) : (s.refuse off).rst = s.rst :=
  (FaultOnly.refuse s off).rst
@[simp] theorem State.refuse_host (s : State) (off : Nat) : (s.refuse off).host = s.host :=
  (FaultOnly.refuse s off).host
@[simp] theorem State.raiseFor_pending (s : State) (key code : Nat) (src : Word) (addr arg : Nat) : (s.raiseFor key code src addr arg).pending = s.pending :=
  (FaultOnly.raiseFor s key code src addr arg).pending
@[simp] theorem State.raiseFor_now (s : State) (key code : Nat) (src : Word) (addr arg : Nat) : (s.raiseFor key code src addr arg).now = s.now :=
  (FaultOnly.raiseFor s key code src addr arg).now
@[simp] theorem State.raiseFor_draws (s : State) (key code : Nat) (src : Word) (addr arg : Nat) : (s.raiseFor key code src addr arg).draws = s.draws :=
  (FaultOnly.raiseFor s key code src addr arg).draws
@[simp] theorem State.raiseFor_fuses (s : State) (key code : Nat) (src : Word) (addr arg : Nat) : (s.raiseFor key code src addr arg).fuses = s.fuses :=
  (FaultOnly.raiseFor s key code src addr arg).fuses
@[simp] theorem State.raiseFor_priv2 (s : State) (key code : Nat) (src : Word) (addr arg : Nat) : (s.raiseFor key code src addr arg).priv2 = s.priv2 :=
  (FaultOnly.raiseFor s key code src addr arg).priv2
@[simp] theorem State.raiseFor_snap0 (s : State) (key code : Nat) (src : Word) (addr arg : Nat) : (s.raiseFor key code src addr arg).snap0 = s.snap0 :=
  (FaultOnly.raiseFor s key code src addr arg).snap0
@[simp] theorem State.raiseFor_snap2 (s : State) (key code : Nat) (src : Word) (addr arg : Nat) : (s.raiseFor key code src addr arg).snap2 = s.snap2 :=
  (FaultOnly.raiseFor s key code src addr arg).snap2
@[simp] theorem State.raiseFor_tick (s : State) (key code : Nat) (src : Word) (addr arg : Nat) : (s.raiseFor key code src addr arg).tick = s.tick :=
  (FaultOnly.raiseFor s key code src addr arg).tick
@[simp] theorem State.raiseFor_core (s : State) (key code : Nat) (src : Word) (addr arg : Nat) : (s.raiseFor key code src addr arg).core = s.core :=
  (FaultOnly.raiseFor s key code src addr arg).core
@[simp] theorem State.raiseFor_clus (s : State) (key code : Nat) (src : Word) (addr arg : Nat) : (s.raiseFor key code src addr arg).clus = s.clus :=
  (FaultOnly.raiseFor s key code src addr arg).clus
@[simp] theorem State.raiseFor_eng (s : State) (key code : Nat) (src : Word) (addr arg : Nat) : (s.raiseFor key code src addr arg).eng = s.eng :=
  (FaultOnly.raiseFor s key code src addr arg).eng
@[simp] theorem State.raiseFor_chan (s : State) (key code : Nat) (src : Word) (addr arg : Nat) : (s.raiseFor key code src addr arg).chan = s.chan :=
  (FaultOnly.raiseFor s key code src addr arg).chan
@[simp] theorem State.raiseFor_rtr (s : State) (key code : Nat) (src : Word) (addr arg : Nat) : (s.raiseFor key code src addr arg).rtr = s.rtr :=
  (FaultOnly.raiseFor s key code src addr arg).rtr
@[simp] theorem State.raiseFor_port (s : State) (key code : Nat) (src : Word) (addr arg : Nat) : (s.raiseFor key code src addr arg).port = s.port :=
  (FaultOnly.raiseFor s key code src addr arg).port
@[simp] theorem State.raiseFor_mem (s : State) (key code : Nat) (src : Word) (addr arg : Nat) : (s.raiseFor key code src addr arg).mem = s.mem :=
  (FaultOnly.raiseFor s key code src addr arg).mem
@[simp] theorem State.raiseFor_memBad (s : State) (key code : Nat) (src : Word) (addr arg : Nat) : (s.raiseFor key code src addr arg).memBad = s.memBad :=
  (FaultOnly.raiseFor s key code src addr arg).memBad
@[simp] theorem State.raiseFor_fab (s : State) (key code : Nat) (src : Word) (addr arg : Nat) : (s.raiseFor key code src addr arg).fab = s.fab :=
  (FaultOnly.raiseFor s key code src addr arg).fab
@[simp] theorem State.raiseFor_mgr (s : State) (key code : Nat) (src : Word) (addr arg : Nat) : (s.raiseFor key code src addr arg).mgr = s.mgr :=
  (FaultOnly.raiseFor s key code src addr arg).mgr
@[simp] theorem State.raiseFor_sec (s : State) (key code : Nat) (src : Word) (addr arg : Nat) : (s.raiseFor key code src addr arg).sec = s.sec :=
  (FaultOnly.raiseFor s key code src addr arg).sec
@[simp] theorem State.raiseFor_nor (s : State) (key code : Nat) (src : Word) (addr arg : Nat) : (s.raiseFor key code src addr arg).nor = s.nor :=
  (FaultOnly.raiseFor s key code src addr arg).nor
@[simp] theorem State.raiseFor_att (s : State) (key code : Nat) (src : Word) (addr arg : Nat) : (s.raiseFor key code src addr arg).att = s.att :=
  (FaultOnly.raiseFor s key code src addr arg).att
@[simp] theorem State.raiseFor_mbx (s : State) (key code : Nat) (src : Word) (addr arg : Nat) : (s.raiseFor key code src addr arg).mbx = s.mbx :=
  (FaultOnly.raiseFor s key code src addr arg).mbx
@[simp] theorem State.raiseFor_pwr (s : State) (key code : Nat) (src : Word) (addr arg : Nat) : (s.raiseFor key code src addr arg).pwr = s.pwr :=
  (FaultOnly.raiseFor s key code src addr arg).pwr
@[simp] theorem State.raiseFor_rst (s : State) (key code : Nat) (src : Word) (addr arg : Nat) : (s.raiseFor key code src addr arg).rst = s.rst :=
  (FaultOnly.raiseFor s key code src addr arg).rst
@[simp] theorem State.raiseFor_host (s : State) (key code : Nat) (src : Word) (addr arg : Nat) : (s.raiseFor key code src addr arg).host = s.host :=
  (FaultOnly.raiseFor s key code src addr arg).host

/-! ### The gate of register writes -/

/-- A write that passes the gate has its effect. -/
theorem State.gate_open (s : State) (direct : Bool) (m : Master) (off : Nat) (v : Word) (f : State → State)
    (hup : s.hubUp = true) (hcl : (direct && m = 2 && s.host.closed) = false) (hm : s.mayWrite direct m off = true)
    (hr : rsvOk off v = true) : s.gate direct m off v f = f s := by
  unfold State.gate
  rw [if_neg (by rw [hup, hcl]; decide), if_pos (by rw [hm, hr]; rfl)]

/-- A write by a master that may not write, or with a reserved bit set, is a NOTE without other effect (R9, R477). -/
theorem State.gate_bad (s : State) (direct : Bool) (m : Master) (off : Nat) (v : Word) (f : State → State)
    (hup : s.hubUp = true) (hcl : (direct && m = 2 && s.host.closed) = false)
    (hb : (s.mayWrite direct m off && rsvOk off v) = false) : s.gate direct m off v f = s.badWrite m off := by
  unfold State.gate
  rw [if_neg (by rw [hup, hcl]; decide), if_neg (by rw [hb]; decide)]

/-- An admitted write has its effect. -/
theorem State.gate_admits {s : State} {m : Master} {off : Nat} {v : Word} (h : s.admits m off v = true)
    (f : State → State) : s.gate true m off v f = f s := by
  simp only [State.admits, Bool.and_eq_true, Bool.not_eq_true'] at h
  exact State.gate_open s true m off v f h.1.1.1 (by simpa using h.1.1.2) h.1.2 h.2

/-- A write turned away is a NOTE without other effect. -/
theorem State.gate_turnsAway {s : State} {m : Master} {off : Nat} {v : Word} (h : s.turnsAway m off v = true)
    (f : State → State) : s.gate true m off v f = s.badWrite m off := by
  simp only [State.turnsAway, Bool.and_eq_true, Bool.not_eq_true'] at h
  exact State.gate_bad s true m off v f h.1.1 (by simpa using h.1.2) h.2

/-- Nothing reaches a hub that is down. -/
theorem State.gate_down (s : State) (direct : Bool) (m : Master) (off : Nat) (v : Word) (f : State → State)
    (h : s.hubUp = false) : s.gate direct m off v f = s := by
  simp [State.gate, h]

end Sys2Proof.Machine
end

