-- ==== Sys2Proof/Machine/PinMap.lean ====
section
/-! DEFINITION. The pins: the place of a lane on the XC connectors (R456) and the state that every pin group takes (R472). -/

namespace Sys2Proof.Machine

/-! ### Lanes (R456) -/

/-- The rows of an XC connector, in order. -/
inductive XcRow where
  | a | b | c | d | e | f | g | h | j | k | l | m
  deriving DecidableEq, Repr

/-- Where a lane lies: connector, column, its transmit pair P and N, and its receive pair P and N. -/
structure LanePins where
  xc  : Nat
  col : Nat
  tx  : XcRow × XcRow
  rx  : XcRow × XcRow
  deriving DecidableEq, Repr

/-- The pins of a lane: half a of its column where its number on the connector is even, else half b (Table 3). -/
def lanePins (l : Nat) : LanePins :=
  let i := l % 36
  ⟨l / 36, i / 2 + 1, if i % 2 = 0 then (.b, .c) else (.e, .f), if i % 2 = 0 then (.h, .j) else (.l, .m)⟩

/-- The first of the two columns of a granule, on connector g / 9. -/
def granCol (g : Nat) : Nat := 2 * (g % 9) + 1

/-! ### Pin groups (R472) -/

/-- The columns of Table 10: which of the module's domains run. -/
inductive PinPhase where
  | absent     -- 12V_AUX absent
  | aon        -- always-on domain only
  | starting   -- module reset, or hub domain starting
  | operating
  deriving DecidableEq, Repr

/-- The pin groups of Table 10. -/
inductive PinGroup where
  | xarynTx | xarynRx | pcie | refclk | smbus | smbalert | faultN | straps | i2c | tap
  deriving DecidableEq, Repr

/-- What Table 10 gives a group. -/
inductive PinState where
  | open         -- undriven, without termination or load
  | undriven
  | idle         -- electrical idle, terminated
  | port         -- by the state of its port (R230)
  | terminated
  | link         -- by the link (R408)
  | wake         -- the wake front end alone (R397)
  | served       -- the SMBus target is served
  | released
  | low          -- driven low
  | input
  | active
  deriving DecidableEq, Repr

/-- The column of Table 10 in force. -/
def State.pinPhase (s : State) : PinPhase :=
  if s.pwr.off then .absent else if !s.hubUp then .aon else if !s.fwRuns then .starting else .operating

/-- An open-drain output: low or released. -/
def openDrain (low : Bool) : PinState := if low then .low else .released

/-- Table 10: the state of a pin group. -/
def State.pinState (s : State) (g : PinGroup) : PinState :=
  match g, s.pinPhase with
  | .xarynTx, .absent => .open
  | .xarynTx, .aon => .undriven
  | .xarynTx, .starting => .idle
  | .xarynTx, .operating => .port
  | .xarynRx, .absent => .open
  | .xarynRx, .aon => .open
  | .xarynRx, _ => .terminated
  | .pcie, .absent => .open
  | .pcie, .aon => .open
  | .pcie, .starting => .idle
  | .pcie, .operating => .link
  | .refclk, .absent => .open
  | .refclk, .aon => .open
  | .refclk, _ => .terminated
  | .smbus, .absent => .open
  | .smbus, .aon => .wake
  | .smbus, _ => .served
  | .smbalert, .absent => .released
  | .smbalert, _ => openDrain s.pins.alertN
  | .faultN, .absent => .released
  | .faultN, _ => openDrain s.pins.faultN
  | .straps, .absent => .open
  | .straps, _ => .input
  | .i2c, .operating => .active
  | .i2c, _ => .open
  | .tap, .absent => .open
  | .tap, .aon => .open
  | .tap, _ => .active

end Sys2Proof.Machine
end

