-- ==== Sys2Proof/Tests/Slice0.lean ====
section
/-! SUPPORT. Tests: ill-formed commands that WellFormed refuses, the power-on sequence, single steps against worked examples of
spec/, and for every statement a state and operands that meet the hypotheses of each of its clauses. -/

namespace Sys2Proof.Tests

set_option linter.unusedVariables false
set_option Elab.async false

open Sys2Proof Sys2Proof.Machine

/-- The reset state with fields set. -/
def st (l : List (Fld × Nat)) : State := l.foldl (fun s e => s.fset e.1 e.2) State.reset
/-- A register word with fields set. -/
def wd (l : List (Fld × Nat)) : Word := l.foldl (fun w e => e.1.into w e.2) 0

/-- The module before 12V_AUX power-on: nothing runs, and no power cycle has been counted. -/
def off0 : State :=
  { State.reset with
    pwr := { State.reset.pwr with off := true, stage := 1, mainGood := false }, port := [], evr := [],
    regs := State.reset.regs.take 4, nor := { State.reset.nor with cycles := 0 } }

/-- A SLICE_MAP whose one member is this module with a mask of partitions. -/
def mapSect (mask : Nat) : Sect := ⟨0x0002, everyHub, 0, leBytes 96 (5 + 2 ^ 128) ++ leBytes 4 (mask * 4096)⟩

/-- Slice 5 in RUN in context 15 on partition 0, with sections of its rigging. -/
def run (l : List Sect) : State :=
  { st [(TCK_SL_STAT.STATE 15, 2), (TCK_SL_STAT.SLICE_ID 15, 5), (RIG_SL_STAT.ACTIVE 15, 1), (RIG_SL_STAT.SLICE_ID 15, 5)] with
    ctx := [(15, { CtxSt.init with started := true, active := mapSect 1 :: l })],
    part := (0, { PartSt.init with owner := some 15 }) :: State.reset.part.tail, now := 16 }

/-- The same slice, whose core 0 of cluster 0 has a header, in-port words and one entry before its END. -/
def coreRun (hdr in0 in1 d : Nat) : State :=
  run [⟨0x0010, routerAgent 0 0 0, 1, leBytes 16 0 ++ leBytes 16 hdr ++ leBytes 8 in0 ++ leBytes 8 in1 ++ leBytes 512 d⟩]

/-- A packet of zeros. -/
def pk0 : Packet :=
  { typ := 0, cls := 0, last := false, rbw := false, len := 0, slice := 0, esc := false, epochLo := 0, tick := 0, attempt := 0,
    gen := 0, dest := 0, src := 0, count := 0, seq := 0, msg := 0, slot := 0, addr := 0, aux := 0, hcrc := 0, payload := [], perr := [] }

/-- Core 0 of cluster 0 of partition 0. -/
def c0 : CoreId := ⟨0, 0, 0⟩

/-- Slice 5 with a MASTER region, whose engine 0 has ended a run of a job that mirrors it. -/
def mirrored : State :=
  { run [⟨0x0030, endpointAgent 0 0, 1, leBytes 16 (1 * 8 + 8 * 2 ^ 64)⟩,
      ⟨0x0032, endpointAgent 0 0, 1, leBytes 16 0 ++ leBytes 96 (2 ^ 8 + 2 ^ 32 + 2 ^ 64)⟩,
      ⟨0x0031, endpointAgent 0 0, 1, leBytes 160 (1 + 0x4A0 * 2 ^ 64)⟩] with
    eng := [(0, { EngSt.init with jobDone := [(0, 0)] })] }

/-- A frame that passes CRC: units under one tag, then IDLE units. -/
def frm (us : List XUnit) (tag : BitVec 7) : FrameMsg :=
  let m : FrameMsg :=
    { units := us ++ List.replicate (20 - us.length) 0, tags := us.map (fun _ => tag) ++ List.replicate (20 - us.length) 0,
      seq := 0, ack := 0, cs := 0, crc := 0 }
  { m with crc := BitVec.ofNat 32 (crc32Bits (frameBits m)) }

/-- A manifest of group 0, of 16 positions, with its manager positions and some of its modules, the D0 port of each PRESENT. -/
def man (pri sby : Nat) (ms : List Nat) : List Byte :=
  leBytes 64 (2 ^ 128 + ms.length * 2 ^ 144) ++ leBytes 64 (pri * 2 ^ 8 + sby * 2 ^ 14) ++
    ms.flatMap (fun m => leBytes 32 (m + 1) ++ leBytes 288 (m + 2 ^ 298))

/-- Port 0 ACTIVE with eight lanes, and the entry of position 1 with it as escape port. -/
def linked : State :=
  { (st [(LNK_STAT.STATE 0, 6)]).setReg (FAB_POS_ACT.off 1) 0x1000000 with
    port := [(0, { State.reset.po 0 with txAct := List.range 8, rxAct := List.range 8 })] }

/-- Module 0 of a group of the modules 0 and 1, its managers, in a role, with firmware and D0 ACTIVE; fields set. -/
def grp (role : Nat) (l : List (Fld × Nat)) : State :=
  { l.foldl (fun s e => s.fset e.1 e.2) (((((linked.fset FAB_MGR_STAT.ROLE role).fset FAB_MGR_ID.VALID 1).fset FAB_MGR_ID.ACTING
      1).fset FAB_SELF.VALID 1).fset SEC_FW_STAT.PHASE 3) with
    now := 10 ^ 12, mgr := { MgrSt.init with manifest := man 0 1 [0, 1] } }

/-- A manifest of the groups 0 and 1, two modules each, all of them managers, and the groups of the coordinator and its standby. -/
def man2 (co : Nat) : List Byte :=
  leBytes 64 (2 * 2 ^ 128 + 4 * 2 ^ 144 + co * 2 ^ 160) ++ leBytes 64 (2 ^ 14 + (1 + 2 ^ 14) * 2 ^ 128) ++
    [0, 1, 64, 65].flatMap (fun m => leBytes 32 (m + 1) ++ leBytes 288 (m + 2 ^ 298))

/-- Module 0 of a group beside group 1, to which port 5 leads. -/
def grp2 (role co : Nat) (l : List (Fld × Nat)) : State :=
  let s := (grp role l).setReg (FAB_GRP_ACT.off 1 0) (BitVec.ofNat 32 (5 * 2 ^ 6 + 2 ^ 10 + 2 ^ 15))
  { s with mgr := { s.mgr with manifest := man2 co } }

/-- A management packet from the hub of module 64. -/
def from64 (code : Byte) (term : Nat) (msg : BitVec 16) (body : List Byte) : Packet :=
  { pk0 with aux := code, src := hubEp 64, msg := msg, payload := preamble term 64 false false false 0 0 0 0 ++ body }

/-- A management packet from the hub of module 1: code, term, MSG and body. -/
def from1 (code : Byte) (term : Nat) (msg : BitVec 16) (body : List Byte) : Packet :=
  { pk0 with aux := code, src := hubEp 1, msg := msg, payload := preamble term 1 false false false 0 0 0 0 ++ body }

/-- The arguments of a host command in FAB_CMD_ARG. -/
def args (l : List Nat) (s : State) : State :=
  (List.range l.length).foldl (fun s i => s.setReg (FAB_CMD_ARG.off i) (BitVec.ofNat 32 (l.getD i 0))) s

/-- Bytes at address 0 of LPDDR5. -/
def mem0 (l : List Byte) (s : State) : State := { s with mem := putBytes [] 0 l }

/-! ### WellFormed refuses ill-formed operands, one for each check -/

/-- A packet whose LEN is not its payload's length. -/
def short : Packet := { pk0 with len := 1 }

theorem test_wf_accepts : (Instr.mgt pk0 none).wf = true := by decide
theorem test_wf_master : (Instr.registerWrite 0x70 0 15 0).wf = false := by decide
theorem test_wf_aligned : (Instr.registerWrite 0 2 15 0).wf = false := by decide
theorem test_wf_master_row : (Instr.pop 4 0).wf = false := by decide
theorem test_wf_len : (Instr.mgt short none).wf = false := by decide
theorem test_wf_long : (Packet.wf { pk0 with len := 1025, payload := List.replicate 1025 0 }) = false := by decide +kernel
theorem test_wf_type : (Instr.stream pk0).wf = false := by decide
theorem test_wf_arrival : (Instr.inPortLanding c0 true (.packet short)).wf = false := by decide
theorem test_wf_levels : (Instr.frame 0 ⟨0, [.levels []]⟩).wf = false := by decide
theorem test_wf_lanes : (Instr.frame 0 ⟨0, List.replicate 33 .lost⟩).wf = false := by decide
theorem test_wf_block : (Instr.trainingBlock 0 0 [] []).wf = false := by decide
theorem test_wf_group : (Instr.repairComplete 0 (.restore 0 0 0xE00000)).wf = false := by decide
theorem test_wf_header : (Instr.repairComplete 0 (.slot 0 0 0xFFFFFFFFF)).wf = false := by decide
theorem test_wf_mirror : (Instr.mirrorRestore 0 0 0 [0]).wf = false := by decide
theorem test_wf_tether : (Instr.tether (some short)).wf = false := by decide
theorem test_wf_discover : (Instr.discover (.recv short 0)).wf = false := by decide
theorem test_wf_read : (Instr.bar2Read 0 0).wf = false := by decide
theorem test_wf_write : (Instr.bar2Write 0 false []).wf = false := by decide
theorem test_wf_intake : (Instr.intakeRead 2 0 4).wf = false := by decide
theorem test_wf_function : (Instr.flr 0x50).wf = false := by decide
theorem test_wf_records : (Instr.evrRead 0 8).wf = false := by decide
theorem test_wf_message : (Instr.mbxSend 0 []).wf = false := by decide
theorem test_wf_sensors : (Instr.sensorUpdate ⟨[], 0, 0, 0, 0, 0, 0⟩).wf = false := by decide

/-! ### The queue, the table word and the way to the reset state -/

/-- No row of the opcode table gives bits. -/
theorem test_no_word : decodeTableWord 32 0 = none ∧ State.reset.withFetchWord 32 0 = State.reset := by decide +kernel

/-- State.reset is the module after 12V_AUX and then a good main input, from before power-on (R379, R381). -/
theorem test_power_on : (off0.auxPowerOn 0).mainInputGood = State.reset := by decide +kernel

/-! ### Worked examples of spec/ -/

/-- 03_number_formats.md, R77: HK6A code 0x37 is −7 and HK6B code 0x1D is 6.5. -/
theorem test_hank_elements : elemVal 1 0x37 = -7 ∧ elemVal 2 0x1D = mkRat 13 2 := by decide +kernel

/-- 03_number_formats.md, the CONVERT example: scale code 0x81 and codes 5, 9, 0, 0 (Table 8, nearest-even). -/
theorem test_convert_auto :
    let h := (toHank 0 0 none ⟨1, []⟩ ([Val.ofRat (mkRat 132 10), Val.ofRat (mkRat (-27) 10), .fin false 1,
      Val.ofRat (mkRat 1 10)] ++ List.replicate 28 (.fin false 0))).1
    h.scale = 0x81 ∧ h.codes.take 4 = [5, 9, 0, 0] := by decide +kernel

/-- The same example: −0.675 with the draw 0xB000 is −1.0, and 6.6 saturates at 6. -/
theorem test_convert_draw_and_sat :
    (roundElem 0 2 0xB000 (mkRat (-675) 1000)).1 = 0xA ∧ roundElem 0 0 0 (mkRat 66 10) = (7, { sat := true }) := by
  decide +kernel

/-- R94: 490 into HK8A under FIXED scale code 0x7F is 480 with SAT. -/
theorem test_fixed_sat : elemVal 3 (roundElem 3 0 0 490).1 = 480 ∧ (roundElem 3 0 0 490).2.sat = true := by decide +kernel

/-- 03_number_formats.md, Table 6: the three pairs are exact with the narrow one first; a fourth below λ loses its bit. -/
theorem test_accumulator :
    let a := ((Acc.zero.add 1 (-56) (-15)).add 1 (-13) 28).add 1 (-39) 2
    a.anchor = some 28 ∧ a.loss = false ∧ a.c = 2 ^ 47 + 2 ^ 21 + 2 ^ 4 ∧ (a.add 1 (-78) (-37)).loss = true := by
  decide +kernel

/-- 04_compute_core.md: entry 0 of the example step table. -/
theorem test_descriptor :
    let d := descOf (bytesOf [0x00388331, 0x10010000, 0x2C3CB8A4, 0x00040000])
    d.op = 1 ∧ d.fmtA = 3 ∧ d.fmtB = 3 ∧ d.fmtD = 8 ∧ d.clr = true ∧ d.rdo = true ∧ d.addrA = 0 ∧ d.addrB = 0x800 ∧
      d.addrD = 0x400 ∧ d.addrX = 0x1148 ∧ d.cntK = 11 ∧ d.cntR = 15 ∧ d.cntN = 11 ∧ d.muEn = true ∧ d.rsv = 0 := by
  decide +kernel

/-- 05_memory_and_update.md: MLA 0x55_4001_0A40. -/
theorem test_mla : mlaPart 0x5540010A40 = 5 ∧ mlaChan 0x5540010A40 = 3 ∧ mlaCda 0x5540010A40 = 0x10A40 := by decide

/-- 01_module_overview.md: module 0x26B and its D0, D4 and FOLD neighbours. -/
theorem test_position :
    modGroup 0x26B = 9 ∧ modPos 0x26B = 43 ∧ portPeer 6 43 0 = some 42 ∧ portPeer 6 43 4 = some 59 ∧ portPeer 6 43 6 = some 20 := by
  decide

/-- 07_fabric_on_module.md: LPDDR5 channel 6 attaches at (5, 6), with the alternate (5, 5). -/
theorem test_channel : memPos 6 = (10 * 6 + 5, 10 * 5 + 5) := by decide

/-- 09_topology_and_routing.md: the e-cube escape from position 43 to 12 runs by D3, D4 and FOLD. -/
theorem test_escape_path :
    ecube 6 43 12 = some 3 ∧ ecube 6 35 12 = some 4 ∧ ecube 6 51 12 = some 6 := by decide

/-- 02_step_tick.md: a stretched period of 5,000 units is 6,667 units. -/
theorem test_stretch :
    let s := { State.reset with now := 10 ^ 6, tick := { State.reset.tick with reqDip := true, reqAt := 0 } }
    s.newTick.tick.len = 6667 ∧ s.newTick.flag TCK_STRETCH.ACTIVE = true := by decide +kernel

/-- The check values that the catalogues of the two algorithms give: CRC-16 of "123456789", and SHAKE256 of no bytes. -/
theorem test_digests :
    crc16 [0x31, 0x32, 0x33, 0x34, 0x35, 0x36, 0x37, 0x38, 0x39] = 0x29B1 ∧
      shake256 8 [] = [0x46, 0xB9, 0xDD, 0x2B, 0x0B, 0xA8, 0x8D, 0x13] := by decide +kernel

/-- A channel of DEPTH 2 from PF0 to VF 0, as the example of 15_host_and_mailboxes.md binds it, without its interrupt. -/
def chan21 (q : List Nat) : State :=
  { st [(MBX_CTL.LOCK, 1), (MBX_BIND_W0.VALID 0x21, 1), (MBX_BIND_W0.SENDER 0x21, 2), (MBX_BIND_W0.RECEIVER 0x21, 0x10),
      (MBX_BIND_W0.DEPTH 0x21, 1)] with
    mbx := [(0x21, { MbxCh.init with queue := q.map (fun k => ⟨List.replicate 16 (BitVec.ofNat 32 k), 0, 0, false⟩) })] }

/-- The same example: C posted to a full channel takes the place of B and sets COLLISION. -/
theorem test_collision :
    (match execPost 2 0x21 7 (chan21 [1, 2]) with
      | .next t => ((t.mb 0x21).queue.map (fun m => m.words.getLast?), t.flag (MBX_STAT.COLLISION 0x21))
      | _ => ([], false)) = ([some 1, some 7], true) := by decide +kernel

/-- Every clause of IdleStep has a state and operands that meet its hypotheses. -/
theorem meets_IdleStep :
    (let s : State := State.reset
     s.pending = []) := by decide +kernel

/-- A freeze entry of a slice that this module does not hold. -/
def frozen : State := { State.reset with flt := { State.reset.flt with frz := [(0, { FrzEnt.init with kind := 1 })] } }

/-- Every clause of CollectorWrites has a state and operands that meet its hypotheses. -/
theorem meets_CollectorWrites :
    (let s : State := State.reset
     let m : Master := 0
     let v : Word := wd [(FLT_Q_POP.POP, 1)]
     s.admits m FLT_Q_POP.off v = true) ∧
    (let s : State := State.reset
     let m : Master := 0
     let v : Word := wd [(FLT_SRC_CLR.ALL, 1)]
     s.admits m FLT_SRC_CLR.off v = true) ∧
    (let s : State := frozen
     let m : Master := 0
     let v : Word := wd [(FLT_FRZ_CMD.RELEASE, 1)]
     s.admits m FLT_FRZ_CMD.off v = true ∧
     FLT_FRZ_CMD.RELEASE.of v = 1 ∧
     (s.frzEnt (FLT_FRZ_CMD.INDEX.of v)).kind ≠ 0 ∧
     (s.ctxOf (s.frzEnt (FLT_FRZ_CMD.INDEX.of v)).slice).all (fun n => s.slState n = 0 || s.slState n = 5) = true) ∧
    (let s : State := st [(FLT_CTL.LOCK, 1), (FLT_CTL.INJ_EN, 1)]
     let m : Master := 0
     let v : Word := wd [(FLT_CTL.INJ_EN, 1)]
     s.admits m FLT_CTL.off v = true ∧
     (s.flag FLT_CTL.LOCK = true → FLT_CTL.INJ_EN.of v = s.fget FLT_CTL.INJ_EN)) ∧
    (let s : State := st [(FLT_CTL.INJ_EN, 1)]
     let m : Master := 0
     let v : Word := wd [(FLT_FORCE.GO, 1), (FLT_FORCE.CODE, 0x0105)]
     s.admits m FLT_FORCE.off v = true ∧
     s.flag FLT_CTL.INJ_EN = true ∧
     s.flt.force = none ∧
     FLT_FORCE.GO.of v = 1) ∧
    (let s : State := State.reset
     let m : Master := 0
     let v : Word := wd [(FLT_DUMP_CTL.START, 1)]
     s.admits m FLT_DUMP_CTL.off v = true ∧
     s.flag FLT_DUMP_STAT.BUSY = false ∧
     FLT_DUMP_CTL.START.of v = 1) := by
  refine ⟨?_, ?_, ?_, ?_, ?_, ?_⟩ <;> decide +kernel

/-- A forced core fault that is not yet detected. -/
def f0 : FaultMsg := { code := 0x0001, inj := true, gen := 0, src := 0, addr := 0, arg := 0 }

/-- Every clause of CollectorEvents has a state and operands that meet its hypotheses. -/
theorem meets_CollectorEvents :
    (let s : State := { State.reset with now := 2 ^ 40, flt := { FltSt.init with srcs := [(0, ⟨1, 1, 1, 0, 0, 0⟩)] } }
     let e : Fin 512 := 0
     s.srcExpired (s.srcEnt e.val) = true) ∧
    (let s : State := { State.reset with flt := { FltSt.init with pulse := some 0 } }
     let u : Nat := 0
     s.flt.pulse = some u ∧
     u ≤ s.now) ∧
    (let s : State := { State.reset with flt := { FltSt.init with force := some f0 } }
     let f : FaultMsg := f0
     s.flt.force = some f ∧
     (f.code = 0x0001 ∨ f.code = 0x0002) ∧
     f.src = 0 ∧
     s.flt.queue.length < 1024) ∧
    (let s : State := { st [(FLT_DUMP_STAT.BUSY, 1)] with flt := { FltSt.init with dump := { DumpSt.init with left := [0] } } }
     let a : DumpAnswer := .noResponse 0
     let r : Nat := 0
     let rest : List Nat := []
     let mute := match a with | .noResponse _ => true | _ => false
     let silent := !s.dumpDark r && (s.dumpDead r || mute)
     s.flt.dump.left = r :: rest ∧
     s.hubUp = true ∧
     s.flag FLT_DUMP_STAT.BUSY = true ∧
     silent = true) ∧
    (let s : State := { st [(FLT_DUMP_STAT.BUSY, 1)] with flt := { FltSt.init with dump := { DumpSt.init with left := [0] } } }
     let a : DumpAnswer := .ok
     let r : Nat := 0
     let rest : List Nat := []
     let mute := match a with | .noResponse _ => true | _ => false
     let silent := !s.dumpDark r && (s.dumpDead r || mute)
     s.flt.dump.left = r :: rest ∧
     s.hubUp = true ∧
     s.flag FLT_DUMP_STAT.BUSY = true ∧
     silent = false) ∧
    (let s : State := st [(FLT_DUMP_STAT.BUSY, 1)]
     s.hubUp = true ∧
     s.flag FLT_DUMP_STAT.BUSY = true ∧
     s.flt.dump.left = [] ∧
     s.flag FLT_STAT.GRAVE = false) ∧
    (let s : State := { st [(FLT_STAT.GRAVE, 1)] with now := 2 ^ 40, flt := { FltSt.init with graveAt := some 0 } }
     let u : Nat := 0
     s.flt.graveAt = some u ∧
     s.flag FLT_STAT.GRAVE = true ∧
     s.flt.graveDone = false ∧
     u + sUnits (s.fget FLT_DUMP_CTL.HOLD_LIM) ≤ s.now) := by
  refine ⟨?_, ?_, ?_, ?_, ?_, ?_, ?_⟩ <;> decide +kernel

/-- Every clause of UnitResets has a state and operands that meet its hypotheses. -/
theorem meets_UnitResets :
    (let s : State := State.reset
     let m : Master := 0
     let p : PartId := 0
     let v : Word := wd [(PRT_RST_CMD.CMD p.val, 1), (PRT_RST_CMD.CLUS p.val, 74), (PRT_RST_CMD.CORE p.val, 249)]
     s.admits m (PRT_RST_CMD.off p.val) v = true ∧
     s.partResetting p.val = false ∧
     (PRT_RST_CMD.CMD p.val).of v = 1 ∧
     (PRT_RST_CMD.CLUS p.val).of v < 75 ∧
     (PRT_RST_CMD.CORE p.val).of v < 250) ∧
    (let s : State := State.reset
     let m : Master := 0
     let p : PartId := 0
     let v : Word := wd [(PRT_RST_CMD.CMD p.val, 2), (PRT_RST_CMD.CLUS p.val, 74)]
     s.admits m (PRT_RST_CMD.off p.val) v = true ∧
     s.partResetting p.val = false ∧
     (PRT_RST_CMD.CMD p.val).of v = 2 ∧
     (PRT_RST_CMD.CLUS p.val).of v < 75 ∧
     (s.pt p.val).bypass.all (fun x => x = s.physClus p.val ((PRT_RST_CMD.CLUS p.val).of v)) = true) ∧
    (let s : State := State.reset
     let m : Master := 0
     let p : PartId := 0
     let v : Word := wd [(PRT_RST_CMD.CMD p.val, 3), (PRT_RST_CMD.ENGINE p.val, 7)]
     s.admits m (PRT_RST_CMD.off p.val) v = true ∧
     s.partResetting p.val = false ∧
     (PRT_RST_CMD.CMD p.val).of v = 3) := by
  refine ⟨?_, ?_, ?_⟩ <;> decide +kernel

/-- Every clause of PartitionAndModuleResets has a state and operands that meet its hypotheses. -/
theorem meets_PartitionAndModuleResets :
    (let s : State := st [(PWR_STAT.MOVING, 0)]
     let m : Master := 0
     let p : PartId := 0
     let v : Word := wd [(PRT_RST_CMD.CMD p.val, 4)]
     s.admits m (PRT_RST_CMD.off p.val) v = true ∧
     (PRT_RST_CMD.CMD p.val).of v = 4 ∧
     s.partResetting p.val = false ∧
     s.flag PWR_STAT.MOVING = false ∧
     (s.pt p.val).held = false) ∧
    (let s : State := st [(PWR_STAT.MOVING, 1)]
     let m : Master := 0
     let p : PartId := 0
     let v : Word := wd [(PRT_RST_CMD.CMD p.val, 4)]
     s.admits m (PRT_RST_CMD.off p.val) v = true ∧
     (PRT_RST_CMD.CMD p.val).of v = 4 ∧
     s.partResetting p.val = false ∧
     s.flag PWR_STAT.MOVING = true) ∧
    (let s : State := State.reset
     let m : Master := 0
     let v : Word := wd [(HUB_RST_CMD.CMD, 1)]
     s.admits m HUB_RST_CMD.off v = true ∧
     HUB_RST_CMD.CMD.of v = 1 ∧
     s.rst.modWait = false ∧
     s.flag PWR_STAT.MOVING = false) ∧
    (let s : State := st [(PWR_STAT.MOVING, 1)]
     let m : Master := 0
     let v : Word := wd [(HUB_RST_CMD.CMD, 1)]
     s.admits m HUB_RST_CMD.off v = true ∧
     HUB_RST_CMD.CMD.of v = 1 ∧
     s.rst.modWait = false ∧
     s.flag PWR_STAT.MOVING = true) ∧
    (let s : State := State.reset
     let m : Master := 0
     let v : Word := wd [(HUB_RST_CMD.CMD, 2), (HUB_RST_CMD.CTX, 15)]
     s.admits m HUB_RST_CMD.off v = true ∧
     HUB_RST_CMD.CMD.of v = 2) ∧
    (let s : State := State.reset
     let m : Master := 0
     let v : Word := wd [(HUB_RST_CMD.CMD, 3)]
     s.admits m HUB_RST_CMD.off v = true ∧
     HUB_RST_CMD.CMD.of v = 3 ∧
     s.host.drain = none) ∧
    (let s : State := State.reset
     let m : Master := 0
     let v : Word := wd [(HUB_RST_CMD.CMD, 4)]
     s.admits m HUB_RST_CMD.off v = true ∧
     HUB_RST_CMD.CMD.of v = 4) ∧
    (let s : State := State.reset
     let m : Master := 0
     let v : Word := wd [(HUB_RST_CTL.WDT_KICK, 1)]
     s.admits m HUB_RST_CTL.off v = true ∧
     HUB_RST_CTL.WDT_KICK.of v = 1) := by
  refine ⟨?_, ?_, ?_, ?_, ?_, ?_, ?_, ?_⟩ <;> decide +kernel

/-- Every clause of RetirementsAndRotation has a state and operands that meet its hypotheses. -/
theorem meets_RetirementsAndRotation :
    (let s : State := State.reset
     let m : Master := 0
     let p : PartId := 0
     let v : Word := wd [(PRT_RST_CMD.CMD p.val, 5), (PRT_RST_CMD.CLUS p.val, 74), (PRT_RST_CMD.CORE p.val, 249)]
     let c : Fin 75 := 74
     let i : Fin 250 := 249
     s.admits m (PRT_RST_CMD.off p.val) v = true ∧
     (PRT_RST_CMD.CMD p.val).of v = 5 ∧
     (PRT_RST_CMD.CLUS p.val).of v = c.val ∧
     (PRT_RST_CMD.CORE p.val).of v = i.val) ∧
    (let s : State := State.reset
     let m : Master := 0
     let p : PartId := 0
     let v : Word := wd [(PRT_RST_CMD.CMD p.val, 6), (PRT_RST_CMD.CLUS p.val, 74)]
     let c : Fin 75 := 74
     s.admits m (PRT_RST_CMD.off p.val) v = true ∧
     (PRT_RST_CMD.CMD p.val).of v = 6 ∧
     (PRT_RST_CMD.CLUS p.val).of v = c.val) ∧
    (let s : State := State.reset
     let m : Master := 0
     let p : PartId := 0
     let v : Word := wd [(PRT_RST_CMD.CMD p.val, 7), (PRT_RST_CMD.ENGINE p.val, 7)]
     let e : Fin 8 := 7
     s.admits m (PRT_RST_CMD.off p.val) v = true ∧
     (PRT_RST_CMD.CMD p.val).of v = 7 ∧
     (PRT_RST_CMD.ENGINE p.val).of v = e.val) ∧
    (let s : State := State.reset
     let m : Master := 0
     let p : PartId := 0
     let v : Word := wd [(PRT_RST_CMD.CMD p.val, 8)]
     s.admits m (PRT_RST_CMD.off p.val) v = true ∧
     (PRT_RST_CMD.CMD p.val).of v = 8 ∧
     (s.pt p.val).owner = none) ∧
    (let s : State := { State.reset with part := [(0, { PartSt.init with waiting := [.core 0 0] })] }
     let p : PartId := 0
     let c : Fin 75 := 0
     let i : Fin 250 := 0
     let q : Nat := 250
     (s.pt p.val).owner = none ∧
     .core c i ∈ (s.pt p.val).waiting ∧
     (s.spareCores p.val c.val).head? = some q ∧
     s.flt.held.all (fun e => e.2 ≠ .action (Retiree.key p (.core c i))) = true) := by
  refine ⟨?_, ?_, ?_, ?_, ?_⟩ <;> decide +kernel

/-- Every clause of DrainsAndLadder has a state and operands that meet its hypotheses. -/
theorem meets_DrainsAndLadder :
    (let s : State := { State.reset with part := [(0, { PartSt.init with drain := some .partition })] }
     let p : PartId := 0
     (s.pt p.val).drain = some .partition ∧
     s.outbound p.val = 0) ∧
    (let s : State := { State.reset with now := 10 ^ 9, part := [(0, { PartSt.init with drain := some .partition })] }
     let p : PartId := 0
     (s.pt p.val).drain = some .partition ∧
     s.flt.incidents = [] ∧
     (s.pt p.val).drainAt + usUnits (s.fget (PRT_RST_CTL.DRAIN p.val)) ≤ s.now) ∧
    (let s : State := { st [(PRT_RST_STAT.STATE 0, 2), (PRT_RST_CTL.REAPPLY 0, 0)] with pwr := { State.reset.pwr with stage := 8 } }
     let p : PartId := 0
     s.fget (PRT_RST_STAT.STATE p.val) = 2 ∧
     (s.pt p.val).held = false ∧
     8 ≤ s.pwr.stage ∧
     s.fget PWR_STAT.STATE = 0 ∧
     s.flag PWR_STAT.MOVING = false ∧
     s.flag PWR_STAT.PEND = false ∧
     (s.pt p.val).reapply.all (fun n => !s.ticking n.val) = true ∧
     s.flag (PRT_RST_CTL.REAPPLY p.val) = false) ∧
    (let s : State := State.reset
     True) ∧
    (let s : State := { st [(SEC_FW_STAT.PHASE, 3)] with now := 10 ^ 12 }
     s.fwRuns = true ∧
     s.rst.kickAt + msUnits (s.fget HUB_RST_CTL.WDT) ≤ s.now ∧
     s.incident none 0x0003 [0] = none ∧
     s.rst.modWait = false) := by
  refine ⟨?_, ?_, ?_, ?_, ?_⟩ <;> decide +kernel

/-- Every clause of SliceCommands has a state and operands that meet its hypotheses. -/
theorem meets_SliceCommands :
    (let s : State := st [(TCK_SL_CMD_AT_LO.LO 15, 1)]
     let m : Master := 0
     let v : Word := wd [(TCK_SL_CTL.CMD_ARM 15, 1), (TCK_SL_CTL.CMD 15, 2)]
     let n : Ctx := 15
     s.admits m (TCK_SL_CTL.off n.val) v = true ∧
     (TCK_SL_CTL.CMD_ARM n.val).of v = 1) ∧
    (let s : State := { st [(TCK_SL_CTL.CMD_ARM 15, 1), (TCK_SL_CTL.CMD 15, 1), (TCK_SL_STAT.STATE 15, 5), (TCK_CTL.ROLE, 1), (RIG_SL_STAT.ACTIVE 15, 1)] with ctx := [(15, { CtxSt.init with active := [⟨0x0003, everyHub, 0, leBytes 4 5000⟩] })] }
     let n : Ctx := 15
     s.cmdDue n.val 1 = true ∧
     s.slState n.val = 5 ∧
     s.isLocked = true ∧
     s.flag FLT_STAT.GRAVE = false ∧
     s.fget PWR_STAT.STATE = 0 ∧
     s.flag (RIG_SL_STAT.ACTIVE n.val) = true ∧
     (s.sched n.val).period = s.fget TCK_PERIOD.PERIOD) ∧
    (let s : State := st [(TCK_SL_CTL.CMD_ARM 15, 1), (TCK_SL_CTL.CMD 15, 2), (TCK_SL_STAT.STATE 15, 4)]
     let n : Ctx := 15
     s.cmdDue n.val 2 = true ∧
     (s.cx n.val).commitTick = false ∧
     2 ≤ s.slState n.val ∧
     s.slState n.val ≤ 4) ∧
    (let s : State := st [(TCK_SL_CTL.CMD_ARM 15, 1), (TCK_SL_CTL.CMD 15, 3), (TCK_SL_STAT.STATE 15, 5)]
     let n : Ctx := 15
     s.cmdDue n.val 3 = true ∧
     s.slState n.val = 5) := by
  refine ⟨?_, ?_, ?_, ?_⟩ <;> decide +kernel

/-- Every clause of BoundaryCommitsOrReplays has a state and operands that meet its hypotheses. -/
theorem meets_BoundaryCommitsOrReplays :
    (let s : State := st [(TCK_SL_STAT.STATE 15, 2)]
     let n : Ctx := 15
     s.flag TCK_CTL.TM_EN = true ∧
     s.step + 1 < 2 ^ 64 ∧
     s.tick.roleNext = none ∧
     s.fab.adaptAt = none ∧
     (∀ k, k < 16 → s.fget (RIG_SL_STAT.SHADOW k) = 0 ∧ (k ≠ n.val → s.slState k = 0)) ∧
     s.slState n.val = 2 ∧
     (s.cx n.val).commitTick = false ∧
     (s.cx n.val).holdNext = none ∧
     s.flag (TCK_SL_CTL.CMD_ARM n.val) = false ∧
     s.slStep n.val + 1 < 2 ^ 64 ∧
     s.flt.held = [] ∧
     (s.cx n.val).aborted = false) ∧
    (let s : State := { st [(TCK_SL_STAT.STATE 15, 2)] with ctx := [(15, { CtxSt.init with aborted := true })] }
     let n : Ctx := 15
     s.flag TCK_CTL.TM_EN = true ∧
     s.step + 1 < 2 ^ 64 ∧
     s.tick.roleNext = none ∧
     s.fab.adaptAt = none ∧
     (∀ k, k < 16 → s.fget (RIG_SL_STAT.SHADOW k) = 0 ∧ (k ≠ n.val → s.slState k = 0)) ∧
     s.slState n.val = 2 ∧
     (s.cx n.val).commitTick = false ∧
     (s.cx n.val).holdNext = none ∧
     s.flag (TCK_SL_CTL.CMD_ARM n.val) = false ∧
     s.slStep n.val + 1 < 2 ^ 64 ∧
     s.flt.held = [] ∧
     (s.cx n.val).aborted = true ∧
     (s.cx n.val).repairs = [] ∧
     s.fget (TCK_SL_STAT.ATTEMPT n.val) < s.fget (TCK_SL_CTL.MAX_REPLAY n.val)) := by decide +kernel

/-- Every clause of TickEvents has a state and operands that meet its hypotheses. -/
theorem meets_TickEvents :
    (let s : State := st [(TCK_SL_STAT.STATE 15, 2)]
     let n : Ctx := 15
     s.ticking n.val = true ∧
     (s.cx n.val).aborted = false ∧
     (s.cx n.val).commitTick = false ∧
     (s.cx n.val).started = false) ∧
    (let s : State := st [(TCK_SL_STAT.STATE 15, 2), (RIG_SL_STAT.ACTIVE 15, 1), (RIG_SL_STAT.SLICE_ID 15, 5), (TCK_SL_STAT.SLICE_ID 15, 5)]
     let n : Ctx := 15
     let slice : BitVec 12 := 5
     let tick : BitVec 8 := 0
     let att : BitVec 2 := 0
     s.ctxOf slice.toNat = some n.val ∧
     s.ticking n.val = true ∧
     tick.toNat = s.slStep n.val % 256 ∧
     att.toNat = s.fget (TCK_SL_STAT.ATTEMPT n.val)) ∧
    (let s : State := st [(TCK_SL_STAT.STATE 15, 2), (RIG_SL_STAT.ACTIVE 15, 1), (RIG_SL_STAT.SLICE_ID 15, 5), (TCK_SL_STAT.SLICE_ID 15, 5)]
     let n : Ctx := 15
     let slice : BitVec 12 := 5
     let tick : BitVec 8 := 1
     let att : BitVec 2 := 0
     s.ctxOf slice.toNat = some n.val ∧
     s.ticking n.val = true ∧
     tick.toNat ≠ s.slStep n.val % 256) ∧
    (let s : State := run []
     let n : Ctx := 15
     let r : Repair := .route
     (r = .route → s.strandsClear n.val = true) ∧
     r ≠ .records 0 0) ∧
    (let s : State := { run [⟨0x0020, routerAgent 0 0 0, 1, leBytes 32 (2 ^ 12)⟩] with part := (0, { PartSt.init with owner := some 15, bypass := [1] }) :: State.reset.part.tail }
     let n : Ctx := 15
     s.strandsClear n.val = false) ∧
    (let s : State := { st [(TCK_SL_STAT.STATE 15, 4), (TCK_SL_CTL.RPR_LIM 15, 1)] with ctx := [(15, { CtxSt.init with inRepair := 1 })] }
     let n : Ctx := 15
     s.slState n.val = 4 ∧
     s.fget (TCK_SL_CTL.RPR_LIM n.val) ≤ (s.cx n.val).inRepair ∧
     s.flt.lastTot = []) := by
  refine ⟨?_, ?_, ?_, ?_, ?_, ?_⟩ <;> decide +kernel

/-- Every clause of StretchAndSupply has a state and operands that meet its hypotheses. -/
theorem meets_StretchAndSupply :
    (let s : State := State.reset
     let vin : BitVec 10 := 0
     vin.toNat < s.fget PWR_WARN.WARN ∧
     s.flag PWR_STAT.DIP = false ∧
     s.hubUp = true) ∧
    (let s : State := { State.reset with pwr := { State.reset.pwr with stage := 1 } }
     let vin : BitVec 10 := 0
     vin.toNat < s.fget PWR_WARN.WARN ∧
     s.flag PWR_STAT.DIP = false ∧
     s.hubUp = false) ∧
    (let s : State := st [(PWR_STAT.DIP, 1)]
     let vin : BitVec 10 := 1023
     s.fget PWR_WARN.WARN + 10 < vin.toNat ∧
     s.flag PWR_STAT.DIP = true) ∧
    (let s : State := { State.reset with now := 10 ^ 9, tick := { TickSt.init with recover := some 0, steps := 1 } }
     let u : Nat := 0
     s.tick.recover = some u ∧
     u + msUnits 10 ≤ s.now ∧
     s.tick.steps.testBit 0 = true) ∧
    (let s : State := State.reset
     let w : BitVec 16 := 65535
     s.hubUp = true ∧
     s.fget PWR_STAT.STATE < 2 ∧
     100 * s.fget PWR_PLIM.PLIM < w.toNat ∧
     s.govOn = false) ∧
    (let s : State := { st [(TCK_STRETCH.ACTIVE, 1), (PWR_PIN.NOW, 65535)] with now := 10 ^ 9, tick := { TickSt.init with steps := 2 } }
     s.govOn = true ∧
     s.flag TCK_STRETCH.ACTIVE = true ∧
     s.tick.effAt + msUnits 10 ≤ s.now ∧
     s.flag PWR_STAT.PLIM_LOW = false ∧
     100 * s.fget PWR_PLIM.PLIM < s.fget PWR_PIN.NOW) := by
  refine ⟨?_, ?_, ?_, ?_, ?_, ?_⟩ <;> decide +kernel

/-- Every clause of SyncAndPeriod has a state and operands that meet its hypotheses. -/
theorem meets_SyncAndPeriod :
    (let s : State := st [(LNK_STAT.STATE 15, 6)]
     let p : Port := 15
     let step : BitVec 16 := 0
     let tb : BitVec 20 := 0
     s.flag TCK_CTL.SYNC_EN = true ∧
     s.trained p.val = true) ∧
    (let s : State := { linked with regs := (linked.fset TCK_CTL.PARENT 0).regs }
     let p : Port := 0
     let step : BitVec 16 := 0
     let tb : BitVec 20 := 0
     s.flag TCK_CTL.SYNC_EN = true ∧
     s.follows p.val = true) ∧
    (let s : State := st [(TCK_CTL.PARENT, 0), (TCK_CTL.ALT_PARENT, 0)]
     let p : Port := 15
     let step : BitVec 16 := 0
     let tb : BitVec 20 := 0
     s.flag TCK_CTL.SYNC_EN = true ∧
     s.follows p.val = false) ∧
    (let s : State := State.reset
     let step : DWord := 1
     let tb : BitVec 20 := 0
     s.isRoot = false ∧
     s.anyRunning = false ∧
     step.toNat ≠ s.step) ∧
    (let s : State := { State.reset with now := 10 ^ 9, tick := { TickSt.init with holdover := some 0 } }
     let u : Nat := 0
     s.tick.holdover = some u ∧
     u + msUnits 1 ≤ s.now ∧
     s.tick.lostSaid = false) ∧
    (let s : State := State.reset
     let m : Master := 0
     let v : Word := 0x80000000
     s.admits m TCK_SYNC_MAX.off v = true ∧
     v.getLsbD 31 = true) ∧
    (let s : State := st [(TCK_PERIOD_NEXT.NEXT, 1000), (TCK_PERIOD_AT_LO.LO, 1)]
     let m : Master := 0
     let v : Word := wd [(TCK_CTL.PERIOD_ARM, 1)]
     s.admits m TCK_CTL.off v = true ∧
     TCK_CTL.PERIOD_ARM.of v = 1 ∧
     1000 ≤ s.fget TCK_PERIOD_NEXT.NEXT ∧
     s.step < s.pair TCK_PERIOD_AT_LO.off) ∧
    (let s : State := st [(TCK_CTL.PERIOD_ARM, 1)]
     s.flag TCK_CTL.PERIOD_ARM = true ∧
     s.pair TCK_PERIOD_AT_LO.off = s.step) := by
  refine ⟨?_, ?_, ?_, ?_, ?_, ?_, ?_, ?_⟩ <;> decide +kernel

/-- Every clause of PowerRequests has a state and operands that meet its hypotheses. -/
theorem meets_PowerRequests :
    (let s : State := st [(PWR_STAT.MOVING, 1)]
     let m : Master := 0
     let v : Word := 0
     let c : Instr := .powerReqActive m v
     c ∈ [.powerReqActive m v, .powerReqStandby m v, .powerReqRetain m v, .powerReqDormant m v, .powerReqOff m v] ∧
     s.admits m PWR_REQ.off v = true ∧
     s.pwr.off = false ∧
     s.flag PWR_STAT.MOVING = true) ∧
    (let s : State := st [(PWR_STAT.STATE, 3)]
     let m : Master := 0
     let v : Word := wd [(PWR_REQ.TARGET, 1)]
     let c : Instr := .powerReqStandby m v
     c ∈ [.powerReqActive m v, .powerReqStandby m v, .powerReqRetain m v, .powerReqDormant m v, .powerReqOff m v] ∧
     s.admits m PWR_REQ.off v = true ∧
     s.pwr.off = false ∧
     s.flag PWR_STAT.MOVING = false ∧
     s.fget PWR_STAT.STATE ≠ PWR_REQ.TARGET.of v ∧
     s.flag FLT_STAT.GRAVE = false ∧
     s.flag HUB_RST_STAT.HUB_OOS = false ∧
     moveAllowed (s.fget PWR_STAT.STATE) (PWR_REQ.TARGET.of v) = false) ∧
    (let s : State := st [(TCK_SL_STAT.STATE 15, 4)]
     let m : Master := 0
     let v : Word := wd [(PWR_REQ.TARGET, 1)]
     let c : Instr := .powerReqStandby m v
     c ∈ [.powerReqActive m v, .powerReqStandby m v, .powerReqRetain m v, .powerReqDormant m v, .powerReqOff m v] ∧
     s.admits m PWR_REQ.off v = true ∧
     s.pwr.off = false ∧
     s.flag PWR_STAT.MOVING = false ∧
     s.fget PWR_STAT.STATE ≠ PWR_REQ.TARGET.of v ∧
     s.flag FLT_STAT.GRAVE = false ∧
     s.flag HUB_RST_STAT.HUB_OOS = false ∧
     moveAllowed (s.fget PWR_STAT.STATE) (PWR_REQ.TARGET.of v) = true ∧
     s.fget PWR_STAT.STATE ≤ 1 ∧
     PWR_REQ.FORCE.of v = 0 ∧
     s.slicesBusy = true) ∧
    (let s : State := State.reset
     let m : Master := 0
     let v : Word := wd [(PWR_REQ.TARGET, 4)]
     let c : Instr := .powerReqOff m v
     c ∈ [.powerReqActive m v, .powerReqStandby m v, .powerReqRetain m v, .powerReqDormant m v, .powerReqOff m v] ∧
     s.admits m PWR_REQ.off v = true ∧
     s.pwr.off = false ∧
     s.flag PWR_STAT.MOVING = false ∧
     s.fget PWR_STAT.STATE ≠ PWR_REQ.TARGET.of v ∧
     s.flag FLT_STAT.GRAVE = false ∧
     s.flag HUB_RST_STAT.HUB_OOS = false ∧
     s.fget PWR_STAT.STATE = 0 ∧
     1 ≤ PWR_REQ.TARGET.of v ∧
     PWR_REQ.TARGET.of v ≤ 4 ∧
     (PWR_REQ.FORCE.of v = 1 ∨ s.slicesBusy = false) ∧
     s.resetBusy = false) ∧
    (let s : State := { st [(PWR_STAT.STATE, 1)] with now := 10 ^ 12 }
     let m : Master := 0
     let v : Word := 0
     let c : Instr := .powerReqActive m v
     c ∈ [.powerReqActive m v, .powerReqStandby m v, .powerReqRetain m v, .powerReqDormant m v, .powerReqOff m v] ∧
     s.admits m PWR_REQ.off v = true ∧
     s.pwr.off = false ∧
     s.flag PWR_STAT.MOVING = false ∧
     s.fget PWR_STAT.STATE ≠ PWR_REQ.TARGET.of v ∧
     s.flag FLT_STAT.GRAVE = false ∧
     s.flag HUB_RST_STAT.HUB_OOS = false ∧
     s.fget PWR_STAT.STATE = 1 ∧
     PWR_REQ.TARGET.of v = 0 ∧
     (PWR_REQ.FORCE.of v = 1 ∨ s.slicesBusy = false) ∧
     s.pwr.sbyAt + msUnits 5 ≤ s.now ∧
     s.resetBusy = false) := by
  refine ⟨?_, ?_, ?_, ?_, ?_⟩ <;> decide +kernel

/-- Every clause of PowerTransitions has a state and operands that meet its hypotheses. -/
theorem meets_PowerTransitions :
    (let s : State := st [(PWR_STAT.MOVING, 1), (PWR_STAT.TO, 1)]
     s.flag PWR_STAT.MOVING = true ∧
     s.fget PWR_STAT.TO ≤ 1 ∧
     s.fget PWR_STAT.STATE ≤ 1 ∧
     s.modDrained = true ∧
     s.rst.modWait = false ∧
     s.rst.later = [] ∧
     s.flag PWR_STAT.PEND = false) ∧
    (let s : State := { st [(PWR_STAT.STATE, 1), (PWR_STAT.PEND, 1)] with now := 10 ^ 12 }
     s.fget PWR_STAT.STATE = 1 ∧
     s.flag PWR_STAT.PEND = true ∧
     s.flag PWR_STAT.MOVING = false ∧
     s.resetBusy = false ∧
     s.pwr.sbyAt + msUnits 5 ≤ s.now ∧
     s.fget PWR_STAT.PEND_TGT = 0 ∧
     s.pwr.off = false ∧
     s.flag FLT_STAT.GRAVE = false ∧
     s.flag HUB_RST_STAT.HUB_OOS = false ∧
     s.slicesBusy = false) ∧
    (let s : State := st [(PWR_STAT.STATE, 3), (PWR_STAT.LP_VALID, 1)]
     s.pwr.off = false ∧
     s.flag PWR_STAT.MOVING = false ∧
     2 ≤ s.fget PWR_STAT.STATE ∧
     s.fget PWR_STAT.STATE ≤ 3 ∧
     s.flag FLT_STAT.GRAVE = false ∧
     s.flag HUB_RST_STAT.HUB_OOS = false ∧
     s.resetBusy = false ∧
     s.pwr.mainGood = true ∧
     s.flag PWR_STAT.LP_VALID = true) ∧
    (let s : State := { st [(PWR_STAT.STATE, 3), (PWR_STAT.MOVING, 1)] with now := 10 ^ 12, pwr := { State.reset.pwr with wakeAt := some 0 } }
     let u : Nat := 0
     s.waking = some u ∧
     s.pwr.wakeRow = 0 ∧
     u ≤ s.now) ∧
    (let s : State := { st [(PWR_STAT.STATE, 3), (PWR_STAT.MOVING, 1)] with now := 10 ^ 12, pwr := { State.reset.pwr with wakeAt := some 0 } }
     let u : Nat := 0
     let r : Nat := 0
     let off : Nat := 0
     let lim : Nat := 1
     s.waking = some u ∧
     wakeTable[s.pwr.wakeRow]? = some (off, lim, r) ∧
     u + usUnits (100 * lim) < s.now ∧
     s.flag HUB_RST_STAT.HUB_OOS = false ∧
     s.fuses.intact = true ∧
     s.flag FLT_STAT.GRAVE = false) := by
  refine ⟨?_, ?_, ?_, ?_, ?_⟩ <;> decide +kernel

/-- Every clause of SupplyEvents has a state and operands that meet its hypotheses. -/
theorem meets_SupplyEvents :
    (let s : State := State.reset
     s.pwr.off = false) ∧
    (let s : State := off0
     let a : BitVec 3 := 7
     s.pwr.off = true) ∧
    (let s : State := { State.reset with pwr := { State.reset.pwr with mainGood := false, stage := 1 } }
     s.pwr.off = false ∧
     s.pwr.mainGood = false ∧
     s.fget PWR_STAT.STATE ≤ 1 ∧
     s.pwr.stage = 1 ∧
     s.flag HUB_RST_STAT.HUB_OOS = false ∧
     s.fuses.intact = true ∧
     s.flag FLT_STAT.GRAVE = false) ∧
    (let s : State := st [(PWR_STAT.STATE, 1)]
     let c : Instr := .mainOvervoltage
     c ∈ [Instr.mainInputLoss, .mainOvervoltage] ∧
     s.pwr.off = false ∧
     s.pwr.mainGood = true ∧
     s.fget PWR_STAT.STATE ≤ 1 ∧
     s.flag PWR_STAT.MOVING = false ∧
     s.flag PWR_STAT.PEND = false) ∧
    (let s : State := State.reset
     let vin : BitVec 10 := 379
     s.pwr.off = false ∧
     vin.toNat < 380 ∧
     s.fget PWR_STAT.STATE ≤ 1 ∧
     s.hubUp = true ∧
     s.rst.modWait = false) := by
  refine ⟨?_, ?_, ?_, ?_, ?_⟩ <;> decide +kernel

/-- Every clause of StartUp has a state and operands that meet its hypotheses. -/
theorem meets_StartUp :
    (let s : State := State.reset
     let m : Master := 0
     let v : Word := wd [(SEC_FW_CMD.GO, 1)]
     let why : Nat := s.fwCheck ((List.range (s.fget SEC_FW_LEN.LEN)).map (Store.get byteZero s.sec.staging))
     s.admits m SEC_FW_CMD.off v = true ∧
     SEC_FW_CMD.GO.of v = 1 ∧
     s.pwr.stage = 5 ∧
     s.fwCheck ((List.range (s.fget SEC_FW_LEN.LEN)).map (Store.get byteZero s.sec.staging)) = why ∧
     why ≠ 0) ∧
    (let s : State := { State.reset with now := 10 ^ 12 }
     s.pwr.stage = 5 ∧
     s.sec.waitAt + sUnits 60 ≤ s.now ∧
     s.flag SEC_FW_STAT.WAITED = false) ∧
    (let s : State := { State.reset with pwr := { State.reset.pwr with training := true, stage := 6 } }
     s.pwr.training = true) ∧
    (let s : State := { st [(SEC_FW_STAT.PHASE, 3)] with pwr := { State.reset.pwr with stage := 7 } }
     let failed : List CoreId := [⟨1, 74, 249⟩]
     s.pwr.stage = 7 ∧
     s.fwRuns = true ∧
     s.waking = none ∧
     s.pwr.waves < 7 ∧
     (s.pwr.waves = 0 ∨ s.pwr.waveAt + msUnits 60 ≤ s.now) ∧
     (s.pt (2 * s.pwr.waves)).held = false ∧
     (s.pt (2 * s.pwr.waves + 1)).held = false) := by
  refine ⟨?_, ?_, ?_, ?_⟩ <;> decide +kernel

/-- Every clause of SensorsAndTrips has a state and operands that meet its hypotheses. -/
theorem meets_SensorsAndTrips :
    (let s : State := State.reset
     s.hubUp = true ∧
     s.flag HUB_THERM_STAT.WARN_ACT = false) ∧
    (let s : State := State.reset
     let x : BitVec 8 := 127
     s.hubUp = true ∧
     s.flag HUB_THERM_STAT.WARN_ACT = false ∧
     (s.fget HUB_THERM_CTL.WARN : Int) ≤ x.toInt) ∧
    (let s : State := { st [(HUB_THERM_STAT.WARN_ACT, 1)] with now := 10 ^ 12, pwr := { State.reset.pwr with therm := some 0 } }
     let u : Nat := 0
     s.pwr.therm = some u ∧
     s.flag HUB_THERM_STAT.WARN_ACT = true ∧
     u + msUnits 10 ≤ s.now) ∧
    (let s : State := { State.reset with pwr := { State.reset.pwr with stage := 1, mainGood := false } }
     let x : BitVec 8 := 110
     s.pwr.off = false ∧
     s.hubUp = false ∧
     110 ≤ x.toInt) ∧
    (let s : State := { State.reset with pwr := { State.reset.pwr with stage := 1, mainGood := false } }
     s.pwr.off = false ∧
     s.hubUp = false) ∧
    (let s : State := { State.reset with pwr := { State.reset.pwr with stage := 1, mainGood := false } }
     s.pwr.off = false ∧
     s.hubUp = false) ∧
    (let s : State := State.reset
     True) := by
  refine ⟨?_, ?_, ?_, ?_, ?_, ?_, ?_⟩ <;> decide +kernel

/-- A firmware image in the staging area. -/
def staged (l : Store Byte) : State := { st [(SEC_FW_LEN.LEN, 64)] with sec := { State.reset.sec with staging := l } }

/-- An image that the boot ROM accepts (its keys are opaque) meets the hypotheses of StartUp's clause about it. -/
theorem meets_StartUp_accepted (l : Store Byte)
    (h : (staged l).fwCheck ((List.range ((staged l).fget SEC_FW_LEN.LEN)).map (Store.get byteZero (staged l).sec.staging)) = 0) :
    (staged l).admits 0 SEC_FW_CMD.off (wd [(SEC_FW_CMD.GO, 1)]) = true ∧ SEC_FW_CMD.GO.of (wd [(SEC_FW_CMD.GO, 1)]) = 1 ∧
      (staged l).pwr.stage = 5 ∧
      (staged l).fwCheck ((List.range ((staged l).fget SEC_FW_LEN.LEN)).map (Store.get byteZero (staged l).sec.staging)) = 0 :=
  ⟨(by decide +kernel : (staged []).admits 0 SEC_FW_CMD.off (wd [(SEC_FW_CMD.GO, 1)]) = true), by decide +kernel, (by decide +kernel : (staged []).pwr.stage = 5), h⟩

/-- A command block staged at address 0 for serial 0 and a nonce of zeros. -/
def authBlk (cmd : Byte) : State :=
  let s := (List.range 8).foldl (fun s i => s.setReg (SEC_NONCE.off i) 0) State.reset
  { s with mem := [(0, 0x44), (1, 0x41), (2, 0x55), (3, 0x54), (4, cmd), (48, 3)] }

/-- Every clause of AuthorisedCommands has a state and operands that meet its hypotheses. -/
theorem meets_AuthorisedCommands :
    (let s : State := { State.reset with sec := { State.reset.sec with auth := some (2, []) } }
     let m : Master := 0
     let v : Word := wd [(SEC_AUTH_CMD.GO, 1)]
     let c : Instr := .clearEvr m v
     c ∈ [.clearEvr m v, .clearRemap m v, .enroll m v, .revoke m v, .raiseSvn m v] ∧
     s.admits m SEC_AUTH_CMD.off v = true ∧
     SEC_AUTH_CMD.GO.of v = 1 ∧
     s.sec.auth.isSome = true) ∧
    (let s : State := State.reset
     let m : Master := 0
     let v : Word := wd [(SEC_AUTH_CMD.GO, 1)]
     let c : Instr := .clearEvr m v
     let st : Nat := (s.authCheck s.authBlock).1
     c ∈ [.clearEvr m v, .clearRemap m v, .enroll m v, .revoke m v, .raiseSvn m v] ∧
     s.admits m SEC_AUTH_CMD.off v = true ∧
     SEC_AUTH_CMD.GO.of v = 1 ∧
     s.sec.auth = none ∧
     (s.authCheck s.authBlock).1 = st ∧
     st ≠ 0) ∧
    (let s : State := authBlk 3
     let m : Master := 0
     let v : Word := wd [(SEC_AUTH_CMD.GO, 1)]
     let c : Instr := .clearEvr m v
     let cmd : Nat := 3
     c ∈ [.clearEvr m v, .clearRemap m v, .enroll m v, .revoke m v, .raiseSvn m v] ∧
     s.admits m SEC_AUTH_CMD.off v = true ∧
     SEC_AUTH_CMD.GO.of v = 1 ∧
     s.sec.auth = none ∧
     (s.authCheck s.authBlock).1 = 0 ∧
     leAt s.authBlock 4 2 = cmd ∧
     cmd ≠ 1) ∧
    (let s : State := { State.reset with sec := { State.reset.sec with auth := some (2, [0, 3]) } }
     let arg : List Byte := [0, 3]
     s.sec.auth = some (2, arg)) ∧
    (let s : State := { State.reset with sec := { State.reset.sec with auth := some (3, [0, 3]) } }
     let arg : List Byte := [0, 3]
     let i : Nat := 0
     s.sec.auth = some (3, arg) ∧
     s.freeKey = some i) ∧
    (let s : State := { State.reset with sec := { State.reset.sec with auth := some (4, [0, 3]) } }
     let arg : List Byte := [0, 3]
     s.sec.auth = some (4, arg)) ∧
    (let s : State := { State.reset with sec := { State.reset.sec with auth := some (5, [0, 3]) } }
     let arg : List Byte := [0, 3]
     s.sec.auth = some (5, arg)) ∧
    (let s : State := { State.reset with sec := { State.reset.sec with auth := some (5, [0, 3]) } }
     let arg : List Byte := [0, 3]
     let a : Nat × List Byte := (5, arg)
     s.sec.auth = some a) ∧
    (let s : State := { State.reset with now := 10 ^ 12 }
     s.pwr.off = false ∧
     s.nor.readable = true ∧
     s.pwr.savedAt + sUnits 600 ≤ s.now) := by
  refine ⟨?_, ?_, ?_, ?_, ?_, ?_, ?_, ?_, ?_⟩ <;> decide +kernel

/-- A signed CLEAR_EVR block that is accepted (its key is opaque) meets the hypotheses of the clause about it. -/
theorem meets_AuthorisedCommands_clearEvr (h : ((authBlk 1).authCheck (authBlk 1).authBlock).1 = 0) :
    (authBlk 1).admits 0 SEC_AUTH_CMD.off (wd [(SEC_AUTH_CMD.GO, 1)]) = true ∧ SEC_AUTH_CMD.GO.of (wd [(SEC_AUTH_CMD.GO, 1)]) = 1 ∧
      (authBlk 1).sec.auth = none ∧ ((authBlk 1).authCheck (authBlk 1).authBlock).1 = 0 ∧ leAt (authBlk 1).authBlock 4 2 = 1 :=
  ⟨by decide +kernel, by decide +kernel, by decide +kernel, h, by decide +kernel⟩

/-- Every clause of Attestation has a state and operands that meet its hypotheses. -/
theorem meets_Attestation :
    (let s : State := { st [(SEC_FW_STAT.PHASE, 3)] with host := { State.reset.host with linkUp := true } }
     s.fwRuns = true ∧
     s.host.linkUp = true) ∧
    (let s : State := { State.reset with att := ⟨[⟨0, 0, [], none⟩], none⟩ }
     let r : AttReq := ⟨0, 0, [], none⟩
     s.att.queue.find? (fun r => r.path = 0) = some r) ∧
    (let s : State := { State.reset with att := ⟨[⟨0, 0, [], none⟩], none⟩ }
     let r : AttReq := ⟨0, 0, [], none⟩
     let rest : List AttReq := []
     s.att.queue = r :: rest ∧
     r.path = 0) ∧
    (let s : State := { State.reset with att := ⟨[⟨1, 0, [], none⟩], none⟩ }
     let r : AttReq := ⟨1, 0, [], none⟩
     let rest : List AttReq := []
     s.att.queue = r :: rest ∧
     r.path = 1) ∧
    (let s : State := st [(SEC_FW_STAT.PHASE, 3)]
     s.smbFull = true ∧
     s.fwRuns = true) ∧
    (let s : State := { st [(SEC_FW_STAT.PHASE, 3)] with att := ⟨[], some [1]⟩ }
     let b : List Byte := [1]
     s.smbFull = true ∧
     s.fwRuns = true ∧
     s.attSigning = false ∧
     s.att.smb = some b) ∧
    (let s : State := { st [(SEC_FW_STAT.PHASE, 3)] with att := ⟨[⟨1, 0, [], none⟩], none⟩ }
     s.smbFull = true ∧
     s.fwRuns = true ∧
     s.attSigning = true) ∧
    (let s : State := st [(SEC_FW_STAT.PHASE, 3)]
     s.smbFull = true ∧
     s.fwRuns = true ∧
     s.attSigning = false ∧
     s.att.smb = none) := by
  refine ⟨?_, ?_, ?_, ?_, ?_, ?_, ?_, ?_⟩ <;> decide +kernel

/-- Every clause of SmbusReads has a state and operands that meet its hypotheses. -/
theorem meets_SmbusReads :
    (let s : State := State.reset
     s.smbFull = true) ∧
    (let s : State := State.reset
     s.smbFull = true) ∧
    (let s : State := State.reset
     s.smbFull = true) ∧
    (let s : State := State.reset
     s.smbFull = true) ∧
    (let s : State := State.reset
     s.smbFull = true) ∧
    (let s : State := State.reset
     s.smbFull = true) ∧
    (let s : State := State.reset
     s.smbFull = true) ∧
    (let s : State := State.reset
     let n : Byte := 7
     s.smbFull = true ∧
     1 ≤ n.toNat ∧
     n.toNat ≤ 7) ∧
    (let s : State := { State.reset with pins := { State.reset.pins with alertN := true } }
     s.smbFull = true ∧
     s.pins.alertN = true) ∧
    (let s : State := st [(SEC_FW_STAT.PHASE, 3), (MBX_CTL.LOCK, 1), (MBX_BIND_W0.VALID 255, 1), (MBX_BIND_W0.RECEIVER 255, 1)]
     let c : Byte := 255
     s.smbFull = true ∧
     s.fwRuns = true ∧
     s.mayRecv 1 c.toNat = true ∧
     (s.mb c.toNat).head1 = (s.mb c.toNat).head2 ∧
     (s.mb c.toNat).tail1 = (s.mb c.toNat).tail2) := by
  refine ⟨?_, ?_, ?_, ?_, ?_, ?_, ?_, ?_, ?_, ?_⟩ <;> decide +kernel

/-- Every clause of SmbusWrites has a state and operands that meet its hypotheses. -/
theorem meets_SmbusWrites :
    (let s : State := State.reset
     s.smbFull = true) ∧
    (let s : State := State.reset
     s.smbFull = true) ∧
    (let s : State := st [(PWR_STAT.MOVING, 1)]
     s.smbFull = true ∧
     s.flag PWR_STAT.MOVING = true ∧
     s.pwr.off = false) ∧
    (let s : State := State.reset
     s.smbFull = true ∧
     s.rst.modWait = false) ∧
    (let s : State := State.reset
     let v : BitVec 16 := 0x524D
     s.smbFull = true ∧
     v ≠ 0x4D52) ∧
    (let s : State := State.reset
     s.smbFull = true) ∧
    (let s : State := State.reset
     s.smbFull = true) ∧
    (let s : State := st [(SEC_FW_STAT.PHASE, 3), (MBX_CTL.LOCK, 1), (MBX_BIND_W0.VALID 255, 1), (MBX_BIND_W0.SENDER 255, 1)]
     let c : Byte := 255
     let data : List Byte := List.replicate 64 0
     s.smbFull = true ∧
     data.length = 64 ∧
     s.fwRuns = true ∧
     s.maySend 1 c.toNat = true ∧
     s.inReset (s.chanRecv c.toNat) = false ∧
     (s.mb c.toNat).head1 = (s.mb c.toNat).head2 ∧
     (s.mb c.toNat).tail1 = (s.mb c.toNat).tail2 ∧
     (s.mb c.toNat).queue.length < s.chanDepth c.toNat) := by
  refine ⟨?_, ?_, ?_, ?_, ?_, ?_, ?_, ?_⟩ <;> decide +kernel

/-- Every clause of Mailboxes has a state and operands that meet its hypotheses. -/
theorem meets_Mailboxes :
    (let s : State := { st [(MBX_CTL.LOCK, 1), (MBX_BIND_W0.VALID 255, 1), (MBX_BIND_W0.TMO 255, 1), (MBX_DBIND.VALID 63, 1)] with now := 10 ^ 9, mbx := [(255, { MbxCh.init with queue := [⟨[], 0, 0, false⟩] })] }
     let m : Master := 0
     let c : Fin 256 := 255
     s.hubUp = true ∧
     s.mbxShut m.toNat = false ∧
     s.maySend m c.val = true) ∧
    (let s : State := { st [(MBX_CTL.LOCK, 1), (MBX_BIND_W0.VALID 255, 1), (MBX_BIND_W0.TMO 255, 1), (MBX_DBIND.VALID 63, 1)] with now := 10 ^ 9, mbx := [(255, { MbxCh.init with queue := [⟨[], 0, 0, false⟩] })] }
     let m : Master := 0
     let c : Fin 256 := 255
     s.hubUp = true ∧
     s.mbxShut m.toNat = false ∧
     s.maySend m c.val = true ∧
     s.inReset (s.chanRecv c.val) = false ∧
     (s.mb c.val).head1 = (s.mb c.val).head2 ∧
     (s.mb c.val).tail1 = (s.mb c.val).tail2) ∧
    (let s : State := { st [(MBX_CTL.LOCK, 1), (MBX_BIND_W0.VALID 255, 1), (MBX_BIND_W0.TMO 255, 1), (MBX_DBIND.VALID 63, 1)] with now := 10 ^ 9, mbx := [(255, { MbxCh.init with queue := [⟨[], 0, 0, false⟩] })] }
     let m : Master := 0
     let c : Fin 256 := 255
     s.hubUp = true ∧
     s.mbxShut m.toNat = false ∧
     s.mayRecv m c.val = true ∧
     (s.mb c.val).head1 = (s.mb c.val).head2 ∧
     (s.mb c.val).tail1 = (s.mb c.val).tail2) ∧
    (let s : State := { st [(MBX_CTL.LOCK, 1), (MBX_BIND_W0.VALID 255, 1), (MBX_BIND_W0.TMO 255, 1), (MBX_DBIND.VALID 63, 1)] with now := 10 ^ 9, mbx := [(255, { MbxCh.init with queue := [⟨[], 0, 0, false⟩] })] }
     let m : Master := 0
     let c : Fin 256 := 255
     let q : MbxMsg := ⟨[], 0, 0, false⟩
     let rest : List MbxMsg := []
     s.hubUp = true ∧
     (s.mb c.val).queue = q :: rest ∧
     s.chanOpen c.val = true ∧
     s.fget (MBX_BIND_W0.TMO c.val) ≠ 0 ∧
     q.timed = false ∧
     q.at_ + msUnits (s.fget (MBX_BIND_W0.TMO c.val)) ≤ s.now) ∧
    (let s : State := State.reset
     let v : Word := 1
     s.hubUp = true ∧
     s.admits 0 MBX_CTL.off v = true ∧
     v.getLsbD 0 = true ∧
     s.bindOk = true) ∧
    (let s : State := st [(MBX_CTL.LOCK, 1), (MBX_BIND_W0.VALID 255, 1), (MBX_BIND_W0.TMO 255, 1), (MBX_DBIND.VALID 63, 1)]
     let m : Master := 0
     let d : Fin 64 := 63
     s.hubUp = true ∧
     s.mbxShut m.toNat = false ∧
     s.mayRing m d.val = true) := by
  refine ⟨?_, ?_, ?_, ?_, ?_, ?_⟩ <;> decide +kernel

/-- Every clause of HostAccesses has a state and operands that meet its hypotheses. -/
theorem meets_HostAccesses :
    (let s : State := { State.reset with part := [(0, { PartSt.init with owner := some 0 })] }
     let off : BitVec 36 := 0
     let len : BitVec 13 := 4096
     s.hostUp = true ∧
     1 ≤ len.toNat ∧
     mlaServed (s.bar2Mla off.toNat) len.toNat = true ∧
     s.barClosed (mlaPart (s.bar2Mla off.toNat)) = false ∧
     s.memBadIn (s.bar2Mla off.toNat) len.toNat = none) ∧
    (let s : State := State.reset
     let off : BitVec 36 := 0xFFFFFFFFF
     let len : BitVec 13 := 2
     s.hostUp = true ∧
     1 ≤ len.toNat ∧
     mlaServed (s.bar2Mla off.toNat) len.toNat = false) ∧
    (let s : State := { State.reset with part := [(0, { PartSt.init with owner := some 0 })] }
     let off : BitVec 36 := 5
     let data : List Byte := [1, 2]
     s.hostUp = true ∧
     mlaServed (s.bar2Mla off.toNat) data.length = true ∧
     s.barClosed (mlaPart (s.bar2Mla off.toNat)) = false) ∧
    (let s : State := { State.reset with host := { State.reset.host with linkUp := true } }
     s.hostUp = true) ∧
    (let s : State := { run [⟨0x0030, endpointAgent 0 0, 1, leBytes 16 (4 * 8 + 8 * 2 ^ 64)⟩] with regs := (st [(HUB_WIN_W3.VALID 16, 1), (HUB_WIN_W3.RD 16, 1), (HUB_WIN_W3.WR 16, 1), (HUB_WIN_W2.LIMIT 16, 1)]).regs }
     let off : BitVec 36 := 0
     let m : Master := 16
     let len : BitVec 13 := 1
     let a : Nat := (s.intakeMla m.toNat off.toNat len.toNat true).getD 0
     s.hostUp = true ∧
     s.intakeMla m.toNat off.toNat len.toNat true = some a ∧
     s.barClosed (mlaPart a) = false ∧
     s.memBadIn a len.toNat = none) ∧
    (let s : State := State.reset
     let off : BitVec 36 := 0
     let m : Master := 16
     let len : BitVec 13 := 1
     s.hostUp = true ∧
     s.intakeMla m.toNat off.toNat len.toNat true = none) ∧
    (let s : State := { run [⟨0x0030, endpointAgent 0 0, 1, leBytes 16 (4 * 8 + 8 * 2 ^ 64)⟩] with regs := (st [(HUB_WIN_W3.VALID 16, 1), (HUB_WIN_W3.RD 16, 1), (HUB_WIN_W3.WR 16, 1), (HUB_WIN_W2.LIMIT 16, 1)]).regs }
     let off : BitVec 36 := 0
     let m : Master := 16
     let data : List Byte := [1]
     let a : Nat := (s.intakeMla m.toNat off.toNat 1 false).getD 0
     s.hostUp = true ∧
     s.intakeMla m.toNat off.toNat data.length false = some a ∧
     s.barClosed (mlaPart a) = false) ∧
    (let s : State := State.reset
     let off : BitVec 36 := 0
     let m : Master := 16
     let data : List Byte := [1]
     s.hostUp = true ∧
     s.intakeMla m.toNat off.toNat data.length false = none) := by
  refine ⟨?_, ?_, ?_, ?_, ?_, ?_, ?_, ?_⟩ <;> decide +kernel

/-- Every clause of EndpointEvents has a state and operands that meet its hypotheses. -/
theorem meets_EndpointEvents :
    (let s : State := State.reset
     let sp : BitVec 3 := 7
     s.hubUp = true ∧
     s.pins.perstN = false ∧
     s.host.linkUp = false ∧
     s.host.drain = none ∧
     s.flag HUB_RST_STAT.PCIE_OOS = false ∧
     sp.toNat ≠ 0) ∧
    (let s : State := { State.reset with host := { State.reset.host with linkUp := true } }
     s.hubUp = true ∧
     s.host.drain = none ∧
     s.host.resetting = false) ∧
    (let s : State := { State.reset with host := { State.reset.host with linkUp := true } }
     let m : Master := 16
     s.hostUp = true ∧
     s.host.closed = false ∧
     isFunction m.toNat = true ∧
     m ≠ 3) ∧
    (let s : State := State.reset
     s.hubUp = true ∧
     s.host.drain = none ∧
     s.host.resetting = false) ∧
    (let s : State := State.reset
     True) ∧
    (let s : State := { State.reset with host := { State.reset.host with linkUp := true } }
     let m : Master := 2
     s.hostUp = true ∧
     isFunction m.toNat = true) ∧
    (let s : State := { State.reset with host := { State.reset.host with linkUp := true } }
     s.hostUp = true) := by
  refine ⟨?_, ?_, ?_, ?_, ?_, ?_, ?_⟩ <;> decide +kernel

/-- Every clause of RegisterWrites has a state and operands that meet its hypotheses. -/
theorem meets_RegisterWrites :
    (let s : State := State.reset
     let m : Master := 0
     let v : Word := 0
     let off : BitVec 26 := 0x40000
     off.toNat % 4 = 0 ∧
     (regRow? off.toNat).isSome = true ∧
     ((0x40000 ≤ off.toNat ∧ off.toNat < 0x50000 ∧ off.toNat ≠ EVR_PAGE.off) ∨ (0x60000 ≤ off.toNat ∧ off.toNat < 0x70000 ∧ off.toNat ≠ SEC_FW_CMD.off ∧ off.toNat ≠ SEC_AUTH_CMD.off) ∨ (0x80000 ≤ off.toNat ∧ off.toNat < 0xA0000 ∧ off.toNat ≠ RIG_CMD.off ∧ off.toNat ≠ RIG_CTL.off)) ∧
     s.admits m off.toNat v = true) ∧
    (let s : State := State.reset
     let m : Master := 0
     let v : Word := 15
     s.admits m HUB_FEAT_FLOOR.off v = true ∧
     s.fget HUB_FEAT_FLOOR.FLOOR ≤ HUB_FEAT_FLOOR.FLOOR.of v) ∧
    (let s : State := st [(HUB_FEAT_FLOOR.FLOOR, 2)]
     let m : Master := 0
     let v : Word := 1
     s.admits m HUB_FEAT_FLOOR.off v = true ∧
     HUB_FEAT_FLOOR.FLOOR.of v < s.fget HUB_FEAT_FLOOR.FLOOR) ∧
    (let s : State := st [(FAB_MGR_CTL.LOCK, 1)]
     let m : Master := 0
     let v : Word := 0
     s.admits m FAB_MGR_CTL.off v = true ∧
     (s.flag FAB_MGR_CTL.LOCK = true → FAB_MGR_CTL.MAN_REQ_SIG.of v = s.fget FAB_MGR_CTL.MAN_REQ_SIG)) ∧
    (let s : State := st [(RIG_CTL.LOCK, 1), (RIG_CTL.REQ_SIG, 1)]
     let m : Master := 0
     let v : Word := wd [(RIG_CTL.REQ_SIG, 1)]
     s.admits m RIG_CTL.off v = true ∧
     (s.flag RIG_CTL.LOCK = true → RIG_CTL.REQ_SIG.of v = s.fget RIG_CTL.REQ_SIG)) ∧
    (let s : State := State.reset
     let m : Master := 0
     let v : Word := 0
     let c : Nat := min s.fuses.clkFuse.toNat (max 500 (PWR_CLK_SET.CLK.of v))
     s.admits m PWR_CLK_SET.off v = true ∧
     s.clockLow (500 + (c - 500) / 50 * 50) = false) ∧
    (let s : State := { st [(RIG_SL_STAT.ACTIVE 0, 1)] with ctx := [(0, { CtxSt.init with active := [⟨0x0002, everyHub, 0, leBytes 24 (501 * 2 ^ 160)⟩] })] }
     let m : Master := 0
     let v : Word := 0
     let c : Nat := min s.fuses.clkFuse.toNat (max 500 (PWR_CLK_SET.CLK.of v))
     s.admits m PWR_CLK_SET.off v = true ∧
     s.clockLow (500 + (c - 500) / 50 * 50) = true) ∧
    (let s : State := State.reset
     let m : Master := 0
     let v : Word := wd [(PWR_CTL.CLR_MEAS, 1)]
     s.admits m PWR_CTL.off v = true ∧
     PWR_CTL.CLR_MEAS.of v = 1 ∧
     PWR_CTL.CLR_RES.of v = 0) ∧
    (let s : State := State.reset
     let m : Master := 0
     let v : Word := wd [(PWR_CTL.CLR_RES, 1)]
     s.admits 0 PWR_CTL.off v = true ∧
     PWR_CTL.CLR_MEAS.of v = 0 ∧
     PWR_CTL.CLR_RES.of v = 1) := by
  refine ⟨?_, ?_, ?_, ?_, ?_, ?_, ?_, ?_, ?_⟩ <;> decide +kernel

/-- Every clause of TurnedAwayWrites has a state and operands that meet its hypotheses. -/
theorem meets_TurnedAwayWrites :
    (let s : State := State.reset
     let m : Master := 16
     let v : Word := 0
     let x : Instr × Nat := (.qPop m v, FLT_Q_POP.off)
     x ∈ [(Instr.qPop m v, FLT_Q_POP.off), (.srcClr m v, FLT_SRC_CLR.off), (.release m v, FLT_FRZ_CMD.off), (.fltLock m v, FLT_CTL.off), (.force m v, FLT_FORCE.off), (.dumpStart m v, FLT_DUMP_CTL.off), (.featFloorWrite m v, HUB_FEAT_FLOOR.off), (.fabMgrLock m v, FAB_MGR_CTL.off), (.rigLock m v, RIG_CTL.off), (.clockSet m v, PWR_CLK_SET.off), (.clrMeas m v, PWR_CTL.off), (.clrRes m v, PWR_CTL.off), (.moduleReset m v, HUB_RST_CMD.off), (.sliceContextReset m v, HUB_RST_CMD.off), (.endpointReset m v, HUB_RST_CMD.off), (.powerCycleRequest m v, HUB_RST_CMD.off), (.wdtKick m v, HUB_RST_CTL.off), (.powerReqActive m v, PWR_REQ.off), (.powerReqStandby m v, PWR_REQ.off), (.powerReqRetain m v, PWR_REQ.off), (.powerReqDormant m v, PWR_REQ.off), (.powerReqOff m v, PWR_REQ.off), (.clearEvr m v, SEC_AUTH_CMD.off), (.clearRemap m v, SEC_AUTH_CMD.off), (.enroll m v, SEC_AUTH_CMD.off), (.revoke m v, SEC_AUTH_CMD.off), (.raiseSvn m v, SEC_AUTH_CMD.off), (.firmwareGo m v, SEC_FW_CMD.off), (.periodArm m v, TCK_CTL.off), (.tckSyncMaxClear m v, TCK_SYNC_MAX.off), (.mbxLock m v, MBX_CTL.off), (.swapArm m v, FAB_RT_CTL.off)] ∧
     (∀ o ∈ [FLT_Q_POP.off, FLT_SRC_CLR.off, FLT_FRZ_CMD.off, FLT_CTL.off, FLT_FORCE.off, FLT_DUMP_CTL.off, HUB_FEAT_FLOOR.off, FAB_MGR_CTL.off, RIG_CTL.off, PWR_CLK_SET.off, PWR_CTL.off, HUB_RST_CMD.off, HUB_RST_CTL.off, PWR_REQ.off, SEC_AUTH_CMD.off, SEC_FW_CMD.off, TCK_CTL.off, TCK_SYNC_MAX.off, MBX_CTL.off, FAB_RT_CTL.off], s.turnsAway m o v = true)) ∧
    (let s : State := State.reset
     let m : Master := 16
     let v : Word := 0
     let p : PartId := 15
     let c : Instr := .coreReset m p v
     c ∈ [Instr.coreReset m p v, .clusterReset m p v, .engineReset m p v, .partitionReset m p v, .remapCore m p v, .remapCluster m p v, .remapEngine m p v, .rotate m p v] ∧
     s.turnsAway m (PRT_RST_CMD.off p.val) v = true) ∧
    (let s : State := State.reset
     let m : Master := 16
     let v : Word := 0
     let p : Port := 15
     let c : Instr := .portEnable m p v
     c ∈ [Instr.portEnable m p v, .retrain m p v, .unpark m p v, .dataEn m p v] ∧
     s.turnsAway m (LNK_CTL.off p.val) v = true) ∧
    (let s : State := State.reset
     let m : Master := 16
     let v : Word := 0
     let n : Ctx := 15
     s.turnsAway m (TCK_SL_CTL.off n.val) v = true) ∧
    (let s : State := State.reset
     let m : Master := 0
     let v : Word := 0xFFFFFFFF
     let off : BitVec 26 := 0x0030000
     off.toNat % 4 = 0 ∧
     off.toNat < 0x2000000 ∧
     isMbx off.toNat = false ∧
     s.turnsAway m off.toNat v = true) ∧
    (let s : State := State.reset
     let m : Master := 2
     let v : Word := 0
     let off : BitVec 26 := 0x0030000
     let be : BitVec 4 := 7
     be ≠ 0xF ∧
     off.toNat % 4 = 0 ∧
     s.hubUp = true ∧
     (m = 2 → s.host.closed = false)) := by
  refine ⟨?_, ?_, ?_, ?_, ?_, ?_⟩ <;> decide +kernel

/-- Every clause of RegisterReads has a state and operands that meet its hypotheses. -/
theorem meets_RegisterReads :
    (let s : State := State.reset
     let off : BitVec 26 := TCK_STEP_LO.off
     s.hubUp = true ∧
     off.toNat % 4 = 0 ∧
     snapPair off.toNat = true) ∧
    (let s : State := State.reset
     let off : BitVec 26 := TCK_STEP_LO.off + 4
     s.hubUp = true ∧
     off.toNat % 4 = 0 ∧
     4 ≤ off.toNat ∧
     snapPair (off.toNat - 4) = true) ∧
    (let s : State := State.reset
     let off : BitVec 26 := 0
     s.hubUp = true ∧
     off.toNat % 4 = 0 ∧
     snapPair off.toNat = false ∧
     snapPair (off.toNat - 4) = false ∧
     isMbx off.toNat = false ∧
     off.toNat < 0x200000) ∧
    (let s : State := State.reset
     let off : BitVec 26 := HUB_SERIAL_LO.off
     s.hubUp = true ∧
     off.toNat % 4 = 0 ∧
     snapPair off.toNat = true ∧
     off.toNat < 0x200000 ∧
     s.host.closed = false ∧
     s.mayRead true 2 off.toNat = true) ∧
    (let s : State := st [(PRT_IND_SEL.OBJ 0, 4)]
     let p : PartId := 0
     let off : BitVec 12 := 0xFFC
     s.hubUp = true ∧
     off.toNat % 4 = 0 ∧
     s.indSel 0 p.val = none) ∧
    (let s : State := st [(PRT_IND_SEL.OBJ 0, 4), (PRT_IND_SEL.CORE 0, 255)]
     let p : PartId := 0
     let off : BitVec 12 := 0xFFC
     let a : IndAnswer := .noResponse
     s.hubUp = true ∧
     off.toNat % 4 = 0 ∧
     (s.indSel 0 p.val).isSome = true ∧
     (a = .noResponse ∨ s.indMute 0 p.val = true)) ∧
    (let s : State := st [(PRT_IND_SEL.OBJ 0, 4), (PRT_IND_SEL.CORE 0, 255)]
     let p : PartId := 0
     let off : BitVec 12 := 0xFFC
     let l : List Byte := (s.indSel 0 p.val).getD []
     s.hubUp = true ∧
     off.toNat % 4 = 0 ∧
     s.indSel 0 p.val = some l ∧
     s.indMute 0 p.val = false ∧
     s.fget (PRT_IND_SEL.OBJ p.val) ≠ 3) := by
  refine ⟨?_, ?_, ?_, ?_, ?_, ?_, ?_⟩ <;> decide +kernel

/-- Every clause of FaultMessages has a state and operands that meet its hypotheses. -/
theorem meets_FaultMessages :
    (let s : State := State.reset
     let f : FaultMsg := { code := 0x0001, inj := false, gen := 1, src := 0, addr := 0, arg := 0 }
     s.hubUp = true ∧
     f.code.toNat ∈ faultCodes ∧
     s.staleMsg f = false ∧
     f.inj = false ∧
     s.flt.incidents = [] ∧
     s.flt.queue.length < 1024 ∧
     faultBase f.code.toNat = some 0) ∧
    (let s : State := State.reset
     let f : FaultMsg := { code := 0x0101, inj := false, gen := 1, src := 0, addr := 0, arg := 0 }
     let c : Nat := (faultBase 0x0101).getD 0
     let i : Nat := 0
     s.hubUp = true ∧
     f.code.toNat ∈ faultCodes ∧
     s.staleMsg f = false ∧
     f.inj = false ∧
     s.flt.incidents = [] ∧
     s.flt.queue.length < 1024 ∧
     faultBase f.code.toNat = some c ∧
     1 ≤ c ∧
     c ≤ 2 ∧
     s.srcExits.flt.srcs.find? (fun e => e.2.state ≠ 0 && e.2.cls = codeClass f.code.toNat && e.2.src = f.src) = none ∧
     firstBelow 512 (fun j => (s.srcExits.srcEnt j).state = 0) = some i) ∧
    (let s : State := { st [(FLT_PROMO.COUNT, 1)] with flt := { FltSt.init with srcs := [(511, ⟨1, 0, 1, 0, 0, 0⟩)] } }
     let f : FaultMsg := { code := 0x0101, inj := false, gen := 1, src := 0, addr := 0, arg := 0 }
     let c : Nat := (faultBase 0x0101).getD 0
     let i : Nat := 511
     let e : SrcEnt := ⟨1, 0, 1, 0, 0, 0⟩
     s.hubUp = true ∧
     f.code.toNat ∈ faultCodes ∧
     s.staleMsg f = false ∧
     f.inj = false ∧
     s.flt.incidents = [] ∧
     s.flt.queue.length < 1024 ∧
     faultBase f.code.toNat = some c ∧
     1 ≤ c ∧
     c ≤ 2 ∧
     s.srcExits.flt.srcs.find? (fun e => e.2.state ≠ 0 && e.2.cls = codeClass f.code.toNat && e.2.src = f.src) = some (i, e) ∧
     e.state = 1 ∧
     s.fget FLT_PROMO.COUNT ≤ e.count + 1) ∧
    (let s : State := State.reset
     let f : FaultMsg := { code := 0x0004, inj := false, gen := 1, src := 0, addr := 0, arg := 0 }
     s.hubUp = true ∧
     f.code.toNat ∈ faultCodes ∧
     s.staleMsg f = false ∧
     f.inj = false ∧
     s.flt.incidents = [] ∧
     s.flt.queue.length < 1024 ∧
     faultBase f.code.toNat = some 4) ∧
    (let s : State := run []
     let f : FaultMsg := { code := 0x0201, inj := false, gen := 1, src := 0, addr := 0, arg := 0 }
     let n : Ctx := 15
     s.hubUp = true ∧
     f.code.toNat ∈ faultCodes ∧
     s.staleMsg f = false ∧
     f.inj = false ∧
     s.flt.incidents = [] ∧
     s.flt.queue.length < 1024 ∧
     faultBase f.code.toNat = none ∧
     s.runningCtx (bits f.src.toNat 3 0) = some n) := by
  refine ⟨?_, ?_, ?_, ?_, ?_⟩ <;> decide +kernel

/-- Every clause of StaleMessages has a state and operands that meet its hypotheses. -/
theorem meets_StaleMessages :
    (let s : State := State.reset
     let f : FaultMsg := { code := 0x0201, inj := false, gen := 255, src := 0, addr := 0, arg := 0 }
     s.hubUp = true ∧
     f.code.toNat ∈ faultCodes ∧
     codeInPart f.code.toNat = true ∧
     f.gen.toNat ≠ s.gen (bits f.src.toNat 3 0)) := by decide +kernel

/-- Every clause of CompletionAndCalibration has a state and operands that meet its hypotheses. -/
theorem meets_CompletionAndCalibration :
    (let s : State := run []
     let n : Ctx := 15
     let u : State := { s with now := max s.now (s.tick.bound + s.closePoint n.val) }
     u = { s with now := max s.now (s.tick.bound + s.closePoint n.val) } ∧
     u.working n.val = true ∧
     s.fget (RIG_SL_STAT.SHADOW n.val) ≠ 3 ∧
     u.lateCores n.val = [] ∧
     u.lateStrands n.val = [] ∧
     u.lateOuts n.val = [] ∧
     u.latePorts n.val = [] ∧
     u.lateTrees n.val = [] ∧
     u.lateWrites n.val = [] ∧
     u.lateMirrors n.val = [] ∧
     s.tick.unarmed = [] ∧
     (u.engsOf n.val).all (fun k => (u.engLate n.val k).isNone) = true) ∧
    (let s : State := coreRun 0 0 0 0
     let n : Ctx := 15
     let u : State := { s with now := max s.now (s.tick.bound + s.closePoint n.val) }
     u = { s with now := max s.now (s.tick.bound + s.closePoint n.val) } ∧
     u.working n.val = true ∧
     s.fget (RIG_SL_STAT.SHADOW n.val) ≠ 3 ∧
     u.lateCores n.val ≠ [] ∧
     s.flt.incidents = []) ∧
    (let s : State := run [⟨0x0003, everyHub, 0, leBytes 80 ((2 ^ 24 + 255 * 2 ^ 64) * 2 ^ 128)⟩]
     let n : Ctx := 15
     let j : Fin 4 := 0
     let d : SlotDef := ⟨0, 0, true, false, 0, 255, 0⟩
     (s.sched n.val).slots[j.val]? = some d ∧
     s.slotDue n.val d = true) ∧
    (let s : State := { run [] with now := 10 ^ 9 }
     let p : PartId := 0
     let k : Chan := 7
     let n : Nat := 15
     s.ctxHolding p.val = some n ∧
     2 ≤ s.slState n ∧
     s.slState n ≤ 4 ∧
     (s.ch (8 * p.val + k.val)).slotAt + msUnits 32 < s.now ∧
     (s.fget (PRT_MEM_STAT.CAL_DUE p.val)).testBit k.val = false) ∧
    (let s : State := { st [(LNK_STAT.STATE 15, 6), (TCK_LCAL.LENGTH, 1), (TCK_CTL.LCAL_EN, 1), (LNK_STAT.NEED_W 15, 1)] with port := [(15, { PortSt.init with rxAct := [0, 1, 2, 3, 4] })] }
     let p : Port := 15
     let lane : Nat := 0
     let first : Nat := s.seqAt p.val s.calFrom
     5 ≤ s.fget (LNK_STAT.STATE p.val) ∧
     s.fget (LNK_STAT.STATE p.val) ≤ 6 ∧
     s.calTick = true ∧
     s.now < s.calTo ∧
     (s.po p.val).cal = none ∧
     s.flag (LNK_CTL.LCAL_SKIP p.val) = false ∧
     5 ≤ (s.po p.val).rxAct.length ∧
     s.fget (LNK_STAT.NEED_W p.val) < (s.po p.val).rxAct.length ∧
     ((s.po p.val).rxAct.find? (fun i => (s.po p.val).calRot ≤ i)).getD ((s.po p.val).rxAct.headD 0) = lane ∧
     s.seqAt p.val s.calFrom = first) := by
  refine ⟨?_, ?_, ?_, ?_, ?_⟩ <;> decide +kernel

/-- An operation and a sub-operation, the entries that CoreEntries takes for it, and what it plans. -/
def coreOp (op sub : Nat) (p : Desc → Bool) (f : Banks → Desc → Nat → CoreSt → Rng → Plan) :
    Nat × Nat × (Desc → Bool) × (Banks → Desc → Nat → CoreSt → Rng → Plan) := (op, sub, p, f)

/-- The rows of CoreEntries. -/
def coreOps : List (Nat × Nat × (Desc → Bool) × (Banks → Desc → Nat → CoreSt → Rng → Plan)) :=
  [coreOp 1 0 (fun d => d.op = 1) (fun b d r x g => planMatmul b d r x.accs g),
   coreOp 2 0 (fun d => d.op = 2) (fun b d r x g => planMatmul b d r x.accs g),
   coreOp 3 0 (fun d => d.op = 3) (fun b d r _ g => planOuter b d r g)] ++
  (List.range 8).map (fun i =>
    coreOp 4 i (fun d => d.op = 4 && d.sub % 16 = i) (fun b d r x g => keepAcc x (planVec b d r g))) ++
  [coreOp 5 0 (fun d => d.op = 5) (fun b d r x g => keepAcc x (planFunc b d r [] g))] ++
  (List.range 8).map (fun i =>
    coreOp 6 i (fun d => d.op = 6 && d.sub = i) (fun b d r x g => planReduce b d r x.accs x.maxs g)) ++
  [coreOp 7 0 (fun d => d.op = 7) (fun b d r x g => keepAcc x (planConvert b d r g)),
   coreOp 8 0 (fun d => d.op = 8 && d.sub = 0) (fun b d r x g => keepAcc x (planCopy b d r g)),
   coreOp 8 1 (fun d => d.op = 8 && d.sub = 1) (fun b d r x g => keepAcc x (planOut b d r d.addrA (d.k * r) g)),
   coreOp 8 2 (fun d => d.op = 8 && d.sub = 2) (fun b d r x g => keepAcc x (planOut b d r (b.cfg.inw d.pin).base
      (min (if d.pin then x.in1.cons else x.in0.cons) (d.k * r)) g))]

/-- Every entry of CoreEntries has a state that meets the hypotheses of its clauses: without a cycle to stop at, and with cycle 0. -/
theorem meets_CoreEntries : ∀ x ∈ coreOps,
    let s : State := coreRun 0 0 0 (x.1 + x.2.1 * 2 ^ 98)
    let k : Nat := c0.key
    let d : Desc := s.coreDesc 15 0
    let b : Banks := s.coreBanks 15 k
    let pl : Plan := x.2.2.2 b d (s.rowsOf 15 k d).1 (s.co k) (s.coreRng 15 k)
    (s.co k).work = none ∧ (s.co k).prog = 0 ∧ (s.co k).stalled = false ∧ s.entryAt k x.2.2.1 = some (15, d) ∧
      (s.co k).supp = 0 ∧ pl.reads.all (fun y => !s.unitBad b k y.2) = true ∧
      stallAt pl.emit 0 ((s.co k).outHeld d.pout) = none ∧ 0 < pl.cyc := by decide +kernel

/-- Every clause of VectorResults has a state and operands that meet its hypotheses. -/
theorem meets_VectorResults :
    (let s : State := coreRun 0 0 0 (4 + 10 * 2 ^ 12)
     let c : CoreId := c0
     let k : Nat := c.key
     let n : Nat := 15
     let d : Desc := s.coreDesc 15 0
     let b : Banks := s.coreBanks n k
     let r : Nat := (s.rowsOf n k d).1
     let e : Instr × Nat := (.vecAdd ⟨c, none⟩, 0)
     isHank d.fmtD = false ∧
     d.rnd ≠ 2 ∧
     (s.co k).supp = 0 ∧
     (s.co k).work = none ∧
     (s.co k).prog = 0 ∧
     (s.co k).stalled = false ∧
     e ∈ [(Instr.vecAdd ⟨c, none⟩, 0), (.vecSub ⟨c, none⟩, 1), (.vecMul ⟨c, none⟩, 2), (.vecFma ⟨c, none⟩, 3), (.vecMax ⟨c, none⟩, 4), (.vecMin ⟨c, none⟩, 5), (.vecAbs ⟨c, none⟩, 6), (.vecNeg ⟨c, none⟩, 7)] ∧
     s.entryAt k (fun d => d.op = 4 && d.sub % 16 = e.2) = some (n, d) ∧
     (planVec b d r (s.coreRng n k)).reads.all (fun x => !s.unitBad b k x.2) = true ∧
     stallAt (planVec b d r (s.coreRng n k)).emit 0 ((s.co k).outHeld d.pout) = none) ∧
    (let s : State := coreRun 0 0 0 (5 + 10 * 2 ^ 12)
     let c : CoreId := c0
     let k : Nat := c.key
     let n : Nat := 15
     let d : Desc := s.coreDesc 15 0
     let b : Banks := s.coreBanks n k
     let r : Nat := (s.rowsOf n k d).1
     let l : List Byte := s.funcTable n (corePart k) (coreClus k) (d.sub % 16)
     isHank d.fmtD = false ∧
     d.rnd ≠ 2 ∧
     (s.co k).supp = 0 ∧
     (s.co k).work = none ∧
     (s.co k).prog = 0 ∧
     (s.co k).stalled = false ∧
     s.entryAt k (fun d => d.op = 5) = some (n, d) ∧
     l = s.funcTable n (corePart k) (coreClus k) (d.sub % 16) ∧
     (planFunc b d r l (s.coreRng n k)).reads.all (fun x => !s.unitBad b k x.2) = true ∧
     stallAt (planFunc b d r l (s.coreRng n k)).emit 0 ((s.co k).outHeld d.pout) = none) := by decide +kernel

/-- Every clause of CoreControl has a state and operands that meet its hypotheses. -/
theorem meets_CoreControl :
    (let s : State := coreRun 0 0 0 (9 + 1 * 2 ^ 98)
     let c : CoreId := c0
     let k : Nat := c.key
     let n : Nat := 15
     let d : Desc := s.coreDesc 15 0
     let e : Instr × Bool := (.sendReply ⟨c, none⟩, true)
     let b := s.coreBanks n k
     let r := (s.rowsOf n k d).1
     let s1 := (s.rowsOf n k d).2
     let rows := if e.2 = true then s1.replyRows n k d b r else s1.dispatchRows n k d b r
     let last := 6 + r + r * (if d.sub.testBit 1 = true then 2 else 1) * sendRowCycles d
     let msgs := s1.sendMsgs n k (if e.2 = true then 2 else 1) (s.coreEp k (d.sub.testBit 2)) last (rows.filterMap id)
     e ∈ [(Instr.sendDispatch ⟨c, none⟩, false), (.sendReply ⟨c, none⟩, true)] ∧
     s.entryAt k (fun d => d.op = 9 && d.sub.testBit 0 == e.2) = some (n, d) ∧
     (s.co k).work = none ∧
     (s.co k).prog = 0 ∧
     (s.co k).stalled = false ∧
     (sendReads b d r).all (fun x => !s.unitBad b k x.2) = true ∧
     stallAt (msgs.map (fun x => (x.1, Emit.packet x.2))) 0 ((s.co k).outHeld d.pout) = none) ∧
    (let s : State := coreRun 0 0 0 (10 + 0 * 2 ^ 106)
     let c : CoreId := c0
     let k : Nat := c.key
     let n : Nat := 15
     let d : Desc := s.coreDesc 15 0
     let e : Instr × Nat := (.waitDrain c, 0)
     e ∈ [(Instr.waitDrain c, 0), (.waitInject c, 1), (.waitOffset c, 2)] ∧
     s.entryAt k (fun d => d.op = 10 && d.imm = e.2) = some (n, d) ∧
     s.waitOver k d = true) ∧
    (let s : State := coreRun 0 0 0 (10 + 2 * 2 ^ 106 + 255 * 2 ^ 63)
     let c : CoreId := c0
     let k : Nat := c.key
     let n : Nat := 15
     let d : Desc := s.coreDesc 15 0
     let e : Instr × Nat := (.waitOffset c, 2)
     e ∈ [(Instr.waitDrain c, 0), (.waitInject c, 1), (.waitOffset c, 2)] ∧
     s.entryAt k (fun d => d.op = 10 && d.imm = e.2) = some (n, d) ∧
     s.waitOver k d = false) ∧
    (let s : State := (coreRun 0 0 0 (10 + 0 * 2 ^ 98 + 0 * 2 ^ 106)).modCo 0 (fun c => { c with waiting := true })
     let c : CoreId := c0
     let k : Nat := c.key
     let n : Nat := 15
     let d : Desc := s.coreDesc 15 0
     s.coreCtx k = some n ∧
     (s.co k).waiting = true ∧
     s.waitOver k (s.coreDesc n k) = true) ∧
    (let s : State := coreRun 0 0 0 (11 + 0 * 2 ^ 98 + 0 * 2 ^ 106)
     let c : CoreId := c0
     let k : Nat := c.key
     let n : Nat := 15
     let d : Desc := s.coreDesc 15 0
     s.entryAt k (fun d => d.op = 11 && d.sub = 0) = some (n, d) ∧
     (zeroReads (s.coreBanks n k) d).all (fun x => !s.unitBad (s.coreBanks n k) k x.2) = true) ∧
    (let s : State := coreRun 0 0 0 (11 + 1 * 2 ^ 98 + 0 * 2 ^ 106)
     let c : CoreId := c0
     let k : Nat := c.key
     let n : Nat := 15
     let d : Desc := s.coreDesc 15 0
     s.entryAt k (fun d => d.op = 11 && d.sub = 1) = some (n, d)) ∧
    (let s : State := coreRun 0 0 0 (0 + 0 * 2 ^ 98 + 0 * 2 ^ 106)
     let c : CoreId := c0
     let k : Nat := c.key
     let n : Nat := 15
     let d : Desc := s.coreDesc 15 0
     s.entryAt k (fun d => d.op = 0) = some (n, d) ∧
     s.endAt (s.co k).cyc ≤ s.closePoint n ∧
     n < 16) ∧
    (let s : State := coreRun 0 (2 ^ 15 + 2 ^ 24) 0 (0 + 0 * 2 ^ 98 + 0 * 2 ^ 106)
     let c : CoreId := c0
     let k : Nat := c.key
     let n : Nat := 15
     let d : Desc := s.coreDesc 15 0
     let port : Bool := false
     let w : InWord := (s.coreCfg n k).inw port
     let x : InPort := (s.co k).inp port
     s.ctxHolding (corePart k) = some n ∧
     s.working n = true ∧
     w.mode = 0 ∧
     x.fill < w.cap * w.stride) ∧
    (let s : State := coreRun 0 (2 ^ 14 + 2 ^ 24) 0 (0 + 0 * 2 ^ 98 + 0 * 2 ^ 106)
     let c : CoreId := c0
     let k : Nat := c.key
     let n : Nat := 15
     let d : Desc := s.coreDesc 15 0
     let port : Bool := false
     let w : InWord := (s.coreCfg n k).inw port
     let x : InPort := (s.co k).inp port
     let p : Packet := { pk0 with slice := 5, count := 1, typ := 2 }
     s.ctxHolding (corePart k) = some n ∧
     s.takes n p = true ∧
     w.cap ≠ 0 ∧
     modeFits w.mode p = true ∧
     p.seq.toNat < p.count.toNat ∧
     x.holds p = false) ∧
    (let s : State := (coreRun 0 (2 ^ 14 + 2 ^ 24) 0 0).modCo 0 (fun c => { c with in0 := ⟨0, 0, [⟨0, 0, 1, [0]⟩]⟩ })
     let c : CoreId := c0
     let k : Nat := c.key
     let n : Nat := 15
     let d : Desc := s.coreDesc 15 0
     let port : Bool := false
     let w : InWord := (s.coreCfg n k).inw port
     let x : InPort := (s.co k).inp port
     let p : Packet := { pk0 with slice := 5, count := 1, typ := 2 }
     s.ctxHolding (corePart k) = some n ∧
     s.takes n p = true ∧
     w.cap ≠ 0 ∧
     modeFits w.mode p = true ∧
     p.seq.toNat < p.count.toNat ∧
     x.holds p = true) ∧
    (let s : State := State.reset
     True) ∧
    (let s : State := State.reset
     True) := by
  refine ⟨?_, ?_, ?_, ?_, ?_, ?_, ?_, ?_, ?_, ?_, ?_, ?_⟩ <;> decide +kernel

/-- Slice 5 with a job of one element for engine 0, whose recipe has `n` operations and comes to `op`. -/
def engRun (n op : Nat) : State :=
  { run [⟨0x0032, endpointAgent 0 0, 1, leBytes 16 0 ++ leBytes 96 (2 ^ 32 + 2 ^ 64)⟩,
      ⟨0x0031, endpointAgent 0 0, 1, leBytes 160 (n + 0x4A0 * 2 ^ 64 + op * 2 ^ 256)⟩] with
    eng := [(0, { EngSt.init with run := some (0, 0), cur := some ⟨0, 0, []⟩ })] }
/-- The job that its engine 0 works at. -/
def upj (s : State) : UpJob := ((s.engWork 0).map Prod.snd).getD ⟨0, 0, recipeOf [], false, false, false, 0, 0, [], [], 0, 0, 0, 0⟩

/-- Every recipe operation has a state that meets the hypotheses of both clauses: not the last one, and the last one. -/
theorem meets_RecipeOperations : ∀ i ∈ List.range 9,
    (let s : State := engRun 2 i
     let u : UpJob := upj s
     s.engWork 0 = some (15, u) ∧ (s.en 0).cur = some ⟨0, 0, []⟩ ∧ s.raced 0 u 0 = false ∧
       bits (u.rcp.ops.getD 0 0) 3 0 = i ∧ 0 + 1 < u.rcp.nops) ∧
    (let s : State := engRun 1 i
     let u : UpJob := upj s
     s.engWork 0 = some (15, u) ∧ (s.en 0).cur = some ⟨0, 0, []⟩ ∧ s.raced 0 u 0 = false ∧
       bits (u.rcp.ops.getD 0 0) 3 0 = i ∧ u.rcp.nops = 0 + 1 ∧ u.rcp.pubEn = false ∧ u.mirror = false ∧
       (s.en 0).supp = 0 ∧ u.rcp.enabled = [(0, 0, 10, 0)]) := by decide +kernel

/-- Slice 5 with a PUBLISHED region of one tile record, whose bank 0 of core 0 is a WEIGHT bank of zeros; every step is a publication
tick. The digests of its tile's header are those given and zero. -/
def tiles (d : List Byte) : State :=
  { run [⟨0x0030, endpointAgent 0 0, 1, leBytes 16 (5 * 8 + 257 * 2 ^ 64)⟩,
      ⟨0x0032, endpointAgent 0 0, 1, leBytes 16 8 ++ leBytes 16 (2 ^ 32 + 2 ^ 64)⟩,
      ⟨0x0003, everyHub, 0, leBytes 84 (2 ^ 80 + 2 ^ 656)⟩,
      ⟨0x0010, routerAgent 0 0 0, 1, leBytes 16 0 ++ leBytes 544 1⟩] with
    mem := d.zipIdx.map (fun e => (8 + e.2, e.1)) }

/-- Every clause of UpdateAndPublication has a state and operands that meet its hypotheses. -/
theorem meets_UpdateAndPublication :
    (let s : State := (engRun 1 0).modEn 0 (fun x => { x with cur := none })
     let e : EngId := ⟨0, 0⟩
     let k : Nat := e.key
     let n : Nat := 15
     let u : UpJob := upj s
     s.engWork k = some (n, u) ∧
     s.memBad = [] ∧
     (s.en k).cur = none ∧
     (s.en k).held = [] ∧
     (s.en k).tick = 0 ∧
     s.fab.reads = [] ∧
     u.rcp.nops ≠ 0 ∧
     u.rcp.pubEn = false ∧
     u.mirror = false ∧
     s.quota k u ≠ 0) ∧
    (let s : State := tiles []
     let e : EngId := ⟨0, 0⟩
     let k : Nat := e.key
     let n : Nat := 15
     let i : Nat := 0
     let base : Nat := 0
     let tiles : Nat := 1
     let qt : Nat := 1
     s.engCtx k = some n ∧
     s.pubWork n k = some (i, base, tiles, qt) ∧
     s.memBad = [] ∧
     (s.en k).ran = false ∧
     (s.en k).pubTick = 0 ∧
     (s.en k).pubNext < tiles ∧
     1 ≤ qt) ∧
    (let s : State := State.reset
     True) := by
  refine ⟨?_, ?_, ?_⟩ <;> decide +kernel

/-- Every clause of MemoryMaintenance has a state and operands that meet its hypotheses. -/
theorem meets_MemoryMaintenance :
    (let s : State := (tiles []).modCo 0 (fun x => { x with bad := [0] })
     let c : ClusId := ⟨0, 0⟩
     let n : Nat := 15
     let w : Nat := 0
     let wrap : Bool := false
     let core : Nat := 250 * c.key + w / 24
     let bank : Nat := w % 24
     s.ctxHolding (c.key / 75) = some n ∧
     s.flag (PRT_SCR_CTL.EN (c.key / 75)) = true ∧
     s.nextWeight n (c.key / 75) (c.key % 75) (s.cl c.key).scrub = some (w, wrap) ∧
     s.memBad = [] ∧
     (s.cl (core / 250)).fenced.contains (24 * coreIdx core + bank) = false ∧
     (s.co core).bad.any (fun x => x / 8192 = bank) = true ∧
     core / 250 = c.key) ∧
    (let s : State := State.reset
     let p : PartId := 0
     let k : Chan := 0
     let a : Nat := mlaOf p.val k.val (512 * (s.ch (8 * p.val + k.val)).scrub)
     (s.ch (8 * p.val + k.val)).selfRef = false ∧
     s.memBadIn a 512 = none) ∧
    (let s : State := { State.reset with memBad := [511] }
     let p : PartId := 0
     let k : Chan := 0
     let a : Nat := mlaOf p.val k.val (512 * (s.ch (8 * p.val + k.val)).scrub)
     let b : Nat := 511
     (s.ch (8 * p.val + k.val)).selfRef = false ∧
     s.memBadIn a 512 = some b ∧
     s.ctxHolding p.val = none ∧
     mlaPart b = p.val) ∧
    (let s : State := mirrored
     let p : PartId := 0
     let k : Chan := 0
     let g : BitVec 24 := 0
     let data : List Byte := List.replicate 512 0
     let n : Nat := 15
     let a : Nat := mlaOf p.val k.val (512 * g.toNat)
     data.length = 512 ∧
     g.toNat < chanGroups ∧
     s.ctxHolding p.val = some n ∧
     (s.mlaType a = 1 ∨ s.mlaType a = 2) ∧
     (s.mirrorSrc n (8 * p.val + k.val) a).isSome = true) ∧
    (let s : State := State.reset
     True) ∧
    (let s : State := State.reset
     let p : PartId := 15
     let k : Chan := 7
     (s.fget (PRT_MEM_STAT.DEGRADED p.val)).testBit k.val = false) := by
  refine ⟨?_, ?_, ?_, ?_, ?_, ?_⟩ <;> decide +kernel

/-- The same with the bank fenced, after an abort. -/
def fenced (d : List Byte) : State :=
  { tiles d with
    clus := [(0, { ClusSt.init with fenced := [0] })], ctx := [(15, { (tiles []).cx 15 with aborted := true })] }

theorem tiles_read (d : List Byte) (h : d.length = 16) (c i : Nat) : (tiles d).memGet (64 + 8192 * c + i) = 0 := by
  match d, h with
  | [_, _, _, _, _, _, _, _, _, _, _, _, _, _, _, _], _ =>
    simp only [tiles, State.memGet, List.zipIdx_cons, List.zipIdx_nil, List.map_cons, List.map_nil, Store.get]
    repeat rw [if_neg (by omega)]
    rfl

theorem tiles_word (d : List Byte) (h : d.length = 16) : slice ((tiles d).memRead 0 64) 0 4 = [0, 0, 0, 0] := by
  match d, h with
  | [_, _, _, _, _, _, _, _, _, _, _, _, _, _, _, _], _ => rfl

theorem tiles_dig (d : List Byte) (h : d.length = 16) : ((tiles d).tileHdr 0).dig0 = d := by
  match d, h with
  | [_, _, _, _, _, _, _, _, _, _, _, _, _, _, _, _], _ => rfl

theorem tiles_cur (d : List Byte) (h : d.length = 16) :
    ((tiles d).tileHdr 0).cur = false ∧ ((tiles d).tileHdr 0).pend = false := by
  show bit (leNat (slice ((tiles d).memRead 0 64) 0 4)) 20 = false ∧ bit (leNat (slice ((tiles d).memRead 0 64) 0 4)) 21 = false
  rw [tiles_word d h]
  exact ⟨rfl, rfl⟩

theorem tiles_pos (d : List Byte) (h : d.length = 16) :
    ((tiles d).tileHdr 0).clus = 0 ∧ ((tiles d).tileHdr 0).core = 0 ∧ ((tiles d).tileHdr 0).bank = 0 := by
  show bits (leNat (slice ((tiles d).memRead 0 64) 0 4)) 6 0 = 0 ∧ bits (leNat (slice ((tiles d).memRead 0 64) 0 4)) 14 7 = 0 ∧
    bits (leNat (slice ((tiles d).memRead 0 64) 0 4)) 19 15 = 0
  rw [tiles_word d h]
  exact ⟨rfl, rfl, rfl⟩

theorem tiles_sect (d : List Byte) (n t a : Nat) : (tiles d).sect n t a = (tiles []).sect n t a := rfl

theorem tiles_mod (d : List Byte) : (tiles d).modId = (tiles []).modId := rfl

theorem tiles_en (d : List Byte) : (tiles d).flag (PRT_SCR_CTL.EN 0) = true := by
  have h : (tiles []).flag (PRT_SCR_CTL.EN 0) = true := by decide +kernel
  exact h

theorem tiles_weight (d : List Byte) : (tiles d).nextWeight 15 0 0 ((tiles d).cl 0).scrub = some (0, false) := by
  have h : (tiles []).nextWeight 15 0 0 0 = some (0, false) := by decide +kernel
  unfold State.nextWeight at h ⊢
  rw [tiles_sect d, tiles_mod d]
  exact h

theorem tiles_list (d : List Byte) : (tiles d).tiles 15 (corePart 0) = [0] := by
  have h : (tiles []).tiles 15 (corePart 0) = [0] := by decide +kernel
  exact h

theorem tiles_of (d : List Byte) (h : d.length = 16) : (tiles d).tileOf 15 0 0 = some 0 := by
  obtain ⟨h1, h2, h3⟩ := tiles_pos d h
  unfold State.tileOf
  rw [tiles_list]
  simp only [List.find?, h1, h2, h3]
  rfl

/-- Bytes of a bank of zeros. -/
def zeros : List Byte := (List.range 8192).map (fun _ => (0 : Byte))

/-- The hypotheses of MemoryMaintenance about a bank that passes and about a republication. -/
abbrev TileClauses (d : List Byte) : Prop :=
  (let s : State := tiles d
   let n : Nat := 15
   s.ctxHolding 0 = some n ∧ s.flag (PRT_SCR_CTL.EN 0) = true ∧ s.nextWeight n 0 0 (s.cl 0).scrub = some (0, false) ∧
   s.memBad = [] ∧ (s.cl 0).fenced.contains 0 = false ∧ s.tileOf n 0 0 = some 0 ∧ (s.tileHdr 0).pend = false ∧
   (s.co 0).bad.any (fun x => x / 8192 = 0) = false ∧
   slotDigest ((List.range 8192).map (fun i => Store.get byteZero (s.co 0).banks (8192 * 0 + i))) =
     (if (s.tileHdr 0).cur = true then (s.tileHdr 0).dig1 else (s.tileHdr 0).dig0)) ∧
  (let s : State := fenced d
   let n : Nat := 15
   s.ctxHolding 0 = some n ∧ (s.cl 0).fenced.contains 0 = true ∧ s.mayRepublish n 0 = true ∧ s.tileOf n 0 0 = some 0 ∧
   s.memBad = [] ∧ (s.tileHdr 0).pend = false ∧
   slotDigest (s.memRead (tileSlot 0 (s.tileHdr 0).cur) 8192) =
     (if (s.tileHdr 0).cur = true then (s.tileHdr 0).dig1 else (s.tileHdr 0).dig0))

/-- The clauses of MemoryMaintenance about a bank that passes and about a republication have states that meet their hypotheses: the
header's digest is that of the bank's bytes. -/
theorem meets_MemoryMaintenance_digests :
    ∃ d : List Byte, TileClauses d := by
  have h : ∀ d : List Byte, d.length = 16 → slotDigest zeros = d → TileClauses d := by
    intro d h g
    have c := tiles_cur d h
    have e := tiles_dig d h
    have k : (tiles d).ctxHolding 0 = some 15 ∧ (tiles d).flag (PRT_SCR_CTL.EN 0) = true := ⟨rfl, tiles_en d⟩
    have m : (fenced d).mayRepublish 15 0 = true := by
      unfold State.mayRepublish
      rw [show ((fenced d).cx 15).aborted = true from rfl, Bool.not_true, Bool.and_false]
      rfl
    refine ⟨⟨k.1, k.2, tiles_weight d, rfl, rfl, tiles_of _ h, c.2, rfl, ?_⟩, ?_, rfl, m, ?_, rfl, c.2, ?_⟩
    · rw [c.1, e]
      exact g
    · show (tiles d).ctxHolding 0 = some 15
      exact k.1
    · unfold State.tileOf
      rw [show (fenced d).tiles 15 (corePart 0) = (tiles d).tiles 15 (corePart 0) from rfl, tiles_list]
      obtain ⟨h1, h2, h3⟩ := tiles_pos d h
      simp only [List.find?, show (fenced d).tileHdr 0 = (tiles d).tileHdr 0 from rfl, h1, h2, h3]
      rfl
    · show slotDigest ((tiles d).memRead (tileSlot 0 ((tiles d).tileHdr 0).cur) 8192) =
        if ((tiles d).tileHdr 0).cur = true then _ else ((tiles d).tileHdr 0).dig0
      rw [c.1, e]
      have q : (tiles d).memRead (tileSlot 0 false) 8192 = zeros := List.map_congr_left (fun i _ => tiles_read d h 0 i)
      rw [q]
      exact g
  exact ⟨_, h _ (shake256_length 16 zeros) rfl⟩

/-- A full image of slice 5 on partition 0 of module 0: IMAGE_INFO, SLICE_MAP and TICK_SCHED with their digests. -/
def image5 : List Byte :=
  leBytes 32 0x1d000000000000000030000000147495244 ++
  leBytes 32 0xff54a209c1ea0b73af4a40c6457436f6128167a3bf9fd6d7e0e144c16d83d1c9 ++
  leBytes 32 0x72866c7a0000004000000000000000c000000001000000000000000000000001 ++
  leBytes 32 0x2bf29da700000064000000000000010000000001038000000000000500000002 ++
  leBytes 32 0x6b9469e500000050000000000000018000000001038000000000000500000003 ++ leBytes 32 0 ++ leBytes 64 (2 ^ 48) ++
  leBytes 96 (5 + 2 ^ 128) ++ leBytes 32 4096 ++
  leBytes 80 (5000 + 1000 * 2 ^ 32 + (16 + 2 ^ 24 + 500 * 2 ^ 32 + 255 * 2 ^ 64) * 2 ^ 128)

/-- The ACTING module with slice 5 reserved in context 15 and its image at address 0. -/
def holding5 : State :=
  mem0 image5 { st [(FAB_MGR_STAT.ROLE, 2), (FAB_SELF.VALID, 1)] with
    mgr := { MgrSt.init with manifest := man 0 1 [0, 1], resv := [⟨5, [(0, 1)], 0, [(0, 15)], []⟩] } }

/-- The ACTING module with a verified shadow of slice 0, whose one member has reported. -/
def verified : State :=
  { st [(FAB_MGR_STAT.ROLE, 2), (RIG_SL_STAT.SHADOW 0, 2), (RIG_AT_LO.AT, 99)] with
    ctx := [(0, { CtxSt.init with shadow := [⟨3, everyHub, 0, leBytes 4 5000⟩] })],
    mgr := { MgrSt.init with
      resv := [⟨0, [(0, 1)], 0, [(0, 0)], []⟩],
      load := { MgrSt.init.load with reports := [(4096, 0, List.replicate 32 0, 0), (0, 0, List.replicate 32 0, 0)] } } }

/-- What LOAD finds at address 0. -/
theorem holding5_staged : holding5.stagedImage = some (imageOf image5) := by decide +kernel

set_option maxRecDepth 20000 in
/-- The image passes every check of the loader. -/
theorem holding5_good : (holding5.rigCode 0 0).imageErr (imageOf image5) = none := by decide +kernel

set_option maxRecDepth 20000 in
/-- Every clause of LoadAndCommit has a state and operands that meet its hypotheses (part 1). -/
theorem meets_LoadAndCommit_1 :
    (let s : State := State.reset
     let m : Master := 0
     let v : Word := wd [(RIG_CMD.CMD, 1)]
     let sid : Nat := RIG_CMD.SLICE_ID.of v
     let step : Nat := s.pair RIG_AT_LO.off
     let n : Nat := 0
     s.admits m RIG_CMD.off v = true ∧
     RIG_CMD.CMD.of v = 1 ∧
     s.acting = false) := by decide +kernel

set_option maxRecDepth 20000 in
/-- Every clause of LoadAndCommit has a state and operands that meet its hypotheses (part 2). -/
theorem meets_LoadAndCommit_2 :
    (let s : State := st [(FAB_MGR_STAT.ROLE, 2), (RIG_STAT.BUSY, 1)]
     let m : Master := 0
     let v : Word := wd [(RIG_CMD.CMD, 1)]
     let sid : Nat := RIG_CMD.SLICE_ID.of v
     let step : Nat := s.pair RIG_AT_LO.off
     let n : Nat := 0
     s.admits m RIG_CMD.off v = true ∧
     RIG_CMD.CMD.of v = 1 ∧
     s.acting = true ∧
     s.flag RIG_STAT.BUSY = true) := by decide +kernel

set_option maxRecDepth 20000 in
/-- Every clause of LoadAndCommit has a state and operands that meet its hypotheses (part 3). -/
theorem meets_LoadAndCommit_3 :
    (let s : State := st [(FAB_MGR_STAT.ROLE, 2), (RIG_SRC_HI.SRC, 255)]
     let m : Master := 0
     let v : Word := wd [(RIG_CMD.CMD, 1)]
     let sid : Nat := RIG_CMD.SLICE_ID.of v
     let step : Nat := s.pair RIG_AT_LO.off
     let n : Nat := 0
     s.admits m RIG_CMD.off v = true ∧
     RIG_CMD.CMD.of v = 1 ∧
     s.acting = true ∧
     s.flag RIG_STAT.BUSY = false ∧
     s.rewarming = false ∧
     s.stagedImage = none) := by decide +kernel

set_option maxRecDepth 20000 in
/-- Every clause of LoadAndCommit has a state and operands that meet its hypotheses (part 4). -/
theorem meets_LoadAndCommit_4 :
    (let s : State := st [(FAB_MGR_STAT.ROLE, 2)]
     let m : Master := 0
     let v : Word := wd [(RIG_CMD.CMD, 1)]
     let x : Image := s.stagedImage.getD (imageOf [])
     let e : RigErr := ((s.rigCode 0 0).imageErr x).getD ⟨0, 0, 0, 0⟩
     s.admits m RIG_CMD.off v = true ∧
     RIG_CMD.CMD.of v = 1 ∧
     s.acting = true ∧
     s.flag RIG_STAT.BUSY = false ∧
     s.rewarming = false ∧
     s.stagedImage = some x ∧
     (s.rigCode 0 0).imageErr x = some e) := by decide +kernel

set_option maxRecDepth 20000 in
/-- Every clause of LoadAndCommit has a state and operands that meet its hypotheses (part 5). -/
theorem meets_LoadAndCommit_5 :
    (let s : State := holding5
     let m : Master := 0
     let v : Word := wd [(RIG_CMD.CMD, 1)]
     let x : Image := imageOf image5
     s.admits m RIG_CMD.off v = true ∧
     RIG_CMD.CMD.of v = 1 ∧
     s.acting = true ∧
     s.flag RIG_STAT.BUSY = false ∧
     s.rewarming = false ∧
     s.stagedImage = some x ∧
     (s.rigCode 0 0).imageErr x = none) := ⟨by decide +kernel, by decide +kernel, by decide +kernel, by decide +kernel, by decide +kernel, holding5_staged, holding5_good⟩

set_option maxRecDepth 20000 in
/-- Every clause of LoadAndCommit has a state and operands that meet its hypotheses (part 6). -/
theorem meets_LoadAndCommit_6 :
    (let s : State := holding5
     let m : Master := 0
     let v : Word := wd [(RIG_CMD.CMD, 1)]
     let x : Image := imageOf image5
     let i : Nat := 5
     let n : Nat := 15
     s.admits m RIG_CMD.off v = true ∧
     RIG_CMD.CMD.of v = 1 ∧
     s.acting = true ∧
     s.flag RIG_STAT.BUSY = false ∧
     s.rewarming = false ∧
     s.stagedImage = some x ∧
     (s.rigCode 0 0).imageErr x = none ∧
     x.slices = [i] ∧
     s.ctxFor i = some n ∧
     n < 16) := ⟨by decide +kernel, by decide +kernel, by decide +kernel, by decide +kernel, by decide +kernel, holding5_staged, holding5_good,
    by decide +kernel⟩

set_option maxRecDepth 20000 in
/-- Every clause of LoadAndCommit has a state and operands that meet its hypotheses (part 7). -/
theorem meets_LoadAndCommit_7 :
    (let s : State := st [(RIG_SL_STAT.SHADOW 0, 1)]
     let m : Master := 0
     let v : Word := wd [(RIG_CMD.CMD, 3)]
     let sid : Nat := RIG_CMD.SLICE_ID.of v
     let step : Nat := s.pair RIG_AT_LO.off
     let n : Nat := 0
     s.admits m RIG_CMD.off v = true ∧
     RIG_CMD.CMD.of v = 3 ∧
     ((s.acting = false ∧ m = 0) ∨ (s.acting = true ∧ s.mgr.load.slices.contains sid = false ∧ s.others sid = [])) ∧
     s.ctxOf sid = some n ∧
     s.fget (RIG_SL_STAT.SHADOW n) ≠ 0) := by decide +kernel

set_option maxRecDepth 20000 in
/-- Every clause of LoadAndCommit has a state and operands that meet its hypotheses (part 8). -/
theorem meets_LoadAndCommit_8 :
    (let s : State := { st [(RIG_SL_STAT.SHADOW 0, 2), (RIG_AT_LO.AT, 9)] with ctx := [(0, { CtxSt.init with shadow := [⟨3, everyHub, 0, leBytes 4 5000⟩] })] }
     let m : Master := 0
     let v : Word := wd [(RIG_CMD.CMD, 2)]
     let sid : Nat := RIG_CMD.SLICE_ID.of v
     let step : Nat := s.pair RIG_AT_LO.off
     let n : Nat := 0
     s.admits m RIG_CMD.off v = true ∧
     RIG_CMD.CMD.of v = 2 ∧
     m = 0 ∧
     s.acting = false ∧
     s.ctxOf sid = some n ∧
     s.slId n = sid ∧
     s.fget PWR_STAT.STATE = 0 ∧
     s.fget (RIG_SL_STAT.SHADOW n) = 2 ∧
     s.step < step ∧
     (s.shadSched n).period = s.periodAt step) := by decide +kernel

set_option maxRecDepth 20000 in
/-- Every clause of LoadAndCommit has a state and operands that meet its hypotheses (part 9). -/
theorem meets_LoadAndCommit_9 :
    (let s : State := st [(RIG_SL_STAT.SHADOW 0, 3)]
     let m : Master := 0
     let v : Word := wd [(RIG_CMD.CMD, 2)]
     let sid : Nat := RIG_CMD.SLICE_ID.of v
     let step : Nat := s.pair RIG_AT_LO.off
     let n : Nat := 0
     s.admits m RIG_CMD.off v = true ∧
     RIG_CMD.CMD.of v = 2 ∧
     m = 0 ∧
     s.acting = false ∧
     s.ctxOf sid = some n ∧
     s.fget (RIG_SL_STAT.SHADOW n) ≠ 2) := by decide +kernel

set_option maxRecDepth 20000 in
/-- Every clause of LoadAndCommit has a state and operands that meet its hypotheses (part 10). -/
theorem meets_LoadAndCommit_10 :
    (let s : State := st [(RIG_SL_STAT.SHADOW 0, 2)]
     let m : Master := 0
     let v : Word := wd [(RIG_CMD.CMD, 2)]
     let sid : Nat := RIG_CMD.SLICE_ID.of v
     let step : Nat := s.pair RIG_AT_LO.off
     let n : Nat := 0
     s.admits m RIG_CMD.off v = true ∧
     RIG_CMD.CMD.of v = 2 ∧
     m = 0 ∧
     s.acting = false ∧
     s.ctxOf sid = some n ∧
     s.fget PWR_STAT.STATE = 0 ∧
     s.fget (RIG_SL_STAT.SHADOW n) = 2 ∧
     step ≤ s.step) := by decide +kernel

set_option maxRecDepth 20000 in
/-- Every clause of LoadAndCommit has a state and operands that meet its hypotheses (part 11). -/
theorem meets_LoadAndCommit_11 :
    (let s : State := verified
     let m : Master := 0
     let v : Word := wd [(RIG_CMD.CMD, 2)]
     let sid : Nat := RIG_CMD.SLICE_ID.of v
     let step : Nat := s.pair RIG_AT_LO.off
     let n : Nat := 0
     let r : Resv := ⟨0, [(0, 1)], 0, [(0, 0)], []⟩
     let want : List Byte := List.replicate 32 0
     s.admits m RIG_CMD.off v = true ∧
     RIG_CMD.CMD.of v = 2 ∧
     s.acting = true ∧
     s.resvOf sid = some r ∧
     s.allReported sid = true ∧
     s.others sid = [] ∧
     r.members ≠ [] ∧
     s.ctxFor sid = some n ∧
     s.slId n = sid ∧
     s.fget (RIG_SL_STAT.SHADOW n) = 2 ∧
     s.mgr.load.reports.find? (fun x => x.1 = 4096 && x.2.1 = sid) = some (4096, sid, want, 0) ∧
     xorAll ((s.mgr.load.reports.filter (fun x => x.2.1 = sid && x.1 < 4096)).map (fun x => x.2.2.1)) = want ∧
     s.step + s.fget RIG_CTL.LEAD ≤ step ∧
     s.step + 1 < step ∧
     (s.shadSched n).period = s.periodAt step ∧
     (imageOf s.mgr.load.image).find sid 0x0003 = none ∧
     s.mgr.sby = 0 ∧
     s.mgr.commits = [] ∧
     s.mgr.awaits.any (fun a => a.job = 5) = false) := by decide +kernel

/-- After a wake from RETAIN: partition 0 was held by context 15, and its channel 0 has a copy of that rigging. -/
def warmed : State :=
  { st [(PWR_STAT.LP_VALID, 1), (FAB_MGR_ID.ACTING, 1)] with
    pwr := { State.reset.pwr with fromTgt := 2 }, part := [(0, { PartSt.init with reapply := [15] })],
    chan := [(0, { ChanSt.init with copies := [(15, ⟨[], [], [], [], 5, 0, 0, 2, true⟩)] })] }

/-- Every clause of LoadProgress has a state and operands that meet its hypotheses. -/
theorem meets_LoadProgress :
    (let s : State := { st [(RIG_SL_STAT.SHADOW 15, 1), (RIG_SL_STAT.SLICE_ID 15, 5)] with ctx := [(15, { CtxSt.init with shadow := [] })] }
     let n : Ctx := 15
     let agent : Word := 0
     let e : Nat × Nat × Nat := (3, 18, 0)
     s.fget (RIG_SL_STAT.SHADOW n.val) = 1 ∧
     (s.planDone = true ∨ (s.acting = true ∧ s.mgr.load.slices.contains (s.slId n.val) = true)) ∧
     (s.shadAgents n.val).contains agent.toNat = true ∧
     (s.cx n.val).shadDigs.any (fun d => d.1 = agent.toNat) = false ∧
     s.agentErr n.val agent.toNat = some e) ∧
    (let s : State := { st [(RIG_SL_STAT.SHADOW 15, 1), (RIG_SL_STAT.SLICE_ID 15, 5)] with ctx := [(15, { CtxSt.init with shadow := [mapSect 1, ⟨0x0003, everyHub, 0, leBytes 80 (5000 + 1000 * 2 ^ 32 + (16 + 2 ^ 24 + 500 * 2 ^ 32 + 255 * 2 ^ 64) * 2 ^ 128)⟩] })] }
     let n : Ctx := 15
     let agent : Word := 0
     s.fget (RIG_SL_STAT.SHADOW n.val) = 1 ∧
     (s.planDone = true ∨ (s.acting = true ∧ s.mgr.load.slices.contains (s.slId n.val) = true)) ∧
     (s.shadAgents n.val).contains agent.toNat = true ∧
     (s.cx n.val).shadDigs.any (fun d => d.1 = agent.toNat) = false ∧
     s.agentErr n.val agent.toNat = none) ∧
    (let s : State := { st [(RIG_SL_STAT.SHADOW 15, 1), (RIG_SL_STAT.SLICE_ID 15, 5)] with ctx := [(15, { CtxSt.init with shadow := [mapSect 1, ⟨0x0003, everyHub, 0, leBytes 80 (5000 + 1000 * 2 ^ 32 + (16 + 2 ^ 24 + 500 * 2 ^ 32 + 255 * 2 ^ 64) * 2 ^ 128)⟩] })] }
     let n : Ctx := 15
     let agent : Word := BitVec.ofNat 32 (routerAgent 0 0 0)
     s.fget (RIG_SL_STAT.SHADOW n.val) = 1 ∧
     (s.planDone = true ∨ (s.acting = true ∧ s.mgr.load.slices.contains (s.slId n.val) = true)) ∧
     (s.shadAgents n.val).contains agent.toNat = true ∧
     (s.cx n.val).shadDigs.any (fun d => d.1 = agent.toNat) = false ∧
     s.agentErr n.val agent.toNat = none ∧
     agentKind agent.toNat ≠ 1) ∧
    (let s : State := { State.reset with now := 10 ^ 12, mgr := { MgrSt.init with load := { MgrSt.init.load with active := true } } }
     s.mgr.load.active = true ∧
     s.mgr.load.begun + sUnits (s.fget RIG_CTL.TMO) ≤ s.now) ∧
    (let s : State := State.reset
     s.mgr.load.active = false) ∧
    (let s : State := run []
     let p : PartId := 0
     let n : Ctx := 15
     (s.pt p.val).owner = some n ∧
     s.flag (RIG_SL_STAT.ACTIVE n.val) = true) ∧
    (let s : State := warmed
     let p : PartId := 0
     let n : Ctx := 15
     let c : CopySt := ⟨[], [], [], [], 5, 0, 0, 2, true⟩
     s.rewarming = true ∧
     s.flag PWR_STAT.LP_VALID = true ∧
     s.fget PWR_STAT.STATE = 0 ∧
     s.flag PWR_STAT.MOVING = false ∧
     (s.pt p.val).closed = false ∧
     (s.pt p.val).reapply = [n] ∧
     s.goodCopy n.val p.val = some c ∧
     c.holds = true ∧
     c.step < 2 ^ 64 ∧
     (s.cx n.val).holdNext = none ∧
     s.fget FAB_MGR_ID.ACTING ≠ s.modId ∧
     s.flag FAB_MGR_ID.COORD_VALID = false) := by
  refine ⟨?_, ?_, ?_, ?_, ?_, ?_, ?_⟩ <;> decide +kernel

/-- Every clause of PacketForwarding has a state and operands that meet its hypotheses. -/
theorem meets_PacketForwarding :
    (let r : RouterId := ⟨0, 0⟩
     let inp : Fin 8 := 0
     let vc : Vc := .req
     let h : Queued := ⟨{ pk0 with typ := 15 }, 0, none, none, none⟩
     let l : List Queued := []
     let p : Packet := h.pkt
     let s : State := { State.reset with rtr := [(r.key, { RtrSt.init with bufs := [(0, [h])] })] }
     let k := r.key
     (s.rt k).queue inp.val vc.num = h :: l ∧
     h.pkt = p ∧
     p.good = false) ∧
    (let r : RouterId := ⟨0, 0⟩
     let inp : Fin 8 := 0
     let vc : Vc := .req
     let h : Queued := ⟨Packet.sealed { pk0 with typ := 1, dest := 0 }, 0, some 16, some 12, none⟩
     let l : List Queued := []
     let p : Packet := h.pkt
     let s : State := { st [(FAB_SELF.VALID, 1)] with rtr := [(r.key, { RtrSt.init with bufs := [(0, [h])] })] }
     let v : Nat := 16
     let g : Nat := 12
     let d : Nat := 1
     let k := r.key
     let x := r.x.val
     let y := r.y.val
     let free (d n : Nat) : Prop := s.outrankedAt k d (s.packetRank k d n) = false
     (s.rt k).queue inp.val vc.num = h :: l ∧
     h.pkt = p ∧
     p.good = true ∧
     (s.flag FAB_SELF.VALID = true ∨ linkLocal p h.via = true) ∧
     h.copies = none ∧
     h.via = some v ∧
     (v < 16 → s.portOpen v p = true) ∧
     s.goalOf k v h.goal p = some g ∧
     s.atSluice k v g vc.num = false ∧
     g / 8 ≠ k ∧
     vc ≠ .mgt ∧
     s.roomDirs x y (rtrXY (g / 8)).1 (rtrXY (g / 8)).2 vc.num p.units = [d] ∧
     free d vc.num) ∧
    (let r : RouterId := ⟨0, 0⟩
     let inp : Fin 8 := 0
     let vc : Vc := .req
     let h : Queued := ⟨Packet.sealed { pk0 with typ := 1, dest := 0 }, 0, some 16, some 12, none⟩
     let l : List Queued := []
     let p : Packet := h.pkt
     let s : State := { st [(FAB_SELF.VALID, 1)] with rtr := [(r.key, { RtrSt.init with bufs := [(0, [h])] }), (1, { RtrSt.init with bufs := [(12, List.replicate 4 ⟨{ pk0 with len := 1024 }, 0, none, none, none⟩)] })] }
     let v : Nat := 16
     let g : Nat := 12
     let k := r.key
     let x := r.x.val
     let y := r.y.val
     let o := (dirsTo x y (rtrXY (g / 8)).1 (rtrXY (g / 8)).2 vc.num).headD 0
     (s.rt k).queue inp.val vc.num = h :: l ∧
     h.pkt = p ∧
     p.good = true ∧
     (s.flag FAB_SELF.VALID = true ∨ linkLocal p h.via = true) ∧
     h.copies = none ∧
     h.via = some v ∧
     (v < 16 → s.portOpen v p = true) ∧
     s.goalOf k v h.goal p = some g ∧
     s.atSluice k v g vc.num = false ∧
     g / 8 ≠ k ∧
     s.roomDirs x y (rtrXY (g / 8)).1 (rtrXY (g / 8)).2 vc.num p.units = [] ∧
     Store.get (fun _ => none) (s.rt k).stuck o = none) ∧
    (let r : RouterId := ⟨2, 0⟩
     let inp : Fin 8 := 0
     let vc : Vc := .req
     let h : Queued := ⟨Packet.sealed { pk0 with typ := 1, dest := 1 }, 0, none, none, none⟩
     let l : List Queued := []
     let p : Packet := h.pkt
     let s : State := { (linked.fset FAB_SELF.VALID 1) with rtr := [(r.key, { RtrSt.init with bufs := [(0, [h])] })] }
     let c : Nat := 0
     let g : Nat := (s.exitOf r.key c p).getD 0
     let k := r.key
     let free (d n : Nat) : Prop := s.outrankedAt k d (s.packetRank k d n) = false
     (s.rt k).queue inp.val vc.num = h :: l ∧
     h.pkt = p ∧
     p.good = true ∧
     s.flag FAB_SELF.VALID = true ∧
     h.copies = none ∧
     h.via = none ∧
     (s.emitter k inp.val p).all (fun w => s.injectOk p && !s.isFrozen w.1 w.2 0) = true ∧
     p.typ ≠ 9 ∧
     (p.typ = 0 → p.mc = false) ∧
     s.routeFor k p none = some c ∧
     c < 16 ∧
     s.portOpen c p = true ∧
     s.exitOf k c p = some g ∧
     g / 8 = k ∧
     (s.inBypass r.die r.pos) = false ∧
     free (g % 8) vc.num) ∧
    (let r : RouterId := ⟨0, 0⟩
     let inp : Fin 8 := 0
     let vc : Vc := .req
     let h : Queued := ⟨Packet.sealed { pk0 with typ := 1, dest := 1 }, 0, none, none, none⟩
     let l : List Queued := []
     let p : Packet := h.pkt
     let s : State := { st [(FAB_SELF.VALID, 1)] with rtr := [(r.key, { RtrSt.init with bufs := [(0, [h])] })] }
     let k := r.key
     (s.rt k).queue inp.val vc.num = h :: l ∧
     h.pkt = p ∧
     p.good = true ∧
     s.flag FAB_SELF.VALID = true ∧
     h.copies = none ∧
     h.via = none ∧
     (s.emitter k inp.val p).all (fun w => s.injectOk p && !s.isFrozen w.1 w.2 0) = true ∧
     p.typ ≠ 9 ∧
     (p.typ = 0 → p.mc = false) ∧
     s.routeFor k p none = none) ∧
    (let r : RouterId := ⟨0, 0⟩
     let inp : Fin 8 := 0
     let vc : Vc := .req
     let h : Queued := ⟨Packet.sealed { pk0 with typ := 1, dest := 0 }, 0, some 16, some 12, none⟩
     let l : List Queued := []
     let p : Packet := h.pkt
     let s : State := { { State.reset with now := 10 ^ 9 } with rtr := [(r.key, { RtrSt.init with bufs := [(0, [h])] }), (1, { RtrSt.init with bufs := [(12, List.replicate 4 ⟨{ pk0 with len := 1024 }, 0, none, none, none⟩)] })] }
     let v : Nat := 16
     let g : Nat := 12
     let e : Nat := 16
     let g2 : Nat := 12
     let d : Nat := 1
     let k := r.key
     let x := r.x.val
     let y := r.y.val
     let free (d n : Nat) : Prop := s.outrankedAt k d (s.packetRank k d n) = false
     let q := Packet.sealed { p with esc := true }
     (s.rt k).queue inp.val vc.num = h :: l ∧
     h.pkt = p ∧
     (vc = .req ∨ vc = .rsp) ∧
     p.typ ≠ 9 ∧
     h.via = some v ∧
     h.goal = some g ∧
     s.outsOf k g vc.num p.units = [] ∧
     h.at_ + s.cycUnits (16 * s.fget FAB_RT_CTL.ESC_WAIT) ≤ s.now ∧
     ((if v < 16 then s.escapeOut (epMod p.dest) else some v) = some e) ∧
     (e < 16 → s.portOpen e q = true) ∧
     (s.goalOf k e (if e = v then some g else none) q = some g2) ∧
     s.atSluice k e g2 2 = false ∧
     g2 / 8 ≠ k ∧
     s.roomDirs x y (rtrXY (g2 / 8)).1 (rtrXY (g2 / 8)).2 2 p.units = [d] ∧
     free d 2) ∧
    (let r : RouterId := ⟨0, 0⟩
     let p : Packet := Packet.sealed { pk0 with typ := 9, src := hubEp 1, payload := leBytes 8 2 ++ leBytes 8 1 }
     let s : State := (linked.fset FAB_SELF.VALID 1)
     let c : Nat := 0
     let gb : Nat := 1
     let pb : Nat := 2
     let g : Nat := (s.exitOf r.key c p).getD 0
     let d : Nat := 1
     let a : Nat := 1
     let b : Nat := 0
     let k := r.key
     let x := r.x.val
     let y := r.y.val
     let line (t : State) (j i c : Nat) : List Packet := (t.rt j).line i c
     let free (d n : Nat) : Prop := s.outrankedAt k d (s.packetRank k d n) = false
     let q : Packet := { p with payload := leBytes 8 pb ++ leBytes 8 gb ++ p.payload.drop 16 }
     p.good = true ∧
     p.typ = 9 ∧
     p.chan < 2 ∧
     s.flag FAB_SELF.VALID = true ∧
     line s k 4 p.chan = [] ∧
     p.units ≤ inRoom p.chan ∧
     (s.emitter k 4 p).all (fun w => s.injectOk p && !s.isFrozen w.1 w.2 0) = true ∧
     s.ctxOf p.slice.toNat = none ∧
     s.mcSplit (leAt p.payload 8 8) (leAt p.payload 0 8) (leAt p.payload 0 8) = (false, [(c, gb, pb)]) ∧
     c < 16 ∧
     s.portOpen c q = true ∧
     s.exitOf k c q = some g ∧
     g / 8 ≠ k ∧
     s.roomDirs x y (rtrXY (g / 8)).1 (rtrXY (g / 8)).2 p.chan q.units = [d] ∧
     meshNext x y d = some (a, b) ∧
     free d p.chan) ∧
    (let r : RouterId := ⟨0, 0⟩
     let p : Packet := Packet.sealed { pk0 with typ := 9, src := hubEp 1, payload := leBytes 8 2 ++ leBytes 8 1 }
     let s : State := { (linked.fset FAB_SELF.VALID 1) with rtr := [(1, { RtrSt.init with bufs := [(12, List.replicate 4 ⟨{ pk0 with len := 1024 }, 0, none, none, none⟩)] })] }
     let c : Nat := 0
     let gb : Nat := 1
     let pb : Nat := 2
     let g : Nat := (s.exitOf r.key c p).getD 0
     let k := r.key
     let x := r.x.val
     let y := r.y.val
     let line (t : State) (j i c : Nat) : List Packet := (t.rt j).line i c
     let q : Packet := { p with payload := leBytes 8 pb ++ leBytes 8 gb ++ p.payload.drop 16 }
     p.good = true ∧
     p.typ = 9 ∧
     p.chan < 2 ∧
     s.flag FAB_SELF.VALID = true ∧
     line s k 4 p.chan = [] ∧
     p.units ≤ inRoom p.chan ∧
     (s.emitter k 4 p).all (fun w => s.injectOk p && !s.isFrozen w.1 w.2 0) = true ∧
     s.ctxOf p.slice.toNat = none ∧
     s.mcSplit (leAt p.payload 8 8) (leAt p.payload 0 8) (leAt p.payload 0 8) = (false, [(c, gb, pb)]) ∧
     c < 16 ∧
     s.portOpen c q = true ∧
     s.exitOf k c q = some g ∧
     g / 8 ≠ k ∧
     s.roomDirs x y (rtrXY (g / 8)).1 (rtrXY (g / 8)).2 p.chan q.units = []) ∧
    (let s : State := { State.reset with now := 10 ^ 9, port := [(15, { PortSt.init with waiting := [(pk0, 0)] })] }
     let p : Packet := pk0
     let q : Nat := 15
     firstBelow 16 (fun c => (s.po c).waiting.any (fun w => w.1 = p && decide (w.2 + usUnits (16 * s.fget FAB_RT_CTL.RT_TMO) ≤ s.now))) = some q) ∧
    (let s : State := State.reset
     True) := by
  refine ⟨?_, ?_, ?_, ?_, ?_, ?_, ?_, ?_, ?_, ?_⟩ <;> decide +kernel

/-- Every clause of RoutersAndTables has a state and operands that meet its hypotheses. -/
theorem meets_RoutersAndTables :
    (let s : State := State.reset
     let r : RouterId := ⟨39, 31⟩
     (s.pt r.die).owner = none ∧
     (s.pt r.die).bypass = []) ∧
    (let s : State := { State.reset with part := [(15, { PartSt.init with bypass := [0] })] }
     let r : RouterId := ⟨39, 31⟩
     (s.pt r.die).owner = none ∧
     (s.pt r.die).bypass ≠ [] ∧
     (s.pt r.die).bypass.contains r.pos = false) ∧
    (let s : State := State.reset
     let m : Master := 0
     let p : PartId := 0
     let v : Word := wd [(PRT_RTR_CTL.CLR 0, 1)]
     s.admits m (PRT_RTR_CTL.off p.val) v = true ∧
     (PRT_RTR_CTL.CLR p.val).of v = 1 ∧
     (PRT_RTR_CTL.CLR_ALL p.val).of v = 0) ∧
    (let s : State := State.reset
     let m : Master := 0
     let p : PartId := 0
     let v : Word := wd [(PRT_RTR_CTL.CLR_ALL 0, 1)]
     s.admits m (PRT_RTR_CTL.off p.val) v = true ∧
     (PRT_RTR_CTL.CLR p.val).of v = 0 ∧
     (PRT_RTR_CTL.CLR_ALL p.val).of v = 1) ∧
    (let s : State := State.reset
     let m : Master := 0
     let v : Word := 0
     s.admits m FAB_RT_CTL.off v = true ∧
     FAB_RT_CTL.SWAP_ARM.of v = 0) ∧
    (let s : State := st [(FAB_RT_AT_LO.AT, 1)]
     let m : Master := 0
     let v : Word := wd [(FAB_RT_CTL.SWAP_ARM, 1)]
     s.admits m FAB_RT_CTL.off v = true ∧
     FAB_RT_CTL.SWAP_ARM.of v = 1 ∧
     s.step < s.pair FAB_RT_AT_LO.off) ∧
    (let s : State := State.reset
     let m : Master := 0
     let v : Word := wd [(FAB_RT_CTL.SWAP_ARM, 1)]
     s.admits m FAB_RT_CTL.off v = true ∧
     FAB_RT_CTL.SWAP_ARM.of v = 1 ∧
     s.pair FAB_RT_AT_LO.off ≤ s.step) ∧
    (let s : State := st [(FAB_RT_CTL.SWAP_ARM, 1)]
     s.flag FAB_RT_CTL.SWAP_ARM = true ∧
     s.pair FAB_RT_AT_LO.off = s.step ∧
     (List.range 16).all (fun p => (s.po p).waiting.isEmpty) = true) ∧
    (let s : State := { State.reset with fab := { State.reset.fab with quiesceEnd := some 0 } }
     let e : Nat := 0
     s.fab.quiesceEnd = some e ∧
     e ≤ s.now) := by
  refine ⟨?_, ?_, ?_, ?_, ?_, ?_, ?_, ?_, ?_⟩ <;> decide +kernel

/-- Every clause of PacketArrivals has a state and operands that meet its hypotheses. -/
theorem meets_PacketArrivals :
    (let s : State := { State.reset with chan := [(0, { ChanSt.init with slotEnd := 100 })] }
     let p : Packet := Packet.sealed { pk0 with typ := 4, payload := [1] }
     let d : Nat := epPart p.dest
     let a : Nat := p.addr.toNat
     let c : Instr := .memWr p
     epMod p.dest = s.modId ∧
     p.whole = true ∧
     p.isMem = true ∧
     s.now ≤ s.chanFree a ∧
     c ∈ [Instr.memWr p, .mirror p, .memRd p]) ∧
    (let s : State := State.reset
     let p : Packet := pk0
     let d : Nat := epPart p.dest
     let a : Nat := p.addr.toNat
     let n : Nat := 15
     let c : Instr := .row p
     epMod p.dest = s.modId ∧
     p.whole = true ∧
     s.chanFree a ≤ s.now ∧
     (s.pt d).closed = true ∧
     p.typ ≠ 5 ∧
     p.typ ≠ 6 ∧
     c ∈ [Instr.row p, .direct p, .stream p, .memWr p, .mirror p, .red p]) ∧
    (let s : State := State.reset
     let p : Packet := { pk0 with typ := 5 }
     let d : Nat := epPart p.dest
     let a : Nat := p.addr.toNat
     let n : Nat := 15
     epMod p.dest = s.modId ∧
     p.whole = true ∧
     s.chanFree a ≤ s.now ∧
     (s.pt d).closed = true ∧
     p.typ = 5 ∧
     s.dieDown d = false) ∧
    (let s : State := State.reset
     let p : Packet := Packet.sealed { pk0 with typ := 4, payload := [1] }
     let d : Nat := epPart p.dest
     let a : Nat := p.addr.toNat
     let c : Instr := .memWr p
     epMod p.dest = s.modId ∧
     p.whole = true ∧
     s.chanFree a ≤ s.now ∧
     (s.pt d).closed = true) ∧
    (let s : State := run []
     let p : Packet := pk0
     let d : Nat := epPart p.dest
     let a : Nat := p.addr.toNat
     let n : Nat := 15
     let c : Instr := .row p
     epMod p.dest = s.modId ∧
     p.whole = true ∧
     s.chanFree a ≤ s.now ∧
     c ∈ [Instr.row p, .direct p, .stream p, .memWr p, .mirror p, .red p, .memRd p] ∧
     (s.pt d).closed = false ∧
     s.ctxHolding d = some n ∧
     p.slice.toNat ≠ s.slId n) ∧
    (let s : State := run []
     let p : Packet := { pk0 with slice := 5, count := 1, epochLo := 1 }
     let d : Nat := epPart p.dest
     let a : Nat := p.addr.toNat
     let n : Nat := 15
     let c : Instr := .row p
     epMod p.dest = s.modId ∧
     p.whole = true ∧
     s.chanFree a ≤ s.now ∧
     c ∈ [Instr.row p, .direct p, .stream p, .memWr p, .mirror p, .red p, .memRd p] ∧
     (s.pt d).closed = false ∧
     s.ctxHolding d = some n ∧
     p.slice.toNat = s.slId n ∧
     p.memForm = true ∧
     p.epochLo.toNat ≠ (s.sliceMap n).epoch % 256) ∧
    (let s : State := coreRun 0 (2 ^ 14 + 2 ^ 24) 0 0
     let p : Packet := { pk0 with slice := 5, count := 1, typ := 2 }
     let d : Nat := epPart p.dest
     let a : Nat := p.addr.toNat
     let n : Nat := 15
     let k : Nat := (d * 75 + epClus p.dest) * 250 + epCore p.dest
     let x : InPort := (s.co k).inp (epPort p.dest)
     let c : Instr := .direct p
     let ours (n : Nat) : Prop := (s.pt d).closed = false ∧ s.ctxHolding d = some n ∧ p.slice.toNat = s.slId n ∧ p.memForm = true ∧ p.epochLo.toNat = (s.sliceMap n).epoch % 256
     epMod p.dest = s.modId ∧
     p.whole = true ∧
     s.chanFree a ≤ s.now ∧
     ours n ∧
     s.takes n p = true ∧
     p.seq.toNat < p.count.toNat ∧
     epClus p.dest < 75 ∧
     epCore p.dest < 250 ∧
     ((s.coreCfg n k).inw (epPort p.dest)).cap ≠ 0 ∧
     modeFits ((s.coreCfg n k).inw (epPort p.dest)).mode p = true ∧
     c ∈ [Instr.row p, .direct p, .stream p] ∧
     x.holds p = false) ∧
    (let s : State := (coreRun 0 (2 ^ 14 + 2 ^ 24) 0 0).modCo 0 (fun c => { c with in0 := ⟨0, 0, [⟨0, 0, 1, [0]⟩]⟩ })
     let p : Packet := { pk0 with slice := 5, count := 1, typ := 2 }
     let d : Nat := epPart p.dest
     let a : Nat := p.addr.toNat
     let n : Nat := 15
     let k : Nat := (d * 75 + epClus p.dest) * 250 + epCore p.dest
     let x : InPort := (s.co k).inp (epPort p.dest)
     let c : Instr := .direct p
     let ours (n : Nat) : Prop := (s.pt d).closed = false ∧ s.ctxHolding d = some n ∧ p.slice.toNat = s.slId n ∧ p.memForm = true ∧ p.epochLo.toNat = (s.sliceMap n).epoch % 256
     epMod p.dest = s.modId ∧
     p.whole = true ∧
     s.chanFree a ≤ s.now ∧
     ours n ∧
     s.takes n p = true ∧
     p.seq.toNat < p.count.toNat ∧
     epClus p.dest < 75 ∧
     epCore p.dest < 250 ∧
     ((s.coreCfg n k).inw (epPort p.dest)).cap ≠ 0 ∧
     modeFits ((s.coreCfg n k).inw (epPort p.dest)).mode p = true ∧
     c ∈ [Instr.row p, .direct p, .stream p] ∧
     x.holds p = true) ∧
    (let s : State := run []
     let p : Packet := { pk0 with slice := 5, count := 1, typ := 4, payload := [1] }
     let d : Nat := epPart p.dest
     let a : Nat := p.addr.toNat
     let n : Nat := 15
     let l : List MsgSt := [⟨0, 0, 1, [0]⟩]
     let c : Instr := .memWr p
     let ours (n : Nat) : Prop := (s.pt d).closed = false ∧ s.ctxHolding d = some n ∧ p.slice.toNat = s.slId n ∧ p.memForm = true ∧ p.epochLo.toNat = (s.sliceMap n).epoch % 256
     epMod p.dest = s.modId ∧
     p.whole = true ∧
     s.chanFree a ≤ s.now ∧
     ours n ∧
     s.takes n p = true ∧
     p.seq.toNat < p.count.toNat ∧
     mlaRange a (max 1 p.payload.length) = true ∧
     c ∈ [Instr.memWr p, .mirror p] ∧
     countMsg (s.pt d).msgs p = (l, false)) ∧
    (let s : State := (run []).modPt 0 (fun x => { x with msgs := [⟨0, 0, 1, [0]⟩] })
     let p : Packet := { pk0 with slice := 5, count := 1, typ := 4, payload := [1] }
     let d : Nat := epPart p.dest
     let a : Nat := p.addr.toNat
     let n : Nat := 15
     let l : List MsgSt := [⟨0, 0, 1, [0]⟩]
     let c : Instr := .memWr p
     let ours (n : Nat) : Prop := (s.pt d).closed = false ∧ s.ctxHolding d = some n ∧ p.slice.toNat = s.slId n ∧ p.memForm = true ∧ p.epochLo.toNat = (s.sliceMap n).epoch % 256
     epMod p.dest = s.modId ∧
     p.whole = true ∧
     s.chanFree a ≤ s.now ∧
     ours n ∧
     s.takes n p = true ∧
     p.seq.toNat < p.count.toNat ∧
     mlaRange a (max 1 p.payload.length) = true ∧
     c ∈ [Instr.memWr p, .mirror p] ∧
     countMsg (s.pt d).msgs p = (l, true)) ∧
    (let s : State := run []
     let p : Packet := { pk0 with slice := 5, count := 1, typ := 5, aux := 31 }
     let d : Nat := epPart p.dest
     let a : Nat := p.addr.toNat
     let n : Nat := 15
     let ours (n : Nat) : Prop := (s.pt d).closed = false ∧ s.ctxHolding d = some n ∧ p.slice.toNat = s.slId n ∧ p.memForm = true ∧ p.epochLo.toNat = (s.sliceMap n).epoch % 256
     epMod p.dest = s.modId ∧
     p.whole = true ∧
     s.chanFree a ≤ s.now ∧
     ours n ∧
     p.aux.toNat < 32 ∧
     mlaRange a (32 * (p.aux.toNat + 1)) = true ∧
     s.memFail a (32 * (p.aux.toNat + 1)) = none ∧
     s.dieDown d = false) ∧
    (let s : State := run []
     let p : Packet := { pk0 with slice := 5, count := 1, typ := 6, gen := 2 }
     let d : Nat := epPart p.dest
     let a : Nat := p.addr.toNat
     let n : Nat := 15
     epMod p.dest = s.modId ∧
     p.whole = true ∧
     s.chanFree a ≤ s.now ∧
     p.gen.toNat ≠ s.gen d ∧
     (s.pt d).closed = false) ∧
    (let s : State := { mirrored with fab := { State.reset.fab with reads := [(pk0, 0)] } }
     let p : Packet := { pk0 with slice := 5, count := 1, typ := 6, gen := 1, payload := List.replicate 512 1 }
     let d : Nat := epPart p.dest
     let a : Nat := p.addr.toNat
     let n : Nat := 15
     let r : Packet × Nat := (pk0, 0)
     let g : Nat := mlaOf (mlaPart r.2) (mlaChan r.2) (512 * (mlaCda r.2 / 512))
     let o : Nat := 15
     let ours (n : Nat) : Prop := (s.pt d).closed = false ∧ s.ctxHolding d = some n ∧ p.slice.toNat = s.slId n ∧ p.memForm = true ∧ p.epochLo.toNat = (s.sliceMap n).epoch % 256
     epMod p.dest = s.modId ∧
     p.whole = true ∧
     s.chanFree a ≤ s.now ∧
     ours n ∧
     p.gen.toNat = s.gen d ∧
     s.fab.reads.find? (fun e => e.1.msg = p.msg && e.1.dest = p.src) = some r ∧
     s.ctxHolding (mlaPart r.2) = some o ∧
     mlaCda r.2 / 512 < chanGroups ∧
     (s.mlaType g = 1 ∨ s.mlaType g = 2) ∧
     (s.mirrorSrc o (8 * mlaPart r.2 + mlaChan r.2) g).isSome = true ∧
     p.payload.length = 512) := by
  refine ⟨?_, ?_, ?_, ?_, ?_, ?_, ?_, ?_, ?_, ?_, ?_, ?_, ?_⟩ <;> decide +kernel

/-- Every clause of StrandsAndCredit has a state and operands that meet its hypotheses. -/
theorem meets_StrandsAndCredit :
    (let s : State := { run [⟨0x0020, routerAgent 0 0 0, 1, leBytes 32 (7 + 1 * 2 ^ 12 + 4 * 2 ^ 16 + 1 * 2 ^ 32)⟩] with rtr := [(0, { RtrSt.init with fifo := [(1, [⟨5, 7, 9⟩])] })] }
     let rt : RouterId := ⟨0, 0⟩
     let inp : Fin 8 := 1
     let slice : BitVec 12 := 5
     let sid : BitVec 12 := 7
     let v : XUnit := 9
     let n : Nat := 15
     let c : Nat := 0
     let r : StrandRec := strandOf (leBytes 32 (7 + 1 * 2 ^ 12 + 4 * 2 ^ 16 + 2 ^ 32))
     let k : Nat := rt.key
     let i : Nat := (s.rt k).seen slice.toNat sid.toNat
     let src : Nat := (75 * rt.die + c) * 250 + r.srcCore
     let o : Nat := 2
     let a : Nat := 0
     let b : Nat := 1
     let l : List StrandUnit := []
     let fifo (t : State) (j q : Nat) : List StrandUnit := Store.get (fun _ => []) (t.rt j).fifo q
     s.ctxOf slice.toNat = some n ∧
     s.logClus rt.die rt.pos = some c ∧
     (s.strands n (routerAgent s.modId rt.die c)).find? (fun r => decide (r.sid = sid.toNat) && decide (r.inp = inp.val)) = some r ∧
     s.working n = true ∧
     s.inBypass rt.die rt.pos = false ∧
     s.strandRoom rt.x.val rt.y.val r = true ∧
     s.strandHeld rt.key slice.toNat r = false ∧
     inp.val < 4 ∧
     (meshNext rt.x.val rt.y.val inp.val).isSome = true ∧
     r.outs = [o] ∧
     meshNext rt.x.val rt.y.val o = some (a, b) ∧
     takeUnit slice.toNat sid.toNat (fifo s k inp.val) = some (v, l)) ∧
    (let s : State := (run [⟨0x0020, routerAgent 0 0 0, 1, leBytes 32 (7 + 4 * 2 ^ 12 + 4 * 2 ^ 16 + 1 * 2 ^ 32)⟩]).modCo 0 (fun c => { c with out0 := [9] })
     let rt : RouterId := ⟨0, 0⟩
     let inp : Fin 8 := 4
     let slice : BitVec 12 := 5
     let sid : BitVec 12 := 7
     let v : XUnit := 9
     let n : Nat := 15
     let c : Nat := 0
     let r : StrandRec := strandOf (leBytes 32 (7 + 4 * 2 ^ 12 + 4 * 2 ^ 16 + 2 ^ 32))
     let k : Nat := rt.key
     let i : Nat := (s.rt k).seen slice.toNat sid.toNat
     let src : Nat := (75 * rt.die + c) * 250 + r.srcCore
     let o : Nat := 2
     let a : Nat := 0
     let b : Nat := 1
     let l : List XUnit := []
     s.ctxOf slice.toNat = some n ∧
     s.logClus rt.die rt.pos = some c ∧
     (s.strands n (routerAgent s.modId rt.die c)).find? (fun r => decide (r.sid = sid.toNat) && decide (r.inp = inp.val)) = some r ∧
     s.working n = true ∧
     s.inBypass rt.die rt.pos = false ∧
     s.strandRoom rt.x.val rt.y.val r = true ∧
     s.strandHeld rt.key slice.toNat r = false ∧
     inp.val = 4 ∧
     s.isFrozen 1 (s.coreSrc src) 0 = false ∧
     r.srcPort = false ∧
     r.outs = [o] ∧
     meshNext rt.x.val rt.y.val o = some (a, b) ∧
     (s.co src).out0 = v :: l) ∧
    (let s : State := { run [⟨0x0020, routerAgent 0 0 0, 1, leBytes 32 (7 + 1 * 2 ^ 12 + 32 * 2 ^ 16 + 1 * 2 ^ 32)⟩] with rtr := [(0, { RtrSt.init with fifo := [(1, [⟨5, 7, 9⟩])] })] }
     let rt : RouterId := ⟨0, 0⟩
     let inp : Fin 8 := 1
     let slice : BitVec 12 := 5
     let sid : BitVec 12 := 7
     let v : XUnit := 9
     let n : Nat := 15
     let c : Nat := 0
     let r : StrandRec := strandOf (leBytes 32 (7 + 1 * 2 ^ 12 + 32 * 2 ^ 16 + 2 ^ 32))
     let k : Nat := rt.key
     let i : Nat := (s.rt k).seen slice.toNat sid.toNat
     let src : Nat := (75 * rt.die + c) * 250 + r.srcCore
     let o : Nat := 5
     let a : Nat := 0
     let b : Nat := 0
     let l : List StrandUnit := []
     let fifo (t : State) (j q : Nat) : List StrandUnit := Store.get (fun _ => []) (t.rt j).fifo q
     s.ctxOf slice.toNat = some n ∧
     s.logClus rt.die rt.pos = some c ∧
     (s.strands n (routerAgent s.modId rt.die c)).find? (fun r => decide (r.sid = sid.toNat) && decide (r.inp = inp.val)) = some r ∧
     s.working n = true ∧
     s.inBypass rt.die rt.pos = false ∧
     s.strandRoom rt.x.val rt.y.val r = true ∧
     s.strandHeld rt.key slice.toNat r = false ∧
     inp.val < 4 ∧
     (meshNext rt.x.val rt.y.val inp.val).isSome = true ∧
     r.outs = [5] ∧
     i < r.units ∧
     (s.ch (8 * rt.die + r.memCh)).slotEnd ≤ s.now ∧
     takeUnit slice.toNat sid.toNat (fifo s k inp.val) = some (v, l)) ∧
    (let s : State := { run [] with now := 10 ^ 9, port := [(15, { PortSt.init with rbw := [(rbwKey 5 7, [⟨5, 7, 9⟩])] })] }
     let q : Port := 15
     let slice : BitVec 12 := 5
     let sid : BitVec 12 := 7
     let n : Nat := 15
     let key : Nat := rbwKey slice.toNat sid.toNat
     let us : List StrandUnit := Store.get (fun _ => ([] : List StrandUnit)) (s.po q.val).rbw key
     s.ctxOf slice.toNat = some n ∧
     us ≠ [] ∧
     Store.get (fun _ => 0) (s.po q.val).rbwAt key + s.cycUnits 64 ≤ s.now) ∧
    (let s : State := run [⟨0x0020, portAgent 0 15, 1, leBytes 32 (7 + 4 * 2 ^ 32)⟩]
     let q : Port := 15
     let p : Packet := Packet.sealed { pk0 with slice := 5, slot := 7 }
     let n : Nat := 15
     let r : StrandRec := strandOf (leBytes 32 (7 + 4 * 2 ^ 32))
     p.good = true ∧
     (List.range 16).any (fun k => (s.portStrand k q.val p.slot.toNat).isSome) = true ∧
     s.ctxOf p.slice.toNat = some n ∧
     s.portStrand n q.val p.slot.toNat = some r ∧
     r.inp = 0 ∧
     p.epochLo.toNat = (s.sliceMap n).epoch % 256 ∧
     s.sameTick n p = true ∧
     Store.get (fun _ => 0) (s.po q.val).strandM (rbwKey p.slice.toNat r.sid) + p.units ≤ r.units) ∧
    (let s : State := State.reset
     let q : Port := 15
     let p : Packet := Packet.sealed pk0
     p.good = true ∧
     (List.range 16).any (fun k => (s.portStrand k q.val p.slot.toNat).isSome) = false) ∧
    (let s : State := { st [(LNK_STAT.STATE 15, 6)] with now := 10 ^ 9, port := [(15, { PortSt.init with freed := [(0, 33)] })] }
     let q : Port := 15
     s.creditDue q.val = true) ∧
    (let s : State := State.reset
     let q : Port := 15
     let p : Packet := Packet.sealed { pk0 with aux := 0xFF }
     p.typ = 0 ∧
     p.aux = 0xFF ∧
     p.good = true) := by
  refine ⟨?_, ?_, ?_, ?_, ?_, ?_, ?_, ?_⟩ <;> decide +kernel

/-- Every clause of TreesAndFolds has a state and operands that meet its hypotheses. -/
theorem meets_TreesAndFolds :
    (let s : State := (run [⟨0x0022, routerAgent 0 0 0, 1, leBytes 192 (10 * 2 ^ 14 + 10 * 2 ^ 18 + 2 ^ 32 + 2 ^ 384 + 2 ^ 541)⟩]).modCo 0 (fun c => { c with out0 := [9] })
     let c : CoreId := c0
     let port : Bool := false
     let v : XUnit := 9
     let n : Nat := 15
     let i : Nat := 0
     let r : TreeRec := (s.trees 15 0 0).headD (treeOf [])
     let j : Nat := 0
     let l : List XUnit := []
     let k : Nat := c.key / 250
     let x : TreeSt := s.tree k i
     let us : List XUnit := Store.get (fun _ => ([] : List XUnit)) x.units j
     s.ctxHolding (corePart c.key) = some n ∧
     s.treeOfPort n c.key port = some (i, r, j) ∧
     s.working n = true ∧
     s.isFrozen 1 (s.coreSrc c.key) 0 = false ∧
     ((if port = true then (s.co c.key).out1 else (s.co c.key).out0) = v :: l) ∧
     entIn x.alt (r.ents.getD j 0) = true ∧
     32 * us.length < r.inBytes) ∧
    (let s : State := run [⟨0x0022, routerAgent 0 0 0, 1, leBytes 192 (10 * 2 ^ 14 + 10 * 2 ^ 18 + 2 ^ 32 + 2 ^ 384 + 2 ^ 446)⟩]
     let k : ClusId := ⟨0, 0⟩
     let i : Fin 256 := 0
     let n : Nat := 15
     let r : TreeRec := (s.trees 15 0 0).headD (treeOf [])
     s.ctxHolding (k.key / 75) = some n ∧
     (s.trees n (k.key / 75) (k.key % 75))[i.val]? = some r ∧
     s.working n = true ∧
     r.memEn = true ∧
     (s.tree k.key i.val).got.contains (memContrib, 0) = false ∧
     s.memBad = []) ∧
    (let s : State := run [⟨0x0022, routerAgent 0 0 0, 1, leBytes 192 (10 * 2 ^ 14 + 10 * 2 ^ 18 + 2 ^ 32 + 2 ^ 384 + 2 ^ 541 + 2 ^ 543 + 1 * 2 ^ 512)⟩]
     let p : Packet := { pk0 with typ := 8, slice := 5, dest := epWord 0 0 0 0xFF false, src := 1, count := 1, payload := [0, 0, 0, 0] }
     let k : Nat := 75 * epPart p.dest + epClus p.dest
     let n : Nat := 15
     let i : Nat := 0
     let r : TreeRec := (s.trees 15 0 0).headD (treeOf [])
     let x : TreeSt := s.tree k i
     let id : Nat := bits p.src.toNat 22 0
     let c : Nat := p.seq.toNat
     let sz : Nat := elemBytes r.cfmt
     let j : Nat := 0
     epMod p.dest = s.modId ∧
     p.whole = true ∧
     (s.pt (epPart p.dest)).closed = false ∧
     s.ctxHolding (epPart p.dest) = some n ∧
     p.typ = 8 ∧
     p.epochLo.toNat = (s.sliceMap n).epoch % 256 ∧
     s.takes n p = true ∧
     epClus p.dest < 75 ∧
     epCore p.dest = 0xFF ∧
     s.treeRid n k p.msg.toNat = some (i, r) ∧
     p.count.toNat = r.chunks ∧
     c < r.chunks ∧
     firstBelow r.ents.length (fun q => entChild (r.ents.getD q 0) && decide (entId (r.ents.getD q 0) = id) && entIn x.alt (r.ents.getD q 0)) = some j ∧
     s.fenced n id = false ∧
     p.payload.length = (r.span c).2 * sz ∧
     x.got.contains (j, c) = false) ∧
    (let s : State := run [⟨0x0022, routerAgent 0 0 0, 1, leBytes 192 (10 * 2 ^ 14 + 10 * 2 ^ 18 + 2 ^ 32 + 2 ^ 384 + 2 ^ 541 + 2 ^ 543 + 1 * 2 ^ 512)⟩]
     let p : Packet := { pk0 with typ := 8, slice := 5, dest := epWord 0 0 0 0xFF false, src := 1, count := 1, payload := [0, 0, 0, 0] }
     let k : Nat := 75 * epPart p.dest + epClus p.dest
     let n : Nat := 15
     let i : Nat := 0
     let r : TreeRec := (s.trees 15 0 0).headD (treeOf [])
     let x : TreeSt := s.tree k i
     let id : Nat := bits p.src.toNat 22 0
     let c : Nat := p.seq.toNat
     let sz : Nat := elemBytes r.cfmt
     let j : Nat := 0
     epMod p.dest = s.modId ∧
     p.whole = true ∧
     (s.pt (epPart p.dest)).closed = false ∧
     s.ctxHolding (epPart p.dest) = some n ∧
     p.typ = 8 ∧
     p.epochLo.toNat = (s.sliceMap n).epoch % 256 ∧
     s.takes n p = true ∧
     epClus p.dest < 75 ∧
     epCore p.dest = 0xFF ∧
     s.treeRid n k p.msg.toNat = some (i, r) ∧
     p.count.toNat = r.chunks ∧
     c < r.chunks ∧
     firstBelow r.ents.length (fun q => entChild (r.ents.getD q 0) && decide (entId (r.ents.getD q 0) = id) && entIn x.alt (r.ents.getD q 0)) = some j ∧
     s.fenced n id = false ∧
     p.payload.length = (r.span c).2 * sz ∧
     x.got.contains (j, c) = false ∧
     r.chunks = 1 ∧
     r.root = false ∧
     x.alt = false ∧
     s.isFrozen 3 (s.clusSrc k) i = false ∧
     x.sent = [] ∧
     s.fencedKids n r false = 0 ∧
     (s.expected n r false).all (fun y => (x.got ++ [(j, c)]).contains (y, 0)) = true) ∧
    (let s : State := run [⟨0x0022, routerAgent 0 0 0, 1, leBytes 192 (10 * 2 ^ 14 + 10 * 2 ^ 18 + 2 ^ 32 + 2 ^ 384 + 2 ^ 541 + 2 ^ 543 + 1 * 2 ^ 512)⟩]
     let p : Packet := { pk0 with typ := 0xA, aux := 0x10, slice := 5, payload := [0, 0, 0, 0, 3] }
     let k : Nat := 75 * epPart p.dest + epClus p.dest
     let n : Nat := 15
     let i : Nat := 0
     let r : TreeRec := (s.trees 15 0 0).headD (treeOf [])
     let x : TreeSt := s.tree k i
     let id : Nat := bits p.src.toNat 22 0
     let c : Nat := p.seq.toNat
     let sz : Nat := elemBytes r.cfmt
     let j : Nat := 0
     epMod p.dest = s.modId ∧
     (s.pt (epPart p.dest)).closed = false ∧
     epClus p.dest < 75 ∧
     p.typ = 0xA ∧
     p.aux = 0x10 ∧
     epMod p.src / 64 = s.modId / 64 ∧
     s.ctxHolding (epPart p.dest) = some n ∧
     s.takes n p = true ∧
     s.treeRid n k (bits (leAt p.payload 0 4) 11 0) = some (i, r)) ∧
    (let s : State := st [(SEC_FW_STAT.PHASE, 3), (FAB_SELF.VALID, 1), (FAB_FOLD_CTL.EN, 1), (RIG_SL_STAT.ACTIVE 0, 1), (FAB_RT_CTL.GROUP_ESC, 1)]
     let ns : List Nat := (List.range 16).filter (fun n => s.flag (RIG_SL_STAT.ACTIVE n))
     s.hubUp = true ∧
     s.fwRuns = true ∧
     s.flag FAB_FOLD_CTL.EN = true ∧
     s.flag FAB_SELF.VALID = true ∧
     s.mgr.foldAt = none ∧
     ns.all (fun n => !s.foldReady (s.foldOwn n)) = true) ∧
    (let s : State := { st [(SEC_FW_STAT.PHASE, 3), (FAB_SELF.VALID, 1)] with mgr := { MgrSt.init with folds := [⟨0, 0, 1, List.replicate 32 0, 0, [], false⟩] } }
     let p : Packet := { pk0 with typ := 0xA, aux := 1, src := hubEp 1 }
     let f : FoldSt := foldOf p.payload (epMod p.src)
     let g : FoldSt := ⟨0, 0, 1, List.replicate 32 0, 0, [], false⟩
     s.hubUp = true ∧
     p.typ = 0xA ∧
     p.aux = 0x01 ∧
     p.fromHub = true ∧
     modGroup (epMod p.src) = modGroup s.modId ∧
     epMod p.dest = s.modId ∧
     s.flag FAB_SELF.VALID = true ∧
     s.mgr.folds.find? (fun g => g.slice = f.slice) = some g ∧
     g.kids.contains (epMod p.src) = false ∧
     s.foldReady (g.fold f) = false) ∧
    (let s : State := st [(SEC_FW_STAT.PHASE, 3), (FAB_SELF.VALID, 1)]
     let p : Packet := { pk0 with typ := 0xA, aux := 1, src := hubEp 1 }
     let f : FoldSt := foldOf p.payload (epMod p.src)
     s.hubUp = true ∧
     p.typ = 0xA ∧
     p.aux = 0x01 ∧
     p.fromHub = true ∧
     modGroup (epMod p.src) = modGroup s.modId ∧
     epMod p.dest = s.modId ∧
     s.flag FAB_SELF.VALID = true ∧
     s.mgr.folds.find? (fun g => g.slice = f.slice) = none ∧
     s.ctxOf f.slice = none) ∧
    (let s : State := { (linked.fset FAB_MGR_ID.VALID 1).fset FAB_MGR_ID.ACTING 1 with now := 10 ^ 9, mgr := { MgrSt.init with foldAt := some 0, folds := [⟨0, 0, 1, List.replicate 32 0, 0, [], false⟩] } }
     let x : Nat := 0
     let f : FoldSt := ⟨0, 0, 1, List.replicate 32 0, 0, [], false⟩
     let c : Nat := 0
     s.mgr.foldAt = some x ∧
     x + msUnits 1 ≤ s.now ∧
     s.mgr.folds = [f] ∧
     s.acting = false ∧
     s.flag FAB_MGR_ID.VALID = true ∧
     s.escapeOut (s.fget FAB_MGR_ID.ACTING) = some c ∧
     c ≤ 15) := by
  refine ⟨?_, ?_, ?_, ?_, ?_, ?_, ?_, ?_, ?_⟩ <;> decide +kernel

/-- A frame as the levels of one lane that has sent nothing before. -/
def sent (m : FrameMsg) : LaneRx := .levels (LaneSt.init.send m).1

set_option maxRecDepth 100000 in
/-- Every clause of LinkFrames has a state and operands that meet its hypotheses (part 1). -/
theorem meets_LinkFrames_1 :
    (let q : Port := 15
     let p : Nat := q.val
     let s : State := { st [(LNK_STAT.STATE 15, 6)] with port := [(15, { PortSt.init with rxAct := [0] })] }
     let x : PortSt := s.po p
     let st : Nat := s.fget (LNK_STAT.STATE p)
     let act : Word := 1
     let m : FrameMsg := frm [] 0
     let ms : List FrameMsg := []
     let lanes : List LaneRx := [sent m]
     let ok := x.rxAct.map (fun j => gotMsg (s.framesIn p lanes) (x.physLane j))
     4 ≤ st ∧
     st ≤ 6 ∧
     x.rxChange = [] ∧
     x.cal = none ∧
     (List.range 32).filter act.getLsbD = x.rxAct ∧
     (s.framesIn p lanes).all (fun e => !(x.lane e.1).faulty (e.2.2.judge s.now e.2.1)) = true ∧
     (ctlMsgs ok).all (fun m => m % 16 = 0) = true ∧
     ok = (m :: ms).map some ∧
     (m :: ms).all (fun f => f.seq.toNat = x.seqRx) = true ∧
     (frameUnits (m :: ms)).all (fun u => u.1 = 0) = true) := by decide +kernel

set_option maxRecDepth 100000 in
/-- Every clause of LinkFrames has a state and operands that meet its hypotheses (part 2). -/
theorem meets_LinkFrames_2 :
    (let q : Port := 15
     let p : Nat := q.val
     let s : State := { st [(LNK_STAT.STATE 15, 6)] with port := [(15, { PortSt.init with rxAct := [0] })] }
     let x : PortSt := s.po p
     let st : Nat := s.fget (LNK_STAT.STATE p)
     let act : Word := 1
     let m : FrameMsg := frm [0] 1
     let ms : List FrameMsg := []
     let lanes : List LaneRx := [sent m]
     let us : List XUnit := [0]
     let ok := x.rxAct.map (fun j => gotMsg (s.framesIn p lanes) (x.physLane j))
     4 ≤ st ∧
     st ≤ 6 ∧
     x.rxChange = [] ∧
     x.cal = none ∧
     (List.range 32).filter act.getLsbD = x.rxAct ∧
     (s.framesIn p lanes).all (fun e => !(x.lane e.1).faulty (e.2.2.judge s.now e.2.1)) = true ∧
     (ctlMsgs ok).all (fun m => m % 16 = 0) = true ∧
     ok = (m :: ms).map some ∧
     (m :: ms).all (fun f => f.seq.toNat = x.seqRx) = true ∧
     st = 6 ∧
     x.rxPart = [] ∧
     us ≠ [] ∧
     (frameUnits (m :: ms)).filter (fun u => u.1 ≠ 0) = us.map (fun u => (1, u)) ∧
     us.length = (packetOf us).units ∧
     rxChan (packetOf us) ≠ 5) := by decide +kernel

set_option maxRecDepth 100000 in
/-- Every clause of LinkFrames has a state and operands that meet its hypotheses (part 3). -/
theorem meets_LinkFrames_3 :
    (let q : Port := 15
     let p : Nat := q.val
     let s : State := { st [(LNK_STAT.STATE 15, 6)] with port := [(15, { PortSt.init with rxAct := [0] })] }
     let x : PortSt := s.po p
     let st : Nat := s.fget (LNK_STAT.STATE p)
     let act : Word := 1
     let lanes : List LaneRx := [.lost]
     let ok := x.rxAct.map (fun j => gotMsg (s.framesIn p lanes) (x.physLane j))
     4 ≤ st ∧
     st ≤ 6 ∧
     x.rxChange = [] ∧
     x.cal = none ∧
     (List.range 32).filter act.getLsbD = x.rxAct ∧
     (s.framesIn p lanes).all (fun e => !(x.lane e.1).faulty (e.2.2.judge s.now e.2.1)) = true ∧
     (ctlMsgs ok).all (fun m => m % 16 = 0) = true ∧
     ok.contains none = true ∧
     x.nakOut = false) := by decide +kernel

set_option maxRecDepth 100000 in
/-- Every clause of LinkFrames has a state and operands that meet its hypotheses (part 4). -/
theorem meets_LinkFrames_4 :
    (let q : Port := 15
     let p : Nat := q.val
     let s : State := { st [(LNK_STAT.STATE 15, 6)] with port := [(15, { PortSt.init with grans := [0], txAct := [0, 3] })] }
     let x : PortSt := s.po p
     let st : Nat := s.fget (LNK_STAT.STATE p)
     st = 6 ∧
     x.txChange = [] ∧
     x.txAct.Nodup ∧
     x.txAct.all (fun i => i < x.size) = true ∧
     x.resend = [] ∧
     x.retry.length < 256) := by decide +kernel

set_option maxRecDepth 100000 in
/-- Every clause of LinkFrames has a state and operands that meet its hypotheses (part 5). -/
theorem meets_LinkFrames_5 :
    (let q : Port := 15
     let p : Nat := q.val
     let s : State := { st [(LNK_STAT.STATE 15, 6)] with port := [(15, { PortSt.init with retry := List.replicate 256 ⟨4095, [], 0⟩ })] }
     let x : PortSt := s.po p
     let st : Nat := s.fget (LNK_STAT.STATE p)
     st = 6 ∧
     x.txChange = [] ∧
     256 ≤ x.retry.length) := by decide +kernel

set_option maxRecDepth 100000 in
/-- Every clause of LinkFrames has a state and operands that meet its hypotheses (part 6). -/
theorem meets_LinkFrames_6 :
    (let s : State := { st [(LNK_STAT.STATE 15, 6)] with port := [(15, { PortSt.init with txAct := [0], resend := List.replicate 20 (1, 0) })] }
     let q : Port := 15
     let p : Nat := q.val
     let x : PortSt := s.po p
     let st : Nat := s.fget (LNK_STAT.STATE p)
     st = 6 ∧
     x.txChange = [] ∧
     x.retry.length < 256 ∧
     20 * x.txAct.length ≤ x.resend.length) := by decide +kernel

set_option maxRecDepth 100000 in
/-- Every clause of LinkFrames has a state and operands that meet its hypotheses (part 7). -/
theorem meets_LinkFrames_7 :
    (let q : Port := 15
     let p : Nat := q.val
     let s : State := { st [(LNK_STAT.STATE 15, 2)] with port := [(15, { PortSt.init with grans := [0] })] }
     let x : PortSt := s.po p
     let st : Nat := s.fget (LNK_STAT.STATE p)
     (st = 1 ∨ st = 2) ∧
     x.txCal = []) := by decide +kernel

set_option maxRecDepth 100000 in
/-- Every clause of LinkFrames has a state and operands that meet its hypotheses (part 8). -/
theorem meets_LinkFrames_8 :
    (let s : State := { st [(LNK_STAT.STATE 15, 6)] with port := [(15, { PortSt.init with retry := [⟨4095, [], 0⟩] })] }
     let q : Port := 15
     let p : Nat := q.val
     let x : PortSt := s.po p
     let st : Nat := s.fget (LNK_STAT.STATE p)
     let seq : BitVec 12 := 4095
     x.retry.any (fun e => seqLe seq.toNat e.seq) = true) := by decide +kernel

set_option maxRecDepth 100000 in
/-- Every clause of LinkFrames has a state and operands that meet its hypotheses (part 9). -/
theorem meets_LinkFrames_9 :
    (let s : State := { st [(LNK_STAT.STATE 15, 6)] with now := 10 ^ 12, port := [(15, { PortSt.init with retry := [⟨4095, [], 0⟩] })] }
     let q : Port := 15
     let p : Nat := q.val
     let x : PortSt := s.po p
     let st : Nat := s.fget (LNK_STAT.STATE p)
     let e : RetryEnt := ⟨4095, [], 0⟩
     let l : List RetryEnt := []
     x.retry = e :: l ∧
     e.at_ + s.fget (LNK_DELAY.NS p) + usUnits 1 ≤ s.now) := by decide +kernel

set_option maxRecDepth 100000 in
/-- Every clause of LinkFrames has a state and operands that meet its hypotheses (part 10). -/
theorem meets_LinkFrames_10 :
    (let q : Port := 15
     let p : Nat := q.val
     let s : State := { st [(LNK_STAT.STATE 15, 2)] with port := [(15, { PortSt.init with grans := [0] })] }
     let x : PortSt := s.po p
     let st : Nat := s.fget (LNK_STAT.STATE p)
     True) := by decide +kernel

/-- Every clause of LinkTraining has a state and operands that meet its hypotheses. -/
theorem meets_LinkTraining :
    (let s : State := { st [(LNK_STAT.STATE 15, 1)] with port := [(15, { PortSt.init with grans := [0] })] }
     let q : Port := 15
     let p : Nat := q.val
     let x : PortSt := s.po p
     let st : Nat := s.fget (LNK_STAT.STATE p)
     st = 1) ∧
    (let s : State := { st [(LNK_STAT.STATE 15, 2)] with now := 10 ^ 12, port := [(15, { PortSt.init with grans := [0] })] }
     let q : Port := 15
     let p : Nat := q.val
     let x : PortSt := s.po p
     let st : Nat := s.fget (LNK_STAT.STATE p)
     st = 2 ∧
     x.since + msUnits 400 ≤ s.now) ∧
    (let q : Port := 15
     let p : Nat := q.val
     let s : State := { st [(LNK_STAT.STATE 15, 2)] with port := [(15, { PortSt.init with grans := [0] })] }
     let x : PortSt := s.po p
     let st : Nat := s.fget (LNK_STAT.STATE p)
     let i : Fin 32 := 3
     let w : Nat := 0x4003
     let head : List (BitVec 2) := (blockOf w).take 256
     let pattern : List (BitVec 2) := (blockOf w).drop 256
     let inv : Bool := false
     (st = 1 ∨ st = 2) ∧
     i.val < x.size ∧
     blockWord (head ++ pattern) = some (w, inv)) ∧
    (let s : State := { st [(LNK_STAT.STATE 15, 8)] with now := 10 ^ 12, port := [(15, { PortSt.init with grans := [0] })] }
     let q : Port := 15
     let p : Nat := q.val
     let x : PortSt := s.po p
     let st : Nat := s.fget (LNK_STAT.STATE p)
     st = 8 ∧
     s.flag (LNK_STAT.OOS p) = false ∧
     s.fget (LNK_CTL.MEDIUM p) ≠ 2 ∧
     x.since + sUnits 60 ≤ s.now) ∧
    (let q : Port := 15
     let p : Nat := q.val
     let s : State := { st [(LNK_STAT.STATE 15, 2)] with port := [(15, { PortSt.init with grans := [0] })] }
     let x : PortSt := s.po p
     let st : Nat := s.fget (LNK_STAT.STATE p)
     True) ∧
    (let s : State := { st [(LNK_STAT.STATE 15, 6)] with port := [(15, { PortSt.init with token := some (4095, 0) })] }
     let q : Port := 15
     let p : Nat := q.val
     let x : PortSt := s.po p
     let st : Nat := s.fget (LNK_STAT.STATE p)
     let token : BitVec 12 := 4095
     let since : Nat := 0
     x.token = some (token.toNat, since)) ∧
    (let s : State := { st [(LNK_STAT.STATE 15, 4)] with port := [(15, { PortSt.init with grans := [0] })] }
     let q : Port := 15
     let p : Nat := q.val
     let x : PortSt := s.po p
     let st : Nat := s.fget (LNK_STAT.STATE p)
     let seg : BitVec 4 := 11
     let d : Word := 0
     let held : Store Word := Store.insert x.ident seg.toNat d
     let b : List Byte := bytesOf (held.map Prod.snd)
     let whole : Bool := decide (held.length = 12) && decide (leAt b 44 4 = crc32 (b.take 44))
     4 ≤ st ∧
     st ≤ 6 ∧
     seg.toNat < 12 ∧
     whole = false) ∧
    (let s : State := { st [(LNK_STAT.STATE 15, 4)] with port := [(15, { PortSt.init with ident := (List.range 11).map (fun i => (i, 0)) })] }
     let q : Port := 15
     let p : Nat := q.val
     let x : PortSt := s.po p
     let st : Nat := s.fget (LNK_STAT.STATE p)
     let seg : BitVec 4 := 11
     let d : Word := BitVec.ofNat 32 (crc32 (List.replicate 44 0))
     let held : Store Word := Store.insert x.ident seg.toNat d
     let b : List Byte := bytesOf (held.map Prod.snd)
     let whole : Bool := decide (held.length = 12) && decide (leAt b 44 4 = crc32 (b.take 44))
     4 ≤ st ∧
     st ≤ 6 ∧
     seg.toNat < 12 ∧
     whole = true ∧
     st = 4 ∧
     s.fget (LNK_STAT.HOLD_CAUSE p) ≠ 2) ∧
    (let s : State := { st [(LNK_STAT.STATE 15, 0)] with port := [(15, { PortSt.init with grans := [] })] }
     let q : Port := 15
     let p : Nat := q.val
     let x : PortSt := s.po p
     let st : Nat := s.fget (LNK_STAT.STATE p)
     let m : Master := 0
     let v : Word := wd [(LNK_CTL.EN 15, 1)]
     s.admits m (LNK_CTL.off p) v = true ∧
     s.flag (LNK_STAT.OOS p) = false ∧
     s.flag (LNK_CTL.EN p) = false ∧
     (LNK_CTL.EN p).of v = 1 ∧
     (LNK_CTL.MEDIUM p).of v ≠ 2 ∧
     (LNK_CTL.DATA_EN p).of v = 0 ∧
     (LNK_CTL.RETRAIN p).of v = 0 ∧
     (LNK_CTL.UNPARK p).of v = 0) ∧
    (let s : State := { st [(LNK_STAT.STATE 15, 1), (LNK_CTL.EN 15, 1)] with port := [(15, { PortSt.init with grans := [] })] }
     let q : Port := 15
     let p : Nat := q.val
     let x : PortSt := s.po p
     let st : Nat := s.fget (LNK_STAT.STATE p)
     let m : Master := 0
     let v : Word := wd []
     s.admits m (LNK_CTL.off p) v = true ∧
     s.flag (LNK_STAT.OOS p) = false ∧
     s.flag (LNK_CTL.EN p) = true ∧
     (LNK_CTL.EN p).of v = 0 ∧
     (LNK_CTL.DATA_EN p).of v = 0) ∧
    (let q : Port := 15
     let p : Nat := q.val
     let s : State := { st [(LNK_STAT.STATE 15, 8), (LNK_CTL.EN 15, 1)] with port := [(15, { PortSt.init with grans := [] })], now := 10 ^ 12 }
     let x : PortSt := s.po p
     let st : Nat := s.fget (LNK_STAT.STATE p)
     let m : Master := 0
     let v : Word := wd [(LNK_CTL.EN 15, 1), (LNK_CTL.RETRAIN 15, 1)]
     s.admits m (LNK_CTL.off p) v = true ∧
     s.flag (LNK_STAT.OOS p) = false ∧
     s.flag (LNK_CTL.EN p) = true ∧
     (LNK_CTL.EN p).of v = 1 ∧
     (LNK_CTL.DATA_EN p).of v = 0 ∧
     (LNK_CTL.RETRAIN p).of v = 1 ∧
     (LNK_CTL.MEDIUM p).of v ≠ 2 ∧
     st = 8) ∧
    (let q : Port := 15
     let p : Nat := q.val
     let s : State := { st [(LNK_STAT.STATE 15, 6), (LNK_CTL.EN 15, 1)] with port := [(15, { PortSt.init with grans := [] })], now := 10 ^ 12 }
     let x : PortSt := s.po p
     let st : Nat := s.fget (LNK_STAT.STATE p)
     let m : Master := 0
     let v : Word := wd [(LNK_CTL.EN 15, 1), (LNK_CTL.RETRAIN 15, 1)]
     s.admits m (LNK_CTL.off p) v = true ∧
     s.flag (LNK_STAT.OOS p) = false ∧
     s.flag (LNK_CTL.EN p) = true ∧
     (LNK_CTL.EN p).of v = 1 ∧
     (LNK_CTL.DATA_EN p).of v = 0 ∧
     (LNK_CTL.RETRAIN p).of v = 1 ∧
     (LNK_CTL.MEDIUM p).of v ≠ 2 ∧
     st ≠ 8 ∧
     (x.retrains.filter (fun u => decide (s.now < u + sUnits 600))).length < 2 ∧
     ((4 ≤ st ∧ x.fails < 3) ∨ x.fails < 2)) ∧
    (let s : State := { st [(LNK_STAT.STATE 15, 0)] with port := [(15, { PortSt.init with grans := [] })] }
     let q : Port := 15
     let p : Nat := q.val
     let x : PortSt := s.po p
     let st : Nat := s.fget (LNK_STAT.STATE p)
     let m : Master := 0
     let v : Word := wd [(LNK_CTL.UNPARK 15, 1)]
     s.admits m (LNK_CTL.off p) v = true ∧
     s.flag (LNK_STAT.OOS p) = false ∧
     (LNK_CTL.EN p).of v = s.fget (LNK_CTL.EN p) ∧
     (LNK_CTL.DATA_EN p).of v = 0 ∧
     (LNK_CTL.RETRAIN p).of v = 0 ∧
     (LNK_CTL.UNPARK p).of v = 1 ∧
     st ≠ 5 ∧
     st ≠ 6 ∧
     x.dataReady = false) ∧
    (let s : State := { st [(LNK_STAT.STATE 15, 5), (LNK_CTL.EN 15, 1), (LNK_STAT.PEER_READY 15, 1)] with port := [(15, { PortSt.init with grans := [] })] }
     let q : Port := 15
     let p : Nat := q.val
     let x : PortSt := s.po p
     let st : Nat := s.fget (LNK_STAT.STATE p)
     let m : Master := 0
     let v : Word := wd [(LNK_CTL.EN 15, 1), (LNK_CTL.DATA_EN 15, 1)]
     s.admits m (LNK_CTL.off p) v = true ∧
     s.flag (LNK_STAT.OOS p) = false ∧
     s.flag (LNK_CTL.EN p) = true ∧
     (LNK_CTL.EN p).of v = 1 ∧
     (LNK_CTL.DATA_EN p).of v = 1 ∧
     (LNK_CTL.RETRAIN p).of v = 0 ∧
     (LNK_CTL.UNPARK p).of v = 0 ∧
     s.flag (LNK_STAT.HOLD_CAUSE p) = false ∧
     st = 5 ∧
     s.flag (LNK_STAT.PEER_READY p) = true) ∧
    (let s : State := { st [(LNK_STAT.STATE 15, 5), (LNK_CTL.EN 15, 1), (LNK_STAT.HOLD_CAUSE 15, 1)] with port := [(15, { PortSt.init with grans := [] })] }
     let q : Port := 15
     let p : Nat := q.val
     let x : PortSt := s.po p
     let st : Nat := s.fget (LNK_STAT.STATE p)
     let m : Master := 0
     let v : Word := wd [(LNK_CTL.EN 15, 1), (LNK_CTL.DATA_EN 15, 1)]
     s.admits m (LNK_CTL.off p) v = true ∧
     s.flag (LNK_STAT.OOS p) = false ∧
     s.flag (LNK_CTL.EN p) = true ∧
     (LNK_CTL.EN p).of v = 1 ∧
     (LNK_CTL.DATA_EN p).of v = 1 ∧
     (LNK_CTL.RETRAIN p).of v = 0 ∧
     (LNK_CTL.UNPARK p).of v = 0 ∧
     s.flag (LNK_STAT.HOLD_CAUSE p) = true ∧
     st = 5 ∧
     x.dataReady = false) ∧
    (let s : State := { st [(LNK_STAT.STATE 15, 0)] with port := [(15, { PortSt.init with grans := [] })] }
     let q : Port := 15
     let p : Nat := q.val
     let x : PortSt := s.po p
     let st : Nat := s.fget (LNK_STAT.STATE p)
     let m : Master := 0
     let v : Word := 0
     let i : Fin 5 := 3
     let off : Nat := if i.val < 4 then LNK_EXP.off p i.val else LNK_EXP_ID.off p
     s.admits m off v = true ∧
     st ≠ 5 ∧
     st ≠ 6) ∧
    (let q : Port := 15
     let p : Nat := q.val
     let s : State := { st [(LNK_STAT.STATE 15, 5)] with port := [(15, { PortSt.init with grans := [] })] }
     let x : PortSt := s.po p
     let st : Nat := s.fget (LNK_STAT.STATE p)
     let m : Master := 0
     let v : Word := 0
     let i : Fin 5 := 4
     let off : Nat := if i.val < 4 then LNK_EXP.off p i.val else LNK_EXP_ID.off p
     s.admits m off v = true ∧
     st = 5) := by
  refine ⟨?_, ?_, ?_, ?_, ?_, ?_, ?_, ?_, ?_, ?_, ?_, ?_, ?_, ?_, ?_, ?_, ?_⟩ <;> decide +kernel

/-- Every clause of LaneService has a state and operands that meet its hypotheses. -/
theorem meets_LaneService :
    (let s : State := { st [(LNK_STAT.STATE 15, 6)] with port := [(15, { PortSt.init with rxAct := [0, 1, 2, 3, 31] })] }
     let q : Port := 15
     let p : Nat := q.val
     let x : PortSt := s.po p
     let st : Nat := s.fget (LNK_STAT.STATE p)
     let i : Fin 32 := 31
     4 ≤ st ∧
     st ≤ 6 ∧
     x.rxAct.contains (x.logLane i.val) = true ∧
     x.logLane i.val < 32 ∧
     5 ≤ x.rxAct.length) ∧
    (let s : State := { st [(LNK_STAT.STATE 15, 6)] with port := [(15, { PortSt.init with rxAct := [0, 1, 2, 3] })] }
     let q : Port := 15
     let p : Nat := q.val
     let x : PortSt := s.po p
     let st : Nat := s.fget (LNK_STAT.STATE p)
     let i : Fin 32 := 3
     let few : Prop := (x.retrains.filter (fun u => decide (s.now < u + sUnits 600))).length < 2 ∧ x.fails < 3
     4 ≤ st ∧
     st ≤ 6 ∧
     x.rxAct.contains (x.logLane i.val) = true ∧
     x.logLane i.val < 32 ∧
     x.rxAct.length < 5 ∧
     few ∧
     s.fget (LNK_CTL.MEDIUM p) ≠ 2) ∧
    (let q : Port := 15
     let p : Nat := q.val
     let s : State := { st [(LNK_STAT.STATE 15, 6), (LNK_LANE_OUT.LANES 15, 2 ^ 31)] with port := [(15, { PortSt.init with rxAct := [0, 1, 2, 3] })], now := 10 ^ 12 }
     let x : PortSt := s.po p
     let st : Nat := s.fget (LNK_STAT.STATE p)
     let i : Fin 32 := 31
     4 ≤ st ∧
     st ≤ 6 ∧
     (s.fget (LNK_LANE_OUT.LANES p)).testBit i.val = true ∧
     (s.fget (LNK_LANE_PARK.LANES p)).testBit i.val = false ∧
     (x.lane (x.physLane i.val)).clean s.now = true ∧
     (s.calTick && decide (s.calFrom ≤ s.now) && decide (s.now < s.calTo)) = false) ∧
    (let o : Option (Fin 32) := none
     let q : Port := 15
     let p : Nat := q.val
     let s : State := { st [(LNK_STAT.STATE 15, 6), (LNK_CTL.STORM 15, 1)] with port := [(15, { PortSt.init with naks := [1, 1], rxAct := [0, 1, 2, 3, 31], grans := [0, 1, 2, 3, 4, 5, 6, 7], lanes := [(31, { LaneSt.init with uncs := [0] })] })] }
     let x : PortSt := s.po p
     let st : Nat := s.fget (LNK_STAT.STATE p)
     let l : Nat := 31
     s.fget (LNK_CTL.STORM p) < (x.naks.filter (fun u => decide (s.now < u + usUnits 100))).length ∧
     4 ≤ st ∧
     st ≤ 6 ∧
     s.dominant p (o.map Fin.val) = some l ∧
     x.rxAct.contains l = true ∧
     l < 32 ∧
     5 ≤ x.rxAct.length) ∧
    (let o : Option (Fin 32) := none
     let s : State := { st [(LNK_STAT.STATE 15, 6), (LNK_CTL.STORM 15, 1)] with port := [(15, { PortSt.init with naks := [1, 1] })] }
     let q : Port := 15
     let p : Nat := q.val
     let x : PortSt := s.po p
     let st : Nat := s.fget (LNK_STAT.STATE p)
     let few : Prop := (x.retrains.filter (fun u => decide (s.now < u + sUnits 600))).length < 2 ∧ x.fails < 3
     s.fget (LNK_CTL.STORM p) < (x.naks.filter (fun u => decide (s.now < u + usUnits 100))).length ∧
     4 ≤ st ∧
     st ≤ 6 ∧
     s.dominant p (o.map Fin.val) = none ∧
     few ∧
     s.fget (LNK_CTL.MEDIUM p) ≠ 2) ∧
    (let q : Port := 15
     let p : Nat := q.val
     let s : State := { st [(LNK_STAT.STATE 15, 6)] with port := [(15, { PortSt.init with grans := [0] })] }
     let x : PortSt := s.po p
     let st : Nat := s.fget (LNK_STAT.STATE p)
     True) ∧
    (let q : Port := 15
     let p : Nat := q.val
     let s : State := { st [(LNK_STAT.STATE 15, 6)] with port := [(15, { PortSt.init with grans := [0] })] }
     let x : PortSt := s.po p
     let st : Nat := s.fget (LNK_STAT.STATE p)
     True) ∧
    (let s : State := st [(RIG_SL_STAT.SHADOW 15, 3), (RIG_SL_STAT.SLICE_ID 15, 5), (TCK_SL_STAT.SLICE_ID 15, 5), (RIG_SL_AT_LO.AT 15, 65535)]
     let slice : BitVec 12 := 5
     let step : BitVec 16 := 65535
     let n : Nat := 15
     s.ctxOf slice.toNat = some n ∧
     s.fget (RIG_SL_STAT.SHADOW n) = 3 ∧
     s.pair (RIG_SL_AT_LO.off n) % 2 ^ 16 = step.toNat ∧
     (s.cx n).refused = false ∧
     s.mgr.load.armed.any (fun a => a.1 = slice.toNat && a.2 % 2 ^ 16 = step.toNat) = false) ∧
    (let q : Port := 15
     let p : Nat := q.val
     let s : State := { st [(LNK_STAT.STATE 15, 6), (LNK_CTL.MEDIUM 15, 2)] with port := [(15, { PortSt.init with grans := [0] })] }
     let x : PortSt := s.po p
     let st : Nat := s.fget (LNK_STAT.STATE p)
     let rev : BitVec 8 := 0x50
     s.fget (LNK_CTL.MEDIUM p) = 2 ∧
     x.optAt = none ∧
     0x50 ≤ rev.toNat) ∧
    (let q : Port := 15
     let p : Nat := q.val
     let s : State := { st [(LNK_STAT.STATE 15, 1), (LNK_CTL.MEDIUM 15, 2)] with port := [(15, { PortSt.init with grans := [0], optAt := some 0 })] }
     let x : PortSt := s.po p
     let st : Nat := s.fget (LNK_STAT.STATE p)
     let rev : BitVec 8 := 0x50
     s.fget (LNK_CTL.MEDIUM p) = 2 ∧
     x.optAt.isSome = true ∧
     0x50 ≤ rev.toNat) ∧
    (let q : Port := 15
     let p : Nat := q.val
     let s : State := { st [(LNK_STAT.STATE 15, 1), (LNK_CTL.MEDIUM 15, 2)] with port := [(15, { PortSt.init with grans := [0], optAt := some 0 })] }
     let x : PortSt := s.po p
     let st : Nat := s.fget (LNK_STAT.STATE p)
     let rev : BitVec 8 := 0x4F
     s.fget (LNK_CTL.MEDIUM p) = 2 ∧
     x.optAt.isSome = true ∧
     rev.toNat < 0x50) ∧
    (let s : State := { st [(LNK_STAT.STATE 15, 6), (LNK_CTL.MEDIUM 15, 2)] with port := [(15, { PortSt.init with grans := [] })] }
     let q : Port := 15
     let p : Nat := q.val
     let x : PortSt := s.po p
     let st : Nat := s.fget (LNK_STAT.STATE p)
     s.fget (LNK_CTL.MEDIUM p) = 2 ∧
     x.optAt = none) ∧
    (let s : State := { st [(LNK_STAT.STATE 15, 6), (LNK_CTL.MEDIUM 15, 2)] with port := [(15, { PortSt.init with grans := [] })] }
     let q : Port := 15
     let p : Nat := q.val
     let x : PortSt := s.po p
     let st : Nat := s.fget (LNK_STAT.STATE p)
     let warn : Bool := false
     let alarm : Bool := true
     s.fget (LNK_CTL.MEDIUM p) = 2 ∧
     s.flt.queue.length < 1024) ∧
    (let s : State := { st [(LNK_STAT.STATE 15, 4), (LNK_CTL.MEDIUM 15, 2)] with port := [(15, { PortSt.init with grans := [] })] }
     let q : Port := 15
     let p : Nat := q.val
     let x : PortSt := s.po p
     let st : Nat := s.fget (LNK_STAT.STATE p)
     s.fget (LNK_CTL.MEDIUM p) = 2 ∧
     s.flt.queue.length < 1024) ∧
    (let q : Port := 15
     let p : Nat := q.val
     let s : State := { st [(LNK_STAT.STATE 15, 4), (LNK_CTL.MEDIUM 15, 2)] with port := [(15, { PortSt.init with grans := [0] })] }
     let x : PortSt := s.po p
     let st : Nat := s.fget (LNK_STAT.STATE p)
     s.fget (LNK_CTL.MEDIUM p) = 2 ∧
     s.flt.queue.length < 1024) ∧
    (let s : State := { st [(LNK_STAT.STATE 15, 7), (LNK_CTL.MEDIUM 15, 2)] with port := [(15, { PortSt.init with grans := [] })] }
     let q : Port := 15
     let p : Nat := q.val
     let x : PortSt := s.po p
     let st : Nat := s.fget (LNK_STAT.STATE p)
     s.fget (LNK_CTL.MEDIUM p) = 2 ∧
     (st < 4 ∨ 6 < st)) ∧
    (let q : Port := 15
     let p : Nat := q.val
     let s : State := { st [(LNK_STAT.STATE 15, 6), (LNK_CTL.MEDIUM 15, 2)] with port := [(15, { PortSt.init with grans := [0] })] }
     let x : PortSt := s.po p
     let st : Nat := s.fget (LNK_STAT.STATE p)
     let few : Prop := (x.retrains.filter (fun u => decide (s.now < u + sUnits 600))).length < 2 ∧ x.fails < 3
     s.fget (LNK_CTL.MEDIUM p) = 2 ∧
     4 ≤ st ∧
     st ≤ 6 ∧
     few) := by
  refine ⟨?_, ?_, ?_, ?_, ?_, ?_, ?_, ?_, ?_, ?_, ?_, ?_, ?_, ?_, ?_, ?_, ?_⟩ <;> decide +kernel

/-- Every clause of ManagementAcceptance has a state and operands that meet its hypotheses. -/
theorem meets_ManagementAcceptance :
    (let s : State := st [(FAB_MGR_ID.VALID, 1), (FAB_MGR_ID.ACTING, 1), (FAB_TERM.TERM, 5), (FAB_SELF.VALID, 1)]
     let p : Packet := { pk0 with aux := 0x10, src := hubEp 1, payload := preamble 4 1 false false false 0 0 0 0 ++ [] }
     let via : Option Port := none
     let src : Nat := epMod p.src
     let code : Nat := p.aux.toNat
     let own : Nat := s.fget FAB_TERM.TERM
     let named := p.fromHub = true ∧ src ∈ s.managers
     let inForce := p.fromHub = true ∧ s.flag FAB_MGR_ID.VALID = true ∧ src = s.fget FAB_MGR_ID.ACTING
     s.hubUp = true ∧
     p.typ = 0 ∧
     p.aux ≠ 0xFF ∧
     p.mc = false ∧
     (p.srcrt = true → bits p.route 3 0 = 0) ∧
     code ∈ commandCodes ∧
     modGroup src = modGroup s.modId ∧
     (code ∈ memberCodes → s.manages = false) ∧
     (named ∨ inForce) ∧
     p.term < own) ∧
    (let s : State := st [(FAB_MGR_ID.VALID, 1), (FAB_MGR_ID.ACTING, 1), (FAB_TERM.TERM, 5), (FAB_SELF.VALID, 1)]
     let p : Packet := { pk0 with aux := 0x20, src := hubEp 2, payload := preamble 6 2 false false false 0 0 0 0 ++ [] }
     let via : Option Port := none
     let src : Nat := epMod p.src
     let code : Nat := p.aux.toNat
     let own : Nat := s.fget FAB_TERM.TERM
     let named := p.fromHub = true ∧ src ∈ s.managers
     let inForce := p.fromHub = true ∧ s.flag FAB_MGR_ID.VALID = true ∧ src = s.fget FAB_MGR_ID.ACTING
     s.hubUp = true ∧
     p.typ = 0 ∧
     p.aux ≠ 0xFF ∧
     p.mc = false ∧
     (p.srcrt = true → bits p.route 3 0 = 0) ∧
     code ∈ commandCodes ∧
     modGroup src = modGroup s.modId ∧
     (code ∈ memberCodes → s.manages = false) ∧
     (¬ named) ∧
     (¬ inForce) ∧
     s.flag FAB_SELF.VALID = true ∧
     (own < p.term → s.acting = false ∧ s.fget FAB_MGR_STAT.ROLE ≠ 1)) ∧
    (let s : State := { st [(FAB_MGR_STAT.ROLE, 2), (FAB_SELF.VALID, 1)] with mgr := { MgrSt.init with manifest := man 0 1 [0, 1, 2] } }
     let p : Packet := { pk0 with aux := 0x10, src := hubEp 2, payload := preamble 6 2 false false false 0 0 0 0 ++ [] }
     let via : Option Port := none
     let src : Nat := epMod p.src
     let code : Nat := p.aux.toNat
     let own : Nat := s.fget FAB_TERM.TERM
     let named := p.fromHub = true ∧ src ∈ s.managers
     let inForce := p.fromHub = true ∧ s.flag FAB_MGR_ID.VALID = true ∧ src = s.fget FAB_MGR_ID.ACTING
     s.hubUp = true ∧
     p.typ = 0 ∧
     p.aux ≠ 0xFF ∧
     p.mc = false ∧
     (p.srcrt = true → bits p.route 3 0 = 0) ∧
     code ∈ commandCodes ∧
     modGroup src = modGroup s.modId ∧
     (code ∈ memberCodes → s.manages = false) ∧
     (¬ named) ∧
     (¬ inForce) ∧
     s.flag FAB_SELF.VALID = true ∧
     s.acting = true ∧
     p.fromHub = true ∧
     manHas s.mgr.manifest src = true ∧
     own < p.term) ∧
    (let s : State := st [(LNK_STAT.STATE 15, 5)]
     let p : Packet := { pk0 with aux := 0x08, src := hubEp 1, payload := preamble 0 0 false true false 0 0xF1 0 0 ++ [] }
     let via : Option Port := none
     let src : Nat := epMod p.src
     let code : Nat := p.aux.toNat
     let own : Nat := s.fget FAB_TERM.TERM
     let c : Port := 0
     let via : Option Port := some c
     let out : Nat := bits p.route 7 4
     s.hubUp = true ∧
     p.typ = 0 ∧
     p.aux ≠ 0xFF ∧
     via = some c ∧
     p.mc = false ∧
     p.srcrt = true ∧
     code < 0x80 ∧
     bits p.route 3 0 ≠ 0 ∧
     s.trained out = true) ∧
    (let s : State := linked.fset FAB_SELF.VALID 1
     let p : Packet := { pk0 with aux := 0x08, src := hubEp 1, payload := preamble 0 0 true false false 0 0 2 1 ++ [] }
     let via : Option Port := none
     let src : Nat := epMod p.src
     let code : Nat := p.aux.toNat
     let own : Nat := s.fget FAB_TERM.TERM
     let c : Nat := 0
     let g : Nat := 1
     let q : Nat := 2
     s.hubUp = true ∧
     p.typ = 0 ∧
     p.aux ≠ 0xFF ∧
     p.mc = true ∧
     s.flag FAB_SELF.VALID = true ∧
     s.mcSplit (leAt p.payload 24 8) (leAt p.payload 16 8) (leAt p.payload 16 8) = (false, [(c, g, q)])) ∧
    (let s : State := st [(FAB_MGR_ID.VALID, 1), (FAB_MGR_ID.ACTING, 1), (FAB_TERM.TERM, 5), (FAB_SELF.VALID, 1)]
     let p : Packet := { pk0 with aux := 0x10, src := hubEp 1, payload := preamble 5 1 false false false 0 0 0 0 ++ (leBytes 4 (FAB_CMD_ARG.off 15) ++ leBytes 4 7) }
     let via : Option Port := none
     let src : Nat := epMod p.src
     let code : Nat := p.aux.toNat
     let own : Nat := s.fget FAB_TERM.TERM
     let es : List (Fin 16 × Word) := [(15, 7)]
     let inForce := p.fromHub = true ∧ s.flag FAB_MGR_ID.VALID = true ∧ src = s.fget FAB_MGR_ID.ACTING
     s.hubUp = true ∧
     p.typ = 0 ∧
     p.aux ≠ 0xFF ∧
     p.mc = false ∧
     p.srcrt = false ∧
     p.host = false ∧
     inForce ∧
     p.mgr = src ∧
     own ≤ p.term ∧
     s.manages = false ∧
     modGroup src = modGroup s.modId ∧
     code = 0x10 ∧
     es.length ≤ 60 ∧
     p.body = es.flatMap (fun e => leBytes 4 (FAB_CMD_ARG.off e.1.val) ++ leBytes 4 e.2.toNat)) ∧
    (let s : State := st [(FAB_MGR_ID.VALID, 1), (FAB_MGR_ID.ACTING, 1), (FAB_TERM.TERM, 5), (FAB_SELF.VALID, 1)]
     let p : Packet := { pk0 with aux := 0x11, src := hubEp 1, payload := preamble 5 1 false false false 0 0 0 0 ++ leBytes 4 (FAB_CMD_ARG.off 15) }
     let via : Option Port := none
     let src : Nat := epMod p.src
     let code : Nat := p.aux.toNat
     let own : Nat := s.fget FAB_TERM.TERM
     let es : List (Fin 16) := [15]
     let inForce := p.fromHub = true ∧ s.flag FAB_MGR_ID.VALID = true ∧ src = s.fget FAB_MGR_ID.ACTING
     s.hubUp = true ∧
     p.typ = 0 ∧
     p.aux ≠ 0xFF ∧
     p.mc = false ∧
     p.srcrt = false ∧
     p.host = false ∧
     inForce ∧
     p.mgr = src ∧
     own ≤ p.term ∧
     s.manages = false ∧
     modGroup src = modGroup s.modId ∧
     code = 0x11 ∧
     es.length ≤ 120 ∧
     p.body = es.flatMap (fun i => leBytes 4 (FAB_CMD_ARG.off i.val))) := by
  refine ⟨?_, ?_, ?_, ?_, ?_, ?_, ?_⟩ <;> decide +kernel

/-- Every clause of TermsAndTethers has a state and operands that meet its hypotheses. -/
theorem meets_TermsAndTethers :
    (let s : State := { grp 2 [] with mgr := { (grp 2 []).mgr with manifest := man 0 0 [0, 1] } }
     s.acting = true ∧
     s.mgr.sentAt + msUnits 10 ≤ s.now ∧
     (s.flag FAB_MGR_STAT.COORD = true → s.now < s.mgr.coord.sentAt + msUnits 10) ∧
     s.otherMgr = none) ∧
    (let s : State := grp 2 []
     let m : Nat := 1
     s.acting = true ∧
     s.mgr.sentAt + msUnits 10 ≤ s.now ∧
     (s.flag FAB_MGR_STAT.COORD = true → s.now < s.mgr.coord.sentAt + msUnits 10) ∧
     s.otherMgr = some m ∧
     m ∈ s.groupMods ∧
     (s.escapeOut m).isSome = true) ∧
    (let s : State := (grp2 2 256 [(FAB_MGR_STAT.COORD, 1)]).modMgr (fun x => { x with sentAt := 10 ^ 12 })
     let m : Nat := 64
     let k : Nat := 65
     s.acting = true ∧
     s.flag FAB_MGR_STAT.COORD = true ∧
     s.mgr.coord.sentAt + msUnits 10 ≤ s.now ∧
     s.now < s.mgr.sentAt + msUnits 10 ∧
     s.farMgrs.filter s.reaches = [m, k] ∧
     s.srcRoute m = 0 ∧
     s.srcRoute k = 0 ∧
     s.far m = true ∧
     s.far k = true) ∧
    (let s : State := grp 0 []
     let own : Nat := s.fget FAB_TERM.TERM
     let p : Packet := from1 1 0 0 []
     p.aux = 1 ∧
     s.hears p none = true ∧
     epMod p.src ≠ s.modId ∧
     s.far (epMod p.src) = false) ∧
    (let s : State := grp2 2 1 [(FAB_MGR_ID.COORD_VALID, 1), (FAB_MGR_ID.COORD, 64)]
     let p : Packet := from64 1 0 0 (leBytes 4 7)
     let cterm := s.fget FAB_COORD_TERM.TERM
     p.aux = 1 ∧
     s.hears p none = true ∧
     s.far (epMod p.src) = true ∧
     s.flag FAB_MGR_STAT.COORD = false ∧
     s.flag FAB_MGR_ID.COORD_VALID = true ∧
     s.fget FAB_MGR_ID.COORD = epMod p.src ∧
     p.term = cterm) ∧
    (let s : State := (grp 2 []).modMgr (fun x => { x with tethers := [⟨7, 0, [0]⟩], awaits := [⟨1, 0, 4096, 0, 16⟩], sby := 1 })
     let p : Packet := from1 0x81 0 0 (leBytes 4 7)
     let x : TetherSt := ⟨7, 0, [0]⟩
     let held := (s.otherMgr = some (epMod p.src) ∧ s.mgr.sby = 2) ∨ s.groupMods.length < 2 * (addKey x.got (epMod p.src)).length
     p.aux = 0x81 ∧
     s.hears p none = true ∧
     s.acting = true ∧
     s.far (epMod p.src) = false ∧
     s.mgr.tethers.find? (fun y => y.seq = leAt p.body 0 4) = some x ∧
     (s.otherMgr = some (epMod p.src) → s.mgr.sby ≠ 0) ∧
     held) ∧
    (let s : State := (grp 2 []).modMgr (fun x => { x with tethers := [⟨7, 0, []⟩], awaits := [⟨1, 0, 4096, 0, 16⟩], sby := 1 })
     let p : Packet := from1 0x81 0 0 (leBytes 4 7)
     let x : TetherSt := ⟨7, 0, []⟩
     let held := (s.otherMgr = some (epMod p.src) ∧ s.mgr.sby = 2) ∨ s.groupMods.length < 2 * (addKey x.got (epMod p.src)).length
     p.aux = 0x81 ∧
     s.hears p none = true ∧
     s.acting = true ∧
     s.far (epMod p.src) = false ∧
     s.mgr.tethers.find? (fun y => y.seq = leAt p.body 0 4) = some x ∧
     (s.otherMgr = some (epMod p.src) → s.mgr.sby ≠ 0) ∧
     (¬ held)) ∧
    (let s : State := (grp 2 []).modMgr (fun x => { x with cmds := [⟨1, 7, [], 1, 0, [], false⟩] })
     s.acting = true ∧
     s.mgr.leaseEnd ≤ s.now) ∧
    (let s : State := (grp2 2 256 [(FAB_MGR_STAT.COORD, 1)]).modMgr (fun x => { x with leaseEnd := 10 ^ 13 })
     s.acting = true ∧
     s.now < s.mgr.leaseEnd ∧
     s.flag FAB_MGR_STAT.COORD = true ∧
     s.mgr.coord.leaseEnd ≤ s.now) ∧
    (let s : State := grp 4 []
     let own : Nat := s.fget FAB_TERM.TERM
     s.fget FAB_MGR_STAT.ROLE = 4 ∧
     s.mgr.takeAt = none ∧
     s.mgr.replyAt + msUnits 50 ≤ s.now) ∧
    (let s : State := (grp2 2 1 []).modMgr (fun x => { x with coord := { x.coord with replyAt := some 0 } })
     let x : Nat := 0
     s.acting = true ∧
     s.flag FAB_MGR_STAT.COORD = false ∧
     s.mgr.coord.replyAt = some x ∧
     x + msUnits 50 ≤ s.now ∧
     s.mgr.coord.takeAt = none) ∧
    (let s : State := (grp 0 []).modMgr (fun x => { x with tetherAt := some (10 ^ 12) })
     let own : Nat := s.fget FAB_TERM.TERM
     let p : Packet := from1 4 1 0 []
     let x : Nat := 10 ^ 12
     p.aux = 4 ∧
     s.hears p none = true ∧
     s.far (epMod p.src) = false ∧
     s.mgr.tetherAt = some x ∧
     s.now < x + msUnits 48 ∧
     own < p.term) ∧
    (let s : State := grp 0 []
     let own : Nat := s.fget FAB_TERM.TERM
     let p : Packet := from1 4 1 0 []
     p.aux = 4 ∧
     s.hears p none = true ∧
     s.far (epMod p.src) = false ∧
     s.mgr.tetherAt = none ∧
     own < p.term) ∧
    (let s : State := (grp2 2 1 []).modMgr (fun x => { x with coord := { x.coord with tetherAt := some (10 ^ 12) } })
     let p : Packet := from64 4 1 0 []
     let x : Nat := 10 ^ 12
     let cterm := s.fget FAB_COORD_TERM.TERM
     p.aux = 4 ∧
     s.hears p none = true ∧
     s.far (epMod p.src) = true ∧
     s.mgr.coord.tetherAt = some x ∧
     s.now < x + msUnits 48 ∧
     cterm < p.term) ∧
    (let s : State := (grp 4 []).modMgr (fun x => { x with takeAt := some 0, awaits := [⟨4, 0, 4096, 0, 16⟩] })
     let own : Nat := s.fget FAB_TERM.TERM
     let p : Packet := from1 0x84 0 0 []
     let x : Nat := 0
     let l : List Nat := addKey s.mgr.accepts (epMod p.src)
     p.aux = 0x84 ∧
     s.hears p none = true ∧
     s.far (epMod p.src) = false ∧
     s.mgr.takeAt = some x ∧
     p.term = own ∧
     2 * l.length ≤ s.groupMods.length) ∧
    (let s : State := (grp 4 []).modMgr (fun x => { x with takeAt := some 0, accepts := [0], awaits := [⟨4, 0, 4096, 0, 16⟩] })
     let own : Nat := s.fget FAB_TERM.TERM
     let p : Packet := from1 0x84 0 0 []
     let x : Nat := 0
     let l : List Nat := addKey s.mgr.accepts (epMod p.src)
     p.aux = 0x84 ∧
     s.hears p none = true ∧
     s.far (epMod p.src) = false ∧
     s.mgr.takeAt = some x ∧
     p.term = own ∧
     s.groupMods.length < 2 * l.length) ∧
    (let s : State := (grp 4 []).modMgr (fun x => { x with takeAt := some 0 })
     let own : Nat := s.fget FAB_TERM.TERM
     let x : Nat := 0
     s.mgr.takeAt = some x ∧
     x + msUnits 10 ≤ s.now ∧
     s.mgr.coord.takeAt = none) ∧
    (let s : State := (grp2 2 1 []).modMgr (fun x => { x with coord := { x.coord with takeAt := some 0 } })
     let x : Nat := 0
     s.mgr.coord.takeAt = some x ∧
     x + msUnits 10 ≤ s.now ∧
     s.mgr.takeAt = none) := by
  refine ⟨?_, ?_, ?_, ?_, ?_, ?_, ?_, ?_, ?_, ?_, ?_, ?_, ?_, ?_, ?_, ?_, ?_, ?_⟩ <;> decide +kernel

/-- Every clause of JournalAndHandback has a state and operands that meet its hypotheses. -/
theorem meets_JournalAndHandback :
    (let s : State := grp 4 []
     let own : Nat := s.fget FAB_TERM.TERM
     let p : Packet := from1 2 0 0 (leBytes 4 0 ++ leBytes 4 9 ++ leBytes 4 1)
     let j : Journal := ⟨leAt p.body 0 4, leAt p.body 4 4, p.body.drop 8⟩
     let v : Nat := 1
     p.aux = 2 ∧
     s.hears p none = true ∧
     s.far (epMod p.src) = false ∧
     s.modId ∈ s.managers ∧
     v < 4 ∧
     j.kind = 9 ∧
     j.data = leBytes 4 v ∧
     j.seq = s.mgr.jwant ∧
     s.mgr.jheld = []) ∧
    (let s : State := grp 3 []
     let own : Nat := s.fget FAB_TERM.TERM
     let p : Packet := from1 2 0 0 (leBytes 4 0 ++ leBytes 4 10)
     let j : Journal := ⟨leAt p.body 0 4, leAt p.body 4 4, p.body.drop 8⟩
     p.aux = 2 ∧
     s.hears p none = true ∧
     s.far (epMod p.src) = false ∧
     s.modId ∈ s.managers ∧
     j.kind = 10 ∧
     j.seq = s.mgr.jwant ∧
     s.mgr.jheld = [] ∧
     s.fget FAB_MGR_STAT.ROLE = 3) ∧
    (let s : State := grp 4 []
     let own : Nat := s.fget FAB_TERM.TERM
     let p : Packet := from1 2 0 0 (leBytes 4 5 ++ leBytes 4 1)
     let j : Journal := ⟨leAt p.body 0 4, leAt p.body 4 4, p.body.drop 8⟩
     p.aux = 2 ∧
     s.hears p none = true ∧
     s.far (epMod p.src) = false ∧
     s.modId ∈ s.managers ∧
     j.kind ≠ 0 ∧
     s.mgr.jwant < j.seq ∧
     (∀ k ∈ s.mgr.jheld, k.seq ≠ s.mgr.jwant)) ∧
    (let s : State := grp2 2 1 [(FAB_MGR_ID.COORD_VALID, 1), (FAB_MGR_ID.COORD, 64)]
     let p : Packet := from64 2 0 0 (leBytes 4 0 ++ leBytes 4 26)
     p.aux = 2 ∧
     s.hears p none = true ∧
     s.far (epMod p.src) = true ∧
     leAt p.body 4 4 = 26) ∧
    (let s : State := (grp 2 []).modMgr (fun x => { x with awaits := [⟨2, 0, 1, 0, 16⟩], sby := 1 })
     let own : Nat := s.fget FAB_TERM.TERM
     let p : Packet := from1 0x82 0 0 []
     let a : Await := ⟨2, 0, 1, 0, 16⟩
     p.aux = 0x82 ∧
     s.hears p none = true ∧
     s.awaited p none = some a ∧
     a.mod ≠ 4096 ∧
     s.mgr.sby = 1 ∧
     (∀ b ∈ s.mgr.awaits, b ≠ a → b.code ≠ 2)) ∧
    (let s : State := (grp 2 []).modMgr (fun x => { x with awaits := [⟨2, 0, 1, 0, 16⟩], sby := 2, cmds := [⟨3, 7, [1], 1, 0, [], true⟩] })
     let own : Nat := s.fget FAB_TERM.TERM
     let p : Packet := from1 0x82 0 0 []
     let a : Await := ⟨2, 0, 1, 0, 16⟩
     let c : HostCmd := ⟨3, 7, [1], 1, 0, [], true⟩
     let hseq : BitVec 16 := 7
     let v : Nat := 1
     p.aux = 0x82 ∧
     s.hears p none = true ∧
     s.awaited p none = some a ∧
     a.mod ≠ 4096 ∧
     s.mgr.sby = 2 ∧
     s.mgr.awaits = [a] ∧
     s.mgr.cmds = [c] ∧
     s.mgr.toArm = false ∧
     s.mgr.commits = [] ∧
     c.told = true ∧
     c.code = 3 ∧
     c.hseq = hseq.toNat ∧
     c.phase = 1 ∧
     c.args.getD 0 0 = v ∧
     (v = 1 ∨ v = 2)) ∧
    (let s : State := (grp 2 []).modMgr (fun x => { x with awaits := [⟨2, 0, 1, 0, 16⟩], sby := 2, cmds := [⟨10, 7, [], 1, 0, [], true⟩] })
     let p : Packet := from1 0x82 0 0 []
     let a : Await := ⟨2, 0, 1, 0, 16⟩
     let c : HostCmd := ⟨10, 7, [], 1, 0, [], true⟩
     let hseq : BitVec 16 := 7
     p.aux = 0x82 ∧
     s.hears p none = true ∧
     s.awaited p none = some a ∧
     a.mod ≠ 4096 ∧
     s.mgr.sby = 2 ∧
     s.mgr.awaits = [a] ∧
     s.mgr.cmds = [c] ∧
     s.mgr.toArm = false ∧
     s.mgr.commits = [] ∧
     c.told = true ∧
     c.code = 10 ∧
     c.hseq = hseq.toNat) ∧
    (let s : State := grp 4 [(FAB_MGR_STAT.MODE, 1)]
     let own : Nat := s.fget FAB_TERM.TERM
     s.managers.head? = some s.modId ∧
     s.fget FAB_MGR_STAT.ROLE = 4 ∧
     s.fget FAB_MGR_STAT.MODE = 1 ∧
     s.mgr.hbStep = none ∧
     (s.escapeOut (s.fget FAB_MGR_ID.ACTING)).isSome = true) ∧
    (let s : State := (grp 2 [(FAB_MGR_STAT.MODE, 1)]).modMgr (fun x => { x with sby := 2 })
     let own : Nat := s.fget FAB_TERM.TERM
     let p : Packet := from1 3 0 0 []
     p.aux = 3 ∧
     s.hears p none = true ∧
     s.acting = true ∧
     s.otherMgr = some (epMod p.src) ∧
     s.mgr.sby = 2 ∧
     s.mgr.hbStep = none ∧
     s.shownMode = 1 ∧
     (s.escapeOut (epMod p.src)).isSome = true) ∧
    (let s : State := (grp 2 []).modMgr (fun x => { x with hbStep := some 0 })
     let own : Nat := s.fget FAB_TERM.TERM
     let S : Nat := 0
     s.mgr.hbStep = some S ∧
     S ≤ s.step ∧
     s.acting = true) ∧
    (let s : State := { (grp 4 []).modMgr (fun x => { x with hbStep := some 0 }) with regs := (st [(FAB_MGR_STAT.ROLE, 4), (TCK_STEP_LO.LO, 1)]).regs }
     let S : Nat := 0
     s.mgr.hbStep = some S ∧
     S + 1 ≤ s.step ∧
     s.fget FAB_MGR_STAT.ROLE = 4) ∧
    (let s : State := (grp 2 []).modMgr (fun x => { x with recoverAt := some 0 })
     let own : Nat := s.fget FAB_TERM.TERM
     let x : Nat := 0
     s.mgr.recoverAt = some x ∧
     x + sUnits 10 ≤ s.now ∧
     s.mgr.hbAgain = false) ∧
    (let s : State := (grp 2 []).modMgr (fun x => { x with recoverAt := some 0, hbAgain := true, sby := 2 })
     let own : Nat := s.fget FAB_TERM.TERM
     let x : Nat := 0
     s.mgr.recoverAt = some x ∧
     x + sUnits 10 ≤ s.now ∧
     s.mgr.hbAgain = true ∧
     s.acting = true ∧
     s.mgr.sby = 2 ∧
     s.unsettled = false ∧
     s.fget FAB_MGR_STAT.MODE ≠ 3) := by
  refine ⟨?_, ?_, ?_, ?_, ?_, ?_, ?_, ?_, ?_, ?_, ?_, ?_, ?_⟩ <;> decide +kernel

/-- A manifest whose one module record has an identity digest, as MGR_SBY of group 0. -/
def sbyMan (d : List Byte) : List Byte := leBytes 64 (2 ^ 128 + 2 ^ 144) ++ (leBytes 64 (2 ^ 14) ++ (d ++ leBytes 288 1))

theorem sbyMan_head (d : List Byte) {o n : Nat} (h : o + n ≤ 64) : leAt (sbyMan d) o n = leAt (leBytes 64 (2 ^ 128 + 2 ^ 144)) o n := by
  unfold leAt sbyMan
  rw [slice_left _ _ (by simpa using h)]

theorem sbyMan_groups (d : List Byte) : manGroups (sbyMan d) = 1 := by
  unfold manGroups
  rw [sbyMan_head d (by omega)]
  decide +kernel

theorem sbyMan_mods (d : List Byte) : manMods (sbyMan d) = 1 := by
  unfold manMods
  rw [sbyMan_head d (by omega)]
  decide +kernel

theorem sbyMan_group (d : List Byte) : manGroup (sbyMan d) 0 = (0, 0, 0, 1) := by
  have h : leAt (sbyMan d) 64 4 = 2 ^ 14 := by
    unfold leAt sbyMan
    rw [slice_right _ _ (by simp), slice_left _ _ (by simp)]
    decide +kernel
  unfold manGroup
  rw [show 64 + 16 * 0 = 64 from rfl, h]
  decide +kernel

theorem sbyMan_mod (d : List Byte) (h : d.length = 32) : manMod (sbyMan d) 0 = d ++ leBytes 288 1 := by
  unfold manMod manBase
  rw [sbyMan_groups]
  unfold sbyMan
  rw [slice_right _ _ (by simp [ceilDiv]), slice_right _ _ (by simp [ceilDiv])]
  exact slice_all _ (by simp [h])

/-- MGR_SBY of its manifest, whose firmware has run for 1,000 s without a tether. -/
def sby : State :=
  { st [(SEC_FW_STAT.PHASE, 3)] with now := 10 ^ 12, mgr := { MgrSt.init with manifest := sbyMan Fuses.init.idDig } }

/-- The clause of JournalAndHandback about MGR_SBY_START has a state that meets its hypotheses. -/
theorem meets_JournalAndHandback_start :
    ∃ r, sby.ownRec = some r ∧ sby.mgrName r = some 1 ∧ sby.fwRuns = true ∧ sby.fget FAB_MGR_STAT.ROLE = 0 ∧
      (∀ x, sby.mgr.tetherAt = some x → x < sby.sec.ranAt) ∧
      sby.sec.ranAt + sUnits (sby.fget FAB_MGR_CTL.DISC_TMO) ≤ sby.now := by
  have h : Fuses.init.idDig.length = 32 := shake256_length 32 _
  generalize e : Fuses.init.idDig = d at h
  have hm : sby.mgr.manifest = sbyMan d := by unfold sby; rw [e]
  have hd : sby.fuses.idDig = d := e
  have q : modRecId (d ++ leBytes 288 1) = 1 := by
    unfold modRecId leAt
    rw [slice_right _ _ (by omega), h]
    decide +kernel
  have n : (st [(SEC_FW_STAT.PHASE, 3)]).fwRuns = true ∧ (st [(SEC_FW_STAT.PHASE, 3)]).fget FAB_MGR_STAT.ROLE = 0 ∧
      (st [(SEC_FW_STAT.PHASE, 3)]).sec.ranAt + sUnits ((st [(SEC_FW_STAT.PHASE, 3)]).fget FAB_MGR_CTL.DISC_TMO) ≤ 10 ^ 12 := by
    decide +kernel
  refine ⟨d ++ leBytes 288 1, ?_, ?_, n.1, n.2.1, fun x hx => by simp [sby, MgrSt.init] at hx, n.2.2⟩
  · unfold State.ownRec
    show ((List.range (manMods sby.mgr.manifest)).map (manMod sby.mgr.manifest)).find?
      (fun r => slice r 0 32 = sby.fuses.idDig) = some (d ++ leBytes 288 1)
    rw [hm, hd, sbyMan_mods]
    simp [List.range_succ, sbyMan_mod d h, slice_left d _ (show 0 + 32 ≤ d.length by omega), slice_all d h]
  · unfold State.mgrName
    rw [q, hm]
    unfold manGroup?
    rw [sbyMan_groups]
    simp [List.range_succ, sbyMan_group]
    decide

/-- An unsigned manifest of one group of 16 modules, no port PRESENT. -/
def wholeMan : List Byte :=
  leBytes 64 (0x4E414D44 + 2 ^ 32 + 2 ^ 128 + 16 * 2 ^ 144 + 5248 * 2 ^ 192) ++ leBytes 64 (2 ^ 14) ++
    (List.range 16).flatMap (fun m => leBytes 32 (m + 1) ++ leBytes 288 m)

/-- The data of a segment whose length its header gives are read back. -/
theorem segData_segBody (load entry seg off : Nat) (d : List Byte) (h : bits (leNat (leBytes 4 d.length)) 9 0 = d.length) :
    segData (segBody load entry seg off d) = some d := by
  have n : leAt (segBody load entry seg off d) 12 4 = leNat (leBytes 4 d.length) := by
    simpa only [leAt, segBody, List.append_assoc] using
      congrArg leNat (slice_mid (leBytes 4 (load % 2 ^ 16 + entry * 2 ^ 16) ++ leBytes 4 seg ++ leBytes 4 off) (leBytes 4 d.length)
        (shake256 16 d ++ d) (by simp) (by simp))
  have g : slice (segBody load entry seg off d) 16 16 = shake256 16 d := by
    simpa only [segBody, List.append_assoc] using
      slice_mid (leBytes 4 (load % 2 ^ 16 + entry * 2 ^ 16) ++ leBytes 4 seg ++ leBytes 4 off ++ leBytes 4 d.length) (shake256 16 d) d
        (by simp) (shake256_length 16 d)
  have r : slice (segBody load entry seg off d) 32 d.length = d := by
    simpa only [segBody, List.append_assoc, List.append_nil] using
      slice_mid (leBytes 4 (load % 2 ^ 16 + entry * 2 ^ 16) ++ leBytes 4 seg ++ leBytes 4 off ++ leBytes 4 d.length ++ shake256 16 d) d []
        (by simp [shake256_length]) rfl
  unfold segData
  rw [n, h, g, r]
  exact if_pos rfl

/-- Five of the manifest's six segments have arrived. -/
def oneLeft : State :=
  (grp 0 []).modMgr (fun x => { x with manFor := 6, manSegs := (List.range 5).map (fun i => (i, slice wholeMan (960 * i) 960)) })

/-- The six segments together. -/
def allSegs : List Byte := (Store.insert oneLeft.mgr.manSegs 5 (wholeMan.drop 4800)).flatMap Prod.snd

set_option maxRecDepth 20000 in
theorem allSegs_eq : allSegs.take (leAt allSegs 24 8) = wholeMan := by decide +kernel

set_option maxRecDepth 20000 in
theorem wholeMan_form : manForm wholeMan = true := by decide +kernel

set_option maxRecDepth 20000 in
theorem wholeMan_sig : oneLeft.manSigOk wholeMan = true := by decide +kernel

set_option maxRecDepth 20000 in
/-- Every clause of DiscoveryAndRoutes has a state and operands that meet its hypotheses (part 1). -/
theorem meets_DiscoveryAndRoutes_1 :
    (let s : State := grp 2 []
     let own : Nat := s.fget FAB_TERM.TERM
     let pos : Fin 64 := 1
     let route : Word := 1
     let r : Nat := route.toNat
     let m : Nat := 64 * modGroup s.modId + pos.val
     let out : Nat := bits r 7 4
     s.manages = true ∧
     1 ≤ bits r 3 0 ∧
     bits r 3 0 ≤ 6 ∧
     manHas s.mgr.manifest m = true ∧
     m ≠ s.modId ∧
     (s.disc pos.val = 1 → m ∈ s.mgr.lostMods) ∧
     s.walk (bits r 3 0) (bits r 27 4) (modPos s.modId) = some pos.val ∧
     s.trained out = true) := by decide +kernel

set_option maxRecDepth 20000 in
/-- Every clause of DiscoveryAndRoutes has a state and operands that meet its hypotheses (part 2). -/
theorem meets_DiscoveryAndRoutes_2 :
    (let s : State := grp 0 []
     let own : Nat := s.fget FAB_TERM.TERM
     let p : Packet := from1 8 0 0 []
     let via : Port := 0
     p.aux = 8 ∧
     s.hears p (some via) = true ∧
     s.fwRuns = true) := by decide +kernel

set_option maxRecDepth 20000 in
/-- Every clause of DiscoveryAndRoutes has a state and operands that meet its hypotheses (part 3). -/
theorem meets_DiscoveryAndRoutes_3 :
    (let s : State := (grp 2 []).modMgr (fun x => { x with awaits := [⟨8, 0, 1, 0, 0⟩], pos := [] })
     let p : Packet := from1 0x88 0 0 (segBody 0 0 52 0 [])
     let pos : Fin 64 := 1
     let d : List Byte := []
     let a : Await := ⟨8, 0, 1, 0, 0⟩
     let via : Option Port := some (Fin.ofNat 16 (bits (s.pq pos.val).route.toNat 7 4))
     let m := 64 * modGroup s.modId + pos.val
     let x := s.pq pos.val
     let l := Store.insert x.reply (leAt p.body 4 4) d
     p.aux = 0x88 ∧
     s.hears p via = true ∧
     s.awaited p via = some a ∧
     ((if p.srcrt = true then a.mod else epMod p.src) = m) ∧
     segData p.body = some d ∧
     (∃ i, i < 53 ∧ ∀ e ∈ l, e.1 ≠ i)) := by decide +kernel

set_option maxRecDepth 20000 in
/-- Every clause of DiscoveryAndRoutes has a state and operands that meet its hypotheses (part 4). -/
theorem meets_DiscoveryAndRoutes_4 :
    (let s : State := (grp 2 []).modMgr (fun x => { x with awaits := [⟨8, 0, 1, 0, 0⟩], pos := [(1, { PosSt.init with reply := (List.range 52).map (fun i => (i, [])) })] })
     let p : Packet := from1 0x88 0 0 (segBody 0 0 52 0 [])
     let pos : Fin 64 := 1
     let d : List Byte := []
     let a : Await := ⟨8, 0, 1, 0, 0⟩
     let r : List Byte := manMod s.mgr.manifest 1
     let via : Option Port := some (Fin.ofNat 16 (bits (s.pq pos.val).route.toNat 7 4))
     let m := 64 * modGroup s.modId + pos.val
     let x := s.pq pos.val
     let l := Store.insert x.reply (leAt p.body 4 4) d
     let b := (l.flatMap Prod.snd).take (256 + 49856)
     let key := digest (slice b 176 64)
     let twins := (List.range 64).filter (fun q => decide (q ≠ pos.val) && decide ((s.pq q).key = key))
     let good := leAt b 0 4 = 0x54544144 ∧ key = slice r 0 32 ∧ slice b 48 32 = leBytes 32 x.nonce.toNat ∧ Config.slhVerify256f (slice b 176 64) (b.take 256) (b.drop 256) = true
     p.aux = 0x88 ∧
     s.hears p via = true ∧
     s.awaited p via = some a ∧
     ((if p.srcrt = true then a.mod else epMod p.src) = m) ∧
     segData p.body = some d ∧
     (∀ i, i < 53 → ∃ e ∈ l, e.1 = i) ∧
     manMod? s.mgr.manifest m = some r ∧
     twins = [] ∧
     (s.fget FAB_MGR_STAT.ROLE = 2 ∨ (∃ k ∈ s.groupMods, modPos k ≠ pos.val ∧ s.disc (modPos k) = 0)) ∧
     (¬ good)) := by decide +kernel

set_option maxRecDepth 20000 in
/-- Every clause of DiscoveryAndRoutes has a state and operands that meet its hypotheses (part 5). -/
theorem meets_DiscoveryAndRoutes_5 :
    (let s : State := (grp 2 []).modMgr (fun x => { x with awaits := [⟨8, 0, 1, 0, 0⟩], pos := [(1, { PosSt.init with reply := (List.range 52).map (fun i => (i, [])) }), (2, { PosSt.init with key := digest (List.replicate 64 0) })] })
     let p : Packet := from1 0x88 0 0 (segBody 0 0 52 0 [])
     let pos : Fin 64 := 1
     let d : List Byte := []
     let a : Await := ⟨8, 0, 1, 0, 0⟩
     let q : Nat := 2
     let via : Option Port := some (Fin.ofNat 16 (bits (s.pq pos.val).route.toNat 7 4))
     let m := 64 * modGroup s.modId + pos.val
     let x := s.pq pos.val
     let l := Store.insert x.reply (leAt p.body 4 4) d
     let b := (l.flatMap Prod.snd).take (256 + 49856)
     let key := digest (slice b 176 64)
     let twins := (List.range 64).filter (fun q => decide (q ≠ pos.val) && decide ((s.pq q).key = key))
     p.aux = 0x88 ∧
     s.hears p via = true ∧
     s.awaited p via = some a ∧
     ((if p.srcrt = true then a.mod else epMod p.src) = m) ∧
     segData p.body = some d ∧
     q ∈ twins ∧
     (∀ i, i < 53 → ∃ e ∈ l, e.1 = i)) := by decide +kernel

set_option maxRecDepth 20000 in
/-- Every clause of DiscoveryAndRoutes has a state and operands that meet its hypotheses (part 6). -/
theorem meets_DiscoveryAndRoutes_6 :
    (let s : State := grp 1 [(LNK_STAT.STATE 0, 0)]
     let own : Nat := s.fget FAB_TERM.TERM
     let pos : Fin 64 := 1
     s.fget FAB_MGR_STAT.ROLE = 1 ∧
     manHas s.mgr.manifest (64 * modGroup s.modId + pos.val) = true ∧
     s.disc pos.val = 0 ∧
     s.meets pos.val = false ∧
     s.mgr.discAt + sUnits (s.fget FAB_MGR_CTL.DISC_TMO) ≤ s.now ∧
     (∃ k ∈ s.groupMods, modPos k ≠ pos.val ∧ s.disc (modPos k) = 0)) := by decide +kernel

set_option maxRecDepth 20000 in
/-- Every clause of DiscoveryAndRoutes has a state and operands that meet its hypotheses (part 7). -/
theorem meets_DiscoveryAndRoutes_7 :
    (let s : State := (grp 1 [(LNK_STAT.STATE 0, 0)]).setDisc 0 1
     let pos : Fin 64 := 1
     s.fget FAB_MGR_STAT.ROLE = 1 ∧
     manHas s.mgr.manifest (64 * modGroup s.modId + pos.val) = true ∧
     s.disc pos.val = 0 ∧
     s.meets pos.val = false ∧
     s.mgr.discAt + sUnits (s.fget FAB_MGR_CTL.DISC_TMO) ≤ s.now ∧
     (∀ k ∈ s.groupMods, modPos k ≠ pos.val → s.disc (modPos k) ≠ 0)) := by decide +kernel

set_option maxRecDepth 20000 in
/-- Every clause of DiscoveryAndRoutes has a state and operands that meet its hypotheses (part 8). -/
theorem meets_DiscoveryAndRoutes_8 :
    (let s : State := (grp 0 []).fset FAB_SELF.VALID 0
     let p : Packet := { pk0 with aux := 9, src := portEp 1 0, payload := preamble 0 1 false true false 0 0 0 0 }
     let via : Port := 0
     p.aux = 9 ∧
     s.hears p (some via) = true ∧
     p.srcrt = true ∧
     modGroup (epMod p.src) = modGroup (bits (leAt p.body 0 4) 11 0)) := by decide +kernel

set_option maxRecDepth 20000 in
/-- Every clause of DiscoveryAndRoutes has a state and operands that meet its hypotheses (part 9). -/
theorem meets_DiscoveryAndRoutes_9 :
    (let s : State := (grp 0 []).modMgr (fun x => { x with manFor := 2 })
     let own : Nat := s.fget FAB_TERM.TERM
     let p : Packet := from1 0x0C 0 0 (segBody 0 0 1 0 [])
     let d : List Byte := []
     let i : Nat := leAt p.body 4 4
     let l : Store (List Byte) := Store.insert s.mgr.manSegs i d
     let n : Nat := if i = 0 then ceilDiv (leAt d 24 8) 960 else s.mgr.manFor
     let whole := n ≠ 0 ∧ ∀ j, j < n → ∃ e ∈ l, e.1 = j
     p.aux = 0x0C ∧
     s.hears p none = true ∧
     segData p.body = some d ∧
     (¬ whole)) := by decide +kernel

set_option maxRecDepth 20000 in
/-- Every clause of DiscoveryAndRoutes has a state and operands that meet its hypotheses (part 10). -/
theorem meets_DiscoveryAndRoutes_10 :
    (let s : State := oneLeft
     let p : Packet := from1 0x0C 0 0 (segBody 0 0 5 4800 (wholeMan.drop 4800))
     let d : List Byte := wholeMan.drop 4800
     let i := leAt p.body 4 4
     let l := Store.insert s.mgr.manSegs i d
     let n := if i = 0 then ceilDiv (leAt d 24 8) 960 else s.mgr.manFor
     let b := (l.flatMap Prod.snd).take (leAt (l.flatMap Prod.snd) 24 8)
     let whole := n ≠ 0 ∧ ∀ j, j < n → ∃ e ∈ l, e.1 = j
     let good := manForm b = true ∧ s.manSigOk b = true
     p.aux = 0x0C ∧
     s.hears p none = true ∧
     segData p.body = some d ∧
     whole ∧
     good) := ⟨by decide +kernel, by decide +kernel,
    (congrArg segData (List.drop_left' (by decide +kernel))).trans (segData_segBody _ _ _ _ _ (by decide +kernel)),
    by decide +kernel, (congrArg manForm allSegs_eq).trans wholeMan_form,
    (congrArg oneLeft.manSigOk allSegs_eq).trans wholeMan_sig⟩

set_option maxRecDepth 20000 in
/-- Every clause of DiscoveryAndRoutes has a state and operands that meet its hypotheses (part 11). -/
theorem meets_DiscoveryAndRoutes_11 :
    (let s : State := (grp 0 []).modMgr (fun x => { x with manFor := 2, manSegs := [(0, [])] })
     let p : Packet := from1 0x0C 0 0 (segBody 0 0 1 0 [])
     let d : List Byte := []
     let i := leAt p.body 4 4
     let l := Store.insert s.mgr.manSegs i d
     let n := if i = 0 then ceilDiv (leAt d 24 8) 960 else s.mgr.manFor
     let b := (l.flatMap Prod.snd).take (leAt (l.flatMap Prod.snd) 24 8)
     let whole := n ≠ 0 ∧ ∀ j, j < n → ∃ e ∈ l, e.1 = j
     let good := manForm b = true ∧ s.manSigOk b = true
     p.aux = 0x0C ∧
     s.hears p none = true ∧
     segData p.body = some d ∧
     whole ∧
     (¬ good)) := by decide +kernel

set_option maxRecDepth 20000 in
/-- Every clause of DiscoveryAndRoutes has a state and operands that meet its hypotheses (part 12). -/
theorem meets_DiscoveryAndRoutes_12 :
    (let s : State := { st [(FAB_MGR_ID.VALID, 1), (FAB_MGR_ID.ACTING, 1)] with sec := { State.reset.sec with fwRx := [] } }
     let p : Packet := from1 0x38 0 0 (segBody 0 0 1 0 [])
     let via : Port := 0
     let d : List Byte := []
     let l : Store (List Byte) := Store.insert s.sec.fwRx (leAt p.body 4 4) d
     p.aux = 0x38 ∧
     s.hears p (some via) = true ∧
     segData p.body = some d ∧
     s.fwRuns = false ∧
     s.pwr.stage = 5 ∧
     l.all (fun e => decide (e.1 ≠ 0)) = true) := by decide +kernel

set_option maxRecDepth 20000 in
/-- Every clause of DiscoveryAndRoutes has a state and operands that meet its hypotheses (part 13). -/
theorem meets_DiscoveryAndRoutes_13 :
    (let s : State := { st [(FAB_MGR_ID.VALID, 1), (FAB_MGR_ID.ACTING, 1)] with sec := { State.reset.sec with fwRx := (List.range 32).drop 1 |>.map (fun i => (i, [])) } }
     let p : Packet := from1 0x38 0 0 (segBody 0 0 0 0 [])
     let via : Port := 0
     let d : List Byte := []
     let l : Store (List Byte) := Store.insert s.sec.fwRx (leAt p.body 4 4) d
     let b := (l.flatMap Prod.snd).take (fwTotal (l.flatMap Prod.snd))
     p.aux = 0x38 ∧
     s.hears p (some via) = true ∧
     segData p.body = some d ∧
     s.fwRuns = false ∧
     s.pwr.stage = 5 ∧
     l.find? (fun e => decide (e.1 = 0)) = some (0, d) ∧ (List.range (ceilDiv (fwTotal d) 960)).all (fun i => l.any (fun g => decide (g.1 = i))) = true ∧
     s.fwCheck b ≠ 0) := by decide +kernel

set_option maxRecDepth 20000 in
/-- Every clause of DiscoveryAndRoutes has a state and operands that meet its hypotheses (part 14). -/
theorem meets_DiscoveryAndRoutes_14 :
    (let s : State := (grp 2 []).modMgr (fun x => { x with awaits := [⟨0x38, 0, 1, 0, 0⟩], serves := [⟨1, 1, [0]⟩] })
     let p : Packet := { pk0 with aux := 0xB8, src := portEp 1 0, payload := preamble 0 0 false true false 0 0 0 0 ++ leBytes 4 0 ++ leBytes 4 1 }
     let a : Await := ⟨0x38, 0, 1, 0, 0⟩
     let v : Serve := ⟨1, 1, [0]⟩
     let i : Nat := 0
     let via : Option Port := some (Fin.ofNat 16 (bits (s.pq (modPos a.mod)).route.toNat 7 4))
     p.aux = 0xB8 ∧
     s.mgr.awaits.find? (fun a => decide (a.code = 0x38) && decide (a.msg = p.msg.toNat)) = some a ∧
     s.hears p via = true ∧
     s.awaited p via = some a ∧
     p.srcrt = true ∧
     s.mgr.serves.find? (fun v => decide (64 * modGroup s.modId + v.pos = a.mod)) = some v ∧
     p.body = leBytes 4 i ++ leBytes 4 1 ∧
     i < 2 ^ 32 ∧
     960 * i < v.image.length ∧
     v.route ≠ 0 ∧
     s.manages = true ∧
     s.trained (bits v.route.toNat 7 4) = true) := by decide +kernel

set_option maxRecDepth 20000 in
/-- Every clause of DiscoveryAndRoutes has a state and operands that meet its hypotheses (part 15). -/
theorem meets_DiscoveryAndRoutes_15 :
    (let s : State := grp 2 []
     let pos : Fin 64 := 1
     let port : Port := 0
     let now : LinkReport := .usable
     s.acting = true ∧
     pos.val < s.groupSize ∧
     s.peers = [] ∧
     s.mgr.sby = 0 ∧
     (now = .usable ∨ s.mgr.hbStep = none) ∧
     s.hubUp = true ∧
     port.val ≠ 7 ∧
     port.val ≠ 8 ∧
     s.flag FAB_RT_CTL.SWAP_ARM = false ∧
     rsvOk FAB_RT_CTL.off (s.reg FAB_RT_CTL.off) = true ∧
     s.step + 2 < 2 ^ 64 ∧
     s.mgr.coord.swapAt = none) := by decide +kernel

set_option maxRecDepth 20000 in
/-- Every clause of DiscoveryAndRoutes has a state and operands that meet its hypotheses (part 16). -/
theorem meets_DiscoveryAndRoutes_16 :
    (let s : State := grp2 2 1 [(FAB_MGR_ID.COORD_VALID, 1), (FAB_MGR_ID.COORD, 64)]
     let pos : Fin 64 := 1
     let port : Port := 7
     let now : LinkReport := .usable
     s.acting = true ∧
     pos.val < s.groupSize ∧
     s.peers = [] ∧
     s.mgr.sby = 0 ∧
     (now = .usable ∨ s.mgr.hbStep = none) ∧
     s.hubUp = true ∧
     (port.val = 7 ∨ port.val = 8) ∧
     now ≠ .held ∧
     s.flag FAB_MGR_STAT.COORD = false ∧
     s.flag FAB_MGR_ID.COORD_VALID = true ∧
     s.far (s.fget FAB_MGR_ID.COORD) = true ∧
     (s.escapeOut (s.fget FAB_MGR_ID.COORD)).isSome = true ∧
     portPeer (dims s.groupSize) pos.val port.val = none) := by decide +kernel

/-- Module 0 of a group whose module 1 has answered discovery with a quote of nonce 0 under a key of zeros. -/
def quoted : State :=
  { grp 2 [] with
    mgr := { MgrSt.init with
      manifest := leBytes 64 (2 ^ 128 + 2 * 2 ^ 144) ++ leBytes 64 (2 ^ 14) ++ leBytes 32 1 ++ leBytes 288 0 ++
        leBytes 32 0x366a66d9b4ec08d7556c23891864fa91eb0853bf8b915347de87949eeaf2a57e ++ leBytes 288 1
      awaits := [⟨8, 0, 1, 0, 0⟩],
      pos := [(1, { PosSt.init with reply := (0, leBytes 256 0x54544144) :: (List.range 51).map (fun i => (i + 1, [])) })] } }

set_option maxRecDepth 100000 in
/-- A quote whose signature verifies (the verifier is opaque) meets the hypotheses of DiscoveryAndRoutes' clause about it. -/
theorem meets_DiscoveryAndRoutes_good
    (h : Config.slhVerify256f (slice (leBytes 256 0x54544144) 176 64) ((leBytes 256 0x54544144).take 256)
      ((leBytes 256 0x54544144).drop 256) = true) :
    let s : State := quoted
    let p : Packet := from1 0x88 0 0 (segBody 0 0 52 0 [])
    let x : PosSt := s.pq 1
    let l : Store (List Byte) := Store.insert x.reply (leAt p.body 4 4) []
    let b : List Byte := (l.flatMap Prod.snd).take (256 + 49856)
    let key : List Byte := digest (slice b 176 64)
    let r : List Byte := manMod s.mgr.manifest 1
    s.hears p (some 0) = true ∧ s.awaited p (some 0) = some ⟨8, 0, 1, 0, 0⟩ ∧ epMod p.src = 1 ∧ segData p.body = some [] ∧
      (∀ i, i < 53 → ∃ e ∈ l, e.1 = i) ∧ manMod? s.mgr.manifest 1 = some r ∧
      (List.range 64).filter (fun q => decide (q ≠ 1) && decide ((s.pq q).key = key)) = [] ∧
      s.fget FAB_MGR_STAT.ROLE = 2 ∧ leAt b 0 4 = 0x54544144 ∧ key = slice r 0 32 ∧ slice b 48 32 = leBytes 32 x.nonce.toNat ∧
      Config.slhVerify256f (slice b 176 64) (b.take 256) (b.drop 256) = true := by
  refine ⟨?_, ?_, ?_, ?_, ?_, ?_, ?_, ?_, ?_, ?_, ?_, h⟩ <;> decide +kernel

/-- A served image of segments 0 to 31, the first of them the last to come. -/
def fwServed (l : List (List Byte)) : State :=
  { st [(FAB_MGR_ID.VALID, 1), (FAB_MGR_ID.ACTING, 1)] with
    sec := { State.reset.sec with fwRx := (List.range 31).map (fun i => (i + 1, l.getD i [])) } }

/-- A served image that the boot ROM accepts (its keys are opaque) meets the hypotheses of DiscoveryAndRoutes' clause about it. -/
theorem meets_DiscoveryAndRoutes_image (l : List (List Byte))
    (h : (fwServed l).fwCheck (((Store.insert (fwServed l).sec.fwRx 0 (leBytes 16 0x49574644)).flatMap Prod.snd).take
      (fwTotal ((Store.insert (fwServed l).sec.fwRx 0 (leBytes 16 0x49574644)).flatMap Prod.snd))) = 0) :
    let s : State := fwServed l
    let p : Packet := from1 0x38 0 0 (segBody 0 0 0 0 (leBytes 16 0x49574644))
    let d : List Byte := leBytes 16 0x49574644
    let f : Store (List Byte) := Store.insert s.sec.fwRx (leAt p.body 4 4) d
    s.hears p (some 0) = true ∧ segData p.body = some d ∧ s.fwRuns = false ∧ s.pwr.stage = 5 ∧ (∃ e ∈ f, e.1 = 0) ∧
      (∀ e, f.find? (fun e => decide (e.1 = 0)) = some e → ∀ i, i < ceilDiv (fwTotal e.2) 960 → ∃ g ∈ f, g.1 = i) ∧
      s.fwCheck ((f.flatMap Prod.snd).take (fwTotal (f.flatMap Prod.snd))) = 0 := by
  have k : leAt (from1 0x38 0 0 (segBody 0 0 0 0 (leBytes 16 0x49574644))).body 4 4 = 0 := by decide +kernel
  have w : Store.insert (fwServed l).sec.fwRx 0 (leBytes 16 0x49574644) =
      (0, leBytes 16 0x49574644) :: (fwServed l).sec.fwRx := rfl
  refine ⟨(by decide +kernel : (fwServed []).hears (from1 0x38 0 0 (segBody 0 0 0 0 (leBytes 16 0x49574644))) (some 0) = true),
    by decide +kernel, (by decide +kernel : (fwServed []).fwRuns = false), (by decide +kernel : (fwServed []).pwr.stage = 5), ?_, ?_, ?_⟩
  · rw [k, w]
    exact ⟨_, List.mem_cons_self, rfl⟩
  · rw [k, w]
    intro e he i hi
    have q : e = (0, leBytes 16 0x49574644) := by simpa using he.symm
    have t : ceilDiv (fwTotal (leBytes 16 0x49574644)) 960 = 32 := by decide +kernel
    rw [q, t] at hi
    cases i with
    | zero => exact ⟨_, List.mem_cons_self, rfl⟩
    | succ j =>
      exact ⟨(j + 1, l.getD j []), List.mem_cons_of_mem _ (List.mem_map.2 ⟨j, List.mem_range.2 (by omega), rfl⟩), rfl⟩
  · rw [k]
    exact h

set_option maxRecDepth 20000 in
/-- Every clause of MembersAndDistribution has a state and operands that meet its hypotheses (part 1). -/
theorem meets_MembersAndDistribution_1 :
    (let s : State := (grp 0 []).modMgr (fun x => { x with resv := [⟨5, [(0, 1)], 0, [(0, 15)], []⟩] })
     let p : Packet := from1 0x18 0 0 (leBytes 2 1 ++ leBytes 2 2 ++ leBytes 4 0 ++ leBytes 4 0 ++ leBytes 4 1 ++ leBytes 32 (16 + 5 * 2 ^ 32 + 0 * 2 ^ 224))
     let ent : Nat := 0
     let first : Nat := 0
     let cnt : Nat := 1
     let h : List Byte := leBytes 32 (16 + 5 * 2 ^ 32 + 0 * 2 ^ 224)
     p.aux = 0x18 ∧
     s.hears p none = true ∧
     h.length = 32 ∧
     ent < 2 ^ 32 ∧
     first < 2 ^ 32 ∧
     0 < cnt ∧
     cnt < 2 ^ 32 ∧
     p.body.drop 4 = leBytes 4 ent ++ leBytes 4 first ++ leBytes 4 cnt ++ h ∧
     s.mgr.recv = none) := by decide +kernel

set_option maxRecDepth 20000 in
/-- Every clause of MembersAndDistribution has a state and operands that meet its hypotheses (part 2). -/
theorem meets_MembersAndDistribution_2 :
    (let s : State := (grp 0 []).modMgr (fun x => { x with recv := some ⟨1, [(0, 0, 1)], [], 0, [(0, leBytes 32 (16 + 5 * 2 ^ 32 + 0 * 2 ^ 224))], (hubEp 1), false, []⟩, resv := [⟨5, [(0, 1)], 0, [(0, 15)], []⟩] })
     let p : Packet := from1 0x18 0 0 (leBytes 2 1 ++ leBytes 2 2 ++ leBytes 4 0 ++ leBytes 4 0 ++ leBytes 4 1 ++ leBytes 32 (16 + 5 * 2 ^ 32 + 0 * 2 ^ 224))
     let ent : Nat := 0
     let first : Nat := 0
     let cnt : Nat := 1
     let h : List Byte := leBytes 32 (16 + 5 * 2 ^ 32 + 0 * 2 ^ 224)
     let r : RecvSt := ⟨1, [(0, 0, 1)], [], 0, [(0, leBytes 32 (16 + 5 * 2 ^ 32 + 0 * 2 ^ 224))], (hubEp 1), false, []⟩
     p.aux = 0x18 ∧
     s.hears p none = true ∧
     h.length = 32 ∧
     ent < 2 ^ 32 ∧
     first < 2 ^ 32 ∧
     0 < cnt ∧
     cnt < 2 ^ 32 ∧
     p.body.drop 4 = leBytes 4 ent ++ leBytes 4 first ++ leBytes 4 cnt ++ h ∧
     s.mgr.recv = some r ∧
     r.load = leAt p.body 0 2 ∧
     r.src = p.src) := by decide +kernel

set_option maxRecDepth 20000 in
/-- Every clause of MembersAndDistribution has a state and operands that meet its hypotheses (part 3). -/
theorem meets_MembersAndDistribution_3 :
    (let s : State := (grp 0 []).modMgr (fun x => { x with recv := some ⟨1, [(0, 0, 2)], [], 0, [(0, leBytes 32 (16 + 5 * 2 ^ 32 + 0 * 2 ^ 224))], (hubEp 1), false, []⟩, resv := [⟨5, [(0, 1)], 0, [(0, 15)], []⟩] })
     let p : Packet := from1 0x19 0 0 (segBody 1 0 1 0 [7])
     let d : List Byte := [7]
     let r : RecvSt := ⟨1, [(0, 0, 2)], [], 0, [(0, leBytes 32 (16 + 5 * 2 ^ 32 + 0 * 2 ^ 224))], (hubEp 1), false, []⟩
     let ent : Nat := 0
     let first : Nat := 0
     let cnt : Nat := 2
     let h : List Byte := leBytes 32 (16 + 5 * 2 ^ 32 + 0 * 2 ^ 224)
     let n : Nat := 15
     let seg := leAt p.body 4 4
     p.aux = 0x19 ∧
     s.hears p none = true ∧
     segData p.body = some d ∧
     s.mgr.recv = some r ∧
     leAt p.body 0 2 = r.load ∧
     r.plan.find? (fun e => decide (e.2.1 ≤ seg) && decide (seg < e.2.1 + e.2.2)) = some (ent, first, cnt) ∧
     (∀ g ∈ r.segs, g.1 ≠ seg) ∧
     r.heads.find? (fun x => decide (x.1 = ent)) = some (ent, h) ∧
     (∀ g ∈ Store.insert r.segs (leAt p.body 4 4) d, g.1 ≠ 0)) := by decide +kernel

set_option maxRecDepth 20000 in
/-- Every clause of MembersAndDistribution has a state and operands that meet its hypotheses (part 4). -/
theorem meets_MembersAndDistribution_4 :
    (let s : State := (grp 0 []).modMgr (fun x => { x with recv := some ⟨1, [(0, 0, 1)], [], 0, [(0, leBytes 32 (16 + 5 * 2 ^ 32 + 0 * 2 ^ 224))], (hubEp 1), false, []⟩, resv := [⟨5, [(0, 1)], 0, [(0, 15)], []⟩] })
     let p : Packet := from1 0x19 0 0 (segBody 1 0 0 0 [7])
     let d : List Byte := [7]
     let r : RecvSt := ⟨1, [(0, 0, 1)], [], 0, [(0, leBytes 32 (16 + 5 * 2 ^ 32 + 0 * 2 ^ 224))], (hubEp 1), false, []⟩
     let ent : Nat := 0
     let first : Nat := 0
     let cnt : Nat := 1
     let h : List Byte := leBytes 32 (16 + 5 * 2 ^ 32 + 0 * 2 ^ 224)
     let n : Nat := 15
     let seg := leAt p.body 4 4
     let l := Store.insert r.segs seg d
     let b := (List.range cnt).flatMap (fun j => Store.get (fun _ => []) l (first + j))
     p.aux = 0x19 ∧
     s.hears p none = true ∧
     segData p.body = some d ∧
     s.mgr.recv = some r ∧
     leAt p.body 0 2 = r.load ∧
     r.plan.find? (fun e => decide (e.2.1 ≤ seg) && decide (seg < e.2.1 + e.2.2)) = some (ent, first, cnt) ∧
     (∀ g ∈ r.segs, g.1 ≠ seg) ∧
     r.heads.find? (fun x => decide (x.1 = ent)) = some (ent, h) ∧
     (∀ j, j < cnt → ∃ g ∈ l, g.1 = first + j) ∧
     leNat (shake256 4 b) ≠ (dirEntOf h).chk ∧
     b ≠ []) := by decide +kernel

set_option maxRecDepth 20000 in
/-- Every clause of MembersAndDistribution has a state and operands that meet its hypotheses (part 5). -/
theorem meets_MembersAndDistribution_5 :
    (let s : State := (grp 0 []).modMgr (fun x => { x with recv := some ⟨1, [(0, 0, 1)], [], 0, [(0, leBytes 32 (16 + 5 * 2 ^ 32 + (leNat (shake256 4 [7])) * 2 ^ 224))], (hubEp 1), false, [5]⟩, resv := [⟨5, [(0, 1)], 0, [(0, 15)], []⟩] })
     let p : Packet := from1 0x19 0 0 (segBody 1 0 0 0 [7])
     let d : List Byte := [7]
     let r : RecvSt := ⟨1, [(0, 0, 1)], [], 0, [(0, leBytes 32 (16 + 5 * 2 ^ 32 + (leNat (shake256 4 [7])) * 2 ^ 224))], (hubEp 1), false, [5]⟩
     let ent : Nat := 0
     let first : Nat := 0
     let cnt : Nat := 1
     let h : List Byte := leBytes 32 (16 + 5 * 2 ^ 32 + (leNat (shake256 4 [7])) * 2 ^ 224)
     let n : Nat := 15
     let seg := leAt p.body 4 4
     let l := Store.insert r.segs seg d
     let b := (List.range cnt).flatMap (fun j => Store.get (fun _ => []) l (first + j))
     p.aux = 0x19 ∧
     s.hears p none = true ∧
     segData p.body = some d ∧
     s.mgr.recv = some r ∧
     leAt p.body 0 2 = r.load ∧
     r.plan.find? (fun e => decide (e.2.1 ≤ seg) && decide (seg < e.2.1 + e.2.2)) = some (ent, first, cnt) ∧
     (∀ g ∈ r.segs, g.1 ≠ seg) ∧
     r.heads.find? (fun x => decide (x.1 = ent)) = some (ent, h) ∧
     (∀ j, j < cnt → ∃ g ∈ l, g.1 = first + j) ∧
     leNat (shake256 4 b) = (dirEntOf h).chk ∧
     s.ctxFor (dirEntOf h).sid = some n ∧
     (dirEntOf h).typ ≠ 2 ∧
     (dirEntOf h).typ ≠ 0x34 ∧
     (dirEntOf h).sid ∈ r.begun) := by decide +kernel

set_option maxRecDepth 20000 in
/-- Every clause of MembersAndDistribution has a state and operands that meet its hypotheses (part 6). -/
theorem meets_MembersAndDistribution_6 :
    (let s : State := (grp 0 []).modMgr (fun x => { x with recv := some ⟨1, [(0, 0, 1)], [], 0, [(0, leBytes 32 (16 + 5 * 2 ^ 32 + (leNat (shake256 4 [7])) * 2 ^ 224))], (hubEp 1), false, []⟩, resv := [⟨5, [(0, 1)], 0, [(0, 15)], []⟩] })
     let p : Packet := from1 0x19 0 0 (segBody 1 0 0 0 [7])
     let d : List Byte := [7]
     let r : RecvSt := ⟨1, [(0, 0, 1)], [], 0, [(0, leBytes 32 (16 + 5 * 2 ^ 32 + (leNat (shake256 4 [7])) * 2 ^ 224))], (hubEp 1), false, []⟩
     let ent : Nat := 0
     let first : Nat := 0
     let cnt : Nat := 1
     let h : List Byte := leBytes 32 (16 + 5 * 2 ^ 32 + (leNat (shake256 4 [7])) * 2 ^ 224)
     let n : Nat := 15
     let seg := leAt p.body 4 4
     let l := Store.insert r.segs seg d
     let b := (List.range cnt).flatMap (fun j => Store.get (fun _ => []) l (first + j))
     p.aux = 0x19 ∧
     s.hears p none = true ∧
     segData p.body = some d ∧
     s.mgr.recv = some r ∧
     leAt p.body 0 2 = r.load ∧
     r.plan.find? (fun e => decide (e.2.1 ≤ seg) && decide (seg < e.2.1 + e.2.2)) = some (ent, first, cnt) ∧
     (∀ g ∈ r.segs, g.1 ≠ seg) ∧
     r.heads.find? (fun x => decide (x.1 = ent)) = some (ent, h) ∧
     (∀ j, j < cnt → ∃ g ∈ l, g.1 = first + j) ∧
     leNat (shake256 4 b) = (dirEntOf h).chk ∧
     s.ctxFor (dirEntOf h).sid = some n ∧
     n < 16 ∧
     (dirEntOf h).typ ≠ 2 ∧
     (dirEntOf h).typ ≠ 0x34 ∧
     (dirEntOf h).sid ∉ r.begun ∧
     s.fget (RIG_SL_STAT.SHADOW n) = 0) := by decide +kernel

set_option maxRecDepth 20000 in
/-- Every clause of MembersAndDistribution has a state and operands that meet its hypotheses (part 7). -/
theorem meets_MembersAndDistribution_7 :
    (let s : State := (grp 0 []).modMgr (fun x => { x with recv := some ⟨1, [(0, 0, 1)], [], 0, [(0, leBytes 32 (16 + 5 * 2 ^ 32 + 0 * 2 ^ 224))], (hubEp 1), false, []⟩ })
     let r : RecvSt := ⟨1, [(0, 0, 1)], [], 0, [(0, leBytes 32 (16 + 5 * 2 ^ 32 + 0 * 2 ^ 224))], (hubEp 1), false, []⟩
     s.mgr.recv = some r ∧
     r.missing ≠ [] ∧
     r.lastAt + msUnits 2 ≤ s.now ∧
     s.mgr.manFor = 0 ∧
     s.sec.fwFrom = none ∧
     s.manages = false) := by decide +kernel

set_option maxRecDepth 20000 in
/-- Every clause of MembersAndDistribution has a state and operands that meet its hypotheses (part 8). -/
theorem meets_MembersAndDistribution_8 :
    (let s : State := (grp 0 []).modMgr (fun x => { x with manFor := 1 })
     s.mgr.recv = none ∧
     s.mgr.manFor ≠ 0 ∧
     s.mgr.manAt + msUnits 2 ≤ s.now ∧
     s.sec.fwFrom = none ∧
     s.manages = false) := by decide +kernel

set_option maxRecDepth 20000 in
/-- Every clause of MembersAndDistribution has a state and operands that meet its hypotheses (part 9). -/
theorem meets_MembersAndDistribution_9 :
    (let s : State := { grp 0 [(SEC_FW_STAT.PHASE, 0)] with sec := { State.reset.sec with fwFrom := some (pk0, 15) } }
     let p : Packet := pk0
     let c : Port := 15
     s.mgr.recv = none ∧
     s.mgr.manFor = 0 ∧
     s.far (epMod p.src) = false ∧
     s.sec.fwFrom = some (p, c.val) ∧
     s.fwRuns = false ∧
     s.sec.fwAt + msUnits 2 ≤ s.now) := by decide +kernel

set_option maxRecDepth 20000 in
/-- Every clause of MembersAndDistribution has a state and operands that meet its hypotheses (part 10). -/
theorem meets_MembersAndDistribution_10 :
    (let s : State := (grp 2 []).modMgr (fun x => { x with load := { MgrSt.init.load with active := true, num := 1, image := leBytes 64 (2 ^ 64 + 97 * 2 ^ 128) ++ leBytes 32 (0x10 + 5 * 2 ^ 32 + 96 * 2 ^ 128 + 2 ^ 192) ++ [7], slices := [5] } })
     let p : Packet := from1 0x1A 0 0 (leBytes 4 0 ++ leBytes 4 1)
     let i : Nat := 0
     let e : Nat := 0
     let o : Nat := 0
     let b : List Byte := [7]
     let asks := s.mgr.awaits.any (fun a => decide (a.code = 0x0C) && decide (a.mod = epMod p.src))
     p.aux = 0x1A ∧
     s.hears p none = true ∧
     s.manages = true ∧
     p.body = leBytes 4 i ++ leBytes 4 1 ∧
     i < 2 ^ 32 ∧
     asks = false ∧
     s.mgr.load.active = true ∧
     (imageOf s.mgr.load.image).segment i = some (e, o, b)) := by decide +kernel

set_option maxRecDepth 20000 in
/-- Every clause of MembersAndDistribution has a state and operands that meet its hypotheses (part 11). -/
theorem meets_MembersAndDistribution_11 :
    (let s : State := (grp 2 []).modMgr (fun x => { x with awaits := [⟨0x0C, 0, 1, 1, 16⟩] })
     let p : Packet := from1 0x1A 0 0 (leBytes 4 0 ++ leBytes 4 1)
     let i : Nat := 0
     let asks := s.mgr.awaits.any (fun a => decide (a.code = 0x0C) && decide (a.mod = epMod p.src))
     p.aux = 0x1A ∧
     s.hears p none = true ∧
     s.manages = true ∧
     p.body = leBytes 4 i ++ leBytes 4 1 ∧
     i < 2 ^ 32 ∧
     asks = true ∧
     s.srcRoute (epMod p.src) = 0) := by decide +kernel

set_option maxRecDepth 20000 in
/-- Every clause of MembersAndDistribution has a state and operands that meet its hypotheses (part 12). -/
theorem meets_MembersAndDistribution_12 :
    (let s : State := (grp 2 []).modMgr (fun x => { x with load := { MgrSt.init.load with active := true, num := 1, image := leBytes 64 (2 ^ 64 + 97 * 2 ^ 128) ++ leBytes 32 (0x10 + 5 * 2 ^ 32 + 96 * 2 ^ 128 + 2 ^ 192) ++ [7], slices := [5] } })
     let p : Packet := from1 0x1B 0 0 (leBytes 4 5 ++ leBytes 4 0 ++ leBytes 4 0)
     let sid : Nat := 5
     let code : Nat := 0
     let rs := s.mgr.load.reports.filter (fun x => x.1 ≠ epMod p.src || x.2.1 ≠ sid) ++ [(epMod p.src, sid, slice p.body 24 32, 0)]
     let all := s.mgr.load.slices.all (fun y => !s.mgr.load.spent.contains y && match s.resvOf y with | some r => r.members.all (fun m => rs.any (fun z => z.1 = m.1 && z.2.1 = y && z.2.2.2 = 0)) | none => false)
     p.aux = 0x1B ∧
     s.hears p none = true ∧
     s.manages = true ∧
     s.mgr.load.active = true ∧
     leAt p.body 0 4 = sid ∧
     leAt p.body 8 4 = code ∧
     sid ∈ s.mgr.load.slices ∧
     s.mgr.sby = 0 ∧
     code = 0 ∧
     leAt p.body 4 4 ≠ 2 ∧
     all = false) := by decide +kernel

set_option maxRecDepth 20000 in
/-- Every clause of MembersAndDistribution has a state and operands that meet its hypotheses (part 13). -/
theorem meets_MembersAndDistribution_13 :
    (let s : State := (grp 2 []).modMgr (fun x => { x with load := { MgrSt.init.load with active := true, num := 1, image := leBytes 64 (2 ^ 64 + 97 * 2 ^ 128) ++ leBytes 32 (0x10 + 5 * 2 ^ 32 + 96 * 2 ^ 128 + 2 ^ 192) ++ [7], slices := [5] }, resv := [⟨5, [(1, 1)], 0, [(1, 15)], []⟩] })
     let p : Packet := from1 0x1B 0 0 (leBytes 4 5 ++ leBytes 4 0 ++ leBytes 4 0 ++ leBytes 8 0 ++ leBytes 4 0 ++ leBytes 32 0)
     let sid : Nat := 5
     let code : Nat := 0
     let rs := s.mgr.load.reports.filter (fun x => x.1 ≠ epMod p.src || x.2.1 ≠ sid) ++ [(epMod p.src, sid, slice p.body 24 32, 0)]
     let all := s.mgr.load.slices.all (fun y => !s.mgr.load.spent.contains y && match s.resvOf y with | some r => r.members.all (fun m => rs.any (fun z => z.1 = m.1 && z.2.1 = y && z.2.2.2 = 0)) | none => false)
     p.aux = 0x1B ∧
     s.hears p none = true ∧
     s.manages = true ∧
     s.mgr.load.active = true ∧
     leAt p.body 0 4 = sid ∧
     leAt p.body 8 4 = code ∧
     sid ∈ s.mgr.load.slices ∧
     s.mgr.sby = 0 ∧
     code = 0 ∧
     leAt p.body 4 4 ≠ 2 ∧
     all = true) := by decide +kernel

set_option maxRecDepth 20000 in
/-- Every clause of MembersAndDistribution has a state and operands that meet its hypotheses (part 14). -/
theorem meets_MembersAndDistribution_14 :
    (let s : State := (grp 2 []).modMgr (fun x => { x with load := { MgrSt.init.load with active := true, num := 1, image := leBytes 64 (2 ^ 64 + 97 * 2 ^ 128) ++ leBytes 32 (0x10 + 5 * 2 ^ 32 + 96 * 2 ^ 128 + 2 ^ 192) ++ [7], slices := [5] } })
     let own : Nat := s.fget FAB_TERM.TERM
     let p : Packet := from1 0x1B 0 0 (leBytes 4 5 ++ leBytes 4 0 ++ leBytes 4 255)
     let sid : Nat := 5
     let code : Nat := 255
     p.aux = 0x1B ∧
     s.hears p none = true ∧
     s.manages = true ∧
     s.mgr.load.active = true ∧
     leAt p.body 0 4 = sid ∧
     leAt p.body 8 4 = code ∧
     sid ∈ s.mgr.load.slices ∧
     s.mgr.sby = 0 ∧
     code ≠ 0 ∧
     code ≠ 0x2B ∧
     code < 256) := by decide +kernel

set_option maxRecDepth 20000 in
/-- Every clause of MembersAndDistribution has a state and operands that meet its hypotheses (part 15). -/
theorem meets_MembersAndDistribution_15 :
    (let s : State := (grp 2 []).modMgr (fun x => { x with resv := [⟨5, [(0, 1), (1, 1)], 0, [(0, 15)], []⟩] })
     let p : Packet := from1 0x1B 0 0 (leBytes 4 5 ++ leBytes 4 2 ++ leBytes 4 0)
     let r : Resv := ⟨5, [(0, 1), (1, 1)], 0, [(0, 15)], []⟩
     let ms := (s.mgr.warm.filter (fun e => e.1 = leAt p.body 0 4 && e.2 ≠ epMod p.src)).map Prod.snd ++ [epMod p.src]
     p.aux = 0x1B ∧
     s.hears p none = true ∧
     s.manages = true ∧
     leAt p.body 8 4 = 0 ∧
     leAt p.body 4 4 = 2 ∧
     s.resvOf (leAt p.body 0 4) = some r ∧
     (∃ k ∈ r.members, k.1 ∉ ms)) := by decide +kernel

set_option maxRecDepth 20000 in
/-- Every clause of MembersAndDistribution has a state and operands that meet its hypotheses (part 16). -/
theorem meets_MembersAndDistribution_16 :
    (let s : State := (grp 2 []).modMgr (fun x => { x with events := [(1, 5, 9)] })
     let own : Nat := s.fget FAB_TERM.TERM
     let p : Packet := from1 0x20 0 0 (bytesOf (eventWords 1 5 9 0 0 0))
     let ws := wordsOf 16 p.body
     let w := (ws.getD 0 0).toNat
     let key := (w % 256, bits w 19 8, (ws.getD 1 0).toNat + (ws.getD 2 0).toNat * 2 ^ 32)
     p.aux = 0x20 ∧
     s.hears p none = true ∧
     s.acting = true ∧
     epMod p.src ≠ s.modId ∧
     s.far (epMod p.src) = false ∧
     key ∈ s.mgr.events) := by decide +kernel

set_option maxRecDepth 20000 in
/-- Every clause of MembersAndDistribution has a state and operands that meet its hypotheses (part 17). -/
theorem meets_MembersAndDistribution_17 :
    (let s : State := (grp 2 [(MBX_CTL.LOCK, 1), (MBX_BIND_W0.VALID 255, 1), (MBX_BIND_W0.RECEIVER 255, 2)]).modMgr (fun x => { x with resv := [⟨5, [(0, 1)], 255, [(0, 15)], []⟩] })
     let own : Nat := s.fget FAB_TERM.TERM
     let p : Packet := from1 0x20 0 0 (bytesOf (eventWords 1 5 9 0 0 0))
     let ws := wordsOf 16 p.body
     let w := (ws.getD 0 0).toNat
     let key := (w % 256, bits w 19 8, (ws.getD 1 0).toNat + (ws.getD 2 0).toNat * 2 ^ 32)
     let r : Resv := ⟨5, [(0, 1)], 255, [(0, 15)], []⟩
     p.aux = 0x20 ∧
     s.hears p none = true ∧
     s.acting = true ∧
     epMod p.src ≠ s.modId ∧
     s.far (epMod p.src) = false ∧
     key ∉ s.mgr.events ∧
     s.mgr.resv.find? (fun r => decide (r.slice = key.2.1)) = some r ∧
     s.chanOpen r.chan = true ∧
     s.chanRecv r.chan = 2 ∧
     s.inReset 2 = false ∧
     (s.mb r.chan).queue.length < s.chanDepth r.chan ∧
     (s.mb r.chan).head1 = (s.mb r.chan).head2 ∧
     (s.mb r.chan).tail1 = (s.mb r.chan).tail2) := by decide +kernel

set_option maxRecDepth 20000 in
/-- Every clause of MembersAndDistribution has a state and operands that meet its hypotheses (part 18). -/
theorem meets_MembersAndDistribution_18 :
    (let s : State := grp 0 []
     let own : Nat := s.fget FAB_TERM.TERM
     let p : Packet := from1 0x20 0 0 (bytesOf (eventWords 11 5 9 0 1 0))
     let ws := wordsOf 16 p.body
     let w := (ws.getD 0 0).toNat
     let key := (w % 256, bits w 19 8, (ws.getD 1 0).toNat + (ws.getD 2 0).toNat * 2 ^ 32)
     let how := bits (ws.getD 4 0).toNat 7 0
     p.aux = 0x20 ∧
     s.hears p none = true ∧
     s.manages = false ∧
     w % 256 = 0x0B ∧
     how ≤ 1 ∧
     s.far (epMod p.src) = false) := by decide +kernel

set_option maxRecDepth 20000 in
/-- Every clause of MembersAndDistribution has a state and operands that meet its hypotheses (part 19). -/
theorem meets_MembersAndDistribution_19 :
    (let s : State := { grp 0 [] with fab := { State.reset.fab with adaptHeld := some (9, true) } }
     let p : Packet := from1 0x20 0 0 (bytesOf (eventWords 11 5 9 0 3 0))
     let b : Bool := true
     let ws := wordsOf 16 p.body
     let w := (ws.getD 0 0).toNat
     let how := bits (ws.getD 4 0).toNat 7 0
     let key := (w % 256, bits w 19 8, (ws.getD 1 0).toNat + (ws.getD 2 0).toNat * 2 ^ 32)
     p.aux = 0x20 ∧
     s.hears p none = true ∧
     s.manages = false ∧
     w % 256 = 0x0B ∧
     how = 3 ∧
     s.far (epMod p.src) = false ∧
     s.fab.adaptHeld = some (key.2.2, b)) := by decide +kernel

set_option maxRecDepth 20000 in
/-- Every clause of MembersAndDistribution has a state and operands that meet its hypotheses (part 20). -/
theorem meets_MembersAndDistribution_20 :
    (let s : State := grp2 2 1 [(FAB_MGR_ID.COORD_VALID, 1), (FAB_MGR_ID.COORD, 64)]
     let p : Packet := from64 0x20 0 0 (bytesOf (eventWords 12 5 9 0 1 0))
     let ws := wordsOf 16 p.body
     let w := (ws.getD 0 0).toNat
     p.aux = 0x20 ∧
     s.hears p none = true ∧
     s.acting = true ∧
     s.far (epMod p.src) = true ∧
     s.flag FAB_MGR_ID.COORD_VALID = true ∧
     s.fget FAB_MGR_ID.COORD = epMod p.src ∧
     w % 256 = 0x0C) := by decide +kernel

set_option maxRecDepth 20000 in
/-- Every clause of MembersAndDistribution has a state and operands that meet its hypotheses (part 21). -/
theorem meets_MembersAndDistribution_21 :
    (let s : State := grp 0 [(TCK_SL_STAT.STATE 15, 2), (TCK_SL_STAT.SLICE_ID 15, 5), (RIG_SL_STAT.ACTIVE 15, 1), (RIG_SL_STAT.SLICE_ID 15, 5)]
     let own : Nat := s.fget FAB_TERM.TERM
     let p : Packet := from1 0x28 0 0 (leBytes 4 5 ++ leBytes 4 1 ++ leBytes 4 0)
     let n : Nat := 15
     p.aux = 0x28 ∧
     s.hears p none = true ∧
     s.manages = false ∧
     s.ctxOf (leAt p.body 0 4) = some n ∧
     2 ≤ s.slState n ∧
     s.slState n ≤ 4 ∧
     s.ticking n = true ∧
     s.flag FAB_MGR_ID.VALID = true) := by decide +kernel

set_option maxRecDepth 20000 in
/-- Every clause of MembersAndDistribution has a state and operands that meet its hypotheses (part 22). -/
theorem meets_MembersAndDistribution_22 :
    (let s : State := (grp 2 []).modMgr (fun x => { x with manifest := man 0 1 [0, 1, 2], lostMods := [2] })
     let p : Packet := { from1 0x29 0 0 (leBytes 4 (2 ^ 16)) with src := hubEp 2 }
     let noCoord := (s.flag FAB_MGR_ID.COORD_VALID && s.far (s.fget FAB_MGR_ID.COORD)) = false
     let m := epMod p.src
     let w := leAt p.body 0 4
     let keys := if bit w 16 = true then [m] else (maskParts (bits w 15 0)).map (fun d => 4096 * (d + 1) + m)
     let new := keys.filter (fun k => !s.mgr.lostMods.contains k)
     let mgr := bit w 16 = true ∧ m ∈ managersOf s.mgr.manifest (modGroup m)
     p.aux = 0x29 ∧
     s.hears p none = true ∧
     s.acting = true ∧
     s.mgr.hbStep = none ∧
     s.mgr.cmds = [] ∧
     s.mgr.toArm = false ∧
     s.mgr.commits = [] ∧
     noCoord ∧
     (¬ mgr) ∧
     (new = [] ∨ m ∈ s.mgr.lostMods)) := by decide +kernel

set_option maxRecDepth 20000 in
/-- Every clause of MembersAndDistribution has a state and operands that meet its hypotheses (part 23). -/
theorem meets_MembersAndDistribution_23 :
    (let s : State := (grp 2 []).modMgr (fun x => { x with lostMods := [1] })
     let p : Packet := from1 0x29 0 0 (leBytes 4 (2 ^ 16))
     let noCoord := (s.flag FAB_MGR_ID.COORD_VALID && s.far (s.fget FAB_MGR_ID.COORD)) = false
     let m := epMod p.src
     let w := leAt p.body 0 4
     let mgr := bit w 16 = true ∧ m ∈ managersOf s.mgr.manifest (modGroup m)
     p.aux = 0x29 ∧
     s.hears p none = true ∧
     s.acting = true ∧
     s.mgr.hbStep = none ∧
     s.mgr.cmds = [] ∧
     s.mgr.toArm = false ∧
     s.mgr.commits = [] ∧
     noCoord ∧
     mgr ∧
     m ∈ s.mgr.lostMods) := by decide +kernel

set_option maxRecDepth 20000 in
/-- Every clause of MembersAndDistribution has a state and operands that meet its hypotheses (part 24). -/
theorem meets_MembersAndDistribution_24 :
    (let s : State := (grp 2 []).modMgr (fun x => { x with manifest := man 0 1 [0, 1, 2] })
     let p : Packet := { from1 0x29 0 0 (leBytes 4 (2 ^ 16)) with src := hubEp 2 }
     let noCoord := (s.flag FAB_MGR_ID.COORD_VALID && s.far (s.fget FAB_MGR_ID.COORD)) = false
     let m := epMod p.src
     let w := leAt p.body 0 4
     let keys := if bit w 16 = true then [m] else (maskParts (bits w 15 0)).map (fun d => 4096 * (d + 1) + m)
     let new := keys.filter (fun k => !s.mgr.lostMods.contains k)
     let mgr := bit w 16 = true ∧ m ∈ managersOf s.mgr.manifest (modGroup m)
     p.aux = 0x29 ∧
     s.hears p none = true ∧
     s.acting = true ∧
     s.mgr.hbStep = none ∧
     s.mgr.cmds = [] ∧
     s.mgr.toArm = false ∧
     s.mgr.commits = [] ∧
     noCoord ∧
     (¬ mgr) ∧
     new ≠ [] ∧
     m ∉ s.mgr.lostMods ∧
     m ≠ s.modId ∧
     s.mgr.resv = [] ∧
     (∀ a ∈ s.mgr.awaits, a.mod ≠ m) ∧
     s.otherMgr ≠ some m) := by decide +kernel

set_option maxRecDepth 20000 in
/-- Every clause of MembersAndDistribution has a state and operands that meet its hypotheses (part 25). -/
theorem meets_MembersAndDistribution_25 :
    (let s : State := (grp 2 [(TCK_SL_STAT.STATE 15, 2), (TCK_SL_STAT.SLICE_ID 15, 5), (RIG_SL_STAT.ACTIVE 15, 1), (RIG_SL_STAT.SLICE_ID 15, 5)]).modMgr (fun x => { x with resv := [⟨5, [(1, 65535)], 0, [(0, 15)], []⟩] })
     let own : Nat := s.fget FAB_TERM.TERM
     let p : Packet := from1 0x29 0 0 (leBytes 4 1)
     let m := epMod p.src
     let w := leAt p.body 0 4
     let keys := if bit w 16 = true then [m] else (maskParts (bits w 15 0)).map (fun d => 4096 * (d + 1) + m)
     let new := keys.filter (fun k => !s.mgr.lostMods.contains k)
     let r : Resv := ⟨5, [(1, 65535)], 0, [(0, 15)], []⟩
     let mask : Nat := 65535
     let n : Nat := 15
     let noCoord := (s.flag FAB_MGR_ID.COORD_VALID && s.far (s.fget FAB_MGR_ID.COORD)) = false
     p.aux = 0x29 ∧
     s.hears p none = true ∧
     s.acting = true ∧
     s.mgr.hbStep = none ∧
     s.mgr.cmds = [] ∧
     s.mgr.toArm = false ∧
     s.mgr.commits = [] ∧
     noCoord ∧
     new ≠ [] ∧
     bit w 16 = false ∧
     m ∉ s.mgr.lostMods ∧
     m ≠ s.modId ∧
     s.mgr.resv = [r] ∧
     r.members = [(m, mask)] ∧
     r.ctx = [(s.modId, n)] ∧
     mask &&& bits w 15 0 ≠ 0 ∧
     mask < 2 ^ 16 ∧
     (∀ k ∈ keys, k ∉ s.mgr.lostMods) ∧
     s.mgr.load.active = false ∧
     s.mgr.sby = 0 ∧
     s.mgr.awaits = [] ∧
     16 ≤ s.fget RIG_CTL.LEAD ∧
     s.step + s.fget RIG_CTL.LEAD < 2 ^ 64 ∧
     s.ctxOf r.slice = some n ∧
     r.slice < 4096 ∧
     s.flag (RIG_SL_STAT.ACTIVE n) = true) := by decide +kernel

set_option maxRecDepth 20000 in
/-- Every clause of MembersAndDistribution has a state and operands that meet its hypotheses (part 26). -/
theorem meets_MembersAndDistribution_26 :
    (let s : State := grp 0 [(LNK_STAT.STATE 0, 0)]
     s.hubUp = true ∧
     s.fwRuns = true ∧
     s.manages = false ∧
     s.flag FAB_MGR_ID.VALID = true ∧
     s.linkFeats = []) := by decide +kernel

set_option maxRecDepth 20000 in
/-- Every clause of MembersAndDistribution has a state and operands that meet its hypotheses (part 27). -/
theorem meets_MembersAndDistribution_27 :
    (let s : State := grp 0 []
     s.hubUp = true ∧
     s.fwRuns = true ∧
     s.manages = false ∧
     s.flag FAB_MGR_ID.VALID = true ∧
     s.linkFeats ≠ []) := by decide +kernel

set_option maxRecDepth 20000 in
/-- Every clause of MembersAndDistribution has a state and operands that meet its hypotheses (part 28). -/
theorem meets_MembersAndDistribution_28 :
    (let s : State := (grp 2 []).modMgr (fun x => { x with lostMods := [4097] })
     let own : Nat := s.fget FAB_TERM.TERM
     let p : Packet := from1 0x30 0 0 (leBytes 4 1)
     let noCoord := (s.flag FAB_MGR_ID.COORD_VALID && s.far (s.fget FAB_MGR_ID.COORD)) = false
     p.aux = 0x30 ∧
     s.hears p none = true ∧
     s.manages = true ∧
     leAt p.body 0 2 ≠ 0 ∧
     s.mgr.resv = [] ∧
     (s.acting = false ∨ noCoord)) := by decide +kernel

set_option maxRecDepth 20000 in
/-- Every clause of MembersAndDistribution has a state and operands that meet its hypotheses (part 29). -/
theorem meets_MembersAndDistribution_29 :
    (let s : State := ((grp 2 []).setDisc 2 1).modMgr (fun x => { x with manifest := man 0 1 [0, 1, 2], pos := [(2, { PosSt.init with beatAt := 0 })] })
     let m : BitVec 12 := 2
     let noCoord := (s.flag FAB_MGR_ID.COORD_VALID && s.far (s.fget FAB_MGR_ID.COORD)) = false
     let late := (s.pq (modPos m.toNat)).beatAt + msUnits 3 ≤ s.now ∧ (∀ a ∈ s.mgr.awaits, a.mod ≠ m.toNat) ∧ s.otherMgr ≠ some m.toNat
     s.acting = true ∧
     m.toNat ∈ s.peers ∧
     s.mgr.hbStep = none ∧
     s.mgr.cmds = [] ∧
     s.mgr.toArm = false ∧
     s.mgr.commits = [] ∧
     s.mgr.resv = [] ∧
     late ∧
     noCoord) := by decide +kernel

set_option maxRecDepth 20000 in
/-- Every clause of MembersAndDistribution has a state and operands that meet its hypotheses (part 30). -/
theorem meets_MembersAndDistribution_30 :
    (let s : State := ((grp2 2 1 [(FAB_MGR_ID.COORD_VALID, 1), (FAB_MGR_ID.COORD, 64)]).setDisc 2 1).modMgr (fun x => { x with manifest := leBytes 64 (2 * 2 ^ 128 + 5 * 2 ^ 144 + 2 ^ 160) ++ leBytes 64 (2 ^ 14 + (1 + 2 ^ 14) * 2 ^ 128) ++ [0, 1, 2, 64, 65].flatMap (fun m => leBytes 32 (m + 1) ++ leBytes 288 (m + 2 ^ 298)), pos := [(2, { PosSt.init with beatAt := 0 })] })
     let m : BitVec 12 := 2
     let late := (s.pq (modPos m.toNat)).beatAt + msUnits 3 ≤ s.now ∧ (∀ a ∈ s.mgr.awaits, a.mod ≠ m.toNat) ∧ s.otherMgr ≠ some m.toNat
     s.acting = true ∧
     m.toNat ∈ s.peers ∧
     s.mgr.hbStep = none ∧
     s.mgr.cmds = [] ∧
     s.mgr.toArm = false ∧
     s.mgr.commits = [] ∧
     s.mgr.resv = [] ∧
     late ∧
     s.flag FAB_MGR_ID.COORD_VALID = true ∧
     s.far (s.fget FAB_MGR_ID.COORD) = true ∧
     (s.escapeOut (s.fget FAB_MGR_ID.COORD)).isSome = true) := by decide +kernel

set_option maxRecDepth 20000 in
/-- Every clause of MembersAndDistribution has a state and operands that meet its hypotheses (part 31). -/
theorem meets_MembersAndDistribution_31 :
    (let s : State := ((grp 2 []).setDisc 2 1).modMgr (fun x => { x with manifest := man 0 1 [0, 1, 2], pos := [(2, { PosSt.init with beatAt := 10 ^ 12 })] })
     let m : BitVec 12 := 2
     s.acting = true ∧
     m.toNat ∈ s.peers ∧
     s.mgr.hbStep = none ∧
     s.mgr.cmds = [] ∧
     s.mgr.toArm = false ∧
     s.mgr.commits = [] ∧
     s.mgr.resv = [] ∧
     s.now < (s.pq (modPos m.toNat)).beatAt + msUnits 3) := by decide +kernel

set_option maxRecDepth 20000 in
/-- Every clause of HostCommands has a state and operands that meet its hypotheses (part 1). -/
theorem meets_HostCommands_1 :
    (let s : State := args [0] (grp 0 [])
     let m : Master := 0
     let hseq : BitVec 16 := 65535
     let e : Instr × Nat := (.mode 0 65535, 3)
     let cmds := [(Instr.manifest m hseq, 1), (.xconnect m hseq, 2), (.mode m hseq, 3), (.sliceReserve m hseq, 4), (.sliceRelease m hseq, 5), (.sliceCmd m hseq, 6), (.fence m hseq, 7), (.period m hseq, 8), (.treeCfg m hseq, 9), (.handover m hseq, 10), (.fwStage m hseq, 11), (.restart m hseq, 12), (.adapt m hseq, 13), (.floor m hseq, 14), (.forward m hseq, 15)]
     e ∈ cmds ∧
     s.admits m FAB_CMD.off (BitVec.ofNat 32 (e.2 + hseq.toNat * 2 ^ 16)) = true ∧
     s.acting = false) ∧
    (let s : State := args [0] (grp 2 [(FAB_CMD_STAT.BUSY, 1)])
     let m : Master := 0
     let hseq : BitVec 16 := 65535
     let e : Instr × Nat := (.mode 0 65535, 3)
     let cmds := [(Instr.manifest m hseq, 1), (.xconnect m hseq, 2), (.mode m hseq, 3), (.sliceReserve m hseq, 4), (.sliceRelease m hseq, 5), (.sliceCmd m hseq, 6), (.fence m hseq, 7), (.period m hseq, 8), (.treeCfg m hseq, 9), (.handover m hseq, 10), (.fwStage m hseq, 11), (.restart m hseq, 12), (.adapt m hseq, 13), (.floor m hseq, 14), (.forward m hseq, 15)]
     e ∈ cmds ∧
     s.admits m FAB_CMD.off (BitVec.ofNat 32 (e.2 + hseq.toNat * 2 ^ 16)) = true ∧
     s.acting = true ∧
     (s.flag FAB_CMD_STAT.BUSY = true ∨ s.mgr.hbStep ≠ none)) := by decide +kernel

set_option maxRecDepth 20000 in
/-- Every clause of HostCommands has a state and operands that meet its hypotheses (part 2). -/
theorem meets_HostCommands_2 :
    (let s : State := (args [1] (grp 2 [])).modMgr (fun x => { x with sby := 2 })
     let m : Master := 0
     let hseq : BitVec 16 := 65535
     let e : Instr × Nat := (.mode 0 65535, 3)
     let x : Nat := 1
     let cmds := [(Instr.manifest m hseq, 1), (.xconnect m hseq, 2), (.mode m hseq, 3), (.sliceReserve m hseq, 4), (.sliceRelease m hseq, 5), (.sliceCmd m hseq, 6), (.fence m hseq, 7), (.period m hseq, 8), (.treeCfg m hseq, 9), (.handover m hseq, 10), (.fwStage m hseq, 11), (.restart m hseq, 12), (.adapt m hseq, 13), (.floor m hseq, 14), (.forward m hseq, 15)]
     e ∈ cmds ∧
     s.takesUp m e.2 hseq = true ∧
     s.mgr.sby = 2 ∧
     s.otherMgr = some x ∧
     (s.escapeOut x).isSome = true) ∧
    (let s : State := args [2] (grp 2 [])
     let m : Master := 0
     let hseq : BitVec 16 := 65535
     let own := s.fget FAB_TERM.TERM
     let alone := s.peers = []
     s.takesUp m 3 hseq = true ∧
     s.mgr.sby = 0 ∧
     (s.arg 0 = 1 ∨ s.arg 0 = 2)) := by decide +kernel

set_option maxRecDepth 20000 in
/-- Every clause of HostCommands has a state and operands that meet its hypotheses (part 3). -/
theorem meets_HostCommands_3 :
    (let s : State := args [3] (grp 2 [])
     let m : Master := 0
     let hseq : BitVec 16 := 65535
     let own := s.fget FAB_TERM.TERM
     let alone := s.peers = []
     s.takesUp m 3 hseq = true ∧
     s.mgr.sby = 0 ∧
     s.arg 0 ≠ 1 ∧
     s.arg 0 ≠ 2) ∧
    (let s : State := args [0] (grp 2 [])
     let m : Master := 0
     let hseq : BitVec 16 := 65535
     s.takesUp m 10 hseq = true ∧
     s.mgr.sby = 0) := by decide +kernel

set_option maxRecDepth 20000 in
/-- Every clause of HostCommands has a state and operands that meet its hypotheses (part 4). -/
theorem meets_HostCommands_4 :
    (let s : State := args [0, 0, 64, 0] (grp 2 [])
     let m : Master := 0
     let hseq : BitVec 16 := 65535
     let own := s.fget FAB_TERM.TERM
     let alone := s.peers = []
     let b := s.memRead (s.arg2 0) (s.arg 2)
     let fits := leAt b 4 2 = s.arg 3 ∧ (s.arg 3 = s.lowFeat ∨ s.arg 3 = s.lowFeat + 1)
     s.takesUp m 11 hseq = true ∧
     s.mgr.sby = 0 ∧
     64 ≤ s.arg 2 ∧
     s.arg 2 ≤ 2 ^ 24 ∧
     mlaRange (s.arg2 0) (s.arg 2) = true ∧
     fits) ∧
    (let s : State := args [0, 0, 64, 3] (grp 2 [])
     let m : Master := 0
     let hseq : BitVec 16 := 65535
     let own := s.fget FAB_TERM.TERM
     let alone := s.peers = []
     let b := s.memRead (s.arg2 0) (s.arg 2)
     let fits := leAt b 4 2 = s.arg 3 ∧ (s.arg 3 = s.lowFeat ∨ s.arg 3 = s.lowFeat + 1)
     s.takesUp m 11 hseq = true ∧
     s.mgr.sby = 0 ∧
     64 ≤ s.arg 2 ∧
     s.arg 2 ≤ 2 ^ 24 ∧
     mlaRange (s.arg2 0) (s.arg 2) = true ∧
     (¬ fits)) := by decide +kernel

set_option maxRecDepth 20000 in
/-- Every clause of HostCommands has a state and operands that meet its hypotheses (part 5). -/
theorem meets_HostCommands_5 :
    (let s : State := (args [1, 1] ((grp 2 []).setDisc 1 1)).modMgr (fun x => { x with staged := [1] })
     let m : Master := 0
     let hseq : BitVec 16 := 65535
     let own := s.fget FAB_TERM.TERM
     let alone := s.peers = []
     let x : Nat := 1
     let f : Nat := 1
     s.takesUp m 12 hseq = true ∧
     s.mgr.sby = 0 ∧
     s.arg 0 = x ∧
     s.arg 1 = f ∧
     x ∈ s.peers ∧
     f ≤ 1 ∧
     (f = 1 → s.mgr.staged ≠ []) ∧
     (s.escapeOut x).isSome = true) ∧
    (let s : State := args [1, 2] ((grp 2 []).setDisc 1 1)
     let m : Master := 0
     let hseq : BitVec 16 := 65535
     let own := s.fget FAB_TERM.TERM
     let alone := s.peers = []
     s.takesUp m 12 hseq = true ∧
     s.mgr.sby = 0 ∧
     (1 < s.arg 1 ∨ s.arg 0 ∉ s.peers)) := by decide +kernel

set_option maxRecDepth 20000 in
/-- Every clause of HostCommands has a state and operands that meet its hypotheses (part 6). -/
theorem meets_HostCommands_6 :
    (let s : State := args [1] (grp 2 [])
     let m : Master := 0
     let hseq : BitVec 16 := 65535
     let alone := s.peers = []
     s.takesUp m 13 hseq = true ∧
     s.mgr.sby = 0 ∧
     alone ∧
     s.arg 0 ≤ 1 ∧
     16 ≤ s.fget RIG_CTL.LEAD ∧
     s.step + s.fget RIG_CTL.LEAD < 2 ^ 64) ∧
    (let s : State := args [2] (grp 2 [])
     let m : Master := 0
     let hseq : BitVec 16 := 65535
     let alone := s.peers = []
     s.takesUp m 13 hseq = true ∧
     s.mgr.sby = 0 ∧
     alone ∧
     1 < s.arg 0) := by decide +kernel

set_option maxRecDepth 20000 in
/-- Every clause of HostCommands has a state and operands that meet its hypotheses (part 7). -/
theorem meets_HostCommands_7 :
    (let s : State := args [1] (grp 2 [(SEC_FW_LEVEL.FEAT, 1)])
     let m : Master := 0
     let hseq : BitVec 16 := 65535
     let own := s.fget FAB_TERM.TERM
     let alone := s.peers = []
     s.takesUp m 14 hseq = true ∧
     s.mgr.sby = 0 ∧
     alone ∧
     s.fget HUB_FEAT_FLOOR.FLOOR ≤ s.arg 0 ∧
     s.arg 0 ≤ s.fget SEC_FW_LEVEL.FEAT) ∧
    (let s : State := args [65535] (grp 2 [])
     let m : Master := 0
     let hseq : BitVec 16 := 65535
     let own := s.fget FAB_TERM.TERM
     let alone := s.peers = []
     s.takesUp m 14 hseq = true ∧
     s.mgr.sby = 0 ∧
     alone ∧
     s.fget SEC_FW_LEVEL.FEAT < s.arg 0 ∧
     s.arg 0 < 65536) := by decide +kernel

set_option maxRecDepth 20000 in
/-- Every clause of HostCommands has a state and operands that meet its hypotheses (part 8). -/
theorem meets_HostCommands_8 :
    (let s : State := args [0, 1] (mem0 (leBytes 4 (FAB_CMD_ARG.off 15 + 2 ^ 31) ++ leBytes 4 7) (grp 2 []))
     let m : Master := 0
     let hseq : BitVec 16 := 65535
     let own := s.fget FAB_TERM.TERM
     let alone := s.peers = []
     let i : Fin 16 := 15
     let v : Word := 7
     s.takesUp m 15 hseq = true ∧
     s.mgr.sby = 0 ∧
     manHas s.mgr.manifest (s.arg 0) = true ∧
     s.arg 1 = 1 ∧
     mlaRange (s.arg2 2) 8 = true ∧
     s.arg 0 = s.modId ∧
     s.memRead (s.arg2 2) 8 = leBytes 4 (FAB_CMD_ARG.off i.val + 2 ^ 31) ++ leBytes 4 v.toNat) ∧
    (let s : State := args [0, 1] (mem0 (leBytes 4 HUB_FEAT_FLOOR.off) (grp 2 []))
     let m : Master := 0
     let hseq : BitVec 16 := 65535
     let own := s.fget FAB_TERM.TERM
     let alone := s.peers = []
     s.takesUp m 15 hseq = true ∧
     s.mgr.sby = 0 ∧
     manHas s.mgr.manifest (s.arg 0) = true ∧
     s.arg 1 = 1 ∧
     mlaRange (s.arg2 2) 8 = true ∧
     s.arg 0 = s.modId ∧
     leAt (s.memRead (s.arg2 2) 8) 0 4 = HUB_FEAT_FLOOR.off) := by decide +kernel

set_option maxRecDepth 20000 in
/-- Every clause of HostCommands has a state and operands that meet its hypotheses (part 9). -/
theorem meets_HostCommands_9 :
    (let s : State := args [1, 1] (grp 2 [])
     let m : Master := 0
     let hseq : BitVec 16 := 65535
     let own := s.fget FAB_TERM.TERM
     let alone := s.peers = []
     s.takesUp m 15 hseq = true ∧
     s.mgr.sby = 0 ∧
     manHas s.mgr.manifest (s.arg 0) = true ∧
     s.arg 1 = 1 ∧
     mlaRange (s.arg2 2) 8 = true ∧
     s.arg 0 ≠ s.modId ∧
     s.arg 0 ∉ s.peers) ∧
    (let s : State := args [0, 0, 1] (grp 2 [])
     let m : Master := 0
     let hseq : BitVec 16 := 65535
     let b := s.memRead (s.arg2 0) (s.arg 2)
     s.takesUp m 1 hseq = true ∧
     s.mgr.sby = 0 ∧
     (∀ q, q < 64 → q ≠ modPos s.modId → s.disc q ≠ 1) ∧
     s.arg 2 ≠ 0 ∧
     mlaRange (s.arg2 0) (s.arg 2) = true ∧
     s.manRefused b = true) := by decide +kernel

set_option maxRecDepth 20000 in
/-- Every clause of HostCommands has a state and operands that meet its hypotheses (part 10). -/
theorem meets_HostCommands_10 :
    (let s : State := args [0, 0, 0] (grp 2 [])
     let m : Master := 0
     let hseq : BitVec 16 := 65535
     s.takesUp m 1 hseq = true ∧
     s.mgr.sby = 0 ∧
     (∀ q, q < 64 → q ≠ modPos s.modId → s.disc q ≠ 1) ∧
     (s.arg 2 = 0 ∨ mlaRange (s.arg2 0) (s.arg 2) = false)) ∧
    (let s : State := args [0, 0, 1] (grp 2 [])
     let m : Master := 0
     let hseq : BitVec 16 := 65535
     s.takesUp m 2 hseq = true ∧
     s.mgr.sby = 0 ∧
     s.flag FAB_MGR_STAT.COORD = false) := by decide +kernel

set_option maxRecDepth 20000 in
/-- Every clause of HostCommands has a state and operands that meet its hypotheses (part 11). -/
theorem meets_HostCommands_11 :
    (let s : State := args [0, 0, 1] (mem0 (leBytes 8 7) (grp 2 [(FAB_MGR_STAT.COORD, 1)]))
     let m : Master := 0
     let hseq : BitVec 16 := 65535
     let own := s.fget FAB_TERM.TERM
     let alone := s.peers = []
     let n := 8 * s.arg 2
     let x := xmapOf (s.memRead (s.arg2 0) n)
     s.takesUp m 2 hseq = true ∧
     s.mgr.sby = 0 ∧
     s.flag FAB_MGR_STAT.COORD = true ∧
     n ≠ 0 ∧
     mlaRange (s.arg2 0) n = true ∧
     xmapRefused s.mgr.manifest x = true) ∧
    (let s : State := (args [0, 0, 1] (mem0 (leBytes 8 (7 * 2 ^ 12 + 64 * 2 ^ 16 + 7 * 2 ^ 28)) (grp 2 [(FAB_MGR_STAT.COORD, 1)]))).modMgr (fun x => { x with manifest := leBytes 64 (2 * 2 ^ 128 + 2 * 2 ^ 144) ++ leBytes 64 (2 ^ 14 + (1 + 2 ^ 14) * 2 ^ 128) ++ [0, 64].flatMap (fun m => leBytes 32 (m + 1) ++ leBytes 288 m) })
     let m : Master := 0
     let hseq : BitVec 16 := 65535
     let own := s.fget FAB_TERM.TERM
     let alone := s.peers = []
     let n := 8 * s.arg 2
     let x := xmapOf (s.memRead (s.arg2 0) n)
     s.takesUp m 2 hseq = true ∧
     s.mgr.sby = 0 ∧
     s.flag FAB_MGR_STAT.COORD = true ∧
     n ≠ 0 ∧
     mlaRange (s.arg2 0) n = true ∧
     xmapRefused s.mgr.manifest x = false ∧
     s.mgr.xmap = [] ∧
     (∀ e ∈ x, (modGroup e.1 = modGroup s.modId → e.1 = s.modId) ∧ (modGroup e.2.2.1 = modGroup s.modId → e.2.2.1 = s.modId))) := by decide +kernel

set_option maxRecDepth 20000 in
/-- Every clause of HostCommands has a state and operands that meet its hypotheses (part 12). -/
theorem meets_HostCommands_12 :
    (let s : State := args [1000, 16] (grp 2 [])
     let m : Master := 0
     let hseq : BitVec 16 := 65535
     let own := s.fget FAB_TERM.TERM
     let alone := s.peers = []
     let t0 := s.arg2 1
     s.takesUp m 8 hseq = true ∧
     s.mgr.sby = 0 ∧
     s.machine = [s.modId] ∧
     s.flag FAB_MGR_STAT.COORD = false) ∧
    (let s : State := args [999, 16] (grp 2 [(FAB_MGR_STAT.COORD, 1)])
     let m : Master := 0
     let hseq : BitVec 16 := 65535
     let own := s.fget FAB_TERM.TERM
     let alone := s.peers = []
     let t0 := s.arg2 1
     s.takesUp m 8 hseq = true ∧
     s.mgr.sby = 0 ∧
     s.machine = [s.modId] ∧
     s.flag FAB_MGR_STAT.COORD = true ∧
     (s.arg 0 < 1000 ∨ 2 ^ 20 ≤ s.arg 0)) := by decide +kernel

set_option maxRecDepth 20000 in
/-- Every clause of HostCommands has a state and operands that meet its hypotheses (part 13). -/
theorem meets_HostCommands_13 :
    (let s : State := args [1000, 15] (grp 2 [(FAB_MGR_STAT.COORD, 1)])
     let m : Master := 0
     let hseq : BitVec 16 := 65535
     let own := s.fget FAB_TERM.TERM
     let alone := s.peers = []
     let t0 := s.arg2 1
     s.takesUp m 8 hseq = true ∧
     s.mgr.sby = 0 ∧
     s.machine = [s.modId] ∧
     s.flag FAB_MGR_STAT.COORD = true ∧
     1000 ≤ s.arg 0 ∧
     s.arg 0 < 2 ^ 20 ∧
     t0 < s.step + 16) ∧
    (let s : State := args [1048575, 16] (grp 2 [(FAB_MGR_STAT.COORD, 1)])
     let m : Master := 0
     let hseq : BitVec 16 := 65535
     let own := s.fget FAB_TERM.TERM
     let alone := s.peers = []
     let t0 := s.arg2 1
     s.takesUp m 8 hseq = true ∧
     s.mgr.sby = 0 ∧
     s.machine = [s.modId] ∧
     s.flag FAB_MGR_STAT.COORD = true ∧
     1000 ≤ s.arg 0 ∧
     s.arg 0 < 2 ^ 20 ∧
     s.step + 16 ≤ t0 ∧
     rsvOk TCK_CTL.off (s.reg TCK_CTL.off) = true) := by decide +kernel

/-- Bytes written at address 0 read back, whatever registers are set after. -/
theorem memRead_args (w : List Nat) (l : List Byte) (s : State) : (args w (mem0 l s)).memRead 0 l.length = l := by
  have m : ∀ (k : List Nat) (t : State),
      (k.foldl (fun s i => s.setReg (FAB_CMD_ARG.off i) (BitVec.ofNat 32 (w.getD i 0))) t).mem = t.mem := by
    intro k
    induction k with
    | nil => exact fun _ => rfl
    | cons i k h => exact fun t => (h _).trans rfl
  have e : (args w (mem0 l s)).mem = putBytes [] 0 l := m _ _
  apply List.ext_getElem
  · simp [State.memRead]
  · intro i h₁ h₂
    simp [State.memRead, State.memGet, e, get_putBytes, h₂]

set_option maxRecDepth 20000 in
/-- A manifest that is not refused meets the hypotheses of HostCommands' clause about it. -/
theorem meets_HostCommands_manifest :
    let s : State := args [0, 0, 5248] (mem0 wholeMan (grp 2 []))
    s.takesUp 0 1 65535 = true ∧ s.mgr.sby = 0 ∧ (∀ q, q < 64 → q ≠ modPos s.modId → s.disc q ≠ 1) ∧ s.arg 2 ≠ 0 ∧
      mlaRange (s.arg2 0) (s.arg 2) = true ∧ s.manRefused (s.memRead (s.arg2 0) (s.arg 2)) = false := by
  intro s
  have a : s.arg2 0 = 0 := by decide +kernel
  have n : s.arg 2 = wholeMan.length := by decide +kernel
  have r : s.memRead 0 wholeMan.length = wholeMan := memRead_args _ wholeMan (grp 2 [])
  refine ⟨by decide +kernel, by decide +kernel, by decide +kernel, by decide +kernel, by decide +kernel, ?_⟩
  rw [a, n, r]
  decide +kernel

/-- Every clause of SliceHostCommands has a state and operands that meet its hypotheses. -/
theorem meets_SliceHostCommands :
    (let s : State := args [4095, 0, 0, 255] (mem0 (leBytes 4 4096) (grp 2 [(MBX_CTL.LOCK, 1), (MBX_BIND_W0.VALID 255, 1), (MBX_BIND_W0.RECEIVER 255, 2)]))
     let m : Master := 0
     let hseq : BitVec 16 := 65535
     let r : Resv := ⟨4095, [(0, 1)], 255, [(0, 0)], []⟩
     s.mgr.sby = 0 ∧
     s.takesUp m 4 hseq = true ∧
     (s.reservation ⟨4, hseq.toNat, (List.range 16).map s.arg, 0, 0, [], false⟩).toOption = some r) ∧
    (let s : State := args [4096, 0, 0, 255] (grp 2 [(MBX_CTL.LOCK, 1), (MBX_BIND_W0.VALID 255, 1), (MBX_BIND_W0.RECEIVER 255, 2)])
     let m : Master := 0
     let hseq : BitVec 16 := 65535
     let st : Nat := 3
     s.mgr.sby = 0 ∧
     s.takesUp m 4 hseq = true ∧
     (match s.reservation ⟨4, hseq.toNat, (List.range 16).map s.arg, 0, 0, [], false⟩ with | .ok _ => 0 | .error k => k) = st) ∧
    (let s : State := (args [6] (grp 2 [])).modMgr (fun x => { x with resv := [⟨5, [(0, 1)], 255, [(0, 15)], []⟩] })
     let m : Master := 0
     let hseq : BitVec 16 := 65535
     s.mgr.sby = 0 ∧
     s.takesUp m 5 hseq = true ∧
     s.resvOf (s.arg 0) = none) ∧
    (let s : State := (args [5] (grp 2 [(TCK_SL_STAT.STATE 15, 2), (TCK_SL_STAT.SLICE_ID 15, 5), (RIG_SL_STAT.ACTIVE 15, 1), (RIG_SL_STAT.SLICE_ID 15, 5)])).modMgr (fun x => { x with resv := [⟨5, [(0, 1)], 255, [(0, 15)], []⟩] })
     let m : Master := 0
     let hseq : BitVec 16 := 65535
     let r : Resv := ⟨5, [(0, 1)], 255, [(0, 15)], []⟩
     let n : Nat := 15
     let here (r : Resv) (n : Nat) : Prop := s.resvOf (s.arg 0) = some r ∧ s.membersOf r = [(s.modId, n)] ∧ n < 16
     s.mgr.sby = 0 ∧
     s.takesUp m 5 hseq = true ∧
     here r n ∧
     s.slState n ≠ 0) ∧
    (let s : State := (args [5] (grp 2 [(TCK_SL_STAT.STATE 15, 0), (TCK_SL_STAT.SLICE_ID 15, 5), (RIG_SL_STAT.ACTIVE 15, 1), (RIG_SL_STAT.SLICE_ID 15, 5)])).modMgr (fun x => { x with resv := [⟨5, [(0, 1)], 255, [(0, 15)], []⟩] })
     let m : Master := 0
     let hseq : BitVec 16 := 65535
     let r : Resv := ⟨5, [(0, 1)], 255, [(0, 15)], []⟩
     let n : Nat := 15
     let here (r : Resv) (n : Nat) : Prop := s.resvOf (s.arg 0) = some r ∧ s.membersOf r = [(s.modId, n)] ∧ n < 16
     s.mgr.sby = 0 ∧
     s.takesUp m 5 hseq = true ∧
     here r n ∧
     s.slState n = 0) ∧
    (let s : State := (args [5, 4] (grp 2 [])).modMgr (fun x => { x with resv := [⟨5, [(0, 1)], 255, [(0, 15)], []⟩] })
     let m : Master := 0
     let hseq : BitVec 16 := 65535
     let own := s.fget FAB_TERM.TERM
     let alone := s.peers = []
     let lead := s.step + s.fget RIG_CTL.LEAD
     let r : Resv := ⟨5, [(0, 1)], 255, [(0, 15)], []⟩
     let n : Nat := 15
     s.mgr.sby = 0 ∧
     s.takesUp m 6 hseq = true ∧
     (s.resvOf (s.arg 0) = none ∨ s.arg 1 < 1 ∨ 3 < s.arg 1)) ∧
    (let s : State := (args [5, 2, 16] (grp 2 [(TCK_SL_STAT.STATE 15, 5), (TCK_SL_STAT.SLICE_ID 15, 5), (RIG_SL_STAT.ACTIVE 15, 1), (RIG_SL_STAT.SLICE_ID 15, 5)])).modMgr (fun x => { x with resv := [⟨5, [(0, 1)], 255, [(0, 15)], []⟩] })
     let m : Master := 0
     let hseq : BitVec 16 := 65535
     let r : Resv := ⟨5, [(0, 1)], 255, [(0, 15)], []⟩
     let n : Nat := 15
     let T : Nat := (if s.arg2 2 = 0 then s.step + s.fget RIG_CTL.LEAD else s.arg2 2)
     let lead := s.step + s.fget RIG_CTL.LEAD
     let here (r : Resv) (n : Nat) : Prop := s.resvOf (s.arg 0) = some r ∧ s.membersOf r = [(s.modId, n)] ∧ n < 16
     let fits := if s.arg 1 = 2 then 2 ≤ s.slState n ∧ s.slState n ≤ 4 else s.slState n = 5
     s.mgr.sby = 0 ∧
     s.takesUp m 6 hseq = true ∧
     here r n ∧
     1 ≤ s.arg 1 ∧
     s.arg 1 ≤ 3 ∧
     (T = (if s.arg2 2 = 0 then lead else s.arg2 2)) ∧
     (¬ fits)) ∧
    (let s : State := (args [5, 1, 15] (grp 2 [(TCK_SL_STAT.STATE 15, 5), (TCK_SL_STAT.SLICE_ID 15, 5), (RIG_SL_STAT.ACTIVE 15, 1), (RIG_SL_STAT.SLICE_ID 15, 5)])).modMgr (fun x => { x with resv := [⟨5, [(0, 1)], 255, [(0, 15)], []⟩] })
     let m : Master := 0
     let hseq : BitVec 16 := 65535
     let r : Resv := ⟨5, [(0, 1)], 255, [(0, 15)], []⟩
     let n : Nat := 15
     let T : Nat := (if s.arg2 2 = 0 then s.step + s.fget RIG_CTL.LEAD else s.arg2 2)
     let lead := s.step + s.fget RIG_CTL.LEAD
     let here (r : Resv) (n : Nat) : Prop := s.resvOf (s.arg 0) = some r ∧ s.membersOf r = [(s.modId, n)] ∧ n < 16
     let fits := if s.arg 1 = 2 then 2 ≤ s.slState n ∧ s.slState n ≤ 4 else s.slState n = 5
     s.mgr.sby = 0 ∧
     s.takesUp m 6 hseq = true ∧
     here r n ∧
     1 ≤ s.arg 1 ∧
     s.arg 1 ≤ 3 ∧
     (T = (if s.arg2 2 = 0 then lead else s.arg2 2)) ∧
     fits ∧
     T < s.step + 16) ∧
    (let s : State := (args [5, 2, 16] (grp 2 [(TCK_SL_STAT.STATE 15, 4), (TCK_SL_STAT.SLICE_ID 15, 5), (RIG_SL_STAT.ACTIVE 15, 1), (RIG_SL_STAT.SLICE_ID 15, 5)])).modMgr (fun x => { x with resv := [⟨5, [(0, 1)], 255, [(0, 15)], []⟩] })
     let m : Master := 0
     let hseq : BitVec 16 := 65535
     let r : Resv := ⟨5, [(0, 1)], 255, [(0, 15)], []⟩
     let n : Nat := 15
     let T : Nat := (if s.arg2 2 = 0 then s.step + s.fget RIG_CTL.LEAD else s.arg2 2)
     let lead := s.step + s.fget RIG_CTL.LEAD
     let here (r : Resv) (n : Nat) : Prop := s.resvOf (s.arg 0) = some r ∧ s.membersOf r = [(s.modId, n)] ∧ n < 16
     let fits := if s.arg 1 = 2 then 2 ≤ s.slState n ∧ s.slState n ≤ 4 else s.slState n = 5
     s.mgr.sby = 0 ∧
     s.takesUp m 6 hseq = true ∧
     here r n ∧
     1 ≤ s.arg 1 ∧
     s.arg 1 ≤ 3 ∧
     (T = (if s.arg2 2 = 0 then lead else s.arg2 2)) ∧
     fits ∧
     s.step + 16 ≤ T ∧
     T < 2 ^ 64 ∧
     rsvOk (TCK_SL_CTL.off n) (s.reg (TCK_SL_CTL.off n)) = true) ∧
    (let s : State := (args [5, 0, 0, 2] (grp 2 [])).modMgr (fun x => { x with resv := [⟨5, [(0, 1)], 255, [(0, 15)], []⟩] })
     let m : Master := 0
     let hseq : BitVec 16 := 65535
     let own := s.fget FAB_TERM.TERM
     let alone := s.peers = []
     let lead := s.step + s.fget RIG_CTL.LEAD
     let r : Resv := ⟨5, [(0, 1)], 255, [(0, 15)], []⟩
     let n : Nat := 15
     s.mgr.sby = 0 ∧
     s.takesUp m 7 hseq = true ∧
     (s.resvOf (s.arg 0) = none ∨ 4096 ≤ s.arg 1 ∨ 65536 ≤ s.arg 2 ∨ 1 < s.arg 3)) ∧
    (let s : State := (args [5, 0, 1, 1, 15] (grp 2 [(TCK_SL_STAT.STATE 15, 2), (TCK_SL_STAT.SLICE_ID 15, 5), (RIG_SL_STAT.ACTIVE 15, 1), (RIG_SL_STAT.SLICE_ID 15, 5)])).modMgr (fun x => { x with resv := [⟨5, [(0, 1)], 255, [(0, 15)], []⟩] })
     let m : Master := 0
     let hseq : BitVec 16 := 65535
     let own := s.fget FAB_TERM.TERM
     let alone := s.peers = []
     let lead := s.step + s.fget RIG_CTL.LEAD
     let r : Resv := ⟨5, [(0, 1)], 255, [(0, 15)], []⟩
     let n : Nat := 15
     let T : Nat := (if s.arg2 4 = 0 then lead else s.arg2 4)
     let here (r : Resv) (n : Nat) : Prop := s.resvOf (s.arg 0) = some r ∧ s.membersOf r = [(s.modId, n)] ∧ n < 16
     s.mgr.sby = 0 ∧
     s.takesUp m 7 hseq = true ∧
     here r n ∧
     s.arg 1 < 4096 ∧
     s.arg 2 < 65536 ∧
     s.arg 3 ≤ 1 ∧
     (T = (if s.arg2 4 = 0 then lead else s.arg2 4)) ∧
     T < s.step + 16) ∧
    (let s : State := (args [5, 0, 65535, 1, 16] (grp 2 [(TCK_SL_STAT.STATE 15, 2), (TCK_SL_STAT.SLICE_ID 15, 5), (RIG_SL_STAT.ACTIVE 15, 1), (RIG_SL_STAT.SLICE_ID 15, 5)])).modMgr (fun x => { x with resv := [⟨5, [(0, 1)], 255, [(0, 15)], []⟩] })
     let m : Master := 0
     let hseq : BitVec 16 := 65535
     let own := s.fget FAB_TERM.TERM
     let alone := s.peers = []
     let lead := s.step + s.fget RIG_CTL.LEAD
     let r : Resv := ⟨5, [(0, 1)], 255, [(0, 15)], []⟩
     let n : Nat := 15
     let T : Nat := (if s.arg2 4 = 0 then lead else s.arg2 4)
     let here (r : Resv) (n : Nat) : Prop := s.resvOf (s.arg 0) = some r ∧ s.membersOf r = [(s.modId, n)] ∧ n < 16
     s.mgr.sby = 0 ∧
     s.takesUp m 7 hseq = true ∧
     here r n ∧
     s.arg 1 < 4096 ∧
     s.arg 2 < 65536 ∧
     s.arg 3 ≤ 1 ∧
     (T = (if s.arg2 4 = 0 then lead else s.arg2 4)) ∧
     s.step + 16 ≤ T ∧
     T < 2 ^ 64 ∧
     s.arg 0 < 4096 ∧
     s.ctxOf (s.arg 0) = some n) ∧
    (let s : State := (args [5, 0, 2] (grp 2 [])).modMgr (fun x => { x with resv := [⟨5, [(0, 1)], 255, [(0, 15)], []⟩] })
     let m : Master := 0
     let hseq : BitVec 16 := 65535
     let own := s.fget FAB_TERM.TERM
     let alone := s.peers = []
     let lead := s.step + s.fget RIG_CTL.LEAD
     let r : Resv := ⟨5, [(0, 1)], 255, [(0, 15)], []⟩
     let n : Nat := 15
     s.mgr.sby = 0 ∧
     s.takesUp m 9 hseq = true ∧
     (s.resvOf (s.arg 0) = none ∨ 4096 ≤ s.arg 1 ∨ 1 < s.arg 2)) ∧
    (let s : State := (args [5, 0, 1] (grp 2 [(TCK_SL_STAT.STATE 15, 2), (TCK_SL_STAT.SLICE_ID 15, 5), (RIG_SL_STAT.ACTIVE 15, 1), (RIG_SL_STAT.SLICE_ID 15, 5)])).modMgr (fun x => { x with resv := [⟨5, [(0, 1)], 255, [(0, 15)], []⟩] })
     let m : Master := 0
     let hseq : BitVec 16 := 65535
     let own := s.fget FAB_TERM.TERM
     let alone := s.peers = []
     let lead := s.step + s.fget RIG_CTL.LEAD
     let r : Resv := ⟨5, [(0, 1)], 255, [(0, 15)], []⟩
     let n : Nat := 15
     let here (r : Resv) (n : Nat) : Prop := s.resvOf (s.arg 0) = some r ∧ s.membersOf r = [(s.modId, n)] ∧ n < 16
     s.mgr.sby = 0 ∧
     s.takesUp m 9 hseq = true ∧
     here r n ∧
     s.arg 1 < 4096 ∧
     s.arg 2 ≤ 1 ∧
     s.slState n ≠ 4 ∧
     s.slState n ≠ 5) ∧
    (let s : State := (args [5, 4095, 1] (grp 2 [(TCK_SL_STAT.STATE 15, 5), (TCK_SL_STAT.SLICE_ID 15, 5), (RIG_SL_STAT.ACTIVE 15, 1), (RIG_SL_STAT.SLICE_ID 15, 5)])).modMgr (fun x => { x with resv := [⟨5, [(0, 1)], 255, [(0, 15)], []⟩] })
     let m : Master := 0
     let hseq : BitVec 16 := 65535
     let own := s.fget FAB_TERM.TERM
     let alone := s.peers = []
     let lead := s.step + s.fget RIG_CTL.LEAD
     let r : Resv := ⟨5, [(0, 1)], 255, [(0, 15)], []⟩
     let n : Nat := 15
     let here (r : Resv) (n : Nat) : Prop := s.resvOf (s.arg 0) = some r ∧ s.membersOf r = [(s.modId, n)] ∧ n < 16
     s.mgr.sby = 0 ∧
     s.takesUp m 9 hseq = true ∧
     here r n ∧
     s.arg 1 < 4096 ∧
     s.arg 2 ≤ 1 ∧
     (s.slState n = 4 ∨ s.slState n = 5) ∧
     lead < 2 ^ 64 ∧
     s.arg 0 < 4096 ∧
     s.ctxOf (s.arg 0) = some n) ∧
    (let s : State := (args [0] (grp 2 [(TCK_SL_STAT.STATE 15, 2), (TCK_SL_STAT.SLICE_ID 15, 5), (RIG_SL_STAT.ACTIVE 15, 1), (RIG_SL_STAT.SLICE_ID 15, 5)])).modMgr (fun x => { x with resv := [⟨5, [(0, 1)], 255, [(0, 15)], []⟩], cmds := [⟨6, 65535, [5, 1], 1, 16, [], false⟩], awaits := [⟨0x10, 0, 1, 1, 16⟩] })
     let m : Master := 0
     let hseq : BitVec 16 := 65535
     let c : HostCmd := ⟨6, 65535, [5, 1], 1, 16, [], false⟩
     let a : Await := ⟨0x10, 0, 1, 1, 16⟩
     let r : Resv := ⟨5, [(0, 1)], 255, [(0, 15)], []⟩
     let n : Nat := 15
     s.mgr.sby = 0 ∧
     s.mgr.cmds = [c] ∧
     s.mgr.awaits = [a] ∧
     a.job = 1 ∧
     s.mgr.toArm = false ∧
     s.mgr.commits = [] ∧
     c.hseq = hseq.toNat ∧
     c.step ≠ 0 ∧
     c.step ≤ s.step + 16 ∧
     c.code = 6 ∧
     c.phase < 2) ∧
    (let s : State := (args [0] (grp 2 [(TCK_SL_STAT.STATE 15, 2), (TCK_SL_STAT.SLICE_ID 15, 5), (RIG_SL_STAT.ACTIVE 15, 1), (RIG_SL_STAT.SLICE_ID 15, 5)])).modMgr (fun x => { x with resv := [⟨5, [(0, 1)], 255, [(0, 15)], []⟩], cmds := [⟨6, 65535, [5, 1], 2, 16, [], false⟩], awaits := [⟨0x10, 0, 1, 1, 16⟩] })
     let m : Master := 0
     let hseq : BitVec 16 := 65535
     let c : HostCmd := ⟨6, 65535, [5, 1], 2, 16, [], false⟩
     let a : Await := ⟨0x10, 0, 1, 1, 16⟩
     let r : Resv := ⟨5, [(0, 1)], 255, [(0, 15)], []⟩
     let n : Nat := 15
     s.mgr.sby = 0 ∧
     s.mgr.cmds = [c] ∧
     s.mgr.awaits = [a] ∧
     a.job = 1 ∧
     s.mgr.toArm = false ∧
     s.mgr.commits = [] ∧
     c.hseq = hseq.toNat ∧
     c.step ≠ 0 ∧
     c.step ≤ s.step + 16 ∧
     c.code = 6 ∧
     2 ≤ c.phase ∧
     s.resvOf (c.args.getD 0 0) = some r ∧
     s.membersOf r = [(s.modId, n)] ∧
     n < 16 ∧
     s.hubUp = true ∧
     rsvOk (TCK_SL_CTL.off n) (BitVec.ofNat 32 (slCtlWord c s.modId 0 0)) = true) ∧
    (let s : State := (args [0] (grp 2 [(TCK_SL_STAT.STATE 15, 2), (TCK_SL_STAT.SLICE_ID 15, 5), (RIG_SL_STAT.ACTIVE 15, 1), (RIG_SL_STAT.SLICE_ID 15, 5)])).modMgr (fun x => { x with resv := [⟨5, [(0, 1)], 255, [(0, 15)], []⟩], cmds := [⟨7, 65535, [5, 0, 1, 1], 1, 16, [], false⟩], awaits := [⟨0x10, 0, 1, 1, 16⟩] })
     let m : Master := 0
     let hseq : BitVec 16 := 65535
     let c : HostCmd := ⟨7, 65535, [5, 0, 1, 1], 1, 16, [], false⟩
     let a : Await := ⟨0x10, 0, 1, 1, 16⟩
     let r : Resv := ⟨5, [(0, 1)], 255, [(0, 15)], []⟩
     let n : Nat := 15
     s.mgr.sby = 0 ∧
     s.mgr.cmds = [c] ∧
     s.mgr.awaits = [a] ∧
     a.job = 1 ∧
     s.mgr.toArm = false ∧
     s.mgr.commits = [] ∧
     c.hseq = hseq.toNat ∧
     c.step ≠ 0 ∧
     c.step ≤ s.step + 16 ∧
     c.code = 7 ∧
     s.resvOf (c.args.getD 0 0) = some r ∧
     s.membersOf r = [(s.modId, n)] ∧
     r.slice < 4096 ∧
     s.ctxOf r.slice = some n ∧
     c.step < 2 ^ 64) ∧
    (let s : State := (args [0] (grp 2 [(TCK_SL_STAT.STATE 15, 2), (TCK_SL_STAT.SLICE_ID 15, 5), (RIG_SL_STAT.ACTIVE 15, 1), (RIG_SL_STAT.SLICE_ID 15, 5)])).modMgr (fun x => { x with resv := [⟨5, [(0, 1)], 255, [(0, 15)], []⟩], cmds := [⟨8, 65535, [1000, 16], 2, 16, [], false⟩], awaits := [⟨0x10, 0, 1, 1, 16⟩] })
     let m : Master := 0
     let hseq : BitVec 16 := 65535
     let c : HostCmd := ⟨8, 65535, [1000, 16], 2, 16, [], false⟩
     let a : Await := ⟨0x10, 0, 1, 1, 16⟩
     let r : Resv := ⟨5, [(0, 1)], 255, [(0, 15)], []⟩
     let n : Nat := 15
     s.mgr.sby = 0 ∧
     s.mgr.cmds = [c] ∧
     s.mgr.awaits = [a] ∧
     a.job = 1 ∧
     s.mgr.toArm = false ∧
     s.mgr.commits = [] ∧
     c.hseq = hseq.toNat ∧
     c.step ≠ 0 ∧
     c.step ≤ s.step + 16 ∧
     c.code = 8 ∧
     c.phase ≠ 3) ∧
    (let s : State := (args [0] (grp 2 [(TCK_SL_STAT.STATE 15, 2), (TCK_SL_STAT.SLICE_ID 15, 5), (RIG_SL_STAT.ACTIVE 15, 1), (RIG_SL_STAT.SLICE_ID 15, 5)])).modMgr (fun x => { x with resv := [⟨5, [(0, 1)], 255, [(0, 15)], []⟩], cmds := [⟨8, 65535, [1000, 16], 3, 16, [], false⟩], awaits := [⟨0x10, 0, 1, 1, 16⟩] })
     let m : Master := 0
     let hseq : BitVec 16 := 65535
     let c : HostCmd := ⟨8, 65535, [1000, 16], 3, 16, [], false⟩
     let a : Await := ⟨0x10, 0, 1, 1, 16⟩
     let r : Resv := ⟨5, [(0, 1)], 255, [(0, 15)], []⟩
     let n : Nat := 15
     s.mgr.sby = 0 ∧
     s.mgr.cmds = [c] ∧
     s.mgr.awaits = [a] ∧
     a.job = 1 ∧
     s.mgr.toArm = false ∧
     s.mgr.commits = [] ∧
     c.hseq = hseq.toNat ∧
     c.step ≠ 0 ∧
     c.step ≤ s.step + 16 ∧
     c.code = 8 ∧
     c.phase = 3) ∧
    (let s : State := (args [0] (grp 2 [(TCK_SL_STAT.STATE 15, 2), (TCK_SL_STAT.SLICE_ID 15, 5), (RIG_SL_STAT.ACTIVE 15, 1), (RIG_SL_STAT.SLICE_ID 15, 5)])).modMgr (fun x => { x with resv := [⟨5, [(0, 1)], 255, [(0, 15)], []⟩], cmds := [⟨13, 65535, [1], 1, 16, [], false⟩], awaits := [⟨0x10, 0, 1, 1, 16⟩] })
     let m : Master := 0
     let hseq : BitVec 16 := 65535
     let c : HostCmd := ⟨13, 65535, [1], 1, 16, [], false⟩
     let a : Await := ⟨0x10, 0, 1, 1, 16⟩
     let r : Resv := ⟨5, [(0, 1)], 255, [(0, 15)], []⟩
     let n : Nat := 15
     s.mgr.sby = 0 ∧
     s.mgr.cmds = [c] ∧
     s.mgr.awaits = [a] ∧
     a.job = 1 ∧
     s.mgr.toArm = false ∧
     s.mgr.commits = [] ∧
     c.hseq = hseq.toNat ∧
     c.step ≠ 0 ∧
     c.step ≤ s.step + 16 ∧
     c.code = 13 ∧
     s.peers = []) := by
  refine ⟨?_, ?_, ?_, ?_, ?_, ?_, ?_, ?_, ?_, ?_, ?_, ?_, ?_, ?_, ?_, ?_, ?_, ?_, ?_, ?_, ?_⟩ <;> decide +kernel

/-- Every clause of FullChannelPost has a state and operands that meet its hypotheses. -/
theorem meets_FullChannelPost :
    (let s : State := { st [(MBX_CTL.LOCK, 1), (MBX_BIND_W0.VALID 255, 1)] with mbx := [(255, { MbxCh.init with queue := [⟨[], 0, 0, false⟩] })] }
     let m : Master := 0
     let c : Fin 256 := 255
     s.hubUp = true ∧
     s.mbxShut m.toNat = false ∧
     s.maySend m c.val = true ∧
     s.inReset (s.chanRecv c.val) = false ∧
     (s.mb c.val).head1 = (s.mb c.val).head2 ∧
     (s.mb c.val).tail1 = (s.mb c.val).tail2 ∧
     (s.mb c.val).queue.length = s.chanDepth c.val) := by decide +kernel

/-- Every clause of ResetState has a state and operands that meet its hypotheses. -/
theorem meets_ResetState :
    (let o : Nat := 4
     o ∉ [0x0000000, 0x0020008, 0x002000C, 0x0020010, 0x0040004, 0x0100000, 0x0100004, 0x0100008, 0x0101000, 0x0101004, 0x0101008, 0x0102000, 0x0102004, 0x0102008, 0x0103000, 0x0103004, 0x0103008]) ∧
    (let s := State.reset
     True) ∧
    (let s := State.reset
     True) ∧
    (let s := State.reset
     True) ∧
    (let s := State.reset
     True) ∧
    (let n : Nat := 15
     n < 16) ∧
    (let p : Nat := 15
     p < 16) ∧
    (let p : Nat := 15
     p < 16) ∧
    (let s := State.reset
     True) ∧
    (let s := State.reset
     True) ∧
    (let s := State.reset
     True) := by
  refine ⟨?_, ?_, ?_, ?_, ?_, ?_, ?_, ?_, ?_, ?_, ?_⟩ <;> decide +kernel

/-- The reset state with a command that completes meets the hypotheses of CanonicalStep's first part, and twice the reset state
those of its second. -/
theorem meets_CanonicalStep :
    (Memory.wf State.reset.mem ∧ Store.wf regReset State.reset.regs = true ∧
      ∃ t, Machine.step { State.reset with pending := [.takeover] } = .next t) ∧
    (∀ a, State.reset.memGet a = State.reset.memGet a) ∧ ∀ o, State.reset.reg o = State.reset.reg o :=
  ⟨⟨by decide +kernel, by decide +kernel, _, rfl⟩, fun _ => rfl, fun _ => rfl⟩

end Sys2Proof.Tests
end

-- Every command answers, and a run serves the queue

/-! PROOFS of O1, O3 and O4. Every command ends in `done` or in `doneAt`, which give back the queue and the fuses and do
not take the time back; a run is an induction on its number of steps. -/

section
namespace Sys2Proof.Machine

/-- Settles O1: it is the second branch of the step. -/
theorem stepRunsFront : Obligations.StepRunsFront := fun _ _ _ => rfl

/-- The answer is a next state with the queue and the fuses of `s`, at its time or later. -/
def Answers (s : State) (r : Result) : Prop :=
  ∃ t, r = .next t ∧ t.pending = s.pending ∧ s.now ≤ t.now ∧ t.fuses = s.fuses

theorem exec_answers (c : Instr) (s : State) : Answers s (exec c s) := by
  cases c with
  -- the events at a time of the tick answer by `doneAt`
  | tickBoundary | computeStart | completionCheck | calibrationSlot | updateJobTick | mul | add
    | fma | sqrt | rsqrt | recip | clamp | sign | csel | publication | mirrorRestore | strandUnit
    | memWr | memRd | mirror | treeMemSource | bar2Read | bar2Write | intakeRead | intakeWrite =>
    exact ⟨_, rfl, rfl, Nat.le_max_left _ _, rfl⟩
  | _ => exact ⟨_, rfl, rfl, Nat.le_refl _, rfl⟩

/-- Settles O3. -/
theorem everyCommandRuns : Obligations.EveryCommandRuns := exec_answers

/-- A step takes the front command from the queue, or lets one timebase unit pass where no command waits. -/
theorem step_serves (s : State) : ∃ t, step s = .next t ∧ t.pending = s.pending.tail ∧
    s.now + (1 - s.pending.length) ≤ t.now ∧ t.fuses = s.fuses := by
  unfold step
  split
  next e => exact ⟨_, rfl, by simp [e]⟩
  next c rest e =>
    obtain ⟨t, ht, hq, hnow, hf⟩ := exec_answers c { s with pending := rest }
    exact ⟨t, ht, by simp [hq, e], by simpa [e] using hnow, hf⟩

theorem run_succ {M : Host.Core} {n : Nat} {s t : M.State} (h : M.step s = .next t) : M.run (n + 1) s = M.run n t := by
  rw [Host.Core.run, h]

/-- Settles O4, by induction on the number of steps. -/
theorem runServesQueue : Obligations.RunServesQueue := by
  unfold Obligations.RunServesQueue
  intro n
  induction n with
  | zero => exact fun s => ⟨s, rfl, by simp⟩
  | succ n ih =>
    intro s
    obtain ⟨u, hu, huq, hun, huf⟩ := step_serves s
    obtain ⟨t, ht, htq, htn, htf⟩ := ih u
    refine ⟨t, (run_succ hu).trans ht, ?_, ?_, htf.trans huf⟩
    · rw [htq, huq, List.drop_tail]
    · rw [huq, List.length_tail] at htn
      omega

end Sys2Proof.Machine
end

-- The module right after reset

/-! PROOF of O58. A register that the register file does not list reads as its Reset column; the other clauses evaluate
the reset state. -/

section
namespace Sys2Proof.Machine

theorem Store.get_of_notMem {α : Type} (d : Nat → α) {l : Store α} {k : Nat} (h : k ∉ l.map Prod.fst) :
    Store.get d l k = d k := by
  induction l with
  | nil => rfl
  | cons e l ih =>
    simp only [List.map_cons, List.mem_cons, not_or] at h
    rw [Store.get, if_neg (Ne.symm h.1), ih h.2]

/-- No slice context holds a rigging at reset. -/
theorem reset_contexts_idle : ∀ n, n < 16 → State.reset.slState n = 0 ∧
    State.reset.flag (RIG_SL_STAT.ACTIVE n) = false ∧ State.reset.fget (RIG_SL_STAT.SHADOW n) = 0 := by
  decide +kernel

theorem reset_sluices_closed : ∀ p, p < 16 → (State.reset.pt p).closed = true := by
  decide +kernel

theorem reset_port_states : ∀ p, p < 16 → State.reset.fget (LNK_STAT.STATE p) = if p < 4 then 1 else 0 := by
  decide +kernel

/-- Settles O58. -/
theorem resetState : Obligations.ResetState := by
  unfold Obligations.ResetState
  have hregs {o : Nat} (h : o ∉ State.reset.regs.map Prod.fst) : State.reset.reg o = regReset o :=
    Store.get_of_notMem regReset h
  refine ⟨fun o h => hregs h, ?_, ?_, ?_, ?_, reset_contexts_idle, reset_sluices_closed, reset_port_states,
    ?_, ?_, rfl⟩
  all_goals decide +kernel

end Sys2Proof.Machine
end

-- Register writes that are turned away

/-! PROOF of O29. A write that is turned away is `State.badWrite`, a NOTE, which is queued, counted and recorded and
signals nothing. -/

section
namespace Sys2Proof.Machine

/-- A NOTE is queued, counted and recorded, and has no signal. -/
theorem State.classify_note (s : State) (f : FaultMsg) (stale held : Bool) :
    s.classify f 0 stale held =
      ((s.enqueue f 0 stale held).fcount (FLT_CNT.CNT 0) 1).recordFault f 0 stale := by
  simp [State.classify, State.signal]

/-- The message of a bad register write (R9). -/
def State.badWriteMsg (s : State) (m : Master) (off : Nat) : FaultMsg := s.msgOf 0x0001 0 off m.toNat

theorem State.badWrite_eq (s : State) (m : Master) (off : Nat) :
    s.badWrite m off = ((s.enqueue (s.badWriteMsg m off) 0 false false).fcount (FLT_CNT.CNT 0) 1).recordFault
      (s.badWriteMsg m off) 0 false := by
  have hstale : s.staleMsg (s.badWriteMsg m off) = false := by
    have hpart : codeInPart (s.badWriteMsg m off).code.toNat = false := by
      change codeInPart (1#16).toNat = false
      decide
    simp [State.staleMsg, hpart]
  have hbase : faultBase (s.badWriteMsg m off).code.toNat = some 0 := rfl
  calc s.badWrite m off = s.take (s.badWriteMsg m off) := rfl
    _ = s.classify (s.badWriteMsg m off) 0 false false := by simp [State.take, hstale, hbase]
    _ = _ := s.classify_note _ false false

theorem State.record_flt (s : State) (code sev : Nat) (inj : Bool) (cls p0 p1 p2 : Nat) :
    (s.record code sev inj cls p0 p1 p2).flt = s.flt := by
  unfold State.record
  dsimp only
  split <;> rfl

theorem State.recordFault_flt (s : State) (f : FaultMsg) (cls : Nat) (stale : Bool) :
    (s.recordFault f cls stale).flt = s.flt := by
  unfold State.recordFault
  split
  · rfl
  · exact State.record_flt ..

theorem State.badWrite_flt (s : State) (m : Master) (off : Nat) :
    (s.badWrite m off).flt = (s.enqueue (s.badWriteMsg m off) 0 false false).flt := by
  rw [State.badWrite_eq, State.recordFault_flt]
  rfl

theorem State.enqueue_window (s : State) (f : FaultMsg) (cls : Nat) (stale held : Bool) :
    (s.enqueue f cls stale held).flt.window = s.flt.window := by
  unfold State.enqueue
  split <;> rfl

/-- With room in the queue the message is its last entry. -/
theorem State.enqueue_queue {s : State} (h : s.flt.queue.length < 1024) (f : FaultMsg) (cls : Nat) (stale held : Bool) :
    (s.enqueue f cls stale held).flt.queue =
      s.flt.queue ++ [⟨f, cls, stale, held, BitVec.ofNat 64 s.step, s.tbCount⟩] := by
  rw [State.enqueue, if_pos h]

/-- What a write turned away leaves: the answer that O29 states. -/
def TurnedAway (s : State) (m : Master) (off : Nat) (t : State) : Prop :=
  FaultOnly s t ∧ t.flt.window = s.flt.window ∧
    (s.flt.queue.length < 1024 → ∃ e, t.flt.queue = s.flt.queue ++ [e] ∧ e.cls = 0 ∧ e.msg.code = 0x0001 ∧
      e.msg.addr = BitVec.ofNat 48 off ∧ e.msg.arg = BitVec.ofNat 16 m.toNat)

theorem turnedAway_badWrite (s : State) (m : Master) (off : Nat) : TurnedAway s m off (s.badWrite m off) := by
  refine ⟨.badWrite s m off, ?_, fun hroom => ?_⟩
  · rw [State.badWrite_flt, State.enqueue_window]
  · rw [State.badWrite_flt, State.enqueue_queue hroom]
    exact ⟨_, rfl, rfl, rfl, rfl, rfl⟩

/-- A meaning that keeps queue, time and fuses answers its effect. -/
theorem done_of_kept {s t : State} (hq : t.pending = s.pending) (hnow : t.now = s.now) (hf : t.fuses = s.fuses) :
    done s t = .next t := by
  rw [done_eq, ← hq, ← hnow, ← hf]

theorem FaultOnly.done {s t : State} (h : FaultOnly s t) : done s t = .next t := done_of_kept h.pending h.now h.fuses

section
variable {s : State} {m : Master} {v : Word} {off : Nat} {c : Instr}

theorem runs_badWrite (e : exec c s = done s (s.badWrite m off)) : Runs c s (TurnedAway s m off) :=
  ⟨_, e.trans (FaultOnly.badWrite s m off).done, turnedAway_badWrite s m off⟩

/-- A command that spells a register write runs its effect behind the gate. -/
def Gated (c : Instr) (s : State) (m : Master) (off : Nat) (v : Word) : Prop :=
  ∃ f, exec c s = done s (s.gate true m off v f)

theorem Gated.turnedAway (hc : Gated c s m off v) (h : s.turnsAway m off v = true) : Runs c s (TurnedAway s m off) := by
  obtain ⟨f, e⟩ := hc
  rw [State.gate_turnsAway h] at e
  exact runs_badWrite e

theorem regWrite_word {off : Nat} (h4 : off % 4 = 0) (be : BitVec 4) : s.regWrite m off be v =
    if be ≠ 0xF then (if s.hubUp && !(m = 2 && s.host.closed) then s.badWrite m off else s)
    else if off = FAB_CMD.off then s.gate true m off v (fun s => s.fabCmd v)
    else s.regPut true m off v := by
  unfold State.regWrite
  rw [show off / 4 * 4 = off by omega]

/-- Outside staging window and mailboxes a word passes the gate. -/
theorem State.regPut_eq_gate (direct : Bool) (h : off < 0x2000000) (hm : isMbx off = false) :
    s.regPut direct m off v = s.gate direct m off v (fun s => s.putReg m off v) := by
  unfold State.regPut
  rw [if_neg (by simp; omega), if_neg (by simp [hm])]

theorem gated_registerWrite {off : BitVec 26} (h4 : off.toNat % 4 = 0) (h : off.toNat < 0x2000000)
    (hm : isMbx off.toNat = false) : Gated (.registerWrite m off 0xF v) s m off.toNat v := by
  have e : exec (.registerWrite m off 0xF v) s = done s (s.regWrite m off.toNat 0xF v) := rfl
  rw [regWrite_word h4, if_neg (by simp)] at e
  by_cases hf : off.toNat = FAB_CMD.off
  · rw [if_pos hf] at e
    exact ⟨_, e⟩
  · rw [if_neg hf, State.regPut_eq_gate true h hm] at e
    exact ⟨_, e⟩

theorem registerWrite_short {off : BitVec 26} {be : BitVec 4} (hbe : be ≠ 0xF) (h4 : off.toNat % 4 = 0)
    (hup : s.hubUp = true) (hcl : m = 2 → s.host.closed = false) :
    Runs (.registerWrite m off be v) s (TurnedAway s m off.toNat) := by
  apply runs_badWrite
  have e : exec (.registerWrite m off be v) s = done s (s.regWrite m off.toNat be v) := rfl
  rw [e, regWrite_word h4, if_pos hbe, if_pos]
  simp only [hup, Bool.true_and, Bool.not_eq_true', Bool.and_eq_false_iff, decide_eq_false_iff_not]
  exact Classical.or_iff_not_imp_left.2 fun h => hcl (not_not.1 h)

end

/-- Settles O29: every command of the lists runs behind the gate, which turns the write away. -/
theorem turnedAwayWrites : Obligations.TurnedAwayWrites := by
  unfold Obligations.TurnedAwayWrites
  intro s m v
  refine ⟨fun x hx => ?_, fun p c hc => ?_, fun p c hc => ?_, fun n => Gated.turnedAway ⟨_, rfl⟩,
    fun off h4 h hm => (gated_registerWrite h4 h hm).turnedAway,
    fun off be hbe h4 hup hcl => registerWrite_short hbe h4 hup hcl⟩
  · have hg : Gated x.1 s m x.2 v := by
      fin_cases hx <;> exact ⟨_, rfl⟩
    exact hg.turnedAway
  · have hg : Gated c s m (PRT_RST_CMD.off p.val) v := by
      fin_cases hc <;> exact ⟨_, rfl⟩
    exact hg.turnedAway
  · have hg : Gated c s m (LNK_CTL.off p.val) v := by
      fin_cases hc <;> exact ⟨_, rfl⟩
    exact hg.turnedAway

end Sys2Proof.Machine
end

-- Register reads

/-! PROOF of O30: what `State.regRead` answers for the low word of a read-only pair, for its high word, for another
register and for the indirect window, in the order of its branches. -/

section
namespace Sys2Proof.Machine

/-- The low words of the read-only pairs, block by block (R10). -/
theorem snapPair_iff (off : Nat) : snapPair off = true ↔
    off = 0xC ∨ off = 0x10014 ∨ (0x10100 ≤ off ∧ off < 0x10500 ∧ off % 0x40 = 8) ∨
    (0x20040 ≤ off ∧ off < 0x20060 ∧ off % 8 = 0) ∨ (0x80100 ≤ off ∧ off < 0x80500 ∧ off % 0x40 = 8) ∨
    (0x100000 ≤ off ∧ off < 0x110000 ∧ (off % 0x1000 = 0x70 ∨ off % 0x1000 = 0x78 ∨ off % 0x1000 = 0x80)) ∨
    (0x200000 ≤ off ∧ off < 0x300000 ∧ (off % 0x10000 = 0x1008 ∨ off % 0x10000 = 0x1010 ∨ off % 0x10000 = 0x4008 ∨
      off % 0x10000 = 0x4010 ∨ off % 0x10000 = 0x4018 ∨ off % 0x10000 = 0x4020)) := by
  simp only [snapPair, Bool.or_eq_true, Bool.and_eq_true, decide_eq_true_eq]
  simp only [HUB_SERIAL_LO.off, TCK_STEP_LO.off, TCK_SL_CTL.off, PWR_RES_ACT_LO.off, RIG_SL_STAT.off, LNK_CTL.off,
    Nat.reduceMul, Nat.reduceAdd, or_assoc, and_assoc]

/-- The word behind a low word is not a low word itself. -/
theorem snapPair_next {off : Nat} (h : snapPair off = true) : snapPair (off + 4) = false := by
  rw [← Bool.not_eq_true, snapPair_iff]
  rw [snapPair_iff] at h
  omega

/-- Whether an offset lies in the window of indirect access of a partition. -/
def inIndWin (off : Nat) : Bool :=
  decide (0x200000 ≤ off) && decide (off < 0x300000) && decide (0x7000 ≤ off % 0x10000) && decide (off % 0x10000 < 0x8000)

theorem inIndWin_iff (off : Nat) : inIndWin off = true ↔
    0x200000 ≤ off ∧ off < 0x300000 ∧ 0x7000 ≤ off % 0x10000 ∧ off % 0x10000 < 0x8000 := by
  simp only [inIndWin, Bool.and_eq_true, decide_eq_true_eq, and_assoc]

/-- A read of the hub, or of the host outside the partitions: neither permission, nor a partition's sluice, nor the staging
window stands in its way. -/
def State.readsOn (s : State) (m : Master) (off : Nat) : Prop :=
  s.mayRead true m off = true ∧ (m = 2 → off < 0x200000) ∧ off < 0x2000000

section
variable {s : State} {m : Master} {off : Nat} {a : IndAnswer}

theorem State.readsOn_hub (h : off < 0x2000000) : s.readsOn 0 off := ⟨rfl, fun e => absurd e (by decide), h⟩

/-- The branches of a read that neither permission nor a sluice nor the staging window ends. -/
theorem State.regRead_on (h : s.readsOn m off) : s.regRead true m off a =
    if inIndWin off then s.indRead m (off / 0x10000 % 16) (off % 0x10000 - 0x7000) a
    else if snapPair off then
      (s.view m off,
        if m = 2 then { s with snap2 := Store.put (fun _ => 0) s.snap2 (off + 4) (s.view m (off + 4)) }
        else { s with snap0 := Store.put (fun _ => 0) s.snap0 (off + 4) (s.view m (off + 4)) })
    else if 4 ≤ off && snapPair (off - 4) then (Store.get (fun _ => 0) (s.snap m) off, s)
    else if s.mbxDenied m off then (0, s.badWrite m off)
    else if MBX_RECV.off 0 0 ≤ off && off < MBX_RECV.off 256 0 && off % 0x80 = 0x3C then
      ((s.chanPtrs ((off - MBX_RECV.off 0 0) / 0x80)).view m off,
        (s.chanPtrs ((off - MBX_RECV.off 0 0) / 0x80)).chanPop ((off - MBX_RECV.off 0 0) / 0x80))
    else (s.view m off, s) := by
  obtain ⟨hmay, hhost, hlow⟩ := h
  unfold State.regRead
  dsimp only
  rw [if_neg (by simp [hmay]), if_neg, if_neg (by simp; omega)]
  · rfl
  · simp only [Bool.and_eq_true, decide_eq_true_eq]
    rintro ⟨⟨⟨hm, hge, -⟩, -⟩, -⟩
    have := hhost hm
    omega

theorem State.regRead_pair (h : s.readsOn m off) (hp : snapPair off = true) : s.regRead true m off a =
    (s.view m off,
      if m = 2 then { s with snap2 := Store.put (fun _ => 0) s.snap2 (off + 4) (s.view m (off + 4)) }
      else { s with snap0 := Store.put (fun _ => 0) s.snap0 (off + 4) (s.view m (off + 4)) }) := by
  rw [State.regRead_on h, if_neg, if_pos hp]
  rw [inIndWin_iff]
  rw [snapPair_iff] at hp
  omega

theorem State.regRead_high (h : s.readsOn m off) (h4 : 4 ≤ off) (hp : snapPair (off - 4) = true) :
    s.regRead true m off a = (Store.get (fun _ => 0) (s.snap m) off, s) := by
  have hlow : snapPair off = false := by
    have := snapPair_next hp
    rwa [Nat.sub_add_cancel h4] at this
  rw [State.regRead_on h, if_neg, if_neg (by simp [hlow]), if_pos (by simp [h4, hp])]
  rw [inIndWin_iff]
  rw [snapPair_iff] at hp
  omega

theorem State.mbxDenied_of_not_isMbx (h : isMbx off = false) : s.mbxDenied m off = false := by
  simp only [isMbx, Bool.and_eq_false_iff, decide_eq_false_iff_not] at h
  unfold State.mbxDenied
  rw [if_neg (by simp; omega), if_neg (by simp; omega), if_neg (by simp; omega)]

theorem State.regRead_plain (h : s.readsOn m off) (hb : off < 0x200000) (hlow : snapPair off = false)
    (hhigh : snapPair (off - 4) = false) (hm : isMbx off = false) : s.regRead true m off a = (s.view m off, s) := by
  have hrecv : ¬ (MBX_RECV.off 0 0 ≤ off && off < MBX_RECV.off 256 0 && off % 0x80 = 0x3C) = true := by
    simp only [isMbx, Bool.and_eq_false_iff, decide_eq_false_iff_not] at hm
    simp only [Bool.and_eq_true, decide_eq_true_eq]
    simp only [MBX_RECV.off]
    omega
  rw [State.regRead_on h, if_neg, if_neg (by simp [hlow]), if_neg (by simp [hhigh]),
    if_neg (by simp [State.mbxDenied_of_not_isMbx hm]), if_neg hrecv]
  rw [inIndWin_iff]
  omega

theorem State.regRead_indirect (p : PartId) (o : BitVec 12) :
    s.regRead true 0 (0x207000 + 0x10000 * p.val + o.toNat) a = s.indRead 0 p.val o.toNat a := by
  have hp := p.isLt
  have ho := o.isLt
  have hpart : (0x207000 + 0x10000 * p.val + o.toNat) / 0x10000 % 16 = p.val := by omega
  have hword : (0x207000 + 0x10000 * p.val + o.toNat) % 0x10000 - 0x7000 = o.toNat := by omega
  rw [State.regRead_on (State.readsOn_hub (by omega)), if_pos (by rw [inIndWin_iff]; omega), hpart, hword]

/-! ### The answer -/

/-- A read that the hub takes and the endpoint does not abort. -/
theorem State.readOut_eq (hup : s.hubUp = true) (hcl : (isFunction m.toNat && s.host.closed) = false) (h4 : off % 4 = 0)
    {v : Word} {t : State} (e : s.regRead true m off a = (v, t)) : s.readOut m off a = t.emit (.readData m off v) := by
  unfold State.readOut
  rw [if_neg (by simp [hup]), if_neg (by simp [hcl]), show off / 4 * 4 = off by omega, e]

theorem runs_snapshotRead {o : BitVec 26} {v : Word} {t : State} (hup : s.hubUp = true)
    (hcl : (isFunction m.toNat && s.host.closed) = false) (h4 : o.toNat % 4 = 0)
    (e : s.regRead true m o.toNat .ok = (v, t)) (hq : t.pending = s.pending) (hnow : t.now = s.now)
    (hf : t.fuses = s.fuses) : exec (.snapshotRead m o) s = .next (t.emit (.readData m o.toNat v)) := by
  have e' : exec (.snapshotRead m o) s = done s (s.readOut m o.toNat .ok) := rfl
  rw [e', State.readOut_eq hup hcl h4 e]
  exact done_of_kept hq hnow hf

theorem runs_indirectRead {p : PartId} {o : BitVec 12} {v : Word} {t : State} (hup : s.hubUp = true)
    (h4 : o.toNat % 4 = 0) (e : s.indRead 0 p.val o.toNat a = (v, t)) (hq : t.pending = s.pending)
    (hnow : t.now = s.now) (hf : t.fuses = s.fuses) :
    exec (.indirectRead 0 p o a) s = .next (t.emit (.readData 0 (0x207000 + 0x10000 * p.val + o.toNat) v)) := by
  have e' : exec (.indirectRead 0 p o a) s = done s (s.readOut 0 (0x207000 + 0x10000 * p.val + o.toNat) a) := rfl
  rw [e', State.readOut_eq hup rfl (by omega) ((State.regRead_indirect p o).trans e)]
  exact done_of_kept hq hnow hf

/-! ### Indirect reads of the hub (R488, R489) -/

theorem State.indRead_denied {p o : Nat} (h : s.indSel 0 p = none) :
    s.indRead 0 p o a = (0, s.fset (PRT_IND_STAT.DENIED p) 1) := by
  unfold State.indRead
  rw [h]
  rfl

theorem State.indRead_noResponse {p o : Nat} (h : (s.indSel 0 p).isSome = true)
    (ha : a = .noResponse ∨ s.indMute 0 p = true) :
    s.indRead 0 p o a = (0xFFFFFFFF, s.fset (PRT_IND_STAT.NORESP p) 1) := by
  obtain ⟨l, hl⟩ := Option.isSome_iff_exists.1 h
  have hno : (if s.indMute 0 p then IndAnswer.noResponse else a) = .noResponse := by
    rcases ha with rfl | hm
    · exact ite_self _
    · rw [if_pos hm]
  unfold State.indRead
  simp only [hl, hno]
  rfl

theorem State.indRead_ok {p o : Nat} {l : List Byte} (h : s.indSel 0 p = some l) (hm : s.indMute 0 p = false)
    (hobj : s.fget (PRT_IND_SEL.OBJ p) ≠ 3) :
    s.indRead 0 p o .ok = (BitVec.ofNat 32 (leAt l (4096 * s.fget (PRT_IND_OFF.PAGE p) + o) 4), s) := by
  have hword : s.indWord 0 p o = BitVec.ofNat 32 (leAt l (4096 * s.fget (PRT_IND_OFF.PAGE p) + o) 4) := by
    unfold State.indWord
    rw [h]
    rfl
  have hobj' : decide (s.mget 0 (PRT_IND_SEL.OBJ p) = 3) = false := decide_eq_false hobj
  unfold State.indRead
  simp only [h, hm, hword, hobj', Bool.false_and, Bool.false_eq_true, if_false]

end

theorem snapPair_lt {off : Nat} (hp : snapPair off = true) : off < 0x300000 := by
  rw [snapPair_iff] at hp
  omega

theorem State.flag_fset_one (s : State) {f : Fld} (hhi : f.hi < 32) (hw : f.lo = f.hi) : (s.fset f 1).flag f = true := by
  simp [State.flag, State.fget_fset_same s f 1 hhi, Fld.width, hw]

/-- Settles O30. -/
theorem registerReads : Obligations.RegisterReads := by
  unfold Obligations.RegisterReads
  intro s hup
  refine ⟨fun off h4 => ⟨fun hp => ?_, fun hge hp => ?_, fun hlow hhigh hm hb => ?_, fun hp hb hcl hmay => ?_⟩,
    fun p off h4 => ⟨fun a hsel => ?_, fun a hsel ha => ?_, fun l hsel hmute hobj => ?_⟩⟩
  · have hon := State.readsOn_hub (s := s) (Nat.lt_trans (snapPair_lt hp) (by decide))
    refine ⟨_, runs_snapshotRead hup rfl h4 (State.regRead_pair hon hp) rfl rfl rfl, rfl, ?_, fun o ho => ?_, rfl⟩
    · exact Store.get_put_same _ _ _ _
    · exact Store.get_put_other _ _ ho _
  · have hon : s.readsOn 0 off.toNat := State.readsOn_hub (by have := snapPair_lt hp; omega)
    exact ⟨_, runs_snapshotRead hup rfl h4 (State.regRead_high hon hge hp) rfl rfl rfl, rfl⟩
  · have hon : s.readsOn 0 off.toNat := State.readsOn_hub (by omega)
    exact ⟨_, runs_snapshotRead hup rfl h4 (State.regRead_plain hon hb hlow hhigh hm) rfl rfl rfl, rfl⟩
  · have hon : s.readsOn 2 off.toNat := ⟨hmay, fun _ => hb, by omega⟩
    refine ⟨_, runs_snapshotRead hup (by simp [hcl]) h4 (State.regRead_pair hon hp) rfl rfl rfl, rfl, ?_, rfl⟩
    exact Store.get_put_same _ _ _ _
  · refine ⟨_, runs_indirectRead hup h4 (State.indRead_denied hsel) rfl rfl rfl, rfl, ?_, rfl, fun o ho => ?_⟩
    · exact State.flag_fset_one s (show 0 < 32 by decide) rfl
    · exact State.reg_fset_other s _ _ ho
  · refine ⟨_, runs_indirectRead hup h4 (State.indRead_noResponse hsel ha) rfl rfl rfl, rfl, ?_, rfl, fun o ho => ?_⟩
    · exact State.flag_fset_one s (show 1 < 32 by decide) rfl
    · exact State.reg_fset_other s _ _ ho
  · exact ⟨_, runs_indirectRead hup h4 (State.indRead_ok hsel hmute hobj) rfl rfl rfl, rfl⟩

end Sys2Proof.Machine
end

-- Register writes by access code

/-! PROOF of O28. What a write stores in one field, in a register's fields one after the other, and in the register file
(R8, R9); then the registers with an effect of their own. -/

section
namespace Sys2Proof.Machine

/-! ### One field -/

/-- What a field holds after a write of `new` over `old` (R8); a locked field keeps what it holds (R9). -/
def FieldRow.stored (locked : Bool) (f : FieldRow) (old new : Nat) : Nat :=
  match f.acc with
  | .rw => new
  | .w1c => old - (old &&& new)
  | .w1s => old ||| new
  | .rwl => if locked then old else new
  | .ro | .wo | .rsv => old

/-- Whether a locked field refuses a write of `new` over `old` (R9). -/
def FieldRow.refuses (locked : Bool) (f : FieldRow) (old new : Nat) : Bool :=
  decide (f.acc = .rwl) && locked && (old != new)

section
variable {locked : Bool} {f g : FieldRow} {v w : Nat}

/-- A field shares no bit with another one. -/
def FieldRow.apart (f g : FieldRow) : Prop := g.hi < f.lo ∨ f.hi < g.lo

theorem bits_setBits_of_lt {x hi lo n : Nat} (h : n < 2 ^ (hi + 1 - lo)) : bits (setBits x hi lo n) hi lo = n := by
  rw [bits_setBits, Nat.mod_eq_of_lt h]

theorem FieldRow.bits_store : bits (f.store locked v w).1 f.hi f.lo =
    f.stored locked (bits w f.hi f.lo) (bits v f.hi f.lo) := by
  unfold FieldRow.store FieldRow.stored
  cases f.acc with
  | rw => exact bits_setBits_of_lt (bits_lt ..)
  | w1c => exact bits_setBits_of_lt (Nat.lt_of_le_of_lt (Nat.sub_le ..) (bits_lt ..))
  | w1s => exact bits_setBits_of_lt (Nat.or_lt_two_pow (bits_lt ..) (bits_lt ..))
  | rwl =>
    cases locked with
    | true => rfl
    | false => exact bits_setBits_of_lt (bits_lt ..)
  | ro | wo | rsv => rfl

theorem FieldRow.bits_store_apart (h : f.apart g) : bits (f.store locked v w).1 g.hi g.lo = bits w g.hi g.lo := by
  unfold FieldRow.store
  cases f.acc with
  | rw | w1c | w1s => exact bits_setBits_other _ _ _ _ _ _ h
  | rwl =>
    cases locked with
    | true => rfl
    | false => exact bits_setBits_other _ _ _ _ _ _ h
  | ro | wo | rsv => rfl

theorem FieldRow.store_refuses : (f.store locked v w).2 = f.refuses locked (bits w f.hi f.lo) (bits v f.hi f.lo) := by
  unfold FieldRow.store FieldRow.refuses
  cases f.acc <;> cases locked <;> simp

end

/-! ### The fields of a register -/

/-- A word and whether a field refused its write, after one more field. -/
def FieldRow.next (locked : Bool) (v : Nat) (x : Nat × Bool) (f : FieldRow) : Nat × Bool :=
  ((f.store locked v x.1).1, x.2 || (f.store locked v x.1).2)

theorem RegRow.store_eq (r : RegRow) (locked : Bool) (v w : Nat) :
    r.store locked v w = r.flds.foldl (FieldRow.next locked v) (w, false) := rfl

section
variable {locked : Bool} {v : Nat} {l : List FieldRow} {x : Nat × Bool}

theorem bits_foldl_next_apart {g : FieldRow} (h : ∀ f ∈ l, f.apart g) :
    bits (l.foldl (FieldRow.next locked v) x).1 g.hi g.lo = bits x.1 g.hi g.lo := by
  induction l generalizing x with
  | nil => rfl
  | cons f l ih =>
    rw [List.forall_mem_cons] at h
    rw [List.foldl_cons, ih h.2]
    exact FieldRow.bits_store_apart h.1

/-- Fields that lie one above the other are stored each by its own access code. -/
theorem bits_foldl_next (hl : l.Pairwise (fun f g => f.hi < g.lo)) {f : FieldRow} (hf : f ∈ l) :
    bits (l.foldl (FieldRow.next locked v) x).1 f.hi f.lo =
      f.stored locked (bits x.1 f.hi f.lo) (bits v f.hi f.lo) := by
  induction l generalizing x with
  | nil => cases hf
  | cons g l ih =>
    rw [List.pairwise_cons] at hl
    obtain ⟨hg, hl⟩ := hl
    rw [List.foldl_cons]
    rcases List.mem_cons.1 hf with rfl | hf
    · rw [bits_foldl_next_apart fun k hk => .inl (hg k hk)]
      exact FieldRow.bits_store
    · rw [ih hl hf]
      exact congrArg (f.stored locked · _) (FieldRow.bits_store_apart (.inr (hg f hf)))

theorem foldl_next_refuses (hl : l.Pairwise (fun f g => f.hi < g.lo))
    (h : ∀ f ∈ l, f.refuses locked (bits x.1 f.hi f.lo) (bits v f.hi f.lo) = false) :
    (l.foldl (FieldRow.next locked v) x).2 = x.2 := by
  induction l generalizing x with
  | nil => rfl
  | cons g l ih =>
    rw [List.pairwise_cons] at hl
    rw [List.forall_mem_cons] at h
    obtain ⟨hg, hl⟩ := hl
    obtain ⟨hrg, hr⟩ := h
    have hkeep : ∀ f ∈ l, bits (FieldRow.next locked v x g).1 f.hi f.lo = bits x.1 f.hi f.lo := fun f hf =>
      FieldRow.bits_store_apart (.inr (hg f hf))
    rw [List.foldl_cons, ih hl fun f hf => by rw [hkeep f hf]; exact hr f hf]
    rw [FieldRow.next, FieldRow.store_refuses, hrg, Bool.or_false]

end

/-- The fields of a row lie one above the other in a word. -/
def RegRow.regular (r : RegRow) : Bool :=
  decide (r.flds.Pairwise (fun f g => f.hi < g.lo)) && r.flds.all (fun f => decide (f.hi < 32))

theorem regRows_regular : regRows.all RegRow.regular = true := by
  decide +kernel

theorem mem_regRows {off : Nat} {r : RegRow} (h : regRow? off = some r) : r ∈ regRows ∧ r.covers off = true := by
  unfold regRow? at h
  exact ⟨List.mem_of_find?_eq_some h, by simpa using List.find?_some h⟩

/-! ### A register -/

section
variable {s : State} {m : Master} {off : Nat} {v : Word} {r : RegRow}

theorem regRow_pairwise (h : regRow? off = some r) : r.flds.Pairwise (fun f g => f.hi < g.lo) := by
  have hr := List.all_eq_true.1 regRows_regular r (mem_regRows h).1
  simp only [RegRow.regular, Bool.and_eq_true, decide_eq_true_eq] at hr
  exact hr.1

theorem regRow_hi_lt (h : regRow? off = some r) {f : FieldRow} (hf : f ∈ r.flds) : f.hi < 32 := by
  have hr := List.all_eq_true.1 regRows_regular r (mem_regRows h).1
  simp only [RegRow.regular, Bool.and_eq_true, List.all_eq_true, decide_eq_true_eq] at hr
  exact hr.2 f hf

/-- No field of the register at an offset refuses a write of `v`. -/
def State.storable (s : State) (off : Nat) (v : Word) : Prop :=
  ∀ r, regRow? off = some r → ∀ f ∈ r.flds,
    f.refuses (s.lockedAt off) (bits (s.reg off).toNat f.hi f.lo) (bits v.toNat f.hi f.lo) = false

theorem State.store_eq (h : regRow? off = some r) (hs : s.storable off v) :
    s.store m off v =
      s.setReg off (BitVec.ofNat 32 (r.store (s.lockedAt off) v.toNat (s.reg off).toNat).1) := by
  have hbad : (r.store (s.lockedAt off) v.toNat (s.reg off).toNat).2 = false := by
    rw [RegRow.store_eq]
    exact foldl_next_refuses (regRow_pairwise h) (hs r h)
  unfold State.store
  simp only [h, hbad, Bool.false_eq_true, if_false]

/-- Each field of a register after a write that none of them refuses. -/
theorem State.bits_store (h : regRow? off = some r) (hs : s.storable off v) {f : FieldRow} (hf : f ∈ r.flds) :
    bits ((s.store m off v).reg off).toNat f.hi f.lo =
      f.stored (s.lockedAt off) (bits (s.reg off).toNat f.hi f.lo) (bits v.toNat f.hi f.lo) := by
  rw [State.store_eq h hs, State.reg_setReg_same, BitVec.toNat_ofNat, bits_mod _ _ _ (regRow_hi_lt h hf),
    RegRow.store_eq]
  exact bits_foldl_next (regRow_pairwise h) hf

theorem OnlyRegs.setReg (s : State) (off : Nat) (w : Word) : OnlyRegs [off] s (s.setReg off w) :=
  ⟨rfl, fun _ ho => State.reg_setReg_other s (by simpa using ho) w⟩

theorem State.store_only (h : regRow? off = some r) (hs : s.storable off v) : OnlyRegs [off] s (s.store m off v) := by
  rw [State.store_eq h hs]
  exact .setReg ..

theorem OnlyRegs.done {l : List Nat} {s t : State} (h : OnlyRegs l s t) : done s t = .next t := by
  obtain ⟨e, -⟩ := h
  exact done_of_kept (e ▸ rfl) (e ▸ rfl) (e ▸ rfl)

/-- A field of a register's row. -/
def Fld.row (f : Fld) (acc : Access) (rst : Nat) (ret : Retain) : FieldRow := ⟨f.hi, f.lo, acc, rst, ret⟩

/-- A named field after a write that no field refuses. -/
theorem State.fget_store {f : Fld} {acc : Access} {rst : Nat} {ret : Retain} (h : regRow? f.reg = some r)
    (hs : s.storable f.reg v) (hf : f.row acc rst ret ∈ r.flds) :
    (s.store m f.reg v).fget f = (f.row acc rst ret).stored (s.lockedAt f.reg) (s.fget f) (f.of v) :=
  State.bits_store h hs hf

/-- A command that spells an admitted register write answers its effect. -/
theorem runs_admitted {c : Instr} {f : State → State} {P : State → Prop} (h : s.admits m off v = true)
    (e : exec c s = done s (s.gate true m off v f)) (hd : done s (f s) = .next (f s)) (hP : P (f s)) : Runs c s P := by
  rw [State.gate_admits h, hd] at e
  exact ⟨_, e, hP⟩

end

/-! ### Registers without an effect of their own -/

theorem RegRow.le_of_covers {r : RegRow} {off : Nat} (h : r.covers off = true) :
    r.base ≤ off ∧ off ≤ r.base + (r.n1 - 1) * r.s1 + (r.n2 - 1) * r.s2 := by
  simp only [RegRow.covers, Bool.and_eq_true, decide_eq_true_eq] at h
  obtain ⟨hbase, hn2, he⟩ := h
  refine ⟨hbase, ?_⟩
  generalize (if r.s1 = 0 then 0 else (off - r.base) / r.s1) = i at *
  have hi : (if i < r.n1 then i else r.n1 - 1) ≤ r.n1 - 1 := by
    split <;> omega
  generalize (if i < r.n1 then i else r.n1 - 1) = i at *
  generalize (if r.s2 = 0 then 0 else (off - r.base - i * r.s1) / r.s2) = j at *
  have h1 : i * r.s1 ≤ (r.n1 - 1) * r.s1 := Nat.mul_le_mul_right _ hi
  have h2 : j * r.s2 ≤ (r.n2 - 1) * r.s2 := Nat.mul_le_mul_right _ (by omega)
  omega

/-- Where a row with a lockable field lies: outside the recorder and security blocks, and in the rigging block at RIG_CTL
alone. -/
def RegRow.lockPlace (r : RegRow) : Bool :=
  r.flds.all (fun f => decide (f.acc ≠ .rwl)) ||
    decide (r.base + (r.n1 - 1) * r.s1 + (r.n2 - 1) * r.s2 < 0x40000) ||
    (decide (0x50000 ≤ r.base) && decide (r.base + (r.n1 - 1) * r.s1 + (r.n2 - 1) * r.s2 < 0x60000)) ||
    (decide (0x80000 ≤ r.base) && decide (r.base + (r.n1 - 1) * r.s1 + (r.n2 - 1) * r.s2 ≤ 0x80000)) ||
    decide (0xA0000 ≤ r.base)

theorem regRows_lockPlace : regRows.all RegRow.lockPlace = true := by
  decide +kernel

/-- The offsets of the recorder, security and rigging blocks whose write only stores. -/
def plainWrite (off : Nat) : Prop :=
  (0x40000 ≤ off ∧ off < 0x50000 ∧ off ≠ EVR_PAGE.off) ∨
    (0x60000 ≤ off ∧ off < 0x70000 ∧ off ≠ SEC_FW_CMD.off ∧ off ≠ SEC_AUTH_CMD.off) ∨
    (0x80000 ≤ off ∧ off < 0xA0000 ∧ off ≠ RIG_CMD.off ∧ off ≠ RIG_CTL.off)

theorem plainWrite.acc_ne_rwl {off : Nat} {r : RegRow} (ho : plainWrite off) (h : regRow? off = some r)
    {f : FieldRow} (hf : f ∈ r.flds) : f.acc ≠ .rwl := by
  obtain ⟨hr, hc⟩ := mem_regRows h
  have hle := RegRow.le_of_covers hc
  have hp := List.all_eq_true.1 regRows_lockPlace r hr
  simp only [RegRow.lockPlace, Bool.or_eq_true, Bool.and_eq_true, List.all_eq_true, decide_eq_true_eq] at hp
  have hctl : RIG_CTL.off = 0x80000 := rfl
  unfold plainWrite at ho
  rcases hp with (((hno | hp) | hp) | hp) | hp
  · exact hno f hf
  all_goals omega

theorem plainWrite.storable {s : State} {off : Nat} {v : Word} (ho : plainWrite off) : s.storable off v :=
  fun r h f hf => by simp [FieldRow.refuses, ho.acc_ne_rwl h hf]

theorem State.putReg_plain {s : State} {m : Master} {off : Nat} {v : Word} (ho : plainWrite off) :
    s.putReg m off v = s.store m off v := by
  unfold State.putReg
  rcases ho with ⟨h1, h2, h3⟩ | ⟨h1, h2, h3, h4⟩ | ⟨h1, h2, h3, h4⟩
  · rw [if_neg (by omega), if_neg (by omega), if_neg (by omega), if_neg (by omega), if_pos h2, if_neg h3]
  · rw [if_neg (by omega), if_neg (by omega), if_neg (by omega), if_neg (by omega), if_neg (by omega),
      if_neg (by omega), if_neg h3, if_neg h4, if_pos (by omega)]
  · have hfw : off ≠ SEC_FW_CMD.off := by have : SEC_FW_CMD.off = 0x60000 := rfl; omega
    have hauth : off ≠ SEC_AUTH_CMD.off := by have : SEC_AUTH_CMD.off = 0x60018 := rfl; omega
    rw [if_neg (by omega), if_neg (by omega), if_neg (by omega), if_neg (by omega), if_neg (by omega),
      if_neg (by omega), if_neg hfw, if_neg hauth, if_neg (by omega), if_neg h3, if_neg h4, if_pos h2]

theorem exec_registerWrite_plain {s : State} {m : Master} {off : BitVec 26} {v : Word} (h4 : off.toNat % 4 = 0)
    (ho : plainWrite off.toNat) : exec (.registerWrite m off 0xF v) s =
      done s (s.gate true m off.toNat v (fun s => s.store m off.toNat v)) := by
  have e : exec (.registerWrite m off 0xF v) s = done s (s.regWrite m off.toNat 0xF v) := rfl
  have hcmd : FAB_CMD.off = 0xA3014 := rfl
  have hmbx : isMbx off.toNat = false := by
    simp only [isMbx, Bool.and_eq_false_iff, decide_eq_false_iff_not]
    unfold plainWrite at ho
    omega
  have hput : (fun s : State => s.putReg m off.toNat v) = fun s => s.store m off.toNat v :=
    funext fun s => State.putReg_plain ho
  unfold plainWrite at ho
  rw [e, regWrite_word h4, if_neg (by simp), if_neg (by omega), State.regPut_eq_gate true (by omega) hmbx, hput]

theorem FieldRow.stored_of_ne_rwl {f : FieldRow} (h : f.acc ≠ .rwl) (locked : Bool) (old new : Nat) :
    f.stored locked old new =
      (match f.acc with
        | .rw => new
        | .w1c => old - (old &&& new)
        | .w1s => old ||| new
        | _ => old) := by
  unfold FieldRow.stored
  cases e : f.acc with
  | rwl => exact absurd e h
  | rw | w1c | w1s | ro | wo | rsv => rfl

/-! ### Registers with an effect of their own -/

section
variable {s : State} {m : Master} {v : Word}

/-- No field refuses a write where the register has no lock. -/
theorem State.storable_of_unlocked {off : Nat} (h : s.lockedAt off = false) : s.storable off v :=
  fun r _ f _ => by simp [FieldRow.refuses, h]

theorem Fld.of_lt (f : Fld) (w : Word) : f.of w < 2 ^ f.width := bits_lt ..

/-- A field of a word reads what was written to it where that fits. -/
theorem Fld.of_into_of_lt {f : Fld} {w : Word} {n : Nat} (h : f.hi < 32) (hn : n < 2 ^ f.width) : f.of (f.into w n) = n := by
  rw [Fld.of_into f w n h, Nat.mod_eq_of_lt hn]

/-! ### Registers with a lock -/

/-- A locked field that keeps its value refuses nothing; no other field can. -/
theorem State.storable_of_lock {f : Fld} {r : RegRow} (hrow : regRow? f.reg = some r)
    (hone : ∀ g ∈ r.flds, g.acc = .rwl → g.hi = f.hi ∧ g.lo = f.lo)
    (h : s.lockedAt f.reg = true → f.of v = s.fget f) : s.storable f.reg v := by
  intro r' hrow' g hg
  obtain rfl : r = r' := Option.some.inj (hrow.symm.trans hrow')
  unfold FieldRow.refuses
  by_cases hacc : g.acc = .rwl
  · obtain ⟨hhi, hlo⟩ := hone g hg hacc
    cases hl : s.lockedAt f.reg with
    | false => simp
    | true =>
      have hsame : bits (s.reg f.reg).toNat f.hi f.lo = bits v.toNat f.hi f.lo := (h hl).symm
      simp [hhi, hlo, hsame]
  · simp [hacc]

/-- A lockable field takes a value that its lock lets pass. -/
theorem FieldRow.stored_rwl {f : FieldRow} {locked : Bool} {old new : Nat} (hacc : f.acc = .rwl)
    (h : locked = true → new = old) : f.stored locked old new = new := by
  unfold FieldRow.stored
  rw [hacc]
  cases locked with
  | true => exact (h rfl).symm
  | false => rfl

theorem State.fget_store_rw {f : Fld} {r : RegRow} {rst : Nat} {ret : Retain} (hrow : regRow? f.reg = some r)
    (hs : s.storable f.reg v) (hf : f.row .rw rst ret ∈ r.flds) : (s.store m f.reg v).fget f = f.of v :=
  State.fget_store hrow hs hf

theorem State.fget_store_rwl {f : Fld} {r : RegRow} {rst : Nat} {ret : Retain} (hrow : regRow? f.reg = some r)
    (hs : s.storable f.reg v) (hf : f.row .rwl rst ret ∈ r.flds)
    (h : s.lockedAt f.reg = true → f.of v = s.fget f) : (s.store m f.reg v).fget f = f.of v :=
  (State.fget_store hrow hs hf).trans (FieldRow.stored_rwl rfl h)

/-- A lock bit stands once set. -/
theorem State.flag_store_w1s {f : Fld} {r : RegRow} {rst : Nat} {ret : Retain} (hrow : regRow? f.reg = some r)
    (hs : s.storable f.reg v) (hf : f.row .w1s rst ret ∈ r.flds) (hw : f.width = 1) :
    (s.store m f.reg v).flag f = (s.flag f || decide (f.of v = 1)) := by
  have hval : (s.store m f.reg v).fget f = s.fget f ||| f.of v := State.fget_store hrow hs hf
  have hold : s.fget f < 2 := (f.of_lt (s.reg f.reg)).trans_eq (by rw [hw]; rfl)
  have hnew : f.of v < 2 := (f.of_lt v).trans_eq (by rw [hw]; rfl)
  unfold State.flag
  rw [hval]
  interval_cases s.fget f <;> interval_cases f.of v <;> rfl

/-- The row of FAB_MGR_CTL (R337). -/
def mgrCtlRow : RegRow := ⟨0xA3000, 1, 0, 1, 0, .hub,
  [FAB_MGR_CTL.MAN_REQ_SIG.row .rwl 0 .aon, FAB_MGR_CTL.DISC_TMO.row .rw 0xA .mod,
   FAB_MGR_CTL.HB_LEAD.row .rw 0x3E8 .mod, FAB_MGR_CTL.LOCK.row .w1s 0 .aon]⟩

theorem regRow_mgrCtl : regRow? FAB_MGR_CTL.off = some mgrCtlRow := by
  decide +kernel

/-- The word that a write of FAB_MGR_CTL stores. -/
def mgrCtlWord (v : Word) : Word := FAB_MGR_CTL.HB_LEAD.clamp 16 4095 (FAB_MGR_CTL.DISC_TMO.clamp 1 255 v)

theorem mgrCtlWord_low {f : Fld} (hhi : f.hi < 4) : f.of (mgrCtlWord v) = f.of v := by
  unfold mgrCtlWord Fld.clamp
  rw [Fld.of_into_other _ _ _ _ (by omega) (.inl (show f.hi < 12 by omega)),
    Fld.of_into_other _ _ _ _ (by omega) (.inl hhi)]

theorem mgrCtlWord_high {f : Fld} (hlo : 23 < f.lo) (hhi : f.hi < 32) : f.of (mgrCtlWord v) = f.of v := by
  unfold mgrCtlWord Fld.clamp
  rw [Fld.of_into_other _ _ _ _ hhi (.inr hlo), Fld.of_into_other _ _ _ _ hhi (.inr (show 11 < f.lo by omega))]

theorem mgrCtlWord_discTmo : FAB_MGR_CTL.DISC_TMO.of (mgrCtlWord v) = max 1 (FAB_MGR_CTL.DISC_TMO.of v) := by
  have hlt : FAB_MGR_CTL.DISC_TMO.of v < 256 := Fld.of_lt ..
  unfold mgrCtlWord Fld.clamp
  rw [Fld.of_into_other _ _ _ _ (by decide) (.inl (by decide)),
    Fld.of_into_of_lt (by decide) (show _ < 256 by omega)]
  omega

theorem mgrCtlWord_hbLead : FAB_MGR_CTL.HB_LEAD.of (mgrCtlWord v) = max 16 (FAB_MGR_CTL.HB_LEAD.of v) := by
  have hlt : FAB_MGR_CTL.HB_LEAD.of v < 4096 := Fld.of_lt ..
  unfold mgrCtlWord Fld.clamp
  rw [Fld.of_into_of_lt (by decide) (show _ < 4096 by omega),
    Fld.of_into_other _ _ _ _ (by decide) (.inr (by decide))]
  omega

/-- A write of FAB_MGR_CTL that its lock does not refuse. -/
theorem State.mgrCtl_stored
    (h : s.flag FAB_MGR_CTL.LOCK = true → FAB_MGR_CTL.MAN_REQ_SIG.of v = s.fget FAB_MGR_CTL.MAN_REQ_SIG) :
    (s.mgrCtl m v).fget FAB_MGR_CTL.MAN_REQ_SIG = FAB_MGR_CTL.MAN_REQ_SIG.of v ∧
      (s.mgrCtl m v).fget FAB_MGR_CTL.DISC_TMO = max 1 (FAB_MGR_CTL.DISC_TMO.of v) ∧
      (s.mgrCtl m v).fget FAB_MGR_CTL.HB_LEAD = max 16 (FAB_MGR_CTL.HB_LEAD.of v) ∧
      (s.mgrCtl m v).flag FAB_MGR_CTL.LOCK = (s.flag FAB_MGR_CTL.LOCK || decide (FAB_MGR_CTL.LOCK.of v = 1)) ∧
      OnlyRegs [FAB_MGR_CTL.off] s (s.mgrCtl m v) := by
  have e : s.mgrCtl m v = s.store m FAB_MGR_CTL.off (mgrCtlWord v) := rfl
  have hlock : s.lockedAt FAB_MGR_CTL.off = true →
      FAB_MGR_CTL.MAN_REQ_SIG.of (mgrCtlWord v) = s.fget FAB_MGR_CTL.MAN_REQ_SIG := fun hl =>
    (mgrCtlWord_low (by decide)).trans (h hl)
  have hs : s.storable FAB_MGR_CTL.off (mgrCtlWord v) :=
    State.storable_of_lock (f := FAB_MGR_CTL.MAN_REQ_SIG) regRow_mgrCtl (by decide) hlock
  rw [e]
  refine ⟨?_, ?_, ?_, ?_, State.store_only regRow_mgrCtl hs⟩
  · exact (State.fget_store_rwl (f := FAB_MGR_CTL.MAN_REQ_SIG) regRow_mgrCtl hs (.head _) hlock).trans
      (mgrCtlWord_low (by decide))
  · exact (State.fget_store_rw (f := FAB_MGR_CTL.DISC_TMO) regRow_mgrCtl hs (.tail _ (.head _))).trans mgrCtlWord_discTmo
  · exact (State.fget_store_rw (f := FAB_MGR_CTL.HB_LEAD) regRow_mgrCtl hs (.tail _ (.tail _ (.head _)))).trans
      mgrCtlWord_hbLead
  · rw [← mgrCtlWord_high (f := FAB_MGR_CTL.LOCK) (by decide) (by decide)]
    exact State.flag_store_w1s (f := FAB_MGR_CTL.LOCK) regRow_mgrCtl hs
      (.tail _ (.tail _ (.tail _ (.head _)))) rfl

/-- The row of RIG_CTL (R198). -/
def rigCtlRow : RegRow := ⟨0x80000, 1, 0, 1, 0, .hubHost,
  [RIG_CTL.REQ_SIG.row .rwl 0 .aon, RIG_CTL.WARM_EN.row .rw 1 .mod, RIG_CTL.LEAD.row .rw 0x40 .mod,
   RIG_CTL.TMO.row .rw 0x3C .mod, RIG_CTL.LOCK.row .w1s 0 .aon]⟩

theorem regRow_rigCtl : regRow? RIG_CTL.off = some rigCtlRow := by
  decide +kernel

/-- A written word with LEAD held to at least 16. -/
def rigLeadWord (v : Word) : Word := RIG_CTL.LEAD.into v (max 16 (RIG_CTL.LEAD.of v))

/-- The word that a write of RIG_CTL stores. -/
def rigCtlWord (v : Word) : Word := RIG_CTL.TMO.into (rigLeadWord v) (max 1 (RIG_CTL.TMO.of (rigLeadWord v)))

theorem rigCtlWord_apart {f : Fld} (h : f.hi < 8 ∨ 27 < f.lo) (hhi : f.hi < 32) : f.of (rigCtlWord v) = f.of v := by
  unfold rigCtlWord rigLeadWord
  rw [Fld.of_into_other _ _ _ _ hhi (show f.hi < 20 ∨ 27 < f.lo by omega),
    Fld.of_into_other _ _ _ _ hhi (show f.hi < 8 ∨ 19 < f.lo by omega)]

theorem rigCtlWord_lead : RIG_CTL.LEAD.of (rigCtlWord v) = max 16 (RIG_CTL.LEAD.of v) := by
  have hlt : RIG_CTL.LEAD.of v < 4096 := Fld.of_lt ..
  unfold rigCtlWord rigLeadWord
  rw [Fld.of_into_other _ _ _ _ (by decide) (.inl (by decide)),
    Fld.of_into_of_lt (by decide) (show _ < 4096 by omega)]

theorem rigCtlWord_tmo : RIG_CTL.TMO.of (rigCtlWord v) = max 1 (RIG_CTL.TMO.of v) := by
  have hlt : RIG_CTL.TMO.of v < 256 := Fld.of_lt ..
  have hlead : RIG_CTL.TMO.of (rigLeadWord v) = RIG_CTL.TMO.of v :=
    Fld.of_into_other _ _ _ _ (by decide) (.inr (by decide))
  unfold rigCtlWord
  rw [hlead, Fld.of_into_of_lt (by decide) (show _ < 256 by omega)]

/-- A write of RIG_CTL that its lock does not refuse. -/
theorem State.rigCtl_stored (h : s.flag RIG_CTL.LOCK = true → RIG_CTL.REQ_SIG.of v = s.fget RIG_CTL.REQ_SIG) :
    (s.rigCtl m v).fget RIG_CTL.REQ_SIG = RIG_CTL.REQ_SIG.of v ∧
      (s.rigCtl m v).fget RIG_CTL.WARM_EN = RIG_CTL.WARM_EN.of v ∧
      (s.rigCtl m v).fget RIG_CTL.LEAD = max 16 (RIG_CTL.LEAD.of v) ∧
      (s.rigCtl m v).fget RIG_CTL.TMO = max 1 (RIG_CTL.TMO.of v) ∧
      (s.rigCtl m v).flag RIG_CTL.LOCK = (s.flag RIG_CTL.LOCK || decide (RIG_CTL.LOCK.of v = 1)) ∧
      OnlyRegs [RIG_CTL.off] s (s.rigCtl m v) := by
  have e : s.rigCtl m v = s.store m RIG_CTL.off (rigCtlWord v) := rfl
  have hlock : s.lockedAt RIG_CTL.off = true → RIG_CTL.REQ_SIG.of (rigCtlWord v) = s.fget RIG_CTL.REQ_SIG := fun hl =>
    (rigCtlWord_apart (.inl (by decide)) (by decide)).trans (h hl)
  have hs : s.storable RIG_CTL.off (rigCtlWord v) :=
    State.storable_of_lock (f := RIG_CTL.REQ_SIG) regRow_rigCtl (by decide) hlock
  rw [e]
  refine ⟨?_, ?_, ?_, ?_, ?_, State.store_only regRow_rigCtl hs⟩
  · exact (State.fget_store_rwl (f := RIG_CTL.REQ_SIG) regRow_rigCtl hs (.head _) hlock).trans
      (rigCtlWord_apart (.inl (by decide)) (by decide))
  · exact (State.fget_store_rw (f := RIG_CTL.WARM_EN) regRow_rigCtl hs (.tail _ (.head _))).trans
      (rigCtlWord_apart (.inl (by decide)) (by decide))
  · exact (State.fget_store_rw (f := RIG_CTL.LEAD) regRow_rigCtl hs (.tail _ (.tail _ (.head _)))).trans rigCtlWord_lead
  · exact (State.fget_store_rw (f := RIG_CTL.TMO) regRow_rigCtl hs (.tail _ (.tail _ (.tail _ (.head _))))).trans
      rigCtlWord_tmo
  · rw [← rigCtlWord_apart (f := RIG_CTL.LOCK) (.inr (by decide)) (by decide)]
    exact State.flag_store_w1s (f := RIG_CTL.LOCK) regRow_rigCtl hs
      (.tail _ (.tail _ (.tail _ (.tail _ (.head _))))) rfl

/-! ### Feature floor, clock, measurements and residency -/

theorem State.floorSet_up (h : s.fget HUB_FEAT_FLOOR.FLOOR ≤ HUB_FEAT_FLOOR.FLOOR.of v) :
    (s.floorSet m v).fget HUB_FEAT_FLOOR.FLOOR = HUB_FEAT_FLOOR.FLOOR.of v ∧
      OnlyRegs [HUB_FEAT_FLOOR.off] s (s.floorSet m v) := by
  have hrow : regRow? HUB_FEAT_FLOOR.off = some ⟨0x14, 1, 0, 1, 0, .hub, [⟨15, 0, .rw, 0, .aon⟩]⟩ := by decide +kernel
  have hs : s.storable HUB_FEAT_FLOOR.off v := State.storable_of_unlocked rfl
  rw [State.floorSet, if_neg (by omega)]
  exact ⟨State.fget_store_rw (f := HUB_FEAT_FLOOR.FLOOR) hrow hs (.head _), State.store_only hrow hs⟩

theorem State.floorSet_down (h : HUB_FEAT_FLOOR.FLOOR.of v < s.fget HUB_FEAT_FLOOR.FLOOR) :
    s.floorSet m v = s.badWrite m HUB_FEAT_FLOOR.off := by
  rw [State.floorSet, if_pos h]

theorem State.clkSet_step (h : s.clockLow (s.clockOf (PWR_CLK_SET.CLK.of v)) = false) :
    (s.clkSet m v).fget PWR_CLK_SET.CLK = s.clockOf (PWR_CLK_SET.CLK.of v) ∧
      OnlyRegs [PWR_CLK_SET.off] s (s.clkSet m v) := by
  have hrow : regRow? PWR_CLK_SET.off = some ⟨0x2000C, 1, 0, 1, 0, .hubHost, [⟨11, 0, .rw, 0, .mod⟩]⟩ := by
    decide +kernel
  have hlt : PWR_CLK_SET.CLK.of v < 4096 := Fld.of_lt ..
  have hfit : s.clockOf (PWR_CLK_SET.CLK.of v) < 4096 := by
    unfold State.clockOf
    dsimp only
    omega
  have hs {w : Word} : s.storable PWR_CLK_SET.off w := State.storable_of_unlocked rfl
  rw [State.clkSet, if_neg (by simp [h])]
  exact ⟨(State.fget_store_rw (f := PWR_CLK_SET.CLK) hrow hs (.head _)).trans (Fld.of_into_of_lt (by decide) hfit),
    State.store_only hrow hs⟩

theorem State.clkSet_low (h : s.clockLow (s.clockOf (PWR_CLK_SET.CLK.of v)) = true) :
    s.clkSet m v = s.refuse PWR_CLK_SET.off := by
  rw [State.clkSet, if_pos h]

theorem State.pwrCtl_meas (hmeas : PWR_CTL.CLR_MEAS.of v = 1) (hres : PWR_CTL.CLR_RES.of v = 0) :
    s.pwrCtl m v = (s.fset PWR_VIN.MIN (s.fget PWR_VIN.NOW)).fset PWR_PIN.MAX (s.fget PWR_PIN.NOW) := by
  unfold State.pwrCtl
  rw [if_pos hmeas, if_pos hres]

theorem State.measurements_restarted :
    ((s.fset PWR_VIN.MIN (s.fget PWR_VIN.NOW)).fset PWR_PIN.MAX (s.fget PWR_PIN.NOW)).fget PWR_VIN.MIN =
        s.fget PWR_VIN.NOW ∧
      ((s.fset PWR_VIN.MIN (s.fget PWR_VIN.NOW)).fset PWR_PIN.MAX (s.fget PWR_PIN.NOW)).fget PWR_PIN.MAX =
        s.fget PWR_PIN.NOW ∧
      OnlyRegs [PWR_VIN.off, PWR_PIN.off] s
        ((s.fset PWR_VIN.MIN (s.fget PWR_VIN.NOW)).fset PWR_PIN.MAX (s.fget PWR_PIN.NOW)) := by
  have hvin : s.fget PWR_VIN.NOW < 2 ^ PWR_VIN.MIN.width := Fld.of_lt ..
  have hpin : s.fget PWR_PIN.NOW < 2 ^ PWR_PIN.MAX.width := Fld.of_lt ..
  refine ⟨?_, ?_, rfl, fun o ho => ?_⟩
  · rw [State.fget_fset_reg _ _ _ _ (by decide), State.fget_fset_same _ _ _ (by decide), Nat.mod_eq_of_lt hvin]
  · rw [State.fget_fset_same _ _ _ (by decide), Nat.mod_eq_of_lt hpin]
  · simp only [List.mem_cons, List.not_mem_nil, or_false, not_or] at ho
    rw [State.reg_fset_other _ _ _ ho.2, State.reg_fset_other _ _ _ ho.1]

/-- The residency counters zeroed (R401). -/
def State.resZeroed (s : State) : State :=
  (((s.setPair 0x20040 0).setPair 0x20048 0).setPair 0x20050 0).setPair 0x20058 0

theorem regsOnly_trans {s t u : State} (h : t = { s with regs := t.regs }) (k : u = { t with regs := u.regs }) :
    u = { s with regs := u.regs } := by
  rw [h] at k
  exact k

theorem State.setPair_regsOnly (s : State) (lo v : Nat) : s.setPair lo v = { s with regs := (s.setPair lo v).regs } :=
  rfl

theorem State.resZeroed_regsOnly : s.resZeroed = { s with regs := s.resZeroed.regs } :=
  regsOnly_trans (regsOnly_trans (regsOnly_trans (State.setPair_regsOnly ..) (State.setPair_regsOnly ..))
    (State.setPair_regsOnly ..)) (State.setPair_regsOnly ..)

theorem State.each_resZeroed : s.each 4 (fun i s => s.setPair (PWR_RES_ACT_LO.off + 8 * i) 0) = s.resZeroed := rfl

theorem State.pair_resZeroed {i : Nat} (h : i < 4) : s.resZeroed.pair (PWR_RES_ACT_LO.off + 8 * i) = 0 := by
  rw [show PWR_RES_ACT_LO.off = 0x20040 from rfl]
  interval_cases i <;> simp [State.resZeroed, State.pair, State.setPair, State.reg_setReg]

theorem State.reg_resZeroed {o : Nat} (h : ¬ (PWR_RES_ACT_LO.off ≤ o ∧ o < PWR_RES_ACT_LO.off + 32)) :
    s.resZeroed.reg o = s.reg o := by
  rw [show PWR_RES_ACT_LO.off = 0x20040 from rfl] at h
  unfold State.resZeroed
  rw [State.reg_setPair_other _ _ _ (by omega) (by omega), State.reg_setPair_other _ _ _ (by omega) (by omega),
    State.reg_setPair_other _ _ _ (by omega) (by omega), State.reg_setPair_other _ _ _ (by omega) (by omega)]

/-- The state after CLR_RES (R401): a snapshot of a zeroed counter reads 0. -/
def State.resCleared (s : State) : State :=
  let t := s.resZeroed.unsnap (fun off => PWR_RES_ACT_LO.off ≤ off && off < PWR_RES_ACT_LO.off + 32)
  { t.setReg PWR_ENTRIES.off 0 with pwr := { t.pwr with stateAt := t.now } }

theorem State.resCleared_eq : s.resCleared =
    { s with
      regs := s.resCleared.regs, snap0 := s.resCleared.snap0, snap2 := s.resCleared.snap2
      pwr := { s.pwr with stateAt := s.now } } := by
  unfold State.resCleared State.unsnap State.setReg
  rw [State.resZeroed_regsOnly]

theorem State.resCleared_done : done s s.resCleared = .next s.resCleared := by
  have e := s.resCleared_eq
  exact done_of_kept (by rw [e]) (by rw [e]) (by rw [e])

theorem State.pwrCtl_res (hmeas : PWR_CTL.CLR_MEAS.of v = 0) (hres : PWR_CTL.CLR_RES.of v = 1) :
    s.pwrCtl 0 v = s.resCleared := by
  have hmeas' : ¬ PWR_CTL.CLR_MEAS.of v = 1 := by rw [hmeas]; decide
  have hres' : ¬ PWR_CTL.CLR_RES.of v = 0 := by rw [hres]; decide
  unfold State.pwrCtl
  simp only [if_neg hmeas', if_neg hres', ne_eq, not_true_eq_false, if_false, State.each_resZeroed]
  rfl

theorem State.reg_resCleared (o : Nat) :
    s.resCleared.reg o = if o = PWR_ENTRIES.off then 0 else s.resZeroed.reg o :=
  State.reg_setReg (s.resZeroed.unsnap _) PWR_ENTRIES.off o 0

theorem State.pair_resCleared {i : Nat} (h : i < 4) : s.resCleared.pair (PWR_RES_ACT_LO.off + 8 * i) = 0 := by
  have hlo : PWR_RES_ACT_LO.off + 8 * i ≠ PWR_ENTRIES.off := by
    simp only [PWR_RES_ACT_LO.off, PWR_ENTRIES.off]
    omega
  have hhi : PWR_RES_ACT_LO.off + 8 * i + 4 ≠ PWR_ENTRIES.off := by
    simp only [PWR_RES_ACT_LO.off, PWR_ENTRIES.off]
    omega
  rw [← State.pair_resZeroed (s := s) h]
  simp only [State.pair, State.reg_resCleared, if_neg hlo, if_neg hhi]

end

/-- Settles O28. -/
theorem registerWrites : Obligations.RegisterWrites := by
  unfold Obligations.RegisterWrites
  intro s m v
  refine ⟨fun off r h4 hrow ho hadm => ?_, fun hadm hup => ?_, fun hadm hdown => ?_, fun hadm hlock => ?_,
    fun hadm hlock => ?_, fun hadm => ⟨fun hok => ?_, fun hlow => ?_⟩, fun hadm hmeas hres => ?_,
    fun hadm hmeas hres => ?_⟩
  · have hplain : plainWrite off.toNat := ho
    have honly := State.store_only (m := m) hrow (hplain.storable (s := s) (v := v))
    refine runs_admitted hadm (exec_registerWrite_plain h4 hplain) honly.done ⟨fun f hf => ?_, honly⟩
    exact (State.bits_store hrow hplain.storable hf).trans
      (FieldRow.stored_of_ne_rwl (hplain.acc_ne_rwl hrow hf) ..)
  · obtain ⟨hfloor, honly⟩ := State.floorSet_up (m := m) hup
    exact runs_admitted hadm rfl honly.done ⟨hfloor, honly⟩
  · have h := FaultOnly.badWrite s m HUB_FEAT_FLOOR.off
    rw [← State.floorSet_down hdown] at h
    exact runs_admitted hadm rfl h.done h
  · obtain ⟨hsig, htmo, hlead, hlk, honly⟩ := State.mgrCtl_stored (m := m) hlock
    exact runs_admitted hadm rfl honly.done ⟨hsig, htmo, hlead, hlk, honly⟩
  · obtain ⟨hsig, hwarm, hlead, htmo, hlk, honly⟩ := State.rigCtl_stored (m := m) hlock
    exact runs_admitted hadm rfl honly.done ⟨hsig, hwarm, hlead, htmo, hlk, honly⟩
  · obtain ⟨hclk, honly⟩ := State.clkSet_step (m := m) hok
    exact runs_admitted hadm rfl honly.done ⟨hclk, honly⟩
  · have h := FaultOnly.refuse s PWR_CLK_SET.off
    rw [← State.clkSet_low (m := m) hlow] at h
    exact runs_admitted hadm rfl h.done h
  · have h := State.measurements_restarted (s := s)
    rw [← State.pwrCtl_meas (m := m) hmeas hres] at h
    obtain ⟨hvin, hpin, honly⟩ := h
    exact runs_admitted hadm rfl honly.done ⟨hvin, hpin, honly⟩
  · have e := State.pwrCtl_res (s := s) hmeas hres
    refine runs_admitted hadm rfl (e ▸ State.resCleared_done) (e ▸ ⟨fun i hi => State.pair_resCleared hi, ?_,
      State.resCleared_eq, fun o hres hent => ?_⟩)
    · rw [State.reg_resCleared, if_pos rfl]
    · rw [State.reg_resCleared, if_neg hent, State.reg_resZeroed hres]

end Sys2Proof.Machine
end

-- Canonical form of LPDDR5 and of the register file

/-! SUPPORT and PROOFS of O59 and O60. Every function of the model that gives a state keeps the canonical form of LPDDR5
and of the register file: one lemma per function, `State.Canon.f` for `State.f`, in the model's order. A state enters a
function as a hypothesis `h : s.Canon`; the lemmas compose along the functions' calls, so a proof spells the branches of
the body and what each of them calls. -/

section
namespace Sys2Proof.Machine

/-! ### Two canonical stores that read alike -/

/-- A key below the first listed one reads as an unlisted key. -/
theorem Store.get_of_wfFrom_of_lt {α : Type} [DecidableEq α] {d : Nat → α} {l : Store α} {lo k : Nat}
    (h : Store.wfFrom d lo l = true) (hk : k < lo) : Store.get d l k = d k := by
  induction l generalizing lo with
  | nil => rfl
  | cons e l ih =>
    obtain ⟨a, v⟩ := e
    simp only [Store.wfFrom, Bool.and_eq_true, decide_eq_true_eq] at h
    obtain ⟨⟨hlo, -⟩, hl⟩ := h
    rw [Store.get, if_neg (by omega)]
    exact ih hl (by omega)

/-- A listed key does not read as an unlisted one. -/
theorem Store.get_head_ne {α : Type} [DecidableEq α] {d : Nat → α} {l : Store α} {lo a : Nat} {v : α}
    (h : Store.wfFrom d lo ((a, v) :: l) = true) : Store.get d ((a, v) :: l) a ≠ d a := by
  simp only [Store.wfFrom, Bool.and_eq_true, decide_eq_true_eq] at h
  obtain ⟨⟨-, hv⟩, -⟩ := h
  simpa [Store.get] using hv

/-- The tails of two canonical stores with the same first entry read alike where the stores do. -/
theorem Store.get_tail_eq {α : Type} [DecidableEq α] {d : Nat → α} {l l' : Store α} {a : Nat} {v : α}
    (hl : Store.wfFrom d (a + 1) l = true) (hl' : Store.wfFrom d (a + 1) l' = true)
    (h : ∀ k, Store.get d ((a, v) :: l) k = Store.get d ((a, v) :: l') k) (k : Nat) :
    Store.get d l k = Store.get d l' k := by
  by_cases e : a = k
  · rw [Store.get_of_wfFrom_of_lt hl (by omega), Store.get_of_wfFrom_of_lt hl' (by omega)]
  · simpa [Store.get, e] using h k

theorem Store.eq_of_wfFrom {α : Type} [DecidableEq α] {d : Nat → α} {l l' : Store α} {lo lo' : Nat}
    (hl : Store.wfFrom d lo l = true) (hl' : Store.wfFrom d lo' l' = true)
    (h : ∀ k, Store.get d l k = Store.get d l' k) : l = l' := by
  induction l generalizing l' lo lo' with
  | nil =>
    cases l' with
    | nil => rfl
    | cons e' l' => exact absurd (h e'.1).symm (Store.get_head_ne hl')
  | cons e l ih =>
    obtain ⟨a, v⟩ := e
    cases l' with
    | nil => exact absurd (h a) (Store.get_head_ne hl)
    | cons e' l' =>
      obtain ⟨b, w⟩ := e'
      have hne := Store.get_head_ne hl
      have hne' := Store.get_head_ne hl'
      simp only [Store.wfFrom, Bool.and_eq_true, decide_eq_true_eq] at hl hl'
      obtain ⟨-, htl⟩ := hl
      obtain ⟨-, htl'⟩ := hl'
      -- the smaller of the two first keys would be listed in one store only
      have hab : a = b := by
        rcases Nat.lt_trichotomy a b with hlt | heq | hgt
        · refine absurd ?_ hne
          rw [h a, Store.get, if_neg (by omega), Store.get_of_wfFrom_of_lt htl' (by omega)]
        · exact heq
        · refine absurd ?_ hne'
          rw [← h b, Store.get, if_neg (by omega), Store.get_of_wfFrom_of_lt htl (by omega)]
      subst hab
      have hvw : v = w := by simpa [Store.get] using h a
      subst hvw
      rw [ih htl htl' (Store.get_tail_eq htl htl' h)]

/-! ### The invariant -/

/-- LPDDR5 and the register file are in canonical form. -/
structure State.Canon (s : State) : Prop where
  mem : Memory.wf s.mem
  regs : Store.wf regReset s.regs = true

section
variable {s t : State}

theorem State.Canon.ite {c : Prop} [Decidable c] {a b : State} (ha : a.Canon) (hb : b.Canon) :
    (if c then a else b).Canon := by
  split <;> assumption

theorem State.Canon.ite_fst {α} {c : Prop} [Decidable c] {a b : State × α} (ha : a.1.Canon) (hb : b.1.Canon) :
    (if c then a else b).1.Canon := by
  split <;> assumption

theorem State.Canon.ite_snd {α} {c : Prop} [Decidable c] {a b : α × State} (ha : a.2.Canon) (hb : b.2.Canon) :
    (if c then a else b).2.Canon := by
  split <;> assumption

theorem State.Canon.of_fst {α} {p : State × α} {x : α} (e : p = (t, x)) (h : p.1.Canon) : t.Canon := by
  subst e
  exact h

theorem State.Canon.of_snd {α} {p : α × State} {x : α} (e : p = (x, t)) (h : p.2.Canon) : t.Canon := by
  subst e
  exact h

theorem State.Canon.foldl {α} {l : List α} {f : State → α → State} (h : s.Canon)
    (hf : ∀ s a, s.Canon → (f s a).Canon) : (l.foldl f s).Canon := by
  induction l generalizing s with
  | nil => exact h
  | cons a l ih => exact ih (hf _ _ h)

theorem State.Canon.foldl_fst {α β} {l : List α} {f : State × β → α → State × β} {x : State × β} (h : x.1.Canon)
    (hf : ∀ x a, x.1.Canon → (f x a).1.Canon) : (l.foldl f x).1.Canon := by
  induction l generalizing x with
  | nil => exact h
  | cons a l ih => exact ih (hf _ _ h)

theorem State.Canon.eachOf {α : Type} {l : List α} {f : α → State → State} (h : s.Canon)
    (hf : ∀ a s, s.Canon → (f a s).Canon) : (State.eachOf l f s).Canon :=
  h.foldl fun _ _ h => hf _ _ h

theorem State.Canon.setReg {off v} (h : s.Canon) : (s.setReg off v).Canon :=
  ⟨h.mem, State.setReg_regs_wf _ _ _ h.regs⟩

/-- What a function that may give no state gives is in canonical form. -/
def CanonOpt (o : Option State) : Prop := ∀ t, o = some t → t.Canon

theorem CanonOpt.none : CanonOpt none := fun _ e => by cases e

theorem CanonOpt.some (h : s.Canon) : CanonOpt (some s) := fun _ e => by
  cases e
  exact h

theorem CanonOpt.ite {c : Prop} [Decidable c] {a b : Option State} (ha : CanonOpt a) (hb : CanonOpt b) :
    CanonOpt (if c then a else b) := by
  split <;> assumption

theorem CanonOpt.map {α} {o : Option α} {f : α → State} (hf : ∀ a, (f a).Canon) : CanonOpt (o.map f) := by
  cases o
  · exact .none
  · exact .some (hf _)

theorem CanonOpt.bind {α} {o : Option α} {f : α → Option State} (hf : ∀ a, CanonOpt (f a)) : CanonOpt (o.bind f) := by
  cases o
  · exact .none
  · exact hf _

/-! ### The fields outside LPDDR5 and the register file -/

theorem State.Canon.upd_now {x} (h : s.Canon) : { s with now := x }.Canon := ⟨h.mem, h.regs⟩
theorem State.Canon.upd_draws {x} (h : s.Canon) : { s with draws := x }.Canon := ⟨h.mem, h.regs⟩
theorem State.Canon.upd_out {x} (h : s.Canon) : { s with out := x }.Canon := ⟨h.mem, h.regs⟩
theorem State.Canon.upd_priv2 {x} (h : s.Canon) : { s with priv2 := x }.Canon := ⟨h.mem, h.regs⟩
theorem State.Canon.upd_snap0 {x} (h : s.Canon) : { s with snap0 := x }.Canon := ⟨h.mem, h.regs⟩
theorem State.Canon.upd_snap2 {x} (h : s.Canon) : { s with snap2 := x }.Canon := ⟨h.mem, h.regs⟩
theorem State.Canon.upd_tick {x} (h : s.Canon) : { s with tick := x }.Canon := ⟨h.mem, h.regs⟩
theorem State.Canon.upd_ctx {x} (h : s.Canon) : { s with ctx := x }.Canon := ⟨h.mem, h.regs⟩
theorem State.Canon.upd_core {x} (h : s.Canon) : { s with core := x }.Canon := ⟨h.mem, h.regs⟩
theorem State.Canon.upd_clus {x} (h : s.Canon) : { s with clus := x }.Canon := ⟨h.mem, h.regs⟩
theorem State.Canon.upd_eng {x} (h : s.Canon) : { s with eng := x }.Canon := ⟨h.mem, h.regs⟩
theorem State.Canon.upd_chan {x} (h : s.Canon) : { s with chan := x }.Canon := ⟨h.mem, h.regs⟩
theorem State.Canon.upd_part {x} (h : s.Canon) : { s with part := x }.Canon := ⟨h.mem, h.regs⟩
theorem State.Canon.upd_rtr {x} (h : s.Canon) : { s with rtr := x }.Canon := ⟨h.mem, h.regs⟩
theorem State.Canon.upd_port {x} (h : s.Canon) : { s with port := x }.Canon := ⟨h.mem, h.regs⟩
theorem State.Canon.upd_fab {x} (h : s.Canon) : { s with fab := x }.Canon := ⟨h.mem, h.regs⟩
theorem State.Canon.upd_mgr {x} (h : s.Canon) : { s with mgr := x }.Canon := ⟨h.mem, h.regs⟩
theorem State.Canon.upd_flt {x} (h : s.Canon) : { s with flt := x }.Canon := ⟨h.mem, h.regs⟩
theorem State.Canon.upd_evr {x} (h : s.Canon) : { s with evr := x }.Canon := ⟨h.mem, h.regs⟩
theorem State.Canon.upd_sec {x} (h : s.Canon) : { s with sec := x }.Canon := ⟨h.mem, h.regs⟩
theorem State.Canon.upd_nor {x} (h : s.Canon) : { s with nor := x }.Canon := ⟨h.mem, h.regs⟩
theorem State.Canon.upd_att {x} (h : s.Canon) : { s with att := x }.Canon := ⟨h.mem, h.regs⟩
theorem State.Canon.upd_mbx {x} (h : s.Canon) : { s with mbx := x }.Canon := ⟨h.mem, h.regs⟩
theorem State.Canon.upd_pwr {x} (h : s.Canon) : { s with pwr := x }.Canon := ⟨h.mem, h.regs⟩
theorem State.Canon.upd_rst {x} (h : s.Canon) : { s with rst := x }.Canon := ⟨h.mem, h.regs⟩
theorem State.Canon.upd_host {x} (h : s.Canon) : { s with host := x }.Canon := ⟨h.mem, h.regs⟩
theorem State.Canon.upd_smb {x} (h : s.Canon) : { s with smb := x }.Canon := ⟨h.mem, h.regs⟩
theorem State.Canon.upd_pins {x} (h : s.Canon) : { s with pins := x }.Canon := ⟨h.mem, h.regs⟩

/-! ### The functions of Sys2Proof/Machine/Ops.lean -/

theorem State.Canon.fset {f v} (h : s.Canon) : (s.fset f v).Canon := h.setReg

theorem State.Canon.fcount {f n} (h : s.Canon) : (s.fcount f n).Canon := h.fset

theorem State.Canon.setPair {lo v} (h : s.Canon) : (s.setPair lo v).Canon := h.setReg.setReg

theorem State.Canon.emit {o} (h : s.Canon) : (s.emit o).Canon := h.upd_out

theorem State.Canon.fresh (h : s.Canon) : s.fresh.2.Canon := h.upd_draws

theorem State.Canon.modCx {n f} (h : s.Canon) : (s.modCx n f).Canon := h.upd_ctx

theorem State.Canon.modCo {k f} (h : s.Canon) : (s.modCo k f).Canon := h.upd_core

theorem State.Canon.modCl {k f} (h : s.Canon) : (s.modCl k f).Canon := h.upd_clus

theorem State.Canon.modTree {k r f} (h : s.Canon) : (s.modTree k r f).Canon := h.modCl

theorem State.Canon.modEn {k f} (h : s.Canon) : (s.modEn k f).Canon := h.upd_eng

theorem State.Canon.modCh {k f} (h : s.Canon) : (s.modCh k f).Canon := h.upd_chan

theorem State.Canon.modPt {p f} (h : s.Canon) : (s.modPt p f).Canon := h.upd_part

theorem State.Canon.modRt {k f} (h : s.Canon) : (s.modRt k f).Canon := h.upd_rtr

theorem State.Canon.modPo {p f} (h : s.Canon) : (s.modPo p f).Canon := h.upd_port

theorem State.Canon.modMb {c f} (h : s.Canon) : (s.modMb c f).Canon := h.upd_mbx

theorem State.Canon.each {n f} (h : s.Canon) (hf : ∀ a0 s, s.Canon → (f a0 s).Canon) : (s.each n f).Canon :=
  h.foldl fun _ _ h => hf _ _ h

theorem State.Canon.memWrite {a bs} (h : s.Canon) : (s.memWrite a bs).Canon := ⟨State.memWrite_wf _ _ _ h.mem, h.regs⟩

/-! ### The functions of Sys2Proof/Machine/Faults.lean -/

theorem State.Canon.putEvr {seq ws} (h : s.Canon) : (s.putEvr seq ws).Canon := h.upd_evr

theorem State.Canon.record {code sev inj cls p0 p1 p2} (h : s.Canon) : (s.record code sev inj cls p0 p1 p2).Canon :=
  .ite h.putEvr.fset h.putEvr.fset

theorem State.Canon.event {code p0 p1 p2} (h : s.Canon) : (s.event code p0 p1 p2).Canon := h.record

theorem State.Canon.irq {v} (h : s.Canon) : (s.irq v).Canon := .ite h (.ite h.fset.emit h.fset)

theorem State.Canon.alertPin (h : s.Canon) : s.alertPin.Canon := h.upd_pins

theorem State.Canon.alert {b} (h : s.Canon) : (s.alert b).Canon := .ite h h.upd_smb.alertPin

theorem State.Canon.pulse (h : s.Canon) : s.pulse.Canon := by
  unfold State.pulse
  extract_lets _ _ s1
  have h1 : s1.Canon := ⟨h.mem, h.regs⟩
  exact h1.fset.fcount

theorem State.Canon.setSrc {i e} (h : s.Canon) : (s.setSrc i e).Canon := h.upd_flt.fset

theorem State.Canon.srcExits (h : s.Canon) : s.srcExits.Canon := h.foldl fun _ _ h => .ite h.setSrc h

theorem State.Canon.count {f cls} (h : s.Canon) : (s.count f cls).2.Canon := by
  unfold State.count
  extract_lets s1
  have h1 : s1.Canon := h.srcExits
  split
  · exact .ite_snd h1.setSrc (.ite_snd h1.setSrc h1.setSrc)
  · split
    · exact h1.setSrc
    · split
      · exact h1.setSrc
      · exact h1.fset

theorem State.Canon.dumpStart {grave code src} (h : s.Canon) : (s.dumpStart grave code src).Canon :=
  .ite h h.upd_flt.fset.fset

theorem State.Canon.graveLatch {f} (h : s.Canon) : (s.graveLatch f).Canon := by
  unfold State.graveLatch
  extract_lets _ s1 _ s2 s3 s4 s5
  have h1 : s1.Canon := .ite h.fset.fset h
  have h2 : s2.Canon := .ite h1.upd_flt h1
  have h3 : s3.Canon := h2.fset
  have h4 : s4.Canon := h3.each fun _ _ h => .ite h.modCx h
  have h5 : s5.Canon := h4.alert
  exact .ite h5.dumpStart h5

theorem State.Canon.promoted {f} (h : s.Canon) : (s.promoted f).Canon := by
  unfold State.promoted
  extract_lets
  refine .ite h (.ite ?_ (.ite ?_ h))
  · split
    · exact h
    · split
      · exact h
      · exact h.modPt
  · split
    · exact h
    · exact h.modPt

theorem State.Canon.enqueue {f cls stale held} (h : s.Canon) : (s.enqueue f cls stale held).Canon :=
  .ite h.upd_flt h.fcount

theorem State.Canon.recordFault {f cls stale} (h : s.Canon) : (s.recordFault f cls stale).Canon := .ite h h.record

theorem State.Canon.signal {f cls} (h : s.Canon) : (s.signal f cls).Canon := by
  unfold State.signal
  extract_lets s1 s2 s3
  have h1 : s1.Canon := .ite h.irq h
  have h2 : s2.Canon := .ite h1.pulse h1
  have h3 : s3.Canon := .ite h2.alert h2
  exact .ite h3.dumpStart h3

theorem State.Canon.classify {f cls0 stale held} (h : s.Canon) : (s.classify f cls0 stale held).Canon := by
  unfold State.classify
  extract_lets
  split
  rename_i _ s1 e
  have h1 : s1.Canon := .of_snd e (.ite_snd h.count h)
  extract_lets s2 s3 s4 s5 s6
  have h2 : s2.Canon := .ite h1.promoted h1
  have h3 : s3.Canon := h2.enqueue
  have h4 : s4.Canon := h3.fcount
  have h5 : s5.Canon := h4.recordFault
  have h6 : s6.Canon := h5.signal
  exact .ite h6.graveLatch h6

theorem State.Canon.hold {f k} (h : s.Canon) : (s.hold f k).Canon := h.upd_flt

theorem State.Canon.take {f} (h : s.Canon) : (s.take f).Canon := by
  unfold State.take
  refine .ite h.classify ?_
  split
  · exact h.classify
  · split
    · exact h.hold
    · exact h.classify

theorem State.Canon.raise {code src addr arg} (h : s.Canon) : (s.raise code src addr arg).Canon := h.take

theorem State.Canon.raiseAs {cls code src addr arg} (h : s.Canon) : (s.raiseAs cls code src addr arg).Canon :=
  h.classify

theorem State.Canon.raiseFor {key code src addr arg} (h : s.Canon) : (s.raiseFor key code src addr arg).Canon :=
  h.hold

theorem State.Canon.raiseLost {n code src addr arg} (h : s.Canon) : (s.raiseLost n code src addr arg).Canon :=
  .ite h.raiseFor h.raiseAs

theorem State.Canon.badWrite {m off} (h : s.Canon) : (s.badWrite m off).Canon := h.raise

theorem State.Canon.refuse {off} (h : s.Canon) : (s.refuse off).Canon := h.raise

theorem State.Canon.settle {p cls} (h : s.Canon) : (s.settle p cls).Canon := h.upd_flt.foldl fun _ _ h => h.classify

theorem State.Canon.settleTick {n cls} (h : s.Canon) : (s.settleTick n cls).Canon := h.settle

theorem State.Canon.settleHold {n} (h : s.Canon) : (s.settleHold n).Canon := h.settle

theorem State.Canon.settleAction {key cls} (h : s.Canon) : (s.settleAction key cls).Canon := h.settle

theorem State.Canon.setFrz {i e} (h : s.Canon) : (s.setFrz i e).Canon := h.upd_flt

theorem State.Canon.freeze {kind slice src rec_} (h : s.Canon) : (s.freeze kind slice src rec_).Canon := by
  unfold State.freeze
  refine .ite h ?_
  split
  · exact h.setFrz
  · exact .ite h.setFrz h

theorem State.Canon.releaseFrz {p} (h : s.Canon) : (s.releaseFrz p).Canon := h.upd_flt

/-! ### The functions of Sys2Proof/Machine/Access.lean -/

theorem State.Canon.store {m off v} (h : s.Canon) : (s.store m off v).Canon := by
  unfold State.store
  split
  · exact h
  · exact .ite h.setReg.badWrite h.setReg

theorem State.Canon.gate {direct m off v f} (h : s.Canon) (hf : ∀ s, s.Canon → (f s).Canon) :
    (s.gate direct m off v f).Canon :=
  .ite h (.ite (hf _ h) h.badWrite)

theorem State.Canon.unsnap {p} (h : s.Canon) : (s.unsnap p).Canon := ⟨h.mem, h.regs⟩

theorem State.Canon.setMreg {m off v} (h : s.Canon) : (s.setMreg m off v).Canon := .ite h.upd_priv2 h.setReg

/-! ### The functions of Sys2Proof/Machine/Mailbox.lean -/

theorem State.Canon.notify {m v} (h : s.Canon) : (s.notify m v).Canon := .ite (.ite h.emit h) (.ite h.alert h)

theorem State.Canon.chanFlag {c f} (h : s.Canon) : (s.chanFlag c f).Canon := .ite h (.ite h.fset.notify h.fset)

theorem State.Canon.chanEmpty {c} (h : s.Canon) : (s.chanEmpty c).Canon := .ite h h.modMb.chanFlag

theorem State.Canon.chanBroken {c} (h : s.Canon) : (s.chanBroken c).Canon := h.modMb.chanFlag.raise

theorem State.Canon.chanPtrs {c} (h : s.Canon) : (s.chanPtrs c).Canon := .ite h h.chanBroken

theorem State.Canon.chanPost {c ws} (h : s.Canon) : (s.chanPost c ws).Canon := by
  unfold State.chanPost
  extract_lets s1 _ _ _ _ _ s2 s3 s4
  have h1 : s1.Canon := h.chanPtrs
  have h2 : s2.Canon := h1.modMb
  have h3 : s3.Canon := .ite h2 h2.chanFlag
  have h4 : s4.Canon := .ite h3.chanFlag h3
  exact .ite h1.chanFlag.chanFlag (.ite h4.alert (.ite h4.notify h4))

theorem State.Canon.chanPop {c} (h : s.Canon) : (s.chanPop c).Canon := h.chanPtrs.modMb

theorem State.Canon.advGen {m} (h : s.Canon) : (s.advGen m).Canon := by
  unfold State.advGen
  extract_lets _ s1
  have h1 : s1.Canon := h.setReg
  refine h1.each fun _ _ h2 => .ite ?_ h2
  extract_lets s3
  have h3 : s3.Canon := .ite h2.chanEmpty h2
  exact .ite h3.modMb h3

theorem State.Canon.dbRing {d v} (h : s.Canon) : (s.dbRing d v).Canon := .ite h.setReg.notify h.setReg

theorem State.Canon.mbxCtl {m v} (h : s.Canon) : (s.mbxCtl m v).Canon :=
  .ite h.badWrite (.ite h (.ite h.fset h.refuse))

theorem State.Canon.sendWrite {m c w v} (h : s.Canon) : (s.sendWrite m c w v).Canon :=
  .ite h (.ite h.badWrite (.ite h.modMb.chanPost h.modMb))

theorem State.Canon.recvRead {m c} (h : s.Canon) : (s.recvRead m c).Canon :=
  .ite h (.ite h.emit.badWrite h.chanPtrs.emit.chanPop)

/-! ### The functions of Sys2Proof/Machine/Packets.lean -/

theorem State.Canon.queueAt {r inp vc p} (h : s.Canon) : (s.queueAt r inp vc p).Canon := h.modRt

theorem State.Canon.hubSend {p} (h : s.Canon) : (s.hubSend p).Canon := h.queueAt

theorem State.Canon.mgtSend {mod code body} (h : s.Canon) : (s.mgtSend mod code body).Canon := h.upd_mgr.hubSend

theorem State.Canon.mgtCast {pos code body} (h : s.Canon) : (s.mgtCast pos code body).Canon := h.upd_mgr.hubSend

theorem State.Canon.portQueue {port ch p} (h : s.Canon) : (s.portQueue port ch p).Canon := h.modPo

theorem State.Canon.mgtReply {p via body} (h : s.Canon) : (s.mgtReply p via body).Canon := by
  unfold State.mgtReply
  extract_lets
  split
  · exact .ite h.portQueue h.hubSend
  · exact h.hubSend

theorem State.Canon.mgtReject {p} (h : s.Canon) : (s.mgtReject p).Canon := h.fcount.raise

theorem State.Canon.mgtStale {p via} (h : s.Canon) : (s.mgtStale p via).Canon := h.fcount.mgtReply

theorem State.Canon.postEvent {ws} (h : s.Canon) : (s.postEvent ws).Canon := by
  unfold State.postEvent
  extract_lets _ _ _ s1
  have h1 : s1.Canon := h.upd_mgr
  refine .ite h ?_
  split
  · exact .ite h1.chanPost h1
  · exact h1

theorem State.Canon.sliceEvent {code slice who cause} (h : s.Canon) : (s.sliceEvent code slice who cause).Canon :=
  .ite h.postEvent (.ite h.mgtSend h)

/-! ### The functions of Sys2Proof/Machine/Asks.lean -/

theorem State.Canon.modMgr {f} (h : s.Canon) : (s.modMgr f).Canon := h.upd_mgr

theorem State.Canon.modPq {q f} (h : s.Canon) : (s.modPq q f).Canon := h.modMgr

theorem State.Canon.routeOut {p} (h : s.Canon) : (s.routeOut p).Canon := .ite h.portQueue h

theorem State.Canon.mgtAskBy {route mod code job host body} (h : s.Canon) :
    (s.mgtAskBy route mod code job host body).Canon :=
  .ite h.modMgr.routeOut h.modMgr.hubSend

theorem State.Canon.mgtAsk {mod code job host body} (h : s.Canon) : (s.mgtAsk mod code job host body).Canon :=
  h.mgtAskBy

theorem State.Canon.journal {kind job data} (h : s.Canon) : (s.journal kind job data).Canon := by
  unfold State.journal
  split
  · exact h
  · exact .ite h h.modMgr.mgtAsk

theorem State.Canon.nameStep {host job} (h : s.Canon) : (s.nameStep host job).Canon := h.modMgr.journal

theorem State.Canon.cancelStep (h : s.Canon) : s.cancelStep.Canon := .ite h.modMgr.journal h

/-! ### The functions of Sys2Proof/Machine/Slice.lean -/

theorem State.Canon.holdAt {n cause} (h : s.Canon) : (s.holdAt n cause).Canon := h.modCx

theorem State.Canon.ctlAll {m} (h : s.Canon) : (s.ctlAll m).Canon := h.each fun _ _ h => .ite h.modPo h

theorem State.Canon.addRepair {n r} (h : s.Canon) : (s.addRepair n r).Canon := h.cancelStep.modCx

theorem State.Canon.waitRepairs {n} (h : s.Canon) : (s.waitRepairs n).Canon :=
  h.eachOf (fun _ _ h => h.eachOf (fun _ _ h => h.addRepair))

theorem State.Canon.abortTick {n cause} (h : s.Canon) : (s.abortTick n cause).Canon := by
  unfold State.abortTick
  refine .ite h ?_
  extract_lets _ s1 s2
  have h1 : s1.Canon := h.fset.modCx
  have h2 : s2.Canon := .ite h1.waitRepairs h1
  exact .ite h2.ctlAll h2

theorem State.Canon.abortHold {n cause} (h : s.Canon) : (s.abortHold n cause).Canon := h.abortTick.holdAt

theorem State.Canon.treeSwitch {n rid f} (h : s.Canon) : (s.treeSwitch n rid f).Canon :=
  h.eachOf (fun _ _ h => h.each (fun _ _ h => h.each (fun _ _ h => .ite h.modTree h)))

theorem State.Canon.endRepair {n r} (h : s.Canon) : (s.endRepair n r).Canon := by
  unfold State.endRepair
  extract_lets s1
  have h1 : s1.Canon := by
    unfold s1
    split
    · exact .ite h.treeSwitch h
    · exact h
  exact h1.modCx

theorem State.Canon.repaired {r} (h : s.Canon) : (s.repaired r).Canon := h.each fun _ _ h => h.endRepair

theorem State.Canon.resolveTile {a flip} (h : s.Canon) : (s.resolveTile a flip).Canon := h.memWrite

theorem State.Canon.resolvePend {k flip} (h : s.Canon) : (s.resolvePend k flip).Canon :=
  h.eachOf fun _ _ h => h.resolveTile

theorem State.Canon.treeResult {n k i r} (h : s.Canon) : (s.treeResult n k i r).Canon :=
  .ite (h.eachOf (fun _ _ h => h.memWrite)) h

theorem State.Canon.treesEnd {n commit} (h : s.Canon) : (s.treesEnd n commit).Canon :=
  h.eachOf (fun _ _ h => h.each (fun _ _ h => h.each (fun _ _ h => .ite h.treeResult.modTree h.modTree)))

theorem State.Canon.commitUnits {n} (h : s.Canon) : (s.commitUnits n).Canon :=
  ((h.eachOf (fun _ _ h => h.modCo)).eachOf (fun _ _ h => h.resolvePend.modEn)).treesEnd.setPair.modCx

theorem State.Canon.redoUnits {n} (h : s.Canon) : (s.redoUnits n).Canon :=
  ((h.eachOf (fun _ _ h => h.modCo)).eachOf (fun _ _ h => h.resolvePend.modEn)).treesEnd.modCx

theorem State.Canon.setSlState {n st} (h : s.Canon) : (s.setSlState n st).Canon := h.fset.fset

theorem State.Canon.enterHold {n cause open_} (h : s.Canon) : (s.enterHold n cause open_).Canon :=
  h.settleHold.setSlState.fset.modCx.sliceEvent

theorem State.Canon.holdNow {n cause} (h : s.Canon) : (s.holdNow n cause).Canon := .ite h.enterHold h

/-! ### The functions of Sys2Proof/Machine/Flags.lean -/

theorem State.Canon.numberTrap {n src index raiser flags} (h : s.Canon) :
    (s.numberTrap n src index raiser flags).Canon :=
  .ite h ((h.eachOf (fun _ _ h => h.raise)).holdAt)

theorem State.Canon.coreFlags {n k trap f} (h : s.Canon) : (s.coreFlags n k trap f).Canon := h.modCo.numberTrap

theorem State.Canon.engFlags {n k job trapPoison trapSat f} (h : s.Canon) :
    (s.engFlags n k job trapPoison trapSat f).Canon :=
  (State.Canon.ite (State.Canon.ite h.fset h).fset (State.Canon.ite h.fset h)).numberTrap

theorem State.Canon.treeFlags {n k r trapPoison trapSat f} (h : s.Canon) :
    (s.treeFlags n k r trapPoison trapSat f).Canon :=
  h.modTree.numberTrap

/-! ### The functions of Sys2Proof/Machine/Spares.lean -/

theorem State.Canon.retire {p u} (h : s.Canon) : (s.retire p u).Canon := h.modPt

theorem State.Canon.unitFailed {p u code cause src} (h : s.Canon) : (s.unitFailed p u code cause src).Canon := by
  unfold State.unitFailed
  extract_lets _ _ s1 s2
  have h1 : s1.Canon := .ite h.raiseAs (.ite h.raise h.raiseFor)
  have h2 : s2.Canon := h1.retire
  split
  · exact .ite h2.abortTick.addRepair h2
  · exact h2

/-! ### The functions of Sys2Proof/Machine/Cores.lean -/

theorem State.Canon.received {n k port} (h : s.Canon) : (s.received n k port).2.Canon := by
  unfold State.received
  extract_lets
  split
  · exact h
  · exact h
  · exact h.fresh

theorem State.Canon.rowsOf {n k d} (h : s.Canon) : (s.rowsOf n k d).2.Canon := .ite_snd h.received h

theorem State.Canon.bankHit {n k u b} (h : s.Canon) : (s.bankHit n k u b).Canon := by
  unfold State.bankHit
  extract_lets s1 _ s2
  have h1 : s1.Canon := h.modCo
  have h2 : s2.Canon := h1.raise.abortTick
  split
  · exact h1.raise.abortHold
  · split
    · exact h2.addRepair
    · exact h2.holdAt
  · exact h1.raise.abortTick

theorem State.Canon.carry {n k d b w} (h : s.Canon) : (s.carry n k d b w).Canon := h.modCo.coreFlags

theorem State.Canon.pause {n k d b p z stall} (h : s.Canon) : (s.pause n k d b p z stall).Canon := h.carry.modCo

theorem State.Canon.runPlan {n k d b upto p} (h : s.Canon) : (s.runPlan n k d b upto p).Canon := by
  unfold State.runPlan
  extract_lets _ _ _ hit _ stop _ s1
  have h1 : s1.Canon := .ite h.modCo h
  clear_value hit
  clear_value stop
  split
  · exact h1.carry.bankHit
  · exact .ite h1.carry.bankHit h1.pause
  · exact h1.pause
  · exact h1.carry.modCo

theorem State.Canon.entry {k upto p plan} (h : s.Canon) : (s.entry k upto p plan).Canon := by
  unfold State.entry
  split
  · exact h
  · split
    · exact h.runPlan
    · exact h.rowsOf.runPlan

theorem State.Canon.vecEntry {k code upto} (h : s.Canon) : (s.vecEntry k code upto).Canon := h.entry

theorem State.Canon.reduceEntry {k sub upto} (h : s.Canon) : (s.reduceEntry k sub upto).Canon := h.entry

theorem State.Canon.sendEntry {k upto reply} (h : s.Canon) : (s.sendEntry k upto reply).Canon := h.entry

theorem State.Canon.waitEnd {k d stalled} (h : s.Canon) : (s.waitEnd k d stalled).Canon := h.modCo

theorem State.Canon.waitEntry {k mode} (h : s.Canon) : (s.waitEntry k mode).Canon := by
  unfold State.waitEntry
  split
  · exact h
  · exact .ite h.waitEnd h.modCo

theorem State.Canon.skip {k d c} (h : s.Canon) : (s.skip k d c).Canon := h.modCo

theorem State.Canon.landing {k port p} (h : s.Canon) : (s.landing k port p).Canon := by
  unfold State.landing
  split
  · exact h.modCo
  · exact .ite ((State.Canon.ite h.fcount h).modCo) (.ite h.modCo (.ite h.fcount (.ite h.fcount h.modCo)))

theorem State.Canon.landUnit {k port u} (h : s.Canon) : (s.landUnit k port u).Canon := by
  unfold State.landUnit
  split
  · exact h.modCo
  · exact .ite h.modCo h.modCo

/-! ### The functions of Sys2Proof/Machine/Lpddr.lean -/

theorem State.Canon.memStat {f k b} (h : s.Canon) : (s.memStat f k b).Canon := h.fset

theorem State.Canon.memCount {a} (h : s.Canon) : (s.memCount a).Canon := h.setPair.setPair

theorem State.Canon.memHit {a lost} (h : s.Canon) : (s.memHit a lost).Canon := by
  unfold State.memHit
  extract_lets s1 _ _ _ s2
  have h1 : s1.Canon := h.memCount
  have h2 : s2.Canon := h1.upd_flt
  split
  · exact (h2.eachOf (fun _ _ h => h.take)).raise
  · exact (h2.eachOf (fun _ _ h => h.hold)).raiseLost

theorem State.Canon.memHits {a n} (h : s.Canon) : (s.memHits a n).Canon := h.eachOf fun _ _ h => h.memHit

theorem State.Canon.memHitsLost {ctx a n} (h : s.Canon) : (s.memHitsLost ctx a n).Canon :=
  h.eachOf fun _ _ h => h.memHit

theorem State.Canon.calFresh {n} (h : s.Canon) : (s.calFresh n).Canon :=
  h.eachOf (fun _ _ h => h.each (fun _ _ h => h.modCh))

theorem State.Canon.tileLost {a} (h : s.Canon) : (s.tileLost a).Canon := h.modCh

theorem State.Canon.settleTiles {p cls} (h : s.Canon) : (s.settleTiles p cls).Canon := h.settle

theorem State.Canon.settleGone {n} (h : s.Canon) : (s.settleGone n).Canon :=
  h.settleHold.eachOf fun _ _ h => h.settleTiles

theorem State.Canon.fencedStat {p} (h : s.Canon) : (s.fencedStat p).Canon := h.fset

theorem State.Canon.republished {core bank} (h : s.Canon) : (s.republished core bank).Canon :=
  h.modCl.fencedStat.settleAction.repaired

theorem State.Canon.tileSource {n a bank own} (h : s.Canon) : (s.tileSource n a bank own).1.Canon :=
  .ite_fst h.memHitsLost.tileLost.holdAt (.ite_fst h (.ite_fst ((h.eachOf
    (fun _ _ h => h.memCount.raiseAs)).memWrite) h.memHitsLost.tileLost.holdAt))

/-! ### The functions of Sys2Proof/Machine/Paths.lean -/

theorem State.Canon.needFix {port} (h : s.Canon) : (s.needFix port).Canon := h.fset.fset

theorem State.Canon.needAll (h : s.Canon) : s.needAll.Canon := h.each fun _ _ h => .ite h h.needFix

/-! ### The functions of Sys2Proof/Machine/Loader.lean -/

theorem State.Canon.rigErr {e} (h : s.Canon) : (s.rigErr e).Canon := h.fset.fset.setReg.setReg

theorem State.Canon.rigCode {code aux} (h : s.Canon) : (s.rigCode code aux).Canon := h.rigErr

theorem State.Canon.dropShadow {n} (h : s.Canon) : (s.dropShadow n).Canon := by
  unfold State.dropShadow
  refine .ite h ?_
  extract_lets s1 s2 s3
  have h1 : s1.Canon := h.fset.fset.fset.setPair
  have h2 : s2.Canon := h1.modCx
  have h3 : s3.Canon := .ite h2.setSlState h2
  exact .ite h3 h3.fset

theorem State.Canon.dropSlice {sid} (h : s.Canon) : (s.dropSlice sid).Canon := by
  unfold State.dropSlice
  split
  · exact h.dropShadow
  · exact h

theorem State.Canon.askWrite {mod l} (h : s.Canon) : (s.askWrite mod l).Canon := h.mgtAsk

theorem State.Canon.abandonOthers {sid} (h : s.Canon) : (s.abandonOthers sid).Canon :=
  h.eachOf fun _ _ h => h.askWrite

theorem State.Canon.beginShadow {n sid delta} (h : s.Canon) : (s.beginShadow n sid delta).Canon :=
  .ite h h.fset.fset.fset.modCx

theorem State.Canon.takeSect {n x} (h : s.Canon) : (s.takeSect n x).Canon := .ite h.modCx.fset h.modCx

theorem State.Canon.sendSeg {mod seg} (h : s.Canon) : (s.sendSeg mod seg).Canon := by
  unfold State.sendSeg
  split
  · exact h.mgtSend
  · exact h

theorem State.Canon.sendEntry_ {x e} (h : s.Canon) : (s.sendEntry_ x e).Canon := by
  unfold State.sendEntry_
  extract_lets
  refine h.each fun _ _ h1 => ?_
  extract_lets _ s2
  have h2 : s2.Canon := by
    unfold s2
    split
    · exact .ite h1 h1.mgtCast
    · exact h1
  exact .ite (h2.eachOf (fun _ _ h => h.sendSeg)) (.ite h1.sendSeg h1)

theorem State.Canon.distribute (h : s.Canon) : s.distribute.Canon :=
  (h.eachOf (fun _ _ h => h.eachOf (fun _ _ h => h.mgtSend))).eachOf fun _ _ h => h.sendEntry_

theorem State.Canon.endLoad {phase} (h : s.Canon) : (s.endLoad phase).Canon := h.upd_mgr.fset.fset.irq

theorem State.Canon.failLoad {e} (h : s.Canon) : (s.failLoad e).Canon :=
  ((h.upd_mgr.eachOf (fun _ _ h => h.dropSlice.abandonOthers)).rigErr).endLoad

theorem State.Canon.checkVerified (h : s.Canon) : s.checkVerified.Canon := .ite h.endLoad h

theorem State.Canon.setDone (h : s.Canon) : s.setDone.Canon := h.fset

theorem State.Canon.loseSlice {sid code} (h : s.Canon) : (s.loseSlice sid code).Canon := by
  unfold State.loseSlice
  refine .ite h ?_
  extract_lets s1 s2 _ _ s3
  have h1 : s1.Canon := h.dropSlice.abandonOthers
  have h2 : s2.Canon := .ite h1 h1.rigCode
  have h3 : s3.Canon := h2.upd_mgr
  exact .ite h3.endLoad h3.checkVerified

theorem State.Canon.takeReport {mod sid x e} (h : s.Canon) : (s.takeReport mod sid x e).Canon :=
  .ite h (.ite (.ite h.failLoad h) h.upd_mgr.setDone.checkVerified)

theorem State.Canon.report {sid e x} (h : s.Canon) : (s.report sid e x).Canon := .ite h.takeReport h.mgtSend

theorem State.Canon.loadHits {l agent} (h : s.Canon) : (s.loadHits l agent).Canon := by
  unfold State.loadHits
  refine h.eachOf fun _ _ h1 => ?_
  split
  · exact h1.memHits
  · exact h1

theorem State.Canon.weightLoad {p r b} (h : s.Canon) : (s.weightLoad p r b).Canon := h.memWrite.modCo

theorem State.Canon.weightLoads {l ep p rs raw} (h : s.Canon) : (s.weightLoads l ep p rs raw).1.Canon := by
  induction rs generalizing s raw with
  | nil => exact h
  | cons r t ih =>
    unfold State.weightLoads
    split
    · exact ih h
    · exact ih h.weightLoad

theorem State.Canon.agentWrite {n agent} (h : s.Canon) : (s.agentWrite n agent).Canon := .ite h h.weightLoads.modCx

theorem State.Canon.agentFail {n e} (h : s.Canon) : (s.agentFail n e).Canon := h.dropShadow.report

theorem State.Canon.agentReport {n agent} (h : s.Canon) : (s.agentReport n agent).Canon := by
  unfold State.agentReport
  extract_lets _ s1 _ s2 s3 s4
  have h1 : s1.Canon := h.agentWrite
  have h2 : s2.Canon := h1.modCx
  have h3 : s3.Canon := .ite h2.fset.setDone h2
  have h4 : s4.Canon := h3.fset
  refine .ite h ?_
  split
  · exact (State.Canon.ite h.loadHits h).agentFail
  · exact .ite h4.report h3

theorem State.Canon.startLoad {x} (h : s.Canon) : (s.startLoad x).Canon := by
  unfold State.startLoad
  extract_lets _ _ _ s1 s2 s3
  have h1 : s1.Canon := h.modMgr
  have h2 : s2.Canon := h1.fset.fset.fset
  have h3 : s3.Canon := by
    unfold s3
    refine h2.eachOf fun _ _ h4 => ?_
    split
    · exact h4
    · exact h4.dropShadow.beginShadow.eachOf fun _ _ h => h.takeSect
  exact h3.distribute

theorem State.Canon.rigLoad (h : s.Canon) : s.rigLoad.Canon := by
  unfold State.rigLoad
  refine .ite h.rigCode (.ite h.rigCode ?_)
  extract_lets s1
  have h1 : s1.Canon := h.rigCode
  split
  · exact h1.rigCode.fset.irq
  · split
    · exact h1.rigErr.fset.irq
    · exact h1.startLoad

theorem State.Canon.armCommit {n t} (h : s.Canon) : (s.armCommit n t).Canon := by
  unfold State.armCommit
  extract_lets s1 s2 _ s3
  have h1 : s1.Canon := h.fset.setPair
  have h2 : s2.Canon := h1.modCx
  have h3 : s3.Canon := h2.upd_tick
  exact .ite h3.setSlState h3

theorem State.Canon.noteUnarmed {sid t} (h : s.Canon) : (s.noteUnarmed sid t).Canon := h.upd_tick

theorem State.Canon.commitLocal {sid t} (h : s.Canon) : (s.commitLocal sid t).Canon := by
  unfold State.commitLocal
  split
  · exact h.rigCode.noteUnarmed
  · exact .ite h.rigCode.noteUnarmed (.ite h.noteUnarmed (.ite h.rigCode (.ite h.rigCode.noteUnarmed h.armCommit)))

theorem State.Canon.armAll {sid t} (h : s.Canon) : (s.armAll sid t).Canon :=
  (State.Canon.ite h.armCommit h).upd_mgr.eachOf fun _ _ h => h.askWrite

theorem State.Canon.armCommits (h : s.Canon) : s.armCommits.Canon :=
  .ite h (h.modMgr.eachOf (fun _ _ h => .ite h.rigCode (.ite h.rigCode h.armAll)))

theorem State.Canon.commitAll {sid t} (h : s.Canon) : (s.commitAll sid t).Canon :=
  .ite h.rigCode (.ite h.rigCode (.ite h.rigCode (.ite h.rigCode h.modMgr.journal.armCommits)))

theorem State.Canon.rigAbandon {sid} (h : s.Canon) : (s.rigAbandon sid).Canon := by
  unfold State.rigAbandon
  extract_lets s1 s2
  have h1 : s1.Canon := h.modMgr
  have h2 : s2.Canon := h1.dropSlice
  exact .ite h1.loseSlice (.ite h2.abandonOthers h2)

theorem State.Canon.rigCmd {m v} (h : s.Canon) : (s.rigCmd m v).Canon := by
  unfold State.rigCmd
  extract_lets
  split
  · exact h.rigLoad
  · exact .ite h.commitAll (.ite h.commitLocal h.rigCode)
  · exact .ite h.rigAbandon h.rigCode
  · exact h

theorem State.Canon.rigCtl {m v} (h : s.Canon) : (s.rigCtl m v).Canon := by
  unfold State.rigCtl
  exact h.store

theorem State.Canon.resetRegs {cls p} (h : s.Canon) : (s.resetRegs cls p).Canon := by
  unfold State.resetRegs
  extract_lets s1
  have h1 : s1.Canon := by
    unfold s1
    refine h.eachOf fun _ _ h2 => .ite h2 ?_
    split
    · exact h2
    · exact h2.eachOf fun _ _ h => h.fset
  exact h1.unsnap

theorem State.Canon.setOwner {mask n} (h : s.Canon) : (s.setOwner mask n).Canon := h.eachOf fun _ _ h => h.modPt

theorem State.Canon.setDigests {n} (h : s.Canon) : (s.setDigests n).Canon :=
  (h.each (fun _ _ h => h.setReg)).each fun _ _ h => h.setReg

theorem State.Canon.commitRig {n} (h : s.Canon) : (s.commitRig n).Canon := by
  unfold State.commitRig
  extract_lets _ _ _ _ _ s1 s2 _ s3 s4 s5 s6 s7 s8 s9 s10 s11 s12 _ s13 s14 s15 s16
  have h1 : s1.Canon := .ite h.settleGone h.settleHold
  have h2 : s2.Canon := h1.setOwner
  have h3 : s3.Canon := h2.modCx
  have h4 : s4.Canon := h3.setOwner
  have h5 : s5.Canon := h4.resetRegs
  have h6 : s6.Canon := .ite h5 h5.calFresh
  have h7 : s7.Canon := h6.setSlState.fset
  have h8 : s8.Canon := h7.fset.fset.fset
  have h9 : s9.Canon := h8.fset.fset
  have h10 : s10.Canon := h9.fset.fset.fset
  have h11 : s11.Canon := h10.setDigests
  have h12 : s12.Canon := h11.eachOf fun _ _ h => h.modCo
  have h13 : s13.Canon := h12.eachOf fun _ _ h => h.modEn
  have h14 : s14.Canon := h13.eachOf (fun _ _ h => ((h.each (fun _ _ h => h.modCl)).fencedStat).modPt)
  have h15 : s15.Canon := h14.releaseFrz.needAll
  have h16 : s16.Canon := h15.modMgr
  exact h16.event

theorem State.Canon.disarm {sid} (h : s.Canon) : (s.disarm sid).Canon := h.upd_mgr

theorem State.Canon.edgeLoad (h : s.Canon) : s.edgeLoad.Canon := h.eachOf fun _ _ h => h.upd_mgr

theorem State.Canon.missRig {n} (h : s.Canon) : (s.missRig n).Canon := by
  unfold State.missRig
  extract_lets s1 s2 s3 s4
  have h1 : s1.Canon := h.disarm
  have h2 : s2.Canon := h1.fset.fset.setPair
  have h3 : s3.Canon := h2.modCx
  have h4 : s4.Canon := .ite h3.setSlState h3
  exact h4.rigCode

theorem State.Canon.unarm {n} (h : s.Canon) : (s.unarm n).Canon :=
  .ite h ((State.Canon.ite h.ctlAll h.noteUnarmed).missRig)

theorem State.Canon.writeCopy {n p} (h : s.Canon) : (s.writeCopy n p).Canon := h.modCh.modCh

theorem State.Canon.reloadWeights {n p keep} (h : s.Canon) : (s.reloadWeights n p keep).Canon := by
  unfold State.reloadWeights
  refine h.eachOf fun _ _ h1 => ?_
  extract_lets
  refine .ite h1 ?_
  split
  · rename_i s2 _ e
    have h2 : s2.Canon := .of_fst e h1.tileSource
    exact h2.modCo
  · rename_i s2 e
    have h2 : s2.Canon := .of_fst e h1.tileSource
    exact h2

theorem State.Canon.applyCopy {n p c keep} (h : s.Canon) : (s.applyCopy n p c keep).Canon :=
  ((h.modCx.modPt.eachOf (fun _ _ h => h.modCo)).each (fun _ _ h => h.modEn)).reloadWeights

theorem State.Canon.rewarm {n c} (h : s.Canon) : (s.rewarm n c).Canon :=
  h.setSlState.fset.fset.setPair.fset.fset.fset.fset.fset.setDigests

theorem State.Canon.idleCtx {n} (h : s.Canon) : (s.idleCtx n).Canon := by
  unfold State.idleCtx
  extract_lets s1 s2 _ s3 s4 s5 s6
  have h1 : s1.Canon := h.settleGone.unarm
  have h2 : s2.Canon := h1.dropShadow
  have h3 : s3.Canon := .ite h2.setOwner h2
  have h4 : s4.Canon := h3.modCx
  have h5 : s5.Canon := h4.resetRegs
  have h6 : s6.Canon := h5.setSlState
  exact h6.fset.fset.fset.needAll

theorem State.Canon.warmFail {n sid} (h : s.Canon) : (s.warmFail n sid).Canon := by
  unfold State.warmFail
  extract_lets s1
  have h1 : s1.Canon := h.idleCtx.rigCode
  refine .ite (h1.eachOf (fun _ _ h2 => ?_)) h1.mgtSend
  split
  · split
    · exact h2.askWrite
    · exact h2
  · exact h2

theorem State.Canon.copyFaults {n p} (h : s.Canon) : (s.copyFaults n p).Canon := h.eachOf fun _ _ h => .ite h.raise h

theorem State.Canon.warmPart {p} (h : s.Canon) : (s.warmPart p).Canon := by
  unfold State.warmPart
  refine h.eachOf fun _ _ h1 => ?_
  extract_lets s2
  have h2 : s2.Canon := h1.copyFaults
  split
  · exact h2.warmFail
  · exact .ite h2.applyCopy.rewarm h2.warmFail

/-! ### The functions of Sys2Proof/Machine/Tick.lean -/

theorem State.Canon.withReq {t} (h : s.Canon) : (s.withReq t).Canon := .ite h.upd_tick.upd_tick h.upd_tick

theorem State.Canon.newTick (h : s.Canon) : s.newTick.Canon :=
  .ite ((State.Canon.ite h.fset.fset h.fset.fset.fcount).upd_tick) (.ite h h.fset.fset.upd_tick)

theorem State.Canon.askStretch {cause} (h : s.Canon) : (s.askStretch cause).Canon := h.withReq.fset

theorem State.Canon.endStretch {cause} (h : s.Canon) : (s.endStretch cause).Canon := .ite h.upd_tick h

theorem State.Canon.clockEdge (h : s.Canon) : s.clockEdge.Canon := h.upd_tick.fset

theorem State.Canon.beginReplay {n} (h : s.Canon) : (s.beginReplay n).Canon := h.setSlState.fset.fcount

theorem State.Canon.edgeAborted {n} (h : s.Canon) : (s.edgeAborted n).Canon := by
  unfold State.edgeAborted
  extract_lets s1
  have h1 : s1.Canon := h.redoUnits
  split
  · exact h1.enterHold
  · exact .ite h1.enterHold (.ite h1.raise.enterHold (.ite h1.setSlState.modCx h1.beginReplay))

theorem State.Canon.edgeCommit {n} (h : s.Canon) : (s.edgeCommit n).Canon := by
  unfold State.edgeCommit
  extract_lets s1 s2 s3
  have h1 : s1.Canon := h.commitUnits.settleTick
  have h2 : s2.Canon := h1.fset
  have h3 : s3.Canon := h2.modCx
  split
  · exact h3.enterHold
  · exact h3.setSlState

theorem State.Canon.edgeState {n} (h : s.Canon) : (s.edgeState n).Canon := by
  unfold State.edgeState
  extract_lets _ s1 s2
  have h1 : s1.Canon := h.modCx
  have h2 : s2.Canon := h.treesEnd
  split
  · refine .ite ?_ (.ite h.edgeAborted h.edgeCommit)
    split
    · exact h1.enterHold
    · exact h1
  · refine .ite ?_ (.ite h.edgeAborted h.edgeCommit)
    split
    · exact h1.enterHold
    · exact h1
  · split
    · exact h2.enterHold
    · exact .ite h2.beginReplay h2.modCx
  · exact h.treesEnd.modCx
  · exact h

theorem State.Canon.edgeFences {n} (h : s.Canon) : (s.edgeFences n).Canon :=
  (State.Canon.ite (h.eachOf (fun _ _ h => h.treeSwitch)) h).modCx

theorem State.Canon.edgeCtx {n} (h : s.Canon) : (s.edgeCtx n).Canon :=
  .ite h.edgeFences.edgeState (.ite h.edgeFences.missRig.edgeState
    ((State.Canon.ite h.edgeFences.commitUnits.settleTick h.edgeFences).commitRig))

theorem State.Canon.edgeRole (h : s.Canon) : s.edgeRole.Canon := by
  unfold State.edgeRole
  split
  · exact h
  · exact .ite h.upd_tick.fset.fset.fset h.upd_tick.fset

theorem State.Canon.edgeAdapt (h : s.Canon) : s.edgeAdapt.Canon := by
  unfold State.edgeAdapt
  split
  · exact .ite h.fset.upd_fab h
  · exact h

theorem State.Canon.boundary (h : s.Canon) : s.boundary.Canon :=
  .ite h (((((h.setPair.upd_tick.edgeRole.edgeAdapt.each (fun _ _ h => h.edgeCtx)).edgeLoad).upd_rtr.each
    (fun _ _ h => .ite h h.modPo.needFix)).each (fun _ _ h => h.modPt)).newTick.clockEdge)

theorem State.Canon.computeStart {n} (h : s.Canon) : (s.computeStart n).Canon := .ite h h.modCx

theorem State.Canon.abortArrives {slice tick attempt cause} (h : s.Canon) :
    (s.abortArrives slice tick attempt cause).Canon := by
  unfold State.abortArrives
  split
  · exact h
  · exact .ite (.ite h.abortHold h.abortTick) (.ite h.modCx.raise h)

theorem State.Canon.slCtl {m n v} (h : s.Canon) : (s.slCtl m n v).Canon :=
  .ite h.store (.ite h.store.fset h.store.fset)

theorem State.Canon.resume {n} (h : s.Canon) : (s.resume n).Canon :=
  .ite h (.ite h.fset.calFresh.setSlState.fset.fset.modCx.sliceEvent h.fset)

theorem State.Canon.holdCmd {n} (h : s.Canon) : (s.holdCmd n).Canon := .ite h (.ite h.fset h.fset.holdNow)

theorem State.Canon.discard {n} (h : s.Canon) : (s.discard n).Canon :=
  .ite h (.ite h.fset.setSlState.fset.modCx h.fset)

theorem State.Canon.tckCtl {m v} (h : s.Canon) : (s.tckCtl m v).Canon :=
  .ite h.store (.ite h.store.refuse h.store.fset)

theorem State.Canon.periodChange (h : s.Canon) : s.periodChange.Canon :=
  .ite h ((h.fset.fset.each (fun _ _ h => h.holdNow)).newTick)

theorem State.Canon.setVin {vin} (h : s.Canon) : (s.setVin vin).Canon := .ite h.fset.fset h.fset

theorem State.Canon.dipAct {vin} (h : s.Canon) : (s.dipAct vin).Canon := by
  unfold State.dipAct
  extract_lets s1 _ s2
  have h1 : s1.Canon := h.fset.fcount
  have h2 : s2.Canon := h1.upd_tick
  exact .ite h2.askStretch.irq.raise h2

theorem State.Canon.supplyDip {vin} (h : s.Canon) : (s.supplyDip vin).Canon := .ite h.setVin h.setVin.dipAct

theorem State.Canon.supplyRecover {vin} (h : s.Canon) : (s.supplyRecover vin).Canon :=
  .ite h.setVin.fset.upd_tick h.setVin

theorem State.Canon.stretchWithdraw (h : s.Canon) : s.stretchWithdraw.Canon := by
  unfold State.stretchWithdraw
  split
  · exact .ite h.endStretch.upd_tick h
  · exact h

theorem State.Canon.peerStretch {p ask} (h : s.Canon) : (s.peerStretch p ask).Canon :=
  .ite h.withReq (.ite h.withReq h.withReq)

theorem State.Canon.stretchGone {p} (h : s.Canon) : (s.stretchGone p).Canon := h.withReq

theorem State.Canon.syncParent {p step tb} (h : s.Canon) : (s.syncParent p step tb).Canon := by
  unfold State.syncParent
  extract_lets _ _ _ _ _ s1 s2 s3
  have h1 : s1.Canon := h.upd_tick
  have h2 : s2.Canon := h1.fset.fset
  have h3 : s3.Canon := h2.fset.fset
  exact .ite h3.fset h3

theorem State.Canon.syncArrives {p step tb locked stretch} (h : s.Canon) :
    (s.syncArrives p step tb locked stretch).Canon :=
  .ite h (.ite h.peerStretch.syncParent (.ite h.peerStretch.fset.upd_tick h.peerStretch))

theorem State.Canon.parentCheck (h : s.Canon) : s.parentCheck.Canon := .ite h h.upd_tick.fset.fset.fset

theorem State.Canon.acquire {step tb} (h : s.Canon) : (s.acquire step tb).Canon :=
  .ite h (.ite h.upd_tick.setPair.fset h)

theorem State.Canon.syncLostAct (h : s.Canon) : s.syncLostAct.Canon :=
  h.fset.irq.raise.each fun _ _ h => .ite h.holdAt h

theorem State.Canon.syncLost (h : s.Canon) : s.syncLost.Canon := by
  unfold State.syncLost
  split
  · exact .ite h.upd_tick.syncLostAct h
  · exact h

theorem State.Canon.chanSlot {p k len} (h : s.Canon) : (s.chanSlot p k len).Canon := h.fresh.modCh.memStat

theorem State.Canon.calSlot {n j} (h : s.Canon) : (s.calSlot n j).Canon := by
  unfold State.calSlot
  split
  · exact h
  · exact .ite (h.eachOf (fun _ _ h => h.eachOf (fun _ _ h => h.chanSlot))) h

theorem State.Canon.calLate {p k} (h : s.Canon) : (s.calLate p k).Canon := h.memStat.raise

theorem State.Canon.calOverdue {p k} (h : s.Canon) : (s.calOverdue p k).Canon := .ite h.calLate h

/-! ### The functions of Sys2Proof/Machine/Engines.lean -/

theorem State.Canon.askRestore {n k a mod src} (h : s.Canon) : (s.askRestore n k a mod src).Canon := h.upd_fab.queueAt

theorem State.Canon.streamHit {n k a} (h : s.Canon) : (s.streamHit n k a).Canon := by
  unfold State.streamHit
  extract_lets
  split
  · exact h.abortTick.addRepair.askRestore
  · exact h.abortHold

theorem State.Canon.engHit {n k a} (h : s.Canon) : (s.engHit n k a).Canon := h.memHit.modEn.fset.streamHit

theorem State.Canon.elemBegin {n k u} (h : s.Canon) : (s.elemBegin n k u).Canon := by
  unfold State.elemBegin
  extract_lets s1
  have h1 : s1.Canon := h.modEn
  refine .ite h1 ?_
  split
  · exact h1.engHit
  · exact h1.modEn

theorem State.Canon.elemOut {n k u quiet e res o} (h : s.Canon) : (s.elemOut n k u quiet e res o).Canon := by
  unfold State.elemOut
  split
  · split
    · exact .ite h.modEn h.modEn.memWrite.engFlags

theorem State.Canon.elemOuts {n k u quiet e res} (h : s.Canon) : (s.elemOuts n k u quiet e res).Canon :=
  h.eachOf fun _ _ h => h.elemOut

theorem State.Canon.pubWrite {k base bs} (h : s.Canon) : (s.pubWrite k base bs).Canon :=
  h.eachOf fun _ _ h => h.memWrite

theorem State.Canon.hankOut {n k u} (h : s.Canon) : (s.hankOut n k u).Canon := by
  unfold State.hankOut
  extract_lets _ _ _ s1
  have h1 : s1.Canon := h.each fun _ _ h => h.elemOuts
  split
  · exact (State.Canon.ite h1 h1.pubWrite.engFlags).modEn

theorem State.Canon.jobEnd {n k u} (h : s.Canon) : (s.jobEnd n k u).Canon :=
  .ite (h.modEn.eachOf (fun _ _ h => h.queueAt)) h.modEn

theorem State.Canon.elemEnd {n k u e} (h : s.Canon) : (s.elemEnd n k u e).Canon := by
  unfold State.elemEnd
  extract_lets s1 s2 s3
  have h1 : s1.Canon := h.modEn
  have h2 : s2.Canon := h1.modEn
  have h3 : s3.Canon := .ite (.ite h2.hankOut h2) h1.elemOuts.modEn
  exact .ite h3.jobEnd h3

theorem State.Canon.opStep {n k u} (h : s.Canon) : (s.opStep n k u).Canon := by
  unfold State.opStep
  split
  · exact h
  · extract_lets
    split
    · split
      rename_i _ s1 e
      have h1 : s1.Canon := .of_snd e (.ite_snd h.fresh h)
      extract_lets _ s2 _ s3
      have h2 : s2.Canon := .ite h1 h1.engFlags
      have h3 : s3.Canon := h2.modEn
      exact .ite h3.elemEnd h3

theorem State.Canon.recipeOp {k opc} (h : s.Canon) : (s.recipeOp k opc).Canon := by
  unfold State.recipeOp
  split
  · exact h
  · exact .ite h (State.Canon.opStep (.ite h.elemBegin h))

theorem State.Canon.runElem {k} (h : s.Canon) : (s.runElem k).Canon := by
  unfold State.runElem
  split
  · exact h
  · exact (State.Canon.ite h.elemBegin h).each fun _ _ h => h.opStep

theorem State.Canon.updateTick {k} (h : s.Canon) : (s.updateTick k).Canon := by
  unfold State.updateTick
  split
  · exact h
  · exact h.each fun _ _ h => h.runElem

theorem State.Canon.reconvert {n k u base fmt ti} (h : s.Canon) : (s.reconvert n k u base fmt ti).Canon := by
  unfold State.reconvert
  extract_lets
  split
  · exact h.memHits.streamHit
  · exact .foldl_fst h fun _ _ h => h.pubWrite

theorem State.Canon.pubHit {n k a from_ len hdr} (h : s.Canon) : (s.pubHit n k a from_ len hdr).Canon := by
  unfold State.pubHit
  extract_lets s1 s2
  have h1 : s1.Canon := h.memHits.modEn
  have h2 : s2.Canon := h1.fset
  refine .ite h2.tileLost.abortHold ?_
  split
  · exact h2.abortTick.reconvert
  · exact h2.abortHold

theorem State.Canon.putHdr {a dig standby step} (h : s.Canon) : (s.putHdr a dig standby step).Canon :=
  h.memWrite.memWrite.memWrite

theorem State.Canon.pubTile {n k job} (h : s.Canon) : (s.pubTile n k job).Canon := by
  unfold State.pubTile
  split
  · exact .ite h (.ite h.pubHit (.ite h.pubHit h.modCo.republished.putHdr.modEn))

theorem State.Canon.publish {k} (h : s.Canon) : (s.publish k).Canon := by
  unfold State.publish
  split
  · exact h
  · split
    · exact h
    · refine .ite h ?_
      extract_lets s1
      have h1 : s1.Canon := h.each fun _ _ h => h.pubTile
      exact .ite h1 h1.modEn

theorem State.Canon.engineFailed {e} (h : s.Canon) : (s.engineFailed e).Canon := by
  unfold State.engineFailed
  extract_lets _ _ _ _ _ s1 s2 s3 s4
  have h1 : s1.Canon := h.raiseAs
  have h2 : s2.Canon := h1.modEn
  have h3 : s3.Canon := .ite h2.modPt h2
  have h4 : s4.Canon := .ite h3.retire h3
  split
  · exact .ite (.ite h4.abortTick.addRepair h4.abortTick) h4
  · exact h4

/-! ### The functions of Sys2Proof/Machine/Memory.lean -/

theorem State.Canon.sweepLate {p src ms} (h : s.Canon) : (s.sweepLate p src ms).Canon := h.fset.raise

theorem State.Canon.sweepEnd {k} (h : s.Canon) : (s.sweepEnd k).Canon := .ite h.fset.modCl.sweepLate h.fset.modCl

theorem State.Canon.fence {n core bank rec_} (h : s.Canon) : (s.fence n core bank rec_).Canon := by
  unfold State.fence
  extract_lets _ _ s1 s2
  have h1 : s1.Canon := h.modCl
  have h2 : s2.Canon := h1.fencedStat
  exact .ite h2.fcount.raiseFor h2.raiseLost.holdAt

theorem State.Canon.hdrLost {n a} (h : s.Canon) : (s.hdrLost n a).Canon := h.memHitsLost.tileLost.holdAt

theorem State.Canon.tileNote {core bank} (h : s.Canon) : (s.tileNote core bank).Canon := h.raiseFor

theorem State.Canon.scrubBank {n core bank} (h : s.Canon) : (s.scrubBank n core bank).Canon := by
  unfold State.scrubBank
  extract_lets
  refine .ite h ?_
  split
  · exact .ite h.fence h
  · exact .ite h.hdrLost (.ite h.fence.tileNote (.ite h.fence h))

theorem State.Canon.sramScrub {k} (h : s.Canon) : (s.sramScrub k).Canon := by
  unfold State.sramScrub
  extract_lets
  split
  · exact h
  · refine .ite h ?_
    split
    · exact h
    · exact (State.Canon.ite h.sweepEnd h).modCl.scrubBank

theorem State.Canon.republish {core bank} (h : s.Canon) : (s.republish core bank).Canon := by
  unfold State.republish
  split
  · exact h
  · extract_lets
    refine .ite h ?_
    split
    · exact h
    · refine .ite h ?_
      split
      · rename_i s1 _ e
        have h1 : s1.Canon := .of_fst e h.tileSource
        exact h1.modCo.republished
      · rename_i s1 e
        have h1 : s1.Canon := .of_fst e h.tileSource
        exact h1.settleAction

theorem State.Canon.scrubHit {p k b} (h : s.Canon) : (s.scrubHit p k b).Canon := by
  unfold State.scrubHit
  extract_lets s1
  have h1 : s1.Canon := h.memCount.raiseFor
  split
  · exact h1
  · split
    · exact h1.askRestore
    · exact h1

theorem State.Canon.memScrub {p k} (h : s.Canon) : (s.memScrub p k).Canon := by
  unfold State.memScrub
  extract_lets _ _ s1
  have h1 : s1.Canon := h.modCh
  refine .ite h ?_
  split
  · exact h1
  · exact h1.scrubHit

theorem State.Canon.restoreGroup {p k g data} (h : s.Canon) : (s.restoreGroup p k g data).Canon := by
  unfold State.restoreGroup
  extract_lets
  split
  · exact h
  · exact .ite h (.ite (.ite h.endRepair.holdAt h) h.memWrite.settleAction.repaired)

theorem State.Canon.memHot {p k} (h : s.Canon) : (s.memHot p k).Canon := h.memStat.raise

theorem State.Canon.retrainLate {p k} (h : s.Canon) : (s.retrainLate p k).Canon := .ite h h.memStat.raise

/-! ### The functions of Sys2Proof/Machine/Arrivals.lean -/

theorem State.Canon.isoFault {p src slice} (h : s.Canon) : (s.isoFault p src slice).Canon := h.raise

theorem State.Canon.isoEject {p} (h : s.Canon) : (s.isoEject p).Canon := h.fcount.isoFault

theorem State.Canon.epochMiss {n} (h : s.Canon) : (s.epochMiss n).Canon := h.fcount.modCx

theorem State.Canon.memReply {p aux count seq data} (h : s.Canon) : (s.memReply p aux count seq data).Canon :=
  .ite h.queueAt h.queueAt

theorem State.Canon.sluiceRefuse {p} (h : s.Canon) : (s.sluiceRefuse p).Canon :=
  .ite h.memReply (.ite h.fcount h.fcount)

theorem State.Canon.eject {p f} (h : s.Canon) (hf : ∀ a0 s, s.Canon → (f a0 s).Canon) : (s.eject p f).Canon := by
  unfold State.eject
  extract_lets
  refine .ite h (.ite h.sluiceRefuse ?_)
  split
  · exact h.isoEject
  · exact .ite h.isoEject (.ite h.epochMiss (hf _ _ h))

theorem State.Canon.arriveCore {p} (h : s.Canon) : (s.arriveCore p).Canon := h.eject fun _ _ h => .ite h.landing h

theorem State.Canon.arriveWrite {p} (h : s.Canon) : (s.arriveWrite p).Canon :=
  h.eject fun _ _ h => .ite h (.ite h.fcount (.ite h.fcount h.modPt.memWrite))

theorem State.Canon.readHit {n a len} (h : s.Canon) : (s.readHit n a len).Canon := .ite h.memHits h.memHits.abortHold

theorem State.Canon.arriveRead {p} (h : s.Canon) : (s.arriveRead p).Canon :=
  h.eject (fun _ _ h => .ite h (.ite h.readHit.memReply (h.each (fun _ _ h => h.memReply))))

theorem State.Canon.arriveReply {p} (h : s.Canon) : (s.arriveReply p).Canon := by
  unfold State.arriveReply
  extract_lets
  refine .ite h (.ite h.fcount (.ite h.fcount.raise (h.eject (fun _ _ h1 => ?_))))
  split
  · exact h1.upd_fab.restoreGroup
  · exact h1

/-! ### The functions of Sys2Proof/Machine/Collectives.lean -/

theorem State.Canon.treeViolation {n k i} (h : s.Canon) : (s.treeViolation n k i).Canon :=
  h.fcount.freeze.isoFault.holdAt

theorem State.Canon.agentSend {n k typ dest r c slot aux data} (h : s.Canon) :
    (s.agentSend n k typ dest r c slot aux data).Canon :=
  h.queueAt

theorem State.Canon.chunkOut {n k i r c} (h : s.Canon) : (s.chunkOut n k i r c).Canon := by
  unfold State.chunkOut
  extract_lets _ _ _ s1
  have h1 : s1.Canon := .ite h.modTree.fcount h
  refine .ite h1 (.ite h1.agentSend.modTree ?_)
  split
  · exact h1.agentSend.modTree
  · exact h1.modTree
  · exact .ite h1.agentSend.modTree h1.treeViolation

theorem State.Canon.chunksOut {n k i r} (h : s.Canon) : (s.chunksOut n k i r).Canon :=
  h.each fun _ _ h => .ite h.chunkOut h

theorem State.Canon.contribute {n k i r c e upto vs} (h : s.Canon) : (s.contribute n k i r c e upto vs).Canon :=
  h.modTree.treeFlags.chunksOut

theorem State.Canon.takeOut {k port u} (h : s.Canon) : (s.takeOut k port u).2.Canon := by
  unfold State.takeOut
  extract_lets
  refine .ite_snd ?_ ?_
  · split
    · exact h
    · exact h.modCo
  · split
    · exact h
    · exact h.modCo

theorem State.Canon.treeUnit {core port u} (h : s.Canon) : (s.treeUnit core port u).Canon := by
  unfold State.treeUnit
  split
  · exact h
  · split
    · exact h
    · exact .ite h (.ite h.takeOut (.ite h.takeOut.fcount h.takeOut.modTree.contribute))

theorem State.Canon.treeMem {k i} (h : s.Canon) : (s.treeMem k i).Canon := by
  unfold State.treeMem
  split
  · exact h
  · split
    · exact h
    · exact .ite h (.ite h.readHit h.contribute)

theorem State.Canon.arriveRed {p} (h : s.Canon) : (s.arriveRed p).Canon := by
  unfold State.arriveRed
  refine h.eject fun _ _ h1 => ?_
  extract_lets _ _ s2
  have h2 : s2.Canon := h1.fcount
  refine .ite h2 ?_
  split
  · exact h2
  · extract_lets
    split
    · exact h2
    · exact .ite h2 (.ite h1.fcount ((State.Canon.ite h1 h1.modTree).modTree.treeFlags.chunksOut))

theorem State.Canon.pruneReport {p} (h : s.Canon) : (s.pruneReport p).Canon := by
  unfold State.pruneReport
  extract_lets
  refine .ite h.mgtReject (.ite h ?_)
  split
  · exact h.mgtReject
  · refine .ite h.fcount ?_
    split
    · exact h.mgtReject
    · exact h.modTree

/-! ### The functions of Sys2Proof/Machine/Detours.lean -/

theorem State.Canon.moveRecords {n d k} (h : s.Canon) : (s.moveRecords n d k).2.Canon := by
  unfold State.moveRecords
  extract_lets
  split
  · exact h
  · refine .ite_snd h ?_
    split
    · exact h.modCx
    · exact h

theorem State.Canon.movedAgain {n d} (h : s.Canon) : (s.movedAgain n d).Canon := by
  unfold State.movedAgain
  refine h.eachOf fun _ _ h1 => .ite h1 ?_
  split
  · exact h1.modCx
  · exact h1

/-! ### The functions of Sys2Proof/Machine/Strands.lean -/

theorem State.Canon.rbwSend {n port slice sid} (h : s.Canon) : (s.rbwSend n port slice sid).Canon :=
  .ite h h.portQueue.modPo

theorem State.Canon.portOut {n port slice sid u} (h : s.Canon) : (s.portOut n port slice sid u).Canon :=
  .ite h.modPo (.ite h.modPo.rbwSend h.modPo)

theorem State.Canon.rbwClose {port slice sid} (h : s.Canon) : (s.rbwClose port slice sid).Canon := by
  unfold State.rbwClose
  extract_lets
  split
  · exact .ite h.rbwSend h
  · exact h

theorem State.Canon.freeUnits {port ch n} (h : s.Canon) : (s.freeUnits port ch n).Canon := h.modPo

theorem State.Canon.badPacket {rk p} (h : s.Canon) : (s.badPacket rk p).Canon := h.modRt.raise

theorem State.Canon.rbwCount {port slice r u} (h : s.Canon) : (s.rbwCount port slice r u).Canon :=
  .ite h.modPo h.modPo.modRt

theorem State.Canon.rbwArrive {port p} (h : s.Canon) : (s.rbwArrive port p).Canon := by
  unfold State.rbwArrive
  extract_lets _ s1 s2
  have h1 : s1.Canon := h.modPo
  have h2 : s2.Canon := h1.freeUnits
  refine .ite h2.badPacket (.ite h2.modRt ?_)
  split
  · exact h2.fcount
  · split
    · exact h2.fcount
    · exact .ite h2.fcount ((State.Canon.ite h2.rbwCount h2).modPo)

theorem State.Canon.strandTake {n rk d c r slice u} (h : s.Canon) : (s.strandTake n rk d c r slice u).2.Canon := by
  unfold State.strandTake
  split
  · split
    · exact h.takeOut
    · exact h
    · exact h
    · refine .ite_snd ?_ ?_
      · split
        · exact h.modRt
        · exact h
      · split
        · exact h
        · split
          · exact h.modPo
          · exact h

theorem State.Canon.stalls {rk o} (h : s.Canon) : (s.stalls rk o).Canon := h.modRt

theorem State.Canon.flows {rk o} (h : s.Canon) : (s.flows rk o).Canon := by
  unfold State.flows
  split
  · exact h
  · exact h.modRt

theorem State.Canon.strandOut {n rk d c r slice i u o} (h : s.Canon) : (s.strandOut n rk d c r slice i u o).Canon :=
    by
  unfold State.strandOut
  split
  · extract_lets _ s1
    have h1 : s1.Canon := .ite h h.flows.modRt
    split
    · exact h1.eachOf fun _ _ h => h.landUnit
    · exact .ite h1 h1.memWrite
    · exact h1
    · split
      · exact h1.modRt
      · split
        · exact h1.portOut
        · exact h1

theorem State.Canon.strandUnit {rk inp slice sid u} (h : s.Canon) : (s.strandUnit rk inp slice sid u).Canon := by
  unfold State.strandUnit
  split
  · split
    · split
      · split
        · exact h
        · exact .ite h (.ite (h.eachOf (fun _ _ h => h.stalls)) (.ite h.readHit
            (h.strandTake.modRt.eachOf (fun _ _ h => h.strandOut))))
      · exact h

theorem State.Canon.creditSend {port} (h : s.Canon) : (s.creditSend port).Canon := .ite h h.portQueue.modPo

theorem State.Canon.creditTake {port p} (h : s.Canon) : (s.creditTake port p).Canon := .ite h h.modPo

/-! ### The functions of Sys2Proof/Machine/Routing.lean -/

theorem State.Canon.rtCtl {m v} (h : s.Canon) : (s.rtCtl m v).Canon :=
  .ite h.store (.ite h.store.fset.refuse h.store.fset)

theorem State.Canon.swapReg {a b} (h : s.Canon) : (s.swapReg a b).Canon := h.setReg.setReg

theorem State.Canon.tableSwap (h : s.Canon) : s.tableSwap.Canon := by
  unfold State.tableSwap
  refine .ite h ?_
  extract_lets s1 s2 _ _ s3 s4
  have h1 : s1.Canon := h.each fun _ _ h => h.swapReg
  have h2 : s2.Canon := h1.each fun _ _ h => h.swapReg
  have h3 : s3.Canon := .ite h2.upd_fab h2
  have h4 : s4.Canon := h3.fset.fset
  exact h4.each (fun _ _ h => h.modPo.eachOf (fun _ _ h => h.queueAt))

theorem State.Canon.quiesceOver (h : s.Canon) : s.quiesceOver.Canon := by
  unfold State.quiesceOver
  split
  · exact .ite h.upd_fab h
  · exact h

theorem State.Canon.loadCast {p} (h : s.Canon) : (s.loadCast p).Canon := h.upd_fab

theorem State.Canon.routeGone {q p} (h : s.Canon) : (s.routeGone q p).Canon := h.modPo.fcount.raise

theorem State.Canon.routeTimeout {p} (h : s.Canon) : (s.routeTimeout p).Canon := by
  unfold State.routeTimeout
  split
  · exact h
  · exact h.routeGone

theorem State.Canon.rtrCtl {m p v} (h : s.Canon) : (s.rtrCtl m p v).Canon := by
  unfold State.rtrCtl
  extract_lets s1 s2
  have h1 : s1.Canon := .ite h h.unsnap
  have h2 : s2.Canon := .ite h1.modRt h1
  exact .ite (h2.each (fun _ _ h => h.modRt)) h2

theorem State.Canon.routerFail {rk} (h : s.Canon) : (s.routerFail rk).Canon := by
  unfold State.routerFail
  split
  split
  extract_lets _ abort _ s1 s2 s3 clus s4 s5 s6
  have habort {t : State} (h : t.Canon) : (abort t).Canon := by
    unfold abort
    split
    · exact .ite h.abortTick h
    · exact h
  clear_value abort clus
  have h2 : s2.Canon := habort h.modRt.raise
  have h5 : s5.Canon := State.Canon.modPt (habort h.modRt.raise)
  have h6 : s6.Canon := by
    unfold s6
    split
    · exact h5.retire
    · exact h5
  refine .ite h.raise (.ite ?_ ?_)
  · split
    · exact .ite h2 h2.holdAt
    · exact h2
  · split
    · exact h6
    · extract_lets s7 s8
      have h7 : s7.Canon := h6.eachOf fun _ _ h => h.addRepair
      refine .ite (h6.eachOf fun _ _ h => h.moveRecords) (State.Canon.addRepair ?_)
      unfold s8
      split
      · exact h7.addRepair.eachOf fun _ _ h => h.addRepair
      · exact h7

theorem State.Canon.repairDone {n r} (h : s.Canon) : (s.repairDone n r).Canon := by
  unfold State.repairDone
  refine .ite h ?_
  split
  · exact .ite h.moveRecords.endRepair h
  · exact .ite h.endRepair h
  · exact h.endRepair

/-! ### The functions of Sys2Proof/Machine/Links.lean -/

theorem State.Canon.lnkState {p st} (h : s.Canon) : (s.lnkState p st).Canon := by
  unfold State.lnkState
  extract_lets s1 s2
  have h1 : s1.Canon := h.fset.modPo
  have h2 : s2.Canon := .ite h1.fset h1
  exact .ite h2 h2.irq

theorem State.Canon.startTrain {p} (h : s.Canon) : (s.startTrain p).Canon := .ite h.modPo h.lnkState

theorem State.Canon.holdCause {p c} (h : s.Canon) : (s.holdCause p c).Canon := .ite h.fset h.fset.irq

theorem State.Canon.widthFix {p} (h : s.Canon) : (s.widthFix p).Canon := h.fset.fset.needFix

theorem State.Canon.lnkDrop {p n} (h : s.Canon) : (s.lnkDrop p n).Canon := h.fcount

theorem State.Canon.ctlSend {p m} (h : s.Canon) : (s.ctlSend p m).Canon := h.modPo

theorem State.Canon.parkBack {port p} (h : s.Canon) : (s.parkBack port p).Canon := h.modPo

theorem State.Canon.giveBack {port rk p} (h : s.Canon) : (s.giveBack port rk p).Canon := by
  unfold State.giveBack
  split
  · exact h.queueAt
  · exact h.parkBack

theorem State.Canon.linkDown {p} (h : s.Canon) : (s.linkDown p).Canon := by
  unfold State.linkDown
  extract_lets _ _ _ s1 s2 s3 s4 s5
  have h1 : s1.Canon := h.modPo.holdCause
  have h2 : s2.Canon := h1.fset.fset.widthFix
  have h3 : s3.Canon := h2.lnkState.stretchGone
  have h4 : s4.Canon := h3.eachOf fun _ _ h => h.giveBack
  have h5 : s5.Canon := .ite h4.raise h4
  exact h5.parentCheck

theorem State.Canon.detect {p} (h : s.Canon) : (s.detect p).Canon := h.startTrain.modPo

theorem State.Canon.portOos {p} (h : s.Canon) : (s.portOos p).Canon := h.lnkState.fset.raise

theorem State.Canon.portReset {p} (h : s.Canon) : (s.portReset p).Canon :=
  .ite h.linkDown.modPo.portOos (.ite h.linkDown.modPo.lnkState h.linkDown.modPo.detect)

theorem State.Canon.identAgain (h : s.Canon) : s.identAgain.Canon := h.each fun _ _ h => .ite h.modPo h

theorem State.Canon.toMgmt {p} (h : s.Canon) : (s.toMgmt p).Canon := h.lnkState.modPo

theorem State.Canon.portEval {p} (h : s.Canon) : (s.portEval p).Canon :=
  .ite (State.Canon.ite h.modPo h).lnkState (.ite (State.Canon.ite h.modPo h).toMgmt (State.Canon.ite h.modPo h))

theorem State.Canon.holdEnter {p c} (h : s.Canon) : (s.holdEnter p c).Canon :=
  .ite h.holdCause.raise (.ite h.holdCause.raise h.holdCause)

theorem State.Canon.identTest {p all} (h : s.Canon) : (s.identTest p all).Canon :=
  .ite h (State.Canon.portEval (.ite h.holdCause h.holdEnter))

theorem State.Canon.peerIdent {p ws} (h : s.Canon) : (s.peerIdent p ws).Canon := by
  unfold State.peerIdent
  extract_lets _ s1 _ s2 _ _ _ s3 s4 s5
  have h1 : s1.Canon := h.foldl fun _ _ h => h.setReg
  have h2 : s2.Canon := h1.fset
  have h3 : s3.Canon := .ite h2.fset h2
  have h4 : s4.Canon := h3.modPo
  have h5 : s5.Canon := .ite h4.toMgmt h4
  exact h5.identTest

theorem State.Canon.identSeg {p seg d} (h : s.Canon) : (s.identSeg p seg d).Canon :=
  .ite h (.ite h.modPo.peerIdent h.modPo)

theorem State.Canon.trainBlock {p lane block} (h : s.Canon) : (s.trainBlock p lane block).Canon := by
  unfold State.trainBlock
  extract_lets
  split
  · exact h
  · exact .ite h (.ite h.portReset (.ite h (.ite h.fresh.modPo.lnkState h.fresh.modPo)))

theorem State.Canon.signal? {p m} (h : s.Canon) : (s.signal? p m).Canon := by
  unfold State.signal?
  refine .ite h ?_
  extract_lets _ s1 s2
  have h1 : s1.Canon := h.upd_pins
  have h2 : s2.Canon := h1.each fun _ _ h => h.modPo
  exact .ite h2.lnkState h2

theorem State.Canon.equalizeOver {p} (h : s.Canon) : (s.equalizeOver p).Canon := .ite h.lnkState h

theorem State.Canon.lockEnd {p} (h : s.Canon) : (s.lockEnd p).Canon := by
  unfold State.lockEnd
  extract_lets _ s1 s2 s3
  have h1 : s1.Canon := h.linkDown
  have h2 : s2.Canon := h.modPo
  have h3 : s3.Canon := h2.fset.widthFix.lnkState
  exact .ite h1.modPo.lnkState (.ite h3.raise h3)

theorem State.Canon.excludedRetry {p} (h : s.Canon) : (s.excludedRetry p).Canon := .ite h.modPo.detect h

theorem State.Canon.lnkCtl {m p v} (h : s.Canon) : (s.lnkCtl m p v).Canon := by
  unfold State.lnkCtl
  extract_lets _ _ _ _ _ _ _ _ s1 s2 _ s3
  have h1 : s1.Canon := h.store
  have h2 : s2.Canon := .ite h1.refuse h1
  have h3 : s3.Canon := .ite h2.fset h2
  exact .ite h3 (.ite h3.modPo.startTrain (.ite h3.linkDown.lnkState
    (.ite (.ite h3.detect h3.portReset) h3.portEval)))

theorem State.Canon.expWrite {m p i v} (h : s.Canon) : (s.expWrite m p i v).Canon := .ite h.store.identTest h.store

theorem State.Canon.nakSend {p} (h : s.Canon) : (s.nakSend p).Canon := h.ctlSend.modPo

theorem State.Canon.frameFailed {p q} (h : s.Canon) : (s.frameFailed p q).Canon := (State.Canon.ite h.nakSend h).modPo

theorem State.Canon.spliceLane {p lane code arg} (h : s.Canon) : (s.spliceLane p lane code arg).Canon :=
  .ite h.portReset ((State.Canon.ite h.modPo.fset.fset h.modPo.fset).fcount.fset.widthFix.ctlSend.raise)

theorem State.Canon.splice {p lane code arg} (h : s.Canon) : (s.splice p lane code arg).Canon :=
  .ite h (.ite h.spliceLane.nakSend h.spliceLane)

theorem State.Canon.laneFault {p i sig} (h : s.Canon) : (s.laneFault p i sig).Canon :=
  (State.Canon.ite h.modPo h).splice

theorem State.Canon.laneClean {p lane} (h : s.Canon) : (s.laneClean p lane).Canon := .ite h h.fset.ctlSend.modPo

theorem State.Canon.calWindow {p heights widths} (h : s.Canon) : (s.calWindow p heights widths).Canon :=
  .ite h h.ctlSend.modPo.fset.fset.fset

theorem State.Canon.calEnd {p} (h : s.Canon) : (s.calEnd p).Canon := by
  unfold State.calEnd
  extract_lets
  split
  · exact h
  · exact .ite h (.ite h.ctlSend.modPo h.splice.modPo)

theorem State.Canon.stormAct {p n pick} (h : s.Canon) : (s.stormAct p n pick).Canon := by
  unfold State.stormAct
  extract_lets s1
  have h1 : s1.Canon := h.fset
  split
  · exact .ite h1.splice h1.raise.portReset
  · exact h1.raise.portReset

theorem State.Canon.retryStorm {p pick} (h : s.Canon) : (s.retryStorm p pick).Canon := .ite h h.stormAct

theorem State.Canon.replayFrom {p seq} (h : s.Canon) : (s.replayFrom p seq).Canon := .ite h h.modPo.setPair

theorem State.Canon.ackTimeout {p} (h : s.Canon) : (s.ackTimeout p).Canon := by
  unfold State.ackTimeout
  split
  · exact h
  · exact .ite h.replayFrom h

theorem State.Canon.tickEdge {p low} (h : s.Canon) : (s.tickEdge p low).Canon := h.modPo

theorem State.Canon.tickEdgeAt {p q low} (h : s.Canon) : (s.tickEdgeAt p q low).Canon := h.modPo

theorem State.Canon.refuseArrives {slice step} (h : s.Canon) : (s.refuseArrives slice step).Canon := by
  unfold State.refuseArrives
  extract_lets s1
  have h1 : s1.Canon := .ite h.disarm h
  split
  · exact h1
  · exact .ite h1.modCx.ctlAll h1

theorem State.Canon.laneChange {p lane seq add} (h : s.Canon) : (s.laneChange p lane seq add).Canon := h.modPo

theorem State.Canon.laneDrop {p lane seq calib} (h : s.Canon) : (s.laneDrop p lane seq calib).Canon :=
  .ite h.laneChange.modPo h.laneChange.modPo

theorem State.Canon.echoReply {p token} (h : s.Canon) : (s.echoReply p token).Canon := by
  unfold State.echoReply
  split
  · exact .ite h.fset.modPo h
  · exact h

theorem State.Canon.ctlMsg {p q m} (h : s.Canon) : (s.ctlMsg p q m).Canon := by
  unfold State.ctlMsg
  split
  · exact h.syncArrives
  · exact h.tickEdgeAt
  · exact h.abortArrives
  · exact h.refuseArrives
  · exact h.replayFrom
  · exact h.laneDrop
  · exact h.laneChange
  · exact h.identSeg
  · exact h.ctlSend
  · exact h.echoReply
  · exact h

theorem State.Canon.mgmtDrop {p tag n} (h : s.Canon) : (s.mgmtDrop p tag n).Canon :=
  h.each fun _ _ h => h.lnkDrop.raise

theorem State.Canon.rxPkt {p u} (h : s.Canon) : (s.rxPkt p u).Canon :=
  .ite h.mgmtDrop (.ite h.modPo (.ite h.modPo.mgmtDrop (.ite h.modPo.creditTake h.modPo.modPo)))

theorem State.Canon.rxStrand {p idx u} (h : s.Canon) : (s.rxStrand p idx u).Canon := by
  unfold State.rxStrand
  refine .ite h.mgmtDrop ?_
  split
  · exact h
  · exact .ite h.lnkDrop h.modPo

theorem State.Canon.rxUnit {p tag u} (h : s.Canon) : (s.rxUnit p tag u).Canon :=
  .ite h (.ite h.rxPkt (.ite (.ite h.lnkDrop h.mgmtDrop) h.rxStrand))

theorem State.Canon.rxLanes {p} (h : s.Canon) : (s.rxLanes p).Canon :=
  .ite h ((h.modPo.eachOf (fun _ _ h => h.modPo)).widthFix)

theorem State.Canon.frameCount {p got} (h : s.Canon) : (s.frameCount p got).Canon :=
  h.setPair.setPair.eachOf fun _ _ h => h.modPo

theorem State.Canon.lockFrame {p} (h : s.Canon) : (s.lockFrame p).Canon := .ite h.lockEnd h

theorem State.Canon.frameUse {p act ok bad} (h : s.Canon) : (s.frameUse p act ok bad).Canon := by
  unfold State.frameUse
  extract_lets _ ms _ _ _ s1 s2 s3
  have h1 : s1.Canon := by
    unfold s1
    clear_value ms
    split
    · exact h.modPo
    · exact h
  have h2 : s2.Canon := .ite (h1.modPo.eachOf (fun _ _ h => h.rxUnit)) (.ite h1.frameFailed h1)
  have h3 : s3.Canon := h2.eachOf fun _ _ h => .ite h.spliceLane h
  exact .ite h2 (.ite h3 h3.nakSend.modPo)

theorem State.Canon.frame {p act lanes} (h : s.Canon) : (s.frame p act lanes).Canon := by
  unfold State.frame
  extract_lets _ s1 _ _ s2 _ _ _ s3
  have h1 : s1.Canon := .ite h h.rxLanes
  have h2 : s2.Canon := h1.frameCount
  have h3 : s3.Canon := h2.frameUse
  exact .ite h (.ite h2.lockFrame ((h3.eachOf (fun _ _ h => h.ctlMsg)).calEnd))

theorem State.Canon.ctlTake {p slots} (h : s.Canon) : (s.ctlTake p slots).2.Canon := h.modPo

theorem State.Canon.laneTx {p idle ms i} (h : s.Canon) : (s.laneTx p idle ms i).2.Canon := by
  unfold State.laneTx
  extract_lets
  split
  · exact h.modPo
  · refine .ite_snd (.ite_snd ?_ h) h
    exact h.modPo

theorem State.Canon.lanesTx {p idle ms l} (h : s.Canon) : (s.lanesTx p idle ms l).2.Canon := by
  induction l generalizing s with
  | nil => exact h
  | cons i t ih => exact ih h.laneTx

theorem State.Canon.sendLanes {p act ms} (h : s.Canon) : (s.sendLanes p act ms).Canon := h.lanesTx.emit

theorem State.Canon.frameTime {p} (h : s.Canon) : (s.frameTime p).Canon := by
  unfold State.frameTime
  extract_lets _ s1
  have h1 : s1.Canon := .ite h h.modPo
  refine .ite h (.ite h.sendLanes ?_)
  split
  · extract_lets s2
    have h2 : s2.Canon := h1.modPo
    split
    rename_i _ s3 e
    have h3 : s3.Canon := .of_snd e h2.ctlTake
    exact .ite h3.sendLanes h3.sendLanes.modPo

theorem State.Canon.opticsWait {p early} (h : s.Canon) : (s.opticsWait p early).Canon := by
  unfold State.opticsWait
  split
  · exact h
  · exact .ite h.modPo.lnkState.raise (.ite h.modPo.lnkState h)

theorem State.Canon.cmisPoll {p present ready rev temp} (h : s.Canon) : (s.cmisPoll p present ready rev temp).Canon :=
  .ite h (State.Canon.opticsWait (.ite h.fset.fset.fset h.fset.fset))

theorem State.Canon.opticsAlarm {p flags} (h : s.Canon) : (s.opticsAlarm p flags).Canon := h.fset.raise

theorem State.Canon.cmisFlags {p warn alarm flags los} (h : s.Canon) : (s.cmisFlags p warn alarm flags los).Canon :=
  .ite h ((State.Canon.ite h.opticsAlarm (.ite h.raiseAs h)).eachOf (fun _ _ h => h.laneFault))

theorem State.Canon.opticsAbsent {p} (h : s.Canon) : (s.opticsAbsent p).Canon :=
  .ite h (.ite h.fset.fset.portReset h.fset.fset)

theorem State.Canon.sysclkLoss (h : s.Canon) : s.sysclkLoss.Canon :=
  (h.upd_pins.each (fun _ _ h => .ite h.portReset h)).upd_tick.fset.fset.fset

/-! ### The functions of Sys2Proof/Machine/Completion.lean -/

theorem State.Canon.hangNote {n l} (h : s.Canon) : (s.hangNote n l).Canon := h.upd_flt

theorem State.Canon.overrun {n l} (h : s.Canon) : (s.overrun n l).Canon := by
  unfold State.overrun
  refine .ite h ?_
  extract_lets s1 s2
  have h1 : s1.Canon := h.eachOf fun _ _ h => h.raise
  have h2 : s2.Canon := h1.fcount.hangNote
  exact .ite h2.abortHold h2.abortTick

theorem State.Canon.checkCores {n} (h : s.Canon) : (s.checkCores n).Canon := h.overrun

theorem State.Canon.strandStall {n l} (h : s.Canon) : (s.strandStall n l).Canon :=
  .ite h (((h.eachOf (fun _ _ h => h.raise)).hangNote).abortTick)

theorem State.Canon.checkStrands {n} (h : s.Canon) : (s.checkStrands n).Canon := h.strandStall

theorem State.Canon.mirrorMiss {p msg} (h : s.Canon) : (s.mirrorMiss p msg).Canon := h.fset.raise

theorem State.Canon.writeMiss {p m} (h : s.Canon) : (s.writeMiss p m).Canon := .ite h.mirrorMiss h.raise

theorem State.Canon.missing {n ps ts ws ms} (h : s.Canon) : (s.missing n ps ts ws ms).Canon :=
  .ite h (((((h.eachOf (fun _ _ h => h.raise)).eachOf (fun _ _ h => h.raise)).eachOf
    (fun _ _ h => h.writeMiss)).eachOf (fun _ _ h => h.mirrorMiss)).abortTick)

theorem State.Canon.checkMessages {n} (h : s.Canon) : (s.checkMessages n).Canon := h.missing

theorem State.Canon.engTimeout {n l} (h : s.Canon) : (s.engTimeout n l).Canon :=
  .ite h (((h.eachOf (fun _ _ h => h.raise)).hangNote).abortTick)

theorem State.Canon.checkEngines {n} (h : s.Canon) : (s.checkEngines n).Canon := h.engTimeout

theorem State.Canon.refuseUnarmed (h : s.Canon) : s.refuseUnarmed.Canon :=
  h.upd_tick.eachOf fun _ _ h => h.ctlAll.raise

theorem State.Canon.commitCheck {n} (h : s.Canon) : (s.commitCheck n).Canon := by
  unfold State.commitCheck
  extract_lets s1
  have h1 : s1.Canon := h.refuseUnarmed
  exact .ite h1 h1.refuseArrives.raise

theorem State.Canon.completion {n} (h : s.Canon) : (s.completion n).Canon :=
  (State.Canon.ite h.checkCores.checkStrands.checkMessages.checkEngines h).commitCheck

/-! ### The functions of Sys2Proof/Machine/Resets.lean -/

theorem State.Canon.notice {mask whole} (h : s.Canon) : (s.notice mask whole).Canon := .ite h.mgtSend h

theorem State.Canon.nextGen {p} (h : s.Canon) : (s.nextGen p).Canon := h.fset

theorem State.Canon.advFunctions (h : s.Canon) : s.advFunctions.Canon := h.advGen.advGen.each fun _ _ h => h.advGen

theorem State.Canon.abortPart {p cause} (h : s.Canon) : (s.abortPart p cause).Canon := by
  unfold State.abortPart
  split
  · exact h.abortTick
  · exact h

theorem State.Canon.coreReset {p c i} (h : s.Canon) : (s.coreReset p c i).Canon := h.abortPart.modCo

theorem State.Canon.engineReset {p e} (h : s.Canon) : (s.engineReset p e).Canon := h.abortPart.modEn

theorem State.Canon.endSteps {f} (h : s.Canon) : (s.endSteps f).Canon := h.upd_flt

theorem State.Canon.partBack {p} (h : s.Canon) : (s.partBack p).Canon := h.endSteps

theorem State.Canon.moduleBack (h : s.Canon) : s.moduleBack.Canon := h.endSteps

theorem State.Canon.closeSluice {p d} (h : s.Canon) : (s.closeSluice p d).Canon :=
  .ite h (.ite h.modPt h.modPt.fset.fset)

theorem State.Canon.loadLost {p} (h : s.Canon) : (s.loadLost p).Canon :=
  h.each fun _ _ h => .ite (.ite h.unarm.loseSlice h.unarm.dropShadow) h

theorem State.Canon.partitionReset {p} (h : s.Canon) : (s.partitionReset p).Canon :=
  .ite h.upd_rst (.ite h h.abortPart.loadLost.closeSluice.notice)

theorem State.Canon.clearPart {p} (h : s.Canon) : (s.clearPart p).Canon := by
  unfold State.clearPart
  extract_lets _ _ _ _ s1 s2 s3 s4 s5
  have h1 : s1.Canon := ⟨h.mem, h.regs⟩
  have h2 : s2.Canon := h1.each fun _ _ h => h.modRt
  have h3 : s3.Canon := h2.each fun _ _ h => h.modCh
  have h4 : s4.Canon := h3.modPt
  have h5 : s5.Canon := h4.releaseFrz
  exact h5.resetRegs

theorem State.Canon.noteHolders {p} (h : s.Canon) : (s.noteHolders p).Canon := by
  unfold State.noteHolders
  split
  · exact h.modPt
  · exact h

theorem State.Canon.enterReset {p} (h : s.Canon) : (s.enterReset p).Canon := by
  unfold State.enterReset
  extract_lets s1 s2
  have h1 : s1.Canon := h.noteHolders.clearPart.nextGen
  have h2 : s2.Canon := h1.modPt
  exact .ite h2.fset h2.fset.fset

theorem State.Canon.channelsUp {p} (h : s.Canon) : (s.channelsUp p).Canon := (h.each (fun _ _ h => h.modCh)).fset

theorem State.Canon.reapplyCtx {p n} (h : s.Canon) : (s.reapplyCtx p n).1.Canon := by
  unfold State.reapplyCtx
  extract_lets s1
  have h1 : s1.Canon := h.copyFaults
  split
  · exact h1
  · exact .ite_fst h1 (.ite h1.applyCopy.movedAgain.fset h1.applyCopy.movedAgain.rewarm)

theorem State.Canon.partitionReapply {p} (h : s.Canon) : (s.partitionReapply p).Canon := by
  unfold State.partitionReapply
  refine .ite h ?_
  extract_lets s1 s2
  have h2 : s2.Canon := h.channelsUp.modPt.fset.fset
  split
  rename_i s3 _ e
  have h3 : s3.Canon := .of_fst e (.ite_fst (.foldl_fst h2 fun _ _ h => h.reapplyCtx) h2)
  exact (State.Canon.ite (State.Canon.settleTiles (.ite h3 h3.fset.modPt)).repaired
    (.settleTiles (.ite h3 h3.fset.modPt))).fset.fset.partBack

theorem State.Canon.holdPart {p} (h : s.Canon) : (s.holdPart p).Canon := .ite h h.abortPart.enterReset.modPt

theorem State.Canon.holdModule (h : s.Canon) : s.holdModule.Canon :=
  ((h.notice.each (fun _ _ h => h.holdPart)).each (fun _ _ h => .ite h.fset.portEval h)).fset.alert

theorem State.Canon.closeEndpoint {d} (h : s.Canon) : (s.closeEndpoint d).Canon := h.upd_host

theorem State.Canon.endpointDown (h : s.Canon) : s.endpointDown.Canon := h.upd_host.fset.fset.fset.fset.advFunctions

theorem State.Canon.countEndpoint (h : s.Canon) : s.countEndpoint.Canon :=
  .ite h.upd_rst.fset.fset.raise h.upd_rst.fset

theorem State.Canon.countHub (h : s.Canon) : s.countHub.Canon := .ite h.upd_rst.fset.fset h.upd_rst.fset

theorem State.Canon.graveStart (h : s.Canon) : s.graveStart.Canon := by
  unfold State.graveStart
  refine .ite h ?_
  extract_lets s1 s2 _ _ s3
  have h1 : s1.Canon := h.each fun _ _ h => h.modPt
  have h2 : s2.Canon := h1.fset.alert
  have h3 : s3.Canon := h2.upd_flt
  exact .ite h3.dumpStart h3

theorem State.Canon.startRom (h : s.Canon) : s.startRom.Canon := by
  unfold State.startRom
  refine .ite h.upd_pwr (.ite h.upd_pwr.raise ?_)
  extract_lets s1 _ _ s2
  have h1 : s1.Canon := h.graveStart
  have h2 : s2.Canon := ⟨h1.mem, h1.regs⟩
  exact h2.each fun _ _ h => h.fset.setReg.fset.modPo

theorem State.Canon.pinFollow (h : s.Canon) : s.pinFollow.Canon := h.upd_pins

theorem State.Canon.fusedRegs (h : s.Canon) : s.fusedRegs.Canon := h.fset.fset

theorem State.Canon.renewNonce (h : s.Canon) : s.renewNonce.Canon := h.fresh.each fun _ _ h => h.setReg

theorem State.Canon.clearModule (h : s.Canon) : s.clearModule.Canon := by
  unfold State.clearModule
  extract_lets s1 s2 s3 s4 s5
  have h2 : s2.Canon := h.settle.each fun _ _ h => h.noteHolders.clearPart
  have h5 : s5.Canon := h2.resetRegs.fusedRegs.fset
  clear_value s5
  exact ⟨h5.mem, h5.regs⟩

theorem State.Canon.partsInReset (h : s.Canon) : s.partsInReset.Canon := h.each fun _ _ h => .ite h.modPt.fset h.modPt

theorem State.Canon.clearRemaps (h : s.Canon) : s.clearRemaps.Canon := (h.eachOf (fun _ _ h => h.modPt)).upd_nor

theorem State.Canon.doModule (h : s.Canon) : s.doModule.Canon := by
  unfold State.doModule
  extract_lets s1 s2 s3 s4 _ s5
  have h1 : s1.Canon := h.fcount
  have h2 : s2.Canon := h1.each fun _ _ h => h.nextGen
  have h3 : s3.Canon := h2.clearModule.clearRemaps.partsInReset.pinFollow.advGen.advFunctions
  have h4 : s4.Canon := h3.renewNonce
  have h5 : s5.Canon := h4.upd_pwr
  exact .ite h5.startRom h5

theorem State.Canon.tryModule (h : s.Canon) : s.tryModule.Canon := .ite h.doModule h

theorem State.Canon.moduleReset (h : s.Canon) : s.moduleReset.Canon :=
  .ite h (.ite h.upd_rst (((h.notice.each (fun _ _ h => h.unarm)).each
    (fun _ _ h => h.abortPart.closeSluice)).closeEndpoint.upd_rst))

theorem State.Canon.sliceContextReset {n} (h : s.Canon) : (s.sliceContextReset n).Canon :=
  .ite h.idleCtx h.idleCtx.notice

theorem State.Canon.drained {p} (h : s.Canon) : (s.drained p).Canon := by
  unfold State.drained
  split
  · exact h.enterReset
  · exact h.modPt.tryModule
  · exact h.modPt
  · exact h

theorem State.Canon.epDrained (h : s.Canon) : s.epDrained.Canon := by
  unfold State.epDrained
  split
  · exact h.endpointDown
  · exact h.upd_host.tryModule
  · exact h.upd_host
  · exact h

theorem State.Canon.drainComplete {x} (h : s.Canon) : (s.drainComplete x).Canon := by
  unfold State.drainComplete
  split
  · exact .ite h.drained h
  · exact h.epDrained

theorem State.Canon.discardOut {p} (h : s.Canon) : (s.discardOut p).Canon :=
  ((h.each (fun _ _ h => h.modRt)).eachOf (fun _ _ h => h.modCo)).fcount

theorem State.Canon.drainLimit {p} (h : s.Canon) : (s.drainLimit p).Canon := h.discardOut.fset.raise.drained

theorem State.Canon.drainTimeout {x} (h : s.Canon) : (s.drainTimeout x).Canon := by
  unfold State.drainTimeout
  split
  · exact .ite h.drainLimit h
  · exact .ite h.raise.epDrained h

theorem State.Canon.loadTiles {n k own} (h : s.Canon) : (s.loadTiles n k own).Canon := by
  unfold State.loadTiles
  extract_lets
  refine h.each fun _ _ h1 => .ite h1 ?_
  split
  · exact h1
  · split
    · rename_i s2 _ e
      have h2 : s2.Canon := .of_fst e h1.tileSource
      exact h2.modCo
    · rename_i s2 e
      have h2 : s2.Canon := .of_fst e h1.tileSource
      exact h2

theorem State.Canon.replaceCore {n acc key k} (h : s.Canon) : (s.replaceCore n acc key k).Canon := by
  unfold State.replaceCore
  split
  · exact h.modCo
  · exact (State.Canon.ite h.upd_draws.modCo.holdAt.settleTick.settleAction h.upd_draws.modCo).loadTiles

theorem State.Canon.retired {p u unit src} (h : s.Canon) : (s.retired p u unit src).Canon :=
  h.modPt.event.settleAction.repaired

theorem State.Canon.replaceCluster {p u c} (h : s.Canon) : (s.replaceCluster p u c).Canon := by
  unfold State.replaceCluster
  extract_lets _ n _ s1
  have h1 : s1.Canon := h.modPt.settleTick
  split
  · exact h1.settleAction.fset
  · refine .ite h ?_
    extract_lets s2 paths
    have h2 : s2.Canon := h.modPt
    clear_value paths
    split
    · exact h
    · extract_lets s3 s4
      have h3 : s3.Canon := by
        unfold s3
        clear_value n
        split
        · exact h2.modCx
        · exact h2
      have h4 : s4.Canon := h3.eachOf fun _ _ h => h.replaceCore
      exact h4.retired

theorem State.Canon.spareReplace {p u} (h : s.Canon) : (s.spareReplace p u).Canon := by
  unfold State.spareReplace
  extract_lets
  refine .ite h ?_
  split
  · extract_lets
    split
    · exact h.replaceCluster
    · exact .ite h h.modPt.replaceCore.retired
  · exact h.replaceCluster
  · exact .ite h.modPt.modEn.retired h.modEn.modPt

theorem State.Canon.rotate {p} (h : s.Canon) : (s.rotate p).Canon := by
  unfold State.rotate
  extract_lets s1
  have h1 : s1.Canon := h.modPt
  split
  · exact h1
  · exact h1.eachOf fun _ _ h => h.replaceCore

theorem State.Canon.clusterReset {p c} (h : s.Canon) : (s.clusterReset p c).Canon :=
  .ite h.partitionReset ((h.abortPart.each (fun _ _ h => h.modCo)).modRt.modCl)

theorem State.Canon.rstCmd {p v} (h : s.Canon) : (s.rstCmd p v).Canon := by
  unfold State.rstCmd
  extract_lets cmd _ _ _ _ _ _ s1
  have h1 : s1.Canon := h.fset
  refine .ite h (.ite h (.ite h (.ite h.refuse ?_)))
  clear_value cmd
  split
  · exact h1.coreReset
  · exact h1.clusterReset
  · exact h1.engineReset
  · exact h1.partitionReset
  · exact h1.retire
  · exact h1.retire
  · exact h1.retire
  · exact h1.rotate

theorem State.Canon.rstCtl {m p v} (h : s.Canon) : (s.rstCtl m p v).Canon := h.store

theorem State.Canon.hubCmd {v} (h : s.Canon) : (s.hubCmd v).Canon := by
  unfold State.hubCmd
  split
  · exact h.moduleReset
  · exact h.sliceContextReset
  · exact .ite h h.closeEndpoint
  · exact h.holdModule
  · exact h

theorem State.Canon.hubCtl {m v} (h : s.Canon) : (s.hubCtl m v).Canon := .ite h.store.upd_rst h.store

theorem State.Canon.rstRow {m p v} (h : s.Canon) : (s.rstRow m p v).Canon := h.gate fun _ h => h.rstCmd

theorem State.Canon.hubRow {m v} (h : s.Canon) : (s.hubRow m v).Canon := h.gate fun _ h => h.hubCmd

/-! ### The functions of Sys2Proof/Machine/Recovery.lean -/

theorem State.Canon.unitStep {code l} (h : s.Canon) : (s.unitStep code l).Canon := by
  unfold State.unitStep
  refine .ite (h.eachOf (fun _ _ h1 => ?_)) (h.eachOf (fun _ _ h1 => ?_))
  · extract_lets
    split
    · exact h1.engineReset
    · exact h1
  · extract_lets
    split
    · exact h1
    · refine .ite h1.clusterReset (h1.eachOf (fun _ _ h2 => ?_))
      split
      · exact h2.coreReset
      · exact h2

theorem State.Canon.ladderStep {k n code l} (h : s.Canon) : (s.ladderStep k n code l).Canon := by
  unfold State.ladderStep
  split
  · split
    · exact h.sliceContextReset
    · exact h
  · exact h.unitStep
  · exact h.eachOf fun _ _ h => h.partitionReset
  · exact h.countHub.moduleReset
  · exact h.holdModule

theorem State.Canon.climb {n code l} (h : s.Canon) : (s.climb n code l).Canon :=
  .ite h.record h.upd_flt.fset.ladderStep

theorem State.Canon.recur {n code l} (h : s.Canon) : (s.recur n code l).Canon := by
  unfold State.recur
  split
  · exact .ite h.climb h
  · exact h

theorem State.Canon.holdHang {n} (h : s.Canon) : (s.holdHang n).Canon := by
  unfold State.holdHang
  extract_lets
  refine .ite h ?_
  split
  · exact .ite h h.climb
  · exact h

theorem State.Canon.drainHang {p} (h : s.Canon) : (s.drainHang p).Canon := by
  unfold State.drainHang
  split
  · exact h.climb
  · exact h

theorem State.Canon.incidentClose (h : s.Canon) : s.incidentClose.Canon := h.upd_flt.fset

theorem State.Canon.wdtAct (h : s.Canon) : s.wdtAct.Canon :=
  .ite h.raise.climb ((State.Canon.ite h.raise.climb h.raise).upd_flt.countHub.moduleReset)

theorem State.Canon.watchdog (h : s.Canon) : s.watchdog.Canon := .ite h h.wdtAct

theorem State.Canon.faultMsg {f} (h : s.Canon) : (s.faultMsg f).Canon := .ite h (.ite h.take.recur h.take)

/-! ### The functions of Sys2Proof/Machine/Collector.lean -/

theorem State.Canon.windowOver {i} (h : s.Canon) : (s.windowOver i).Canon := .ite h.setSrc h

theorem State.Canon.srcClr {v} (h : s.Canon) : (s.srcClr v).Canon := .ite h.upd_flt.fset h.setSrc

theorem State.Canon.qPop (h : s.Canon) : s.qPop.Canon := h.upd_flt

theorem State.Canon.frzCmd {v} (h : s.Canon) : (s.frzCmd v).Canon := .ite h (.ite h.refuse h.setFrz)

theorem State.Canon.graveHold (h : s.Canon) : s.graveHold.Canon := .ite h h.upd_flt.holdModule

theorem State.Canon.graveLimit (h : s.Canon) : s.graveLimit.Canon := by
  unfold State.graveLimit
  split
  · exact .ite h.graveHold h
  · exact h

theorem State.Canon.pulseOver (h : s.Canon) : s.pulseOver.Canon := by
  unfold State.pulseOver
  split
  · exact .ite h.upd_flt.fset.pinFollow h
  · exact h

theorem State.Canon.fltPin {m v} (h : s.Canon) : (s.fltPin m v).Canon := h.store.pinFollow

theorem State.Canon.fltForce {m off v} (h : s.Canon) : (s.fltForce m off v).Canon :=
  .ite h.badWrite (.ite h.refuse (.ite h.store (.ite h.refuse (.ite h.store h.store.upd_flt.fset))))

theorem State.Canon.dumpRead {a} (h : s.Canon) : (s.dumpRead a).Canon := by
  unfold State.dumpRead
  split
  · exact h
  · refine .ite h ?_
    split
    · exact .ite h.upd_flt.fcount h.upd_flt

theorem State.Canon.dumpDone (h : s.Canon) : s.dumpDone.Canon := by
  unfold State.dumpDone
  refine .ite h ?_
  extract_lets _ _ _ _ _ s1 s2 _ _ s3 s4 s5
  have h1 : s1.Canon := .ite h.memWrite h
  have h2 : s2.Canon := .ite h1.fset h1
  have h3 : s3.Canon := h2.upd_flt
  have h4 : s4.Canon := h3.fset
  have h5 : s5.Canon := h4.fset.fset.irq
  exact .ite h5.graveHold h5

theorem State.Canon.dumpCtl {m v} (h : s.Canon) : (s.dumpCtl m v).Canon := .ite h.store.dumpStart h.store

/-! ### The functions of Sys2Proof/Machine/Startup.lean -/

theorem State.Canon.setRole {r} (h : s.Canon) : (s.setRole r).Canon := .ite h h.fset.event

theorem State.Canon.trainPort {r c} (h : s.Canon) : (s.trainPort r c).Canon := by
  unfold State.trainPort
  extract_lets _ s1 s2
  have h1 : s1.Canon := h.setReg.setReg
  have h2 : s2.Canon := .ite h1.fset.fset h1
  exact .ite h h2.lnkCtl

theorem State.Canon.writeExp {c ws} (h : s.Canon) : (s.writeExp c ws).Canon := h.each fun _ _ h => h.expWrite

/-- The kernel would evaluate the manifest of the state that the port expectations leave in order to reduce the body's
match: `writeExp` is made a variable while the body is unfolded. -/
theorem State.Canon.takeId {m ws} (h : s.Canon) : (s.takeId m ws).Canon := by
  have hw {s c ws} (h : s.Canon) : (State.writeExp s c ws).Canon := h.writeExp
  generalize e : State.takeId = takeId
  delta State.takeId at e
  generalize State.writeExp = write at hw e
  subst e
  beta_reduce
  extract_lets _ s2
  have h2 : s2.Canon := h.fset.fset.each fun _ _ h => hw h
  clear_value s2
  split
  · exact h2
  · exact h2.each fun _ _ h => h.trainPort

theorem State.Canon.setDisc {pos d} (h : s.Canon) : (s.setDisc pos d).Canon := h.setReg

theorem State.Canon.beginManager {r} (h : s.Canon) : (s.beginManager r).Canon := h.setRole.takeId.setDisc.upd_mgr

theorem State.Canon.readCache (h : s.Canon) : s.readCache.Canon := by
  unfold State.readCache
  extract_lets _ _ _ s1
  have h1 : s1.Canon := h.upd_mgr
  split
  · exact h1
  · exact .ite h1.beginManager h1

theorem State.Canon.fwTakes {src} (h : s.Canon) : (s.fwTakes src).Canon := h.fset.fset

theorem State.Canon.fwRefuse {why src} (h : s.Canon) : (s.fwRefuse why src).Canon := h.fset.fset.fset.event.raise

theorem State.Canon.fwRun {b src} (h : s.Canon) : (s.fwRun b src).Canon := by
  unfold State.fwRun
  extract_lets _ _ _ s1 s2 s3 s4 s5
  have h1 : s1.Canon := ⟨h.mem, h.regs⟩
  have h2 : s2.Canon := h1.fset.fset
  have h3 : s3.Canon := h2.fset.fset
  have h4 : s4.Canon := h3.each fun _ _ h => h.setReg
  have h5 : s5.Canon := h4.event
  exact h5.readCache.identAgain

theorem State.Canon.fwImage {b src} (h : s.Canon) : (s.fwImage b src).Canon := .ite h.fwRefuse h.fwRun.upd_pwr

theorem State.Canon.fwCmd {v} (h : s.Canon) : (s.fwCmd v).Canon := .ite h h.fwImage

theorem State.Canon.fwWait (h : s.Canon) : s.fwWait.Canon := .ite h.fset.event h

theorem State.Canon.trainingDone (h : s.Canon) : s.trainingDone.Canon := by
  unfold State.trainingDone
  refine .ite h ?_
  extract_lets s1 s2 _ s3
  have h1 : s1.Canon := h.each fun _ _ h => h.modCh
  have h2 : s2.Canon := h1.each fun _ _ h => h.fset
  have h3 : s3.Canon := h2.upd_pwr
  exact .ite h3 h3.upd_nor

theorem State.Canon.partUp {p keep} (h : s.Canon) : (s.partUp p keep).Canon := .ite h h.fset.upd_core

theorem State.Canon.retireCores {p failed} (h : s.Canon) : (s.retireCores p failed).Canon :=
  h.eachOf fun _ _ h => h.retire

/-! ### The functions of Sys2Proof/Machine/Security.lean -/

theorem State.Canon.clearEvr {key} (h : s.Canon) : (s.clearEvr key).Canon := h.upd_evr.fset.event

theorem State.Canon.authEffect {cmd arg} (h : s.Canon) : (s.authEffect cmd arg).Canon := by
  unfold State.authEffect
  split
  · exact h.upd_nor
  · split
    · exact h
    · exact h.upd_nor
  · exact h.upd_nor
  · exact h.upd_nor
  · exact h

theorem State.Canon.authDone {cmd status key} (h : s.Canon) : (s.authDone cmd status key).Canon :=
  h.fset.fset.event.renewNonce

theorem State.Canon.authHits (h : s.Canon) : s.authHits.Canon := h.memHits

/-- A write of SEC_AUTH_CMD once the staged block `b` has been read. -/
theorem State.Canon.authTail {b cmd} (h : s.Canon) :
    (if s.sec.auth.isSome then s.authDone cmd 1 0xFF
      else
        let (st, key) := s.authCheck b
        if st ≠ 0 then s.authDone cmd st key
        else if cmd = 1 then (s.clearEvr key).authDone cmd 0 key
        else
          let s := { s with sec := { s.sec with auth := some (cmd, slice b 48 64) } }
          (s.authDone cmd 0 key).fset SEC_AUTH_STAT.BUSY 1).Canon := by
  refine .ite h.authDone ?_
  split
  exact .ite h.authDone (.ite h.clearEvr.authDone h.upd_sec.authDone.fset)

theorem State.Canon.authCmd {v} (h : s.Canon) : (s.authCmd v).Canon := by
  unfold State.authCmd
  split
  · exact h
  · exact h.authHits.authTail

theorem State.Canon.norCommit {ok} (h : s.Canon) : (s.norCommit ok).Canon := by
  unfold State.norCommit
  split
  · exact h
  · exact .ite h.authEffect.upd_sec.fset h.fresh.event

theorem State.Canon.saveCounters (h : s.Canon) : s.saveCounters.Canon := .ite (⟨h.mem, h.regs⟩) h

theorem State.Canon.counterSave (h : s.Canon) : s.counterSave.Canon := .ite h.saveCounters h

theorem State.Canon.attAsk {r} (h : s.Canon) : (s.attAsk r).Canon := h.upd_att

theorem State.Canon.discSegs {p via b} (h : s.Canon) : (s.discSegs p via b).Canon := h.eachOf fun _ _ h => h.mgtReply

theorem State.Canon.attSigned (h : s.Canon) : s.attSigned.Canon := by
  unfold State.attSigned
  split
  · exact h
  · extract_lets _ _ s1
    have h1 : s1.Canon := h.upd_att
    split
    · exact h1.emit
    · exact h1.upd_att
    · exact h1.discSegs
    · exact h1

theorem State.Canon.doeRequest {sel nonce} (h : s.Canon) : (s.doeRequest sel nonce).Canon := .ite h.attAsk h

theorem State.Canon.doeAbort (h : s.Canon) : s.doeAbort.Canon := by
  unfold State.doeAbort
  split
  · exact h.upd_att
  · exact h

theorem State.Canon.authRow {m v} (h : s.Canon) : (s.authRow m v).Canon := h.gate fun _ h => h.authCmd

/-! ### The functions of Sys2Proof/Machine/Power.lean -/

theorem State.Canon.bookRes (h : s.Canon) : s.bookRes.Canon := (State.Canon.ite h.setPair h).upd_pwr

theorem State.Canon.reach {st} (h : s.Canon) : (s.reach st).Canon := h.bookRes.fset.fcount.upd_pwr.event.irq

theorem State.Canon.railsOff (h : s.Canon) : s.railsOff.Canon := h.clearModule.upd_pwr

theorem State.Canon.lpLost (h : s.Canon) : s.lpLost.Canon := by
  unfold State.lpLost
  extract_lets _ s1
  have h1 : s1.Canon := ⟨rfl, h.regs⟩
  exact (h1.each fun _ _ h => h.modPt).fset

theorem State.Canon.sleep {tgt} (h : s.Canon) : (s.sleep tgt).Canon := by
  unfold State.sleep
  extract_lets s1 s2 _ s3 s4 _ s5 s6 s7 s8
  have h1 : s1.Canon := by
    unfold s1
    refine h.each fun _ _ h2 => ?_
    split
    · exact .ite h2.writeCopy h2
    · exact h2
  have h2 : s2.Canon := h1.eachOf fun _ _ h => h.modCh
  have h3 : s3.Canon := h2.upd_pwr
  have h4 : s4.Canon := h3.each fun _ _ h => .ite h.linkDown.lnkState h
  have h5 : s5.Canon := h4.endpointDown
  have h6 : s6.Canon := h5.setReg
  have h7 : s7.Canon := h6.railsOff
  have h8 : s8.Canon := h7.upd_core
  exact .ite h8.fset h8

theorem State.Canon.offReady (h : s.Canon) : s.offReady.Canon := h.saveCounters.reach.fset.fset.alert.alertPin

theorem State.Canon.wakeStart {master} (h : s.Canon) : (s.wakeStart master).Canon := by
  unfold State.wakeStart
  extract_lets _ _ _ s1 s2 s3 _ s4
  have h1 : s1.Canon := h.fset.fset
  have h2 : s2.Canon := h1.fset.setReg
  have h3 : s3.Canon := h2.fset
  have h4 : s4.Canon := h3.upd_pwr
  exact .ite h4.startRom h4

theorem State.Canon.wakeFail (h : s.Canon) : s.wakeFail.Canon := h.fset.event.upd_pwr.startRom

theorem State.Canon.wakeStage {r} (h : s.Canon) : (s.wakeStage r).Canon := h.fset

theorem State.Canon.trainAll (h : s.Canon) : s.trainAll.Canon := by
  unfold State.trainAll
  split
  · exact h
  · exact h.each fun _ _ h => h.trainPort

theorem State.Canon.reachActive (h : s.Canon) : s.reachActive.Canon := by
  unfold State.reachActive
  exact ((State.Canon.ite h.reach.fset.alert h.reach.fset).each (fun _ _ h => .ite h.nextGen
    h.nextGen.modPt)).alertPin.trainAll

theorem State.Canon.wakeAct {r} (h : s.Canon) : (s.wakeAct r).Canon := by
  unfold State.wakeAct
  split
  · exact h.wakeStage
  · exact h.upd_pwr.partsInReset.graveStart.wakeStage
  · exact .ite h.upd_pwr.wakeStage h.raise
  · exact .ite h.wakeFail (((h.each (fun _ _ h => h.modCh)).each (fun _ _ h => h.fset)).wakeStage)
  · split
    · exact h.wakeFail
    · exact .ite h.upd_pwr.wakeStage h.fwRefuse.wakeFail
  · extract_lets _ _ s1 _ s2
    have h1 : s1.Canon := h.partUp.partUp
    have h2 : s2.Canon := h1.upd_pwr
    exact .ite h2.wakeStage h2
  · exact h.fwRun.upd_pwr.fset.wakeStage
  · exact h.upd_pwr.wakeStage.reachActive

theorem State.Canon.wakeNext (h : s.Canon) : s.wakeNext.Canon := by
  unfold State.wakeNext
  split
  · exact .ite h (.ite h.fset (.ite h.wakeAct.upd_pwr h.wakeAct))
  · exact h

theorem State.Canon.wakeMiss (h : s.Canon) : s.wakeMiss.Canon := by
  unfold State.wakeMiss
  split
  · exact .ite h.wakeFail h
  · exact h

theorem State.Canon.powerRefuse {why} (h : s.Canon) : (s.powerRefuse why).Canon := h.fset.irq

theorem State.Canon.powerPend {tgt force master} (h : s.Canon) : (s.powerPend tgt force master).Canon :=
  (State.Canon.ite h.fset h).fset.fset.upd_pwr

theorem State.Canon.powerDrain (h : s.Canon) : s.powerDrain.Canon := by
  unfold State.powerDrain
  exact ((h.notice.each (fun _ _ h => (State.Canon.ite h.abortTick.holdAt h).fset)).each
    (fun _ _ h => h.closeSluice)).closeEndpoint

theorem State.Canon.powerBegin {tgt master} (h : s.Canon) : (s.powerBegin tgt master).Canon := by
  unfold State.powerBegin
  extract_lets _ s1 s2 _ s3
  have h1 : s1.Canon := h.fset.fset
  have h2 : s2.Canon := h1.fset.fset
  have h3 : s3.Canon := h2.upd_pwr
  exact .ite h1.wakeStart (.ite h3.powerDrain h3)

theorem State.Canon.powerReq {tgt force master} (h : s.Canon) : (s.powerReq tgt force master).Canon :=
  .ite h (.ite h.powerPend (.ite h (.ite h.powerRefuse (.ite h.powerRefuse
    (.ite h.powerRefuse (.ite h.powerPend (.ite h.powerPend h.powerBegin)))))))

theorem State.Canon.powerPending (h : s.Canon) : s.powerPending.Canon := .ite h h.fset.powerReq

theorem State.Canon.powerResets (h : s.Canon) : s.powerResets.Canon :=
  .ite h.upd_rst.moduleReset (h.upd_rst.eachOf (fun _ _ h => h.partitionReset))

theorem State.Canon.pwrReq {m v} (h : s.Canon) : (s.pwrReq m v).Canon := h.powerReq

theorem State.Canon.arrive {tgt} (h : s.Canon) : (s.arrive tgt).Canon := by
  unfold State.arrive
  extract_lets _ _ s1 s2 _ _ s3
  have h1 : s1.Canon := h.reach
  have h2 : s2.Canon := h1.each fun _ _ h => .ite h.fset.fset h
  have h3 : s3.Canon := .ite h.sleep h.upd_core
  clear_value s2
  split
  · exact h.reach.each fun _ _ h => .ite h h.modPt
  · exact ⟨h2.mem, h2.regs⟩
  · exact h.sleep.reach
  · exact State.Canon.reach (.ite h3 h3.lpLost)
  · exact (State.Canon.lpLost (.ite h.sleep h.upd_core)).offReady

theorem State.Canon.transitionDone (h : s.Canon) : s.transitionDone.Canon :=
  .ite h (.ite h.fset.arrive.powerResets h.fset.arrive.powerPending)

theorem State.Canon.addressMatch (h : s.Canon) : s.addressMatch.Canon := .ite h h.powerReq

theorem State.Canon.wavesDone (h : s.Canon) : s.wavesDone.Canon := by
  unfold State.wavesDone
  extract_lets _ s1 _ s2 s3 s4 _ s5
  have h1 : s1.Canon := h.upd_pwr.moduleBack
  have h2 : s2.Canon := .ite h1 (h1.each (fun _ _ h => .ite h h.modPt))
  have h3 : s3.Canon := h2.fset
  have h4 : s4.Canon := h3.reach
  have h5 : s5.Canon := .ite (h4.upd_pwr.each (fun _ _ h => h.nextGen)) h3
  exact .ite h3.reachActive.powerPending h5.trainAll.powerPending

theorem State.Canon.computeWave {failed} (h : s.Canon) : (s.computeWave failed).Canon := by
  unfold State.computeWave
  extract_lets _ s1 s2 _ s3
  have h1 : s1.Canon := h.partUp.partUp
  have h2 : s2.Canon := h1.retireCores.retireCores
  have h3 : s3.Canon := h2.upd_pwr
  exact .ite h (.ite h3.wavesDone h3)

theorem State.Canon.auxLoss (h : s.Canon) : s.auxLoss.Canon := by
  unfold State.auxLoss
  exact .ite h ⟨rfl, rfl⟩

theorem State.Canon.norLost {o} (h : s.Canon) : (s.norLost o).Canon := by
  unfold State.norLost
  split
  · exact h.upd_nor
  · exact h.upd_nor
  · exact h.upd_nor
  · exact h.each fun _ _ h => h.modPt
  · exact h.upd_nor
  · exact h.upd_nor

theorem State.Canon.auxPowerOn {addr} (h : s.Canon) : (s.auxPowerOn addr).Canon := by
  unfold State.auxPowerOn
  refine .ite h ?_
  extract_lets _ _ s1 _ _ _ _ s2 s3 s4
  have h1 : s1.Canon := h.eachOf fun _ _ h => h.norLost
  have h2 : s2.Canon := ⟨h1.mem, h1.regs⟩
  have h3 : s3.Canon := h2.fusedRegs.clearRemaps
  have h4 : s4.Canon := h3.each fun _ _ h => .ite h.fset h
  exact h4.event.eachOf fun _ _ h => h.event

theorem State.Canon.mainInputGood (h : s.Canon) : s.mainInputGood.Canon :=
  .ite h (.ite (.ite h.upd_pwr.startRom h.upd_pwr) (.ite (.ite (.ite h.upd_pwr.startRom h.upd_pwr) h.upd_pwr.upd_pwr)
    h.upd_pwr))

theorem State.Canon.collapse (h : s.Canon) : s.collapse.Canon :=
  h.advFunctions.railsOff.lpLost.fcount.fset.reach.alertPin.powerPending

theorem State.Canon.mainInputLoss (h : s.Canon) : s.mainInputLoss.Canon := by
  unfold State.mainInputLoss
  refine .ite h ?_
  extract_lets _ s1 _ _ _ s2 _ s3 s4 s5 s6
  have h1 : s1.Canon := h.upd_pwr
  have h2 : s2.Canon := h1.lpLost.fset.fcount
  have h3 : s3.Canon := h1.upd_core
  have h4 : s4.Canon := .ite h3.railsOff h3
  have h5 : s5.Canon := .ite h4.fset h4
  have h6 : s6.Canon := .ite h5.reach h5
  exact .ite ((h2.each (fun _ _ h => .ite h.modPt h)).upd_host) (.ite h1.collapse
    (.ite h1.collapse (.ite h6.upd_pwr.fset h6)))

theorem State.Canon.supplyReset {vin} (h : s.Canon) : (s.supplyReset vin).Canon := by
  unfold State.supplyReset
  refine .ite h ?_
  extract_lets s1 _ _ _ s2 s3
  have h1 : s1.Canon := h.setVin.fcount
  have h2 : s2.Canon := h1.upd_pwr
  have h3 : s3.Canon := h2.raise.countHub
  exact .ite h3.upd_pwr.doModule (.ite (.ite h2.upd_pwr.fset h2.fset) (.ite h2 h2.raise.countHub.moduleReset))

theorem State.Canon.clkSet {m v} (h : s.Canon) : (s.clkSet m v).Canon := .ite h.refuse h.store

theorem State.Canon.plimSet {m v} (h : s.Canon) : (s.plimSet m v).Canon := h.store

theorem State.Canon.warnSet {m v} (h : s.Canon) : (s.warnSet m v).Canon := h.store

theorem State.Canon.pwrCtl {m v} (h : s.Canon) : (s.pwrCtl m v).Canon := by
  unfold State.pwrCtl
  extract_lets s1 s2 s3 s4
  have h1 : s1.Canon := .ite h.fset.fset h
  have h2 : s2.Canon := h1.each fun _ _ h => h.setPair
  have h3 : s3.Canon := h2.unsnap
  have h4 : s4.Canon := h3.setReg
  exact .ite h1 (.ite h1.badWrite h4.upd_pwr)

theorem State.Canon.setPin {w} (h : s.Canon) : (s.setPin w).Canon := h.fset.fset

theorem State.Canon.govFlag (h : s.Canon) : s.govFlag.Canon := h.fset

theorem State.Canon.governor {w} (h : s.Canon) : (s.governor w).Canon := by
  unfold State.governor
  refine .ite h ?_
  extract_lets s1 _ _ s2 s3
  have h1 : s1.Canon := h.setPin
  have h2 : s2.Canon := h1.upd_pwr
  have h3 : s3.Canon := h1.fset
  refine .ite (.ite h2 h2.askStretch.fcount.govFlag) (.ite ?_ h1.upd_pwr)
  split
  · exact h3.upd_pwr
  · exact .ite h3.endStretch.govFlag h3

theorem State.Canon.limitLow (h : s.Canon) : s.limitLow.Canon := .ite h.fset.raise h

theorem State.Canon.pwrRow {m v} (h : s.Canon) : (s.pwrRow m v).Canon := h.gate fun _ h => h.pwrReq

/-! ### The functions of Sys2Proof/Machine/HostPort.lean -/

theorem State.Canon.aerLog {f e} (h : s.Canon) : (s.aerLog f e).Canon := .ite h h.upd_host

theorem State.Canon.barRefuse {f read} (h : s.Canon) : (s.barRefuse f read).Canon := by
  unfold State.barRefuse
  extract_lets s1
  have h1 : s1.Canon := h.fcount.aerLog
  exact .ite h1.emit h1

theorem State.Canon.barHit {b} (h : s.Canon) : (s.barHit b).Canon := h.memCount.raiseAs.raise

theorem State.Canon.barRead {f a n} (h : s.Canon) : (s.barRead f a n).Canon :=
  .ite h.aerLog.emit ((h.eachOf (fun _ _ h => h.barHit)).emit)

theorem State.Canon.barWrite {a data} (h : s.Canon) : (s.barWrite a data).Canon := .ite h.fcount h.modEn.memWrite

theorem State.Canon.barPoison {f} (h : s.Canon) : (s.barPoison f).Canon := h.fcount.fcount.aerLog

theorem State.Canon.bar2Read {off n} (h : s.Canon) : (s.bar2Read off n).Canon := .ite h (.ite h.barRead h.barRefuse)

theorem State.Canon.bar2Write {off poisoned data} (h : s.Canon) : (s.bar2Write off poisoned data).Canon :=
  .ite h (.ite h.barPoison (.ite h.barWrite h.barRefuse))

theorem State.Canon.intakeRead {m off n} (h : s.Canon) : (s.intakeRead m off n).Canon := by
  unfold State.intakeRead
  refine .ite h ?_
  split
  · exact h.barRead
  · exact h.barRefuse

theorem State.Canon.intakeWrite {m off poisoned data} (h : s.Canon) : (s.intakeWrite m off poisoned data).Canon := by
  unfold State.intakeWrite
  refine .ite h (.ite h.barPoison ?_)
  split
  · exact h.barWrite
  · exact h.barRefuse

theorem State.Canon.endpointReset (h : s.Canon) : s.endpointReset.Canon := .ite h h.closeEndpoint

theorem State.Canon.pcieFault {arg} (h : s.Canon) : (s.pcieFault arg).Canon := h.raise.countEndpoint.endpointReset

theorem State.Canon.pcieError {aer} (h : s.Canon) : (s.pcieError aer).Canon := .ite h.aerLog.pcieFault h

theorem State.Canon.resetFns {ms} (h : s.Canon) : (s.resetFns ms).Canon := h.upd_host.eachOf fun _ _ h => h.advGen

theorem State.Canon.flr {m} (h : s.Canon) : (s.flr m).Canon := .ite h h.resetFns

theorem State.Canon.perst {x} (h : s.Canon) : (s.perst x).Canon := by
  unfold State.perst
  split
  · exact h.upd_pins
  · exact .ite h.upd_pins.endpointReset h.upd_pins
  · exact .ite h.endpointReset h
  · exact .ite h.upd_host.countEndpoint.endpointReset h

theorem State.Canon.d3hotEnter {m} (h : s.Canon) : (s.d3hotEnter m).Canon := .ite h.upd_host h

theorem State.Canon.d3hotLeave {m} (h : s.Canon) : (s.d3hotLeave m).Canon := .ite h.upd_host h

theorem State.Canon.linkUp {speed width} (h : s.Canon) : (s.linkUp speed width).Canon :=
  .ite h h.fset.fset.fset.upd_host

/-! ### The functions of Sys2Proof/Machine/Smbus.lean -/

theorem State.Canon.smbus {code fw latch f} (h : s.Canon) (hf : ∀ s, s.Canon → (f s).Canon) :
    (s.smbus code fw latch f).Canon :=
  .ite (.ite (hf _ h.addressMatch) h.addressMatch.emit) (.ite h.emit (hf _ h))

theorem State.Canon.smbRead {code b} (h : s.Canon) : (s.smbRead code b).Canon := h.emit

theorem State.Canon.smbAck {code} (h : s.Canon) : (s.smbAck code).Canon := h.emit

theorem State.Canon.alertClr {v} (h : s.Canon) : (s.alertClr v).Canon := h.upd_smb.alertPin

theorem State.Canon.alertEn {v} (h : s.Canon) : (s.alertEn v).Canon := h.upd_smb.alertPin

theorem State.Canon.alertResponse (h : s.Canon) : s.alertResponse.Canon :=
  .ite (.ite h.smbRead h.emit) (.ite h.upd_smb.alertPin.smbRead h.emit)

theorem State.Canon.attStart {sel nonce} (h : s.Canon) : (s.attStart sel nonce).Canon := h.upd_att.attAsk.smbRead

theorem State.Canon.attFetch {off} (h : s.Canon) : (s.attFetch off).Canon := h.smbRead

theorem State.Canon.smbSend {c data} (h : s.Canon) : (s.smbSend c data).Canon :=
  .ite h.smbAck.modMb.chanPost h.smbAck.badWrite

theorem State.Canon.smbRecv {c} (h : s.Canon) : (s.smbRecv c).Canon :=
  .ite h.chanPtrs.smbRead.chanPop h.smbRead.badWrite

/-! ### The functions of Sys2Proof/Machine/Registers.lean -/

theorem State.Canon.floorSet {m v} (h : s.Canon) : (s.floorSet m v).Canon := .ite h.badWrite h.store

theorem State.Canon.mgrCtl {m v} (h : s.Canon) : (s.mgrCtl m v).Canon := h.store

theorem State.Canon.putHub {m off v} (h : s.Canon) : (s.putHub m off v).Canon :=
  .ite h.floorSet (.ite h.hubCmd (.ite h.hubCtl (.ite h.store (.ite h.store
    (.ite h.store (.ite h.setMreg h.store))))))

theorem State.Canon.putTck {m off v} (h : s.Canon) : (s.putTck m off v).Canon :=
  .ite h.tckCtl (.ite (.ite h.fset h) (.ite h.slCtl h.store))

theorem State.Canon.putPwr {m off v} (h : s.Canon) : (s.putPwr m off v).Canon :=
  .ite h.pwrReq (.ite h.clkSet (.ite h.plimSet (.ite h.warnSet (.ite h.pwrCtl h.store))))

theorem State.Canon.putFlt {m off v} (h : s.Canon) : (s.putFlt m off v).Canon :=
  .ite h.store (.ite h.fltPin (.ite h.fltForce (.ite h.qPop (.ite h.srcClr
    (.ite h.frzCmd (.ite h.dumpCtl (.ite h.setMreg h.store)))))))

theorem State.Canon.mbxClear {m c v} (h : s.Canon) : (s.mbxClear m c v).Canon := .ite h.badWrite h.setReg

theorem State.Canon.pendClear {m d v} (h : s.Canon) : (s.pendClear m d v).Canon := .ite h.setReg h.badWrite

theorem State.Canon.putMbx {m off v} (h : s.Canon) : (s.putMbx m off v).Canon :=
  .ite h.mbxCtl (.ite h.mbxClear (.ite (.ite h.dbRing h.badWrite) (.ite h.pendClear (.ite h.sendWrite h.store))))

theorem State.Canon.cmdTurned {hseq} (h : s.Canon) : (s.cmdTurned hseq).Canon := h.fset.fset.irq

theorem State.Canon.putFab {m off v} (h : s.Canon) : (s.putFab m off v).Canon :=
  .ite h.rtCtl (.ite (.ite h.badWrite h.store) (.ite h.mgrCtl (.ite h.fset.fset
    (.ite h.setReg (.ite h.cmdTurned (.ite h.store h.store))))))

theorem State.Canon.putLnk {m off v} (h : s.Canon) : (s.putLnk m off v).Canon :=
  .ite h.lnkCtl (.ite h.expWrite h.store)

theorem State.Canon.coreFlagsClear {m p o v} (h : s.Canon) : (s.coreFlagsClear m p o v).Canon := .ite h h.modCo

theorem State.Canon.upeClear {m p o v} (h : s.Canon) : (s.upeClear m p o v).Canon := by
  unfold State.upeClear
  refine .ite h ?_
  split
  · exact h
  · exact h.store

theorem State.Canon.redClear {m p v} (h : s.Canon) : (s.redClear m p v).Canon := .ite h h.modTree

theorem State.Canon.putPrt {m off v} (h : s.Canon) : (s.putPrt m off v).Canon :=
  .ite h (.ite h.setMreg (.ite h.setMreg (.ite h.store (.ite h.upeClear
    (.ite h.rtrCtl (.ite h.redClear (.ite h.rstCmd (.ite h.rstCtl (.ite h.coreFlagsClear h.store)))))))))

theorem State.Canon.putReg {m off v} (h : s.Canon) : (s.putReg m off v).Canon :=
  .ite h.putHub (.ite h.putTck (.ite h.putPwr (.ite h.putFlt (.ite (.ite h.setMreg h.store)
    (.ite h.putMbx (.ite h.fwCmd (.ite h.authCmd (.ite h.store (.ite h.rigCmd
    (.ite h.rigCtl (.ite h.store (.ite h.putFab (.ite h.putLnk h.putPrt)))))))))))))

theorem State.Canon.stage {off v} (h : s.Canon) : (s.stage off v).Canon := .ite h.upd_sec.fwTakes h

theorem State.Canon.regPut {direct m off v} (h : s.Canon) : (s.regPut direct m off v).Canon :=
  .ite (.ite h h.stage) (.ite h (h.gate (fun _ h => h.putReg)))

theorem State.Canon.indRead {m p o a} (h : s.Canon) : (s.indRead m p o a).2.Canon := by
  unfold State.indRead
  extract_lets
  split
  · exact h.setMreg
  · split
    · exact h.setMreg
    · exact h.setMreg
    · exact .ite h.setMreg h

theorem State.Canon.regRead {direct m off a} (h : s.Canon) : (s.regRead direct m off a).2.Canon :=
  .ite_snd h (.ite_snd h (.ite_snd h (.ite_snd h.indRead (.ite_snd (.ite h.upd_snap2 h.upd_snap0)
    (.ite_snd h (.ite_snd h.badWrite (.ite_snd h.chanPtrs.chanPop h)))))))

theorem State.Canon.readOut {m off a} (h : s.Canon) : (s.readOut m off a).Canon := .ite h (.ite h.emit h.regRead.emit)

/-! ### The functions of Sys2Proof/Machine/Management.lean -/

theorem State.Canon.castAsk {term mgr code mods body} (h : s.Canon) : (s.castAsk term mgr code mods body).Canon :=
  h.modMgr.hubSend

theorem State.Canon.writeAt {mod job l} (h : s.Canon) : (s.writeAt mod job l).Canon :=
  .ite (h.eachOf (fun _ _ h => h.regPut)) (h.eachOf (fun _ _ h => h.mgtAsk))

theorem State.Canon.journalXmap {job x} (h : s.Canon) : (s.journalXmap job x).Canon :=
  .ite h.journal (h.eachOf (fun _ _ h => h.journal))

theorem State.Canon.journalResv {job r} (h : s.Canon) : (s.journalResv job r).Canon := h.eachOf fun _ _ h => h.journal

theorem State.Canon.journalFence {job slice who set} (h : s.Canon) : (s.journalFence job slice who set).Canon :=
  h.journal

theorem State.Canon.recordFar {mods kind data} (h : s.Canon) : (s.recordFar mods kind data).Canon :=
  h.eachOf fun _ _ h => h.mgtAsk

theorem State.Canon.tellCoord {kind data} (h : s.Canon) : (s.tellCoord kind data).Canon := .ite h.recordFar h

theorem State.Canon.sendCircuits {kind head x} (h : s.Canon) : (s.sendCircuits kind head x).Canon :=
  h.eachOf fun _ _ h => h.recordFar

theorem State.Canon.tellResv {r} (h : s.Canon) : (s.tellResv r).Canon := h.recordFar.tellCoord

theorem State.Canon.tellRelease {r} (h : s.Canon) : (s.tellRelease r).Canon := h.recordFar.tellCoord

theorem State.Canon.copyState (h : s.Canon) : s.copyState.Canon := by
  unfold State.copyState
  exact ((h.modMgr.journal.journalXmap.journal.eachOf (fun _ _ h => h.journalResv.eachOf
    (fun _ _ h => h.journalFence))).eachOf (fun _ _ h => h.journal)).journal.journal.journal.journal

theorem State.Canon.applyRecord {kind d} (h : s.Canon) : (s.applyRecord kind d).Canon := by
  unfold State.applyRecord
  split
  · exact h.modMgr
  · exact h.modMgr
  · exact h.each fun _ _ h => h.modPq.setDisc
  · exact h.modMgr
  · exact h.modMgr
  · exact h.modMgr
  · exact h.modMgr
  · exact h.setReg
  · exact h.fset
  · exact .ite h.setRole h
  · exact h.modMgr
  · exact h.modMgr
  · exact h

theorem State.Canon.applyHeld {n} (h : s.Canon) : (s.applyHeld n).Canon := by
  induction n generalizing s with
  | zero => exact h
  | succ n ih =>
    unfold State.applyHeld
    split
    · exact h
    · exact ih h.modMgr.applyRecord

theorem State.Canon.journalIn {p via} (h : s.Canon) : (s.journalIn p via).Canon := by
  unfold State.journalIn
  extract_lets _ _ s1 s2
  have h1 : s1.Canon := .ite h.modMgr h
  have h2 : s2.Canon := .ite h1 h1.modMgr
  exact .ite h.mgtReject h2.applyHeld.mgtReply

theorem State.Canon.follow {term mgr} (h : s.Canon) : (s.follow term mgr).Canon := h.fset.fset.fset

theorem State.Canon.lapse (h : s.Canon) : s.lapse.Canon := by
  unfold State.lapse
  extract_lets _ s1 s2 s3 s4
  have h1 : s1.Canon := h.modMgr
  have h2 : s2.Canon := h1.setRole.fset
  have h3 : s3.Canon := h2.fset
  have h4 : s4.Canon := .ite h3.fset.fset.irq h3
  exact .ite h4.fset.fset.irq h4

theorem State.Canon.regWriteIn {p via} (h : s.Canon) : (s.regWriteIn p via).Canon :=
  (h.eachOf (fun _ _ h => h.regPut)).mgtReply

theorem State.Canon.regReads {m l} (h : s.Canon) : (s.regReads m l).2.Canon := by
  induction l generalizing s with
  | nil => exact h
  | cons o t ih => exact ih h.regRead

theorem State.Canon.regReadIn {p via} (h : s.Canon) : (s.regReadIn p via).Canon := h.regReads.mgtReply

theorem State.Canon.mcOut {p cs} (h : s.Canon) : (s.mcOut p cs).Canon := h.eachOf fun _ _ h => h.portQueue

theorem State.Canon.relayOut {p via} (h : s.Canon) : (s.relayOut p via).Canon := h.modMgr.routeOut

theorem State.Canon.relayBack {p r} (h : s.Canon) : (s.relayBack p r).Canon := h.portQueue

/-! ### The functions of Sys2Proof/Machine/Commands.lean -/

theorem State.Canon.tellSlices {code who cause} (h : s.Canon) : (s.tellSlices code who cause).Canon :=
  h.eachOf fun _ _ h => h.sliceEvent

theorem State.Canon.driftRestore {n} (h : s.Canon) : (s.driftRestore n).Canon := by
  unfold State.driftRestore
  refine h.eachOf fun _ _ h1 => ?_
  split
  · exact h1
  · exact .ite h1.modCx h1

theorem State.Canon.recordIn {ws} (h : s.Canon) : (s.recordIn ws).Canon := by
  unfold State.recordIn
  extract_lets
  split
  · exact h.upd_fab
  · exact h.upd_fab
  · exact h.modCx
  · exact h.modCx
  · exact h.driftRestore
  · exact h

theorem State.Canon.recordTo {mod job ws} (h : s.Canon) : (s.recordTo mod job ws).Canon := .ite h.recordIn h.mgtAsk

theorem State.Canon.armTables (h : s.Canon) : s.armTables.Canon :=
  .ite h ((h.modMgr.eachOf (fun _ _ h => (State.Canon.ite h.recordTo h).writeAt)).tellSlices)

theorem State.Canon.installTables (h : s.Canon) : s.installTables.Canon :=
  (h.modMgr.journal.eachOf (fun _ _ h => h.writeAt)).armTables

theorem State.Canon.aimRef (h : s.Canon) : s.aimRef.Canon := .ite h.upd_tick h

theorem State.Canon.takeInputs {t reroot x} (h : s.Canon) : (s.takeInputs t reroot x).Canon :=
  h.modMgr.aimRef.installTables

theorem State.Canon.nameCircuits {reroot} (h : s.Canon) : (s.nameCircuits reroot).Canon :=
  .ite h h.sendCircuits.takeInputs

theorem State.Canon.modCmd {f} (h : s.Canon) : (s.modCmd f).Canon := h.modMgr

theorem State.Canon.nextPhase (h : s.Canon) : s.nextPhase.Canon := h.modCmd

theorem State.Canon.cmdEnd {st} (h : s.Canon) : (s.cmdEnd st).Canon := by
  unfold State.cmdEnd
  split
  · exact h
  · exact .ite h.modMgr h.modMgr.fset.fset.fset.irq.journal

theorem State.Canon.readAt {mod offs} (h : s.Canon) : (s.readAt mod offs).Canon := .ite h.regReads.modCmd h.mgtAsk

theorem State.Canon.takeManifest {b} (h : s.Canon) : (s.takeManifest b).Canon :=
  (State.Canon.ite h.upd_nor h).modMgr.identAgain.each fun _ _ h => .ite h.identTest h

theorem State.Canon.sendManSeg {route mod job i} (h : s.Canon) : (s.sendManSeg route mod job i).Canon := h.mgtAskBy

theorem State.Canon.sendManifest {route mod job} (h : s.Canon) : (s.sendManifest route mod job).Canon :=
  h.eachOf fun _ _ h => h.sendManSeg

theorem State.Canon.cmdManifest {c} (h : s.Canon) : (s.cmdManifest c).Canon := by
  unfold State.cmdManifest
  extract_lets _ _ _ s1
  have h1 : s1.Canon := h.takeManifest
  split
  · exact .ite h.cmdEnd (.ite h.cmdEnd ((h1.eachOf (fun _ _ h => h.sendManifest)).nextPhase))
  · exact h.cmdEnd

theorem State.Canon.connect {x} (h : s.Canon) : (s.connect x).Canon := by
  unfold State.connect
  extract_lets _ _ _ _ s1 s2 s3
  have h1 : s1.Canon := h.modMgr
  have h2 : s2.Canon := by
    unfold s2
    refine h1.eachOf fun _ _ h3 => ?_
    extract_lets s4
    have h4 : s4.Canon := h3.modPq
    split
    · exact h4.writeAt
    · exact h4
  have h3 : s3.Canon := h2.eachOf fun _ _ h => h.writeAt
  exact h3.nameCircuits

theorem State.Canon.cmdXconnect {c} (h : s.Canon) : (s.cmdXconnect c).Canon := by
  unfold State.cmdXconnect
  extract_lets
  split
  · exact .ite h.cmdEnd (.ite h.cmdEnd (.ite h.cmdEnd h.journalXmap.nextPhase))
  · exact h.connect.sendCircuits.nextPhase
  · exact h.cmdEnd

theorem State.Canon.cmdMode {c} (h : s.Canon) : (s.cmdMode c).Canon := by
  unfold State.cmdMode
  extract_lets
  refine .ite h.cmdEnd ?_
  split
  · exact h.journal.nextPhase
  · exact h.fset.cmdEnd

theorem State.Canon.cmdHandover (h : s.Canon) : s.cmdHandover.Canon := .ite h.cmdEnd h.cmdEnd.nameStep

theorem State.Canon.cmdReserve {c} (h : s.Canon) : (s.cmdReserve c).Canon := by
  unfold State.cmdReserve
  split
  · exact h.cmdEnd
  · split
    · exact h.journalResv.nextPhase
    · exact h.modMgr.tellResv.cmdEnd

theorem State.Canon.cmdRelease {c} (h : s.Canon) : (s.cmdRelease c).Canon := by
  unfold State.cmdRelease
  split
  · exact h.cmdEnd
  · split
    · exact h.nextPhase.eachOf fun _ _ h => h.readAt
    · exact .ite h.cmdEnd h.journal.nextPhase
    · exact h.modMgr.tellRelease.cmdEnd

theorem State.Canon.slCancel {c r} (h : s.Canon) : (s.slCancel c r).Canon := h.eachOf fun _ _ h => h.writeAt

theorem State.Canon.cmdSlice {c} (h : s.Canon) : (s.cmdSlice c).Canon := by
  unfold State.cmdSlice
  extract_lets _ _ s1
  have h1 : s1.Canon := h.nextPhase.modCmd
  split
  · exact h.cmdEnd
  · refine .ite h.cmdEnd ?_
    split
    · exact h1.eachOf fun _ _ h => h.readAt
    · exact .ite h.cmdEnd (.ite h.cmdEnd ((h.eachOf (fun _ _ h => h.writeAt)).modCmd))
    · exact .ite h.slCancel.cmdEnd ((h.eachOf (fun _ _ h => h.writeAt)).modCmd)
    · exact h.cmdEnd

theorem State.Canon.fenceCancel {c r} (h : s.Canon) : (s.fenceCancel c r).Canon := h.eachOf fun _ _ h => h.recordTo

theorem State.Canon.cmdFence {c} (h : s.Canon) : (s.cmdFence c).Canon := by
  unfold State.cmdFence
  extract_lets _ _ _ _ s1
  have h1 : s1.Canon := h.modMgr
  split
  · exact h.cmdEnd
  · refine .ite h.cmdEnd ?_
    split
    · exact .ite h.cmdEnd h.journalFence.nextPhase.modCmd
    · exact .ite h.cmdEnd (h.nextPhase.eachOf (fun _ _ h => h.recordTo))
    · exact .ite h.fenceCancel.cmdEnd (h.nextPhase.eachOf (fun _ _ h => h.recordTo))
    · exact h1.sliceEvent.cmdEnd

theorem State.Canon.cmdTree {c} (h : s.Canon) : (s.cmdTree c).Canon := by
  unfold State.cmdTree
  split
  · exact h.cmdEnd
  · refine .ite h.cmdEnd ?_
    split
    · exact h.nextPhase.eachOf fun _ _ h => h.readAt
    · exact .ite h.cmdEnd (h.nextPhase.eachOf (fun _ _ h => h.recordTo))
    · exact h.cmdEnd

theorem State.Canon.cmdPeriod {c} (h : s.Canon) : (s.cmdPeriod c).Canon := by
  unfold State.cmdPeriod
  extract_lets
  refine .ite h.cmdEnd (.ite h.cmdEnd (.ite h.cmdEnd ?_))
  split
  · exact h.nextPhase.modCmd.eachOf fun _ _ h => h.readAt
  · exact (h.eachOf (fun _ _ h => h.writeAt)).modCmd
  · exact (h.eachOf (fun _ _ h => h.writeAt)).nextPhase
  · exact h.cmdEnd

theorem State.Canon.adaptCancel {c} (h : s.Canon) : (s.adaptCancel c).Canon := h.eachOf fun _ _ h => h.recordTo

theorem State.Canon.cmdAdapt {c} (h : s.Canon) : (s.cmdAdapt c).Canon := by
  unfold State.cmdAdapt
  extract_lets _ _ s1
  have h1 : s1.Canon := h.nextPhase.modCmd
  refine .ite h.cmdEnd ?_
  split
  · exact h1.eachOf fun _ _ h => h.recordTo
  · exact .ite h.adaptCancel.cmdEnd (h.nextPhase.eachOf (fun _ _ h => h.recordTo))
  · exact h.cmdEnd

theorem State.Canon.cmdStage {c} (h : s.Canon) : (s.cmdStage c).Canon := .ite h.cmdEnd (.ite h.cmdEnd h.modMgr.cmdEnd)

theorem State.Canon.cmdRestart {c} (h : s.Canon) : (s.cmdRestart c).Canon := by
  unfold State.cmdRestart
  extract_lets _ _ _ s1
  have h1 : s1.Canon := h.modMgr
  refine .ite h.cmdEnd ?_
  split
  · exact h1.writeAt.nextPhase
  · exact h.cmdEnd

theorem State.Canon.cmdFloor {c} (h : s.Canon) : (s.cmdFloor c).Canon := by
  unfold State.cmdFloor
  extract_lets
  split
  · exact .ite h.cmdEnd (.ite h.cmdEnd ((h.eachOf (fun _ _ h => h.writeAt)).nextPhase))
  · exact h.cmdEnd

theorem State.Canon.cmdForward {c} (h : s.Canon) : (s.cmdForward c).Canon := by
  unfold State.cmdForward
  extract_lets _ _ _ _ _ s1 s2
  have h1 : s1.Canon := by
    unfold s1
    refine .ite h ?_
    split
    · exact h.memWrite
    · exact h
  have h2 : s2.Canon := h1.nextPhase
  refine .ite h.cmdEnd (.ite h.cmdEnd (.ite h1.cmdEnd (.ite (.ite h2.regPut ?_) (.ite h2.mgtAsk h2.mgtAsk))))
  split
  next e => exact (State.Canon.of_snd e h2.regReads).modCmd

theorem State.Canon.cmdPhase {c} (h : s.Canon) : (s.cmdPhase c).Canon := by
  unfold State.cmdPhase
  split
  · exact h.cmdManifest
  · exact h.cmdXconnect
  · exact h.cmdMode
  · exact h.cmdReserve
  · exact h.cmdRelease
  · exact h.cmdSlice
  · exact h.cmdFence
  · exact h.cmdPeriod
  · exact h.cmdTree
  · exact h.cmdHandover
  · exact h.cmdStage
  · exact h.cmdRestart
  · exact h.cmdAdapt
  · exact h.cmdFloor
  · exact h.cmdForward
  · exact h.cmdEnd

theorem State.Canon.cmdRun {n} (h : s.Canon) : (State.cmdRun n s).Canon := by
  induction n generalizing s with
  | zero => exact h
  | succ n ih =>
    unfold State.cmdRun
    split
    · exact h
    · exact .ite h (.ite (ih h.modCmd.journal) (ih h.cmdPhase))

theorem State.Canon.proceed (h : s.Canon) : s.proceed.Canon := h.cmdRun.armTables.armCommits

theorem State.Canon.ownCmd {code args} (h : s.Canon) : (s.ownCmd code args).Canon := h.modMgr.proceed

theorem State.Canon.fabCmd {v} (h : s.Canon) : (s.fabCmd v).Canon := .ite h.cmdTurned h.fset.modMgr.proceed

theorem State.Canon.cmdDeadline (h : s.Canon) : s.cmdDeadline.Canon := by
  unfold State.cmdDeadline
  split
  · exact h
  · refine .ite h ?_
    extract_lets s1
    have h1 : s1.Canon := by
      unfold s1
      split
      · exact .ite h h.slCancel
      · exact h.fenceCancel
      · exact h.adaptCancel
      · exact h
    exact h1.cmdEnd.proceed

theorem State.Canon.fabRow {code m hseq} (h : s.Canon) : (s.fabRow code m hseq).Canon := h.gate fun _ h => h.fabCmd

/-! ### The functions of Sys2Proof/Machine/Members.lean -/

theorem State.Canon.memberLost {b} (h : s.Canon) : (s.memberLost b).Canon := by
  unfold State.memberLost
  extract_lets
  split
  · exact h
  · extract_lets s1 s2 s3
    have h1 : s1.Canon := h.abortTick
    have h2 : s2.Canon := .ite h1.holdAt h1
    have h3 : s3.Canon := .ite h2.modCx h2
    exact h3.sliceEvent

theorem State.Canon.loseFor {r mod mask cause whole} (h : s.Canon) : (s.loseFor r mod mask cause whole).Canon := by
  unfold State.loseFor
  extract_lets _ _ _ _ s1 s2 s3 s4
  have h1 : s1.Canon := .ite h h.mgtCast
  have h2 : s2.Canon := h1.eachOf fun _ _ h => h.mgtSend
  have h3 : s3.Canon := h2.memberLost.raise
  have h4 : s4.Canon := .ite h3 h3.loseSlice
  exact h4.ownCmd

theorem State.Canon.dropAwaits {mod} (h : s.Canon) : (s.dropAwaits mod).Canon := .ite h.modMgr.cmdEnd h.modMgr

theorem State.Canon.countLost {mod mask whole cause} (h : s.Canon) : (s.countLost mod mask whole cause).Canon := by
  unfold State.countLost
  extract_lets _ _ _ s1 s2 s3 s4 s5
  have h1 : s1.Canon := h.cancelStep.modMgr
  have h2 : s2.Canon := .ite h1.dropAwaits h1
  have h3 : s3.Canon := .ite h2.modMgr h2
  have h4 : s4.Canon := h3.tellCoord
  have h5 : s5.Canon := by
    unfold s5
    refine h4.eachOf fun _ _ h6 => ?_
    split
    · exact .ite h6 h6.loseFor
    · exact h6
  exact .ite h h5.proceed

theorem State.Canon.countBack {mod keys} (h : s.Canon) : (s.countBack mod keys).Canon := by
  unfold State.countBack
  extract_lets _ s1 s2
  have h1 : s1.Canon := h.modMgr
  have h2 : s2.Canon := h1.tellCoord
  refine .ite h (h2.eachOf (fun _ _ h3 => ?_))
  split
  · exact h3.sliceEvent
  · exact h3

theorem State.Canon.noticeIn {p} (h : s.Canon) : (s.noticeIn p).Canon := (State.Canon.ite h.advGen h).countLost

theorem State.Canon.featRefresh (h : s.Canon) : s.featRefresh.Canon := h.fset.fset

theorem State.Canon.sendFw {v segs} (h : s.Canon) : (s.sendFw v segs).Canon := h.eachOf fun _ _ h => h.mgtAskBy

theorem State.Canon.serveFrom {mod} (h : s.Canon) : (s.serveFrom mod).Canon := by
  unfold State.serveFrom
  extract_lets
  refine .ite h (h.eachOf (fun _ _ h1 => ?_))
  split
  · exact .ite h1 h1.modPq.modMgr.sendFw
  · exact h1

theorem State.Canon.fwReplyIn {mod b} (h : s.Canon) : (s.fwReplyIn mod b).Canon := by
  unfold State.fwReplyIn
  split
  · exact h.sendFw
  · exact h

theorem State.Canon.fwSegIn {p via} (h : s.Canon) : (s.fwSegIn p via).Canon := by
  unfold State.fwSegIn
  split
  · exact .ite h.mgtReject (.ite h.upd_sec.fwTakes h.upd_sec.fwTakes.upd_sec.fwImage)
  · exact h.mgtReject
  · exact h

theorem State.Canon.heartbeat (h : s.Canon) : s.heartbeat.Canon :=
  .ite h (.ite (.ite h.serveFrom h) (.ite h h.mgtSend))

theorem State.Canon.heartbeatIn {p} (h : s.Canon) : (s.heartbeatIn p).Canon := by
  unfold State.heartbeatIn
  extract_lets _ s1
  have h1 : s1.Canon := h.modPq.countBack
  exact .ite h1.serveFrom h1

theorem State.Canon.heartbeatLoss {m} (h : s.Canon) : (s.heartbeatLoss m).Canon := .ite h.countLost h

theorem State.Canon.firstSect {n sid} (h : s.Canon) : (s.firstSect n sid).Canon := by
  unfold State.firstSect
  split
  · exact h
  · exact .ite h h.modMgr.dropShadow.beginShadow

theorem State.Canon.sectionIn {r e} (h : s.Canon) : (s.sectionIn r e).Canon := by
  unfold State.sectionIn
  extract_lets
  split
  · exact h
  · extract_lets
    refine .ite h (.ite h.modMgr ?_)
    split
    · exact h.firstSect.takeSect
    · exact h

theorem State.Canon.planIn {p} (h : s.Canon) : (s.planIn p).Canon := h.modMgr.eachOf fun _ _ h => h.sectionIn

theorem State.Canon.segIn {p} (h : s.Canon) : (s.segIn p).Canon := by
  unfold State.segIn
  extract_lets
  split
  · split
    · exact h
    · exact .ite h h.modMgr.sectionIn
  · exact h

theorem State.Canon.resendTimer (h : s.Canon) : s.resendTimer.Canon := by
  unfold State.resendTimer
  extract_lets s1 s2
  have h1 : s1.Canon := by
    unfold s1
    split
    · exact .ite h h.modMgr.mgtSend
    · exact h
  have h2 : s2.Canon := .ite h1 h1.modMgr.mgtSend
  split
  · exact .ite h2 h2.upd_sec.mgtReply
  · exact h2

theorem State.Canon.resendIn {p} (h : s.Canon) : (s.resendIn p).Canon :=
  .ite (h.eachOf (fun _ _ h => h.sendManSeg)) (.ite h (h.eachOf (fun _ _ h => h.sendSeg)))

theorem State.Canon.warmIn {sid m} (h : s.Canon) : (s.warmIn sid m).Canon := by
  unfold State.warmIn
  split
  · exact h
  · exact .ite h.modMgr.ownCmd h.modMgr

theorem State.Canon.warmTell {n} (h : s.Canon) : (s.warmTell n).Canon := .ite h (.ite h.warmIn h.mgtSend)

theorem State.Canon.reportIn {p} (h : s.Canon) : (s.reportIn p).Canon := by
  unfold State.reportIn
  extract_lets _ _ _ _ _ s1 s2
  have h1 : s1.Canon := h.rigErr
  have h2 : s2.Canon := h.takeReport
  refine .ite ?_ (.ite h.warmIn (.ite h2.journal h2))
  split
  · exact h
  · exact h1.eachOf fun _ _ h => .ite h.idleCtx h.writeAt

theorem State.Canon.eventIn {p via} (h : s.Canon) : (s.eventIn p via).Canon := .ite h.postEvent h.recordIn.mgtReply

/-! ### The functions of Sys2Proof/Machine/Coordinator.lean -/

theorem State.Canon.modCoord {f} (h : s.Canon) : (s.modCoord f).Canon := h.modMgr

theorem State.Canon.coordTetherOut (h : s.Canon) : s.coordTetherOut.Canon :=
  h.modCoord.modMgr.eachOf fun _ _ h => h.mgtAsk

theorem State.Canon.coordTether (h : s.Canon) : s.coordTether.Canon := .ite h.coordTetherOut h

theorem State.Canon.spreadCoord (h : s.Canon) : s.spreadCoord.Canon := h.eachOf fun _ _ h => h.writeAt

theorem State.Canon.coordLapse (h : s.Canon) : s.coordLapse.Canon := h.fset.fset.modCoord.modMgr.aimRef

theorem State.Canon.becomeCoord (h : s.Canon) : s.becomeCoord.Canon := by
  unfold State.becomeCoord
  extract_lets s1 s2 s3
  have h1 : s1.Canon := h.fset.fset.fset
  have h2 : s2.Canon := h1.modCoord
  have h3 : s3.Canon := h2.aimRef.spreadCoord.coordTetherOut
  exact .ite h3 h3.nameCircuits

theorem State.Canon.coordinate (h : s.Canon) : s.coordinate.Canon := .ite h h.fset.becomeCoord

theorem State.Canon.reportGroup (h : s.Canon) : s.reportGroup.Canon :=
  ((h.eachOf (fun _ _ h => h.tellCoord)).eachOf (fun _ _ h => h.tellCoord)).eachOf fun _ _ h => h.tellResv

theorem State.Canon.takeCoord {term mod} (h : s.Canon) : (s.takeCoord term mod).Canon := by
  unfold State.takeCoord
  extract_lets _ s1 s2 s3
  have h1 : s1.Canon := .ite h.coordLapse h
  have h2 : s2.Canon := h1.fset
  have h3 : s3.Canon := h2.fset.fset
  exact .ite h3.aimRef.spreadCoord.reportGroup h3

theorem State.Canon.coordTetherIn {p via} (h : s.Canon) : (s.coordTetherIn p via).Canon :=
  h.takeCoord.modCoord.mgtReply

theorem State.Canon.coordReplyIn {m b} (h : s.Canon) : (s.coordReplyIn m b).Canon := by
  unfold State.coordReplyIn
  extract_lets _ s1
  have h1 : s1.Canon := h.modCoord
  split
  · exact .ite h1.modCoord h1
  · exact h1

theorem State.Canon.coordLease (h : s.Canon) : s.coordLease.Canon := .ite h.coordLapse h

theorem State.Canon.coordTakeover (h : s.Canon) : s.coordTakeover.Canon := by
  unfold State.coordTakeover
  split
  · exact h
  · exact .ite h (h.fset.modCoord.eachOf (fun _ _ h => h.mgtAsk))

theorem State.Canon.coordTermIn {p via} (h : s.Canon) : (s.coordTermIn p via).Canon :=
  .ite h.mgtReply (.ite h.mgtStale h.takeCoord.mgtReply)

theorem State.Canon.coordTermReply {m p} (h : s.Canon) : (s.coordTermReply m p).Canon :=
  .ite h (.ite h.modCoord.becomeCoord h.modCoord)

theorem State.Canon.coordTermOver (h : s.Canon) : s.coordTermOver.Canon := by
  unfold State.coordTermOver
  split
  · exact .ite h.modCoord h
  · exact h

theorem State.Canon.gather {d head} (h : s.Canon) : (s.gather d head).2.Canon := by
  unfold State.gather
  extract_lets
  split
  all_goals
    dsimp only
    exact h.modCoord

theorem State.Canon.coordRecord {kind d} (h : s.Canon) : (s.coordRecord kind d).Canon := by
  unfold State.coordRecord
  split
  · split
    · rename_i _ s1 e
      have h1 : s1.Canon := .of_snd e h.gather
      exact h1.connect
    · rename_i s1 e
      have h1 : s1.Canon := .of_snd e h.gather
      exact h1
  · split
    · rename_i _ s1 e
      have h1 : s1.Canon := .of_snd e h.gather
      exact h1.takeInputs
    · rename_i s1 e
      have h1 : s1.Canon := .of_snd e h.gather
      exact h1
  · exact h.modCoord.nameCircuits
  · exact h.countLost
  · exact h.countBack
  · exact h.modCoord
  · exact h.modCoord
  · exact h

theorem State.Canon.coordRecordIn {p via} (h : s.Canon) : (s.coordRecordIn p via).Canon := h.coordRecord.mgtReply

/-! ### The functions of Sys2Proof/Machine/Roles.lean -/

theorem State.Canon.secondPath {m body} (h : s.Canon) : (s.secondPath m body).Canon := by
  unfold State.secondPath
  exact .ite h h.mgtAskBy

theorem State.Canon.tetherOut (h : s.Canon) : s.tetherOut.Canon := by
  unfold State.tetherOut
  extract_lets _ _ s1 s2
  have h1 : s1.Canon := h.modMgr
  have h2 : s2.Canon := by
    unfold s2
    split
    · exact .ite h1.mgtAsk.secondPath h1
    · exact h1
  exact .ite h2.castAsk (h2.eachOf (fun _ _ h => h.mgtAsk))

theorem State.Canon.tether (h : s.Canon) : s.tether.Canon := .ite h.tetherOut h

theorem State.Canon.writeParents (h : s.Canon) : s.writeParents.Canon := by
  unfold State.writeParents
  extract_lets
  refine h.eachOf fun _ _ h1 => ?_
  split
  · exact h1.writeAt
  · exact h1

theorem State.Canon.becomeActing (h : s.Canon) : s.becomeActing.Canon := by
  unfold State.becomeActing
  exact h.fset.fset.modMgr.setRole.fset.aimRef.coordinate.featRefresh.tetherOut

theorem State.Canon.takeOver (h : s.Canon) : s.takeOver.Canon := h.becomeActing.writeParents.tellSlices

theorem State.Canon.tetherIn {p via} (h : s.Canon) : (s.tetherIn p via).Canon := by
  unfold State.tetherIn
  extract_lets _ s1 s2 _ s3 s4 s5
  have h1 : s1.Canon := h.follow
  have h2 : s2.Canon := h1.modMgr
  have h3 : s3.Canon := .ite h2.setRole h2
  have h4 : s4.Canon := h3.modMgr
  have h5 : s5.Canon := .ite h4.fset h4
  exact .ite h1 h5.mgtReply

theorem State.Canon.tetherReplyIn {m b} (h : s.Canon) : (s.tetherReplyIn m b).Canon := by
  unfold State.tetherReplyIn
  extract_lets _ s1 s2
  have h1 : s1.Canon := h.modMgr
  have h2 : s2.Canon := by
    unfold s2
    split
    · exact .ite h1.modMgr.fset h1
    · exact h1
  exact .ite h2.copyState h2

theorem State.Canon.leaseOver (h : s.Canon) : s.leaseOver.Canon := .ite h.lapse h

theorem State.Canon.takeover (h : s.Canon) : s.takeover.Canon := .ite h h.fset.fset.modMgr.castAsk

theorem State.Canon.termSetIn {p via} (h : s.Canon) : (s.termSetIn p via).Canon :=
  .ite h.mgtReply (.ite h.mgtStale h.follow.mgtReply)

theorem State.Canon.termSetReplyIn {m p} (h : s.Canon) : (s.termSetReplyIn m p).Canon :=
  .ite h (.ite h.modMgr ((h.modMgr.becomeActing.modMgr.eachOf (fun _ _ h =>
    h.dropSlice.abandonOthers)).fset.fset.irq.raise.writeParents.tellSlices))

theorem State.Canon.termTimeout (h : s.Canon) : s.termTimeout.Canon := by
  unfold State.termTimeout
  split
  · exact .ite h.modMgr h
  · exact h

theorem State.Canon.handback (h : s.Canon) : s.handback.Canon := .ite h.mgtAsk h

theorem State.Canon.handbackIn {p via} (h : s.Canon) : (s.handbackIn p via).Canon :=
  .ite h.mgtReply (.ite h.mgtReply.nameStep (.ite h.mgtReply.modMgr h.mgtReply))

theorem State.Canon.handbackStep (h : s.Canon) : s.handbackStep.Canon := by
  unfold State.handbackStep
  split
  · exact h
  · exact .ite h.modMgr.setRole.fset.fset.upd_tick (.ite h.fset.takeOver h)

theorem State.Canon.recoveryEnd (h : s.Canon) : s.recoveryEnd.Canon := by
  unfold State.recoveryEnd
  extract_lets s1
  have h1 : s1.Canon := by
    unfold s1
    split
    · exact .ite h.modMgr h
    · exact h
  exact .ite h1.nameStep h1

theorem State.Canon.sbyStart (h : s.Canon) : s.sbyStart.Canon := by
  unfold State.sbyStart
  extract_lets
  split
  · exact h
  · exact .ite h.beginManager h

/-! ### The functions of Sys2Proof/Machine/Discovery.lean -/

theorem State.Canon.discoverOut {pos route} (h : s.Canon) : (s.discoverOut pos route).Canon :=
  .ite h h.fresh.fset.fset.modPq.modMgr.mgtAskBy

theorem State.Canon.discoverIn {p via} (h : s.Canon) : (s.discoverIn p via).Canon := .ite h.attAsk h

theorem State.Canon.finish (h : s.Canon) : s.finish.Canon := by
  unfold State.finish
  exact .ite h ((State.Canon.ite h h.fset.modMgr).fset.becomeActing.installTables)

theorem State.Canon.takeTerm (h : s.Canon) : s.takeTerm.Canon := .ite h h.fset.modMgr

theorem State.Canon.assignOut {pos lacks} (h : s.Canon) : (s.assignOut pos lacks).Canon := by
  unfold State.assignOut
  extract_lets _ _ s1 s2
  have h1 : s1.Canon := .ite h.takeTerm h
  have h2 : s2.Canon := .ite h1.sendManifest h1
  exact h2.mgtAskBy

theorem State.Canon.refusePos {pos} (h : s.Canon) : (s.refusePos pos).Canon := h.setDisc.raise

theorem State.Canon.checkReply {pos} (h : s.Canon) : (s.checkReply pos).Canon :=
  (State.Canon.ite h.modPq.modMgr.setDisc.modPq.assignOut.countBack.featRefresh
    (h.modPq.modMgr.refusePos.eachOf (fun _ _ h => h.refusePos))).finish

theorem State.Canon.discoverReplyIn {m p} (h : s.Canon) : (s.discoverReplyIn m p).Canon := by
  unfold State.discoverReplyIn
  extract_lets _ s1
  have h1 : s1.Canon := h.modMgr
  split
  · exact h
  · exact .ite h1.modPq.checkReply h1.modPq

theorem State.Canon.discoverOver {pos} (h : s.Canon) : (s.discoverOver pos).Canon := .ite h.setDisc.finish h

theorem State.Canon.assignIn {p via} (h : s.Canon) : (s.assignIn p via).Canon := h.follow.takeId.mgtReply

theorem State.Canon.manSegIn {p via} (h : s.Canon) : (s.manSegIn p via).Canon := by
  unfold State.manSegIn
  split
  · exact h
  · extract_lets _ s1 s2 _ _ s3
    have h1 : s1.Canon := h.modMgr
    have h2 : s2.Canon := h1.mgtReply
    have h3 : s3.Canon := h2.modMgr
    exact .ite h2 (.ite h3.takeManifest h3)

theorem State.Canon.linkChange {pos port now} (h : s.Canon) : (s.linkChange pos port now).Canon := by
  unfold State.linkChange
  refine .ite h ?_
  extract_lets _ _ s1 s2 _ _ _ s3 s4 s5
  have h1 : s1.Canon := h.modPq
  have h2 : s2.Canon := by
    unfold s2
    split
    · exact h1.modPq
    · exact h1
  have h3 : s3.Canon := .ite h2.raise h2
  have h4 : s4.Canon := .ite h3 h3.cancelStep
  have h5 : s5.Canon := .ite h4.tellCoord.nameCircuits h4.installTables
  exact h5.eachOf fun _ _ h => .ite h.countLost h

/-! ### The functions of Sys2Proof/Machine/Folds.lean -/

theorem State.Canon.setDrift {d} (h : s.Canon) : (s.setDrift d).Canon := h.modMgr

theorem State.Canon.driftFound {r} (h : s.Canon) : (s.driftFound r).Canon := h.fset.raise.sliceEvent.ownCmd

theorem State.Canon.driftCompare {sid m b} (h : s.Canon) : (s.driftCompare sid m b).Canon := by
  unfold State.driftCompare
  split
  · exact .ite h h.sliceEvent.recordTo
  · exact h

theorem State.Canon.driftWatch (h : s.Canon) : s.driftWatch.Canon := .ite h h.modMgr

theorem State.Canon.driftAsk {r} (h : s.Canon) : (s.driftAsk r).Canon :=
  (h.eachOf (fun _ _ h => .ite h.driftCompare h.mgtAsk)).driftWatch

theorem State.Canon.driftRead {m b} (h : s.Canon) : (s.driftRead m b).Canon :=
  (h.eachOf (fun _ _ h => h.driftCompare)).driftWatch

theorem State.Canon.foldCheck {f} (h : s.Canon) : (s.foldCheck f).Canon := by
  unfold State.foldCheck
  extract_lets _ _ s1
  have h1 : s1.Canon := h.fcount
  split
  · exact h
  · refine .ite h.setDrift ?_
    extract_lets _ _ s2 s3
    have h2 : s2.Canon := .ite h1 h1.fcount
    have h3 : s3.Canon := .ite h2.raise.sliceEvent h2
    exact .ite (.ite h3.setDrift.sliceEvent.ownCmd (.ite h3.setDrift.ownCmd h3.setDrift))
      (.ite h3.setDrift.driftAsk (.ite h3.setDrift.driftFound h3.setDrift))

theorem State.Canon.foldSend {f} (h : s.Canon) : (s.foldSend f).Canon := by
  unfold State.foldSend
  extract_lets s1
  have h1 : s1.Canon := h.modMgr
  refine .ite h1.hubSend (.ite h1.foldCheck (.ite h1 ?_))
  split
  · exact .ite h1 h1.hubSend
  · exact h1

theorem State.Canon.foldRound (h : s.Canon) : s.foldRound.Canon :=
  .ite h (((h.eachOf (fun _ _ h => h.modCx)).eachOf (fun _ _ h => h.each (fun _ _ h => h.setReg))).modMgr.eachOf
    (fun _ _ h => .ite h.foldSend h))

theorem State.Canon.foldReport {p} (h : s.Canon) : (s.foldReport p).Canon := by
  unfold State.foldReport
  extract_lets
  refine .ite h.mgtReject ?_
  split
  · exact .ite h (.ite h.modMgr.foldSend h.modMgr)
  · exact .ite h h.modMgr

theorem State.Canon.foldOver (h : s.Canon) : s.foldOver.Canon := by
  unfold State.foldOver
  split
  · exact .ite (h.eachOf (fun _ _ h => h.foldSend)) h
  · exact h

/-! ### The functions of Sys2Proof/Machine/Manager.lean -/

theorem State.Canon.answerIn {p a} (h : s.Canon) : (s.answerIn p a).Canon := by
  unfold State.answerIn
  extract_lets _ s1
  have h1 : s1.Canon := .ite h h.modMgr
  split
  · exact .ite h1.coordReplyIn h1.tetherReplyIn
  · exact .ite h1.modMgr h1.proceed
  · exact .ite h1.coordTermReply h1.termSetReplyIn
  · exact h1.discoverReplyIn
  · exact .ite h1.modCmd.proceed (.ite h1.driftRead h1)
  · exact h1.fwReplyIn
  · exact h1.proceed

theorem State.Canon.commandIn {p via} (h : s.Canon) : (s.commandIn p via).Canon := by
  unfold State.commandIn
  split
  · exact .ite h.coordTetherIn h.tetherIn
  · exact .ite h.coordRecordIn h.journalIn
  · exact h.handbackIn
  · exact .ite h.coordTermIn h.termSetIn
  · exact h.discoverIn
  · exact h.assignIn
  · exact h.manSegIn
  · exact h.regWriteIn
  · exact h.regReadIn
  · exact h.planIn
  · exact h.segIn
  · exact h.resendIn
  · exact h.reportIn
  · exact h.eventIn
  · exact h.memberLost
  · exact h.noticeIn
  · exact h.heartbeatIn
  · exact h.fwSegIn
  · exact h.mgtReject

theorem State.Canon.mgtTake {p via} (h : s.Canon) : (s.mgtTake p via).Canon := by
  unfold State.mgtTake
  extract_lets _ s1 _ s2 _ _ s3
  have h1 : s1.Canon := .ite h.lapse h
  have h2 : s2.Canon := .ite h1.coordLapse h1
  have h3 : s3.Canon := .ite h2.fset h2
  split
  · exact h2.mgtReject
  · exact h2.mgtStale
  · refine .ite ?_ h3.commandIn
    split
    · exact h2.answerIn
    · exact h2

theorem State.Canon.mgtArrive {p via} (h : s.Canon) : (s.mgtArrive p via).Canon := by
  unfold State.mgtArrive
  refine .ite h (.ite h.mgtReject (.ite h (.ite (.ite h.mcOut.mgtTake h.mcOut) (.ite ?_ ?_))))
  · split
    · exact h.relayOut
    · exact h.mgtReject
  · split
    · exact h.relayBack
    · exact h.mgtTake

theorem State.Canon.onCode {codes p via} (h : s.Canon) : (s.onCode codes p via).Canon := .ite h.mgtArrive h

/-! ### The functions of Sys2Proof/Machine/Fabric.lean -/

theorem State.Canon.sent {rk o p} (h : s.Canon) : (s.sent rk o p).Canon := h.flows.modRt

theorem State.Canon.coreDraw {rk d c vc} (h : s.Canon) : (s.coreDraw rk d c vc).Canon := by
  unfold State.coreDraw
  extract_lets
  split
  · exact h
  · split
    · exact h.modCo.modRt.queueAt
    · exact h

theorem State.Canon.portDraw {rk inp pd vc} (h : s.Canon) : (s.portDraw rk inp pd vc).Canon := by
  unfold State.portDraw
  split
  · exact h
  · split
    · exact h
    · exact h.modPo.freeUnits.modRt

theorem State.Canon.refill {rk inp vc} (h : s.Canon) : (s.refill rk inp vc).Canon := by
  unfold State.refill
  split
  · split
    · extract_lets s1
      have h1 : s1.Canon := h.modRt
      refine .ite h1 (.ite ?_ ?_)
      · split
        · exact h1.coreDraw
        · exact h1
      · split
        · exact h1.portDraw
        · exact h1

theorem State.Canon.injectFail {kind src p} (h : s.Canon) : (s.injectFail kind src p).Canon := by
  unfold State.injectFail
  extract_lets _ s1
  have h1 : s1.Canon := h.fcount
  refine .ite h1 ?_
  split
  · exact h1.freeze.isoFault.holdAt
  · exact h1.freeze.isoFault

theorem State.Canon.deliver {via p} (h : s.Canon) : (s.deliver via p).Canon := by
  unfold State.deliver
  refine .ite h ?_
  split
  · exact .ite h.mgtArrive (.ite h.mgtArrive h.mgtReject)
  · exact h.arriveWrite
  · exact h.arriveRead
  · exact h.arriveReply
  · exact h.arriveWrite
  · exact h.arriveRed
  · exact .ite h.foldReport h.pruneReport
  · exact h.arriveCore

theorem State.Canon.pickDir {l} (h : s.Canon) : (s.pickDir l).2.Canon := by
  unfold State.pickDir
  split
  · exact h
  · exact h
  · exact h.fresh

theorem State.Canon.restartWait {rk inp vc} (h : s.Canon) : (s.restartWait rk inp vc).Canon := by
  unfold State.restartWait
  split
  · split
    · exact .ite h h.modRt
    · exact h
  · exact h

theorem State.Canon.popAt {rk inp vc} (h : s.Canon) : (s.popAt rk inp vc).Canon := by
  unfold State.popAt
  extract_lets s1
  have h1 : s1.Canon := h.modRt
  split
  · split
    · exact .ite (h1.each (fun _ _ h => h.restartWait)) h1
    · exact h1

theorem State.Canon.takeTokens {rk o n} (h : s.Canon) : (s.takeTokens rk o n).Canon := h.modRt

theorem State.Canon.strandGrant {rk inp slice sid u} (h : s.Canon) : (s.strandGrant rk inp slice sid u).Canon := by
  unfold State.strandGrant
  split
  · split
    · split
      · split
        · exact h
        · exact .ite h (.ite h.strandUnit h.strandUnit.modRt)
      · exact h

theorem State.Canon.place {rk out via g p} (h : s.Canon) : (s.place rk out via g p).2.Canon := by
  unfold State.place
  split
  · split
    · extract_lets _ _ _ s1
      have h1 : s1.Canon := .ite h.sent.takeTokens h.sent
      refine .ite_snd h.deliver (.ite_snd (.ite_snd h (.ite_snd h (.ite h1.portQueue h1.deliver))) ?_)
      split
      · extract_lets
        refine .ite_snd h.stalls ?_
        split
        rename_i _ s2 e
        have h2 : s2.Canon := .of_snd e h.pickDir
        split
        · exact h2
        · split
          · exact h2
          · exact State.Canon.modRt (.ite h2.sent.takeTokens h2.sent)

theorem State.Canon.sendOn {rk inp vc out p via goal} (h : s.Canon) : (s.sendOn rk inp vc out p via goal).Canon := by
  unfold State.sendOn
  extract_lets
  split
  · split
    · exact h.modRt
    · exact h.popAt.parkBack
  · exact .ite h.modRt.place.popAt h.modRt.place

theorem State.Canon.decide_ {rk inp vc p} (h : s.Canon) : (s.decide_ rk inp vc p).Canon := by
  unfold State.decide_
  extract_lets
  split
  · exact h.popAt.fcount.raise
  · exact h.modRt.sendOn

theorem State.Canon.pruneTell {rk p n} (h : s.Canon) : (s.pruneTell rk p n).Canon := h.queueAt

theorem State.Canon.castSplit {rk p} (h : s.Canon) : (s.castSplit rk p).1.Canon := .ite h h.pruneTell

theorem State.Canon.castCopy {rk out p c} (h : s.Canon) : (s.castCopy rk out p c).2.Canon := by
  unfold State.castCopy
  extract_lets
  split
  · exact h.parkBack
  · exact h.place

theorem State.Canon.castOn {rk inp vc p cs} (h : s.Canon) : (s.castOn rk inp vc p cs).Canon := by
  unfold State.castOn
  split
  rename_i s1 _ e
  have h1 : s1.Canon := .of_fst e (.foldl_fst h fun _ _ h => h.castCopy)
  exact .ite h1.popAt h1.modRt

theorem State.Canon.castAt {rk inp vc p} (h : s.Canon) : (s.castAt rk inp vc p).Canon := h.castSplit.castOn

theorem State.Canon.forward {rk inp vc} (h : s.Canon) : (s.forward rk inp vc).Canon := by
  unfold State.forward
  extract_lets s1
  have h1 : s1.Canon := h.refill
  split
  · exact h1
  · extract_lets
    refine .ite h1.popAt.badPacket (.ite h1 ?_)
    split
    · exact h1.castOn
    · exact h1.sendOn
    · split
      · exact h1.popAt.injectFail
      · exact .ite h1 (.ite h1.castAt h1.decide_)

theorem State.Canon.escapeMove {rk inp vc} (h : s.Canon) : (s.escapeMove rk inp vc).Canon := by
  unfold State.escapeMove
  split
  · exact h
  · extract_lets
    split
    · refine .ite h ?_
      split
      · exact h
      · exact h.sendOn
    · exact h

/-! ### The functions of Sys2Proof/Machine/Physical.lean -/

theorem State.Canon.setDieTemps {l} (h : s.Canon) : (s.setDieTemps l).Canon := h.each fun _ _ h => h.setReg

theorem State.Canon.sensorUpdate {r} (h : s.Canon) : (s.sensorUpdate r).Canon := by
  unfold State.sensorUpdate
  refine .ite h ?_
  extract_lets s1 _ s2 s3 s4 s5
  have h1 : s1.Canon := h.fset.fset
  have h2 : s2.Canon := h1.setDieTemps
  have h3 : s3.Canon := h2.fset.fset
  have h4 : s4.Canon := h3.fset.fset
  have h5 : s5.Canon := h4.setVin.setPin
  exact .ite h1 (.ite h5 h5.upd_pwr)

theorem State.Canon.thermAct {temp} (h : s.Canon) : (s.thermAct temp).Canon := h.raise.fset.askStretch.fcount.govFlag

theorem State.Canon.thermalWarning {temp} (h : s.Canon) : (s.thermalWarning temp).Canon :=
  .ite h (.ite h.upd_pwr h.upd_pwr.thermAct)

theorem State.Canon.thermalWithdraw (h : s.Canon) : s.thermalWithdraw.Canon := by
  unfold State.thermalWithdraw
  split
  · exact .ite h.upd_pwr.fset.endStretch.govFlag h
  · exact h

theorem State.Canon.aonGrave {code arg} (h : s.Canon) : (s.aonGrave code arg).Canon :=
  (State.Canon.ite h.fset.fset h).recordFault.fset.pinFollow.alert.alertPin

theorem State.Canon.graveEvent {code arg} (h : s.Canon) : (s.graveEvent code arg).Canon := .ite h.raise h.aonGrave

theorem State.Canon.thermalTrip {die temp} (h : s.Canon) : (s.thermalTrip die temp).Canon :=
  .ite h ((State.Canon.ite h h.fset.fset).graveEvent)

theorem State.Canon.leak {src} (h : s.Canon) : (s.leak src).Canon := by
  unfold State.leak
  refine .ite h ?_
  extract_lets s1
  have h1 : s1.Canon := by
    unfold s1
    split <;> exact h.fset
  exact h1.graveEvent

theorem State.Canon.railOver {rail} (h : s.Canon) : (s.railOver rail).Canon := .ite h h.upd_pwr.graveEvent

/-! ### The functions of Sys2Proof/Machine/Injection.lean -/

theorem State.Canon.forcedBank {k acc} (h : s.Canon) : CanonOpt (s.forcedBank k acc) := by
  unfold State.forcedBank
  split
  · exact .map fun _ => h.bankHit
  · split
    · exact .none
    · exact .ite .none (.map fun _ => h.fence)

theorem State.Canon.atK {n code w f} (h : s.Canon) (hf : ∀ s, s.Canon → (f s).Canon) : CanonOpt (s.atK n code w f) :=
  .some (hf s h).recur

theorem State.Canon.forcedCore {code w u} (h : s.Canon) : CanonOpt (s.forcedCore code w u) := by
  unfold State.forcedCore
  split
  · exact .none
  · extract_lets
    split
    · exact .bind fun _ => h.atK fun _ h => h.overrun
    · exact h.forcedBank
    · exact h.forcedBank
    · exact .map fun _ => h.coreFlags
    · exact .map fun _ => h.missing
    · exact .map fun _ => h.raise.abortTick
    · exact .some h.unitFailed

theorem State.Canon.forcedDrop {rk} (h : s.Canon) : CanonOpt (s.forcedDrop rk) := by
  unfold State.forcedDrop
  refine .map fun _ => ?_
  split
  · exact h.modRt.badPacket
  · exact h

theorem State.Canon.forcedRouter {code w u} (h : s.Canon) : CanonOpt (s.forcedRouter code w u) := by
  unfold State.forcedRouter
  refine .ite .none ?_
  extract_lets tick
  clear_value tick
  split
  · exact .some h.routerFail
  · refine .some ?_
    split
    · exact h.raise.abortTick
    · exact h.raise
  · exact .bind fun _ => h.atK fun _ h => h.strandStall
  · split
    · exact .map fun _ => h.missing
    · exact .none
  · exact h.forcedDrop
  · refine .map fun _ => ?_
    split
    · exact h.routeGone
    · exact h
  · exact .some h.raise

theorem State.Canon.forcedEngine {code w u} (h : s.Canon) : CanonOpt (s.forcedEngine code w u) := by
  unfold State.forcedEngine
  split
  · exact .none
  · extract_lets
    split
    · exact .bind fun _ => h.atK fun _ h => h.engTimeout
    · exact .some h.engineFailed
    · exact .map fun _ => h.missing

theorem State.Canon.forcedMem {code w u} (h : s.Canon) : CanonOpt (s.forcedMem code w u) := by
  unfold State.forcedMem
  refine .ite (.map fun _ => h.sweepLate) (.ite .none ?_)
  split
  · exact .ite .none (.some h.scrubHit)
  · exact .some h.memHot
  · exact .some h.retrainLate
  · exact .some h.calLate
  · exact .some h.raise

theorem State.Canon.forcedLink {code w u} (h : s.Canon) : CanonOpt (s.forcedLink code w u) := by
  unfold State.forcedLink
  refine .ite .none ?_
  extract_lets
  split
  · exact .ite (.some h.laneFault) .none
  · exact .ite (.some h.stormAct) .none
  · exact .ite (.some h.portReset) .none
  · exact .ite (.some h.holdEnter.portEval) .none
  · exact .ite (.some h.holdEnter.portEval) .none
  · exact .some h.portOos
  · exact .ite (.some h.opticsAlarm) .none
  · exact .ite (.some h.mgmtDrop) .none
  · exact .some h.raise

theorem State.Canon.forcedHub {code} (h : s.Canon) : CanonOpt (s.forcedHub code) := by
  unfold State.forcedHub
  extract_lets
  split
  · exact .some h.wdtAct
  · exact .some h.syncLostAct
  · exact .map fun _ => h.raise.holdAt
  · exact .map fun _ => h.raise.enterHold
  · exact .map fun _ => h.raise
  · exact .map fun _ => h.refuseArrives.raise
  · exact .some h.pcieFault
  · exact .map fun _ => h.chanBroken
  · exact .some h.fset.raise
  · exact .ite .none (.some h.dipAct)
  · exact .some h.raise.countHub.moduleReset
  · exact .ite .none (.some h.thermAct)
  · exact .some h.raise

theorem State.Canon.forcedGuard {code w u} (h : s.Canon) : CanonOpt (s.forcedGuard code w u) := by
  unfold State.forcedGuard
  split
  · exact .map fun _ => State.Canon.ite h.fcount h.fcount.freeze.isoFault.holdAt
  · exact .ite (.some h.drainLimit) .none
  · exact .some h.fcount.raise

theorem State.Canon.forcedAct {f} (h : s.Canon) : CanonOpt (s.forcedAct f) := by
  unfold State.forcedAct
  refine .ite .none ?_
  split
  · exact h.forcedCore
  · exact h.forcedRouter
  · exact h.forcedGuard
  · exact h.forcedEngine
  · exact h.forcedMem
  · exact h.forcedLink
  · exact .ite h.forcedHub .none

theorem State.Canon.forced (h : s.Canon) : s.forced.Canon := by
  unfold State.forced
  split
  · exact h
  · extract_lets _ t
    have ht : t.Canon := h.upd_flt.fset
    split
    · exact h
    next u e => exact (ht.forcedAct u e).upd_flt

/-! ### The functions of Sys2Proof/Machine/Write.lean -/

theorem State.Canon.regWrite {m off be v} (h : s.Canon) : (s.regWrite m off be v).Canon :=
  .ite (.ite h.badWrite h) (.ite (h.gate (fun _ h => h.fabCmd)) h.regPut)

/-! ### The commands -/

/-- Every next state that a command answers is in canonical form. -/
def CanonRes (r : Result) : Prop := ∀ t, r = .next t → t.Canon

theorem CanonRes.done (h : t.Canon) : CanonRes (done s t) := by
  rintro _ ⟨⟩
  exact ⟨h.mem, h.regs⟩

theorem CanonRes.doneAt {time f} (h : s.Canon) (hf : ∀ s, s.Canon → (f s).Canon) : CanonRes (doneAt s time f) :=
  .done (hf _ h.upd_now)

theorem CanonRes.engDone {k f} (h : s.Canon) (hf : ∀ s, s.Canon → (f s).Canon) : CanonRes (engDone s k f) :=
  .doneAt h hf

theorem CanonRes.memDone {p f} (h : s.Canon) (hf : ∀ s, s.Canon → (f s).Canon) : CanonRes (memDone s p f) :=
  .doneAt h hf

theorem CanonRes.tickBoundary (h : s.Canon) : CanonRes (execTickBoundary s) := by
  unfold execTickBoundary
  refine .doneAt h fun _ h => ?_
  exact h.boundary.each fun _ _ h => .ite h h.holdHang

theorem CanonRes.completionCheck {n} (h : s.Canon) : CanonRes (execCompletionCheck n s) := by
  unfold execCompletionCheck
  refine .doneAt h fun _ h => ?_
  extract_lets s1
  have h1 : s1.Canon := h.completion
  refine .ite ?_ h1
  split
  · exact h1.recur
  · exact h1

theorem CanonRes.waitEnd {c} (h : s.Canon) : CanonRes (execWaitEnd c s) := by
  unfold execWaitEnd
  refine .done ?_
  split
  · exact .ite h.waitEnd h
  · exact h

theorem CanonRes.skipZero {c} (h : s.Canon) : CanonRes (execSkipZero c s) := by
  unfold execSkipZero
  refine .done ?_
  split
  · exact h
  · extract_lets
    split
    · exact h.bankHit
    · exact h.skip

theorem CanonRes.skipEmpty {c} (h : s.Canon) : CanonRes (execSkipEmpty c s) := by
  unfold execSkipEmpty
  refine .done ?_
  split
  · exact h
  · exact h.skip

theorem CanonRes.endEntry {c} (h : s.Canon) : CanonRes (execEndEntry c s) := by
  unfold execEndEntry
  refine .done ?_
  split
  · exact h
  · exact .ite h.modCo ((State.Canon.ite h.modCo.fcount h.modCo).fset)

theorem CanonRes.inPortLanding {c port a} (h : s.Canon) : CanonRes (execInPortLanding c port a s) := by
  unfold execInPortLanding
  refine .done ?_
  split
  · exact h.landUnit
  · exact h.landing

theorem CanonRes.systemAreaCopy {part} (h : s.Canon) : CanonRes (execSystemAreaCopy part s) := by
  unfold execSystemAreaCopy
  refine .done ?_
  split
  · exact .ite h.writeCopy h
  · exact h

theorem CanonRes.tether {rx} (h : s.Canon) : CanonRes (execTether rx s) := by
  unfold execTether
  refine .done ?_
  split
  · exact h.onCode
  · exact h.tether.coordTether

theorem CanonRes.handback {rx} (h : s.Canon) : CanonRes (execHandback rx s) := by
  unfold execHandback
  refine .done ?_
  split
  · exact h.onCode
  · exact h.handback

theorem CanonRes.discover {d} (h : s.Canon) : CanonRes (execDiscover d s) := by
  unfold execDiscover
  refine .done ?_
  split
  · exact h.discoverOut
  · exact h.onCode

theorem CanonRes.heartbeat {rx} (h : s.Canon) : CanonRes (execHeartbeat rx s) := by
  unfold execHeartbeat
  refine .done ?_
  split
  · exact h.onCode
  · exact h.heartbeat

theorem CanonRes.drainTimeout {d} (h : s.Canon) : CanonRes (execDrainTimeout d s) := by
  unfold execDrainTimeout
  refine .done ?_
  split
  · exact .ite h.drainTimeout h.drainTimeout.drainHang
  · exact h.drainTimeout

theorem CanonRes.alertEn {v} (h : s.Canon) : CanonRes (execAlertEn v s) := by
  unfold execAlertEn
  refine .done ?_
  refine h.smbus (fun _ h1 => ?_)
  split
  · exact h1.alertEn.smbAck
  · exact h1.smbRead

theorem CanonRes.warnLevel {v} (h : s.Canon) : CanonRes (execWarnLevel v s) := by
  unfold execWarnLevel
  refine .done ?_
  refine h.smbus (fun _ h1 => ?_)
  split
  · exact h1.warnSet.smbAck
  · exact h1.smbRead

theorem CanonRes.mbxTimeout {chan} (h : s.Canon) : CanonRes (execMbxTimeout chan s) := by
  unfold execMbxTimeout
  refine .done ?_
  split
  · exact h
  · exact .ite h.modMb.chanFlag h

theorem exec_canon {c : Instr} (h : s.Canon) : CanonRes (exec c s) := by
  cases c with
  | registerWrite => exact .done h.regWrite
  | snapshotRead | indirectRead => exact .done h.readOut
  | tickBoundary => exact .tickBoundary h
  | computeStart => exact .doneAt h fun _ h => h.computeStart
  | completionCheck => exact .completionCheck h
  | abort => exact .done h.abortArrives
  | repairComplete => exact .done h.repairDone
  | repairLimit => exact .done (.ite h.raise.enterHold.holdHang h)
  | periodArm => exact .done (h.gate fun _ h => h.tckCtl)
  | periodChange => exact .done h.periodChange
  | sliceCmdArm => exact .done (h.gate fun _ h => h.slCtl)
  | resume => exact .done h.resume
  | hold => exact .done h.holdCmd
  | discard => exact .done h.discard
  | supplyDip => exact .done h.supplyDip
  | supplyRecover => exact .done h.supplyRecover
  | stretchWithdraw => exact .done h.stretchWithdraw
  | syncSend => exact .done (.ite h.modPo h)
  | sync => exact .done h.syncArrives
  | syncAcquire => exact .done h.acquire
  | syncLost => exact .done h.syncLost
  | tckSyncMaxClear => exact .done (h.gate fun _ h => .ite h.fset h)
  | calibrationSlot => exact .doneAt h fun _ h => h.calSlot
  | calibrationOverdue => exact .done h.calOverdue
  | linkCalibrationWindow => exact .done h.calWindow
  | matmul | matmulT | outer | func | convert | moveCopy | moveOut | movePass => exact .done h.entry
  | vecAdd | vecSub | vecMul | vecFma | vecMax | vecMin | vecAbs | vecNeg => exact .done h.vecEntry
  | reduceSum | reduceMax | reduceMaxabs | reduceSumsq => exact .done h.reduceEntry
  | sendDispatch | sendReply => exact .done h.sendEntry
  | waitDrain | waitInject | waitOffset => exact .done h.waitEntry
  | waitEnd => exact .waitEnd h
  | skipZero => exact .skipZero h
  | skipEmpty => exact .skipEmpty h
  | endEntry => exact .endEntry h
  | inPortLanding => exact .inPortLanding h
  | coreStatusPoll => exact .done (.ite h h.modCo.unitFailed)
  | updateJobTick => exact .engDone h fun _ h => h.updateTick
  | mul | add | fma | sqrt | rsqrt | recip | clamp | sign | csel => exact .engDone h fun _ h => h.recipeOp
  | publication => exact .engDone h fun _ h => h.publish
  | sramScrub => exact .done h.sramScrub
  | republication => exact .done h.republish
  | lpddr5Scrub => exact .done h.memScrub
  | mirrorRestore => exact .doneAt h fun _ h => h.restoreGroup
  | lpddr5Hot => exact .done h.memHot
  | retrainOverdue => exact .done h.retrainLate
  | load | abandon | rigCommit => exact .done (h.gate fun _ h => h.rigCmd)
  | rigLock => exact .done (h.gate fun _ h => h.rigCtl)
  | agentReport => exact .done h.agentReport
  | loadTimeout => exact .done (.ite h.failLoad (h.each (fun _ _ h => .ite h.dropShadow h)))
  | systemAreaCopy => exact .systemAreaCopy h
  | warmReapply => exact .done (.ite (h.warmPart.modPt.eachOf (fun _ _ h => h.warmTell)) h)
  | packetForward => exact .done h.forward
  | escapeMove => exact .done h.escapeMove
  | routerFail => exact .done h.routerFail
  | rtrClr | rtrClrAll => exact .done (h.gate fun _ h => h.rtrCtl)
  | strandUnit => exact .doneAt h fun _ h => h.strandGrant
  | mgt => exact .done h.mgtArrive
  | row | direct | stream => exact .done h.arriveCore
  | memWr | mirror => exact .memDone h fun _ h => h.arriveWrite
  | memRd => exact .memDone h fun _ h => h.arriveRead
  | memRdr => exact .done h.arriveReply
  | red => exact .done h.arriveRed
  | mcast => exact .done (.ite h.badPacket (.ite h h.queueAt.forward))
  | linkCredit => exact .done h.creditTake
  | foldReport => exact .done (.ite h.foldReport h)
  | pruneReport => exact .done h.pruneReport
  | treeContribution => exact .done h.treeUnit
  | treeMemSource => exact .doneAt h fun _ h => h.treeMem
  | rbwPacketClose => exact .done h.rbwClose
  | frame => exact .done h.frame
  | nak => exact .done h.replayFrom
  | ackTimeout => exact .done h.ackTimeout
  | tickEdge => exact .done h.tickEdge
  | refuse => exact .done h.refuseArrives
  | laneDrop => exact .done h.laneDrop
  | laneAdd => exact .done h.laneChange
  | ident => exact .done h.identSeg
  | echo => exact .done h.ctlSend
  | echoReply => exact .done h.echoReply
  | trainingBlock => exact .done h.trainBlock
  | signalDetect => exact .done h.signal?
  | equalizeTimeout => exact .done h.equalizeOver
  | excludedRetry => exact .done h.excludedRetry
  | portEnable | retrain | unpark | dataEn => exact .done (h.gate fun _ h => h.lnkCtl)
  | expectationWrite => exact .done (h.gate fun _ h => h.expWrite)
  | laneFault => exact .done h.laneFault
  | laneClean => exact .done h.laneClean
  | retryStorm => exact .done h.retryStorm
  | cmisMonitorPoll => exact .done h.cmisPoll
  | cmisFlagPoll => exact .done h.cmisFlags
  | opticsAbsent => exact .done h.opticsAbsent
  | loadBroadcast => exact .done h.loadCast
  | swapArm => exact .done (h.gate fun _ h => h.rtCtl)
  | tableSwap => exact .done h.tableSwap
  | escapeQuiesceEnd => exact .done h.quiesceOver
  | routeTimeout => exact .done h.routeTimeout
  | tether => exact .tether h
  | tetherReply | termSet | termSetReply | journal | journalReply | discoverReply | assign | manSeg | regWrite
    | regRead | rigPlan | rigSeg | rigResend | rigReport | sliceEvent | memberLost | resetNotice | fwSeg
    | fwSegReply => exact .done h.onCode
  | leaseExpiry => exact .done h.leaseOver.coordLease
  | takeover => exact .done h.takeover.coordTakeover
  | termSetTimeout => exact .done h.termTimeout.coordTermOver
  | handback => exact .handback h
  | handbackStep => exact .done h.handbackStep
  | recoveryEnd => exact .done h.recoveryEnd
  | discover => exact .discover h
  | discoveryTimeout => exact .done h.discoverOver
  | resendTimer => exact .done h.resendTimer
  | heartbeat => exact .heartbeat h
  | heartbeatLoss => exact .done h.heartbeatLoss
  | routeRecompute => exact .done h.linkChange
  | sliceCmdDeadline => exact .done h.cmdDeadline
  | foldRound => exact .done h.foldRound
  | foldTimeout => exact .done h.foldOver
  | manifest | xconnect | mode | sliceReserve | sliceRelease | sliceCmd | fence | period | treeCfg | handover
    | fwStage | restart | adapt | floor | forward => exact .done h.fabRow
  | faultMessage => exact .done h.faultMsg
  | sourceWindowExpiry => exact .done h.windowOver
  | graveHoldLimit => exact .done h.graveLimit
  | force => exact .done (h.gate fun _ h => h.fltForce)
  | forcedDetection => exact .done h.forced
  | pulseEnd => exact .done h.pulseOver
  | srcClr => exact .done (h.gate fun _ h => h.srcClr)
  | qPop => exact .done (h.gate fun _ h => h.qPop)
  | release => exact .done (h.gate fun _ h => h.frzCmd)
  | fltLock => exact .done (h.gate fun _ h => h.store)
  | dumpStart => exact .done (h.gate fun _ h => h.dumpCtl)
  | dumpRegionRead => exact .done h.dumpRead
  | dumpDone => exact .done h.dumpDone
  | coreReset | clusterReset | engineReset | partitionReset | remapCore | remapCluster | remapEngine | rotate =>
    exact .done h.rstRow
  | moduleReset | sliceContextReset | endpointReset | powerCycleRequest => exact .done h.hubRow
  | drainComplete => exact .done h.drainComplete
  | drainTimeout => exact .drainTimeout h
  | partitionReapply => exact .done h.partitionReapply.powerPending
  | incidentClose => exact .done h.incidentClose
  | watchdogExpiry => exact .done h.watchdog
  | wdtKick => exact .done (h.gate fun _ h => h.hubCtl)
  | spareReplace => exact .done h.spareReplace
  | auxPowerOn => exact .done h.auxPowerOn
  | auxLoss => exact .done h.auxLoss
  | mainInputGood => exact .done h.mainInputGood
  | mainInputLoss | mainOvervoltage => exact .done h.mainInputLoss
  | supplyResetLevel => exact .done h.supplyReset
  | firmwareGo => exact .done (h.gate fun _ h => h.fwCmd)
  | firmwareWaitTimeout => exact .done h.fwWait
  | lpddr5TrainingDone => exact .done h.trainingDone
  | computeWave => exact .done h.computeWave
  | powerReqActive | powerReqStandby | powerReqRetain | powerReqDormant | powerReqOff => exact .done h.pwrRow
  | transitionComplete => exact .done h.transitionDone
  | standbyMinimum => exact .done (.ite h.powerPending h)
  | addressMatch => exact .done h.addressMatch
  | wakeRow => exact .done h.wakeNext
  | wakeDeadlineMiss => exact .done h.wakeMiss
  | governorEvaluation => exact .done h.governor
  | powerLimitUnattainable => exact .done h.limitLow
  | clockSet => exact .done (h.gate fun _ h => h.clkSet)
  | clrMeas | clrRes => exact .done (h.gate fun _ h => h.pwrCtl)
  | bar2Read => exact .doneAt h fun _ h => h.bar2Read
  | bar2Write => exact .doneAt h fun _ h => h.bar2Write
  | intakeRead => exact .doneAt h fun _ h => h.intakeRead
  | intakeWrite => exact .doneAt h fun _ h => h.intakeWrite
  | pcieUncorrectableError => exact .done h.pcieError
  | flr => exact .done h.flr
  | perstN => exact .done h.perst
  | d3hotEntry => exact .done h.d3hotEnter
  | smbusIdent | status | alertCause | sensors | faults | evrRead => exact .done (h.smbus fun _ h => h.smbRead)
  | alertClr => exact .done (h.smbus fun _ h => h.alertClr.smbAck)
  | alertEn => exact .alertEn h
  | alertResponse => exact .done h.alertResponse
  | powerReq => exact .done (h.smbus fun _ h => h.smbAck.powerReq)
  | smbusModuleReset => exact .done (h.smbus fun _ h => .ite h.smbAck.moduleReset h.smbAck)
  | resetNotify => exact .done (h.smbus fun _ h => h.advGen.smbAck)
  | warnLevel => exact .warnLevel h
  | mbxSend => exact .done (h.smbus fun _ h => h.smbSend)
  | mbxRecv => exact .done (h.smbus fun _ h => h.smbRecv)
  | attestStart => exact .done (h.smbus fun _ h => h.attStart)
  | attestFetch => exact .done (h.smbus fun _ h => h.attFetch)
  | mbxLock => exact .done (h.gate fun _ h => h.mbxCtl)
  | mbxStage | post => exact .done h.sendWrite
  | pop => exact .done h.recvRead
  | mbxTimeout => exact .mbxTimeout h
  | dbRing => exact .done (.ite h (.ite h.dbRing h.badWrite))
  | clearEvr | clearRemap | enroll | revoke | raiseSvn => exact .done h.authRow
  | norCommit => exact .done h.norCommit
  | counterSave => exact .done h.counterSave
  | doeRequest => exact .done h.doeRequest
  | doeAbort => exact .done h.doeAbort
  | attestationSigned => exact .done h.attSigned
  | thermalWarning => exact .done h.thermalWarning
  | thermalWithdraw => exact .done h.thermalWithdraw
  | thermalTrip => exact .done h.thermalTrip
  | leak => exact .done h.leak
  | railOvercurrent => exact .done h.railOver
  | sensorUpdate => exact .done h.sensorUpdate
  | featFloorWrite => exact .done (h.gate fun _ h => h.floorSet)
  | fabMgrLock => exact .done (h.gate fun _ h => h.mgrCtl)
  | frameTime => exact .done h.frameTime
  | linkCreditSend => exact .done h.creditSend
  | rbwPacket => exact .done h.rbwArrive
  | engineFailed => exact .done h.engineFailed
  | sysclkLoss => exact .done h.sysclkLoss
  | pcieLinkUp => exact .done h.linkUp
  | d3hotExit => exact .done h.d3hotLeave
  | mgrSbyStart => exact .done h.sbyStart

theorem step_canon (h : s.Canon) : CanonRes (step s) := by
  unfold step
  split
  · rintro _ ⟨⟩
    exact h.upd_now
  · exact exec_canon ⟨h.mem, h.regs⟩

end

/-- Settles O59: every function of the model keeps the canonical form, and canonical stores that read alike are equal. -/
theorem canonicalStep : Obligations.CanonicalStep := by
  unfold Obligations.CanonicalStep
  refine ⟨fun s t h e => ?_, fun s t h h' hm hr => ?_⟩
  · obtain ⟨hmem, hregs⟩ := step_canon ⟨h.1, h.2⟩ t e
    exact ⟨hmem, hregs⟩
  · exact ⟨Store.eq_of_wfFrom h.1 h'.1 hm, Store.eq_of_wfFrom h.2 h'.2 hr⟩

/-- Settles O60: LPDDR5 is empty at reset, and the register file lists the registers that the start-up has written. -/
theorem canonicalReset : Obligations.CanonicalReset :=
  ⟨State.reset_mem_wf, rfl⟩

end Sys2Proof.Machine
end

-- The empty queue

/-! PROOF of O2. -/

section
namespace Sys2Proof.Machine

/-- Settles O2. -/
theorem idleStep : Obligations.IdleStep := by
  unfold Obligations.IdleStep
  intro s h
  rw [step, h]

end Sys2Proof.Machine
end

-- What is repeated, and what a note leaves alone

/-! SUPPORT. Loops over numbers and lists, the answer of a command, and two frames that the proofs of O11 to O15, O33 and
O36 share: what a management packet of the hub changes, and what noting an event (a fault message, a slice event, a
signal) can change. -/

section
namespace Sys2Proof.Machine

/-! ### Loops -/

section
variable {α : Type} {P Q : State → Prop} {s : State}

theorem State.eachOf_inv {l : List α} {f : α → State → State} (h0 : P s) (h : ∀ a ∈ l, ∀ t, P t → P (f a t)) :
    P (State.eachOf l f s) := by
  unfold State.eachOf
  induction l generalizing s with
  | nil => exact h0
  | cons a l ih =>
    rw [List.forall_mem_cons] at h
    exact ih (h.1 s h0) h.2

theorem State.each_inv {n : Nat} {f : Nat → State → State} (h0 : P s) (h : ∀ i, i < n → ∀ t, P t → P (f i t)) :
    P (s.each n f) :=
  State.eachOf_inv h0 fun i hi => h i (List.mem_range.1 hi)

theorem State.each_succ (n : Nat) (f : Nat → State → State) (s : State) : s.each (n + 1) f = f n (s.each n f) := by
  simp [State.each, List.range_succ]

/-- One turn of a loop brings about what the turns before it prepare and those after it keep. -/
theorem State.each_turn {n k : Nat} {f : Nat → State → State} (hk : k < n) (h0 : P s)
    (before : ∀ i, i < n → i ≠ k → ∀ t, P t → P (f i t)) (turn : ∀ t, P t → Q (f k t))
    (after : ∀ i, i < n → i ≠ k → ∀ t, Q t → Q (f i t)) : Q (s.each n f) := by
  induction n with
  | zero => omega
  | succ n ih =>
    rw [State.each_succ]
    by_cases e : k = n
    · subst e
      exact turn _ (State.each_inv h0 fun i hi => before i (by omega) (by omega))
    · exact after n (by omega) (Ne.symm e) _
        (ih (by omega) (fun i hi => before i (by omega)) fun i hi => after i (by omega))

theorem State.eachOf_nil (f : α → State → State) : State.eachOf [] f s = s := rfl

end

/-! ### Answers -/

section
variable {c : Instr} {s u : State} {P : State → Prop}

theorem runs_done (e : exec c s = done s u) (hq : u.pending = s.pending) (hnow : u.now = s.now) (hf : u.fuses = s.fuses)
    (h : P u) : Runs c s P :=
  ⟨u, e.trans (done_of_kept hq hnow hf), h⟩

/-- The state at a time of the tick, or now where that has passed. -/
def State.atTime (s : State) (time : Nat) : State := { s with now := max s.now time }

theorem runs_doneAt {time : Nat} {f : State → State} (e : exec c s = doneAt s time f) (hu : f (s.atTime time) = u)
    (hq : u.pending = s.pending) (hnow : u.now = max s.now time) (hf : u.fuses = s.fuses) (h : P u) : Runs c s P := by
  have e' : doneAt s time f = done (s.atTime time) (f (s.atTime time)) := rfl
  refine ⟨u, ?_, h⟩
  rw [e, e', hu]
  exact done_of_kept hq hnow hf

end

/-! ### Management packets of the hub -/

/-- Two states that differ only in the hub's role, the routers and the ports. -/
def MgtOnly (s t : State) : Prop := t = { s with rtr := t.rtr, port := t.port, mgr := t.mgr }

section
variable {s t u : State}

theorem MgtOnly.refl (s : State) : MgtOnly s s := rfl

theorem MgtOnly.trans (h : MgtOnly s t) (k : MgtOnly t u) : MgtOnly s u := by
  unfold MgtOnly at *
  rw [h] at k
  exact k

theorem MgtOnly.ite {c : Prop} [Decidable c] {a b : State} (h : MgtOnly s a) (k : MgtOnly s b) :
    MgtOnly s (if c then a else b) := by
  split
  · exact h
  · exact k

theorem MgtOnly.modMgr (s : State) (f : MgrSt → MgrSt) : MgtOnly s (s.modMgr f) := rfl

theorem MgtOnly.modPo (s : State) (p : Nat) (f : PortSt → PortSt) : MgtOnly s (s.modPo p f) := rfl

theorem MgtOnly.hubSend (s : State) (p : Packet) : MgtOnly s (s.hubSend p) := rfl

theorem MgtOnly.routeOut (s : State) (p : Packet) : MgtOnly s (s.routeOut p) := .ite rfl (.refl s)

theorem MgtOnly.mgtSend (s : State) (mod code : Nat) (b : List Byte) : MgtOnly s (s.mgtSend mod code b) := rfl

theorem MgtOnly.mgtAskBy (s : State) (route mod code job : Nat) (host : Bool) (b : List Byte) :
    MgtOnly s (s.mgtAskBy route mod code job host b) := by
  unfold State.mgtAskBy
  exact (MgtOnly.modMgr s _).trans (.ite (.routeOut _ _) (.hubSend _ _))

theorem MgtOnly.journal (s : State) (kind job : Nat) (d : List Byte) : MgtOnly s (s.journal kind job d) := by
  unfold State.journal
  split
  · exact .refl s
  · exact .ite (.refl s) ((MgtOnly.modMgr s _).trans (.mgtAskBy _ _ _ _ _ _ _))

theorem MgtOnly.cancelStep (s : State) : MgtOnly s s.cancelStep :=
  .ite ((MgtOnly.modMgr s _).trans (.journal _ _ _ _)) (.refl s)

end

/-! ### Notes -/

/-- The registers that no note writes: below the mailboxes, those that a fault message does not write. -/
def plainReg (o : Nat) : Prop := o < MBX_BIND_W0.off 0 ∧ o ∉ faultRegs

/-- The registers of the tick of a slice context (R71). -/
def tickBlock (n o : Nat) : Prop := 0x10100 + 0x40 * n ≤ o ∧ o < 0x10140 + 0x40 * n

/-- Two states that differ only in the slice contexts of `C` and in what noting an event can change: what a fault message
changes, the hub's role, the routers, ports and mailboxes that carry the event, and the signals. Elsewhere a hold that a
slice is still to enter stands. -/
structure NoteBut (C : Nat → Prop) (s t : State) : Prop where
  pending : t.pending = s.pending
  now : t.now = s.now
  draws : t.draws = s.draws
  fuses : t.fuses = s.fuses
  tick : t.tick = s.tick
  core : t.core = s.core
  clus : t.clus = s.clus
  eng : t.eng = s.eng
  chan : t.chan = s.chan
  mem : t.mem = s.mem
  memBad : t.memBad = s.memBad
  fab : t.fab = s.fab
  pwr : t.pwr = s.pwr
  host : t.host = s.host
  incidents : t.flt.incidents = s.flt.incidents
  lastTot : t.flt.lastTot = s.flt.lastTot
  reg : ∀ o, plainReg o → (∀ n, C n → ¬ tickBlock n o) → t.reg o = s.reg o
  cx : ∀ n, ¬ C n → { t.cx n with holdNext := (s.cx n).holdNext } = s.cx n
  held : ∀ n, ¬ C n → (s.cx n).holdNext ≠ none → (t.cx n).holdNext ≠ none

/-- Two states that differ only in what noting an event can change. -/
abbrev NoteOnly : State → State → Prop := NoteBut fun _ => False

section
variable {s t u : State} {C : Nat → Prop}

theorem FaultOnly.note (h : FaultOnly s t) (held : ∀ n, (s.cx n).holdNext ≠ none → (t.cx n).holdNext ≠ none) :
    NoteBut C s t where
  pending := h.pending
  now := h.now
  draws := h.draws
  fuses := h.fuses
  tick := h.tick
  core := h.core
  clus := h.clus
  eng := h.eng
  chan := h.chan
  mem := h.mem
  memBad := h.memBad
  fab := h.fab
  pwr := h.pwr
  host := h.host
  incidents := h.incidents
  lastTot := h.lastTot
  reg := fun o ho _ => h.reg o ho.2
  cx := fun n _ => h.cx n
  held := fun n _ => held n

theorem FaultOnly.note_of_ctx (h : FaultOnly s t) (hc : t.ctx = s.ctx) : NoteBut C s t :=
  h.note fun n hn => by
    unfold State.cx at *
    rwa [hc]

theorem NoteBut.refl (s : State) : NoteBut C s s := (FaultOnly.refl s).note_of_ctx rfl

theorem NoteBut.trans (h : NoteBut C s t) (k : NoteBut C t u) : NoteBut C s u where
  pending := k.pending.trans h.pending
  now := k.now.trans h.now
  draws := k.draws.trans h.draws
  fuses := k.fuses.trans h.fuses
  tick := k.tick.trans h.tick
  core := k.core.trans h.core
  clus := k.clus.trans h.clus
  eng := k.eng.trans h.eng
  chan := k.chan.trans h.chan
  mem := k.mem.trans h.mem
  memBad := k.memBad.trans h.memBad
  fab := k.fab.trans h.fab
  pwr := k.pwr.trans h.pwr
  host := k.host.trans h.host
  incidents := k.incidents.trans h.incidents
  lastTot := k.lastTot.trans h.lastTot
  reg := fun o ho hC => (k.reg o ho hC).trans (h.reg o ho hC)
  cx := fun n hC => by
    have a := h.cx n hC
    rwa [← k.cx n hC] at a
  held := fun n hC hn => k.held n hC (h.held n hC hn)

/-- More contexts may have changed. -/
theorem NoteBut.mono {D : Nat → Prop} (h : NoteBut C s t) (hCD : ∀ n, C n → D n) : NoteBut D s t :=
  { h with
    reg := fun o ho hD => h.reg o ho fun n hn => hD n (hCD n hn)
    cx := fun n hn => h.cx n fun hC => hn (hCD n hC)
    held := fun n hn => h.held n fun hC => hn (hCD n hC) }

theorem NoteBut.cx_eq (h : NoteOnly s t) (n : Nat) : { t.cx n with holdNext := (s.cx n).holdNext } = s.cx n :=
  h.cx n id

theorem NoteBut.ite {c : Prop} [Decidable c] {a b : State} (h : NoteBut C s a) (k : NoteBut C s b) :
    NoteBut C s (if c then a else b) := by
  split
  · exact h
  · exact k

/-- What is neither a register nor a unit of a slice. -/
theorem NoteBut.of_eq (h : t = { s with
    out := t.out, rtr := t.rtr, port := t.port, mgr := t.mgr, mbx := t.mbx, smb := t.smb, pins := t.pins }) :
    NoteBut C s t := by
  rw [h]
  constructor <;> intros <;> first | rfl | assumption

theorem MgtOnly.note (h : MgtOnly s t) : NoteBut C s t := by
  unfold MgtOnly at h
  rw [h]
  exact .of_eq rfl

theorem NoteBut.fset (s : State) (f : Fld) (v : Nat) (h : ¬ plainReg f.reg) : NoteBut C s (s.fset f v) := by
  constructor <;> intros <;> first | rfl | assumption | skip
  next o ho _ => exact State.reg_fset_other s f v fun e => h (e ▸ ho)

theorem NoteBut.emit (s : State) (x : Output) : NoteBut C s (s.emit x) := .of_eq rfl

/-! ### Fault messages -/

theorem State.srcExits_ctx (s : State) : s.srcExits.ctx = s.ctx := by
  unfold State.srcExits
  refine List.foldlRecOn (motive := fun t : State => t.ctx = s.ctx) _ _ rfl fun t ht e _ => ?_
  split
  · exact ht
  · exact ht

theorem State.count_ctx (s : State) (f : FaultMsg) (cls : Nat) : (s.count f cls).2.ctx = s.ctx := by
  rw [← s.srcExits_ctx]
  unfold State.count
  dsimp only
  split
  · split
    · rfl
    · split <;> rfl
  · split
    · rfl
    · split <;> rfl

theorem State.promoted_ctx (s : State) (f : FaultMsg) : (s.promoted f).ctx = s.ctx := by
  unfold State.promoted
  dsimp only
  split
  · rfl
  · split
    · split
      · rfl
      · split <;> rfl
    · split
      · split <;> rfl
      · rfl

theorem State.enqueue_ctx (s : State) (f : FaultMsg) (c : Nat) (a b : Bool) : (s.enqueue f c a b).ctx = s.ctx := by
  unfold State.enqueue
  split <;> rfl

theorem State.record_ctx (s : State) (code sev : Nat) (inj : Bool) (cls p0 p1 p2 : Nat) :
    (s.record code sev inj cls p0 p1 p2).ctx = s.ctx := by
  unfold State.record
  dsimp only
  split <;> rfl

theorem State.recordFault_ctx (s : State) (f : FaultMsg) (c : Nat) (a : Bool) : (s.recordFault f c a).ctx = s.ctx := by
  unfold State.recordFault
  split
  · rfl
  · exact State.record_ctx ..

theorem State.irq_ctx (s : State) (v : Nat) : (s.irq v).ctx = s.ctx := by
  unfold State.irq
  dsimp only
  split
  · rfl
  · split <;> rfl

theorem State.alert_ctx (s : State) (b : Nat) : (s.alert b).ctx = s.ctx := by
  unfold State.alert
  split <;> rfl

theorem State.dumpStart_ctx (s : State) (g : Bool) (code : Nat) (src : Word) : (s.dumpStart g code src).ctx = s.ctx := by
  unfold State.dumpStart
  split <;> rfl

theorem ite_ctx {c : Prop} [Decidable c] {a b : State} (ha : a.ctx = s.ctx) (hb : b.ctx = s.ctx) :
    (if c then a else b).ctx = s.ctx := by
  split
  · exact ha
  · exact hb

theorem State.signal_ctx (s : State) (f : FaultMsg) (c : Nat) : (s.signal f c).ctx = s.ctx := by
  unfold State.signal
  have h1 : (if 1 ≤ c then s.irq 0 else s).ctx = s.ctx := ite_ctx (s.irq_ctx 0) rfl
  extract_lets s1 s2 s3
  have h2 : s2.ctx = s.ctx := ite_ctx h1 h1
  have h3 : s3.ctx = s.ctx := ite_ctx ((s2.alert_ctx 0).trans h2) h2
  exact ite_ctx ((s3.dumpStart_ctx _ _ _).trans h3) h3

/-- A hold that a slice is still to enter stands where the contexts do, and where a GRAVE message holds every slice. -/
theorem State.graveLatch_held (s : State) (f : FaultMsg) (n : Nat) (h : (s.cx n).holdNext ≠ none) :
    ((s.graveLatch f).cx n).holdNext ≠ none := by
  unfold State.graveLatch
  extract_lets first s1 x s2 s3 s4 s5
  have h1 : s1.ctx = s.ctx := ite_ctx rfl rfl
  have h3 : s3.ctx = s.ctx := (show s3.ctx = s2.ctx from rfl).trans (ite_ctx h1 h1)
  have h4 : (s4.cx n).holdNext ≠ none := by
    refine State.each_inv (P := fun t => (t.cx n).holdNext ≠ none) ?_ fun i _ t ht => ?_
    · unfold State.cx
      rwa [h3]
    · split
      · by_cases e : n = i
        · subst e
          simp
        · rwa [State.cx_modCx_other t e]
      · exact ht
  have h6 : (if s5.flag FLT_DUMP_CTL.AUTO then s5.dumpStart true f.code.toNat f.src else s5).ctx = s4.ctx :=
    ite_ctx ((s5.dumpStart_ctx _ _ _).trans (s4.alert_ctx 1)) (s4.alert_ctx 1)
  unfold State.cx at h4 ⊢
  rwa [h6]

theorem State.classify_held (s : State) (f : FaultMsg) (cls : Nat) (stale held : Bool) (n : Nat)
    (h : (s.cx n).holdNext ≠ none) : ((s.classify f cls stale held).cx n).holdNext ≠ none := by
  unfold State.classify
  extract_lets k counts
  have hr : (if counts = true then s.count f k else (k, s)).2.ctx = s.ctx := by
    split
    · exact State.count_ctx ..
    · rfl
  generalize (if counts = true then s.count f k else (k, s)) = r at hr
  obtain ⟨c, s1⟩ := r
  dsimp -zeta only
  extract_lets s2 s3 s4 s5 s6
  have h2 : s2.ctx = s1.ctx := ite_ctx (State.promoted_ctx ..) rfl
  have h6 : s6.ctx = s.ctx := calc
    s6.ctx = s5.ctx := State.signal_ctx ..
    _ = s4.ctx := State.recordFault_ctx ..
    _ = s2.ctx := State.enqueue_ctx ..
    _ = s.ctx := h2.trans hr
  have hn : (s6.cx n).holdNext ≠ none := by
    unfold State.cx
    rwa [h6]
  split
  · exact State.graveLatch_held _ _ _ hn
  · exact hn

theorem NoteBut.classify (s : State) (f : FaultMsg) (cls : Nat) (stale held : Bool) (h : cls < 5) :
    NoteBut C s (s.classify f cls stale held) :=
  (FaultOnly.classify s f cls stale held h).note fun n hn => State.classify_held s f cls stale held n hn

theorem State.take_held (s : State) (f : FaultMsg) (n : Nat) (h : (s.cx n).holdNext ≠ none) :
    ((s.take f).cx n).holdNext ≠ none := by
  unfold State.take
  split
  · exact State.classify_held _ _ _ _ _ _ h
  · split
    · exact State.classify_held _ _ _ _ _ _ h
    · split
      · exact h
      · exact State.classify_held _ _ _ _ _ _ h

theorem NoteBut.raise (s : State) (code : Nat) (src : Word) (addr arg : Nat) : NoteBut C s (s.raise code src addr arg) :=
  (FaultOnly.raise s code src addr arg).note fun n hn => State.take_held s _ n hn

theorem NoteBut.settle (s : State) (p : Settle → Bool) (cls : Nat) (h : cls < 5) : NoteBut C s (s.settle p cls) := by
  unfold State.settle
  extract_lets l x t
  have ht : NoteBut C s t := (FaultOnly.setFlt s { s.flt with held := l.filter (fun e => !p e.2) }).note_of_ctx rfl
  exact List.foldlRecOn (motive := NoteBut C s) _ _ ht fun u hu e _ => hu.trans (.classify _ _ _ _ _ h)

theorem NoteBut.settleHold (s : State) (n : Nat) : NoteBut C s (s.settleHold n) := .settle _ _ _ (by decide)

/-! ### Signals, mailboxes and slice events -/

theorem NoteBut.irq (s : State) (v : Nat) : NoteBut C s (s.irq v) := (FaultOnly.irq s v).note_of_ctx (s.irq_ctx v)

theorem NoteBut.alert (s : State) (b : Nat) : NoteBut C s (s.alert b) := (FaultOnly.alert s b).note_of_ctx (s.alert_ctx b)

theorem NoteBut.notify (s : State) (m v : Nat) : NoteBut C s (s.notify m v) :=
  .ite (.ite (.emit _ _) (.refl s)) (.ite (.alert s 4) (.refl s))

theorem NoteBut.chanFlag (s : State) (c : Nat) {f : Nat → Fld} (h : (f c).reg = MBX_STAT.off c) :
    NoteBut C s (s.chanFlag c f) := by
  have hf : NoteBut C s (s.fset (f c) 1) := .fset s _ _ fun hp => by
    rw [h] at hp
    have := hp.1
    simp only [MBX_BIND_W0.off, MBX_STAT.off] at this
    omega
  unfold State.chanFlag
  exact .ite (.refl s) (.ite (hf.trans (.notify _ _ _)) hf)

theorem NoteBut.modMb (s : State) (c : Nat) (f : MbxCh → MbxCh) : NoteBut C s (s.modMb c f) := .of_eq rfl

theorem NoteBut.chanPtrs (s : State) (c : Nat) : NoteBut C s (s.chanPtrs c) := by
  unfold State.chanPtrs State.chanBroken
  exact .ite (.refl s) (((NoteBut.modMb s c _).trans (.chanFlag _ c rfl)).trans (.raise _ _ _ _ _))

theorem NoteBut.chanPost (s : State) (c : Nat) (ws : List Word) : NoteBut C s (s.chanPost c ws) := by
  unfold State.chanPost
  extract_lets s1 r was asleep m depth s2 s3 s4
  have h1 : NoteBut C s s1 := .chanPtrs s c
  have h3 : NoteBut C s s3 :=
    have h2 : NoteBut C s s2 := h1.trans (.modMb _ _ _)
    .ite h2 (h2.trans (.chanFlag _ c rfl))
  have h4 : NoteBut C s s4 := .ite (h3.trans (.chanFlag _ c rfl)) h3
  exact .ite (h1.trans ((NoteBut.chanFlag _ c rfl).trans (.chanFlag _ c rfl)))
    (.ite (h4.trans (.alert _ _)) (.ite (h4.trans (.notify _ _ _)) h4))

theorem NoteBut.postEvent (s : State) (ws : List Word) : NoteBut C s (s.postEvent ws) := by
  unfold State.postEvent
  extract_lets w key x s1
  have h1 : NoteBut C s s1 := .of_eq rfl
  split
  · exact .refl s
  · split
    · exact .ite (h1.trans (.chanPost _ _ _)) h1
    · exact h1

theorem NoteBut.sliceEvent (s : State) (code slice who cause : Nat) : NoteBut C s (s.sliceEvent code slice who cause) := by
  unfold State.sliceEvent
  extract_lets ws to_
  exact .ite (.postEvent s ws) (.ite (MgtOnly.mgtSend s _ _ _).note (.refl s))

end

end Sys2Proof.Machine
end

-- The tick's registers

/-! SUPPORT. What the tick's registers read after an update of one of their fields, and what entering HOLD leaves alone. -/

section
namespace Sys2Proof.Machine

/-! ### Registers and fields -/

section
variable {s t : State}

/-- Two fields that share no bit. -/
theorem State.fget_fset_apart (s : State) (f g : Fld) (v : Nat) (hg : g.hi < 32)
    (h : g.reg ≠ f.reg ∨ g.hi < f.lo ∨ f.hi < g.lo) : (s.fset f v).fget g = s.fget g := by
  rcases h with h | h
  · exact State.fget_fset_reg s f g v h
  · exact State.fget_fset_bits s f g v hg h

theorem State.fget_fset_fits (s : State) (f : Fld) (v : Nat) (hf : f.hi < 32) (hv : v < 2 ^ (f.hi + 1 - f.lo)) :
    (s.fset f v).fget f = v := by
  rw [State.fget_fset_same s f v hf]
  exact Nat.mod_eq_of_lt hv

/-- No register of the tick master, of power, or above the collector and the recorder is one that a fault message writes. -/
theorem notMem_faultRegs {o : Nat} (h : 0x10000 ≤ o ∧ o < 0x30000 ∨ 0x50000 ≤ o) : o ∉ faultRegs := by
  simp only [faultRegs, EVR_HEAD.HEAD, EVR_HEAD.off, EVR_REPEAT_AT.AT, EVR_REPEAT_AT.off, HUB_PCIE_IRQ.IRQ,
    HUB_PCIE_IRQ.off, FLT_PIN.HELD, FLT_PIN.off, FLT_STAT.GRAVE, FLT_STAT.off, FLT_DUMP_STAT.BUSY, FLT_DUMP_STAT.off,
    FLT_Q_STAT.LOST, FLT_Q_STAT.off, FLT_CNT.CNT, FLT_CNT.off, List.mem_cons, List.not_mem_nil, or_false]
  omega

/-- The registers of the tick master and of power are plain. -/
theorem plainReg_of_lt {o : Nat} (h1 : 0x10000 ≤ o) (h2 : o < 0x30000) : plainReg o :=
  ⟨by simp only [MBX_BIND_W0.off]; omega, notMem_faultRegs (.inl ⟨h1, h2⟩)⟩

theorem NoteBut.fget {C : Nat → Prop} (h : NoteBut C s t) {f : Fld} (hf : plainReg f.reg)
    (hC : ∀ n, C n → ¬ tickBlock n f.reg) : t.fget f = s.fget f := by
  rw [State.fget, State.fget, h.reg _ hf hC]

theorem NoteOnly.fget (h : NoteOnly s t) {f : Fld} (hf : plainReg f.reg) : t.fget f = s.fget f :=
  NoteBut.fget h hf fun _ => False.elim

/-- A register of a slice context's tick block. -/
theorem plainReg_slice {o n : Nat} (hn : n < 16) (h1 : 0x10100 + 0x40 * n ≤ o) (h2 : o < 0x10140 + 0x40 * n) :
    plainReg o :=
  plainReg_of_lt (by omega) (by omega)

theorem NoteOnly.fget_slCtl (h : NoteOnly s t) {n : Nat} (hn : n < 16) {f : Fld} (hf : f.reg = TCK_SL_CTL.off n) :
    t.fget f = s.fget f :=
  h.fget (plainReg_slice hn (by rw [hf, TCK_SL_CTL.off]) (by rw [hf, TCK_SL_CTL.off]; omega))

theorem NoteOnly.fget_slStat (h : NoteOnly s t) {n : Nat} (hn : n < 16) {f : Fld} (hf : f.reg = TCK_SL_STAT.off n) :
    t.fget f = s.fget f :=
  h.fget (plainReg_slice hn (by rw [hf, TCK_SL_STAT.off]; omega) (by rw [hf, TCK_SL_STAT.off]; omega))

theorem NoteOnly.slState (h : NoteOnly s t) {n : Nat} (hn : n < 16) : t.slState n = s.slState n :=
  h.fget_slStat hn rfl

/-! ### The tick state of a context -/

theorem State.slState_setSlState (s : State) (n : Nat) {st : Nat} (h : st < 8) : (s.setSlState n st).slState n = st := by
  unfold State.slState State.setSlState
  rw [State.fget_fset_apart, State.fget_fset_fits]
  all_goals simp only [TCK_SL_STAT.STATE, TCK_SL_CTL.EN, TCK_SL_STAT.off, TCK_SL_CTL.off]; omega

theorem State.fget_setSlState (s : State) (n st : Nat) {f : Fld} (hf : f.hi < 32)
    (hstat : f.reg = TCK_SL_STAT.off n → 2 < f.lo) (hctl : f.reg = TCK_SL_CTL.off n → 0 < f.lo) :
    (s.setSlState n st).fget f = s.fget f := by
  unfold State.setSlState
  rw [State.fget_fset_apart _ _ _ _ hf, State.fget_fset_apart _ _ _ _ hf]
  · exact Classical.or_iff_not_imp_left.2 fun h => .inr (hstat (not_not.1 h))
  · exact Classical.or_iff_not_imp_left.2 fun h => .inr (hctl (not_not.1 h))

@[simp] theorem State.slState_modCx (s : State) (k n : Nat) (f : CtxSt → CtxSt) : (s.modCx k f).slState n = s.slState n :=
  rfl

theorem State.slState_fset (s : State) {n : Nat} {f : Fld} (v : Nat) (h : f.reg = TCK_SL_STAT.off n → 2 < f.lo) :
    (s.fset f v).slState n = s.slState n := by
  refine State.fget_fset_apart s f _ v (show 2 < 32 by decide) ?_
  exact Classical.or_iff_not_imp_left.2 fun e => .inl (h (not_not.1 e).symm)

theorem State.armBit_fset (s : State) {n : Nat} {f : Fld} (v : Nat) (h : f.reg ≠ TCK_SL_CTL.off n) :
    (s.fset f v).flag (TCK_SL_CTL.CMD_ARM n) = s.flag (TCK_SL_CTL.CMD_ARM n) := by
  rw [State.flag, State.flag, State.fget_fset_reg _ _ _ _ (Ne.symm h)]

/-- The arm bit is neither the tick state nor EN. -/
theorem State.armBit_setSlState (s : State) (n st : Nat) :
    (s.setSlState n st).flag (TCK_SL_CTL.CMD_ARM n) = s.flag (TCK_SL_CTL.CMD_ARM n) := by
  rw [State.flag, State.flag, State.fget_setSlState s n st (show 4 < 32 by decide) (fun h => absurd h (by
    simp only [TCK_SL_CTL.CMD_ARM, TCK_SL_CTL.off, TCK_SL_STAT.off]; omega)) (fun _ => show 0 < 4 by decide)]

/-- The arm bit is in no register but TCK_SL_CTL. -/
theorem State.armBit_fset_slStat (s : State) (n : Nat) {f : Fld} (v : Nat) (h : f.reg = TCK_SL_STAT.off n) :
    (s.fset f v).flag (TCK_SL_CTL.CMD_ARM n) = s.flag (TCK_SL_CTL.CMD_ARM n) :=
  State.armBit_fset s v (by rw [h]; simp only [TCK_SL_CTL.off, TCK_SL_STAT.off]; omega)

theorem NoteOnly.armBit (h : NoteOnly s t) {n : Nat} (hn : n < 16) :
    t.flag (TCK_SL_CTL.CMD_ARM n) = s.flag (TCK_SL_CTL.CMD_ARM n) := by
  rw [State.flag, State.flag, h.fget_slCtl hn rfl]

/-! ### HOLD entered -/

section
variable {C : Nat → Prop} {n : Nat}

theorem NoteBut.modCx (s : State) (f : CtxSt → CtxSt) (hC : C n) : NoteBut C s (s.modCx n f) := by
  constructor <;> intros <;> first | rfl | skip
  next k hk =>
    rw [State.cx_modCx_other s (by rintro rfl; exact hk hC)]
  next k hk hn =>
    rwa [State.cx_modCx_other s (by rintro rfl; exact hk hC)]

theorem NoteBut.fset_tick (s : State) {f : Fld} (v : Nat) (hC : C n) (hf : tickBlock n f.reg) :
    NoteBut C s (s.fset f v) := by
  constructor <;> intros <;> first | rfl | assumption | skip
  next o _ ho => exact State.reg_fset_other s f v fun e => ho n hC (e ▸ hf)

theorem tickBlock_slCtl (n : Nat) : tickBlock n (TCK_SL_CTL.off n) := by
  simp only [tickBlock, TCK_SL_CTL.off]
  omega

theorem tickBlock_slStat (n : Nat) : tickBlock n (TCK_SL_STAT.off n) := by
  simp only [tickBlock, TCK_SL_STAT.off]
  omega

theorem NoteBut.setSlState (s : State) (st : Nat) (hC : C n) : NoteBut C s (s.setSlState n st) :=
  (NoteBut.fset_tick s _ hC (tickBlock_slStat n)).trans (.fset_tick _ _ hC (tickBlock_slCtl n))

/-- A context in HOLD, its tick over. -/
def State.inHold (s : State) (n cause : Nat) (open_ : Bool) : State :=
  ((s.setSlState n 5).fset (TCK_SL_STAT.HOLD_CAUSE n) cause).modCx n (fun c =>
    { c with aborted := false, started := false, holdNext := none, open_ := open_ })

theorem NoteBut.inHold (s : State) (cause : Nat) (open_ : Bool) (hC : C n) : NoteBut C s (s.inHold n cause open_) :=
  ((NoteBut.setSlState s 5 hC).trans (.fset_tick _ _ hC (tickBlock_slStat n))).trans (.modCx _ _ hC)

/-- What entering HOLD changes beside the context is what noting the slice event changes (R57). -/
theorem NoteOnly.enterHold_inHold (s : State) (n cause : Nat) (open_ : Bool) :
    NoteOnly ((s.settleHold n).inHold n cause open_) (s.enterHold n cause open_) :=
  .sliceEvent (State.inHold _ _ _ _) _ _ _ _

theorem NoteBut.enterHold (s : State) (cause : Nat) (open_ : Bool) (hC : C n) :
    NoteBut C s (s.enterHold n cause open_) :=
  ((NoteBut.settleHold s n).trans (.inHold _ cause open_ hC)).trans (.sliceEvent _ _ _ _ _)

theorem State.slState_enterHold (s : State) (hn : n < 16) (cause : Nat) (open_ : Bool) :
    (s.enterHold n cause open_).slState n = 5 := by
  rw [(NoteOnly.enterHold_inHold s n cause open_).slState hn, State.inHold, State.slState_modCx,
    State.slState_fset _ _ fun _ => show 2 < 5 by decide]
  exact State.slState_setSlState _ n (by decide)

theorem State.holdCause_enterHold (s : State) (hn : n < 16) {cause : Nat} (hc : cause < 8) (open_ : Bool) :
    (s.enterHold n cause open_).fget (TCK_SL_STAT.HOLD_CAUSE n) = cause := by
  rw [(NoteOnly.enterHold_inHold s n cause open_).fget_slStat hn rfl, State.inHold, State.fget_modCx]
  exact State.fget_fset_fits _ _ _ (show 7 < 32 by decide) (show cause < 2 ^ (7 + 1 - 5) by omega)

theorem State.armBit_enterHold (s : State) (hn : n < 16) (cause : Nat) (open_ : Bool) :
    (s.enterHold n cause open_).flag (TCK_SL_CTL.CMD_ARM n) = s.flag (TCK_SL_CTL.CMD_ARM n) := by
  rw [(NoteOnly.enterHold_inHold s n cause open_).armBit hn, State.inHold, State.flag_modCx,
    State.armBit_fset_slStat _ _ _ rfl, State.armBit_setSlState]
  exact NoteOnly.armBit (.settleHold s n) hn

end

end

end Sys2Proof.Machine
end

-- RESUME, HOLD and DISCARD

/-! PROOF of O11. -/

section
namespace Sys2Proof.Machine

section
variable {s t u : State} {m : Master} {v : Word}

theorem OnlyRegs.mono {l l' : List Nat} (h : OnlyRegs l s t) (hl : ∀ o ∈ l, o ∈ l') : OnlyRegs l' s t :=
  ⟨h.1, fun o ho => h.2 o fun k => ho (hl o k)⟩

theorem OnlyRegs.trans {l : List Nat} (h : OnlyRegs l s t) (k : OnlyRegs l t u) : OnlyRegs l s u :=
  ⟨regsOnly_trans h.1 k.1, fun o ho => (k.2 o ho).trans (h.2 o ho)⟩

theorem OnlyRegs.fset (s : State) (f : Fld) (w : Nat) {l : List Nat} (h : f.reg ∈ l) : OnlyRegs l s (s.fset f w) :=
  ⟨rfl, fun _ ho => State.reg_fset_other s f w fun e => ho (e ▸ h)⟩

theorem OnlyRegs.pair {l : List Nat} (h : OnlyRegs l s t) {lo : Nat} (h1 : lo ∉ l) (h2 : lo + 4 ∉ l) :
    t.pair lo = s.pair lo := by
  simp only [State.pair, h.2 _ h1, h.2 _ h2]

/-! ### A write of TCK_SL_CTL (R58) -/

/-- The row of TCK_SL_CTL (R71). -/
def slCtlRow : RegRow := ⟨0x10100, 16, 0x40, 1, 0, .hub,
  [(TCK_SL_CTL.EN 0).row .ro 0 .mod, (TCK_SL_CTL.CMD 0).row .rw 0 .mod, (TCK_SL_CTL.CMD_ARM 0).row .w1s 0 .mod,
   (TCK_SL_CTL.MAX_REPLAY 0).row .rw 2 .mod, (TCK_SL_CTL.OVR_HOLD 0).row .rw 0 .mod,
   (TCK_SL_CTL.RPR_LIM 0).row .rw 0x40 .mod, (TCK_SL_CTL.SPAN 0).row .rw 0 .mod]⟩

theorem regRow_slCtl : ∀ n : Ctx, regRow? (TCK_SL_CTL.off n.val) = some slCtlRow := by
  decide +kernel

/-- The word that a write of TCK_SL_CTL stores: ranges saturate, and the arm is set apart. -/
def slCtlSaved (n : Nat) (v : Word) : Word :=
  let v := (TCK_SL_CTL.MAX_REPLAY n).into v (min 2 ((TCK_SL_CTL.MAX_REPLAY n).of v))
  let v := (TCK_SL_CTL.RPR_LIM n).into v (max 1 ((TCK_SL_CTL.RPR_LIM n).of v))
  let v := (TCK_SL_CTL.SPAN n).into v (min 2 ((TCK_SL_CTL.SPAN n).of v))
  (TCK_SL_CTL.CMD_ARM n).off0 v

theorem slCtlSaved_apart {n : Nat} {f : Fld} (hf : f.hi < 4 ∨ 6 < f.lo ∧ f.hi < 8) :
    f.of (slCtlSaved n v) = f.of v := by
  have hhi : f.hi < 32 := by omega
  unfold slCtlSaved Fld.off0
  rw [Fld.of_into_other _ _ _ _ hhi (show f.hi < 4 ∨ 4 < f.lo by omega),
    Fld.of_into_other _ _ _ _ hhi (show f.hi < 16 ∨ 17 < f.lo by omega),
    Fld.of_into_other _ _ _ _ hhi (show f.hi < 8 ∨ 15 < f.lo by omega),
    Fld.of_into_other _ _ _ _ hhi (show f.hi < 5 ∨ 6 < f.lo by omega)]

theorem slCtlSaved_maxReplay {n : Nat} :
    (TCK_SL_CTL.MAX_REPLAY n).of (slCtlSaved n v) = min 2 ((TCK_SL_CTL.MAX_REPLAY n).of v) := by
  unfold slCtlSaved Fld.off0
  rw [Fld.of_into_other, Fld.of_into_other, Fld.of_into_other, Fld.of_into_of_lt]
  · exact show 6 < 32 by decide
  · exact show _ < 4 by omega
  all_goals simp only [TCK_SL_CTL.MAX_REPLAY, TCK_SL_CTL.RPR_LIM, TCK_SL_CTL.SPAN, TCK_SL_CTL.CMD_ARM]; omega

theorem slCtlSaved_rprLim {n : Nat} :
    (TCK_SL_CTL.RPR_LIM n).of (slCtlSaved n v) = max 1 ((TCK_SL_CTL.RPR_LIM n).of v) := by
  have hlt : (TCK_SL_CTL.RPR_LIM n).of v < 256 := Fld.of_lt ..
  have hrpr (w : Nat) : (TCK_SL_CTL.RPR_LIM n).of ((TCK_SL_CTL.MAX_REPLAY n).into v w) = (TCK_SL_CTL.RPR_LIM n).of v := by
    rw [Fld.of_into_other]
    all_goals simp only [TCK_SL_CTL.MAX_REPLAY, TCK_SL_CTL.RPR_LIM]; omega
  unfold slCtlSaved Fld.off0
  dsimp only
  rw [hrpr, Fld.of_into_other, Fld.of_into_other, Fld.of_into_of_lt]
  · exact show 15 < 32 by decide
  · exact show _ < 256 by omega
  all_goals simp only [TCK_SL_CTL.RPR_LIM, TCK_SL_CTL.SPAN, TCK_SL_CTL.CMD_ARM]; omega

theorem State.slCtl_arm {n : Nat} (h : (TCK_SL_CTL.CMD_ARM n).of v = 1) : s.slCtl m n v =
    let u := s.store m (TCK_SL_CTL.off n) (slCtlSaved n v)
    if u.pair (TCK_SL_CMD_AT_LO.off n) ≤ u.step then u.fset (TCK_SL_STAT.CMD_MISSED n) 1
    else u.fset (TCK_SL_CTL.CMD_ARM n) 1 := by
  have h' : State.slCtl.TCK_SL_CTL.CMD_ARM.of n v = 1 := h
  unfold State.slCtl
  simp only [h', one_ne_zero, if_false]
  rfl

theorem State.storable_slCtl {n : Nat} (hn : n < 16) : s.storable (TCK_SL_CTL.off n) v := by
  refine State.storable_of_unlocked ?_
  unfold State.lockedAt
  have h1 : RIG_CTL.off = 0x80000 := rfl
  have h2 : FLT_CTL.off = 0x30000 := rfl
  have h3 : FAB_MGR_CTL.off = 0xA3000 := rfl
  have ho : TCK_SL_CTL.off n = 0x10100 + 0x40 * n := rfl
  generalize TCK_SL_CTL.off n = o at ho
  rw [if_neg (by omega), if_neg (by omega), if_neg (by omega), if_neg (by simp; omega), if_neg (by simp; omega)]

/-- A write of TCK_SL_CTL that arms a command (R58, R69). -/
theorem State.slCtl_stored (n : Ctx) (harm : (TCK_SL_CTL.CMD_ARM n.val).of v = 1) :
    (s.slCtl m n.val v).fget (TCK_SL_CTL.CMD n.val) = (TCK_SL_CTL.CMD n.val).of v ∧
      (s.slCtl m n.val v).fget (TCK_SL_CTL.MAX_REPLAY n.val) = min 2 ((TCK_SL_CTL.MAX_REPLAY n.val).of v) ∧
      (s.slCtl m n.val v).fget (TCK_SL_CTL.RPR_LIM n.val) = max 1 ((TCK_SL_CTL.RPR_LIM n.val).of v) ∧
      (s.pair (TCK_SL_CMD_AT_LO.off n.val) ≤ s.step → (s.slCtl m n.val v).flag (TCK_SL_STAT.CMD_MISSED n.val) = true) ∧
      (s.step < s.pair (TCK_SL_CMD_AT_LO.off n.val) → (s.slCtl m n.val v).flag (TCK_SL_CTL.CMD_ARM n.val) = true) ∧
      OnlyRegs [TCK_SL_CTL.off n.val, TCK_SL_STAT.off n.val] s (s.slCtl m n.val v) := by
  have hn := n.isLt
  rw [State.slCtl_arm harm]
  have hs : s.storable (TCK_SL_CTL.off n.val) (slCtlSaved n.val v) := State.storable_slCtl hn
  have hrow := regRow_slCtl n
  extract_lets u
  have hu : OnlyRegs [TCK_SL_CTL.off n.val] s u := State.store_only hrow hs
  have hcmd : u.fget (TCK_SL_CTL.CMD n.val) = (TCK_SL_CTL.CMD n.val).of v :=
    (State.fget_store_rw (f := TCK_SL_CTL.CMD n.val) hrow hs (.tail _ (.head _))).trans
      (slCtlSaved_apart (.inl (show 3 < 4 by decide)))
  have hmax : u.fget (TCK_SL_CTL.MAX_REPLAY n.val) = min 2 ((TCK_SL_CTL.MAX_REPLAY n.val).of v) :=
    (State.fget_store_rw (f := TCK_SL_CTL.MAX_REPLAY n.val) hrow hs (.tail _ (.tail _ (.tail _ (.head _))))).trans
      slCtlSaved_maxReplay
  have hrpr : u.fget (TCK_SL_CTL.RPR_LIM n.val) = max 1 ((TCK_SL_CTL.RPR_LIM n.val).of v) :=
    (State.fget_store_rw (f := TCK_SL_CTL.RPR_LIM n.val) hrow hs
      (.tail _ (.tail _ (.tail _ (.tail _ (.tail _ (.head _))))))).trans slCtlSaved_rprLim
  have hat : u.pair (TCK_SL_CMD_AT_LO.off n.val) = s.pair (TCK_SL_CMD_AT_LO.off n.val) := by
    refine hu.pair ?_ ?_ <;> simp only [TCK_SL_CMD_AT_LO.off, TCK_SL_CTL.off, List.mem_singleton] <;> omega
  have hstep : u.step = s.step := by
    refine hu.pair ?_ ?_ <;> simp only [TCK_STEP_LO.off, TCK_SL_CTL.off, List.mem_singleton] <;> omega
  have hu' : OnlyRegs [TCK_SL_CTL.off n.val, TCK_SL_STAT.off n.val] s u := hu.mono (by simp)
  rw [hat, hstep]
  split
  next hle =>
    have hkeep {f : Fld} (hf : f.reg = TCK_SL_CTL.off n.val) (hhi : f.hi < 32) :
        (u.fset (TCK_SL_STAT.CMD_MISSED n.val) 1).fget f = u.fget f :=
      State.fget_fset_apart _ _ _ _ hhi (.inl (by
        simp only [hf, TCK_SL_STAT.CMD_MISSED, TCK_SL_STAT.off, TCK_SL_CTL.off]; omega))
    refine ⟨(hkeep rfl (show 3 < 32 by decide)).trans hcmd, (hkeep rfl (show 6 < 32 by decide)).trans hmax,
      (hkeep rfl (show 15 < 32 by decide)).trans hrpr, fun _ => ?_, fun h => absurd h (by omega),
      hu'.trans (.fset _ _ _ (by simp [TCK_SL_STAT.CMD_MISSED]))⟩
    exact State.flag_fset_one u (show 28 < 32 by decide) rfl
  next hlt =>
    have hkeep {f : Fld} (hf : f.hi < 4 ∨ 4 < f.lo) (hhi : f.hi < 32) :
        (u.fset (TCK_SL_CTL.CMD_ARM n.val) 1).fget f = u.fget f :=
      State.fget_fset_apart _ _ _ _ hhi (.inr hf)
    refine ⟨(hkeep (.inl (show 3 < 4 by decide)) (show 3 < 32 by decide)).trans hcmd,
      (hkeep (.inr (show 4 < 5 by decide)) (show 6 < 32 by decide)).trans hmax,
      (hkeep (.inr (show 4 < 8 by decide)) (show 15 < 32 by decide)).trans hrpr, fun h => absurd h hlt, fun _ => ?_,
      hu'.trans (.fset _ _ _ (by simp [TCK_SL_CTL.CMD_ARM]))⟩
    exact State.flag_fset_one u (show 4 < 32 by decide) rfl

/-! ### RESUME, HOLD and DISCARD -/

theorem State.slState_disarmed (n : Nat) : (s.fset (TCK_SL_CTL.CMD_ARM n) 0).slState n = s.slState n :=
  State.slState_fset s 0 fun h => absurd h (by
    simp only [TCK_SL_CTL.CMD_ARM, TCK_SL_CTL.off, TCK_SL_STAT.off]; omega)

theorem State.disarmed (n : Nat) : (s.fset (TCK_SL_CTL.CMD_ARM n) 0).flag (TCK_SL_CTL.CMD_ARM n) = false := by
  rw [State.flag, State.fget_fset_fits _ _ _ (show 4 < 32 by decide) (show 0 < 2 ^ (4 + 1 - 4) by decide)]
  rfl

end

/-- Two states that differ only in LPDDR5 channels. -/
def ChanOnly (s t : State) : Prop := t = { s with chan := t.chan }

theorem ChanOnly.calFresh (s : State) (n : Nat) : ChanOnly s (s.calFresh n) := by
  have htrans {t u : State} (h : ChanOnly s t) (k : u = { t with chan := u.chan }) : ChanOnly s u := by
    unfold ChanOnly at *
    rw [h] at k
    exact k
  exact State.eachOf_inv (P := ChanOnly s) rfl fun p _ t ht =>
    State.each_inv (P := ChanOnly s) ht fun k _ u hu => htrans hu rfl

/-- Whether the module is locked rests on the roles of its ports, their state and the sync status (R65, R66). -/
theorem State.isLocked_disarmed (s : State) {n : Nat} (hn : n < 16) :
    (s.fset (TCK_SL_CTL.CMD_ARM n) 0).isLocked = s.isLocked := by
  unfold State.isLocked State.isRoot State.follows State.trained State.flag
  simp (disch := (simp only [TCK_SL_CTL.CMD_ARM, TCK_SL_CTL.off, TCK_CTL.ROLE, TCK_CTL.PARENT, TCK_CTL.ALT_PARENT,
    TCK_CTL.off, LNK_STAT.STATE, LNK_STAT.off, TCK_SYNC_STAT.LOCKED, TCK_SYNC_STAT.off]; omega)) only [State.fget_fset_reg]

/-- Two states that differ only in registers and slice contexts. -/
def SliceOnly (s t : State) : Prop := t = { s with regs := t.regs, ctx := t.ctx }

section
variable {s t u : State}

theorem SliceOnly.trans (h : SliceOnly s t) (k : SliceOnly t u) : SliceOnly s u := by
  unfold SliceOnly at *
  rw [h] at k
  exact k

theorem SliceOnly.fset (h : SliceOnly s t) (f : Fld) (v : Nat) : SliceOnly s (t.fset f v) := h.trans rfl

theorem SliceOnly.setSlState (h : SliceOnly s t) (n st : Nat) : SliceOnly s (t.setSlState n st) := (h.fset _ _).fset _ _

theorem SliceOnly.modCx (h : SliceOnly s t) (n : Nat) (f : CtxSt → CtxSt) : SliceOnly s (t.modCx n f) := h.trans rfl

theorem SliceOnly.pending (h : SliceOnly s t) : t.pending = s.pending := by rw [h]
theorem SliceOnly.now (h : SliceOnly s t) : t.now = s.now := by rw [h]
theorem SliceOnly.fuses (h : SliceOnly s t) : t.fuses = s.fuses := by rw [h]
theorem SliceOnly.core (h : SliceOnly s t) : t.core = s.core := by rw [h]
theorem SliceOnly.mem (h : SliceOnly s t) : t.mem = s.mem := by rw [h]

theorem SliceOnly.done (h : SliceOnly s t) : done s t = .next t := done_of_kept h.pending h.now h.fuses

theorem ChanOnly.pending (h : ChanOnly s t) : t.pending = s.pending := by rw [h]
theorem ChanOnly.now (h : ChanOnly s t) : t.now = s.now := by rw [h]
theorem ChanOnly.fuses (h : ChanOnly s t) : t.fuses = s.fuses := by rw [h]
theorem ChanOnly.core (h : ChanOnly s t) : t.core = s.core := by rw [h]
theorem ChanOnly.mem (h : ChanOnly s t) : t.mem = s.mem := by rw [h]
theorem ChanOnly.flag (h : ChanOnly s t) (f : Fld) : t.flag f = s.flag f := by
  rw [h]
  rfl

end

/-- A context that goes to RUN with its attempts reset (R58). -/
def State.resumed (s : State) (n : Nat) : State :=
  (((s.setSlState n 2).fset (TCK_SL_STAT.ATTEMPT n) 0).fset (TCK_SL_STAT.HOLD_CAUSE n) 0).modCx n (fun c =>
    { c with aborted := false, started := false, holdNext := none, open_ := false, repairs := [], inRepair := 0 })

theorem State.slState_resumed (s : State) (n : Nat) : (s.resumed n).slState n = 2 := by
  rw [State.resumed, State.slState_modCx, State.slState_fset _ _ fun _ => show 2 < 5 by decide,
    State.slState_fset _ _ fun _ => show 2 < 3 by decide, State.slState_setSlState _ _ (by decide)]

theorem State.attempt_resumed (s : State) (n : Nat) : (s.resumed n).fget (TCK_SL_STAT.ATTEMPT n) = 0 := by
  rw [State.resumed, State.fget_modCx, State.fget_fset_apart _ _ _ _ (show 4 < 32 by decide)
    (.inr (.inl (show 4 < 5 by decide))), State.fget_fset_fits _ _ _ (show 4 < 32 by decide) (show 0 < 4 by decide)]

theorem State.holdCause_resumed (s : State) (n : Nat) : (s.resumed n).fget (TCK_SL_STAT.HOLD_CAUSE n) = 0 := by
  rw [State.resumed, State.fget_modCx, State.fget_fset_fits _ _ _ (show 7 < 32 by decide) (show 0 < 8 by decide)]

theorem State.armBit_resumed (s : State) (n : Nat) :
    (s.resumed n).flag (TCK_SL_CTL.CMD_ARM n) = s.flag (TCK_SL_CTL.CMD_ARM n) := by
  rw [State.resumed, State.flag_modCx, State.armBit_fset_slStat _ _ _ rfl, State.armBit_fset_slStat _ _ _ rfl,
    State.armBit_setSlState]

theorem State.repairs_resumed (s : State) (n : Nat) : ((s.resumed n).cx n).repairs = [] := by
  rw [State.resumed, State.cx_modCx_same]

theorem State.resumed_only (s : State) (n : Nat) : SliceOnly s (s.resumed n) :=
  ((((show SliceOnly s s from rfl).setSlState _ _).fset _ _).fset _ _).modCx _ _

/-- A RESUME that is taken. -/
theorem State.resume_taken {s : State} {n : Ctx} (hdue : s.cmdDue n.val 1 = true) (hhold : s.slState n.val = 5)
    (hlock : s.isLocked = true) (hgrave : s.flag FLT_STAT.GRAVE = false) (hact : s.fget PWR_STAT.STATE = 0)
    (hrig : s.flag (RIG_SL_STAT.ACTIVE n.val) = true) (hper : (s.sched n.val).period = s.fget TCK_PERIOD.PERIOD) :
    NoteOnly (((s.fset (TCK_SL_CTL.CMD_ARM n.val) 0).calFresh n.val).resumed n.val) (s.resume n.val) := by
  have hn := n.isLt
  have hkeep {f : Fld} (hf : f.reg < 0x10100 ∨ 0x10500 ≤ f.reg) :
      (s.fset (TCK_SL_CTL.CMD_ARM n.val) 0).fget f = s.fget f :=
    State.fget_fset_reg _ _ _ _ (by simp only [TCK_SL_CTL.CMD_ARM, TCK_SL_CTL.off]; omega)
  have h1 : (s.fset (TCK_SL_CTL.CMD_ARM n.val) 0).flag FLT_STAT.GRAVE = false := by
    rw [← hgrave, State.flag, State.flag, hkeep (.inr (by decide))]
  have h2 : (s.fset (TCK_SL_CTL.CMD_ARM n.val) 0).fget PWR_STAT.STATE = 0 := by rw [hkeep (.inr (by decide)), hact]
  have h3 : (s.fset (TCK_SL_CTL.CMD_ARM n.val) 0).flag (RIG_SL_STAT.ACTIVE n.val) = true := by
    rw [← hrig, State.flag, State.flag, hkeep (.inr (by simp only [RIG_SL_STAT.ACTIVE, RIG_SL_STAT.off]; omega))]
  have h4 : ((s.fset (TCK_SL_CTL.CMD_ARM n.val) 0).sched n.val).period =
      (s.fset (TCK_SL_CTL.CMD_ARM n.val) 0).fget TCK_PERIOD.PERIOD := by
    rw [hkeep (.inl (by decide)), ← hper]
    rfl
  unfold State.resume
  simp only [hdue, State.slState_disarmed, hhold, State.isLocked_disarmed s hn, hlock, h1, h2, h3, h4, decide_true,
    Bool.not_true, Bool.not_false, Bool.and_self, Bool.false_eq_true, if_true, if_false]
  exact .sliceEvent (State.resumed _ _) _ _ _ _

theorem State.resume_spec {s : State} {n : Ctx} (hdue : s.cmdDue n.val 1 = true) (hhold : s.slState n.val = 5)
    (hlock : s.isLocked = true) (hgrave : s.flag FLT_STAT.GRAVE = false) (hact : s.fget PWR_STAT.STATE = 0)
    (hrig : s.flag (RIG_SL_STAT.ACTIVE n.val) = true) (hper : (s.sched n.val).period = s.fget TCK_PERIOD.PERIOD) :
    Runs (.resume n) s fun t =>
      t.slState n.val = 2 ∧ t.fget (TCK_SL_STAT.ATTEMPT n.val) = 0 ∧ t.fget (TCK_SL_STAT.HOLD_CAUSE n.val) = 0 ∧
      t.flag (TCK_SL_CTL.CMD_ARM n.val) = false ∧ (t.cx n.val).repairs = [] ∧ t.core = s.core ∧ t.mem = s.mem := by
  have hn := n.isLt
  have hev := State.resume_taken hdue hhold hlock hgrave hact hrig hper
  have hcal : ChanOnly (s.fset (TCK_SL_CTL.CMD_ARM n.val) 0) ((s.fset (TCK_SL_CTL.CMD_ARM n.val) 0).calFresh n.val) :=
    .calFresh ..
  have harm : ((s.fset (TCK_SL_CTL.CMD_ARM n.val) 0).calFresh n.val).flag (TCK_SL_CTL.CMD_ARM n.val) = false := by
    rw [hcal.flag]
    exact State.disarmed n.val
  generalize (s.fset (TCK_SL_CTL.CMD_ARM n.val) 0).calFresh n.val = u at hev hcal harm
  have hu := u.resumed_only n.val
  refine runs_done rfl ?_ ?_ ?_ ⟨?_, ?_, ?_, ?_, ?_, ?_, ?_⟩
  · rw [hev.pending, hu.pending, hcal.pending, State.fset_pending]
  · rw [hev.now, hu.now, hcal.now, State.fset_now]
  · rw [hev.fuses, hu.fuses, hcal.fuses, State.fset_fuses]
  · rw [hev.slState hn, State.slState_resumed]
  · rw [hev.fget_slStat hn rfl, State.attempt_resumed]
  · rw [hev.fget_slStat hn rfl, State.holdCause_resumed]
  · rw [hev.armBit hn, State.armBit_resumed, harm]
  · have hrep := congrArg CtxSt.repairs (NoteBut.cx_eq hev n.val)
    rwa [State.repairs_resumed] at hrep
  · rw [hev.core, hu.core, hcal.core, State.fset_core]
  · rw [hev.mem, hu.mem, hcal.mem, State.fset_mem]

theorem State.holdNow_busy {s : State} {n : Nat} (h1 : 2 ≤ s.slState n) (h2 : s.slState n ≤ 4) (cause : Nat) :
    s.holdNow n cause = s.enterHold n cause (s.slState n ≠ 2 || (s.cx n).open_) := by
  unfold State.holdNow
  rw [if_pos (by simp [h1, h2])]

theorem State.holdCmd_spec {s : State} {n : Ctx} (hdue : s.cmdDue n.val 2 = true) (hc : (s.cx n.val).commitTick = false)
    (h1 : 2 ≤ s.slState n.val) (h2 : s.slState n.val ≤ 4) : Runs (.hold n) s fun t =>
      t.slState n.val = 5 ∧ t.fget (TCK_SL_STAT.HOLD_CAUSE n.val) = 1 ∧ t.flag (TCK_SL_CTL.CMD_ARM n.val) = false ∧
      t.core = s.core ∧ t.mem = s.mem := by
  have e : s.holdCmd n.val =
      (s.fset (TCK_SL_CTL.CMD_ARM n.val) 0).enterHold n.val 1 (s.slState n.val ≠ 2 || (s.cx n.val).open_) := by
    unfold State.holdCmd
    have hc' : ((s.fset (TCK_SL_CTL.CMD_ARM n.val) 0).cx n.val).commitTick = false := hc
    simp only [hdue, hc', Bool.not_true, Bool.false_eq_true, if_false]
    rw [State.holdNow_busy (by rwa [State.slState_disarmed]) (by rwa [State.slState_disarmed]), State.slState_disarmed]
    rfl
  have hkeep : NoteBut (· = n.val) (s.fset (TCK_SL_CTL.CMD_ARM n.val) 0) (s.holdCmd n.val) := by
    rw [e]
    exact .enterHold _ _ _ rfl
  refine runs_done rfl hkeep.pending hkeep.now hkeep.fuses ⟨?_, ?_, ?_, hkeep.core, hkeep.mem⟩
  all_goals rw [e]
  · exact State.slState_enterHold _ n.isLt _ _
  · exact State.holdCause_enterHold _ n.isLt (by decide) _
  · rw [State.armBit_enterHold _ n.isLt]
    exact State.disarmed n.val

theorem State.discard_spec {s : State} {n : Ctx} (hdue : s.cmdDue n.val 3 = true) (hhold : s.slState n.val = 5) :
    Runs (.discard n) s fun t =>
      t.slState n.val = 0 ∧ t.fget (TCK_SL_STAT.HOLD_CAUSE n.val) = 0 ∧ t.flag (TCK_SL_CTL.CMD_ARM n.val) = false ∧
      t = { s with regs := t.regs, ctx := t.ctx } := by
  have e : s.discard n.val = (((s.fset (TCK_SL_CTL.CMD_ARM n.val) 0).setSlState n.val 0).fset
      (TCK_SL_STAT.HOLD_CAUSE n.val) 0).modCx n.val (fun c => { c with open_ := false, repairs := [] }) := by
    unfold State.discard
    simp only [hdue, State.slState_disarmed, hhold, Bool.not_true, Bool.false_eq_true, if_true, if_false]
  have honly : SliceOnly s (s.discard n.val) := by
    rw [e]
    exact ((((show SliceOnly s s from rfl).fset _ _).setSlState _ _).fset _ _).modCx _ _
  refine ⟨_, honly.done, ?_, ?_, ?_, honly⟩
  all_goals rw [e]
  · rw [State.slState_modCx, State.slState_fset _ _ fun _ => show 2 < 5 by decide,
      State.slState_setSlState _ _ (by decide)]
  · rw [State.fget_modCx, State.fget_fset_fits _ _ _ (show 7 < 32 by decide) (show 0 < 8 by decide)]
  · rw [State.flag_modCx, State.armBit_fset_slStat _ _ _ rfl, State.armBit_setSlState]
    exact State.disarmed n.val

/-- Settles O11. -/
theorem sliceCommands : Obligations.SliceCommands := by
  unfold Obligations.SliceCommands
  intro s n
  refine ⟨fun m v hadm harm => ?_, State.resume_spec, State.holdCmd_spec, State.discard_spec⟩
  obtain ⟨hcmd, hmax, hrpr, hmissed, hahead, honly⟩ := State.slCtl_stored (s := s) (m := m) n harm
  exact runs_admitted hadm rfl honly.done ⟨hcmd, hmax, hrpr, hmissed, hahead, honly⟩

end Sys2Proof.Machine
end

-- Events of the tick

/-! PROOF of O13. -/

section
namespace Sys2Proof.Machine

/-! ### COMPUTE_START (R132) -/

theorem State.computeStart_spec {s : State} {n : Ctx} (htick : s.ticking n.val = true)
    (habort : (s.cx n.val).aborted = false) (hcommit : (s.cx n.val).commitTick = false)
    (hstart : (s.cx n.val).started = false) : Runs (.computeStart n) s fun t =>
      t.cx n.val = { s.cx n.val with started := true } ∧ (∀ k, k ≠ n.val → t.cx k = s.cx k) ∧
      t = { s with ctx := t.ctx, now := max s.now (s.tick.bound + 16) } := by
  have e : exec (.computeStart n) s = doneAt s (s.tick.bound + 16) (fun s => s.computeStart n.val) := by
    show execComputeStart n s = _
    unfold execComputeStart
    rw [if_pos htick]
  have hwork : (s.atTime (s.tick.bound + 16)).working n.val = true := by
    have h1 : (s.atTime (s.tick.bound + 16)).ticking n.val = true := htick
    have h2 : ((s.atTime (s.tick.bound + 16)).cx n.val).aborted = false := habort
    have h3 : ((s.atTime (s.tick.bound + 16)).cx n.val).commitTick = false := hcommit
    have h4 : (s.atTime (s.tick.bound + 16)).edgeOver = true := decide_eq_true (le_max_right _ _)
    simp only [State.working, h1, h2, h3, h4, Bool.not_false, Bool.and_self]
  have hu : (s.atTime (s.tick.bound + 16)).computeStart n.val =
      (s.atTime (s.tick.bound + 16)).modCx n.val (fun c => { c with started := true }) := by
    have h5 : ((s.atTime (s.tick.bound + 16)).cx n.val).started = false := hstart
    simp only [State.computeStart, hwork, h5, Bool.not_true, Bool.or_self, Bool.false_eq_true, if_false]
  exact runs_doneAt e hu rfl rfl rfl ⟨State.cx_modCx_same .., fun k hk => State.cx_modCx_other _ hk _, rfl⟩

/-! ### ABORT (R54, R69) -/

/-- What an abort does to a context beside its mark: repairs may join those that the slice waits for, a hold may be kept for
the boundary, and packets may leave. -/
def AbortOnly (n : Nat) (s t : State) : Prop :=
  t = { s with rtr := t.rtr, port := t.port, mgr := t.mgr, ctx := t.ctx } ∧ (t.cx n).aborted = (s.cx n).aborted

section
variable {s t u : State} {n : Nat}

theorem AbortOnly.refl (n : Nat) (s : State) : AbortOnly n s s := ⟨rfl, rfl⟩

theorem AbortOnly.trans (h : AbortOnly n s t) (k : AbortOnly n t u) : AbortOnly n s u := by
  obtain ⟨h1, h2⟩ := h
  obtain ⟨k1, k2⟩ := k
  refine ⟨?_, k2.trans h2⟩
  rw [h1] at k1
  exact k1

theorem AbortOnly.ite {c : Prop} [Decidable c] {a b : State} (h : AbortOnly n s a) (k : AbortOnly n s b) :
    AbortOnly n s (if c then a else b) := by
  split
  · exact h
  · exact k

theorem MgtOnly.abortOnly (h : MgtOnly s t) : AbortOnly n s t := by
  unfold MgtOnly at h
  rw [h]
  exact ⟨rfl, rfl⟩

theorem AbortOnly.modCx (s : State) {f : CtxSt → CtxSt} (h : ∀ c, (f c).aborted = c.aborted) :
    AbortOnly n s (s.modCx n f) := by
  refine ⟨rfl, ?_⟩
  rw [State.cx_modCx_same]
  exact h _

theorem AbortOnly.addRepair (s : State) (r : Repair) : AbortOnly n s (s.addRepair n r) :=
  (MgtOnly.cancelStep s).abortOnly.trans (.modCx _ fun _ => rfl)

theorem AbortOnly.waitRepairs (s : State) : AbortOnly n s (s.waitRepairs n) :=
  State.eachOf_inv (P := AbortOnly n s) (.refl n s) fun _ _ _ ht =>
    State.eachOf_inv (P := AbortOnly n s) ht fun _ _ u hu => hu.trans (.addRepair u _)

theorem MgtOnly.ctlAll (s : State) (m : BitVec 48) : MgtOnly s (s.ctlAll m) :=
  State.each_inv (P := MgtOnly s) (.refl s) fun _ _ t ht => .ite (ht.trans (.modPo t _ _)) ht

theorem AbortOnly.holdAt (s : State) (cause : Nat) : AbortOnly n s (s.holdAt n cause) := .modCx s fun _ => rfl

/-- The mark of an abort. -/
def State.markAbort (s : State) (n cause : Nat) : State :=
  (s.fset (TCK_SL_STAT.LAST_ABORT n) cause).modCx n (fun c => { c with aborted := true })

theorem State.abortTick_only (h : s.ticking n = true) (cause : Nat) :
    AbortOnly n (s.markAbort n cause) (s.abortTick n cause) := by
  unfold State.abortTick
  rw [if_neg (by simp [h])]
  extract_lets first s1 s2
  have h2 : AbortOnly n s1 s2 := .ite (.waitRepairs s1) (.refl n s1)
  exact .ite (h2.trans (MgtOnly.ctlAll s2 _).abortOnly) h2

theorem State.aborted_markAbort (s : State) (n cause : Nat) : ((s.markAbort n cause).cx n).aborted = true := by
  rw [State.markAbort, State.cx_modCx_same]

theorem State.lastAbort_markAbort (s : State) (n : Nat) {cause : Nat} (h : cause < 256) :
    (s.markAbort n cause).fget (TCK_SL_STAT.LAST_ABORT n) = cause := by
  rw [State.markAbort, State.fget_modCx]
  exact State.fget_fset_fits _ _ _ (show 15 < 32 by decide) h

theorem State.slState_markAbort (s : State) (n cause : Nat) : (s.markAbort n cause).slState n = s.slState n := by
  rw [State.markAbort, State.slState_modCx, State.slState_fset _ _ fun _ => show 2 < 8 by decide]

end

theorem State.abort_spec {s : State} {n : Nat} {slice : BitVec 12} {tick cause : BitVec 8} {att : BitVec 2}
    (hctx : s.ctxOf slice.toNat = some n) (htick : s.ticking n = true) (hnow : tick.toNat = s.slStep n % 256)
    (hatt : att.toNat = s.fget (TCK_SL_STAT.ATTEMPT n)) : Runs (.abort slice tick att cause) s fun t =>
      (t.cx n).aborted = true ∧ t.fget (TCK_SL_STAT.LAST_ABORT n) = cause.toNat ∧ t.slState n = s.slState n ∧
      t.core = s.core ∧ t.eng = s.eng ∧ t.mem = s.mem := by
  have e : AbortOnly n (s.markAbort n cause.toNat) (s.abortArrives slice.toNat tick.toNat att.toNat cause.toNat) := by
    unfold State.abortArrives
    simp only [hctx, htick, hnow, hatt, decide_true, Bool.and_self, if_true]
    have h := State.abortTick_only htick cause.toNat
    exact .ite (h.trans (.holdAt _ _)) h
  generalize hu : s.abortArrives slice.toNat tick.toNat att.toNat cause.toNat = u at e
  obtain ⟨hkeep, habort⟩ := e
  have hregs {f : Fld} : u.fget f = (s.markAbort n cause.toNat).fget f := by
    rw [hkeep]
    rfl
  refine runs_done (u := u) (by rw [← hu]; rfl) (by rw [hkeep]; rfl) (by rw [hkeep]; rfl) (by rw [hkeep]; rfl)
    ⟨?_, ?_, ?_, by rw [hkeep]; rfl, by rw [hkeep]; rfl, by rw [hkeep]; rfl⟩
  · rw [habort, State.aborted_markAbort]
  · rw [hregs, State.lastAbort_markAbort s n cause.isLt]
  · rw [State.slState, hregs]
    exact State.slState_markAbort ..

/-- A late abort of a step and attempt, noted beside those of the same step. -/
def CtxSt.noteLate (c : CtxSt) (step attempt : Nat) : CtxSt :=
  { c with late := c.late.filter (fun e => e / 4 = step) ++ [4 * step + attempt] }

/-- A message raised as a context changes. -/
theorem State.aborted_raise_modCx (s : State) {n : Nat} {f : CtxSt → CtxSt} (hf : ∀ c, (f c).aborted = c.aborted)
    (code : Nat) (src : Word) (addr arg : Nat) :
    (((s.modCx n f).raise code src addr arg).cx n).aborted = (s.cx n).aborted := by
  have h := congrArg CtxSt.aborted (NoteBut.cx_eq (.raise (s.modCx n f) code src addr arg) n)
  rw [State.cx_modCx_same] at h
  exact h.trans (hf _)

theorem NoteBut.raise_modCx (s : State) (n : Nat) (f : CtxSt → CtxSt) (code : Nat) (src : Word) (addr arg : Nat) :
    NoteBut (· = n) s ((s.modCx n f).raise code src addr arg) :=
  (NoteBut.modCx (C := (· = n)) s f rfl).trans (.raise _ code src addr arg)

theorem State.fget_raise_modCx (s : State) {n : Nat} (hn : n < 16) (f : CtxSt → CtxSt) (code : Nat) (src : Word)
    (addr arg : Nat) {g : Fld} (hg : g.reg = TCK_SL_STAT.off n) :
    ((s.modCx n f).raise code src addr arg).fget g = s.fget g :=
  (NoteOnly.fget_slStat (.raise (s.modCx n f) code src addr arg) hn hg).trans (State.fget_modCx ..)

/-- An abort of another tick marks nothing; one of the tick before is told once (R226). -/
theorem State.abort_other_spec {s : State} {n : Ctx} {slice : BitVec 12} {tick cause : BitVec 8} {att : BitVec 2}
    (hctx : s.ctxOf slice.toNat = some n.val) (hother : tick.toNat ≠ s.slStep n.val % 256) :
    Runs (.abort slice tick att cause) s fun t =>
      (t.cx n.val).aborted = (s.cx n.val).aborted ∧
      t.fget (TCK_SL_STAT.LAST_ABORT n.val) = s.fget (TCK_SL_STAT.LAST_ABORT n.val) := by
  have e : exec (.abort slice tick att cause) s = done s (s.abortArrives slice.toNat tick.toNat att.toNat cause.toNat) := rfl
  unfold State.abortArrives at e
  simp only [hctx, hother, decide_false, Bool.and_false, Bool.false_and, Bool.false_eq_true, if_false] at e
  split at e
  next =>
    let f (c : CtxSt) := c.noteLate (s.slStep n.val - 1) att.toNat
    have h := NoteBut.raise_modCx s n.val f 0x0104 0 (s.slStep n.val - 1) slice.toNat
    exact runs_done e h.pending h.now h.fuses ⟨State.aborted_raise_modCx s (f := f) (fun _ => rfl) 0x0104 0 _ _,
      State.fget_raise_modCx s n.isLt f 0x0104 0 _ _ rfl⟩
  next => exact runs_done e rfl rfl rfl ⟨rfl, rfl⟩

/-! ### REPAIR_COMPLETE (R56) -/

section
variable {s t u : State} {n : Nat}

/-- Two states that differ only in the clusters. -/
def ClusOnly (s t : State) : Prop := t = { s with clus := t.clus }

theorem ClusOnly.treeSwitch (s : State) (n rid : Nat) (f : Bool → Bool) : ClusOnly s (s.treeSwitch n rid f) := by
  have htree {t : State} (c i : Nat) (g : TreeSt → TreeSt) (ht : ClusOnly s t) : ClusOnly s (t.modTree c i g) := by
    unfold ClusOnly at *
    rw [ht]
    rfl
  unfold State.treeSwitch
  refine State.eachOf_inv (P := ClusOnly s) rfl fun p _ t ht => ?_
  refine State.each_inv (P := ClusOnly s) ht fun c _ u hu => ?_
  refine State.each_inv (P := ClusOnly s) hu fun i _ v hv => ?_
  split
  · exact htree _ _ _ hv
  · exact hv

/-- A repair that is no longer waited for, in a slice context and in the clusters alone. -/
def RepairEnded (n : Nat) (r : Repair) (s t : State) : Prop :=
  (t.cx n).repairs = (s.cx n).repairs.filter (fun x => x ≠ r) ∧ (∀ k, k ≠ n → t.cx k = s.cx k) ∧
    t = { s with ctx := t.ctx, clus := t.clus }

theorem RepairEnded.endRepair (s : State) (n : Nat) (r : Repair) : RepairEnded n r s (s.endRepair n r) := by
  unfold State.endRepair
  extract_lets u
  have hu : ClusOnly s u := by
    unfold u
    split
    · split
      · exact .treeSwitch ..
      · rfl
    · rfl
  unfold ClusOnly at hu
  rw [hu]
  refine ⟨?_, fun k hk => State.cx_modCx_other _ hk _, rfl⟩
  rw [State.cx_modCx_same]
  rfl

theorem RepairEnded.of_notMem {r : Repair} (h : r ∉ (s.cx n).repairs) : RepairEnded n r s s := by
  refine ⟨(List.filter_eq_self.2 fun x hx => ?_).symm, fun _ _ => rfl, rfl⟩
  exact decide_eq_true fun e => h (e ▸ hx)

/-- The records of a channel moved: the active sections of the context at most. -/
theorem State.moveRecords_cases (s : State) (n d k : Nat) :
    (s.moveRecords n d k).2 = s ∨ ∃ l, (s.moveRecords n d k).2 = s.modCx n (fun x => { x with active := l }) := by
  unfold State.moveRecords
  extract_lets old
  split
  · exact .inl rfl
  · split
    · exact .inl rfl
    · split
      · exact .inr ⟨_, rfl⟩
      · exact .inl rfl

theorem RepairEnded.moved {r : Repair} (l : List Sect)
    (h : RepairEnded n r (s.modCx n (fun x => { x with active := l })) t) : RepairEnded n r s t := by
  obtain ⟨h1, h2, h3⟩ := h
  rw [State.cx_modCx_same] at h1
  refine ⟨h1, fun k hk => (h2 k hk).trans (State.cx_modCx_other _ hk _), ?_⟩
  rw [h3]
  rfl

theorem RepairEnded.repairDone {r : Repair} (hroute : r = .route → s.strandsClear n = true)
    (hrec : ∀ d k, r = .records d k → (s.moveRecords n d.val k.val).1 = true) : RepairEnded n r s (s.repairDone n r) := by
  unfold State.repairDone
  split
  next h => exact .of_notMem (by simpa using h)
  next h =>
    split
    next d k =>
      have hok := hrec d k rfl
      have hcases := s.moveRecords_cases n d.val k.val
      generalize s.moveRecords n d.val k.val = m at hok hcases
      obtain ⟨ok, t⟩ := m
      dsimp only at hok hcases ⊢
      rw [if_pos hok]
      obtain rfl | ⟨l, rfl⟩ := hcases
      · exact .endRepair ..
      · exact .moved l (.endRepair ..)
    next => rw [if_pos (hroute rfl)]; exact .endRepair ..
    next => exact .endRepair ..

end

theorem State.repairComplete_spec {s : State} {n : Ctx} {r : Repair} (hroute : r = .route → s.strandsClear n.val = true)
    (hrec : ∀ d k, r = .records d k → (s.moveRecords n.val d.val k.val).1 = true) : Runs (.repairComplete n r) s fun t =>
      (t.cx n.val).repairs = (s.cx n.val).repairs.filter (fun x => x ≠ r) ∧
      (∀ k, k ≠ n.val → t.cx k = s.cx k) ∧ t = { s with ctx := t.ctx, clus := t.clus } := by
  have h : RepairEnded n.val r s (s.repairDone n.val r) := .repairDone hroute hrec
  have hkeep := h.2.2
  exact runs_done rfl (by rw [hkeep]) (by rw [hkeep]) (by rw [hkeep]) h

/-- The repair of the routes waits for the strands that cross a position in bypass. -/
theorem State.repairComplete_route_waits {s : State} {n : Ctx} (h : s.strandsClear n.val = false) :
    exec (.repairComplete n .route) s = .next s := by
  have e : s.repairDone n.val .route = s := by
    unfold State.repairDone
    split
    · rfl
    · simp only [h, Bool.false_eq_true, if_false]
  show done s (s.repairDone n.val .route) = _
  rw [e]
  exact done_of_kept rfl rfl rfl

/-! ### REPAIR_LIMIT (R56) -/

/-- Where no hang has been noted, a hold climbs no ladder (R362). -/
theorem State.holdHang_of_noHang {s : State} {n : Nat} (h : s.flt.lastTot = []) : s.holdHang n = s := by
  have hl : s.hangSrcs n = [] := by
    rw [State.hangSrcs, h]
    rfl
  unfold State.holdHang
  extract_lets c l
  split
  · rfl
  · split
    next =>
      extract_lets met
      exact if_pos (by rw [show l = [] from hl]; rfl)
    next => rfl

theorem State.repairLimit_spec {s : State} {n : Ctx} (hst : s.slState n.val = 4)
    (hlim : s.fget (TCK_SL_CTL.RPR_LIM n.val) ≤ (s.cx n.val).inRepair) (hhang : s.flt.lastTot = []) :
    Runs (.repairLimit n) s fun t => t.slState n.val = 5 ∧ t.fget (TCK_SL_STAT.HOLD_CAUSE n.val) = 3 := by
  have e : exec (.repairLimit n) s =
      done s (((s.raise 0x0103 0 (s.slStep n.val) (s.slId n.val)).enterHold n.val 3 true).holdHang n.val) := by
    show execRepairLimit n s = _
    unfold execRepairLimit
    simp only [hst, hlim, decide_true, Bool.and_self, if_true]
  have hraise : NoteOnly s (s.raise 0x0103 0 (s.slStep n.val) (s.slId n.val)) := .raise ..
  generalize s.raise 0x0103 0 (s.slStep n.val) (s.slId n.val) = u at e hraise
  have h : NoteBut (· = n.val) s (u.enterHold n.val 3 true) :=
    (hraise.mono fun _ => False.elim).trans (.enterHold u 3 true rfl)
  rw [State.holdHang_of_noHang (h.lastTot.trans hhang)] at e
  exact runs_done e h.pending h.now h.fuses
    ⟨State.slState_enterHold u n.isLt 3 true, State.holdCause_enterHold u n.isLt (by decide) true⟩

/-- Settles O13. -/
theorem tickEvents : Obligations.TickEvents := by
  unfold Obligations.TickEvents
  intro s n
  refine ⟨State.computeStart_spec, fun slice tick cause att hctx htick => ⟨?_, ?_⟩, fun r => State.repairComplete_spec,
    State.repairComplete_route_waits, State.repairLimit_spec⟩
  · exact State.abort_spec hctx htick
  · exact State.abort_other_spec hctx

end Sys2Proof.Machine
end

-- Latched vectors

/-! SUPPORT. A vector's cause that is latched stands through a fault message (R417). -/

section
namespace Sys2Proof.Machine

/-- The latched causes stand. -/
def IrqKept (s t : State) : Prop :=
  ∀ v, (s.fget HUB_PCIE_IRQ.IRQ).testBit v = true → (t.fget HUB_PCIE_IRQ.IRQ).testBit v = true

section
variable {s t u : State}

theorem IrqKept.of_eq (h : t.fget HUB_PCIE_IRQ.IRQ = s.fget HUB_PCIE_IRQ.IRQ) : IrqKept s t := by
  intro v hv
  rwa [h]

theorem IrqKept.refl (s : State) : IrqKept s s := fun _ hv => hv

theorem IrqKept.trans (h : IrqKept s t) (k : IrqKept t u) : IrqKept s u := fun v hv => k v (h v hv)

theorem IrqKept.ite {c : Prop} [Decidable c] {a b : State} (h : IrqKept s a) (k : IrqKept s b) :
    IrqKept s (if c then a else b) := by
  split
  · exact h
  · exact k

theorem IrqKept.fset (s : State) (f : Fld) (v : Nat) (h : HUB_PCIE_IRQ.off ≠ f.reg) : IrqKept s (s.fset f v) :=
  .of_eq (State.fget_fset_reg s f _ v h)

theorem IrqKept.fset_then (h : IrqKept s t) (f : Fld) (v : Nat) (hf : HUB_PCIE_IRQ.off ≠ f.reg) :
    IrqKept s (t.fset f v) :=
  h.trans (.fset t f v hf)

theorem IrqKept.foldl {α : Type} {l : List α} {f : State → α → State} (h : ∀ t a, IrqKept t (f t a)) :
    IrqKept s (l.foldl f s) :=
  List.foldlRecOn (motive := IrqKept s) l f (.refl s) fun t ht a _ => ht.trans (h t a)

/-- A cause added to the word. -/
theorem testBit_add_two_pow {w v : Nat} (hv : w.testBit v = false) (i : Nat) :
    (w + 2 ^ v).testBit i = (decide (i = v) || w.testBit i) := by
  have h0 : bits w v v = 0 := Nat.eq_of_testBit_eq fun i => by
    rw [bits_testBit, Nat.zero_testBit]
    by_cases hi : i = 0
    · simp [hi, hv]
    · simp [hi]
  have e : w + 2 ^ v = setBits w v v 1 := by simp [setBits, h0]
  rw [e, setBits_testBit]
  by_cases hi : i = v
  · simp [hi]
  · rw [if_neg (by omega)]
    simp [hi]

theorem State.fget_irq_new (s : State) (v : Nat) (h : (s.fget HUB_PCIE_IRQ.IRQ).testBit v = false) :
    (s.irq v).fget HUB_PCIE_IRQ.IRQ = (s.fget HUB_PCIE_IRQ.IRQ + 2 ^ v) % 2 ^ 7 := by
  have hset : (s.fset HUB_PCIE_IRQ.IRQ (s.fget HUB_PCIE_IRQ.IRQ + 2 ^ v)).fget HUB_PCIE_IRQ.IRQ =
      (s.fget HUB_PCIE_IRQ.IRQ + 2 ^ v) % 2 ^ 7 := State.fget_fset_same _ _ _ (by decide)
  unfold State.irq
  simp only [h, Bool.false_eq_true, if_false]
  split
  · exact hset
  · exact hset

theorem State.irq_of_set (s : State) (v : Nat) (h : (s.fget HUB_PCIE_IRQ.IRQ).testBit v = true) : s.irq v = s := by
  unfold State.irq
  simp only [h, if_true]

theorem IrqKept.irq (s : State) (v : Nat) : IrqKept s (s.irq v) := by
  intro i hi
  have hlt : i < 7 := by
    by_contra h
    have hw : s.fget HUB_PCIE_IRQ.IRQ < 2 ^ 7 := bits_lt _ 6 0
    rw [Nat.testBit_lt_two_pow (hw.trans_le (Nat.pow_le_pow_right (by decide) (by omega)))] at hi
    cases hi
  by_cases hv : (s.fget HUB_PCIE_IRQ.IRQ).testBit v = true
  · rwa [State.irq_of_set s v hv]
  · rw [State.fget_irq_new s v (by simpa using hv), Nat.testBit_mod_two_pow,
      testBit_add_two_pow (by simpa using hv)]
    simp [hi, hlt]

/-- A vector whose cause has become set is latched. -/
theorem State.testBit_irq (s : State) {v : Nat} (hv : v < 7) : ((s.irq v).fget HUB_PCIE_IRQ.IRQ).testBit v = true := by
  by_cases h : (s.fget HUB_PCIE_IRQ.IRQ).testBit v = true
  · rwa [State.irq_of_set s v h]
  · rw [State.fget_irq_new s v (by simpa using h), Nat.testBit_mod_two_pow, testBit_add_two_pow (by simpa using h)]
    simp [hv]

/-! ### Through a fault message -/

theorem IrqKept.alert (s : State) (b : Nat) : IrqKept s (s.alert b) := .ite (.refl s) (.refl s)

theorem IrqKept.setSrc (s : State) (i : Nat) (e : SrcEnt) : IrqKept s (s.setSrc i e) := by
  unfold State.setSrc
  exact (IrqKept.of_eq rfl).trans (.fset _ _ _ (by decide))

theorem IrqKept.srcExits (s : State) : IrqKept s s.srcExits :=
  .foldl fun t _ => .ite (.setSrc t _ _) (.refl t)

theorem IrqKept.count (s : State) (f : FaultMsg) (cls : Nat) : IrqKept s (s.count f cls).2 := by
  refine (IrqKept.srcExits s).trans ?_
  unfold State.count
  generalize s.srcExits = t
  dsimp only
  split
  · split
    · exact .setSrc _ _ _
    · split
      · exact .setSrc _ _ _
      · exact .setSrc _ _ _
  · split
    · exact .setSrc _ _ _
    · split
      · exact .setSrc _ _ _
      · exact .fset _ _ _ (by decide)

theorem IrqKept.promoted (s : State) (f : FaultMsg) : IrqKept s (s.promoted f) := by
  unfold State.promoted
  extract_lets p pos sub
  split
  · exact .refl s
  · split
    · split
      · exact .refl s
      · split
        · exact .refl s
        · exact .of_eq rfl
    · split
      · split
        · exact .refl s
        · exact .of_eq rfl
      · exact .refl s

theorem IrqKept.enqueue (s : State) (f : FaultMsg) (c : Nat) (a b : Bool) : IrqKept s (s.enqueue f c a b) :=
  .ite (.of_eq rfl) (.fset _ _ _ (by decide))

theorem IrqKept.record (s : State) (code sev : Nat) (inj : Bool) (cls p0 p1 p2 : Nat) :
    IrqKept s (s.record code sev inj cls p0 p1 p2) := by
  have hput (q : Nat) (ws : List Word) : IrqKept s (s.putEvr q ws) := .of_eq rfl
  unfold State.record
  exact .ite ((hput _ _).fset_then _ _ (by decide)) ((hput _ _).fset_then _ _ (by decide))

theorem IrqKept.recordFault (s : State) (f : FaultMsg) (c : Nat) (a : Bool) : IrqKept s (s.recordFault f c a) :=
  .ite (.refl s) (.record _ _ _ _ _ _ _ _)

theorem IrqKept.dumpStart (s : State) (g : Bool) (code : Nat) (src : Word) : IrqKept s (s.dumpStart g code src) := by
  have hflt (x : FltSt) : IrqKept s { s with flt := x } := .of_eq rfl
  exact .ite (.refl s) (((hflt _).fset_then _ _ (by decide)).fset_then _ _ (by decide))

theorem IrqKept.pulse (s : State) : IrqKept s s.pulse := by
  unfold State.pulse
  exact ((IrqKept.of_eq rfl).fset_then _ _ (by decide)).fset_then _ _ (by decide)

theorem IrqKept.signal (s : State) (f : FaultMsg) (c : Nat) : IrqKept s (s.signal f c) := by
  unfold State.signal
  extract_lets s1 s2 s3
  have h1 : IrqKept s s1 := .ite (.irq s 0) (.refl s)
  have h2 : IrqKept s s2 := .ite (h1.trans (.pulse s1)) h1
  have h3 : IrqKept s s3 := .ite (h2.trans (.alert s2 0)) h2
  exact .ite (h3.trans (.dumpStart s3 _ _ _)) h3

theorem IrqKept.graveLatch (s : State) (f : FaultMsg) : IrqKept s (s.graveLatch f) := by
  have hflt (t : State) (x : FltSt) : IrqKept t { t with flt := x } := .of_eq rfl
  unfold State.graveLatch
  extract_lets first s1 x s2 s3 s4 s5
  have h1 : IrqKept s s1 := .ite (((IrqKept.refl s).fset_then _ _ (by decide)).fset_then _ _ (by decide)) (.refl s)
  have h2 : IrqKept s s2 := .ite (h1.trans (hflt s1 _)) h1
  have h4 : IrqKept s s4 := State.each_inv (P := IrqKept s) (h2.fset_then _ _ (by decide)) fun _ _ t ht =>
    .ite (ht.trans (.of_eq rfl)) ht
  exact .ite ((h4.trans (.alert s4 1)).trans (.dumpStart s5 _ _ _)) (h4.trans (.alert s4 1))

theorem IrqKept.classify (s : State) (f : FaultMsg) (cls : Nat) (stale held : Bool) :
    IrqKept s (s.classify f cls stale held) := by
  unfold State.classify
  extract_lets k counts
  have hr : IrqKept s (if counts = true then s.count f k else (k, s)).2 := by
    split
    · exact .count _ _ _
    · exact .refl s
  generalize (if counts = true then s.count f k else (k, s)) = r at hr
  obtain ⟨c, s1⟩ := r
  dsimp -zeta only
  extract_lets s2 s3 s4 s5 s6
  have h2 : IrqKept s s2 := .ite (hr.trans (.promoted s1 f)) hr
  have h4 : IrqKept s s4 := (h2.trans (.enqueue s2 f c stale held)).fset_then _ _ (by
    show HUB_PCIE_IRQ.off ≠ FLT_CNT.off c
    simp only [HUB_PCIE_IRQ.off, FLT_CNT.off]
    omega)
  have h6 : IrqKept s s6 := (h4.trans (.recordFault s4 f c stale)).trans (.signal s5 f c)
  exact .ite (h6.trans (.graveLatch s6 f)) h6

theorem IrqKept.raise (s : State) (code : Nat) (src : Word) (addr arg : Nat) : IrqKept s (s.raise code src addr arg) := by
  unfold State.raise State.take
  refine .ite (.classify _ _ _ _ _) ?_
  split
  · exact .classify _ _ _ _ _
  · split
    · exact .of_eq rfl
    · exact .classify _ _ _ _ _

end

end Sys2Proof.Machine
end

-- Stretch and supply

/-! PROOF of O14. -/

section
namespace Sys2Proof.Machine

/-! ### Registers and the tick alone -/

/-- Two states that differ only in registers and in the tick. -/
def TickOnly (s t : State) : Prop := t = { s with regs := t.regs, tick := t.tick }

section
variable {s t u : State}

theorem TickOnly.refl (s : State) : TickOnly s s := rfl

theorem TickOnly.trans (h : TickOnly s t) (k : TickOnly t u) : TickOnly s u := by
  unfold TickOnly at *
  rw [h] at k
  exact k

theorem TickOnly.ite {c : Prop} [Decidable c] {a b : State} (h : TickOnly s a) (k : TickOnly s b) :
    TickOnly s (if c then a else b) := by
  split
  · exact h
  · exact k

theorem TickOnly.fset (h : TickOnly s t) (f : Fld) (v : Nat) : TickOnly s (t.fset f v) := h.trans rfl

theorem TickOnly.setTick (h : TickOnly s t) (x : TickSt) : TickOnly s { t with tick := x } := h.trans rfl

theorem TickOnly.pending (h : TickOnly s t) : t.pending = s.pending := by rw [h]
theorem TickOnly.now (h : TickOnly s t) : t.now = s.now := by rw [h]
theorem TickOnly.fuses (h : TickOnly s t) : t.fuses = s.fuses := by rw [h]
theorem TickOnly.core (h : TickOnly s t) : t.core = s.core := by rw [h]
theorem TickOnly.mem (h : TickOnly s t) : t.mem = s.mem := by rw [h]
theorem TickOnly.hubUp (h : TickOnly s t) : t.hubUp = s.hubUp := by
  rw [h]
  rfl

theorem runs_tickOnly {c : Instr} {P : State → Prop} (e : exec c s = done s t) (h : TickOnly s t) (hp : P t) :
    Runs c s P :=
  runs_done e h.pending h.now h.fuses hp

end

/-! ### Readings (R407) -/

section
variable (s : State)

theorem TickOnly.setVin (vin : Nat) : TickOnly s (s.setVin vin) :=
  .ite (((TickOnly.refl s).fset _ _).fset _ _) ((TickOnly.refl s).fset _ _)

theorem State.setVin_tick (vin : Nat) : (s.setVin vin).tick = s.tick := by
  unfold State.setVin
  extract_lets t
  split <;> rfl

theorem State.fget_setVin (vin : Nat) {f : Fld} (h : f.reg ≠ PWR_VIN.off) : (s.setVin vin).fget f = s.fget f := by
  have h1 : (s.fset PWR_VIN.NOW vin).fget f = s.fget f := State.fget_fset_reg _ _ _ _ h
  unfold State.setVin
  extract_lets t
  split
  · exact (State.fget_fset_reg t PWR_VIN.MIN f vin h).trans h1
  · exact h1

theorem State.vin_setVin {vin : Nat} (h : vin < 1024) : (s.setVin vin).fget PWR_VIN.NOW = vin := by
  have h1 : (s.fset PWR_VIN.NOW vin).fget PWR_VIN.NOW = vin := State.fget_fset_fits _ _ _ (by decide) h
  unfold State.setVin
  extract_lets t
  split
  · exact (State.fget_fset_apart t PWR_VIN.MIN _ vin (by decide) (by decide)).trans h1
  · exact h1

theorem TickOnly.setPin (w : Nat) : TickOnly s (s.setPin w) := ((TickOnly.refl s).fset _ _).fset _ _

theorem State.fget_setPin (w : Nat) {f : Fld} (h : f.reg ≠ PWR_PIN.off) : (s.setPin w).fget f = s.fget f := by
  rw [State.setPin, State.fget_fset_reg _ _ _ _ h, State.fget_fset_reg _ _ _ _ h]

theorem State.pinNow_setPin {w : Nat} (h : w < 2 ^ 16) : (s.setPin w).fget PWR_PIN.NOW = w := by
  rw [State.setPin, State.fget_fset_apart _ _ _ _ (by decide) (by decide), State.fget_fset_fits _ _ _ (by decide) h]

theorem State.pinMax_setPin {w : Nat} (h : w < 2 ^ 16) :
    (s.setPin w).fget PWR_PIN.MAX = max w (s.fget PWR_PIN.MAX) := by
  have hmax : s.fget PWR_PIN.MAX < 2 ^ 16 := bits_lt _ 31 16
  rw [State.setPin, State.fget_fset_fits _ _ _ (by decide) (max_lt h hmax)]

/-! ### The stretch (R61, R63) -/

theorem TickOnly.askStretch (cause : Nat) : TickOnly s (s.askStretch cause) := by
  unfold State.askStretch State.withReq
  extract_lets t0 t1 r
  exact (TickOnly.ite (s := s) (a := { r with tick := { t1 with reqAt := s.now } }) (b := r) rfl rfl).fset _ _

/-- The tick after a request: what it asks for, due since then at the latest. -/
theorem State.askStretch_tick (cause : Nat) : ∃ at_, (s.askStretch cause).tick = { s.tick with
    steps := setBits (s.tick.steps ||| 2 ^ cause) (cause + 3) (cause + 3) 0
    reqDip := s.tick.reqDip || cause = 0
    reqGov := s.tick.reqGov || cause = 1
    reqTherm := s.tick.reqTherm || cause = 2
    reqAt := at_ } := by
  unfold State.askStretch State.withReq
  extract_lets t0 t1 r
  split
  · exact ⟨_, rfl⟩
  · exact ⟨_, rfl⟩

theorem State.askStretch_step (cause : Nat) : (s.askStretch cause).tick.steps.testBit cause = true := by
  obtain ⟨at_, h⟩ := s.askStretch_tick cause
  rw [h, setBits_testBit, if_neg (by omega), Nat.testBit_or, Nat.testBit_two_pow_self, Bool.or_true]

theorem State.askStretch_end (cause : Nat) : (s.askStretch cause).tick.steps.testBit (cause + 3) = false := by
  obtain ⟨at_, h⟩ := s.askStretch_tick cause
  rw [h, setBits_testBit, if_pos (by omega), Nat.zero_testBit]

theorem State.fget_askStretch (cause : Nat) {f : Fld} (h : f.reg ≠ TCK_STRETCH.off) :
    (s.askStretch cause).fget f = s.fget f := by
  unfold State.askStretch State.withReq
  extract_lets t0 t1 r
  rw [State.fget_fset_reg _ _ _ _ h]
  split <;> rfl

theorem State.local_askStretch (cause : Nat) : (s.askStretch cause).flag TCK_STRETCH.LOCAL = true :=
  State.flag_fset_one _ (by decide) rfl

end

/-! ### The commands -/

section
variable {s : State}

/-- A dip noted: shown, counted, and the recovery under way given up (R402). -/
def State.dipped (s : State) : State :=
  let s := (s.fset PWR_STAT.DIP 1).fcount PWR_EVT.DIPS 1
  { s with tick := { s.tick with recover := none } }

theorem State.fget_tick (s : State) (x : TickSt) (f : Fld) : { s with tick := x }.fget f = s.fget f := rfl

theorem State.fget_dipped {f : Fld} (h1 : f.reg ≠ PWR_STAT.off) (h2 : f.reg ≠ PWR_EVT.off) :
    s.dipped.fget f = s.fget f := by
  unfold State.dipped State.fcount
  dsimp only
  rw [State.fget_tick, State.fget_fset_reg _ _ _ _ h2, State.fget_fset_reg _ _ _ _ h1]

theorem State.dip_dipped : s.dipped.flag PWR_STAT.DIP = true := by
  unfold State.dipped State.fcount State.flag
  dsimp only
  rw [State.fget_tick, State.fget_fset_reg _ _ _ _ (by decide)]
  exact State.flag_fset_one s (by decide) rfl

theorem TickOnly.dipped (s : State) : TickOnly s s.dipped := by
  unfold State.dipped State.fcount
  exact (((TickOnly.refl s).fset _ _).fset _ _).setTick _

theorem State.dipAct_eq (vin : Nat) : s.dipAct vin =
    if s.dipped.hubUp then ((s.dipped.askStretch 0).irq 3).raise 0x0A01 0 0 vin else s.dipped := by
  unfold State.dipAct State.dipped
  rfl

theorem State.dipAct_hub (vin : Nat) (h : s.hubUp = true) :
    s.dipAct vin = ((s.dipped.askStretch 0).irq 3).raise 0x0A01 0 0 vin := by
  rw [State.dipAct_eq, if_pos ((TickOnly.dipped s).hubUp.trans h)]

theorem State.dipAct_off (vin : Nat) (h : s.hubUp = false) : s.dipAct vin = s.dipped := by
  rw [State.dipAct_eq, if_neg (Bool.eq_false_iff.1 ((TickOnly.dipped s).hubUp.trans h))]

theorem State.supplyDip_taken {vin : Nat} (hlow : vin < s.fget PWR_WARN.WARN) (hdip : s.flag PWR_STAT.DIP = false) :
    s.supplyDip vin = (s.setVin vin).dipAct vin := by
  unfold State.supplyDip
  extract_lets t
  have h1 : t.fget PWR_WARN.WARN = s.fget PWR_WARN.WARN := s.fget_setVin vin (by decide)
  have h2 : t.flag PWR_STAT.DIP = false := by rw [State.flag, s.fget_setVin vin (by decide)]; exact hdip
  rw [if_neg (by simp [h1, h2, hlow])]

theorem State.supplyDip_spec {vin : BitVec 10} (hlow : vin.toNat < s.fget PWR_WARN.WARN)
    (hdip : s.flag PWR_STAT.DIP = false) (hup : s.hubUp = true) : Runs (.supplyDip vin) s fun t =>
      t.flag PWR_STAT.DIP = true ∧ t.fget PWR_VIN.NOW = vin.toNat ∧ t.tick.reqDip = true ∧ t.tick.steps.testBit 0 = true ∧
      t.flag TCK_STRETCH.LOCAL = true ∧ t.tick.recover = none ∧ (t.fget HUB_PCIE_IRQ.IRQ).testBit 3 = true ∧
      t.core = s.core ∧ t.mem = s.mem := by
  have hv := TickOnly.setVin s vin.toNat
  have hnow : (s.setVin vin.toNat).fget PWR_VIN.NOW = vin.toNat := s.vin_setVin vin.isLt
  have e : exec (.supplyDip vin) s = done s (s.supplyDip vin.toNat) := rfl
  rw [State.supplyDip_taken hlow hdip, State.dipAct_hub _ (hv.hubUp.trans hup)] at e
  generalize s.setVin vin.toNat = u at e hv hnow
  have ha := (hv.trans (.dipped u)).trans (.askStretch u.dipped 0)
  have hx : NoteOnly (u.dipped.askStretch 0) (((u.dipped.askStretch 0).irq 3).raise 0x0A01 0 0 vin.toNat) :=
    (NoteBut.irq _ 3).trans (.raise _ _ _ _ _)
  have hirq := IrqKept.raise ((u.dipped.askStretch 0).irq 3) 0x0A01 0 0 vin.toNat 3 (State.testBit_irq _ (by decide))
  have hread {f : Fld} (h1 : 0x10000 ≤ f.reg) (h2 : f.reg < 0x30000) :=
    NoteOnly.fget hx (f := f) (plainReg_of_lt h1 h2)
  obtain ⟨at_, htick⟩ := u.dipped.askStretch_tick 0
  refine runs_done e (hx.pending.trans ha.pending) (hx.now.trans ha.now) (hx.fuses.trans ha.fuses)
    ⟨?_, ?_, ?_, ?_, ?_, ?_, hirq, hx.core.trans ha.core, hx.mem.trans ha.mem⟩
  · rw [State.flag, hread (by decide) (by decide), State.fget_askStretch _ _ (by decide)]
    exact State.dip_dipped
  · rw [hread (by decide) (by decide), State.fget_askStretch _ _ (by decide), State.fget_dipped (by decide) (by decide),
      hnow]
  · rw [hx.tick, htick]
    exact Bool.or_true _
  · rw [hx.tick]
    exact State.askStretch_step _ 0
  · rw [State.flag, hread (by decide) (by decide)]
    exact State.local_askStretch _ 0
  · rw [hx.tick, htick]
    rfl

theorem State.supplyDip_off_spec {vin : BitVec 10} (hlow : vin.toNat < s.fget PWR_WARN.WARN)
    (hdip : s.flag PWR_STAT.DIP = false) (hup : s.hubUp = false) : Runs (.supplyDip vin) s fun t =>
      t.flag PWR_STAT.DIP = true ∧ t.fget PWR_VIN.NOW = vin.toNat ∧ t.tick = { s.tick with recover := none } ∧
      t = { s with regs := t.regs, tick := t.tick } := by
  have hv := TickOnly.setVin s vin.toNat
  have hnow : (s.setVin vin.toNat).fget PWR_VIN.NOW = vin.toNat := s.vin_setVin vin.isLt
  have htick := s.setVin_tick vin.toNat
  have e : exec (.supplyDip vin) s = done s (s.supplyDip vin.toNat) := rfl
  rw [State.supplyDip_taken hlow hdip, State.dipAct_off _ (hv.hubUp.trans hup)] at e
  generalize s.setVin vin.toNat = u at e hv hnow htick
  have h := hv.trans (.dipped u)
  refine runs_tickOnly e h ⟨State.dip_dipped, ?_, ?_, h⟩
  · rw [State.fget_dipped (by decide) (by decide), hnow]
  · rw [← htick]
    rfl

theorem State.supplyRecover_spec {vin : BitVec 10} (hhigh : s.fget PWR_WARN.WARN + 10 < vin.toNat)
    (hdip : s.flag PWR_STAT.DIP = true) : Runs (.supplyRecover vin) s fun t =>
      t.flag PWR_STAT.DIP = false ∧ t.fget PWR_VIN.NOW = vin.toNat ∧ t.tick = { s.tick with recover := some s.now } ∧
      t = { s with regs := t.regs, tick := t.tick } := by
  have hv := TickOnly.setVin s vin.toNat
  have hnow : (s.setVin vin.toNat).fget PWR_VIN.NOW = vin.toNat := s.vin_setVin vin.isLt
  have htick := s.setVin_tick vin.toNat
  have e : exec (.supplyRecover vin) s = done s (s.supplyRecover vin.toNat) := rfl
  have h1 : (s.setVin vin.toNat).fget PWR_WARN.WARN = s.fget PWR_WARN.WARN := s.fget_setVin _ (by decide)
  have h2 : (s.setVin vin.toNat).flag PWR_STAT.DIP = true := by
    rw [State.flag, s.fget_setVin _ (by decide)]
    exact hdip
  unfold State.supplyRecover at e
  generalize s.setVin vin.toNat = u at e hv hnow htick h1 h2
  rw [if_pos (by simp [h1, h2, hhigh])] at e
  refine runs_tickOnly e ((hv.fset _ _).setTick _) ⟨?_, ?_, ?_, (hv.fset _ _).setTick _⟩
  · show (u.fset PWR_STAT.DIP 0).flag PWR_STAT.DIP = false
    rw [State.flag, State.fget_fset_fits _ _ _ (by decide) (by decide)]
    rfl
  · show (u.fset PWR_STAT.DIP 0).fget PWR_VIN.NOW = vin.toNat
    rw [State.fget_fset_reg _ _ _ _ (by decide), hnow]
  · show { u.tick with recover := some u.now } = _
    rw [htick, hv.now]

theorem State.endStretch_of_step {cause : Nat} (h : s.tick.steps.testBit cause = true) :
    s.endStretch cause = { s with tick := { s.tick with steps := s.tick.steps ||| 2 ^ (cause + 3) } } := if_pos h

theorem State.stretchWithdraw_spec {u : Nat} (hrec : s.tick.recover = some u) (hdue : u + msUnits 10 ≤ s.now)
    (hstep : s.tick.steps.testBit 0 = true) : Runs .stretchWithdraw s fun t =>
      t.tick = { s.tick with recover := none, steps := s.tick.steps ||| 8 } ∧ t = { s with tick := t.tick } := by
  have e : exec .stretchWithdraw s = done s s.stretchWithdraw := rfl
  unfold State.stretchWithdraw at e
  simp only [hrec, hdue, if_true, State.endStretch_of_step hstep] at e
  exact runs_done e rfl rfl rfl ⟨rfl, rfl⟩

/-! ### The governor (R388, R389) -/

/-- The governor's request made: a stretch asked for, counted and shown. -/
def State.governed (s : State) : State := ((s.askStretch 1).fcount PWR_EVT.GOV 1).govFlag

theorem TickOnly.governed (s : State) : TickOnly s s.governed := by
  unfold State.governed State.fcount State.govFlag
  exact ((TickOnly.askStretch s 1).fset _ _).fset _ _

theorem State.governed_tick : s.governed.tick = (s.askStretch 1).tick := by
  unfold State.governed State.govFlag
  rw [State.fset_tick, State.fcount_tick]

theorem State.fget_governed {f : Fld} (h1 : f.reg ≠ PWR_STAT.off) (h2 : f.reg ≠ PWR_EVT.off)
    (h3 : f.reg ≠ TCK_STRETCH.off) : s.governed.fget f = s.fget f := by
  rw [State.governed, State.govFlag, State.fget_fset_reg _ _ _ _ h1, State.fcount, State.fget_fset_reg _ _ _ _ h2,
    State.fget_askStretch _ _ h3]

theorem State.gov_governed : s.governed.flag PWR_STAT.GOV = true := by
  rw [State.governed, State.govFlag, State.flag, State.fget_fset_same _ _ _ (by decide), State.fcount_tick,
    s.askStretch_step 1, s.askStretch_end 1]
  rfl

/-- A power average above the limit, where no request is in force. -/
theorem State.governor_taken {w : Nat} (hup : s.hubUp = true) (hst : s.fget PWR_STAT.STATE < 2)
    (hhigh : 100 * s.fget PWR_PLIM.PLIM < w) (hoff : s.govOn = false) :
    s.governor w = { s.setPin w with pwr := { (s.setPin w).pwr with gov := none } }.governed := by
  have hlim : (s.setPin w).fget PWR_PLIM.PLIM = s.fget PWR_PLIM.PLIM := s.fget_setPin w (by decide)
  have hgov : { s.setPin w with pwr := { (s.setPin w).pwr with gov := none } }.govOn = false := hoff
  unfold State.governor State.governed
  rw [if_neg (by simp [hup, hst])]
  generalize s.setPin w = u at hlim hgov
  simp only [hlim, hhigh, hgov, Bool.false_eq_true, if_true, if_false]

theorem State.governor_spec {w : BitVec 16} (hup : s.hubUp = true) (hst : s.fget PWR_STAT.STATE < 2)
    (hhigh : 100 * s.fget PWR_PLIM.PLIM < w.toNat) (hoff : s.govOn = false) : Runs (.governorEvaluation w) s fun t =>
      t.fget PWR_PIN.NOW = w.toNat ∧ t.fget PWR_PIN.MAX = max w.toNat (s.fget PWR_PIN.MAX) ∧ t.tick.reqGov = true ∧
      t.tick.steps.testBit 1 = true ∧ t.tick.steps.testBit 4 = false ∧ t.flag PWR_STAT.GOV = true ∧
      t = { s with regs := t.regs, tick := t.tick, pwr := { s.pwr with gov := none } } := by
  have e : exec (.governorEvaluation w) s = done s (s.governor w.toNat) := rfl
  rw [State.governor_taken hup hst hhigh hoff] at e
  have hnow := s.pinNow_setPin w.isLt
  have hmax := s.pinMax_setPin w.isLt
  have hp := TickOnly.setPin s w.toNat
  generalize s.setPin w.toNat = u at e hp hnow hmax
  have hv : { u with pwr := { u.pwr with gov := none } } =
      { s with regs := u.regs, tick := u.tick, pwr := { s.pwr with gov := none } } := by rw [hp]
  have hvn : { u with pwr := { u.pwr with gov := none } }.fget PWR_PIN.NOW = w.toNat := hnow
  have hvm : { u with pwr := { u.pwr with gov := none } }.fget PWR_PIN.MAX = max w.toNat (s.fget PWR_PIN.MAX) := hmax
  generalize { u with pwr := { u.pwr with gov := none } } = v at e hv hvn hvm
  have ht : v.governed = { s with regs := v.governed.regs, tick := v.governed.tick, pwr := { s.pwr with gov := none } } := by
    have h := TickOnly.governed v
    unfold TickOnly at h
    rw [hv] at h ⊢
    exact h
  obtain ⟨at_, hat⟩ := v.askStretch_tick 1
  refine runs_done e (by rw [ht]) (by rw [ht]) (by rw [ht]) ⟨?_, ?_, ?_, ?_, ?_, State.gov_governed, ht⟩
  · rw [State.fget_governed (by decide) (by decide) (by decide), hvn]
  · rw [State.fget_governed (by decide) (by decide) (by decide), hvm]
  · rw [State.governed_tick, hat]
    exact Bool.or_true _
  · rw [State.governed_tick, v.askStretch_step 1]
  · rw [State.governed_tick, v.askStretch_end 1]

theorem State.limitLow_spec (hgov : s.govOn = true) (hact : s.flag TCK_STRETCH.ACTIVE = true)
    (hsince : s.tick.effAt + msUnits 10 ≤ s.now) (hlow : s.flag PWR_STAT.PLIM_LOW = false)
    (hhigh : 100 * s.fget PWR_PLIM.PLIM < s.fget PWR_PIN.NOW) : Runs .powerLimitUnattainable s fun t =>
      t.flag PWR_STAT.PLIM_LOW = true ∧ t.core = s.core ∧ t.tick = s.tick ∧ t.mem = s.mem := by
  have e : exec .powerLimitUnattainable s = done s s.limitLow := rfl
  unfold State.limitLow at e
  rw [if_pos (by simp [hgov, hact, hsince, hlow, hhigh])] at e
  have h : NoteOnly _ ((s.fset PWR_STAT.PLIM_LOW 1).raise 0x0A07 0 0 (s.fget PWR_PLIM.PLIM)) := .raise ..
  refine runs_done e (h.pending.trans (State.fset_pending ..)) (h.now.trans (State.fset_now ..))
    (h.fuses.trans (State.fset_fuses ..)) ⟨?_, h.core.trans (State.fset_core ..), h.tick.trans (State.fset_tick ..),
      h.mem.trans (State.fset_mem ..)⟩
  rw [State.flag, NoteOnly.fget h (plainReg_of_lt (by decide) (by decide))]
  exact State.flag_fset_one s (by decide) rfl

/-- Settles O14. -/
theorem stretchAndSupply : Obligations.StretchAndSupply := by
  unfold Obligations.StretchAndSupply
  intro s
  exact ⟨fun vin hlow hdip => ⟨State.supplyDip_spec hlow hdip, State.supplyDip_off_spec hlow hdip⟩,
    fun vin => State.supplyRecover_spec, fun u => State.stretchWithdraw_spec, fun w => State.governor_spec,
    State.limitLow_spec⟩

end

end Sys2Proof.Machine
end

-- Sync and period

/-! PROOF of O15. -/

section
namespace Sys2Proof.Machine

/-! ### SYNC_SEND, SYNC and SYNC_ACQUIRE (R64 to R66) -/

section
variable {s t u : State}

theorem State.syncSend_spec {p : Port} (hen : s.flag TCK_CTL.SYNC_EN = true) (htr : s.trained p.val = true) :
    Runs (.syncSend p) s fun t =>
      t.po p.val = { s.po p.val with syncSend := true } ∧ (∀ q, q ≠ p.val → t.po q = s.po q) ∧
      t = { s with port := t.port } := by
  have e : exec (.syncSend p) s = done s (s.modPo p.val (fun x => { x with syncSend := true })) := by
    show execSyncSend p s = _
    unfold execSyncSend
    rw [hen, htr, Bool.and_self, if_pos rfl]
  exact runs_done e rfl rfl rfl ⟨State.po_modPo_same .., fun q hq => State.po_modPo_other _ hq _, rfl⟩

theorem State.withReq_cases (s : State) (x : TickSt) : ∃ at_, s.withReq x = { s with tick := { x with reqAt := at_ } } := by
  unfold State.withReq
  extract_lets r
  split
  · exact ⟨s.now, rfl⟩
  · exact ⟨x.reqAt, rfl⟩

theorem State.peerStretch_followed {p : Nat} (h : s.follows p = true) (ask : Bool) :
    ∃ at_, s.peerStretch p ask = { s with tick := { s.tick with order := ask, reqAt := at_ } } := by
  unfold State.peerStretch
  extract_lets x
  rw [if_pos h]
  exact State.withReq_cases s _

theorem State.peerStretch_other {p : Nat} (h : s.follows p = false) (ask : Bool) :
    ∃ l at_, s.peerStretch p ask = { s with tick := { s.tick with reqPeers := l, reqAt := at_ } } := by
  unfold State.peerStretch
  extract_lets x
  rw [if_neg (Bool.eq_false_iff.1 h)]
  split
  · obtain ⟨at_, e⟩ := State.withReq_cases s { x with reqPeers := addKey x.reqPeers p }
    exact ⟨_, at_, e⟩
  · obtain ⟨at_, e⟩ := State.withReq_cases s { x with reqPeers := x.reqPeers.filter (fun q => q ≠ p) }
    exact ⟨_, at_, e⟩

/-- The largest offset kept, or not (R71). -/
theorem State.syncMax_keeps (s : State) (c : Prop) [Decidable c] (v : Nat) :
    (∀ f : Fld, f.reg ≠ TCK_SYNC_MAX.off → (if c then s.fset TCK_SYNC_MAX.MAX v else s).fget f = s.fget f) ∧
      (if c then s.fset TCK_SYNC_MAX.MAX v else s).tick = s.tick ∧
      TickOnly s (if c then s.fset TCK_SYNC_MAX.MAX v else s) := by
  split
  · exact ⟨fun f hf => State.fget_fset_reg _ _ _ _ hf, State.fset_tick .., (TickOnly.refl s).fset _ _⟩
  · exact ⟨fun _ _ => rfl, rfl, .refl s⟩

theorem State.syncParent_spec (s : State) {p : Nat} (hp : p < 16) (step tb : Nat) :
    (s.syncParent p step tb).fget TCK_SYNC_STAT.ACT_PARENT = p ∧
      (s.syncParent p step tb).flag TCK_SYNC_STAT.HOLDOVER = false ∧
      (s.syncParent p step tb).tick.holdover = none ∧ (s.syncParent p step tb).tick.lostSaid = false ∧
      (s.syncParent p step tb).tick.order = s.tick.order ∧ TickOnly s (s.syncParent p step tb) := by
  unfold State.syncParent
  extract_lets x near w move t s1 s2 s3
  have h1 : TickOnly s s1 := rfl
  have ht : s3.tick = s1.tick := rfl
  have htick : s1.tick.holdover = none ∧ s1.tick.lostSaid = false ∧ s1.tick.order = s.tick.order := ⟨rfl, rfl, rfl⟩
  have h3 : TickOnly s s3 := (((h1.fset _ _).fset _ _).fset _ _).fset _ _
  have hact : s3.fget TCK_SYNC_STAT.ACT_PARENT = p := by
    unfold s3
    rw [State.fget_fset_apart _ _ _ _ (by decide) (by decide), State.fget_fset_fits _ _ _ (by decide) hp]
  have hhold : s3.flag TCK_SYNC_STAT.HOLDOVER = false := by
    unfold s3
    rw [State.flag, State.fget_fset_fits _ _ _ (by decide) (by decide)]
    rfl
  clear_value s3
  obtain ⟨k1, k2, k3⟩ := s3.syncMax_keeps (s3.fget TCK_SYNC_MAX.MAX < x.natAbs) (min 65535 x.natAbs)
  rw [ht] at k2
  refine ⟨(k1 _ (by decide)).trans hact, ?_, ?_, ?_, ?_, h3.trans k3⟩
  · rw [State.flag, k1 _ (by decide)]
    exact hhold
  · rw [k2, htick.1]
  · rw [k2, htick.2.1]
  · rw [k2, htick.2.2]

/-- Which port is followed rests on registers alone. -/
theorem State.follows_tick (s : State) (x : TickSt) (p : Nat) : { s with tick := x }.follows p = s.follows p := rfl

theorem State.sync_parent_spec {p : Port} {step : BitVec 16} {tb : BitVec 20} (hen : s.flag TCK_CTL.SYNC_EN = true)
    (ask : Bool) (hf : s.follows p.val = true) : Runs (.sync p step tb true ask) s fun t =>
      t.fget TCK_SYNC_STAT.ACT_PARENT = p.val ∧ t.flag TCK_SYNC_STAT.HOLDOVER = false ∧ t.tick.holdover = none ∧
      t.tick.lostSaid = false ∧ t.tick.order = ask ∧ t = { s with regs := t.regs, tick := t.tick } := by
  have e : exec (.sync p step tb true ask) s = done s (s.syncArrives p.val step.toNat tb.toNat true ask) := rfl
  obtain ⟨at_, hpeer⟩ := State.peerStretch_followed hf ask
  unfold State.syncArrives at e
  simp only [hen, hpeer, State.follows_tick, hf, Bool.not_true, Bool.false_eq_true, Bool.and_self, if_false, if_true] at e
  have hw : TickOnly s { s with tick := { s.tick with order := ask, reqAt := at_ } } := rfl
  have hord : { s with tick := { s.tick with order := ask, reqAt := at_ } }.tick.order = ask := rfl
  generalize { s with tick := { s.tick with order := ask, reqAt := at_ } } = v at e hw hord
  obtain ⟨h1, h2, h3, h4, h5, h6⟩ := v.syncParent_spec p.isLt step.toNat tb.toNat
  exact runs_tickOnly e (hw.trans h6) ⟨h1, h2, h3, h4, h5.trans hord, hw.trans h6⟩

theorem State.sync_other_spec {p : Port} {step : BitVec 16} {tb : BitVec 20} (hen : s.flag TCK_CTL.SYNC_EN = true)
    (locked ask : Bool) (hf : s.follows p.val = false) : Runs (.sync p step tb locked ask) s fun t =>
      t.tick.bound = s.tick.bound ∧ t.tick.window = s.tick.window ∧ t.tick.order = s.tick.order ∧
      t = { s with tick := t.tick } := by
  have e : exec (.sync p step tb locked ask) s = done s (s.syncArrives p.val step.toNat tb.toNat locked ask) := rfl
  obtain ⟨l, at_, hpeer⟩ := State.peerStretch_other hf ask
  unfold State.syncArrives at e
  simp only [hen, hpeer, State.follows_tick, hf, Bool.not_true, Bool.false_eq_true, Bool.and_false, if_false] at e
  exact runs_done e rfl rfl rfl ⟨rfl, rfl, rfl, rfl⟩

theorem TickOnly.setPair (s : State) (lo v : Nat) : TickOnly s (s.setPair lo v) := rfl

theorem State.syncAcquire_spec {step : DWord} {tb : BitVec 20} (hroot : s.isRoot = false) (hrun : s.anyRunning = false)
    (hstep : step.toNat ≠ s.step) : Runs (.syncAcquire step tb) s fun t =>
      t.step = step.toNat ∧ t.tick.bound = s.now - tb.toNat ∧ t.flag TCK_SYNC_STAT.STEPPED = true ∧
      t = { s with regs := t.regs, tick := t.tick } := by
  have e : exec (.syncAcquire step tb) s = done s (s.acquire step.toNat tb.toNat) := rfl
  unfold State.acquire at e
  simp only [hroot, hrun, hstep, ne_eq, not_false_eq_true, decide_true, Bool.true_or, Bool.or_self, Bool.false_eq_true,
    if_false, if_true] at e
  have hv : TickOnly s { s with tick := { s.tick with bound := s.now - tb.toNat } } := rfl
  have hb : { s with tick := { s.tick with bound := s.now - tb.toNat } }.tick.bound = s.now - tb.toNat := rfl
  generalize { s with tick := { s.tick with bound := s.now - tb.toNat } } = v at e hv hb
  have hw : TickOnly s ((v.setPair TCK_STEP_LO.off step.toNat).fset TCK_SYNC_STAT.STEPPED 1) :=
    TickOnly.fset (hv.trans (.setPair v _ _)) _ _
  refine runs_tickOnly e hw ⟨?_, ?_, State.flag_fset_one _ (by decide) rfl, hw⟩
  · rw [State.step, State.pair, State.reg_fset_other _ _ _ (by decide), State.reg_fset_other _ _ _ (by decide)]
    exact State.pair_setPair _ _ _ step.isLt
  · rw [State.fset_tick]
    exact hb

/-! ### SYNC_LOST (R67) -/

/-- Two states that differ only in the slice contexts. -/
def CtxOnly (s t : State) : Prop := t = { s with ctx := t.ctx }

theorem CtxOnly.modCx (h : CtxOnly s t) (n : Nat) (f : CtxSt → CtxSt) : CtxOnly s (t.modCx n f) := by
  unfold CtxOnly at *
  rw [h]
  rfl

theorem CtxOnly.fget (h : CtxOnly s t) (f : Fld) : t.fget f = s.fget f := by
  rw [h]
  rfl

theorem State.holdNext_holdAt (s : State) (n cause : Nat) : ((s.holdAt n cause).cx n).holdNext ≠ none := by
  rw [State.holdAt, State.cx_modCx_same]
  cases (s.cx n).holdNext with
  | none => exact Option.some_ne_none _
  | some x => exact Option.some_ne_none _

/-- Every slice at work holds at its boundary. -/
def State.holdWork (s : State) (cause : Nat) : State :=
  s.each 16 (fun n s => if 2 ≤ s.slState n && s.slState n ≤ 4 then s.holdAt n cause else s)

theorem CtxOnly.holdWork (s : State) (cause : Nat) : CtxOnly s (s.holdWork cause) :=
  State.each_inv (P := CtxOnly s) rfl fun n _ t ht => by
    split
    · exact ht.modCx n _
    · exact ht

theorem State.holdNext_holdWork (s : State) (cause : Nat) {n : Nat} (hn : n < 16) (h1 : 2 ≤ s.slState n)
    (h2 : s.slState n ≤ 4) : ((s.holdWork cause).cx n).holdNext ≠ none := by
  refine State.each_turn (P := fun t => t.slState n = s.slState n) (Q := fun t => (t.cx n).holdNext ≠ none) hn rfl
    (fun i _ _ t ht => ?_) (fun t ht => ?_) fun i _ hi t ht => ?_
  · split
    · exact ht
    · exact ht
  · rw [if_pos (by simp [ht, h1, h2])]
    exact State.holdNext_holdAt t n cause
  · split
    · rwa [State.holdAt, State.cx_modCx_other t (Ne.symm hi)]
    · exact ht

/-- "Sync lost" shown and told. -/
def State.lostTold (s : State) : State := ((s.fset TCK_SYNC_STAT.SYNC_LOST 1).irq 6).raise 0x0101 0 s.step 0

theorem State.lostTold_note (s : State) : NoteOnly (s.fset TCK_SYNC_STAT.SYNC_LOST 1) s.lostTold := by
  unfold State.lostTold
  generalize s.fset TCK_SYNC_STAT.SYNC_LOST 1 = t
  exact (NoteBut.irq t 6).trans (.raise _ _ _ _ _)

theorem State.syncLostAct_eq (s : State) : s.syncLostAct = s.lostTold.holdWork 4 := by
  unfold State.syncLostAct State.lostTold State.holdWork
  rfl

theorem State.syncLost_taken {u : Nat} (hover : s.tick.holdover = some u) (hdue : u + msUnits 1 ≤ s.now)
    (hsaid : s.tick.lostSaid = false) :
    s.syncLost = { s with tick := { s.tick with lostSaid := true } }.lostTold.holdWork 4 := by
  rw [← State.syncLostAct_eq]
  unfold State.syncLost
  rw [hover]
  exact if_pos (by simp [hdue, hsaid])

theorem State.syncLost_spec {u : Nat} (hover : s.tick.holdover = some u) (hdue : u + msUnits 1 ≤ s.now)
    (hsaid : s.tick.lostSaid = false) : Runs .syncLost s fun t =>
      t.flag TCK_SYNC_STAT.SYNC_LOST = true ∧ t.tick.lostSaid = true ∧ t.core = s.core ∧
      ∀ n, n < 16 → 2 ≤ s.slState n → s.slState n ≤ 4 → (t.cx n).holdNext ≠ none := by
  have e : exec .syncLost s = done s s.syncLost := rfl
  rw [State.syncLost_taken hover hdue hsaid] at e
  have hv : TickOnly s { s with tick := { s.tick with lostSaid := true } } := rfl
  have hsl (n : Nat) : { s with tick := { s.tick with lostSaid := true } }.slState n = s.slState n := rfl
  have hsaid' : { s with tick := { s.tick with lostSaid := true } }.tick.lostSaid = true := rfl
  generalize { s with tick := { s.tick with lostSaid := true } } = v at e hv hsl hsaid'
  have hw := v.lostTold_note
  generalize v.lostTold = w at e hw
  have hc := CtxOnly.holdWork w 4
  have hold (n : Nat) := w.holdNext_holdWork 4 (n := n)
  have hlost : (w.holdWork 4).flag TCK_SYNC_STAT.SYNC_LOST = true := by
    rw [State.flag, hc.fget, NoteOnly.fget hw (plainReg_of_lt (by decide) (by decide))]
    exact State.flag_fset_one v (by decide) rfl
  refine runs_done e ?_ ?_ ?_ ⟨hlost, ?_, ?_, fun n hn h1 h2 => ?_⟩
  · rw [hc, hw.pending, State.fset_pending, hv.pending]
  · rw [hc, hw.now, State.fset_now, hv.now]
  · rw [hc, hw.fuses, State.fset_fuses, hv.fuses]
  · rw [hc, hw.tick, State.fset_tick, hsaid']
  · rw [hc, hw.core, State.fset_core, hv.core]
  · have hst : w.slState n = s.slState n := by
      rw [NoteOnly.slState hw hn, State.slState_fset _ _ fun h => absurd h (by
        simp only [TCK_SYNC_STAT.SYNC_LOST, TCK_SYNC_STAT.off, TCK_SL_STAT.off]; omega), hsl]
    exact hold n hn (by rwa [hst]) (by rwa [hst])

/-! ### TCK_SYNC_MAX and TCK_CTL (R37, R71) -/

theorem State.syncMaxClear_spec {m : Master} {v : Word} (hadm : s.admits m TCK_SYNC_MAX.off v = true)
    (hclr : v.getLsbD 31 = true) : Runs (.tckSyncMaxClear m v) s fun t =>
      t.fget TCK_SYNC_MAX.MAX = 0 ∧ OnlyRegs [TCK_SYNC_MAX.off] s t := by
  refine runs_admitted hadm rfl (by rw [if_pos hclr]; exact done_of_kept rfl rfl rfl) ?_
  rw [if_pos hclr]
  exact ⟨State.fget_fset_fits _ _ _ (by decide) (by decide), .fset s _ _ (List.mem_singleton.2 rfl)⟩

/-- The row of TCK_CTL (R71). -/
def tckCtlRow : RegRow := ⟨0x10000, 1, 0, 1, 0, .hub,
  [TCK_CTL.TM_EN.row .rw 1 .mod, TCK_CTL.ROLE.row .rw 0 .mod, TCK_CTL.SYNC_EN.row .rw 1 .mod,
   TCK_CTL.PARENT.row .rw 15 .mod, TCK_CTL.ALT_PARENT.row .rw 15 .mod, TCK_CTL.PERIOD_ARM.row .w1s 0 .mod,
   TCK_CTL.LCAL_EN.row .rw 0 .mod]⟩

theorem regRow_tckCtl : regRow? TCK_CTL.off = some tckCtlRow := by
  decide +kernel

theorem State.tckCtl_armed {m : Master} {v : Word} (harm : TCK_CTL.PERIOD_ARM.of v = 1)
    (hper : 1000 ≤ s.fget TCK_PERIOD_NEXT.NEXT) (hat : s.step < s.pair TCK_PERIOD_AT_LO.off) :
    s.tckCtl m v = (s.store m TCK_CTL.off (TCK_CTL.PERIOD_ARM.off0 v)).fset TCK_CTL.PERIOD_ARM 1 := by
  have hs : s.storable TCK_CTL.off (TCK_CTL.PERIOD_ARM.off0 v) := State.storable_of_unlocked rfl
  have hst : OnlyRegs [TCK_CTL.off] s (s.store m TCK_CTL.off (TCK_CTL.PERIOD_ARM.off0 v)) :=
    State.store_only regRow_tckCtl hs
  have h1 : (s.store m TCK_CTL.off (TCK_CTL.PERIOD_ARM.off0 v)).fget TCK_PERIOD_NEXT.NEXT = s.fget TCK_PERIOD_NEXT.NEXT := by
    rw [State.fget, State.fget, hst.2 _ (by decide)]
  have h2 : (s.store m TCK_CTL.off (TCK_CTL.PERIOD_ARM.off0 v)).pair TCK_PERIOD_AT_LO.off = s.pair TCK_PERIOD_AT_LO.off :=
    hst.pair (by decide) (by decide)
  have h3 : (s.store m TCK_CTL.off (TCK_CTL.PERIOD_ARM.off0 v)).step = s.step := hst.pair (by decide) (by decide)
  unfold State.tckCtl
  simp only [harm, h1, h2, h3, one_ne_zero, if_false]
  exact if_neg (by simp; omega)

/-- A write that arms PERIOD sets the arm, and the other fields as written. -/
theorem State.tckCtl_arms {m : Master} {v : Word} (harm : TCK_CTL.PERIOD_ARM.of v = 1)
    (hper : 1000 ≤ s.fget TCK_PERIOD_NEXT.NEXT) (hat : s.step < s.pair TCK_PERIOD_AT_LO.off) :
    (s.tckCtl m v).flag TCK_CTL.PERIOD_ARM = true ∧ (s.tckCtl m v).fget TCK_CTL.PARENT = TCK_CTL.PARENT.of v ∧
      OnlyRegs [TCK_CTL.off] s (s.tckCtl m v) := by
  have hs : s.storable TCK_CTL.off (TCK_CTL.PERIOD_ARM.off0 v) := State.storable_of_unlocked rfl
  have hst : OnlyRegs [TCK_CTL.off] s (s.store m TCK_CTL.off (TCK_CTL.PERIOD_ARM.off0 v)) :=
    State.store_only regRow_tckCtl hs
  have hpar : (s.store m TCK_CTL.off (TCK_CTL.PERIOD_ARM.off0 v)).fget TCK_CTL.PARENT = TCK_CTL.PARENT.of v :=
    (State.fget_store_rw (f := TCK_CTL.PARENT) regRow_tckCtl hs (.tail _ (.tail _ (.tail _ (.head _))))).trans
      (Fld.of_into_other _ _ _ _ (by decide) (by decide))
  rw [State.tckCtl_armed harm hper hat]
  refine ⟨State.flag_fset_one _ (by decide) rfl, ?_, hst.trans (.fset _ _ _ (List.mem_singleton.2 rfl))⟩
  rw [State.fget_fset_apart _ _ _ _ (by decide) (by decide), hpar]

theorem State.periodArm_spec {m : Master} {v : Word} (hadm : s.admits m TCK_CTL.off v = true)
    (harm : TCK_CTL.PERIOD_ARM.of v = 1) (hper : 1000 ≤ s.fget TCK_PERIOD_NEXT.NEXT)
    (hat : s.step < s.pair TCK_PERIOD_AT_LO.off) : Runs (.periodArm m v) s fun t =>
      t.flag TCK_CTL.PERIOD_ARM = true ∧ t.fget TCK_CTL.PARENT = TCK_CTL.PARENT.of v ∧ OnlyRegs [TCK_CTL.off] s t := by
  have hall := State.tckCtl_arms (m := m) harm hper hat
  refine runs_admitted hadm rfl (done_of_kept ?_ ?_ ?_) hall
  · rw [hall.2.2.1]
  · rw [hall.2.2.1]
  · rw [hall.2.2.1]

/-! ### A new tick (R62) -/

/-- Two states that differ only in TCK_STRETCH and in the tick. -/
def StretchOnly (s t : State) : Prop := TickOnly s t ∧ ∀ o, o ≠ TCK_STRETCH.off → t.reg o = s.reg o

theorem StretchOnly.refl (s : State) : StretchOnly s s := ⟨.refl s, fun _ _ => rfl⟩

theorem StretchOnly.trans (h : StretchOnly s t) (k : StretchOnly t u) : StretchOnly s u :=
  ⟨h.1.trans k.1, fun o ho => (k.2 o ho).trans (h.2 o ho)⟩

theorem StretchOnly.ite {c : Prop} [Decidable c] {a b : State} (h : StretchOnly s a) (k : StretchOnly s b) :
    StretchOnly s (if c then a else b) := by
  split
  · exact h
  · exact k

theorem StretchOnly.fset (h : StretchOnly s t) {f : Fld} (v : Nat) (hf : f.reg = TCK_STRETCH.off) :
    StretchOnly s (t.fset f v) :=
  h.trans ⟨(TickOnly.refl t).fset f v, fun _ ho => State.reg_fset_other t f v (hf ▸ ho)⟩

theorem StretchOnly.setTick (h : StretchOnly s t) (x : TickSt) : StretchOnly s { t with tick := x } :=
  h.trans ⟨(TickOnly.refl t).setTick x, fun _ _ => rfl⟩

theorem StretchOnly.fget (h : StretchOnly s t) {f : Fld} (hf : f.reg ≠ TCK_STRETCH.off) : t.fget f = s.fget f := by
  rw [State.fget, State.fget, h.2 _ hf]

theorem StretchOnly.newTick (s : State) : StretchOnly s s.newTick := by
  unfold State.newTick
  extract_lets p q was s1 s2 x s3
  have h1 : StretchOnly s s1 := ((StretchOnly.refl s).fset _ rfl).fset _ rfl
  have h2 : StretchOnly s s2 := .ite h1 (h1.fset _ rfl)
  have h3 : StretchOnly s s3 := ((StretchOnly.refl s).fset _ rfl).fset _ rfl
  exact .ite (h2.setTick _) (.ite (.refl s) (h3.setTick _))

/-! ### PERIOD_CHANGE (R37) -/

/-- A register of the tick block of a context is in no other context's. -/
theorem tickBlock_unique {n i o : Nat} (h : tickBlock n o) (hi : i ≠ n) : ¬ tickBlock i o := by
  unfold tickBlock at *
  omega

theorem NoteBut.fget_slStat {i n : Nat} (h : NoteBut (· = i) s t) (hi : i ≠ n) (hn : n < 16) {f : Fld}
    (hf : f.reg = TCK_SL_STAT.off n) : t.fget f = s.fget f := by
  have hb := tickBlock_slStat n
  refine NoteBut.fget h ?_ ?_
  · rw [hf]
    exact plainReg_slice hn hb.1 hb.2
  · rintro _ rfl
    rw [hf]
    exact tickBlock_unique hb hi

theorem NoteBut.holdNow (s : State) (n cause : Nat) : NoteBut (· = n) s (s.holdNow n cause) :=
  .ite (.enterHold s cause _ rfl) (.refl s)

/-- Every slice at work enters HOLD. -/
def State.holdAll (s : State) (cause : Nat) : State := s.each 16 (fun n s => s.holdNow n cause)

theorem NoteBut.holdAll (s : State) (cause : Nat) : NoteBut (fun _ => True) s (s.holdAll cause) :=
  State.each_inv (P := NoteBut (fun _ => True) s) (.refl s) fun n _ t ht =>
    ht.trans ((NoteBut.holdNow t n cause).mono fun _ _ => trivial)

theorem State.held_holdAll (s : State) {cause n : Nat} (hc : cause < 8) (hn : n < 16) (h1 : 2 ≤ s.slState n)
    (h2 : s.slState n ≤ 4) :
    (s.holdAll cause).slState n = 5 ∧ (s.holdAll cause).fget (TCK_SL_STAT.HOLD_CAUSE n) = cause := by
  refine State.each_turn (P := fun t => t.slState n = s.slState n)
    (Q := fun t => t.slState n = 5 ∧ t.fget (TCK_SL_STAT.HOLD_CAUSE n) = cause) hn rfl
    (fun i _ hi t ht => ?_) (fun t ht => ?_) fun i _ hi t ht => ?_
  · exact ((NoteBut.holdNow t i cause).fget_slStat hi hn rfl).trans ht
  · rw [State.holdNow_busy (ht ▸ h1) (ht ▸ h2)]
    exact ⟨State.slState_enterHold t hn cause _, State.holdCause_enterHold t hn hc _⟩
  · have h := NoteBut.holdNow t i cause
    exact ⟨(h.fget_slStat hi hn rfl).trans ht.1, (h.fget_slStat hi hn rfl).trans ht.2⟩

/-- The armed period applied. -/
def State.periodTaken (s : State) : State :=
  (s.fset TCK_PERIOD.PERIOD (s.fget TCK_PERIOD_NEXT.NEXT)).fset TCK_CTL.PERIOD_ARM 0

theorem State.periodChange_due (harm : s.flag TCK_CTL.PERIOD_ARM = true) (hat : s.pair TCK_PERIOD_AT_LO.off = s.step) :
    s.periodChange = (s.periodTaken.holdAll 5).newTick := by
  unfold State.periodChange State.periodTaken State.holdAll
  exact if_neg (by simp [harm, hat])

theorem State.periodChange_spec (harm : s.flag TCK_CTL.PERIOD_ARM = true)
    (hat : s.pair TCK_PERIOD_AT_LO.off = s.step) : Runs .periodChange s fun t =>
      t.fget TCK_PERIOD.PERIOD = s.fget TCK_PERIOD_NEXT.NEXT ∧ t.flag TCK_CTL.PERIOD_ARM = false ∧
      ∀ n, n < 16 → 2 ≤ s.slState n → s.slState n ≤ 4 → t.slState n = 5 ∧ t.fget (TCK_SL_STAT.HOLD_CAUSE n) = 5 := by
  have e : exec .periodChange s = done s s.periodChange := rfl
  rw [State.periodChange_due harm hat] at e
  have hp : TickOnly s s.periodTaken := ((TickOnly.refl s).fset _ _).fset _ _
  have hper : s.periodTaken.fget TCK_PERIOD.PERIOD = s.fget TCK_PERIOD_NEXT.NEXT := by
    rw [State.periodTaken, State.fget_fset_reg _ _ _ _ (by decide),
      State.fget_fset_fits _ _ _ (by decide) (bits_lt _ 19 0)]
  have hdis : s.periodTaken.fget TCK_CTL.PERIOD_ARM = 0 := by
    rw [State.periodTaken, State.fget_fset_fits _ _ _ (by decide) (by decide)]
  have hst (n : Nat) : s.periodTaken.slState n = s.slState n := by
    rw [State.periodTaken, State.slState_fset _ _ fun h => absurd h (by
        simp only [TCK_CTL.PERIOD_ARM, TCK_CTL.off, TCK_SL_STAT.off]; omega),
      State.slState_fset _ _ fun h => absurd h (by
        simp only [TCK_PERIOD.PERIOD, TCK_PERIOD.off, TCK_SL_STAT.off]; omega)]
  generalize s.periodTaken = v at e hp hper hdis hst
  have hh := NoteBut.holdAll v 5
  have hheld {n : Nat} := v.held_holdAll (cause := 5) (n := n) (by decide)
  generalize v.holdAll 5 = w at e hh hheld
  have hn := StretchOnly.newTick w
  have hread {f : Fld} (h1 : 0x10000 ≤ f.reg) (h2 : f.reg < 0x10024) : w.newTick.fget f = v.fget f :=
    (hn.fget (by rw [TCK_STRETCH.off]; omega)).trans
      (hh.fget (plainReg_of_lt h1 (by omega)) fun n _ hb => by unfold tickBlock at hb; omega)
  refine runs_done e ?_ ?_ ?_ ⟨?_, ?_, fun n hn16 h1 h2 => ?_⟩
  · rw [hn.1.pending, hh.pending, hp.pending]
  · rw [hn.1.now, hh.now, hp.now]
  · rw [hn.1.fuses, hh.fuses, hp.fuses]
  · rw [hread (by decide) (by decide), hper]
  · rw [State.flag, hread (by decide) (by decide), hdis]
    rfl
  · obtain ⟨k1, k2⟩ := hheld hn16 (by rwa [hst]) (by rwa [hst])
    have hne : TCK_SL_STAT.off n ≠ TCK_STRETCH.off := by
      simp only [TCK_SL_STAT.off, TCK_STRETCH.off]
      omega
    exact ⟨(hn.fget hne).trans k1, (hn.fget hne).trans k2⟩

/-- Settles O15. -/
theorem syncAndPeriod : Obligations.SyncAndPeriod := by
  unfold Obligations.SyncAndPeriod
  intro s
  exact ⟨fun p => State.syncSend_spec,
    fun p step tb hen => ⟨State.sync_parent_spec hen, State.sync_other_spec hen⟩,
    fun step tb => State.syncAcquire_spec, fun u => State.syncLost_spec, fun m v => State.syncMaxClear_spec,
    fun m v => State.periodArm_spec, State.periodChange_spec⟩

end

end Sys2Proof.Machine
end

-- The boundary of a tick

/-! PROOF of O12. -/

section
namespace Sys2Proof.Machine

/-! ### The units of a slice -/

/-- Two states that differ only in cores, clusters, engines and LPDDR5. -/
def UnitsOnly (s t : State) : Prop :=
  t = { s with core := t.core, clus := t.clus, eng := t.eng, mem := t.mem, memBad := t.memBad }

section
variable {s t u : State}

theorem UnitsOnly.refl (s : State) : UnitsOnly s s := rfl

theorem UnitsOnly.trans (h : UnitsOnly s t) (k : UnitsOnly t u) : UnitsOnly s u := by
  unfold UnitsOnly at *
  rw [h] at k
  exact k

theorem UnitsOnly.ite {c : Prop} [Decidable c] {a b : State} (h : UnitsOnly s a) (k : UnitsOnly s b) :
    UnitsOnly s (if c then a else b) := by
  split
  · exact h
  · exact k

theorem UnitsOnly.memWrite (s : State) (a : Nat) (bs : List Byte) : UnitsOnly s (s.memWrite a bs) := rfl

theorem UnitsOnly.eachOf {α : Type} {l : List α} {f : α → State → State} (h : ∀ a t, UnitsOnly t (f a t)) :
    UnitsOnly s (State.eachOf l f s) :=
  State.eachOf_inv (P := UnitsOnly s) (.refl s) fun a _ t ht => ht.trans (h a t)

theorem UnitsOnly.each {n : Nat} {f : Nat → State → State} (h : ∀ i t, UnitsOnly t (f i t)) :
    UnitsOnly s (s.each n f) :=
  .eachOf h

theorem UnitsOnly.resolvePend (s : State) (k : Nat) (flip : Bool) : UnitsOnly s (s.resolvePend k flip) :=
  .eachOf fun _ t => .memWrite t _ _

theorem UnitsOnly.treeResult (s : State) (n k i : Nat) (r : TreeRec) : UnitsOnly s (s.treeResult n k i r) :=
  .ite (.eachOf fun _ t => .memWrite t _ _) (.refl s)

theorem UnitsOnly.treesEnd (s : State) (n : Nat) (commit : Bool) : UnitsOnly s (s.treesEnd n commit) :=
  .eachOf fun _ _ => .each fun _ _ => .each fun _ t => .ite ((UnitsOnly.treeResult t _ _ _ _).trans rfl) rfl

/-! ### What a boundary keeps -/

/-- Two states alike in their queue, time, fuses and the tick's boundary, and, outside the tick blocks of the contexts of `C`,
in the registers below the ports' but TCK_STRETCH. -/
structure TckKept (C : Nat → Prop) (s t : State) : Prop where
  pending : t.pending = s.pending
  now : t.now = s.now
  fuses : t.fuses = s.fuses
  bound : t.tick.bound = s.tick.bound
  reg : ∀ o, o < 0x100000 → o ≠ TCK_STRETCH.off → (∀ n, C n → ¬ tickBlock n o) → t.reg o = s.reg o

section
variable {C : Nat → Prop} {n : Nat}

theorem TckKept.refl (s : State) : TckKept C s s := ⟨rfl, rfl, rfl, rfl, fun _ _ _ _ => rfl⟩

theorem TckKept.trans (h : TckKept C s t) (k : TckKept C t u) : TckKept C s u where
  pending := k.pending.trans h.pending
  now := k.now.trans h.now
  fuses := k.fuses.trans h.fuses
  bound := k.bound.trans h.bound
  reg := fun o h1 h2 h3 => (k.reg o h1 h2 h3).trans (h.reg o h1 h2 h3)

theorem TckKept.ite {c : Prop} [Decidable c] {a b : State} (h : TckKept C s a) (k : TckKept C s b) :
    TckKept C s (if c then a else b) := by
  split
  · exact h
  · exact k

/-- What is neither a register nor the tick. -/
theorem TckKept.of_eq (h : t = { s with
    ctx := t.ctx, core := t.core, clus := t.clus, eng := t.eng, part := t.part, rtr := t.rtr, port := t.port
    mem := t.mem, memBad := t.memBad, mgr := t.mgr }) : TckKept C s t := by
  rw [h]
  exact ⟨rfl, rfl, rfl, rfl, fun _ _ _ _ => rfl⟩

theorem TckKept.modCx (s : State) (k : Nat) (f : CtxSt → CtxSt) : TckKept C s (s.modCx k f) := .of_eq rfl

theorem UnitsOnly.tck (h : UnitsOnly s t) : TckKept C s t := .of_eq (by unfold UnitsOnly at h; rw [h])

theorem CtxOnly.tck (h : CtxOnly s t) : TckKept C s t := .of_eq (by unfold CtxOnly at h; rw [h])

theorem TckKept.setReg (s : State) {o : Nat} (w : Word) (h : 0x100000 ≤ o ∨ o = TCK_STRETCH.off ∨ ∃ n, C n ∧ tickBlock n o) :
    TckKept C s (s.setReg o w) where
  pending := rfl
  now := rfl
  fuses := rfl
  bound := rfl
  reg := fun o' h1 h2 h3 => by
    refine State.reg_setReg_other s ?_ w
    rintro rfl
    obtain h | h | ⟨n, hn, hb⟩ := h
    · omega
    · exact h2 h
    · exact h3 n hn hb

theorem TckKept.fset (s : State) {f : Fld} (v : Nat)
    (h : 0x100000 ≤ f.reg ∨ f.reg = TCK_STRETCH.off ∨ ∃ n, C n ∧ tickBlock n f.reg) : TckKept C s (s.fset f v) :=
  .setReg s _ h

theorem TckKept.fset_tick (s : State) {f : Fld} (v : Nat) (hC : C n) (hf : tickBlock n f.reg) : TckKept C s (s.fset f v) :=
  .fset s v (.inr (.inr ⟨n, hC, hf⟩))

theorem TckKept.setSlState (s : State) (st : Nat) (hC : C n) : TckKept C s (s.setSlState n st) :=
  (TckKept.fset_tick s _ hC (tickBlock_slStat n)).trans (.fset_tick _ _ hC (tickBlock_slCtl n))

theorem TckKept.setSlStep (s : State) (v : Nat) (hC : C n) : TckKept C s (s.setPair (TCK_SL_STEP_LO.off n) v) := by
  have h1 : tickBlock n (TCK_SL_STEP_LO.off n) := by
    simp only [tickBlock, TCK_SL_STEP_LO.off]
    omega
  have h2 : tickBlock n (TCK_SL_STEP_LO.off n + 4) := by
    simp only [tickBlock, TCK_SL_STEP_LO.off]
    omega
  exact (TckKept.setReg s _ (.inr (.inr ⟨n, hC, h1⟩))).trans (.setReg _ _ (.inr (.inr ⟨n, hC, h2⟩)))

/-- The step number of a slice is in neither its control nor its status register. -/
theorem State.slStep_fset (s : State) {f : Fld} (v : Nat) 
    (h : f.reg = TCK_SL_STAT.off n ∨ f.reg = TCK_SL_CTL.off n ∨ f.reg = TCK_SL_REPLAYS.off n) :
    (s.fset f v).slStep n = s.slStep n := by
  have h1 : TCK_SL_STEP_LO.off n ≠ f.reg := by
    simp only [TCK_SL_STEP_LO.off, TCK_SL_STAT.off, TCK_SL_CTL.off, TCK_SL_REPLAYS.off] at *
    omega
  have h2 : TCK_SL_STEP_LO.off n + 4 ≠ f.reg := by
    simp only [TCK_SL_STEP_LO.off, TCK_SL_STAT.off, TCK_SL_CTL.off, TCK_SL_REPLAYS.off] at *
    omega
  rw [State.slStep, State.slStep, State.pair, State.pair, State.reg_fset_other _ _ _ h1, State.reg_fset_other _ _ _ h2]

theorem State.slStep_setSlState (s : State) (st : Nat) : (s.setSlState n st).slStep n = s.slStep n := by
  rw [State.setSlState, State.slStep_fset _ _ (.inr (.inl rfl)), State.slStep_fset _ _ (.inl rfl)]

theorem State.slStep_modCx (s : State) (k : Nat) (f : CtxSt → CtxSt) : (s.modCx k f).slStep n = s.slStep n := rfl

theorem TckKept.fget (h : TckKept C s t) {f : Fld} (h1 : f.reg < 0x100000) (h2 : f.reg ≠ TCK_STRETCH.off)
    (h3 : ∀ n, C n → ¬ tickBlock n f.reg) : t.fget f = s.fget f := by
  rw [State.fget, State.fget, h.reg _ h1 h2 h3]

theorem StretchOnly.tck (h : StretchOnly s t) (hb : t.tick.bound = s.tick.bound) : TckKept C s t :=
  ⟨h.1.pending, h.1.now, h.1.fuses, hb, fun o _ ho _ => h.2 o ho⟩

/-- The registers of a context's tick block. -/
theorem TckKept.tickReg (h : TckKept C s t) (hn : n < 16) (hC : ¬ C n) {o : Nat} (ho : tickBlock n o) : t.reg o = s.reg o := by
  refine h.reg o ?_ ?_ fun k hk hb => ?_
  · unfold tickBlock at ho
    omega
  · unfold tickBlock at ho
    rw [TCK_STRETCH.off]
    omega
  · by_cases e : k = n
    · exact hC (e ▸ hk)
    · exact tickBlock_unique ho e hb

theorem TckKept.slState (h : TckKept C s t) (hn : n < 16) (hC : ¬ C n) : t.slState n = s.slState n := by
  have e := h.tickReg hn hC (tickBlock_slStat n)
  rw [State.slState, State.slState, State.fget, State.fget]
  exact congrArg _ e

theorem TckKept.step (h : TckKept C s t) : t.step = s.step := by
  have hno (o : Nat) (ho : o < 0x10100) (n : Nat) : ¬ tickBlock n o := by
    unfold tickBlock
    omega
  rw [State.step, State.step, State.pair, State.pair, h.reg _ (by decide) (by decide) fun n _ => hno _ (by decide) n,
    h.reg _ (by decide) (by decide) fun n _ => hno _ (by decide) n]

theorem TckKept.slStep (h : TckKept C s t) (hn : n < 16) (hC : ¬ C n) : t.slStep n = s.slStep n := by
  have e1 : t.reg (TCK_SL_STEP_LO.off n) = s.reg (TCK_SL_STEP_LO.off n) :=
    h.tickReg hn hC (by simp only [tickBlock, TCK_SL_STEP_LO.off]; omega)
  have e2 : t.reg (TCK_SL_STEP_LO.off n + 4) = s.reg (TCK_SL_STEP_LO.off n + 4) :=
    h.tickReg hn hC (by simp only [tickBlock, TCK_SL_STEP_LO.off]; omega)
  rw [State.slStep, State.slStep, State.pair, State.pair, e1, e2]

theorem TckKept.shadow (h : TckKept C s t) (hC : ∀ k, C k → k < 16) (hn : n < 16) :
    t.fget (RIG_SL_STAT.SHADOW n) = s.fget (RIG_SL_STAT.SHADOW n) := by
  refine h.fget ?_ ?_ fun k hk hb => ?_
  · simp only [RIG_SL_STAT.SHADOW, RIG_SL_STAT.off]
    omega
  · simp only [RIG_SL_STAT.SHADOW, RIG_SL_STAT.off, TCK_STRETCH.off]
    omega
  · have := hC k hk
    simp only [tickBlock, RIG_SL_STAT.SHADOW, RIG_SL_STAT.off] at hb
    omega

/-! ### The tail of a boundary -/

theorem TckKept.edgeLoad (s : State) : TckKept C s s.edgeLoad :=
  State.eachOf_inv (P := TckKept C s) (.refl s) fun _ _ t ht => ht.trans (.of_eq (s := t) rfl)

theorem TckKept.needFix (s : State) (p : Nat) : TckKept C s (s.needFix p) := by
  have hp : 0x100000 ≤ LNK_STAT.off p := by
    rw [LNK_STAT.off]
    omega
  unfold State.needFix
  exact (TckKept.fset s _ (.inl hp)).trans (.fset _ _ (.inl hp))

theorem TckKept.newTick (s : State) : TckKept C s s.newTick := by
  refine (StretchOnly.newTick s).tck ?_
  unfold State.newTick
  extract_lets p q was s1 s2 x s3
  split
  · show s2.tick.bound = _
    unfold s2
    split <;> rfl
  · split <;> rfl

theorem TckKept.clockEdge (s : State) : TckKept C s s.clockEdge := by
  unfold State.clockEdge
  extract_lets x ended left y s1
  have h1 : TckKept C s s1 := ⟨rfl, rfl, rfl, rfl, fun _ _ _ _ => rfl⟩
  exact h1.trans (.fset _ _ (.inr (.inl rfl)))

/-- What follows the contexts at a boundary. -/
def State.boundaryTail (s : State) : State :=
  let s := s.edgeLoad
  let s := { s with rtr := mapStore RtrSt.init s.rtr RtrSt.boundary }
  let s := s.each 16 (fun p s =>
    if s.fget (LNK_STAT.STATE p) < 4 then s else (s.modPo p (PortSt.boundary s.step)).needFix p)
  let s := s.each 16 (fun p s => s.modPt p (fun t => { t with msgs := [] }))
  (s.newTick).clockEdge

theorem TckKept.boundaryTail (s : State) : TckKept C s s.boundaryTail := by
  unfold State.boundaryTail
  extract_lets s1 s2 s3 s4
  have h1 : TckKept C s s1 := .edgeLoad s
  have h2 : TckKept C s s2 := h1.trans (.of_eq (s := s1) rfl)
  have h3 : TckKept C s s3 := State.each_inv (P := TckKept C s) h2 fun p _ t ht =>
    .ite ht ((ht.trans (.of_eq (s := t) rfl)).trans (.needFix (t.modPo p (PortSt.boundary t.step)) p))
  have h4 : TckKept C s s4 := State.each_inv (P := TckKept C s) h3 fun p _ t ht => ht.trans (.of_eq (s := t) rfl)
  exact (h4.trans (.newTick s4)).trans (.clockEdge s4.newTick)

/-! ### A context at a boundary -/

/-- Where no message waits, nothing settles. -/
theorem State.settleTick_of_none (h : s.flt.held = []) (n cls : Nat) : s.settleTick n cls = s := by
  unfold State.settleTick State.settle
  simp only [h, List.filter_nil, List.foldl_nil]
  rw [← h]

/-- Fences and trees of a context that is at work or idle: its own entries alone. -/
theorem State.edgeFences_eq (h4 : s.slState n ≠ 4) (h5 : s.slState n ≠ 5) : ∃ f : CtxSt → CtxSt,
    s.edgeFences n = s.modCx n f ∧ ∀ c, (f c).aborted = c.aborted ∧ (f c).commitTick = c.commitTick ∧
      (f c).holdNext = c.holdNext ∧ (f c).repairs = c.repairs := by
  unfold State.edgeFences
  extract_lets now sw s1
  have e : s1 = s := if_neg (by simp [h4, h5])
  rw [e]
  exact ⟨_, rfl, fun c => ⟨rfl, rfl, rfl, rfl⟩⟩

/-- A context that is idle, with no rigging loading. -/
theorem State.edgeCtx_idle {k : Fin 16} (hsh : s.fget (RIG_SL_STAT.SHADOW k.val) = 0) (hst : s.slState k.val = 0) :
    ∃ f : CtxSt → CtxSt, s.edgeCtx k = s.modCx k.val f := by
  obtain ⟨f, e, -⟩ := State.edgeFences_eq (s := s) (n := k.val) (by omega) (by omega)
  have hst' : (s.modCx k.val f).slState k.val = 0 := hst
  refine ⟨f, ?_⟩
  unfold State.edgeCtx
  simp only [hsh, e, Nat.reduceEqDiff, decide_false, Bool.false_and, Bool.not_false, if_true]
  unfold State.edgeState
  simp only [hst']

/-- A slice in RUN, with no rigging loading: its fences, then the commit or the abort of its tick. -/
theorem State.edgeCtx_run {k : Fin 16} (hsh : s.fget (RIG_SL_STAT.SHADOW k.val) = 0) (hst : s.slState k.val = 2)
    (hc : (s.cx k.val).commitTick = false) : ∃ f : CtxSt → CtxSt,
      (∀ c, (f c).holdNext = c.holdNext ∧ (f c).repairs = c.repairs) ∧
      s.edgeCtx k = if (s.cx k.val).aborted then (s.modCx k.val f).edgeAborted k.val
        else (s.modCx k.val f).edgeCommit k.val := by
  obtain ⟨f, e, hf⟩ := State.edgeFences_eq (s := s) (n := k.val) (by omega) (by omega)
  have hst' : (s.modCx k.val f).slState k.val = 2 := hst
  have hc' : ((s.modCx k.val f).cx k.val).commitTick = false := by
    rw [State.cx_modCx_same, (hf _).2.1, hc]
  have ha' : ((s.modCx k.val f).cx k.val).aborted = (s.cx k.val).aborted := by
    rw [State.cx_modCx_same, (hf _).1]
  refine ⟨f, fun c => (hf c).2.2, ?_⟩
  unfold State.edgeCtx
  simp only [hsh, e, Nat.reduceEqDiff, decide_false, Bool.false_and, Bool.not_false, if_true]
  unfold State.edgeState
  simp only [hst', hc', ha', Bool.false_eq_true, if_false]

/-! ### A commit and a replay (R48, R55) -/

theorem State.slState_congr (h : t.reg (TCK_SL_STAT.off n) = s.reg (TCK_SL_STAT.off n)) {f : Fld}
    (hf : f.reg = TCK_SL_STAT.off n) : t.fget f = s.fget f := by
  rw [State.fget, State.fget, hf, h]

theorem UnitsOnly.commit (s : State) (n : Nat) : ∃ u, UnitsOnly s u ∧ s.commitUnits n =
    (u.setPair (TCK_SL_STEP_LO.off n) (s.slStep n + 1)).modCx n
      (fun c => { c with aborted := false, started := false, open_ := false }) := by
  unfold State.commitUnits
  extract_lets x s1 s2 s3
  have h1 : UnitsOnly s s1 := .eachOf fun _ _ => rfl
  have h2 : UnitsOnly s1 s2 := .eachOf fun k t => (UnitsOnly.resolvePend t k true).trans rfl
  exact ⟨s3, (h1.trans h2).trans (.treesEnd s2 n true), rfl⟩

theorem UnitsOnly.redo (s : State) (n : Nat) : ∃ u, UnitsOnly s u ∧ s.redoUnits n =
    u.modCx n (fun c => { c with aborted := false, started := false }) := by
  unfold State.redoUnits
  extract_lets s1 s2
  have h1 : UnitsOnly s s1 := .eachOf fun _ _ => rfl
  have h2 : UnitsOnly s1 s2 := .eachOf fun k t => (UnitsOnly.resolvePend t k false).trans rfl
  exact ⟨_, (h1.trans h2).trans (.treesEnd s2 n false), rfl⟩

/-- What a boundary leaves of a context, and of the others. -/
structure EdgeTaken (n step st att : Nat) (s t : State) : Prop where
  kept : TckKept (· = n) s t
  slStep : t.slStep n = step
  slState : t.slState n = st
  attempt : t.fget (TCK_SL_STAT.ATTEMPT n) = att

/-- A commit where no message waits and no hold cause stands. -/
theorem State.edgeCommit_unheld (hheld : (s.commitUnits n).flt.held = []) (hh : ((s.commitUnits n).cx n).holdNext = none) :
    s.edgeCommit n = (((s.commitUnits n).fset (TCK_SL_STAT.ATTEMPT n) 0).modCx n
      (fun c => { c with repairs := [] })).setSlState n 2 := by
  unfold State.edgeCommit
  rw [State.settleTick_of_none hheld]
  generalize s.commitUnits n = v at hh
  have h3 : (((v.fset (TCK_SL_STAT.ATTEMPT n) 0).modCx n (fun c => { c with repairs := [] })).cx n).holdNext = none := by
    rw [State.cx_modCx_same, State.cx_fset_frame]
    exact hh
  extract_lets s1 s2 s3
  split
  next c hc => exact absurd (h3.symm.trans hc) (by simp)
  next => rfl

theorem State.edgeCommit_spec (hheld : s.flt.held = []) (hh : (s.cx n).holdNext = none)
    (hmax : s.slStep n + 1 < 2 ^ 64) : EdgeTaken n (s.slStep n + 1) 2 0 s (s.edgeCommit n) := by
  obtain ⟨u, hu, e⟩ := UnitsOnly.commit s n
  have hpair : TckKept (· = n) u (u.setPair (TCK_SL_STEP_LO.off n) (s.slStep n + 1)) := .setSlStep u _ rfl
  have hstep := u.pair_setPair (TCK_SL_STEP_LO.off n) (s.slStep n + 1) hmax
  have hcu : (s.commitUnits n).flt.held = [] := by
    rw [e, State.modCx_flt, State.setPair_flt, hu]
    exact hheld
  have hcx : ((s.commitUnits n).cx n).holdNext = none := by
    rw [e, State.cx_modCx_same, State.cx_setPair_frame, hu]
    exact hh
  have hk : TckKept (· = n) s (s.commitUnits n) := by
    rw [e]
    exact (hu.tck.trans hpair).trans (.modCx _ _ _)
  have hs : (s.commitUnits n).slStep n = s.slStep n + 1 := by
    rw [e, State.slStep_modCx, State.slStep, hstep]
  have ec := State.edgeCommit_unheld hcu hcx
  generalize s.commitUnits n = v at hk hs ec
  rw [ec]
  have h1 : TckKept (· = n) v (v.fset (TCK_SL_STAT.ATTEMPT n) 0) := .fset_tick v 0 rfl (tickBlock_slStat n)
  have hatt : (v.fset (TCK_SL_STAT.ATTEMPT n) 0).fget (TCK_SL_STAT.ATTEMPT n) = 0 :=
    State.fget_fset_fits v _ 0 (show 4 < 32 by decide) (show 0 < 4 by decide)
  have hs1 : (v.fset (TCK_SL_STAT.ATTEMPT n) 0).slStep n = s.slStep n + 1 := (State.slStep_fset v 0 (.inl rfl)).trans hs
  generalize v.fset (TCK_SL_STAT.ATTEMPT n) 0 = w at h1 hatt hs1
  have h2 : TckKept (· = n) w (w.modCx n (fun c => { c with repairs := [] })) := .modCx _ _ _
  refine ⟨((hk.trans h1).trans h2).trans (.setSlState _ 2 rfl), ?_, State.slState_setSlState _ n (by decide), ?_⟩
  · rw [State.slStep_setSlState, State.slStep_modCx, hs1]
  · rw [State.fget_setSlState _ n 2 (show 4 < 32 by decide) (fun _ => show 2 < 3 by decide) fun h => absurd h (by
      simp only [TCK_SL_STAT.ATTEMPT, TCK_SL_CTL.off, TCK_SL_STAT.off]; omega), State.fget_modCx, hatt]

theorem State.beginReplay_spec (hatt : s.fget (TCK_SL_STAT.ATTEMPT n) < 3) :
    EdgeTaken n (s.slStep n) 3 (s.fget (TCK_SL_STAT.ATTEMPT n) + 1) s (s.beginReplay n) := by
  have hrep : tickBlock n (TCK_SL_REPLAYS.REPLAYS n).reg := by
    simp only [tickBlock, TCK_SL_REPLAYS.REPLAYS, TCK_SL_REPLAYS.off]
    omega
  have hne : TCK_SL_STAT.off n ≠ (TCK_SL_REPLAYS.REPLAYS n).reg := by
    simp only [TCK_SL_STAT.off, TCK_SL_REPLAYS.REPLAYS, TCK_SL_REPLAYS.off]
    omega
  have h1 : TckKept (· = n) s (s.setSlState n 3) := .setSlState s 3 rfl
  have h2 : TckKept (· = n) (s.setSlState n 3) ((s.setSlState n 3).fset (TCK_SL_STAT.ATTEMPT n)
    (s.fget (TCK_SL_STAT.ATTEMPT n) + 1)) := .fset_tick _ _ rfl (tickBlock_slStat n)
  unfold State.beginReplay State.fcount
  refine ⟨(h1.trans h2).trans (.fset_tick _ _ rfl hrep), ?_, ?_, ?_⟩
  · rw [State.slStep_fset _ _ (.inr (.inr rfl)), State.slStep_fset _ _ (.inl rfl), State.slStep_setSlState]
  · rw [State.slState_fset _ _ fun h => absurd h (Ne.symm hne), State.slState_fset _ _ fun _ => show 2 < 3 by decide,
      State.slState_setSlState s n (by decide)]
  · rw [State.fget_fset_reg _ _ _ _ hne]
    exact State.fget_fset_fits _ _ _ (show 4 < 32 by decide) (show _ < 4 by omega)

theorem State.edgeAborted_spec (hn : n < 16) (hh : (s.cx n).holdNext = none) (hrep : (s.cx n).repairs = [])
    (harm : s.flag (TCK_SL_CTL.CMD_ARM n) = false)
    (hatt : s.fget (TCK_SL_STAT.ATTEMPT n) < s.fget (TCK_SL_CTL.MAX_REPLAY n)) :
    EdgeTaken n (s.slStep n) 3 (s.fget (TCK_SL_STAT.ATTEMPT n) + 1) s (s.edgeAborted n) := by
  obtain ⟨u, hu, e⟩ := UnitsOnly.redo s n
  have hfld (f : Fld) : (s.redoUnits n).fget f = s.fget f := by
    rw [e, State.fget_modCx]
    unfold UnitsOnly at hu
    rw [hu]
    rfl
  have hcx : ((s.redoUnits n).cx n).holdNext = none ∧ ((s.redoUnits n).cx n).repairs = [] := by
    rw [e, State.cx_modCx_same]
    show (u.cx n).holdNext = none ∧ (u.cx n).repairs = []
    rw [hu]
    exact ⟨hh, hrep⟩
  have hk (C : Nat → Prop) : TckKept C s (s.redoUnits n) := by
    rw [e]
    exact hu.tck.trans (.modCx _ _ _)
  have hlt : s.fget (TCK_SL_STAT.ATTEMPT n) < 3 := by
    have : s.fget (TCK_SL_CTL.MAX_REPLAY n) < 4 := bits_lt _ 6 5
    omega
  unfold State.edgeAborted State.cmdDue
  generalize s.redoUnits n = v at hfld hcx hk
  have harm' : v.flag (TCK_SL_CTL.CMD_ARM n) = false := by rw [State.flag, hfld]; exact harm
  simp only [hcx.1, hcx.2, harm', hfld, Bool.false_and, Bool.false_eq_true, Nat.not_le.2 hatt, List.isEmpty_nil,
    Bool.not_true, if_false]
  have h := v.beginReplay_spec (by rw [hfld]; exact hlt)
  rw [hfld, (hk fun _ => False).slStep hn id] at h
  exact { h with kept := (hk _).trans h.kept }

/-! ### The whole boundary -/

def State.setTick (s : State) (x : TickSt) : State := { s with tick := x }

theorem State.tick_setTick (s : State) (x : TickSt) : (s.setTick x).tick = x := rfl

theorem State.fab_setTick (s : State) (x : TickSt) : (s.setTick x).fab = s.fab := rfl

theorem State.setTick_keeps (s : State) (x : TickSt) :
    (s.setTick x).pending = s.pending ∧ (s.setTick x).now = s.now ∧ (s.setTick x).fuses = s.fuses ∧
      (s.setTick x).flt = s.flt ∧ (∀ o, (s.setTick x).reg o = s.reg o) ∧ ∀ k, (s.setTick x).cx k = s.cx k :=
  ⟨rfl, rfl, rfl, rfl, fun _ => rfl, fun _ => rfl⟩

/-- The boundary up to the contexts: the step number and the time of the tick (R35). -/
def State.boundaryHead (s : State) : State :=
  let u := s.setPair TCK_STEP_LO.off (s.step + 1)
  u.setTick { u.tick with bound := u.now }

theorem State.boundaryHead_tick (s : State) : s.boundaryHead.tick = { s.tick with bound := s.now } := by
  rw [State.boundaryHead, State.tick_setTick, State.setPair_tick, State.setPair_now]

theorem State.boundaryHead_fab (s : State) : s.boundaryHead.fab = s.fab :=
  (State.fab_setTick ..).trans (State.setPair_fab ..)

theorem State.boundaryHead_keeps (s : State) :
    s.boundaryHead.pending = s.pending ∧ s.boundaryHead.now = s.now ∧ s.boundaryHead.fuses = s.fuses ∧
      s.boundaryHead.flt = s.flt ∧
      (∀ o, o ≠ TCK_STEP_LO.off → o ≠ TCK_STEP_LO.off + 4 → s.boundaryHead.reg o = s.reg o) ∧
      ∀ k, s.boundaryHead.cx k = s.cx k := by
  unfold State.boundaryHead
  obtain ⟨h1, h2, h3, h4, h5, h6⟩ := State.setTick_keeps (s.setPair TCK_STEP_LO.off (s.step + 1))
    { (s.setPair TCK_STEP_LO.off (s.step + 1)).tick with bound := (s.setPair TCK_STEP_LO.off (s.step + 1)).now }
  exact ⟨h1.trans (State.setPair_pending ..), h2.trans (State.setPair_now ..), h3.trans (State.setPair_fuses ..),
    h4.trans (State.setPair_flt ..), fun o ho ho' => (h5 o).trans (State.reg_setPair_other _ _ _ ho ho'),
    fun k => (h6 k).trans (State.cx_setPair_frame ..)⟩

theorem State.fget_boundaryHead (s : State) {f : Fld} (h1 : f.reg ≠ TCK_STEP_LO.off) (h2 : f.reg ≠ TCK_STEP_LO.off + 4) :
    s.boundaryHead.fget f = s.fget f := by
  obtain ⟨-, -, -, -, h5, -⟩ := s.boundaryHead_keeps
  rw [State.fget, State.fget, h5 _ h1 h2]

theorem State.slStep_boundaryHead (s : State) (n : Nat) : s.boundaryHead.slStep n = s.slStep n := by
  obtain ⟨-, -, -, -, h5, -⟩ := s.boundaryHead_keeps
  have hne (o : Nat) (ho : 0x10100 ≤ o) : s.boundaryHead.reg o = s.reg o :=
    h5 o (by rw [TCK_STEP_LO.off]; omega) (by rw [TCK_STEP_LO.off]; omega)
  have hlo : TCK_SL_STEP_LO.off n = 0x10108 + 0x40 * n := rfl
  rw [State.slStep, State.slStep, State.pair, State.pair, hne _ (by omega), hne _ (by omega)]

theorem State.step_boundaryHead (s : State) (h : s.step + 1 < 2 ^ 64) : s.boundaryHead.step = s.step + 1 := by
  obtain ⟨-, -, -, -, h5, -⟩ := State.setTick_keeps (s.setPair TCK_STEP_LO.off (s.step + 1))
    { (s.setPair TCK_STEP_LO.off (s.step + 1)).tick with bound := (s.setPair TCK_STEP_LO.off (s.step + 1)).now }
  have e := s.pair_setPair TCK_STEP_LO.off (s.step + 1) h
  rw [State.boundaryHead, State.step, State.pair, h5, h5]
  exact e

/-- The contexts at a boundary. -/
def State.edges (s : State) : State := s.each 16 (fun n s => s.edgeCtx (Fin.ofNat 16 n))

theorem State.boundary_plain (hen : s.flag TCK_CTL.TM_EN = true) (hrole : s.tick.roleNext = none)
    (hadapt : s.fab.adaptAt = none) : s.boundary = s.boundaryHead.edges.boundaryTail := by
  have h1 : s.boundaryHead.edgeRole = s.boundaryHead := by
    unfold State.edgeRole
    rw [State.boundaryHead_tick, hrole]
  have h2 : s.boundaryHead.edgeAdapt = s.boundaryHead := by
    unfold State.edgeAdapt
    rw [State.boundaryHead_fab, hadapt]
  have h3 : s.boundary = s.boundaryHead.edgeRole.edgeAdapt.edges.boundaryTail := by
    unfold State.boundary State.boundaryTail State.edges State.boundaryHead
    rw [if_neg (by simp [hen])]
    rfl
  rw [h3, h1, h2]

/-- The other contexts are idle, and no rigging loads. -/
def Alone (n : Nat) (s : State) : Prop :=
  ∀ k, k < 16 → s.fget (RIG_SL_STAT.SHADOW k) = 0 ∧ (k ≠ n → s.slState k = 0)

theorem Alone.kept (h : Alone n s) (hn : n < 16) (hk : TckKept (· = n) s t) : Alone n t := fun k hk16 =>
  ⟨(hk.shadow (fun _ e => e ▸ hn) hk16).trans (h k hk16).1, fun hne => (hk.slState hk16 hne).trans ((h k hk16).2 hne)⟩

theorem EdgeTaken.trans_ctx {step st att : Nat} (h : EdgeTaken n step st att s t) (hc : CtxOnly t u) :
    EdgeTaken n step st att s u where
  kept := h.kept.trans hc.tck
  slStep := by rw [← h.slStep, hc]; rfl
  slState := by rw [← h.slState, hc]; rfl
  attempt := by rw [← h.attempt, hc]; rfl

/-- With the other contexts idle, the boundary of the contexts is that of the one at work. -/
theorem State.edges_alone {step st att : Nat} (hn : n < 16) (ha : Alone n s)
    (turn : ∀ t, CtxOnly s t → t.cx n = s.cx n → EdgeTaken n step st att s (t.edgeCtx (Fin.ofNat 16 n))) :
    EdgeTaken n step st att s s.edges := by
  have idle {t : State} (ht : Alone n t) {i : Nat} (hi : i < 16) (hne : i ≠ n) :
      ∃ f : CtxSt → CtxSt, t.edgeCtx (Fin.ofNat 16 i) = t.modCx i f := by
    have e : (Fin.ofNat 16 i).val = i := Nat.mod_eq_of_lt hi
    obtain ⟨hsh, hst⟩ := ht i hi
    have := State.edgeCtx_idle (k := Fin.ofNat 16 i) (by rw [e]; exact hsh) (by rw [e]; exact hst hne)
    rwa [e] at this
  refine State.each_turn (P := fun t => CtxOnly s t ∧ t.cx n = s.cx n) (Q := EdgeTaken n step st att s) hn ⟨rfl, rfl⟩
    (fun i hi hne t ht => ?_) (fun t ht => turn t ht.1 ht.2) fun i hi hne t ht => ?_
  · obtain ⟨f, e⟩ := idle (ha.kept hn ht.1.tck) hi hne
    rw [e]
    exact ⟨ht.1.modCx i f, (State.cx_modCx_other t (Ne.symm hne) f).trans ht.2⟩
  · obtain ⟨f, e⟩ := idle (ha.kept hn ht.kept) hi hne
    rw [e]
    exact ht.trans_ctx (show CtxOnly t (t.modCx i f) from rfl)

theorem State.holdHang_of_notHold (h : s.slState n ≠ 5) : s.holdHang n = s := by
  unfold State.holdHang
  exact if_pos (by simp [h])

/-- What a slice at work alone finds at its boundary, in the state after the boundary. -/
structure BoundaryEnd (n num st att : Nat) (s t : State) : Prop where
  pending : t.pending = s.pending
  now : t.now = s.now
  fuses : t.fuses = s.fuses
  bound : t.tick.bound = s.now
  step : t.step = s.step + 1
  slStep : t.slStep n = num
  slState : t.slState n = st
  attempt : t.fget (TCK_SL_STAT.ATTEMPT n) = att
  idle : ∀ k, k < 16 → k ≠ n → t.slState k = 0

/-- The boundary of a module on which one slice is at work. -/
theorem State.boundary_alone {step st att : Nat} (hn : n < 16) (hen : s.flag TCK_CTL.TM_EN = true)
    (hmax : s.step + 1 < 2 ^ 64) (hrole : s.tick.roleNext = none) (hadapt : s.fab.adaptAt = none) (ha : Alone n s)
    (turn : ∀ t, CtxOnly s.boundaryHead t → t.cx n = s.boundaryHead.cx n →
      EdgeTaken n step st att s.boundaryHead (t.edgeCtx (Fin.ofNat 16 n))) :
    BoundaryEnd n step st att s s.boundary := by
  have hhead : Alone n s.boundaryHead := fun k hk => by
    obtain ⟨h1, h2⟩ := ha k hk
    refine ⟨(s.fget_boundaryHead ?_ ?_).trans h1, fun hne => (s.fget_boundaryHead ?_ ?_).trans (h2 hne)⟩
    all_goals
      simp only [RIG_SL_STAT.SHADOW, RIG_SL_STAT.off, TCK_SL_STAT.STATE, TCK_SL_STAT.off, TCK_STEP_LO.off]
      omega
  have he := State.edges_alone hn hhead turn
  have ht (C : Nat → Prop) : TckKept C s.boundaryHead.edges s.boundaryHead.edges.boundaryTail := .boundaryTail _
  have hall := he.kept.trans (ht _)
  obtain ⟨k1, k2, k3, -⟩ := s.boundaryHead_keeps
  rw [State.boundary_plain hen hrole hadapt]
  refine ⟨hall.pending.trans k1, hall.now.trans k2, hall.fuses.trans k3, ?_, ?_, ?_, ?_, ?_, fun k hk hne => ?_⟩
  · rw [hall.bound, s.boundaryHead_tick]
  · rw [hall.step, s.step_boundaryHead hmax]
  · rw [(ht fun _ => False).slStep hn id, he.slStep]
  · rw [(ht fun _ => False).slState hn id, he.slState]
  · rw [← he.attempt]
    exact State.slState_congr ((ht fun _ => False).tickReg hn id (tickBlock_slStat n)) rfl
  · rw [hall.slState hk hne]
    exact (hhead k hk).2 hne

/-- TICK_BOUNDARY, at the end of the tick or now where that has passed, where no hold is entered. -/
theorem State.tickBoundary_spec {step st att : Nat} (hen : s.flag TCK_CTL.TM_EN = true)
    (hst : st ≠ 5) (h : BoundaryEnd n step st att (s.atTime (s.tick.bound + s.tick.len))
      (s.atTime (s.tick.bound + s.tick.len)).boundary) : Runs .tickBoundary s fun t =>
      t.now = max s.now (s.tick.bound + s.tick.len) ∧ t.tick.bound = t.now ∧ t.step = s.step + 1 ∧
      t.slStep n = step ∧ t.slState n = st ∧ t.fget (TCK_SL_STAT.ATTEMPT n) = att := by
  have e : exec .tickBoundary s = doneAt s (s.tick.bound + s.tick.len) (fun s =>
      s.boundary.each 16 (fun n t => if s.slState n = 5 then t else t.holdHang n)) := by
    show execTickBoundary s = _
    unfold execTickBoundary
    rw [if_pos hen]
  have hid : (s.atTime (s.tick.bound + s.tick.len)).boundary.each 16 (fun n t =>
      if (s.atTime (s.tick.bound + s.tick.len)).slState n = 5 then t else t.holdHang n) =
      (s.atTime (s.tick.bound + s.tick.len)).boundary :=
    State.each_inv (P := (· = (s.atTime (s.tick.bound + s.tick.len)).boundary)) rfl fun k hk t ht => by
      split
      · exact ht
      · rw [State.holdHang_of_notHold, ht]
        rw [ht]
        by_cases hne : k = n
        · rw [hne, h.slState]
          exact hst
        · rw [h.idle k hk hne]
          exact Nat.zero_ne_add_one 4
  generalize hu : (s.atTime (s.tick.bound + s.tick.len)).boundary = u at h hid
  exact runs_doneAt e (hu ▸ hid) h.pending h.now h.fuses
    ⟨h.now, h.bound.trans h.now.symm, h.step, h.slStep, h.slState, h.attempt⟩

theorem EdgeTaken.of_kept {step st att : Nat} (hk : TckKept (fun _ => False) s t) (h : EdgeTaken n step st att t u) :
    EdgeTaken n step st att s u :=
  { h with kept := TckKept.trans ⟨hk.pending, hk.now, hk.fuses, hk.bound, fun o h1 h2 _ => hk.reg o h1 h2 fun _ => False.elim⟩ h.kept }

/-- The turn of the context at work, from any state that differs from the head of the boundary in other contexts alone. -/
theorem State.edgeCtx_taken {num st att : Nat} {h t : State} (hn : n < 16)
    (hsh : h.fget (RIG_SL_STAT.SHADOW n) = 0) (hst : h.slState n = 2) (hc : (h.cx n).commitTick = false)
    (ht : CtxOnly h t) (hcx : t.cx n = h.cx n)
    (act : ∀ v, CtxOnly h v → (v.cx n).holdNext = (h.cx n).holdNext → (v.cx n).repairs = (h.cx n).repairs →
      EdgeTaken n num st att v (if (h.cx n).aborted then v.edgeAborted n else v.edgeCommit n)) :
    EdgeTaken n num st att h (t.edgeCtx (Fin.ofNat 16 n)) := by
  have e : (Fin.ofNat 16 n).val = n := Nat.mod_eq_of_lt hn
  obtain ⟨f, hf, hrun⟩ := State.edgeCtx_run (s := t) (k := Fin.ofNat 16 n) (by rw [e, ht.fget, hsh])
    (by rw [e, State.slState, ht.fget]; exact hst) (by rw [e, hcx, hc])
  rw [e, hcx] at hrun
  have hv : CtxOnly h (t.modCx n f) := ht.modCx n f
  obtain ⟨hf1, hf2⟩ := hf (h.cx n)
  have h1 : ((t.modCx n f).cx n).holdNext = (h.cx n).holdNext := by rw [State.cx_modCx_same, hcx, hf1]
  have h2 : ((t.modCx n f).cx n).repairs = (h.cx n).repairs := by rw [State.cx_modCx_same, hcx, hf2]
  rw [hrun]
  exact .of_kept hv.tck (act _ hv h1 h2)

section
variable {n : Ctx} (hen : s.flag TCK_CTL.TM_EN = true) (hmax : s.step + 1 < 2 ^ 64) (hrole : s.tick.roleNext = none)
  (hadapt : s.fab.adaptAt = none) (ha : Alone n.val s) (hst : s.slState n.val = 2)
  (hc : (s.cx n.val).commitTick = false) (hh : (s.cx n.val).holdNext = none)
include hen hmax hrole hadapt ha hst hc hh

/-- The boundary of a slice in RUN, through the commit or the abort of its tick. -/
theorem State.boundary_run {num st att : Nat}
    (act : ∀ v, CtxOnly s.boundaryHead v → (v.cx n.val).holdNext = none → (v.cx n.val).repairs = (s.cx n.val).repairs →
      EdgeTaken n.val num st att v (if (s.cx n.val).aborted then v.edgeAborted n.val else v.edgeCommit n.val)) :
    BoundaryEnd n.val num st att s s.boundary := by
  obtain ⟨-, -, -, -, -, k6⟩ := s.boundaryHead_keeps
  refine State.boundary_alone n.isLt hen hmax hrole hadapt ha fun t ht hcx => ?_
  refine State.edgeCtx_taken n.isLt ?_ ?_ (by rw [k6, hc]) ht hcx fun v hv h1 h2 => ?_
  · refine (s.fget_boundaryHead ?_ ?_).trans (ha n.val n.isLt).1
    all_goals
      simp only [RIG_SL_STAT.SHADOW, RIG_SL_STAT.off, TCK_STEP_LO.off]
      omega
  · refine (s.fget_boundaryHead ?_ ?_).trans hst
    all_goals
      simp only [TCK_SL_STAT.STATE, TCK_SL_STAT.off, TCK_STEP_LO.off]
      omega
  · rw [k6] at h1 h2 ⊢
    exact act v hv (h1.trans hh) h2

theorem State.boundary_commits (hslot : s.slStep n.val + 1 < 2 ^ 64) (hheld : s.flt.held = [])
    (habort : (s.cx n.val).aborted = false) : BoundaryEnd n.val (s.slStep n.val + 1) 2 0 s s.boundary := by
  obtain ⟨-, -, -, k4, -, -⟩ := s.boundaryHead_keeps
  refine State.boundary_run hen hmax hrole hadapt ha hst hc hh fun v hv h1 _ => ?_
  have hstep : v.slStep n.val = s.slStep n.val :=
    ((hv.tck (C := fun _ => False)).slStep n.isLt id).trans (s.slStep_boundaryHead n.val)
  have hvheld : v.flt.held = [] := by
    unfold CtxOnly at hv
    rw [hv, k4, hheld]
  rw [if_neg (Bool.eq_false_iff.1 habort), ← hstep]
  exact State.edgeCommit_spec hvheld h1 (by rwa [hstep])

theorem State.boundary_replays (harm : s.flag (TCK_SL_CTL.CMD_ARM n.val) = false)
    (habort : (s.cx n.val).aborted = true) (hrep : (s.cx n.val).repairs = [])
    (hleft : s.fget (TCK_SL_STAT.ATTEMPT n.val) < s.fget (TCK_SL_CTL.MAX_REPLAY n.val)) :
    BoundaryEnd n.val (s.slStep n.val) 3 (s.fget (TCK_SL_STAT.ATTEMPT n.val) + 1) s s.boundary := by
  refine State.boundary_run hen hmax hrole hadapt ha hst hc hh fun v hv h1 h2 => ?_
  have hstep : v.slStep n.val = s.slStep n.val :=
    ((hv.tck (C := fun _ => False)).slStep n.isLt id).trans (s.slStep_boundaryHead n.val)
  have hread {f : Fld} (hf : 0x10100 ≤ f.reg) : v.fget f = s.fget f :=
    (hv.fget f).trans (s.fget_boundaryHead (by rw [TCK_STEP_LO.off]; omega) (by rw [TCK_STEP_LO.off]; omega))
  have hctl : 0x10100 ≤ TCK_SL_CTL.off n.val := Nat.le_add_right ..
  have hstat : 0x10100 ≤ TCK_SL_STAT.off n.val := by
    rw [TCK_SL_STAT.off]
    omega
  rw [if_pos habort, ← hstep, ← hread (f := TCK_SL_STAT.ATTEMPT n.val) hstat]
  refine State.edgeAborted_spec n.isLt h1 (h2.trans hrep) ?_ ?_
  · rw [State.flag, hread (f := TCK_SL_CTL.CMD_ARM n.val) hctl]
    exact harm
  · rwa [hread (f := TCK_SL_STAT.ATTEMPT n.val) hstat, hread (f := TCK_SL_CTL.MAX_REPLAY n.val) hctl]

end

end

end

/-- Settles O12. -/
theorem boundaryCommitsOrReplays : Obligations.BoundaryCommitsOrReplays := by
  unfold Obligations.BoundaryCommitsOrReplays
  intro s n hen hmax hrole hadapt ha hst hc hh harm hslot hheld
  refine ⟨fun habort => ?_, fun habort hrep hleft => ?_⟩
  · exact State.tickBoundary_spec hen (by decide)
      (State.boundary_commits (s := s.atTime _) hen hmax hrole hadapt ha hst hc hh hslot hheld habort)
  · exact State.tickBoundary_spec hen (by decide)
      (State.boundary_replays (s := s.atTime _) hen hmax hrole hadapt ha hst hc hh harm habort hrep hleft)

end Sys2Proof.Machine
end

-- Calibration and the completion check

/-! PROOF of O33. -/

section
namespace Sys2Proof.Machine

section
variable {s t u : State}

/-! ### Calibration slots (R41, R165) -/

/-- What one turn of a loop brings about, and every turn keeps, holds after the loop. -/
theorem State.eachOf_reach {α : Type} {P Q : State → Prop} {l : List α} {a : α} {f : α → State → State} (ha : a ∈ l)
    (h0 : P s) (hP : ∀ b ∈ l, ∀ t, P t → P (f b t)) (turn : ∀ t, P t → Q (f a t))
    (keep : ∀ b ∈ l, ∀ t, P t → Q t → Q (f b t)) : Q (State.eachOf l f s) := by
  unfold State.eachOf
  induction l generalizing s with
  | nil => cases ha
  | cons b l ih =>
    rw [List.forall_mem_cons] at hP keep
    rw [List.foldl_cons]
    have h1 : P (f b s) := hP.1 s h0
    rcases List.mem_cons.1 ha with rfl | hl
    · exact (List.foldlRecOn (motive := fun t => P t ∧ Q t) l _ ⟨h1, turn s h0⟩ fun t ht c hc =>
        ⟨hP.2 c hc t ht.1, keep.2 c hc t ht.1 ht.2⟩).2
    · exact ih hl h1 hP.2 keep.2

/-- Two loops whose turns agree where the states meet an invariant. -/
theorem State.eachOf_congr {α : Type} {P : State → Prop} {l : List α} {f g : α → State → State} (h0 : P s)
    (hP : ∀ a ∈ l, ∀ t, P t → P (f a t)) (h : ∀ a ∈ l, ∀ t, P t → f a t = g a t) :
    State.eachOf l f s = State.eachOf l g s := by
  unfold State.eachOf
  induction l generalizing s with
  | nil => rfl
  | cons a l ih =>
    rw [List.forall_mem_cons] at hP h
    rw [List.foldl_cons, List.foldl_cons, ← h.1 s h0]
    exact ih (hP.1 s h0) hP.2 h.2

/-- A bit of a per-channel field after another, or the same, has been set or cleared. -/
theorem State.testBit_memStat (s : State) {f : Fld} (k i : Nat) (b : Bool) (hf : f.hi < 32) (hi : i < f.width) :
    ((s.memStat f k b).fget f).testBit i = if i = k then b else (s.fget f).testBit i := by
  rw [State.memStat, State.fget_fset_same _ _ _ hf, Nat.testBit_mod_two_pow, setBits_testBit, decide_eq_true hi,
    Bool.true_and]
  by_cases e : i = k
  · rw [if_pos (by omega), if_pos e, e, Nat.sub_self]
    cases b <;> rfl
  · rw [if_neg (by omega), if_neg e]

/-- Two states that differ only in registers, channels and the draws taken. -/
def SlotOnly (s t : State) : Prop := t = { s with regs := t.regs, chan := t.chan, draws := t.draws }

theorem SlotOnly.trans (h : SlotOnly s t) (k : SlotOnly t u) : SlotOnly s u := by
  unfold SlotOnly at *
  rw [h] at k
  exact k

theorem SlotOnly.now (h : SlotOnly s t) : t.now = s.now := by rw [h]

theorem SlotOnly.memStat (s : State) (f : Fld) (k : Nat) (b : Bool) : SlotOnly s (s.memStat f k b) := rfl

/-- A channel in a slot that begins now. -/
def ChanSt.inSlot (c : ChanSt) (now len need : Nat) : ChanSt :=
  { c with slotAt := now, slotEnd := now + len, calLeft := c.calLeft + need - len }

theorem State.chanSlot_shape (s : State) (p k len : Nat) : ∃ need, s.chanSlot p k len =
    (({ s with draws := s.draws + 1 }.modCh (8 * p + k) fun c => c.inSlot s.now len need).memStat
      (PRT_MEM_STAT.CAL_DUE p) k false) :=
  ⟨Config.calNeed s.draws, rfl⟩

theorem SlotOnly.chanSlot (s : State) (p k len : Nat) : SlotOnly s (s.chanSlot p k len) := by
  obtain ⟨need, e⟩ := s.chanSlot_shape p k len
  rw [e]
  have h : SlotOnly s ({ s with draws := s.draws + 1 }.modCh (8 * p + k) fun c => c.inSlot s.now len need) := rfl
  exact h.trans (.memStat _ _ _ _)

theorem State.ch_memStat (s : State) (f : Fld) (k : Nat) (b : Bool) (i : Nat) : (s.memStat f k b).ch i = s.ch i := rfl

theorem State.ch_chanSlot_same (s : State) (p k len : Nat) :
    ((s.chanSlot p k len).ch (8 * p + k)).slotAt = s.now ∧ ((s.chanSlot p k len).ch (8 * p + k)).slotEnd = s.now + len := by
  obtain ⟨need, e⟩ := s.chanSlot_shape p k len
  rw [e, State.ch_memStat, State.ch_modCh_same]
  exact ⟨rfl, rfl⟩

theorem State.ch_chanSlot_other (s : State) {p k i : Nat} (len : Nat) (h : i ≠ 8 * p + k) :
    (s.chanSlot p k len).ch i = s.ch i := by
  obtain ⟨need, e⟩ := s.chanSlot_shape p k len
  rw [e, State.ch_memStat, State.ch_modCh_other _ h]
  rfl

/-- A slot of a channel clears its own CAL_DUE bit and no other. -/
theorem State.calDue_chanSlot (s : State) (p k len q : Nat) {j : Nat} (hj : j < 8) :
    ((s.chanSlot p k len).fget (PRT_MEM_STAT.CAL_DUE q)).testBit j =
      if q = p ∧ j = k then false else (s.fget (PRT_MEM_STAT.CAL_DUE q)).testBit j := by
  obtain ⟨need, e⟩ := s.chanSlot_shape p k len
  have hmod (f : Fld) : ({ s with draws := s.draws + 1 }.modCh (8 * p + k) fun c => c.inSlot s.now len need).fget f =
      s.fget f := rfl
  rw [e]
  generalize ({ s with draws := s.draws + 1 }.modCh (8 * p + k) fun c => c.inSlot s.now len need) = v at hmod
  by_cases hq : q = p
  · subst hq
    rw [State.testBit_memStat v (f := PRT_MEM_STAT.CAL_DUE q) k j false (show 31 < 32 by decide) hj, hmod]
    by_cases hk : j = k
    · rw [if_pos hk, if_pos ⟨rfl, hk⟩]
    · rw [if_neg hk, if_neg fun h => hk h.2]
  · rw [if_neg fun h => hq h.1, State.memStat, State.fget_fset_reg, hmod]
    simp only [PRT_MEM_STAT.CAL_DUE, PRT_MEM_STAT.off]
    omega

/-- A channel in the slot that begins now: its time restarted, closed for the slot's length. -/
def State.slotBegun (s : State) (now len p k : Nat) : Prop :=
  (s.ch (8 * p + k)).slotAt = now ∧ (s.ch (8 * p + k)).slotEnd = now + len ∧
    (s.fget (PRT_MEM_STAT.CAL_DUE p)).testBit k = false

theorem State.slotBegun_chanSlot_same (s : State) (p len : Nat) {k : Nat} (hk : k < 8) :
    (s.chanSlot p k len).slotBegun s.now len p k := by
  obtain ⟨h1, h2⟩ := s.ch_chanSlot_same p k len
  exact ⟨h1, h2, by rw [s.calDue_chanSlot p k len p hk, if_pos ⟨rfl, rfl⟩]⟩

theorem State.slotBegun_chanSlot (s : State) {p k p' k' len : Nat} (hk : k < 8) (h : s.slotBegun s.now len p k) :
    (s.chanSlot p' k' len).slotBegun s.now len p k := by
  obtain ⟨h1, h2, h3⟩ := h
  by_cases e : 8 * p + k = 8 * p' + k'
  · obtain ⟨k1, k2⟩ := s.ch_chanSlot_same p' k' len
    refine ⟨by rw [e]; exact k1, by rw [e]; exact k2, ?_⟩
    rw [s.calDue_chanSlot p' k' len p hk, h3, ite_self]
  · rw [State.slotBegun, s.ch_chanSlot_other len e, s.calDue_chanSlot p' k' len p hk, h3, ite_self]
    exact ⟨h1, h2, rfl⟩

/-- The slots of the channels of some partitions. -/
def State.slotsBegin (s : State) (ps ks : List Nat) (len : Nat) : State :=
  State.eachOf ps (fun p s => State.eachOf ks (fun k s => s.chanSlot p k len) s) s

theorem SlotOnly.slotsBegin (s : State) (ps ks : List Nat) (len : Nat) : SlotOnly s (s.slotsBegin ps ks len) :=
  State.eachOf_inv (P := SlotOnly s) rfl fun p _ _ ht =>
    State.eachOf_inv (P := SlotOnly s) ht fun k _ u hu => hu.trans (.chanSlot u p k len)

theorem State.slotBegun_slotsBegin (s : State) {ps ks : List Nat} (len : Nat) (hks : ∀ k ∈ ks, k < 8) {p k : Nat}
    (hp : p ∈ ps) (hk : k ∈ ks) : (s.slotsBegin ps ks len).slotBegun s.now len p k := by
  have keep (p' : Nat) (t : State) (hnow : t.now = s.now) (ht : t.slotBegun s.now len p k) :
      (State.eachOf ks (fun k s => s.chanSlot p' k len) t).slotBegun s.now len p k := by
    refine (State.eachOf_inv (P := fun t => t.now = s.now ∧ t.slotBegun s.now len p k) ⟨hnow, ht⟩ fun j _ v hv => ?_).2
    refine ⟨(SlotOnly.chanSlot v p' j len).now.trans hv.1, ?_⟩
    have := v.slotBegun_chanSlot (p' := p') (k' := j) (hks k hk) (hv.1.symm ▸ hv.2)
    rwa [hv.1] at this
  have now (p' : Nat) (t : State) (hnow : t.now = s.now) :
      (State.eachOf ks (fun k s => s.chanSlot p' k len) t).now = s.now :=
    State.eachOf_inv (P := fun t => t.now = s.now) hnow fun j _ v hv => (SlotOnly.chanSlot v p' j len).now.trans hv
  refine State.eachOf_reach (P := fun t => t.now = s.now) (Q := fun t => t.slotBegun s.now len p k) hp rfl
    (fun p' _ => now p') (fun t ht => ?_) fun p' _ => keep p'
  refine State.eachOf_reach (P := fun t => t.now = s.now) (Q := fun t => t.slotBegun s.now len p k) hk ht
    (fun j _ v hv => (SlotOnly.chanSlot v p j len).now.trans hv) (fun v hv => ?_) fun j _ v hv hb => ?_
  · have := v.slotBegun_chanSlot_same p len (hks k hk)
    rwa [hv] at this
  · have := v.slotBegun_chanSlot (p' := p) (k' := j) (hks k hk) (hv.symm ▸ hb)
    rwa [hv] at this

theorem State.ch_slotsBegin_other (s : State) {ps ks : List Nat} (len : Nat) {i : Nat}
    (h : ∀ p ∈ ps, ∀ k ∈ ks, i ≠ 8 * p + k) : (s.slotsBegin ps ks len).ch i = s.ch i :=
  State.eachOf_inv (P := fun t => t.ch i = s.ch i) rfl fun p hp _ ht =>
    State.eachOf_inv (P := fun t => t.ch i = s.ch i) ht fun k hk u hu => (u.ch_chanSlot_other len (h p hp k hk)).trans hu

theorem State.slStep_chanSlot (s : State) {n : Nat} (hn : n < 16) (p k len : Nat) :
    (s.chanSlot p k len).slStep n = s.slStep n := by
  obtain ⟨need, e⟩ := s.chanSlot_shape p k len
  have hne (o : Nat) (ho : o < 0x200000) (v : Nat) (u : State) : (u.fset (PRT_MEM_STAT.CAL_DUE p) v).reg o = u.reg o :=
    State.reg_fset_other _ _ _ (by simp only [PRT_MEM_STAT.CAL_DUE, PRT_MEM_STAT.off]; omega)
  have hlo : TCK_SL_STEP_LO.off n = 0x10108 + 0x40 * n := rfl
  rw [e, State.memStat, State.slStep, State.pair, hne _ (by omega), hne _ (by omega)]
  rfl

/-- A slot of the schedule that the tick holds. -/
theorem State.calSlot_due {n j : Nat} {d : SlotDef} (hn : n < 16) (hd : (s.sched n).slots[j]? = some d)
    (hdue : s.slotDue n d = true) :
    s.calSlot n j = s.slotsBegin (s.ctxParts n) (d.chans (s.slStep n)) d.length := by
  have e : s.calSlot n j = State.eachOf (s.ctxParts n) (fun p s =>
      State.eachOf (d.chans (s.slStep n)) (fun k s => s.chanSlot p k d.length) s) s := by
    unfold State.calSlot
    simp only [hd, hdue, if_true]
  rw [e]
  refine State.eachOf_congr (P := fun t => t.slStep n = s.slStep n) rfl (fun p _ t ht => ?_) fun p _ t ht => by rw [ht]
  exact State.eachOf_inv (P := fun t => t.slStep n = s.slStep n) ht fun k _ u hu =>
    (u.slStep_chanSlot hn p k d.length).trans hu

theorem State.calibrationSlot_spec {n : Ctx} {j : Fin 4} {d : SlotDef} (hd : (s.sched n.val).slots[j.val]? = some d)
    (hdue : s.slotDue n.val d = true) : Runs (.calibrationSlot n j) s fun t =>
      t.now = max s.now (s.tick.bound + d.offset) ∧
      (∀ p ∈ s.ctxParts n.val, ∀ k ∈ d.chans (s.slStep n.val), (t.ch (8 * p + k)).slotAt = t.now ∧
        (t.ch (8 * p + k)).slotEnd = t.now + d.length ∧ (t.fget (PRT_MEM_STAT.CAL_DUE p)).testBit k = false) ∧
      (∀ i, (∀ p ∈ s.ctxParts n.val, ∀ k ∈ d.chans (s.slStep n.val), i ≠ 8 * p + k) → t.ch i = s.ch i) ∧
      t = { s with regs := t.regs, chan := t.chan, draws := t.draws, now := t.now } := by
  have e : exec (.calibrationSlot n j) s = doneAt s (s.tick.bound + d.offset) (fun s => s.calSlot n.val j.val) := by
    show execCalibrationSlot n j s = _
    have hstart : s.slotStart n.val j.val = s.tick.bound + d.offset := by
      unfold State.slotStart
      simp only [hd, hdue, if_true]
    rw [execCalibrationSlot, hstart]
  have hu : (s.atTime (s.tick.bound + d.offset)).calSlot n.val j.val =
      (s.atTime (s.tick.bound + d.offset)).slotsBegin (s.ctxParts n.val) (d.chans (s.slStep n.val)) d.length := by
    exact State.calSlot_due (s := s.atTime (s.tick.bound + d.offset)) n.isLt hd hdue
  have hchans : ∀ k ∈ d.chans (s.slStep n.val), k < 8 := fun k hk =>
    List.mem_range.1 (List.mem_filter.1 hk).1
  have hbegun {p k : Nat} := (s.atTime (s.tick.bound + d.offset)).slotBegun_slotsBegin (ps := s.ctxParts n.val) d.length
    hchans (p := p) (k := k)
  have hother {i : Nat} := (s.atTime (s.tick.bound + d.offset)).ch_slotsBegin_other (ps := s.ctxParts n.val)
    (ks := d.chans (s.slStep n.val)) d.length (i := i)
  have honly := SlotOnly.slotsBegin (s.atTime (s.tick.bound + d.offset)) (s.ctxParts n.val) (d.chans (s.slStep n.val)) d.length
  generalize (s.atTime (s.tick.bound + d.offset)).slotsBegin (s.ctxParts n.val) (d.chans (s.slStep n.val)) d.length = t
    at hu hbegun hother honly
  have hnow : t.now = max s.now (s.tick.bound + d.offset) := honly.now
  refine runs_doneAt e hu ?_ hnow ?_ ⟨hnow, fun p hp k hk => ?_, fun i => hother, ?_⟩
  · rw [honly]
    rfl
  · rw [honly]
    rfl
  · rw [hnow]
    exact hbegun hp hk
  · rw [hnow]
    exact honly

/-! ### CALIBRATION_OVERDUE (R41) -/

theorem State.calibrationOverdue_spec {p : PartId} {k : Chan} {n : Nat} (hown : s.ctxHolding p.val = some n)
    (h1 : 2 ≤ s.slState n) (h2 : s.slState n ≤ 4) (hlate : (s.ch (8 * p.val + k.val)).slotAt + msUnits 32 < s.now)
    (hdue : (s.fget (PRT_MEM_STAT.CAL_DUE p.val)).testBit k.val = false) : Runs (.calibrationOverdue p k) s fun t =>
      (t.fget (PRT_MEM_STAT.CAL_DUE p.val)).testBit k.val = true ∧
      FaultOnly { s with regs := (s.memStat (PRT_MEM_STAT.CAL_DUE p.val) k.val true).regs } t := by
  have e : exec (.calibrationOverdue p k) s = done s (s.calOverdue p.val k.val) := rfl
  unfold State.calOverdue at e
  simp only [hown, h1, h2, hlate, hdue, decide_true, Bool.and_self, Bool.not_false, if_true] at e
  have hset : ((s.memStat (PRT_MEM_STAT.CAL_DUE p.val) k.val true).fget (PRT_MEM_STAT.CAL_DUE p.val)).testBit k.val = true := by
    rw [s.testBit_memStat (f := PRT_MEM_STAT.CAL_DUE p.val) k.val k.val true (show 31 < 32 by decide) k.isLt, if_pos rfl]
  have hregs : s.memStat (PRT_MEM_STAT.CAL_DUE p.val) k.val true =
      { s with regs := (s.memStat (PRT_MEM_STAT.CAL_DUE p.val) k.val true).regs } := rfl
  have hf : FaultOnly (s.memStat (PRT_MEM_STAT.CAL_DUE p.val) k.val true) (s.calLate p.val k.val) := .raise ..
  generalize s.calLate p.val k.val = t at e hf
  rw [← hregs]
  have hreg : t.fget (PRT_MEM_STAT.CAL_DUE p.val) =
      (s.memStat (PRT_MEM_STAT.CAL_DUE p.val) k.val true).fget (PRT_MEM_STAT.CAL_DUE p.val) := by
    have h : PRT_MEM_STAT.off p.val ∉ faultRegs := notMem_faultRegs (.inr (by rw [PRT_MEM_STAT.off]; omega))
    rw [State.fget, State.fget]
    exact congrArg _ (hf.reg _ h)
  refine runs_done e (hf.pending.trans ?_) (hf.now.trans ?_) (hf.fuses.trans ?_) ⟨hreg ▸ hset, hf⟩
  · rw [hregs]
  · rw [hregs]
  · rw [hregs]

/-! ### LINK_CALIBRATION_WINDOW (R241) -/

/-- The next receive lane in rotation. -/
def PortSt.calLane (x : PortSt) : Nat := (x.rxAct.find? (fun i => x.calRot ≤ i)).getD (x.rxAct.headD 0)

/-- A receive lane taken out at the peer's next frame time, until the window's end. -/
def State.laneOut (s : State) (p lane first till : Nat) : State :=
  (s.ctlSend p (laneDropMsg lane first true)).modPo p (fun x =>
    { x with calRot := lane + 1, cal := some (lane, till), rxChange := x.rxChange ++ [(lane, first, false)] })

theorem State.po_laneOut_same (s : State) (p lane first till : Nat) : (s.laneOut p lane first till).po p =
    { s.po p with
      calRot := lane + 1, cal := some (lane, till), rxChange := (s.po p).rxChange ++ [(lane, first, false)],
      ctl := (s.po p).ctl ++ [BitVec.ofNat 48 (laneDropMsg lane first true)] } := by
  rw [State.laneOut, State.po_modPo_same, State.ctlSend, State.po_modPo_same]

theorem State.po_laneOut_other (s : State) {p q : Nat} (lane first till : Nat) (h : q ≠ p) :
    (s.laneOut p lane first till).po q = s.po q := by
  rw [State.laneOut, State.po_modPo_other _ h, State.ctlSend, State.po_modPo_other _ h]

theorem State.laneOut_only (s : State) (p lane first till : Nat) :
    s.laneOut p lane first till = { s with port := (s.laneOut p lane first till).port } := rfl

/-- The margins of a lane shown. -/
def State.marginShown (s : State) (p lane eh ew : Nat) : State :=
  ((s.fset (LNK_MARGIN.LANE p) lane).fset (LNK_MARGIN.EYE_H p) eh).fset (LNK_MARGIN.EYE_W p) ew

theorem State.marginShown_spec (s : State) {p eh ew : Nat} (lane : Nat) (hh : eh < 256) (hw : ew < 256) :
    (lane < 32 → (s.marginShown p lane eh ew).fget (LNK_MARGIN.LANE p) = lane) ∧
      (s.marginShown p lane eh ew).fget (LNK_MARGIN.EYE_H p) = eh ∧
      (s.marginShown p lane eh ew).fget (LNK_MARGIN.EYE_W p) = ew := by
  unfold State.marginShown
  refine ⟨fun h => ?_, ?_, ?_⟩
  · rw [State.fget_fset_apart _ _ _ _ (show 5 < 32 by decide) (.inr (.inl (show 5 < 14 by decide))),
      State.fget_fset_apart _ _ _ _ (show 5 < 32 by decide) (.inr (.inl (show 5 < 6 by decide)))]
    exact State.fget_fset_fits _ _ _ (show 5 < 32 by decide) (show lane < 64 by omega)
  · rw [State.fget_fset_apart _ _ _ _ (show 13 < 32 by decide) (.inr (.inl (show 13 < 14 by decide)))]
    exact State.fget_fset_fits _ _ _ (show 13 < 32 by decide) hh
  · exact State.fget_fset_fits _ _ _ (show 21 < 32 by decide) hw

theorem State.marginShown_only (s : State) (p lane eh ew : Nat) :
    s.marginShown p lane eh ew = { s with regs := (s.marginShown p lane eh ew).regs } ∧
      ∀ o, o ≠ LNK_MARGIN.off p → (s.marginShown p lane eh ew).reg o = s.reg o := by
  have h : OnlyRegs [LNK_MARGIN.off p] s (s.marginShown p lane eh ew) :=
    ((OnlyRegs.fset s (LNK_MARGIN.LANE p) lane (List.mem_singleton.2 rfl)).trans
      (.fset _ (LNK_MARGIN.EYE_H p) eh (List.mem_singleton.2 rfl))).trans
      (.fset _ (LNK_MARGIN.EYE_W p) ew (List.mem_singleton.2 rfl))
  exact ⟨h.1, fun o ho => h.2 o (mt List.mem_singleton.1 ho)⟩

theorem State.calWindow_taken {p : Nat} {h w : BitVec 8 × BitVec 8 × BitVec 8} (h5 : 5 ≤ s.fget (LNK_STAT.STATE p))
    (h6 : s.fget (LNK_STAT.STATE p) ≤ 6) (htick : s.calTick = true) (hto : s.now < s.calTo) (hcal : (s.po p).cal = none)
    (hskip : s.flag (LNK_CTL.LCAL_SKIP p) = false) (hlen : 5 ≤ (s.po p).rxAct.length)
    (hneed : s.fget (LNK_STAT.NEED_W p) < (s.po p).rxAct.length) :
    s.calWindow p h w = (s.laneOut p (s.po p).calLane (s.seqAt p s.calFrom) s.calTo).marginShown p (s.po p).calLane
      (least h) (least w) := by
  unfold State.calWindow
  rw [if_neg (by simp [h5, h6, htick, hto, hcal, hskip, hlen]; omega)]
  rfl

theorem State.linkCalibrationWindow_spec {p : Port} {h w : BitVec 8 × BitVec 8 × BitVec 8}
    (h5 : 5 ≤ s.fget (LNK_STAT.STATE p.val)) (h6 : s.fget (LNK_STAT.STATE p.val) ≤ 6) (htick : s.calTick = true)
    (hto : s.now < s.calTo) (hcal : (s.po p.val).cal = none) (hskip : s.flag (LNK_CTL.LCAL_SKIP p.val) = false)
    (hlen : 5 ≤ (s.po p.val).rxAct.length) (hneed : s.fget (LNK_STAT.NEED_W p.val) < (s.po p.val).rxAct.length)
    (lane first : Nat)
    (hlane : ((s.po p.val).rxAct.find? (fun i => (s.po p.val).calRot ≤ i)).getD ((s.po p.val).rxAct.headD 0) = lane)
    (hfirst : s.seqAt p.val s.calFrom = first) : Runs (.linkCalibrationWindow p h w) s fun t =>
      t.po p.val = { s.po p.val with
        calRot := lane + 1, cal := some (lane, s.calTo), rxChange := (s.po p.val).rxChange ++ [(lane, first, false)],
        ctl := (s.po p.val).ctl ++ [BitVec.ofNat 48 (laneDropMsg lane first true)] } ∧
      (lane < 32 → t.fget (LNK_MARGIN.LANE p.val) = lane) ∧
      t.fget (LNK_MARGIN.EYE_H p.val) = min h.1.toNat (min h.2.1.toNat h.2.2.toNat) ∧
      t.fget (LNK_MARGIN.EYE_W p.val) = min w.1.toNat (min w.2.1.toNat w.2.2.toNat) ∧ (∀ q, q ≠ p.val → t.po q = s.po q) ∧
      t = { s with regs := t.regs, port := t.port } ∧ ∀ o, o ≠ LNK_MARGIN.off p.val → t.reg o = s.reg o := by
  have e : exec (.linkCalibrationWindow p h w) s = done s (s.calWindow p.val h w) := rfl
  have hlane' : (s.po p.val).calLane = lane := hlane
  rw [State.calWindow_taken h5 h6 htick hto hcal hskip hlen hneed, hlane', hfirst] at e
  have hpo := s.po_laneOut_same p.val lane first s.calTo
  have hother {q : Nat} := s.po_laneOut_other (p := p.val) (q := q) lane first s.calTo
  have honly := s.laneOut_only p.val lane first s.calTo
  generalize s.laneOut p.val lane first s.calTo = v at e hpo hother honly
  have hreg (o : Nat) : v.reg o = s.reg o := by
    rw [honly]
    rfl
  have hleast (x : BitVec 8 × BitVec 8 × BitVec 8) : least x < 256 := lt_of_le_of_lt (min_le_left _ _) x.1.isLt
  obtain ⟨m1, m2, m3⟩ := v.marginShown_spec (p := p.val) lane (hleast h) (hleast w)
  obtain ⟨k1, k2⟩ := v.marginShown_only p.val lane (least h) (least w)
  generalize v.marginShown p.val lane (least h) (least w) = t at e m1 m2 m3 k1 k2
  have ht : t = { s with regs := t.regs, port := t.port } := by
    rw [honly] at k1
    rw [k1]
  have hpt (q : Nat) : t.po q = v.po q := by
    rw [k1]
    rfl
  exact runs_done e (by rw [ht]) (by rw [ht]) (by rw [ht]) ⟨(hpt _).trans hpo, m1, m2, m3, fun q hq => (hpt q).trans (hother hq),
    ht, fun o ho => (k2 o ho).trans (hreg o)⟩

end

end Sys2Proof.Machine
end

-- The completion check

/-! PROOF of O33: the checks at the close point. -/

section
namespace Sys2Proof.Machine

section
variable {s t u : State} {n : Nat}

/-! ### A tick that is done (R53) -/

theorem State.refuseUnarmed_of_none (h : s.tick.unarmed = []) : s.refuseUnarmed = s := by
  unfold State.refuseUnarmed
  simp only [h, List.filter_nil]
  rw [State.eachOf_nil, ← h]

theorem State.commitCheck_of_unarmed (h : s.fget (RIG_SL_STAT.SHADOW n) ≠ 3) (hu : s.tick.unarmed = []) :
    s.commitCheck n = s := by
  unfold State.commitCheck
  rw [State.refuseUnarmed_of_none hu]
  exact if_pos (by simp [h])

theorem State.checkEngines_of_done (h : (s.engsOf n).all (fun k => (s.engLate n k).isNone) = true) :
    s.checkEngines n = s := by
  have e : ((s.ctxParts n).flatMap (fun p => (List.range 8).map (fun e => 8 * p + e))).filterMap
      (fun k => (s.engLate n k).map (fun j => (k, j))) = [] := by
    rw [List.filterMap_eq_nil_iff]
    intro k hk
    rw [Option.map_eq_none_iff]
    exact Option.isNone_iff_eq_none.1 (List.all_eq_true.1 h k hk)
  unfold State.checkEngines
  extract_lets ks
  rw [show ks.filterMap (fun k => (s.engLate n k).map (fun j => (k, j))) = [] from e]
  rfl

theorem State.completion_of_done (hshadow : s.fget (RIG_SL_STAT.SHADOW n) ≠ 3) (hcores : s.lateCores n = [])
    (hstrands : s.lateStrands n = []) (houts : s.lateOuts n = []) (hports : s.latePorts n = []) (htrees : s.lateTrees n = [])
    (hwrites : s.lateWrites n = []) (hmirrors : s.lateMirrors n = []) (hun : s.tick.unarmed = [])
    (hengs : (s.engsOf n).all (fun k => (s.engLate n k).isNone) = true) : s.completion n = s := by
  have h1 : s.checkCores n = s := by
    rw [State.checkCores, hcores]
    rfl
  have h2 : s.checkStrands n = s := by
    rw [State.checkStrands, hstrands, houts]
    rfl
  have h3 : s.checkMessages n = s := by
    rw [State.checkMessages, hports, htrees, hwrites, hmirrors]
    rfl
  unfold State.completion
  rw [h1, h2, h3, State.checkEngines_of_done hengs, ite_self]
  exact State.commitCheck_of_unarmed hshadow hun

/-! ### A core that has overrun (R59) -/

/-- What the checks of a tick that has been aborted leave as it is: an abort stands, and so does a hold for the boundary. -/
structure LateKept (n : Nat) (s t : State) : Prop where
  pending : t.pending = s.pending
  now : t.now = s.now
  fuses : t.fuses = s.fuses
  core : t.core = s.core
  eng : t.eng = s.eng
  mem : t.mem = s.mem
  incidents : t.flt.incidents = s.flt.incidents
  reg : ∀ o, o < 0x100000 → o ∉ faultRegs → o ≠ TCK_SL_STAT.off n → t.reg o = s.reg o
  aborted : (s.cx n).aborted = true → (t.cx n).aborted = true
  held : (s.cx n).holdNext ≠ none → (t.cx n).holdNext ≠ none

theorem LateKept.refl (n : Nat) (s : State) : LateKept n s s :=
  ⟨rfl, rfl, rfl, rfl, rfl, rfl, rfl, fun _ _ _ _ => rfl, id, id⟩

theorem LateKept.trans (h : LateKept n s t) (k : LateKept n t u) : LateKept n s u where
  pending := k.pending.trans h.pending
  now := k.now.trans h.now
  fuses := k.fuses.trans h.fuses
  core := k.core.trans h.core
  eng := k.eng.trans h.eng
  mem := k.mem.trans h.mem
  incidents := k.incidents.trans h.incidents
  reg := fun o h1 h2 h3 => (k.reg o h1 h2 h3).trans (h.reg o h1 h2 h3)
  aborted := fun ha => k.aborted (h.aborted ha)
  held := fun hh => k.held (h.held hh)

theorem LateKept.ite {c : Prop} [Decidable c] {a b : State} (h : LateKept n s a) (k : LateKept n s b) :
    LateKept n s (if c then a else b) := by
  split
  · exact h
  · exact k

theorem LateKept.eachOf {α : Type} {l : List α} {f : α → State → State} (h : ∀ a t, LateKept n t (f a t)) :
    LateKept n s (State.eachOf l f s) :=
  State.eachOf_inv (P := LateKept n s) (.refl n s) fun a _ t ht => ht.trans (h a t)

theorem LateKept.raise (s : State) (code : Nat) (src : Word) (addr arg : Nat) : LateKept n s (s.raise code src addr arg) := by
  have h := FaultOnly.raise s code src addr arg
  refine ⟨h.pending, h.now, h.fuses, h.core, h.eng, h.mem, h.incidents, fun o _ ho _ => h.reg o ho, fun ha => ?_,
    State.take_held s _ n⟩
  have hcx := congrArg CtxSt.aborted (h.cx n)
  exact hcx.trans ha

theorem LateKept.setReg (s : State) {o : Nat} (w : Word) (h : 0x100000 ≤ o ∨ o = TCK_SL_STAT.off n) :
    LateKept n s (s.setReg o w) := by
  refine ⟨rfl, rfl, rfl, rfl, rfl, rfl, rfl, fun o' h1 _ h3 => State.reg_setReg_other s ?_ w, id, id⟩
  rintro rfl
  rcases h with h | h
  · omega
  · exact h3 h

theorem LateKept.hangNote (s : State) (l : List Word) : LateKept n s (s.hangNote n l) :=
  ⟨rfl, rfl, rfl, rfl, rfl, rfl, rfl, fun _ _ _ _ => rfl, id, id⟩

theorem LateKept.modCx (s : State) {f : CtxSt → CtxSt} (ha : ∀ c, c.aborted = true → (f c).aborted = true)
    (hh : ∀ c, c.holdNext ≠ none → (f c).holdNext ≠ none) : LateKept n s (s.modCx n f) := by
  refine ⟨rfl, rfl, rfl, rfl, rfl, rfl, rfl, fun _ _ _ _ => rfl, fun h => ?_, fun h => ?_⟩
  · rw [State.cx_modCx_same]
    exact ha _ h
  · rw [State.cx_modCx_same]
    exact hh _ h

theorem MgtOnly.late (h : MgtOnly s t) : LateKept n s t := by
  unfold MgtOnly at h
  rw [h]
  exact ⟨rfl, rfl, rfl, rfl, rfl, rfl, rfl, fun _ _ _ _ => rfl, id, id⟩

theorem LateKept.waitRepairs (s : State) : LateKept n s (s.waitRepairs n) :=
  .eachOf fun _ _ => .eachOf fun _ t => (MgtOnly.cancelStep t).late.trans (.modCx _ (fun _ => id) fun _ => id)

theorem LateKept.abortTick (s : State) (cause : Nat) : LateKept n s (s.abortTick n cause) := by
  unfold State.abortTick
  refine .ite (.refl n s) ?_
  extract_lets first s1 s2
  have h1 : LateKept n s s1 := (LateKept.setReg s _ (.inr rfl)).trans (.modCx _ (fun _ _ => rfl) fun _ => id)
  have h2 : LateKept n s s2 := .ite (h1.trans (.waitRepairs s1)) h1
  exact .ite (h2.trans (MgtOnly.ctlAll s2 _).late) h2

theorem LateKept.holdAt (s : State) (cause : Nat) : LateKept n s (s.holdAt n cause) :=
  .modCx s (fun _ => id) fun c _ => by
    cases c.holdNext with
    | none => exact Option.some_ne_none _
    | some x => exact Option.some_ne_none _

theorem LateKept.mirrorMiss (s : State) (p msg : Nat) : LateKept n s (s.mirrorMiss p msg) := by
  unfold State.mirrorMiss
  extract_lets e
  have ho : 0x100000 ≤ PRT_UPE_STAT.off p e := by
    rw [PRT_UPE_STAT.off]
    omega
  exact (LateKept.setReg s _ (.inl ho)).trans (.raise _ _ _ _ _)

theorem LateKept.checkStrands (s : State) : LateKept n s (s.checkStrands n) := by
  unfold State.checkStrands State.strandStall
  refine .ite (.refl n s) ?_
  exact ((LateKept.eachOf fun e t => .raise t _ _ _ _).trans (.hangNote _ _)).trans (.abortTick _ _)

theorem LateKept.checkMessages (s : State) : LateKept n s (s.checkMessages n) := by
  unfold State.checkMessages State.missing
  refine .ite (.refl n s) ?_
  extract_lets s1 s2 s3 s4
  have h1 : LateKept n s s1 := .eachOf fun e t => .raise t _ _ _ _
  have h2 : LateKept n s1 s2 := .eachOf fun e t => .raise t _ _ _ _
  have h3 : LateKept n s2 s3 := .eachOf fun e t => .ite (.mirrorMiss t _ _) (.raise t _ _ _ _)
  have h4 : LateKept n s3 s4 := .eachOf fun e t => .mirrorMiss t _ _
  exact (((h1.trans h2).trans h3).trans h4).trans (.abortTick s4 3)

theorem LateKept.checkEngines (s : State) : LateKept n s (s.checkEngines n) := by
  unfold State.checkEngines State.engTimeout
  refine .ite (.refl n s) ?_
  exact ((LateKept.eachOf fun e t => .raise t _ _ _ _).trans (.hangNote _ _)).trans (.abortTick _ _)

theorem LateKept.refuseUnarmed (s : State) : LateKept n s s.refuseUnarmed := by
  unfold State.refuseUnarmed
  extract_lets l x s1
  have h1 : LateKept n s s1 := ⟨rfl, rfl, rfl, rfl, rfl, rfl, rfl, fun _ _ _ _ => rfl, id, id⟩
  exact h1.trans (.eachOf fun e t => (MgtOnly.ctlAll t _).late.trans (.raise _ _ _ _ _))

theorem LateKept.shadow (h : LateKept n s t) (hn : n < 16) :
    t.fget (RIG_SL_STAT.SHADOW n) = s.fget (RIG_SL_STAT.SHADOW n) := by
  have ho : RIG_SL_STAT.off n = 0x80100 + 0x40 * n := rfl
  have hs : TCK_SL_STAT.off n = 0x10104 + 0x40 * n := rfl
  rw [State.fget, State.fget]
  exact congrArg _ (h.reg _ (by show RIG_SL_STAT.off n < _; omega) (notMem_faultRegs (.inr (by show _ ≤ RIG_SL_STAT.off n; omega)))
    (by show RIG_SL_STAT.off n ≠ _; omega))

theorem LateKept.commitCheck (hn : n < 16) (h : s.fget (RIG_SL_STAT.SHADOW n) ≠ 3) : LateKept n s (s.commitCheck n) := by
  have hr : LateKept n s s.refuseUnarmed := .refuseUnarmed s
  unfold State.commitCheck
  generalize s.refuseUnarmed = v at hr
  have hv : v.fget (RIG_SL_STAT.SHADOW n) ≠ 3 := by rwa [hr.shadow hn]
  rw [if_pos (by simp [hv])]
  exact hr

/-- An overrun reported: each core's message, the count, and the sources of the hang. -/
def State.overrunNoted (s : State) (n : Nat) (l : List Nat) : State :=
  let s := State.eachOf l (fun c s => s.raise 0x0201 (s.coreSrc c) 0 (s.co c).entry) s
  (s.fcount (TCK_SL_OVERRUNS.OVERRUNS n) 1).hangNote n (l.map s.coreSrc)

theorem State.overrun_eq {l : List Nat} (h : l ≠ []) : s.overrun n l =
    if (s.overrunNoted n l).flag (TCK_SL_CTL.OVR_HOLD n) then (s.overrunNoted n l).abortHold n 1
      else (s.overrunNoted n l).abortTick n 1 := by
  unfold State.overrun State.overrunNoted
  rw [if_neg (by simpa using h)]

theorem FaultOnly.eachOf {α : Type} {l : List α} {f : α → State → State} (h : ∀ a t, FaultOnly t (f a t)) :
    FaultOnly s (State.eachOf l f s) :=
  State.eachOf_inv (P := FaultOnly s) (.refl s) fun a _ t ht => ht.trans (h a t)

theorem State.hangNote_fget (s : State) (n : Nat) (l : List Word) (f : Fld) : (s.hangNote n l).fget f = s.fget f := rfl

/-- What has been noted of an overrun before the tick is aborted. -/
structure OverrunNoted (n : Nat) (s t : State) : Prop where
  pending : t.pending = s.pending
  now : t.now = s.now
  fuses : t.fuses = s.fuses
  core : t.core = s.core
  eng : t.eng = s.eng
  mem : t.mem = s.mem
  incidents : t.flt.incidents = s.flt.incidents
  overruns : t.fget (TCK_SL_OVERRUNS.OVERRUNS n) = min (2 ^ 32 - 1) (s.fget (TCK_SL_OVERRUNS.OVERRUNS n) + 1)
  fget : ∀ f : Fld, 0x10000 ≤ f.reg → f.reg < 0x30000 ∨ 0x50000 ≤ f.reg → f.reg ≠ TCK_SL_OVERRUNS.off n → t.fget f = s.fget f

theorem State.overrunNoted_spec (s : State) (hn16 : n < 16) (l : List Nat) : OverrunNoted n s (s.overrunNoted n l) := by
  unfold State.overrunNoted
  extract_lets s1
  have h1 : FaultOnly s s1 := .eachOf fun c t => .raise t _ _ _ _
  have hread {f : Fld} (ha : 0x10000 ≤ f.reg) (hb : f.reg < 0x30000 ∨ 0x50000 ≤ f.reg) : s1.fget f = s.fget f := by
    rw [State.fget, State.fget, h1.reg _ (notMem_faultRegs (by omega))]
  have hmax : s1.fget (TCK_SL_OVERRUNS.OVERRUNS n) < 2 ^ 32 := bits_lt _ 31 0
  refine ⟨h1.pending, h1.now, h1.fuses, h1.core, h1.eng, h1.mem, h1.incidents, ?_, fun f ha hb hne => ?_⟩
  · have hn : s1.fget (TCK_SL_OVERRUNS.OVERRUNS n) = s.fget (TCK_SL_OVERRUNS.OVERRUNS n) := by
      have ho : TCK_SL_OVERRUNS.off n = 0x1011C + 0x40 * n := rfl
      refine hread (by show _ ≤ TCK_SL_OVERRUNS.off n; omega) ?_
      show TCK_SL_OVERRUNS.off n < _ ∨ _ ≤ TCK_SL_OVERRUNS.off n
      omega
    rw [State.hangNote_fget, State.fcount, State.fget_fset_fits _ _ _ (show 31 < 32 by decide), sat, hn, Nat.min_comm]
    · rfl
    · exact lt_of_le_of_lt (Nat.min_le_right _ _) (show 2 ^ 32 - 1 < 2 ^ 32 by decide)
  · rw [State.hangNote_fget, State.fcount, State.fget_fset_reg _ _ _ _ hne, hread ha hb]

theorem State.checkCores_late (hl : s.lateCores n ≠ []) (hn : n < 16) (ht : s.ticking n = true) :
    ∃ v, OverrunNoted n s v ∧ LateKept n v (s.checkCores n) ∧ ((s.checkCores n).cx n).aborted = true ∧
      (s.flag (TCK_SL_CTL.OVR_HOLD n) = true → ((s.checkCores n).cx n).holdNext ≠ none) := by
  have hv := s.overrunNoted_spec hn (s.lateCores n)
  refine ⟨s.overrunNoted n (s.lateCores n), hv, ?_⟩
  rw [State.checkCores, State.overrun_eq hl]
  generalize s.overrunNoted n (s.lateCores n) = v at hv
  have hstat : v.slState n = s.slState n := by
    refine hv.fget _ ?_ (.inl ?_) ?_
    all_goals
      simp only [TCK_SL_STAT.STATE, TCK_SL_STAT.off, TCK_SL_OVERRUNS.off]
      omega
  have hovr : v.flag (TCK_SL_CTL.OVR_HOLD n) = s.flag (TCK_SL_CTL.OVR_HOLD n) := by
    rw [State.flag, State.flag, hv.fget]
    · simp only [TCK_SL_CTL.OVR_HOLD, TCK_SL_CTL.off]
      omega
    · simp only [TCK_SL_CTL.OVR_HOLD, TCK_SL_CTL.off]
      omega
    · simp only [TCK_SL_CTL.OVR_HOLD, TCK_SL_CTL.off, TCK_SL_OVERRUNS.off]
      omega
  have htick : v.ticking n = true := by
    rwa [State.ticking, hstat]
  have habort : ((v.abortTick n 1).cx n).aborted = true :=
    (State.abortTick_only htick 1).2.trans (State.aborted_markAbort v n 1)
  rw [hovr]
  split
  next ho =>
    have hh : LateKept n (v.abortTick n 1) ((v.abortTick n 1).holdAt n 7) := .holdAt _ 7
    exact ⟨(LateKept.abortTick v 1).trans hh, hh.aborted habort, fun _ => State.holdNext_holdAt _ _ _⟩
  next ho => exact ⟨LateKept.abortTick v 1, habort, fun h => absurd h ho⟩

theorem State.completion_late (hn : n < 16) (hw : s.working n = true) (hsh : s.fget (RIG_SL_STAT.SHADOW n) ≠ 3)
    (hl : s.lateCores n ≠ []) : ∃ v, OverrunNoted n s v ∧ LateKept n v (s.completion n) ∧
      ((s.completion n).cx n).aborted = true ∧
      (s.flag (TCK_SL_CTL.OVR_HOLD n) = true → ((s.completion n).cx n).holdNext ≠ none) := by
  have ht : s.ticking n = true := by
    unfold State.working at hw
    simp only [Bool.and_eq_true] at hw
    exact hw.1.1.1
  obtain ⟨v, hv, hk, ha, hh⟩ := State.checkCores_late hl hn ht
  have hrest : LateKept n (s.checkCores n) (((s.checkCores n).checkStrands n).checkMessages n |>.checkEngines n) :=
    ((LateKept.checkStrands _).trans (.checkMessages _)).trans (.checkEngines _)
  have hshv : (((s.checkCores n).checkStrands n).checkMessages n |>.checkEngines n).fget (RIG_SL_STAT.SHADOW n) ≠ 3 := by
    rw [(hk.trans hrest).shadow hn, hv.fget]
    · exact hsh
    · simp only [RIG_SL_STAT.SHADOW, RIG_SL_STAT.off]
      omega
    · simp only [RIG_SL_STAT.SHADOW, RIG_SL_STAT.off]
      omega
    · simp only [RIG_SL_STAT.SHADOW, RIG_SL_STAT.off, TCK_SL_OVERRUNS.off]
      omega
  have hall := hrest.trans (.commitCheck hn hshv)
  refine ⟨v, hv, ?_⟩
  unfold State.completion
  rw [if_pos hw]
  exact ⟨hk.trans hall, hall.aborted ha, fun h => hall.held (hh h)⟩

theorem State.recur_of_none (h : s.flt.incidents = []) (m : Option Nat) (code : Nat) (l : List Word) :
    s.recur m code l = s := by
  have e : s.incident m code l = none := by
    rw [State.incident, h]
    rfl
  rw [State.recur, e]

end

/-! ### COMPLETION_CHECK -/

section
variable {s u : State} {n : Ctx}

/-- A check that has aborted the tick looks for a hang that recurs (R361). -/
def State.hangSeen (u t : State) (n : Nat) : State :=
  if (t.cx n).aborted && !(u.cx n).aborted then
    match hangOf (t.fget (TCK_SL_STAT.LAST_ABORT n)) with
    | some code => t.recur (some n) code (t.hangSrcs n)
    | none => t
  else t

theorem exec_completionCheck (hu : u = s.atTime (s.tick.bound + s.closePoint n.val)) :
    exec (.completionCheck n) s = done u (u.hangSeen (u.completion n.val) n.val) := by
  rw [hu]
  rfl

theorem State.hangSeen_same (n : Nat) : u.hangSeen u n = u := by
  unfold State.hangSeen
  rw [Bool.and_not_self, if_neg Bool.false_ne_true]

theorem State.hangSeen_of_none {t : State} {n : Nat} (h : t.flt.incidents = []) : u.hangSeen t n = t := by
  unfold State.hangSeen
  split
  · split
    · exact State.recur_of_none h _ _ _
    · rfl
  · rfl

theorem State.completionCheck_done (hu : u = s.atTime (s.tick.bound + s.closePoint n.val)) (h : u.completion n.val = u) :
    exec (.completionCheck n) s = .next u := by
  rw [exec_completionCheck hu, h, State.hangSeen_same]
  exact done_of_kept rfl rfl rfl

theorem State.completionCheck_late (hu : u = s.atTime (s.tick.bound + s.closePoint n.val)) (hw : u.working n.val = true)
    (hsh : s.fget (RIG_SL_STAT.SHADOW n.val) ≠ 3) (hl : u.lateCores n.val ≠ []) (hinc : s.flt.incidents = []) :
    Runs (.completionCheck n) s fun t =>
      (t.cx n.val).aborted = true ∧
      t.fget (TCK_SL_OVERRUNS.OVERRUNS n.val) = min (2 ^ 32 - 1) (s.fget (TCK_SL_OVERRUNS.OVERRUNS n.val) + 1) ∧
      (s.flag (TCK_SL_CTL.OVR_HOLD n.val) = true → (t.cx n.val).holdNext ≠ none) ∧
      t.core = s.core ∧ t.eng = s.eng ∧ t.mem = s.mem ∧ t.now = u.now := by
  have e := exec_completionCheck hu
  have hfld (f : Fld) : u.fget f = s.fget f := by
    rw [hu]
    rfl
  have hstay : u.core = s.core ∧ u.eng = s.eng ∧ u.mem = s.mem ∧ u.flt.incidents = [] := by
    rw [hu]
    exact ⟨rfl, rfl, rfl, hinc⟩
  obtain ⟨v, hv, hk, ha, hh⟩ := State.completion_late n.isLt hw (by rwa [hfld]) hl
  generalize u.completion n.val = t at e hk ha hh
  obtain ⟨hcore, heng, hmem, hinc'⟩ := hstay
  rw [State.hangSeen_of_none (hk.incidents.trans (hv.incidents.trans hinc')),
    done_of_kept (hk.pending.trans hv.pending) (hk.now.trans hv.now) (hk.fuses.trans hv.fuses)] at e
  have hover : t.fget (TCK_SL_OVERRUNS.OVERRUNS n.val) = v.fget (TCK_SL_OVERRUNS.OVERRUNS n.val) := by
    have ho : TCK_SL_OVERRUNS.off n.val = 0x1011C + 0x40 * n.val := rfl
    have hs : TCK_SL_STAT.off n.val = 0x10104 + 0x40 * n.val := rfl
    have h := hk.reg (TCK_SL_OVERRUNS.off n.val) (by omega) (notMem_faultRegs (.inl (by omega))) (by omega)
    rw [State.fget, State.fget]
    exact congrArg _ h
  refine ⟨t, e, ha, ?_, fun h => hh ?_, hk.core.trans (hv.core.trans hcore), hk.eng.trans (hv.eng.trans heng),
    hk.mem.trans (hv.mem.trans hmem), hk.now.trans hv.now⟩
  · rw [hover, hv.overruns, hfld]
  · rwa [State.flag, hfld]

end

/-- Settles O33. -/
theorem completionAndCalibration : Obligations.CompletionAndCalibration := by
  unfold Obligations.CompletionAndCalibration
  intro s
  refine ⟨fun n u hu hw hsh => ⟨fun h1 h2 h3 h4 h5 h6 h7 h8 h9 => ?_, State.completionCheck_late hu hw hsh⟩,
    fun n j d => State.calibrationSlot_spec, fun p k n => State.calibrationOverdue_spec,
    fun p h w h5 h6 htick hto hcal hskip hlen hneed lane first => State.linkCalibrationWindow_spec h5 h6 htick hto hcal hskip
      hlen hneed lane first⟩
  have hsh' : u.fget (RIG_SL_STAT.SHADOW n.val) ≠ 3 := by rwa [hu]
  have h8' : u.tick.unarmed = [] := by rwa [hu]
  exact State.completionCheck_done hu (State.completion_of_done hsh' h1 h2 h3 h4 h5 h6 h7 h8' h9)

end Sys2Proof.Machine
end

-- Cores

/-! PROOF of O36. -/

section
namespace Sys2Proof.Machine

/-! ### One core alone -/

section
variable {s t u : State} {k : Nat}

theorem OnlyCore.trans (h : OnlyCore k s t) (h' : OnlyCore k t u) : OnlyCore k s u := by
  obtain ⟨h1, h2⟩ := h
  obtain ⟨k1, k2⟩ := h'
  refine ⟨?_, fun j hj => (k2 j hj).trans (h2 j hj)⟩
  rw [h1] at k1
  exact k1

theorem OnlyCore.modCo (s : State) (k : Nat) (f : CoreSt → CoreSt) : OnlyCore k s (s.modCo k f) :=
  ⟨rfl, fun _ hj => State.co_modCo_other s hj f⟩

theorem runs_onlyCore {c : Instr} {P : State → Prop} (e : exec c s = done s t) (h : OnlyCore k s t) (hp : P t) :
    Runs c s P := by
  obtain ⟨h1, -⟩ := h
  exact runs_done e (by rw [h1]) (by rw [h1]) (by rw [h1]) hp

end

/-! ### WAIT and SKIP (R129, R130, R131) -/

section
variable {s : State} {c : CoreId} {n : Nat} {d : Desc}

theorem State.waitEnd_spec (s : State) (k : Nat) (d : Desc) (stalled : Bool) :
    ((s.waitEnd k d stalled).co k).entry = (s.co k).entry + 1 ∧ ((s.waitEnd k d stalled).co k).waiting = false ∧
      (s.co k).cyc + 1 ≤ ((s.waitEnd k d stalled).co k).cyc ∧ OnlyCore k s (s.waitEnd k d stalled) := by
  unfold State.waitEnd
  extract_lets to_
  rw [State.co_modCo_same]
  exact ⟨rfl, rfl, le_max_left _ _, .modCo s k _⟩

theorem State.waitEntry_over {k mode : Nat} (h : s.entryAt k (fun d => d.op = 10 && d.imm = mode) = some (n, d))
    (ho : s.waitOver k d = true) : s.waitEntry k mode = s.waitEnd k d false := by
  unfold State.waitEntry
  rw [h]
  exact if_pos ho

theorem State.waitEntry_stalls {k mode : Nat} (h : s.entryAt k (fun d => d.op = 10 && d.imm = mode) = some (n, d))
    (ho : s.waitOver k d = false) : s.waitEntry k mode = s.modCo k (fun c => { c with waiting := true }) := by
  unfold State.waitEntry
  rw [h]
  exact if_neg (Bool.eq_false_iff.1 ho)

theorem State.wait_spec {i : Instr} {k mode : Nat} (e : exec i s = done s (s.waitEntry k mode))
    (h : s.entryAt k (fun d => d.op = 10 && d.imm = mode) = some (n, d)) :
    (s.waitOver k d = true → Runs i s fun t =>
        (t.co k).entry = (s.co k).entry + 1 ∧ (t.co k).waiting = false ∧ (s.co k).cyc + 1 ≤ (t.co k).cyc ∧ OnlyCore k s t) ∧
      (s.waitOver k d = false → Runs i s fun t => t.co k = { s.co k with waiting := true } ∧ OnlyCore k s t) := by
  refine ⟨fun ho => ?_, fun ho => ?_⟩
  · rw [State.waitEntry_over h ho] at e
    have hw := s.waitEnd_spec k d false
    exact runs_onlyCore e hw.2.2.2 hw
  · rw [State.waitEntry_stalls h ho] at e
    exact runs_onlyCore e (.modCo s k _) ⟨State.co_modCo_same .., .modCo s k _⟩

theorem State.waitEnd_runs (hctx : s.coreCtx c.key = some n) (hw : (s.co c.key).waiting = true)
    (ho : s.waitOver c.key (s.coreDesc n c.key) = true) : Runs (.waitEnd c) s fun t =>
      (t.co c.key).entry = (s.co c.key).entry + 1 ∧ (t.co c.key).waiting = false ∧
      (s.co c.key).cyc + 1 ≤ (t.co c.key).cyc ∧ OnlyCore c.key s t := by
  have e : exec (.waitEnd c) s = done s (s.waitEnd c.key (s.coreDesc n c.key) true) := by
    show execWaitEnd c s = _
    unfold execWaitEnd
    simp only [hctx, hw, ho, Bool.and_self, if_true]
  have h := s.waitEnd_spec c.key (s.coreDesc n c.key) true
  exact runs_onlyCore e h.2.2.2 h

/-- Where no read of an entry fails, none is the first. -/
theorem State.firstBad_of_good {b : Banks} {k : Nat} {l : List (Nat × Nat)} (h : l.all (fun x => !s.unitBad b k x.2) = true) :
    s.firstBad b k l = none := by
  have e : l.filter (fun r => s.unitBad b k r.2) = [] := by
    rw [List.filter_eq_nil_iff]
    intro x hx
    have := List.all_eq_true.1 h x hx
    simpa using this
  rw [State.firstBad, e]
  rfl

theorem State.skip_spec (s : State) (k : Nat) (d : Desc) (b : Bool) :
    (s.skip k d b).co k = (s.co k).advance (1 + if b then d.imm else 0) 1 ∧ OnlyCore k s (s.skip k d b) :=
  ⟨State.co_modCo_same .., .modCo s k _⟩

theorem State.skipZero_spec (h : s.entryAt c.key (fun d => d.op = 11 && d.sub = 0) = some (n, d))
    (hgood : (zeroReads (s.coreBanks n c.key) d).all (fun x => !s.unitBad (s.coreBanks n c.key) c.key x.2) = true) :
    Runs (.skipZero c) s fun t =>
      t.co c.key = (s.co c.key).advance (1 + if (s.coreBanks n c.key).allZero d = true then d.imm else 0) 1 ∧
      OnlyCore c.key s t := by
  have e : exec (.skipZero c) s = done s (s.skip c.key d ((s.coreBanks n c.key).allZero d)) := by
    show execSkipZero c s = _
    unfold execSkipZero
    simp only [h, State.firstBad_of_good hgood]
  have hs := s.skip_spec c.key d ((s.coreBanks n c.key).allZero d)
  exact runs_onlyCore e hs.2 hs

theorem State.skipEmpty_spec (h : s.entryAt c.key (fun d => d.op = 11 && d.sub = 1) = some (n, d)) :
    Runs (.skipEmpty c) s fun t =>
      t.co c.key = (s.co c.key).advance
        (1 + if (if d.pin = true then (s.co c.key).in1.cons else (s.co c.key).in0.cons) = 0 then d.imm else 0) 1 ∧
      OnlyCore c.key s t := by
  have e : exec (.skipEmpty c) s =
      done s (s.skip c.key d (decide ((if d.pin then (s.co c.key).in1.cons else (s.co c.key).in0.cons) = 0))) := by
    show execSkipEmpty c s = _
    unfold execSkipEmpty
    simp only [h]
  have hs := s.skip_spec c.key d (decide ((if d.pin then (s.co c.key).in1.cons else (s.co c.key).in0.cons) = 0))
  refine runs_onlyCore e hs.2 ⟨?_, hs.2⟩
  rw [hs.1]
  simp only [decide_eq_true_eq]

/-! ### END (R60, R132) -/

/-- The margin and the intrusion that END notes. -/
def State.endNoted (s : State) (n e kk : Nat) : State :=
  let s := if s.weirStart n < e then s.fcount (TCK_SL_INTRUSIONS.INTRUSIONS n) 1 else s
  s.fset (TCK_SL_MARGIN.MARGIN n) (min (s.fget (TCK_SL_MARGIN.MARGIN n)) (kk - e))

/-- An intrusion counted, where the core has come into the weir. -/
theorem State.intruded_spec (s : State) (n : Nat) (c : Prop) [Decidable c] :
    let t := if c then s.fcount (TCK_SL_INTRUSIONS.INTRUSIONS n) 1 else s
    t.fget (TCK_SL_MARGIN.MARGIN n) = s.fget (TCK_SL_MARGIN.MARGIN n) ∧
      t.fget (TCK_SL_INTRUSIONS.INTRUSIONS n) = (if c then min (2 ^ 32 - 1) (s.fget (TCK_SL_INTRUSIONS.INTRUSIONS n) + 1)
        else s.fget (TCK_SL_INTRUSIONS.INTRUSIONS n)) ∧
      OnlyRegs [TCK_SL_INTRUSIONS.off n, TCK_SL_MARGIN.off n] s t := by
  split
  · refine ⟨?_, ?_, .fset s _ _ (.head _)⟩
    · rw [State.fcount, State.fget_fset_reg]
      simp only [TCK_SL_MARGIN.MARGIN, TCK_SL_MARGIN.off, TCK_SL_INTRUSIONS.INTRUSIONS, TCK_SL_INTRUSIONS.off]
      omega
    · rw [State.fcount, State.fget_fset_fits _ _ _ (show 31 < 32 by decide), sat, Nat.min_comm]
      · rfl
      · exact lt_of_le_of_lt (Nat.min_le_right _ _) (show 2 ^ 32 - 1 < 2 ^ 32 by decide)
  · exact ⟨rfl, rfl, rfl, fun _ _ => rfl⟩

theorem State.endNoted_spec (s : State) (n e kk : Nat) :
    (s.endNoted n e kk).fget (TCK_SL_MARGIN.MARGIN n) = min (s.fget (TCK_SL_MARGIN.MARGIN n)) (kk - e) ∧
      (s.endNoted n e kk).fget (TCK_SL_INTRUSIONS.INTRUSIONS n) = (if s.weirStart n < e
        then min (2 ^ 32 - 1) (s.fget (TCK_SL_INTRUSIONS.INTRUSIONS n) + 1) else s.fget (TCK_SL_INTRUSIONS.INTRUSIONS n)) ∧
      OnlyRegs [TCK_SL_INTRUSIONS.off n, TCK_SL_MARGIN.off n] s (s.endNoted n e kk) := by
  obtain ⟨h1, h2, h3⟩ := s.intruded_spec n (s.weirStart n < e)
  unfold State.endNoted
  generalize (if s.weirStart n < e then s.fcount (TCK_SL_INTRUSIONS.INTRUSIONS n) 1 else s) = v at h1 h2 h3
  have hlt : v.fget (TCK_SL_MARGIN.MARGIN n) < 2 ^ 20 := bits_lt _ 19 0
  refine ⟨?_, ?_, h3.trans (.fset v _ _ (.tail _ (.head _)))⟩
  · rw [State.fget_fset_fits _ _ _ (show 19 < 32 by decide) (lt_of_le_of_lt (min_le_left _ _) hlt), h1]
  · rw [State.fget_fset_reg, h2]
    simp only [TCK_SL_MARGIN.MARGIN, TCK_SL_MARGIN.off, TCK_SL_INTRUSIONS.INTRUSIONS, TCK_SL_INTRUSIONS.off]
    omega

theorem State.endEntry_spec (h : s.entryAt c.key (fun d => d.op = 0) = some (n, d))
    (hin : s.endAt (s.co c.key).cyc ≤ s.closePoint n) : Runs (.endEntry c) s fun t =>
      t.co c.key = { s.co c.key with atEnd := true } ∧
      t.fget (TCK_SL_MARGIN.MARGIN n) =
        min (s.fget (TCK_SL_MARGIN.MARGIN n)) (s.closePoint n - s.endAt (s.co c.key).cyc) ∧
      t.fget (TCK_SL_INTRUSIONS.INTRUSIONS n) = (if s.weirStart n < s.endAt (s.co c.key).cyc
        then min (2 ^ 32 - 1) (s.fget (TCK_SL_INTRUSIONS.INTRUSIONS n) + 1) else s.fget (TCK_SL_INTRUSIONS.INTRUSIONS n)) ∧
      t = { s with core := t.core, regs := t.regs } ∧ ∀ j, j ≠ c.key → t.co j = s.co j := by
  have e : exec (.endEntry c) s = done s ((s.modCo c.key (fun c => { c with atEnd := true })).endNoted n
      (s.endAt (s.co c.key).cyc) (s.closePoint n)) := by
    show execEndEntry c s = _
    unfold execEndEntry
    simp only [h, Nat.not_lt.2 hin, if_false]
    rfl
  have hw : (s.modCo c.key (fun c => { c with atEnd := true })).weirStart n = s.weirStart n := rfl
  have hat : (s.modCo c.key (fun c => { c with atEnd := true })).co c.key = { s.co c.key with atEnd := true } :=
    State.co_modCo_same ..
  have hone := OnlyCore.modCo s c.key (fun c => { c with atEnd := true })
  have hf (f : Fld) : (s.modCo c.key (fun c => { c with atEnd := true })).fget f = s.fget f := State.fget_modCo ..
  generalize s.modCo c.key (fun c => { c with atEnd := true }) = v at e hw hat hone hf
  obtain ⟨h1, h2, h3, -⟩ := v.endNoted_spec n (s.endAt (s.co c.key).cyc) (s.closePoint n)
  generalize v.endNoted n (s.endAt (s.co c.key).cyc) (s.closePoint n) = t at e h1 h2 h3
  have hco (j : Nat) : t.co j = v.co j := by
    rw [h3]
    rfl
  have ht : t = { s with core := t.core, regs := t.regs } := by
    have hv := hone.1
    rw [hv] at h3
    rw [h3]
  exact runs_done e (by rw [ht]) (by rw [ht]) (by rw [ht]) ⟨(hco _).trans hat, by rw [h1, hf], by rw [h2, hf, hw], ht,
    fun j hj => (hco j).trans (hone.2 j hj)⟩

end

/-! ### In ports (R108, R110, R289, R290) -/

section
variable {s : State} {c : CoreId} {n : Nat} {port : Bool}

/-- A byte after one more byte has been written. -/
theorem CoreSt.after_append (x : CoreSt) (cfg : CoreCfg) (w : List (Nat × Byte)) (e : Nat × Byte) (y : Nat) :
    x.after cfg (w ++ [e]) y = if writeByte cfg x.odd (e.1 / 32) (e.1 % 32) = y then e.2 else x.after cfg w y := by
  unfold CoreSt.after
  rw [List.reverse_append, List.reverse_singleton, List.singleton_append, List.find?_cons]
  by_cases h : writeByte cfg x.odd (e.1 / 32) (e.1 % 32) = y
  · simp [h]
  · simp [h]

theorem CoreSt.write_append (x : CoreSt) (cfg : CoreCfg) (w : List (Nat × Byte)) (e : Nat × Byte) :
    x.write cfg (w ++ [e]) = (x.write cfg w).write cfg [e] := List.foldl_append

/-- The banks after bytes have been written. -/
theorem CoreSt.banks_write (x : CoreSt) (cfg : CoreCfg) (w : List (Nat × Byte)) :
    (x.write cfg w).odd = x.odd ∧ ∀ y, Store.get byteZero (x.write cfg w).banks y = x.after cfg w y := by
  induction w using List.reverseRecOn with
  | nil => exact ⟨rfl, fun _ => rfl⟩
  | append_singleton w e ih =>
    obtain ⟨hodd, hget⟩ := ih
    rw [CoreSt.write_append]
    refine ⟨hodd, fun y => ?_⟩
    have hp : Store.get byteZero ((x.write cfg w).write cfg [e]).banks y = Store.get byteZero
        (Store.put byteZero (x.write cfg w).banks (writeByte cfg (x.write cfg w).odd (e.1 / 32) (e.1 % 32)) e.2) y := rfl
    rw [hp, CoreSt.after_append, hodd]
    by_cases h : writeByte cfg x.odd (e.1 / 32) (e.1 % 32) = y
    · rw [if_pos h, h, Store.get_put_same]
    · rw [if_neg h, Store.get_put_other _ _ (Ne.symm h), hget]

theorem CoreSt.inp_modIn (x : CoreSt) (port : Bool) (f : InPort → InPort) : (x.modIn port f).inp port = f (x.inp port) := by
  cases port <;> rfl

theorem CoreSt.banks_modIn (x : CoreSt) (port : Bool) (f : InPort → InPort) : (x.modIn port f).banks = x.banks := by
  cases port <;> rfl

theorem CoreSt.inp_write (x : CoreSt) (cfg : CoreCfg) (w : List (Nat × Byte)) (port : Bool) :
    (x.write cfg w).inp port = x.inp port := by
  unfold CoreSt.write
  exact List.foldlRecOn (motive := fun y : CoreSt => y.inp port = x.inp port) _ _ rfl fun y hy e _ => by
    rw [← hy]
    cases port <;> rfl

theorem CoreSt.landStream_one (x : CoreSt) (cfg : CoreCfg) (port : Bool) (u : XUnit)
    (h : (x.inp port).fill < (cfg.inw port).cap * (cfg.inw port).stride) : CoreSt.landStream cfg port [u] x =
      (x.write cfg (bytesAt (32 * ((cfg.inw port).base + (x.inp port).fill)) (leBytes 32 u.toNat))).modIn port
        (fun y => { y with fill := y.fill + 1 }) := by
  unfold CoreSt.landStream
  exact if_pos h

theorem State.landing_unit_spec (hctx : s.ctxHolding (corePart c.key) = some n) (u : XUnit) (hw : s.working n = true)
    (hmode : ((s.coreCfg n c.key).inw port).mode = 0)
    (hfill : ((s.co c.key).inp port).fill < ((s.coreCfg n c.key).inw port).cap * ((s.coreCfg n c.key).inw port).stride) :
    Runs (.inPortLanding c port (.unit u)) s fun t =>
      (∀ y, Store.get byteZero (t.co c.key).banks y = (s.co c.key).after (s.coreCfg n c.key)
        (bytesAt (32 * (((s.coreCfg n c.key).inw port).base + ((s.co c.key).inp port).fill)) (leBytes 32 u.toNat)) y) ∧
      ((t.co c.key).inp port) = { (s.co c.key).inp port with fill := ((s.co c.key).inp port).fill + 1 } ∧
      OnlyCore c.key s t := by
  have hcap : ((s.coreCfg n c.key).inw port).cap ≠ 0 := by
    intro h0
    rw [h0, Nat.zero_mul] at hfill
    omega
  have e : exec (.inPortLanding c port (.unit u)) s =
      done s (s.modCo c.key (CoreSt.landStream (s.coreCfg n c.key) port [u])) := by
    show done s (s.landUnit c.key port u) = _
    unfold State.landUnit
    simp only [hctx, hw, hcap, hmode, Bool.not_true, ne_eq, not_true_eq_false, decide_false, Bool.or_self, Bool.false_eq_true,
      if_false]
  refine runs_onlyCore e (.modCo s _ _) ⟨fun y => ?_, ?_, .modCo s _ _⟩
  · rw [State.co_modCo_same, CoreSt.landStream_one _ _ _ _ hfill, CoreSt.banks_modIn]
    exact (CoreSt.banks_write ..).2 y
  · rw [State.co_modCo_same, CoreSt.landStream_one _ _ _ _ hfill, CoreSt.inp_modIn, CoreSt.inp_write]

theorem State.landing_packet_spec (hctx : s.ctxHolding (corePart c.key) = some n) (p : Packet) (ht : s.takes n p = true)
    (hcap : ((s.coreCfg n c.key).inw port).cap ≠ 0) (hfits : modeFits ((s.coreCfg n c.key).inw port).mode p = true)
    (hseq : p.seq.toNat < p.count.toNat) :
    (((s.co c.key).inp port).holds p = false → Runs (.inPortLanding c port (.packet p)) s fun t =>
      t.co c.key = ((s.co c.key).landPacket (s.coreCfg n c.key) port p).modIn port (fun x => x.count p) ∧
      OnlyCore c.key s t) ∧
    (((s.co c.key).inp port).holds p = true → Runs (.inPortLanding c port (.packet p)) s fun t =>
      t.core = s.core ∧ t.mem = s.mem ∧ OnlyRegs [PRT_RED_DUP.off (corePart c.key)] s t) := by
  have e : exec (.inPortLanding c port (.packet p)) s = done s (s.landing c.key port p) := rfl
  unfold State.landing at e
  simp only [hctx, ht, hcap, hfits, Nat.not_le.2 hseq, Bool.not_true, decide_false, Bool.or_self, Bool.false_eq_true,
    if_false] at e
  refine ⟨fun hh => ?_, fun hh => ?_⟩
  · simp only [hh, Bool.false_eq_true, if_false] at e
    exact runs_onlyCore e (.modCo s _ _) ⟨State.co_modCo_same .., .modCo s _ _⟩
  · simp only [hh, if_true] at e
    exact runs_done e rfl rfl rfl ⟨rfl, rfl, .fset s _ _ (List.mem_singleton.2 rfl)⟩

end

end Sys2Proof.Machine
end

-- SEND and the status poll

/-! PROOF of O36: SEND, and a core that does not answer. -/

section
namespace Sys2Proof.Machine

/-! ### An entry that runs to its end (R106, R133, R504) -/

section
variable {s t u : State} {n k : Nat} {d : Desc} {b : Banks}

theorem State.received_cases (s : State) (n k : Nat) (port : Bool) :
    (s.received n k port).2 = s ∨ (s.received n k port).2 = { s with draws := s.draws + 1 } := by
  unfold State.received
  extract_lets w cnt
  split
  · exact .inl rfl
  · exact .inl rfl
  · exact .inr rfl

/-- The rows of an entry may take a draw, and change nothing else. -/
theorem State.rowsOf_cases (s : State) (n k : Nat) (d : Desc) :
    (s.rowsOf n k d).2 = s ∨ (s.rowsOf n k d).2 = { s with draws := s.draws + 1 } := by
  unfold State.rowsOf
  split
  · exact s.received_cases n k d.pin
  · exact .inl rfl

theorem State.entry_issues {p : Desc → Bool} {plan : Banks → Desc → Nat → CoreSt → Rng → Plan}
    (h : s.entryAt k p = some (n, d)) (hw : (s.co k).work = none) : s.entry k none p plan =
      (s.rowsOf n k d).2.runPlan n k d ((s.rowsOf n k d).2.coreBanks n k) none
        (plan ((s.rowsOf n k d).2.coreBanks n k) d (s.rowsOf n k d).1 ((s.rowsOf n k d).2.co k)
          ((s.rowsOf n k d).2.coreRng n k)) := by
  unfold State.entry
  simp only [h, hw]

/-- An entry whose rest meets no bad read and finds credit runs to its end. -/
theorem State.runPlan_ends {p : Plan} (hstall : (s.co k).stalled = false) (hprog : (s.co k).prog = 0)
    (hcredit : stallAt (p.window 0 none).emit 0 ((s.co k).outHeld d.pout) = none)
    (hgood : s.firstBad b k (p.window 0 none).reads = none) : s.runPlan n k d b none p =
      (s.carry n k d b (p.window 0 none)).modCo k (fun c =>
        { c with accs := p.accs, maxs := p.maxs, rng := some p.rng }.advance 1 p.cyc) := by
  unfold State.runPlan
  simp only [hstall, hprog, hcredit, hgood, Bool.false_and, Bool.false_eq_true, if_false, minOpt]

/-- A core that has dropped rows and shown flags: its status alone differs. -/
def CoreSt.StatOnly (x y : CoreSt) : Prop := y = { x with stat := y.stat, drops := y.drops }

theorem CoreSt.statOnly_drops {α : Type} (x : CoreSt) (l : List α) : x.StatOnly (l.foldl (fun c _ => c.drop) x) :=
  List.foldlRecOn (motive := x.StatOnly) _ _ rfl fun y hy _ _ => by
    unfold CoreSt.StatOnly at *
    rw [hy]
    rfl

/-- Packets emitted join the packets that wait at the out port. -/
theorem CoreSt.emit_packets (cfg : CoreCfg) (port : Bool) (l : List (Nat × Packet)) (x : CoreSt) :
    (l.map (fun e => (e.1, Emit.packet e.2))).foldl (fun c e => c.emit cfg port e.2) x =
      { x with sends := x.sends ++ l.map (fun e => (port, e.2)) } := by
  induction l generalizing x with
  | nil => simp
  | cons e l ih =>
    rw [List.map_cons, List.foldl_cons, ih]
    simp [CoreSt.emit]

theorem CoreSt.statOnly_flag (x : CoreSt) (flags : Nat) : x.StatOnly (x.flag flags) := rfl

theorem CoreSt.StatOnly.trans {x y z : CoreSt} (h : x.StatOnly y) (h' : y.StatOnly z) : x.StatOnly z := by
  unfold CoreSt.StatOnly at *
  rw [h] at h'
  exact h'

/-- No flag, no trap (R113, R135). -/
theorem State.coreFlags_none (s : State) (n k trap : Nat) : s.coreFlags n k trap {} = s.modCo k (fun c => c.flag 0) := rfl

/-- A part of a plan that only sends, carried out. -/
theorem State.carry_sends {w : Plan} (hitems : w.items = []) (l : List (Nat × Packet))
    (hemit : w.emit = l.map (fun e => (e.1, Emit.packet e.2))) :
    CoreSt.StatOnly { s.co k with sends := (s.co k).sends ++ l.map (fun e => (d.pout, e.2)) } ((s.carry n k d b w).co k) ∧
      OnlyCore k s (s.carry n k d b w) := by
  have hcarry : s.carry n k d b w = (s.modCo k fun _ => w.drops.foldl (fun c _ => c.drop)
      { s.co k with sends := (s.co k).sends ++ l.map (fun e => (d.pout, e.2)) }).modCo k (fun c => c.flag 0) := by
    unfold State.carry
    rw [hitems, hemit, CoreSt.items]
    dsimp only
    rw [CoreSt.emit_packets, State.coreFlags_none]
  rw [hcarry, State.co_modCo_same, State.co_modCo_same]
  exact ⟨(CoreSt.statOnly_drops _ _).trans (CoreSt.statOnly_flag _ _), (OnlyCore.modCo s k _).trans (.modCo _ k _)⟩

/-- What an entry that only sends leaves: its packets wait at the out port, and the core comes to the next entry. -/
theorem State.runPlan_sends {p : Plan} (l : List (Nat × Packet)) (hitems : p.items = [])
    (hemit : p.emit = l.map (fun e => (e.1, Emit.packet e.2))) (hpos : ∀ e ∈ l, 0 < e.1)
    (hstall : (s.co k).stalled = false) (hprog : (s.co k).prog = 0)
    (hcredit : stallAt p.emit 0 ((s.co k).outHeld d.pout) = none)
    (hgood : p.reads.all (fun x => !s.unitBad b k x.2) = true) :
    ((s.runPlan n k d b none p).co k).sends = (s.co k).sends ++ l.map (fun e => (d.pout, e.2)) ∧
      ((s.runPlan n k d b none p).co k).entry = (s.co k).entry + 1 ∧
      ((s.runPlan n k d b none p).co k).cyc = (s.co k).cyc + p.cyc ∧
      ((s.runPlan n k d b none p).co k).banks = (s.co k).banks ∧ OnlyCore k s (s.runPlan n k d b none p) := by
  have hw : (p.window 0 none).emit = p.emit := by
    refine List.filter_eq_self.2 fun e he => ?_
    rw [hemit, List.mem_map] at he
    obtain ⟨x, hx, rfl⟩ := he
    simpa using hpos x hx
  have hwi : (p.window 0 none).items = [] := by
    show p.items.filter _ = []
    rw [hitems]
    rfl
  have hwg : s.firstBad b k (p.window 0 none).reads = none :=
    State.firstBad_of_good (List.all_eq_true.2 fun x hx => List.all_eq_true.1 hgood x (List.mem_filter.1 hx).1)
  rw [State.runPlan_ends hstall hprog (by rwa [hw]) hwg]
  obtain ⟨hstat, honly⟩ := State.carry_sends (s := s) (n := n) (k := k) (d := d) (b := b) hwi l (hw.trans hemit)
  generalize s.carry n k d b (p.window 0 none) = v at hstat honly
  rw [State.co_modCo_same]
  unfold CoreSt.StatOnly at hstat
  rw [hstat]
  exact ⟨rfl, rfl, rfl, rfl, honly.trans (.modCo v k _)⟩

end

/-! ### SEND (R126, R127, R128) -/

section
variable {s : State} {n k : Nat} {d : Desc} {b : Banks}

theorem sendStart_pos (d : Desc) (rows r j : Nat) : 0 < sendStart d rows r j := by
  unfold sendStart
  omega

theorem State.replyRows_cyc {rows : Nat} {x : SendRow} (h : some x ∈ s.replyRows n k d b rows) : 0 < x.cyc := by
  unfold State.replyRows at h
  obtain ⟨r, -, hr⟩ := List.mem_map.1 h
  dsimp only at hr
  split at hr
  · cases hr
    exact sendStart_pos ..
  · cases hr

theorem State.dispatchRows_cyc {rows : Nat} {x : SendRow} (h : some x ∈ s.dispatchRows n k d b rows) : 0 < x.cyc := by
  unfold State.dispatchRows at h
  extract_lets q src win at h
  obtain ⟨r, -, hr⟩ := List.mem_flatMap.1 h
  obtain ⟨j, -, hj⟩ := List.mem_filterMap.1 hr
  extract_lets sel at hj
  split at hj
  · cases hj
  · split at hj
    · cases hj
      exact sendStart_pos ..
    · cases hj

/-- The rows of a SEND in one of its modes. -/
def State.sendRows (s : State) (n k : Nat) (reply : Bool) (d : Desc) (b : Banks) (rows : Nat) : List (Option SendRow) :=
  if reply then s.replyRows n k d b rows else s.dispatchRows n k d b rows

theorem State.sendRows_cyc {reply : Bool} {rows : Nat} {x : SendRow} (h : some x ∈ s.sendRows n k reply d b rows) :
    0 < x.cyc := by
  unfold State.sendRows at h
  split at h
  · exact State.replyRows_cyc h
  · exact State.dispatchRows_cyc h

theorem State.sendMsgs_pos {typ last : Nat} {src : Word} {rows : List SendRow} (h : ∀ r ∈ rows, 0 < r.cyc) :
    ∀ e ∈ s.sendMsgs n k typ src last rows, 0 < e.1 := by
  intro e he
  unfold State.sendMsgs at he
  rcases List.mem_append.1 he with he | he
  · obtain ⟨i, hi, rfl⟩ := List.mem_map.1 he
    have hlt := List.mem_range.1 hi
    dsimp only
    rw [List.getD_eq_getElem _ _ hlt]
    exact h _ (List.getElem_mem hlt)
  · obtain ⟨w, -, rfl⟩ := List.mem_map.1 he
    exact Nat.succ_pos _

/-- The messages of a SEND in one of its modes. -/
def State.sendOut (s : State) (n k : Nat) (src : Word) (reply : Bool) (d : Desc) (b : Banks) (rows : Nat) : List (Nat × Packet) :=
  s.sendMsgs n k (if reply then 2 else 1) src
    (6 + rows + rows * (if d.sub.testBit 1 then 2 else 1) * sendRowCycles d)
    ((s.sendRows n k reply d b rows).filterMap id)

theorem State.sendOut_pos {reply : Bool} {rows : Nat} : ∀ e ∈ s.sendOut n k src reply d b rows, 0 < e.1 :=
  State.sendMsgs_pos fun r hr => by
    obtain ⟨_, ha, rfl⟩ := List.mem_filterMap.1 hr
    exact State.sendRows_cyc ha

/-- A draw taken changes neither what a SEND reads nor what it sends. -/
theorem State.send_drawn {u : State} (hu : u = s ∨ u = { s with draws := s.draws + 1 }) (reply : Bool) (rows : Nat) :
    u.coreBanks n k = s.coreBanks n k ∧ u.co k = s.co k ∧ u.sendOut n k src reply d b rows = s.sendOut n k src reply d b rows ∧
      ∀ x, u.unitBad b k x = s.unitBad b k x := by
  rcases hu with rfl | rfl
  · exact ⟨rfl, rfl, rfl, fun _ => rfl⟩
  · exact ⟨rfl, rfl, rfl, fun _ => rfl⟩

theorem State.send_spec {reply : Bool} {i : Instr} (e : exec i s = done s (s.sendEntry k none reply))
    (hent : s.entryAt k (fun d => d.op = 9 && d.sub.testBit 0 == reply) = some (n, d)) (hwork : (s.co k).work = none)
    (hprog : (s.co k).prog = 0) (hstall : (s.co k).stalled = false)
    (hgood : (sendReads (s.coreBanks n k) d (s.rowsOf n k d).1).all (fun x => !s.unitBad (s.coreBanks n k) k x.2) = true)
    (hcredit : stallAt (((s.rowsOf n k d).2.sendOut n k (s.coreEp k (d.sub.testBit 2)) reply d (s.coreBanks n k) (s.rowsOf n k d).1).map
      (fun x => (x.1, Emit.packet x.2))) 0 ((s.co k).outHeld d.pout) = none) : Runs i s fun t =>
      (t.co k).sends = (s.co k).sends ++
        ((s.rowsOf n k d).2.sendOut n k (s.coreEp k (d.sub.testBit 2)) reply d (s.coreBanks n k) (s.rowsOf n k d).1).map (fun x => (d.pout, x.2)) ∧
      (t.co k).entry = (s.co k).entry + 1 ∧
      (t.co k).cyc = (s.co k).cyc + entryCycles d (s.rowsOf n k d).1 (s.coreBanks n k).cfg.dispLen ∧
      (t.co k).banks = (s.co k).banks ∧ OnlyCore k (s.rowsOf n k d).2 t := by
  unfold State.sendEntry at e
  rw [hent] at e
  rw [State.entry_issues hent hwork] at e
  have hu := s.rowsOf_cases n k d
  generalize s.rowsOf n k d = ru at *
  obtain ⟨r, u⟩ := ru
  dsimp only at *
  obtain ⟨hb, hco, hsent, hbad⟩ := State.send_drawn (n := n) (k := k) (d := d) (b := s.coreBanks n k)
    (src := s.coreEp k (d.sub.testBit 2)) hu reply r
  rw [hb, hco] at e
  rw [hsent] at hcredit ⊢
  rw [Option.map_some, Option.getD_some] at e
  have h := State.runPlan_sends (s := u) (n := n) (k := k) (d := d) (b := s.coreBanks n k)
    (p := s.planSend n k reply (s.coreBanks n k) d r (s.co k) (u.coreRng n k))
    (s.sendOut n k (s.coreEp k (d.sub.testBit 2)) reply d (s.coreBanks n k) r) rfl rfl State.sendOut_pos (by rw [hco]; exact hstall)
    (by rw [hco]; exact hprog) (by rw [hco]; exact hcredit) (by simp only [hbad]; exact hgood)
  rw [hco] at h
  have honly := h.2.2.2.2
  have hdone : done s (u.runPlan n k d (s.coreBanks n k) none
      (s.planSend n k reply (s.coreBanks n k) d r (s.co k) (u.coreRng n k))) = .next (u.runPlan n k d (s.coreBanks n k) none
      (s.planSend n k reply (s.coreBanks n k) d r (s.co k) (u.coreRng n k))) := by
    refine done_of_kept ?_ ?_ ?_
    all_goals
      rw [honly.1]
      rcases hu with rfl | rfl <;> rfl
  exact ⟨_, e.trans hdone, h⟩

end

/-! ### CORE_STATUS_POLL (R365) -/

section
variable {s t u : State}

/-- What noting that a unit has failed changes beside the collector: the unit waits, and a tick under way is aborted. -/
structure UnitNoted (p : Fin 16) (r : Retiree) (s t : State) : Prop where
  pending : t.pending = s.pending
  now : t.now = s.now
  fuses : t.fuses = s.fuses
  core : t.core = s.core
  eng : t.eng = s.eng
  mem : t.mem = s.mem
  waits : r ∈ (t.pt p.val).waiting

theorem State.waiting_retire (s : State) (p : Fin 16) (r : Retiree) : r ∈ ((s.retire p r).pt p.val).waiting := by
  rw [State.retire, State.pt_modPt_same]
  unfold PartSt.await
  split
  next h => simpa using h
  next h => exact List.mem_append.2 (.inr (List.mem_singleton.2 rfl))

theorem UnitNoted.unitFailed (s : State) (p : Fin 16) (r : Retiree) (code cause : Nat) (src : Word) :
    UnitNoted p r s (s.unitFailed p r code cause src) := by
  unfold State.unitFailed
  extract_lets spare busy s1 s2
  have h1 : FaultOnly s s1 := .ite (.raiseAs s 2 code src 0 0 (by decide)) (.ite (.raise s _ _ _ _) (.raiseFor s _ _ _ _ _))
  have h2 : UnitNoted p r s s2 :=
    ⟨h1.pending, h1.now, h1.fuses, h1.core, h1.eng, h1.mem, s1.waiting_retire p r⟩
  clear_value s2
  split
  next n _ =>
    split
    next ht =>
      have h3 := (State.abortTick_only ht cause).trans (.addRepair (s2.abortTick n cause) (Retiree.repair p r))
      generalize (s2.abortTick n cause).addRepair n (Retiree.repair p r) = v at h3
      obtain ⟨h4, -⟩ := h3
      refine ⟨?_, ?_, ?_, ?_, ?_, ?_, ?_⟩
      all_goals rw [h4]
      · exact h2.pending
      · exact h2.now
      · exact h2.fuses
      · exact h2.core
      · exact h2.eng
      · exact h2.mem
      · exact h2.waits
    next => exact h2
  next => exact h2

theorem State.coreStatusPoll_spec (s : State) (c : CoreId) : Runs (.coreStatusPoll c false) s fun t =>
    t.co c.key = { s.co c.key with silent := true } ∧ .core c.clus c.core ∈ (t.pt c.part.val).waiting ∧
    (∀ j, j ≠ c.key → t.co j = s.co j) ∧ t.mem = s.mem ∧ t.eng = s.eng := by
  have e : exec (.coreStatusPoll c false) s = done s ((s.modCo c.key (fun x => { x with silent := true })).unitFailed c.part
    (.core c.clus c.core) 0x0207 0xFF (s.coreSrc c.key)) := rfl
  have hat : (s.modCo c.key (fun x => { x with silent := true })).co c.key = { s.co c.key with silent := true } :=
    State.co_modCo_same ..
  have hone := OnlyCore.modCo s c.key (fun x => { x with silent := true })
  generalize s.modCo c.key (fun x => { x with silent := true }) = v at e hat hone
  have h := UnitNoted.unitFailed v c.part (.core c.clus c.core) 0x0207 0xFF (s.coreSrc c.key)
  generalize v.unitFailed c.part (.core c.clus c.core) 0x0207 0xFF (s.coreSrc c.key) = t at e h
  obtain ⟨hv, hother⟩ := hone
  have hco (j : Nat) : t.co j = v.co j := by
    unfold State.co
    rw [h.core]
  exact runs_done e (h.pending.trans (by rw [hv])) (h.now.trans (by rw [hv])) (h.fuses.trans (by rw [hv]))
    ⟨(hco _).trans hat, h.waits, fun j hj => (hco j).trans (hother j hj), h.mem.trans (by rw [hv]), h.eng.trans (by rw [hv])⟩

end

/-- Settles O36. -/
theorem coreControl : Obligations.CoreControl := by
  unfold Obligations.CoreControl
  intro s c
  refine ⟨fun n d e he => ?_, fun n d e he h => ?_, fun n => State.waitEnd_runs, fun n d => State.skipZero_spec,
    fun n d => State.skipEmpty_spec, fun n d h hin _ => State.endEntry_spec h hin, fun n port hctx => ⟨?_, ?_⟩, ?_,
    s.coreStatusPoll_spec c⟩
  · rw [List.mem_cons, List.mem_singleton] at he
    rcases he with rfl | rfl
    · exact State.send_spec (i := .sendDispatch ⟨c, none⟩) (reply := false) rfl
    · exact State.send_spec (i := .sendReply ⟨c, none⟩) (reply := true) rfl
  · simp only [List.mem_cons, List.not_mem_nil, or_false] at he
    rcases he with rfl | rfl | rfl
    · exact State.wait_spec rfl h
    · exact State.wait_spec rfl h
    · exact State.wait_spec rfl h
  · exact fun u => State.landing_unit_spec hctx u
  · exact fun p => State.landing_packet_spec hctx p
  · exact runs_done (u := s) rfl rfl rfl rfl rfl

end Sys2Proof.Machine
end

-- Host commands
/-! SUPPORT for O56: how a host command begins, goes through its phases and ends (R306, R323). -/
section
namespace Sys2Proof.Machine

/-! ### What showing a command's end changes -/

/-- Two states that differ only in signals, in FAB_CMD_STAT and the interrupt causes, and in the registers of a list. -/
def ShownOnly (l : List Nat) (s t : State) : Prop :=
  t = { s with regs := t.regs, out := t.out } ∧
    ∀ o, o ≠ FAB_CMD_STAT.off → o ≠ HUB_PCIE_IRQ.off → o ∉ l → t.reg o = s.reg o

section
variable {s t u : State} {l l' : List Nat}

theorem ShownOnly.refl (s : State) : ShownOnly l s s := ⟨rfl, fun _ _ _ _ => rfl⟩

theorem ShownOnly.trans (h : ShownOnly l s t) (k : ShownOnly l t u) : ShownOnly l s u := by
  obtain ⟨h, hr⟩ := h
  obtain ⟨k, kr⟩ := k
  refine ⟨?_, fun o ho hi hl => (kr o ho hi hl).trans (hr o ho hi hl)⟩
  rw [h] at k
  exact k

theorem ShownOnly.mono (h : ShownOnly l s t) (hl : ∀ o ∈ l, o ∈ l') : ShownOnly l' s t :=
  ⟨h.1, fun o ho hi k => h.2 o ho hi fun j => k (hl o j)⟩

theorem OnlyRegs.shown (h : OnlyRegs l s t) : ShownOnly l s t := by
  obtain ⟨h, hr⟩ := h
  refine ⟨?_, fun o _ _ => hr o⟩
  rw [h]

theorem ShownOnly.emit (s : State) (x : Output) : ShownOnly l s (s.emit x) := ⟨rfl, fun _ _ _ _ => rfl⟩

theorem ShownOnly.fset (s : State) (f : Fld) (v : Nat) (h : f.reg = FAB_CMD_STAT.off ∨ f.reg = HUB_PCIE_IRQ.off) :
    ShownOnly l s (s.fset f v) :=
  ⟨rfl, fun _ ho hi _ => State.reg_fset_other s f v fun e => h.elim (fun k => ho (e.trans k)) fun k => hi (e.trans k)⟩

theorem ShownOnly.irq (s : State) (v : Nat) : ShownOnly l s (s.irq v) := by
  have h : ShownOnly l s (s.fset HUB_PCIE_IRQ.IRQ (s.fget HUB_PCIE_IRQ.IRQ + 2 ^ v)) := .fset s _ _ (.inr rfl)
  unfold State.irq
  dsimp only
  split
  · exact .refl s
  · split
    · exact h.trans (.emit _ _)
    · exact h

theorem State.fget_irq (s : State) (v : Nat) {f : Fld} (hf : f.reg ≠ HUB_PCIE_IRQ.off) : (s.irq v).fget f = s.fget f := by
  have h : (s.fset HUB_PCIE_IRQ.IRQ (s.fget HUB_PCIE_IRQ.IRQ + 2 ^ v)).fget f = s.fget f := State.fget_fset_reg _ _ _ _ hf
  unfold State.irq
  dsimp only
  split
  · rfl
  · split
    · exact h
    · exact h

end

/-- A command's status and number shown, with vector 1 of PF0 latched. -/
def State.showEnd (s : State) (st hseq : Nat) : State :=
  ((s.fset FAB_CMD_STAT.STATUS st).fset FAB_CMD_STAT.HSEQ hseq).irq 1

theorem State.showEnd_only (s : State) (st hseq : Nat) (l : List Nat) : ShownOnly l s (s.showEnd st hseq) :=
  ((ShownOnly.fset s FAB_CMD_STAT.STATUS st (.inl rfl)).trans (.fset _ FAB_CMD_STAT.HSEQ hseq (.inl rfl))).trans (.irq _ 1)

theorem State.showEnd_status (s : State) {st : Nat} (hseq : Nat) (h : st < 256) :
    (s.showEnd st hseq).fget FAB_CMD_STAT.STATUS = st := by
  unfold State.showEnd
  rw [State.fget_irq _ 1 (by decide), State.fget_fset_bits _ _ _ _ (by decide) (.inl (by decide))]
  exact State.fget_fset_fits s _ st (by decide) h

theorem State.showEnd_busy (s : State) (st hseq : Nat) :
    (s.showEnd st hseq).fget FAB_CMD_STAT.BUSY = s.fget FAB_CMD_STAT.BUSY := by
  unfold State.showEnd
  rw [State.fget_irq _ 1 (by decide), State.fget_fset_bits _ _ _ _ (by decide) (.inl (by decide)),
    State.fget_fset_bits _ _ _ _ (by decide) (.inl (by decide))]

theorem State.showEnd_hseq (s : State) (st : Nat) {hseq : Nat} (h : hseq < 65536) :
    (s.showEnd st hseq).fget FAB_CMD_STAT.HSEQ = hseq := by
  unfold State.showEnd
  rw [State.fget_irq _ 1 (by decide)]
  exact State.fget_fset_fits _ _ hseq (by decide) h

theorem State.showEnd_irq (s : State) (st hseq : Nat) : ((s.showEnd st hseq).fget HUB_PCIE_IRQ.IRQ).testBit 1 = true :=
  State.testBit_irq _ (by decide)

/-! ### The write of FAB_CMD -/

section
variable {s : State} {m : Master} {code : Nat} {hseq : BitVec 16}

theorem State.fabRow_admitted (h : s.admits m FAB_CMD.off (BitVec.ofNat 32 (code + hseq.toNat * 2 ^ 16)) = true) :
    s.fabRow code m hseq = s.fabCmd (BitVec.ofNat 32 (code + hseq.toNat * 2 ^ 16)) :=
  State.gate_admits h fun s => s.fabCmd _

theorem fabWord_code (hc : code < 16) : FAB_CMD.CODE.of (BitVec.ofNat 32 (code + hseq.toNat * 2 ^ 16)) = code := by
  have hlt := hseq.isLt
  simp only [Fld.of, FAB_CMD.CODE, bits, BitVec.toNat_ofNat]
  omega

theorem fabWord_hseq (hc : code < 16) : FAB_CMD.HSEQ.of (BitVec.ofNat 32 (code + hseq.toNat * 2 ^ 16)) = hseq.toNat := by
  have hlt := hseq.isLt
  simp only [Fld.of, FAB_CMD.HSEQ, bits, BitVec.toNat_ofNat, Nat.shiftRight_eq_div_pow]
  omega

/-- The command that a host's write begins. -/
def State.hostCmd (s : State) (code hseq : Nat) (told : Bool) : HostCmd := ⟨code, hseq, (List.range 16).map s.arg, 0, 0, [], told⟩

theorem State.hostCmd_arg (s : State) (code hseq : Nat) (told : Bool) {i : Nat} (hi : i < 16) :
    (s.hostCmd code hseq told).args.getD i 0 = s.arg i := by
  have e : (s.hostCmd code hseq told).args = (List.range 16).map s.arg := rfl
  rw [e, List.getD_eq_getElem _ _ (by simpa using hi), List.getElem_map, List.getElem_range]

/-- The state with a host's command begun and nothing done for it yet. -/
def State.begun (s : State) (c : HostCmd) : State :=
  { s.fset FAB_CMD_STAT.BUSY 1 with mgr := { s.mgr with cmds := [c] } }

theorem State.modCmd_begun (s : State) (c : HostCmd) (f : HostCmd → HostCmd) : (s.begun c).modCmd f = s.begun (f c) := rfl

/-- The parts of takesUp. -/
structure TakenUp (s : State) (m : Master) (code : Nat) (hseq : BitVec 16) : Prop where
  admitted : s.admits m FAB_CMD.off (BitVec.ofNat 32 (code + hseq.toNat * 2 ^ 16)) = true
  acting : s.acting = true
  free : s.flag FAB_CMD_STAT.BUSY = false
  noHandback : s.mgr.hbStep = none
  noCmd : s.mgr.cmds = []
  noAwait : s.mgr.awaits = []
  disarmed : s.mgr.toArm = false
  noCommit : s.mgr.commits = []

theorem State.takesUp_parts (h : s.takesUp m code hseq = true) : TakenUp s m code hseq := by
  simp only [State.takesUp, Bool.and_eq_true, Bool.not_eq_true', List.isEmpty_iff, Option.isNone_iff_eq_none] at h
  obtain ⟨⟨⟨⟨⟨⟨⟨h1, h2⟩, h3⟩, h4⟩, h5⟩, h6⟩, h7⟩, h8⟩ := h
  exact ⟨h1, h2, h3, h4, h5, h6, h7, h8⟩

theorem TakenUp.hubUp (h : TakenUp s m code hseq) : s.hubUp = true := by
  have ha := h.admitted
  simp only [State.admits, Bool.and_eq_true] at ha
  exact ha.1.1.1

theorem TakenUp.fabRow (h : TakenUp s m code hseq) (hc : code < 16) :
    s.fabRow code m hseq = (s.begun (s.hostCmd code hseq.toNat false)).proceed := by
  have hcond : ¬ (!s.acting || s.flag FAB_CMD_STAT.BUSY || s.mgr.hbStep.isSome) = true := by
    rw [h.acting, h.free, h.noHandback]
    decide
  have hbegun : (s.fset FAB_CMD_STAT.BUSY 1).modMgr (fun x => { x with cmds := x.cmds ++
      [⟨code, hseq.toNat, (List.range 16).map (fun i => (s.reg (FAB_CMD_ARG.off i)).toNat), 0, 0, [], false⟩] }) =
      s.begun (s.hostCmd code hseq.toNat false) := by
    have hm : s.mgr.cmds ++ [⟨code, hseq.toNat, (List.range 16).map (fun i => (s.reg (FAB_CMD_ARG.off i)).toNat), 0, 0, [], false⟩] =
        [s.hostCmd code hseq.toNat false] := by
      rw [h.noCmd]
      rfl
    exact congrArg (fun l : List HostCmd => { s.fset FAB_CMD_STAT.BUSY 1 with mgr := { s.mgr with cmds := l } }) hm
  rw [State.fabRow_admitted h.admitted]
  unfold State.fabCmd
  rw [fabWord_hseq hc, fabWord_code hc]
  dsimp only
  rw [if_neg hcond, hbegun]

end

/-! ### Phases -/

section
variable {s t u : State} {c : HostCmd} {n : Nat}

theorem State.cmdRun_none (h : u.mgr.cmds = []) : State.cmdRun n u = u := by
  cases n with
  | zero => rfl
  | succ n =>
    unfold State.cmdRun
    rw [h]

/-- A job of a command waits for no answer. -/
def MgrSt.answered (g : MgrSt) : Prop := g.awaits.any (fun a => a.job = 1) = false

theorem State.cmdRun_phase (hc : u.mgr.cmds = [c]) (ha : u.mgr.answered) (ht : c.told = true) :
    State.cmdRun (n + 1) u = State.cmdRun n (u.cmdPhase c) := by
  rw [State.cmdRun, hc]
  dsimp only
  rw [if_neg (by rw [ha]; decide), if_neg (by rw [ht]; decide)]

/-- A command is journaled before it is acted on. -/
theorem State.cmdRun_tell (hc : u.mgr.cmds = [c]) (ha : u.mgr.answered) (ht : c.told = false) :
    State.cmdRun (n + 1) u = State.cmdRun n ((u.modCmd (fun x => { x with told := true })).journal 12 1 c.body) := by
  rw [State.cmdRun, hc]
  dsimp only
  rw [if_neg (by rw [ha]; decide), if_pos (by rw [ht]; decide)]

theorem State.armTables_disarmed (h : u.mgr.toArm = false) : u.armTables = u := by
  unfold State.armTables
  rw [if_pos (by rw [h]; rfl)]

theorem State.armCommits_none (h : u.mgr.commits = []) : u.armCommits = u := by
  unfold State.armCommits
  rw [if_pos (by rw [h]; rfl)]

/-- Where no standby has joined, nothing is journaled (R310). -/
theorem State.journal_alone (h : s.mgr.sby = 0) (kind job : Nat) (d : List Byte) : s.journal kind job d = s := by
  unfold State.journal
  split
  · rfl
  · rw [if_pos h]

/-- The state with the command ended, before its status is shown. -/
def State.unqueued (s : State) : State :=
  { s with mgr := { s.mgr with cmds := [], awaits := s.mgr.awaits.filter (fun a => a.job ≠ 1) } }

/-- The end of a host's command, where no other waits: its status and number show, and it is no longer in progress. -/
theorem State.cmdEnd_spec {st : Nat} {hseq : BitVec 16} (hc : s.mgr.cmds = [c]) (hs : s.mgr.sby = 0) (hh : c.hseq = hseq.toNat)
    (hst : st < 256) : Ended st hseq (s.cmdEnd st) ∧ ∀ l, ShownOnly l s.unqueued (s.cmdEnd st) := by
  have hlt := hseq.isLt
  have e : s.cmdEnd st = (s.unqueued.fset FAB_CMD_STAT.BUSY 0).showEnd st hseq.toNat := by
    have hj (v : State) (hv : v.mgr.sby = 0) : v.journal 8 0 (leBytes 4 (v.reg FAB_CMD_STAT.off).toNat) = v :=
      State.journal_alone hv _ _ _
    unfold State.cmdEnd
    rw [hc]
    dsimp only
    rw [if_neg (by omega), hh]
    refine hj _ ?_
    refine (congrArg (fun v : State => v.mgr.sby) (ShownOnly.irq (l := []) _ 1).1).trans hs
  have hshow (l : List Nat) := (ShownOnly.fset (l := l) s.unqueued FAB_CMD_STAT.BUSY 0 (.inl rfl)).trans
    (State.showEnd_only _ st hseq.toNat l)
  rw [← e] at hshow
  refine ⟨⟨?_, ?_, ?_, ?_, ?_⟩, hshow⟩
  · rw [e]
    exact State.showEnd_status _ _ hst
  · rw [e, State.showEnd_busy]
    exact State.fget_fset_fits _ _ 0 (by decide) (by decide)
  · rw [e]
    exact State.showEnd_hseq _ _ hlt
  · rw [(hshow []).1]
    rfl
  · rw [e]
    exact State.showEnd_irq _ _ _

end

/-! ### A command in one of its phases -/

/-- The state with a command in progress that has changed nothing but FAB_CMD_STAT and the registers of a list: `v` is the state
that the command's end leaves, but for what shows that end. -/
def AtCmd (l : List Nat) (c : HostCmd) (v u : State) : Prop :=
  ShownOnly l { v with mgr := { v.mgr with cmds := [c] } } u

section
variable {s t u v : State} {c d : HostCmd} {l l' : List Nat} {n : Nat}

theorem AtCmd.cmds (h : AtCmd l c v u) : u.mgr.cmds = [c] := by
  rw [h.1]

theorem AtCmd.mgr (h : AtCmd l c v u) : u.mgr = { v.mgr with cmds := [c] } := by
  rw [h.1]

theorem AtCmd.reg (h : AtCmd l c v u) {o : Nat} (ho : o ≠ FAB_CMD_STAT.off) (hi : o ≠ HUB_PCIE_IRQ.off) (hl : o ∉ l) :
    u.reg o = v.reg o := h.2 o ho hi hl

theorem AtCmd.shown (h : AtCmd l c v u) (k : ShownOnly l u t) : AtCmd l c v t := ShownOnly.trans h k

theorem AtCmd.mono (h : AtCmd l c v u) (hl : ∀ o ∈ l, o ∈ l') : AtCmd l' c v u := ShownOnly.mono h hl

theorem AtCmd.modCmd (h : AtCmd l c v u) (f : HostCmd → HostCmd) : AtCmd l (f c) v (u.modCmd f) := by
  obtain ⟨e, hr⟩ := h
  refine ⟨?_, hr⟩
  unfold State.modCmd State.modMgr
  rw [e]

theorem AtCmd.nextPhase (h : AtCmd l c v u) : AtCmd l { c with phase := c.phase + 1, got := [] } v u.nextPhase :=
  h.modCmd _

theorem AtCmd.begun (s : State) (c : HostCmd) : AtCmd l c s (s.begun c) :=
  ⟨rfl, fun _ ho _ _ => State.reg_fset_other s _ _ ho⟩

/-- Two states that differ in no register but FAB_CMD_STAT and the interrupt causes. -/
def ShownRegs (s t : State) : Prop := ∀ o, o ≠ FAB_CMD_STAT.off → o ≠ HUB_PCIE_IRQ.off → t.reg o = s.reg o

theorem ShownRegs.fget (h : ShownRegs s t) {f : Fld} (ho : f.reg ≠ FAB_CMD_STAT.off) (hi : f.reg ≠ HUB_PCIE_IRQ.off) :
    t.fget f = s.fget f := by
  unfold State.fget
  rw [h _ ho hi]

/-- The state before a command, with no other in progress and nothing awaited. -/
structure MgrSt.Ready (g : MgrSt) : Prop where
  alone : g.sby = 0
  noCmd : g.cmds = []
  noAwait : g.awaits = []
  disarmed : g.toArm = false
  noCommit : g.commits = []

theorem AtCmd.answered (h : AtCmd l c v u) (hv : v.mgr.Ready) : u.mgr.answered := by
  unfold MgrSt.answered
  rw [h.mgr]
  dsimp only
  rw [hv.noAwait]
  rfl

theorem AtCmd.phase (h : AtCmd l c v u) (hv : v.mgr.Ready) (ht : c.told = true) :
    State.cmdRun (n + 1) u = State.cmdRun n (u.cmdPhase c) :=
  State.cmdRun_phase h.cmds (h.answered hv) ht

/-- Without the command, the state is the one that it leaves. -/
theorem AtCmd.unqueued (h : AtCmd l c v u) (hv : v.mgr.Ready) : ShownOnly l v u.unqueued := by
  obtain ⟨e, hr⟩ := h
  refine ⟨?_, hr⟩
  have hm : v.mgr = { v.mgr with cmds := [], awaits := v.mgr.awaits.filter (fun a => a.job ≠ 1) } := by
    rw [hv.noAwait, List.filter_nil, ← hv.noCmd, ← hv.noAwait]
  unfold State.unqueued
  rw [e]
  conv_rhs => rw [hm]

/-- A command that ends leaves the state without it, and what shows its end. -/
theorem AtCmd.ended (h : AtCmd l c v u) (hv : v.mgr.Ready) {st : Nat} {hseq : BitVec 16} (hh : c.hseq = hseq.toNat)
    (hst : st < 256) : Ended st hseq (u.cmdEnd st) ∧ ShownOnly l v (u.cmdEnd st) ∧ ShownRegs u (u.cmdEnd st) := by
  have hk := State.cmdEnd_spec h.cmds (by rw [h.mgr]; exact hv.alone) hh hst
  exact ⟨hk.1, (h.unqueued hv).trans (hk.2 l), fun o ho hi => (hk.2 []).2 o ho hi List.not_mem_nil⟩

end

/-! ### A host command from its write to its end -/

section
variable {s u v : State} {m : Master} {code : Nat} {hseq : BitVec 16} {i : Instr} {P : State → Prop} {c : HostCmd} {l : List Nat}

theorem TakenUp.ready (h : TakenUp s m code hseq) (hs : s.mgr.sby = 0) : s.mgr.Ready :=
  ⟨hs, h.noCmd, h.noAwait, h.disarmed, h.noCommit⟩

/-- A command taken up without a standby goes on to its phases. -/
theorem TakenUp.runs (h : TakenUp s m code hseq) (hs : s.mgr.sby = 0) (hc : code < 16)
    (e : exec i s = done s (s.fabRow code m hseq))
    (hrun : State.cmdRun 99 (s.begun (s.hostCmd code hseq.toNat true)) = u) (harm : u.armTables.armCommits = v)
    (hq : v.pending = s.pending) (hnow : v.now = s.now) (hf : v.fuses = s.fuses) (hP : P v) : Runs i s P := by
  have ht : State.cmdRun 100 (s.begun (s.hostCmd code hseq.toNat false)) = u := by
    rw [State.cmdRun_tell (c := s.hostCmd code hseq.toNat false) rfl ((AtCmd.begun (l := []) s _).answered (h.ready hs)) rfl,
      State.modCmd_begun, State.journal_alone (s := s.begun _) hs]
    exact hrun
  refine runs_done (u := v) ?_ hq hnow hf hP
  rw [e, h.fabRow hc, State.proceed, ht, harm]

/-- A command whose phases come to its end, `v` being the state that they leave. -/
theorem TakenUp.runs_end (h : TakenUp s m code hseq) (hs : s.mgr.sby = 0) (hc : code < 16)
    (e : exec i s = done s (s.fabRow code m hseq)) {n st : Nat}
    (hrun : State.cmdRun 99 (s.begun (s.hostCmd code hseq.toNat true)) = State.cmdRun n (u.cmdEnd st))
    (hu : AtCmd l c v u) (hv : v.mgr.Ready) (hh : c.hseq = hseq.toNat) (hst : st < 256) (hq : v.pending = s.pending)
    (hnow : v.now = s.now) (hf : v.fuses = s.fuses) (hP : ∀ t, Ended st hseq t → ShownOnly l v t → ShownRegs u t → P t) :
    Runs i s P := by
  obtain ⟨hend, hshown, hregs⟩ := hu.ended hv hh hst
  have hm : (u.cmdEnd st).mgr = v.mgr := by rw [hshown.1]
  rw [State.cmdRun_none hend.2.2.2.1] at hrun
  refine h.runs hs hc e hrun (v := u.cmdEnd st) ?_ ?_ ?_ ?_ (hP _ hend hshown hregs)
  · rw [State.armTables_disarmed (by rw [hm]; exact hv.disarmed), State.armCommits_none (by rw [hm]; exact hv.noCommit)]
  · rw [hshown.1]
    exact hq
  · rw [hshown.1]
    exact hnow
  · rw [hshown.1]
    exact hf

/-- A command that its first phase ends. -/
theorem TakenUp.runs_at_once (h : TakenUp s m code hseq) (hs : s.mgr.sby = 0) (hc : code < 16)
    (e : exec i s = done s (s.fabRow code m hseq)) {st : Nat}
    (hphase : (s.begun (s.hostCmd code hseq.toNat true)).cmdPhase (s.hostCmd code hseq.toNat true) =
      (s.begun (s.hostCmd code hseq.toNat true)).cmdEnd st) (hst : st < 256) :
    Runs i s fun t => Ended st hseq t ∧ ShownOnly [] s t := by
  have hb := AtCmd.begun (l := []) s (s.hostCmd code hseq.toNat true)
  refine h.runs_end hs hc e (n := 98) (u := s.begun (s.hostCmd code hseq.toNat true)) (st := st) ?_ hb (h.ready hs) rfl hst
    rfl rfl rfl fun t h1 h2 _ => ⟨h1, h2⟩
  rw [hb.phase (h.ready hs) rfl, hphase]

end

end Sys2Proof.Machine
end

-- What a command in progress reads
/-! SUPPORT for O56: what a command's progress leaves of the registers, LPDDR5 and its own arguments. -/
section
namespace Sys2Proof.Machine

/-! ### The fabric's registers -/

/-- No register of a list is one of the fabric's tables, role or discovery. -/
def fabApart (l : List Nat) : Prop := ∀ o ∈ l, o < 0xA0000 ∨ 0xA3040 ≤ o

section
variable {s t : State} {l : List Nat}

theorem fabApart_nil : fabApart [] := fun _ h => absurd h List.not_mem_nil

theorem ShownOnly.fabReg (h : ShownOnly l s t) (hl : fabApart l) {o : Nat} (h1 : 0xA0000 ≤ o) (h2 : o < 0xA3040)
    (h3 : o ≠ 0xA3018) : t.reg o = s.reg o := by
  refine h.2 o h3 ?_ fun k => ?_
  · show o ≠ 0x210
    omega
  · have := hl o k
    omega

theorem ShownOnly.fabField (h : ShownOnly l s t) (hl : fabApart l) {f : Fld} (h1 : 0xA0000 ≤ f.reg) (h2 : f.reg < 0xA3040)
    (h3 : f.reg ≠ 0xA3018) : t.fget f = s.fget f := by
  unfold State.fget
  rw [h.fabReg hl h1 h2 h3]

theorem ShownOnly.fabFlag (h : ShownOnly l s t) (hl : fabApart l) {f : Fld} (h1 : 0xA0000 ≤ f.reg) (h2 : f.reg < 0xA3040)
    (h3 : f.reg ≠ 0xA3018) : t.flag f = s.flag f := by
  unfold State.flag
  rw [h.fabField hl h1 h2 h3]

theorem ShownOnly.modId (h : ShownOnly l s t) (hl : fabApart l) : t.modId = s.modId :=
  h.fabField hl (f := FAB_SELF.MODID) (by decide) (by decide) (by decide)

theorem ShownOnly.mem (h : ShownOnly l s t) : t.mem = s.mem := by
  rw [h.1]

theorem ShownOnly.memRead (h : ShownOnly l s t) (a n : Nat) : t.memRead a n = s.memRead a n := by
  unfold State.memRead State.memGet
  rw [h.mem]

end

/-! ### Read by a command in one of its phases -/

section
variable {s u v : State} {c : HostCmd} {l : List Nat}

theorem AtCmd.fget (h : AtCmd l c v u) {f : Fld} (ho : f.reg ≠ FAB_CMD_STAT.off) (hi : f.reg ≠ HUB_PCIE_IRQ.off)
    (hl : f.reg ∉ l) : u.fget f = v.fget f := by
  have hr : u.reg f.reg = v.reg f.reg := h.reg ho hi hl
  unfold State.fget
  rw [hr]

theorem AtCmd.memRead (h : AtCmd l c v u) (a n : Nat) : u.memRead a n = v.memRead a n := ShownOnly.memRead h a n

theorem AtCmd.modId (h : AtCmd l c v u) (hl : fabApart l) : u.modId = v.modId := by
  have k := ShownOnly.modId h hl
  exact k

theorem AtCmd.fabFlag (h : AtCmd l c v u) (hl : fabApart l) {f : Fld} (h1 : 0xA0000 ≤ f.reg) (h2 : f.reg < 0xA3040)
    (h3 : f.reg ≠ 0xA3018) : u.flag f = v.flag f := by
  have k := ShownOnly.fabFlag h hl h1 h2 h3
  exact k

theorem AtCmd.pair (h : AtCmd l c v u) {lo : Nat} (h1 : lo ∉ l ∧ lo + 4 ∉ l) (hi : lo ≠ 0x210 ∧ lo + 4 ≠ 0x210)
    (ho : lo ≠ 0xA3018 ∧ lo + 4 ≠ 0xA3018) : u.pair lo = v.pair lo := by
  have e1 : u.reg lo = v.reg lo := h.reg ho.1 hi.1 h1.1
  have e2 : u.reg (lo + 4) = v.reg (lo + 4) := h.reg ho.2 hi.2 h1.2
  unfold State.pair
  rw [e1, e2]

theorem AtCmd.step (h : AtCmd l c v u) (hl : TCK_STEP_LO.off ∉ l ∧ TCK_STEP_LO.off + 4 ∉ l) : u.step = v.step :=
  h.pair hl (by decide) (by decide)

theorem AtCmd.hubUp (h : AtCmd l c v u) : u.hubUp = v.hubUp := by
  unfold State.hubUp
  rw [h.1]

theorem State.modId_modMgr (s : State) (f : MgrSt → MgrSt) : (s.modMgr f).modId = s.modId := rfl

end

/-! ### Its arguments -/

/-- The number that two arguments give. -/
def HostCmd.arg2 (c : HostCmd) (i : Nat) : Nat := c.args.getD i 0 + c.args.getD (i + 1) 0 * 2 ^ 32

theorem State.hostCmd_arg2 (s : State) (code hseq : Nat) (told : Bool) {i : Nat} (hi : i + 1 < 16) :
    (s.hostCmd code hseq told).arg2 i = s.arg2 i := by
  unfold HostCmd.arg2 State.arg2
  rw [s.hostCmd_arg code hseq told (by omega), s.hostCmd_arg code hseq told hi]

theorem manGroup_eq {b : List Byte} {g : Nat} {r : Nat × Nat × Nat × Nat} (h : manGroup? b g = some r) :
    r.2.2.1 < 64 ∧ r.2.2.2 < 64 := by
  obtain ⟨i, -, rfl⟩ := List.mem_map.1 (List.mem_of_find?_eq_some h)
  exact ⟨bits_lt _ 13 8, bits_lt _ 19 14⟩

end Sys2Proof.Machine
end

-- What a manager reads and writes of its own module
/-! SUPPORT for O56: register writes and reads that a manager carries to its own module (R313), and records that
take effect at its own hub. -/
section
namespace Sys2Proof.Machine

section
variable {s t u v : State} {m : Master} {off : Nat} {w : Word} {r : RegRow}

/-! ### A write (R313, R477) -/

theorem State.regPut_own (hup : s.hubUp = true) (hoff : off < 0x50000 ∨ 0x60000 ≤ off ∧ off < 0x2000000)
    (hrow : regRow? off = some r) (hwr : r.wr.admits m = true) (hr : rsvOk off w = true) :
    s.regPut false m off w = s.putReg m off w := by
  have hmbx : isMbx off = false := by
    simp only [isMbx, Bool.and_eq_false_iff, decide_eq_false_iff_not]
    omega
  have hmay : s.mayWrite false m off = true := by
    unfold State.mayWrite
    rw [hrow]
    simp only [hwr, Bool.not_false, Bool.or_true, Bool.true_or, Bool.and_self]
  rw [State.regPut_eq_gate false (by omega) hmbx]
  exact State.gate_open s false m off w (fun s => s.putReg m off w) hup rfl hmay hr

/-- A word below the reserved bits sets none of them. -/
theorem rsvOk_of_lt {k : Nat} (hk : k ≤ 32) (hmask : rsvMask off = 2 ^ 32 - 2 ^ k) (hw : w.toNat < 2 ^ k) :
    rsvOk off w = true := by
  have e : 2 ^ 32 - 2 ^ k = 2 ^ k * (2 ^ (32 - k) - 1) := by
    rw [Nat.mul_sub, Nat.mul_one, ← Nat.pow_add, Nat.add_sub_cancel' hk]
  have h0 : w.toNat &&& rsvMask off = 0 := by
    rw [hmask, e]
    refine Nat.eq_of_testBit_eq fun i => ?_
    rw [Nat.testBit_and, Nat.zero_testBit, Nat.testBit_two_pow_mul]
    by_cases hi : k ≤ i
    · rw [Nat.testBit_lt_two_pow (hw.trans_le (Nat.pow_le_pow_right (by decide) hi)), Bool.false_and]
    · simp [hi]
  unfold rsvOk
  rw [decide_eq_true h0]

/-- A register of one field of 32 bits holds what is written to it. -/
theorem State.reg_store_word {rst : Nat} {ret : Retain} (hrow : regRow? off = some r) (hs : s.storable off w)
    (hf : (⟨off, 31, 0⟩ : Fld).row .rw rst ret ∈ r.flds) : (s.store m off w).reg off = w := by
  have h := State.fget_store_rw (s := s) (m := m) (v := w) (f := ⟨off, 31, 0⟩) hrow hs hf
  have hw (x : Word) : (⟨off, 31, 0⟩ : Fld).of x = x.toNat := by
    have hx := x.isLt
    simp only [Fld.of, bits, Nat.shiftRight_zero]
    omega
  unfold State.fget at h
  rw [hw, hw] at h
  exact BitVec.eq_of_toNat_eq h

theorem State.writeAt_own {mod : Nat} (job : Nat) (h : mod = s.modId) (l : List (Nat × Nat)) :
    s.writeAt mod job l = State.eachOf l (fun e s => s.regPut false 0 e.1 (BitVec.ofNat 32 e.2)) s := by
  unfold State.writeAt
  rw [if_pos h]

/-! ### A write in the tick master's block -/

theorem rsvOk_word {off : Nat} (h : rsvMask off = 0) (x : Word) : rsvOk off x = true :=
  rsvOk_of_lt (k := 32) (by decide) (by rw [h, Nat.sub_self]) x.isLt

/-- A word keeps clear of the reserved bits when a field outside them is replaced. -/
theorem rsvOk_into {off : Nat} {w : Word} {f : Fld} (x : Nat) (hw : rsvOk off w = true)
    (hfree : ∀ i, f.lo ≤ i → i ≤ f.hi → (rsvMask off).testBit i = false) : rsvOk off (f.into w x) = true := by
  unfold rsvOk at *
  rw [decide_eq_true_eq] at hw ⊢
  refine Nat.eq_of_testBit_eq fun i => ?_
  have hi := congrArg (fun n : Nat => n.testBit i) hw
  simp only [Nat.testBit_and, Nat.zero_testBit, Bool.and_eq_false_iff] at hi ⊢
  by_cases hin : f.lo ≤ i ∧ i ≤ f.hi
  · exact .inr (hfree i hin.1 hin.2)
  · refine hi.imp_left fun h => ?_
    unfold Fld.into
    rw [BitVec.toNat_ofNat, Nat.testBit_mod_two_pow, setBits_testBit, if_neg (by omega), h, Bool.and_false]

theorem State.putReg_tck {off : Nat} {x : Word} (h : 0x10000 ≤ off ∧ off < 0x20000) (h1 : off ≠ TCK_CTL.off)
    (h2 : off ≠ TCK_SYNC_MAX.off) (h3 : off < 0x10100 ∨ off % 0x40 ≠ 0) : s.putReg m off x = s.store m off x := by
  have e0 : TCK_SL_CTL.off 0 = 0x10100 := rfl
  unfold State.putReg State.putTck
  rw [if_neg (by omega), if_pos h.2, if_neg h1, if_neg h2, if_neg (by simp only [Bool.and_eq_true, decide_eq_true_eq]; omega)]

/-- A register of the tick master that holds what is written to it. -/
theorem State.regPut_tck {off : Nat} {x : Word} {r : RegRow} (hup : s.hubUp = true) (h : 0x10000 ≤ off ∧ off < 0x20000)
    (h1 : off ≠ TCK_CTL.off) (h2 : off ≠ TCK_SYNC_MAX.off) (h3 : off < 0x10100 ∨ off % 0x40 ≠ 0)
    (hrow : regRow? off = some r) (hwr : r.wr.admits 0 = true) (hr : rsvOk off x = true) :
    s.regPut false 0 off x = s.store 0 off x := by
  rw [State.regPut_own hup (.inl (by omega)) hrow hwr hr, State.putReg_tck h h1 h2 h3]

theorem State.storable_tck {off : Nat} {x : Word} (h : 0x10000 ≤ off ∧ off < 0x20000) : s.storable off x := by
  refine State.storable_of_unlocked ?_
  have h1 : RIG_CTL.off = 0x80000 := rfl
  have h2 : FLT_CTL.off = 0x30000 := rfl
  have h3 : FAB_MGR_CTL.off = 0xA3000 := rfl
  unfold State.lockedAt
  rw [if_neg (by omega), if_neg (by omega), if_neg (by omega), if_neg (by simp; omega), if_neg (by simp; omega)]

/-! ### A read (R10, R313) -/

theorem State.view_plain (h1 : off < 0x1000 ∨ 0x10000 ≤ off ∧ off < 0x20000) (hrow : regRow? off = some r)
    (hid : ¬ (off = HUB_MASTER.off ∨ off = HUB_ID0.off ∨ off = HUB_REV.off ∨ off = HUB_SERIAL_LO.off ∨ off = HUB_SERIAL_HI.off ∨
      off = HUB_RST_CNT.off)) (hsel : isSelector off = false) (hwo : woMask off = 0) : s.view m off = s.reg off := by
  have h3 : FLT_Q_STAT.off = 0x30018 := rfl
  have h4 : FLT_SRC_STAT0.off = 0x30044 := rfl
  have h5 : FLT_SRC_STAT1.off = 0x30048 := rfl
  have h6 : FLT_FRZ_STAT.off = 0x30074 := rfl
  have h7 : PWR_VAR.off = 0x20008 := rfl
  have h8 : FAB_MGR_STAT.off = 0xA3004 := rfl
  have h9 : FAB_LEASE.off = 0xA3010 := rfl
  simp only [not_or] at hid
  obtain ⟨n1, n2, n3, n4, n5, n6⟩ := hid
  have hreg : s.mreg m off = s.reg off := by
    unfold State.mreg
    rw [hsel]
    simp only [Bool.and_false, Bool.false_eq_true, if_false]
  have hlow : BitVec.ofNat 32 ((s.reg off).toNat - ((s.reg off).toNat &&& 0)) = s.reg off := by
    rw [Nat.and_zero, Nat.sub_zero, BitVec.ofNat_toNat, BitVec.setWidth_eq]
  unfold State.view
  rw [if_neg (by simp; omega), if_neg (by simp; omega), if_neg (by simp; omega), if_neg (by simp [hrow]),
    if_neg (by simp; omega), if_neg (by simp; omega), if_neg (by simp; omega), if_neg (by simp; omega), if_neg (by omega),
    if_neg (by simp; omega), if_neg (by omega), if_neg (by omega), if_neg (by omega), if_neg n1, if_neg n2, if_neg n3,
    if_neg n4, if_neg n5, if_neg (by omega), if_neg (by simp; omega), if_neg (by omega), if_neg n6, if_neg (by omega),
    hreg, hwo, hlow]

/-- An offset of the hub's or the tick master's block whose read shows the register and changes nothing. -/
def plainRead (off : Nat) : Bool :=
  off % 4 = 0 && (off < 0x1000 || (0x10000 ≤ off && off < 0x20000)) && (regRow? off).isSome &&
    !([HUB_MASTER.off, HUB_ID0.off, HUB_REV.off, HUB_SERIAL_LO.off, HUB_SERIAL_HI.off, HUB_RST_CNT.off].contains off) &&
    !isSelector off && woMask off = 0 && !snapPair off && !snapPair (off - 4)

theorem State.regRead_own (hm : m = 0 ∨ m = 2) (h : plainRead off = true) (a : IndAnswer) :
    s.regRead false m (off / 4 * 4) a = (s.reg off, s) := by
  simp only [plainRead, Bool.and_eq_true, Bool.or_eq_true, decide_eq_true_eq, Bool.not_eq_true', List.contains_eq_mem,
    decide_eq_false_iff_not, List.mem_cons, List.not_mem_nil, or_false] at h
  obtain ⟨⟨⟨⟨⟨⟨⟨h4, hblock⟩, hrow⟩, hid⟩, hsel⟩, hwo⟩, hlow⟩, hhigh⟩ := h
  obtain ⟨r, hr⟩ := Option.isSome_iff_exists.1 hrow
  have hoff : off / 4 * 4 = off := by omega
  have hmay : s.mayRead false m off = true := by
    rcases hm with rfl | rfl
    · rfl
    · rfl
  have hmbx : isMbx off = false := by
    simp only [isMbx, Bool.and_eq_false_iff, decide_eq_false_iff_not]
    omega
  have hrecv : ¬ (MBX_RECV.off 0 0 ≤ off && off < MBX_RECV.off 256 0 && off % 0x80 = 0x3C) = true := by
    have h0 : MBX_RECV.off 0 0 = 0x58000 := rfl
    simp only [Bool.and_eq_true, decide_eq_true_eq]
    omega
  have hprt : (decide (0x200000 ≤ off) && decide (off < 0x300000)) = false := by
    simp only [Bool.and_eq_false_iff, decide_eq_false_iff_not]
    omega
  rw [hoff]
  unfold State.regRead
  dsimp only
  rw [if_neg (by simp [hmay]), hprt, if_neg (by simp), if_neg (by simp; omega), if_neg (by simp), if_neg (by simp [hlow]),
    if_neg (by simp [hhigh]), if_neg (by simp [State.mbxDenied_of_not_isMbx hmbx]), if_neg hrecv,
    State.view_plain hblock hr hid hsel hwo]

theorem State.regReads_own (hm : m = 0 ∨ m = 2) {offs : List Nat} (h : ∀ o ∈ offs, plainRead o = true) :
    s.regReads (fun _ => m) offs = (offs.map (fun o => (s.reg o).toNat), s) := by
  induction offs with
  | nil => rfl
  | cons o l ih =>
    unfold State.regReads
    rw [State.regRead_own hm (h o (.head _))]
    dsimp only
    rw [ih fun x hx => h x (.tail _ hx)]
    rfl

/-- Registers of this module itself that a command reads. -/
theorem State.readAt_own {mod : Nat} (hmod : mod = s.modId) {offs : List Nat} (h : ∀ o ∈ offs, plainRead o = true) :
    s.readAt mod offs = s.modCmd (fun c => { c with got := c.got ++ [(mod, offs.map (fun o => (s.reg o).toNat))] }) := by
  unfold State.readAt
  rw [if_pos hmod, State.regReads_own (.inl rfl) h]

/-! ### Records (R429) -/

/-- A record's slice code, step, cause and unit. -/
structure RecordWords (ws : List Word) (code slice t who how : Nat) : Prop where
  code : (ws.getD 0 0).toNat % 256 = code
  slice : bits (ws.getD 0 0).toNat 19 8 = slice
  step : (ws.getD 1 0).toNat + (ws.getD 2 0).toNat * 2 ^ 32 = t
  who : (ws.getD 3 0).toNat = who
  how : bits (ws.getD 4 0).toNat 7 0 = how

theorem recordWords_eventWords {code slice t who how : Nat} (term : Nat) (hc : code < 256) (hs : slice < 4096) (ht : t < 2 ^ 64)
    (hw : who < 2 ^ 32) (hh : how < 256) : RecordWords (eventWords code slice t who how term) code slice t who how := by
  have e0 : (eventWords code slice t who how term).getD 0 0 = BitVec.ofNat 32 (code % 256 + slice % 4096 * 2 ^ 8) := rfl
  have e1 : (eventWords code slice t who how term).getD 1 0 = BitVec.ofNat 32 (t % 2 ^ 32) := rfl
  have e2 : (eventWords code slice t who how term).getD 2 0 = BitVec.ofNat 32 (t / 2 ^ 32) := rfl
  have e3 : (eventWords code slice t who how term).getD 3 0 = BitVec.ofNat 32 who := rfl
  have e4 : (eventWords code slice t who how term).getD 4 0 = BitVec.ofNat 32 how := rfl
  refine ⟨?_, ?_, ?_, ?_, ?_⟩
  · rw [e0, BitVec.toNat_ofNat]
    omega
  · rw [e0, BitVec.toNat_ofNat]
    simp only [bits, Nat.shiftRight_eq_div_pow]
    omega
  · rw [e1, e2, BitVec.toNat_ofNat, BitVec.toNat_ofNat]
    omega
  · rw [e3, BitVec.toNat_ofNat]
    omega
  · rw [e4, BitVec.toNat_ofNat]
    simp only [bits, Nat.shiftRight_eq_div_pow]
    omega

theorem State.recordIn_adapt {ws : List Word} {slice t who how : Nat} (h : RecordWords ws 0x0B slice t who how) :
    s.recordIn ws = { s with fab := s.fab.adaptRec t how } := by
  obtain ⟨hcode, -, hstep, -, hhow⟩ := h
  unfold State.recordIn
  dsimp only
  rw [hcode, hstep, hhow]
  rfl

theorem State.recordIn_fence {ws : List Word} {slice t who how n : Nat} (h : RecordWords ws 0x09 slice t who how)
    (hn : s.ctxOf slice = some n) : s.recordIn ws = s.modCx n (fun c => c.fenceRec who t how) := by
  obtain ⟨hcode, hslice, hstep, hwho, hhow⟩ := h
  unfold State.recordIn
  dsimp only
  rw [hcode, hslice, hstep, hwho, hhow, hn]
  rfl

theorem State.recordIn_tree {ws : List Word} {slice t who how n : Nat} (h : RecordWords ws 0x0A slice t who how)
    (hn : s.ctxOf slice = some n) :
    s.recordIn ws = s.modCx n (fun c => { c with treeArm := c.treeArm ++ [(who, t, decide (how = 1))] }) := by
  obtain ⟨hcode, hslice, hstep, hwho, hhow⟩ := h
  unfold State.recordIn
  dsimp only
  rw [hcode, hslice, hstep, hwho, hhow, hn]
  rfl

theorem State.recordTo_own {mod : Nat} (hmod : mod = s.modId) (job : Nat) (ws : List Word) :
    s.recordTo mod job ws = s.recordIn ws := if_pos hmod

end

end Sys2Proof.Machine
end

-- Reservations
/-! SUPPORT for O56: SLICE_RESERVE and SLICE_RELEASE without a standby (R324). -/
section
namespace Sys2Proof.Machine

section
variable {s t u v : State} {m : Master} {hseq : BitVec 16} {c : HostCmd} {l : List Nat} {r : Resv} {sl n : Nat}

/-! ### A slice of this module alone -/

theorem AtCmd.resvOf (h : AtCmd l c v u) (sl : Nat) : u.resvOf sl = v.resvOf sl := by
  unfold State.resvOf
  rw [h.mgr]

theorem AtCmd.membersOf (h : AtCmd l c v u) (hl : fabApart l) (r : Resv) : u.membersOf r = v.membersOf r := by
  unfold State.membersOf
  rw [h.mgr, h.modId hl]

/-- The reservation of a slice whose one member is a context of this module. -/
structure Here (s : State) (sl : Nat) (r : Resv) (n : Nat) : Prop where
  found : s.resvOf sl = some r
  alone : s.membersOf r = [(s.modId, n)]
  ctx : n < 16

theorem AtCmd.here (h : AtCmd l c v u) (hl : fabApart l) (hh : Here v sl r n) : Here u sl r n :=
  ⟨(h.resvOf sl).trans hh.found, by rw [h.membersOf hl, h.modId hl, hh.alone], hh.ctx⟩

/-! ### Registers of the slice contexts read for a command -/

theorem AtCmd.readOwn (h : AtCmd [] c v u) {offs : List Nat} (hp : ∀ o ∈ offs, plainRead o = true ∧ 0x10000 ≤ o) :
    AtCmd [] { c with got := c.got ++ [(v.modId, offs.map (fun o => (v.reg o).toNat))] } v (u.readAt v.modId offs) := by
  have hmod := h.modId fabApart_nil
  have hreg : offs.map (fun o => (u.reg o).toNat) = offs.map (fun o => (v.reg o).toNat) := by
    refine List.map_congr_left fun o ho => ?_
    obtain ⟨hplain, hlow⟩ := hp o ho
    simp only [plainRead, Bool.and_eq_true, Bool.or_eq_true, decide_eq_true_eq] at hplain
    have n1 : FAB_CMD_STAT.off = 0xA3018 := rfl
    have n2 : HUB_PCIE_IRQ.off = 0x210 := rfl
    rw [h.reg (by omega) (by omega) List.not_mem_nil]
  rw [State.readAt_own hmod.symm (fun o ho => (hp o ho).1), hreg]
  exact h.modCmd _

theorem plainRead_slStat : ∀ n : Ctx, plainRead (TCK_SL_STAT.off n.val) = true := by
  decide +kernel

theorem plainRead_slCtl : ∀ n : Ctx, plainRead (TCK_SL_CTL.off n.val) = true := by
  decide +kernel

theorem plainRead_slStats (hn : n < 16) : ∀ o ∈ [TCK_SL_STAT.off n], plainRead o = true ∧ 0x10000 ≤ o := by
  intro o ho
  rw [List.mem_singleton.1 ho]
  exact ⟨plainRead_slStat ⟨n, hn⟩, Nat.le_trans (by decide) (Nat.le_add_right 0x10104 _)⟩

/-- The tick state that a command has read of its one member. -/
theorem HostCmd.states_one {k : Nat} {ws : List Nat} (n : Nat) (h : c.got = [(k, (s.reg (TCK_SL_STAT.off n)).toNat :: ws)]) :
    c.states = [s.slState n] := by
  unfold HostCmd.states
  rw [h, List.map_singleton]
  show [(TCK_SL_STAT.STATE 0).of (BitVec.ofNat 32 (s.reg (TCK_SL_STAT.off n)).toNat)] = _
  rw [BitVec.ofNat_toNat, BitVec.setWidth_eq]
  rfl

/-! ### Records sent to other groups -/

/-- Two states that differ only in packets sent, and in the answers awaited. -/
def SentOnly (s t : State) : Prop := t = { s with
  rtr := t.rtr, port := t.port, mgr := { s.mgr with msgNum := t.mgr.msgNum, awaits := t.mgr.awaits } }

theorem SentOnly.refl (s : State) : SentOnly s s := rfl

theorem SentOnly.trans (h : SentOnly s t) (k : SentOnly t u) : SentOnly s u := by
  unfold SentOnly at *
  rw [k, h]

theorem SentOnly.mgtAsk (s : State) (k code job : Nat) (host : Bool) (body : List Byte) : SentOnly s (s.mgtAsk k code job host body) := by
  unfold State.mgtAsk State.mgtAskBy
  dsimp only
  split
  · unfold State.routeOut
    dsimp only
    split
    · rfl
    · rfl
  · rfl

theorem SentOnly.recordFar (s : State) (mods : List Nat) (kind : Nat) (d : List Byte) : SentOnly s (s.recordFar mods kind d) :=
  State.eachOf_inv (P := SentOnly s) (SentOnly.refl s) fun _ _ _ h => h.trans (SentOnly.mgtAsk ..)

theorem SentOnly.tellCoord (s : State) (kind : Nat) (d : List Byte) : SentOnly s (s.tellCoord kind d) := by
  unfold State.tellCoord
  split
  · exact SentOnly.recordFar ..
  · exact SentOnly.refl s

theorem SentOnly.tellResv (s : State) (r : Resv) : SentOnly s (s.tellResv r) :=
  (SentOnly.recordFar ..).trans (SentOnly.tellCoord ..)

theorem SentOnly.tellRelease (s : State) (r : Resv) : SentOnly s (s.tellRelease r) :=
  (SentOnly.recordFar ..).trans (SentOnly.tellCoord ..)

/-- The managers of other groups are not of this one. -/
theorem State.farMgrs_far {k : Nat} (h : k ∈ s.farMgrs) : modGroup k ≠ modGroup s.modId := by
  unfold State.farMgrs at h
  obtain ⟨g, -, hk⟩ := List.mem_flatMap.1 h
  split at hk
  next => exact absurd hk List.not_mem_nil
  next hg =>
    unfold managersOf at hk
    split at hk
    next hr =>
      obtain ⟨h1, h2⟩ := manGroup_eq hr
      dsimp only at h1 h2
      simp only [List.mem_cons, List.not_mem_nil, or_false] at hk
      unfold modGroup at *
      omega
    next => exact absurd hk List.not_mem_nil

/-- A slice within this group, and no coordinator in another one to tell. -/
structure KeptHome (s : State) (r : Resv) : Prop where
  coord : (s.flag FAB_MGR_ID.COORD_VALID && s.far (s.fget FAB_MGR_ID.COORD)) = false
  near : ∀ e ∈ r.ctx, modGroup e.1 = modGroup s.modId

theorem KeptHome.of_regs (h : KeptHome s r) (hr : ShownRegs s t) : KeptHome t r := by
  have hmod : t.modId = s.modId := hr.fget (f := FAB_SELF.MODID) (by decide) (by decide)
  have hcoord : t.fget FAB_MGR_ID.COORD = s.fget FAB_MGR_ID.COORD := hr.fget (by decide) (by decide)
  have hvalid : t.fget FAB_MGR_ID.COORD_VALID = s.fget FAB_MGR_ID.COORD_VALID := hr.fget (by decide) (by decide)
  have hself : t.fget FAB_SELF.VALID = s.fget FAB_SELF.VALID := hr.fget (by decide) (by decide)
  obtain ⟨h1, h2⟩ := h
  refine ⟨?_, by rwa [hmod]⟩
  unfold State.far State.flag at *
  rwa [hmod, hcoord, hvalid, hself]

theorem KeptHome.far_none (h : KeptHome s r) :
    s.farMgrs.filter (fun k => (r.ctx.map (fun e => modGroup e.1)).contains (modGroup k)) = [] := by
  refine List.filter_eq_nil_iff.2 fun k hk hc => ?_
  rw [List.contains_iff_mem, List.mem_map] at hc
  obtain ⟨e, he, hg⟩ := hc
  exact State.farMgrs_far hk (hg.symm.trans (h.near e he))

theorem KeptHome.tellCoord (h : KeptHome s r) (kind : Nat) (d : List Byte) : s.tellCoord kind d = s := by
  unfold State.tellCoord
  rw [Bool.and_assoc, h.coord, Bool.and_false]
  rfl

theorem KeptHome.tellResv (h : KeptHome s r) : s.tellResv r = s := by
  unfold State.tellResv
  dsimp only
  rw [h.far_none]
  exact h.tellCoord _ _

theorem KeptHome.tellRelease (h : KeptHome s r) : s.tellRelease r = s := by
  unfold State.tellRelease
  dsimp only
  rw [h.far_none]
  exact h.tellCoord _ _

/-! ### A command whose last phase tells other modules -/

/-- The reservations changed by a command in progress. -/
theorem AtCmd.modResv (h : AtCmd l c v u) (f : List Resv → List Resv) : AtCmd l c
    { v with mgr := { v.mgr with resv := f v.mgr.resv } } (u.modMgr (fun g => { g with resv := f g.resv })) := by
  obtain ⟨e, hr⟩ := h
  refine ⟨?_, hr⟩
  unfold State.modMgr
  rw [e]

theorem Runs.imp {i : Instr} {P Q : State → Prop} (h : Runs i s P) (k : ∀ t, P t → Q t) : Runs i s Q := by
  obtain ⟨t, ht, hp⟩ := h
  exact ⟨t, ht, k t hp⟩

/-- A command that tells other modules of what it has done, and ends. -/
theorem TakenUp.runs_told {code st k : Nat} {i : Instr} (h : TakenUp s m code hseq) (hs : s.mgr.sby = 0)
    (hc : code < 16) (e : exec i s = done s (s.fabRow code m hseq))
    (hrun : State.cmdRun 99 (s.begun (s.hostCmd code hseq.toNat true)) = State.cmdRun k (t.cmdEnd st))
    (hu : AtCmd [] c v u) (hv : v.mgr.Ready) (ht : SentOnly u t)
    (hh : c.hseq = hseq.toNat) (hst : st < 256) (hq : v.pending = s.pending) (hnow : v.now = s.now) (hf : v.fuses = s.fuses) :
    Runs i s fun w => Ended st hseq w ∧ ShownRegs v w ∧ (∃ x y, w.mgr = { v.mgr with msgNum := x, awaits := y }) ∧
      (t = u → ShownOnly [] v w) := by
  have hm : t.mgr = { v.mgr with cmds := [c], msgNum := t.mgr.msgNum, awaits := t.mgr.awaits } := by
    rw [ht, hu.mgr]
  obtain ⟨hend, hshown⟩ := State.cmdEnd_spec (c := c) (s := t) (by rw [hm]) (by rw [hm]; exact hv.alone) hh hst
  have hshown := hshown []
  rw [State.cmdRun_none hend.2.2.2.1] at hrun
  have hmgr : (t.cmdEnd st).mgr = t.unqueued.mgr := by rw [hshown.1]
  have hmgr' : t.unqueued.mgr = { v.mgr with msgNum := t.unqueued.mgr.msgNum, awaits := t.unqueued.mgr.awaits } := by
    unfold State.unqueued
    rw [hm, ← hv.noCmd]
  refine h.runs hs hc e hrun (v := t.cmdEnd st) ?_ ?_ ?_ ?_ ⟨hend, fun o ho hi => ?_, ⟨_, _, hmgr.trans hmgr'⟩, fun htu => ?_⟩
  · rw [State.armTables_disarmed (by rw [hmgr, hmgr']; exact hv.disarmed),
      State.armCommits_none (by rw [hmgr, hmgr']; exact hv.noCommit)]
  · exact (congrArg State.pending hshown.1).trans ((congrArg State.pending ht).trans ((congrArg State.pending hu.1).trans hq))
  · exact (congrArg State.now hshown.1).trans ((congrArg State.now ht).trans ((congrArg State.now hu.1).trans hnow))
  · exact (congrArg State.fuses hshown.1).trans ((congrArg State.fuses ht).trans ((congrArg State.fuses hu.1).trans hf))
  · refine (hshown.2 o ho hi List.not_mem_nil).trans (Eq.trans ?_ (hu.reg ho hi List.not_mem_nil))
    show t.reg o = u.reg o
    rw [ht]
    rfl
  · rw [← htu] at hu
    exact (hu.unqueued hv).trans hshown

/-! ### SLICE_RELEASE -/

theorem State.cmdRelease_none (h : u.resvOf (c.args.getD 0 0) = none) : u.cmdRelease c = u.cmdEnd 3 := by
  unfold State.cmdRelease
  rw [h]

theorem State.cmdRelease_read (h : Here u (c.args.getD 0 0) r n) (hp : c.phase = 0) :
    u.cmdRelease c = u.nextPhase.readAt u.modId [TCK_SL_STAT.off n] := by
  unfold State.cmdRelease
  rw [h.found]
  simp only [hp]
  rw [h.alone]
  rfl

theorem State.cmdRelease_busy (h : Here u (c.args.getD 0 0) r n) (hp : c.phase = 1) (hst : c.states = [v.slState n])
    (hbusy : v.slState n ≠ 0) : u.cmdRelease c = u.cmdEnd 8 := by
  unfold State.cmdRelease
  rw [h.found]
  simp only [hp]
  rw [hst, if_pos (by simp [hbusy])]

theorem State.cmdRelease_idle (h : Here u (c.args.getD 0 0) r n) (hp : c.phase = 1) (hst : c.states = [v.slState n])
    (hidle : v.slState n = 0) (hs : u.mgr.sby = 0) : u.cmdRelease c = u.nextPhase := by
  unfold State.cmdRelease
  rw [h.found]
  simp only [hp]
  rw [hst, if_neg (by simp [hidle]), State.journal_alone hs]

theorem State.cmdRelease_last (h : Here u (c.args.getD 0 0) r n) (hp : c.phase = 2) :
    u.cmdRelease c =
      ((u.modMgr (fun g => { g with resv := g.resv.filter (fun y => y.slice ≠ r.slice) })).tellRelease r).cmdEnd 0 := by
  unfold State.cmdRelease
  rw [h.found]
  simp only [hp]

theorem runs_release_none (h : TakenUp s m 5 hseq) (hs : s.mgr.sby = 0) (hr : s.resvOf (s.arg 0) = none) :
    Runs (.sliceRelease m hseq) s fun t => Ended 3 hseq t ∧ ShownOnly [] s t := by
  have ha := s.hostCmd_arg 5 hseq.toNat true (i := 0) (by decide)
  have hb := AtCmd.begun (l := []) s (s.hostCmd 5 hseq.toNat true)
  exact h.runs_at_once hs (by decide) rfl (State.cmdRelease_none (by rw [ha, hb.resvOf, hr])) (by decide)

/-- SLICE_RELEASE with the tick state read. -/
def State.releaseCmd (s : State) (hseq : BitVec 16) (n : Nat) : HostCmd :=
  { s.hostCmd 5 hseq.toNat true with phase := 1, got := [(s.modId, [(s.reg (TCK_SL_STAT.off n)).toNat])] }

theorem State.cmdPhase_release (hh : Here s (s.arg 0) r n) :
    ∃ u, (s.begun (s.hostCmd 5 hseq.toNat true)).cmdPhase (s.hostCmd 5 hseq.toNat true) = u ∧
      AtCmd [] (s.releaseCmd hseq n) s u := by
  have ha := s.hostCmd_arg 5 hseq.toNat true (i := 0) (by decide)
  have h0 := AtCmd.begun (l := []) s (s.hostCmd 5 hseq.toNat true)
  refine ⟨_, State.cmdRelease_read (c := s.hostCmd 5 hseq.toNat true) (n := n) (r := r) ?_ rfl, ?_⟩
  · rw [ha]
    exact h0.here fabApart_nil hh
  rw [h0.modId fabApart_nil]
  exact h0.nextPhase.readOwn (plainRead_slStats hh.ctx)

section
variable (h : TakenUp s m 5 hseq) (hs : s.mgr.sby = 0) (hh : Here s (s.arg 0) r n)
include h hs hh

theorem runs_release_busy (hbusy : s.slState n ≠ 0) :
    Runs (.sliceRelease m hseq) s fun t => Ended 8 hseq t ∧ ShownOnly [] s t := by
  have ha : (s.releaseCmd hseq n).args.getD 0 0 = s.arg 0 := s.hostCmd_arg 5 hseq.toNat true (i := 0) (by decide)
  have h0 := AtCmd.begun (l := []) s (s.hostCmd 5 hseq.toNat true)
  obtain ⟨u, e1, h1⟩ := State.cmdPhase_release (hseq := hseq) hh
  have e2 : u.cmdPhase (s.releaseCmd hseq n) = u.cmdEnd 8 :=
    State.cmdRelease_busy (v := s) (r := r) (by rw [ha]; exact h1.here fabApart_nil hh) rfl (HostCmd.states_one n rfl) hbusy
  refine h.runs_end hs (by decide) rfl (n := 97) (st := 8) ?_ h1 (h.ready hs) rfl (by decide) rfl rfl rfl
    fun t hend hshown _ => ⟨hend, hshown⟩
  rw [h0.phase (h.ready hs) rfl, e1, h1.phase (h.ready hs) rfl, e2]

theorem runs_release (hidle : s.slState n = 0) : Runs (.sliceRelease m hseq) s fun t => Ended 0 hseq t ∧ ShownRegs s t ∧
    t.mgr.resv = s.mgr.resv.filter (fun y => y.slice ≠ r.slice) ∧
      (KeptHome s r → ShownOnly [] { s with mgr := { s.mgr with resv := s.mgr.resv.filter (fun y => y.slice ≠ r.slice) } } t) := by
  have ha : (s.releaseCmd hseq n).args.getD 0 0 = s.arg 0 := s.hostCmd_arg 5 hseq.toNat true (i := 0) (by decide)
  have h0 := AtCmd.begun (l := []) s (s.hostCmd 5 hseq.toNat true)
  obtain ⟨u, e1, h1⟩ := State.cmdPhase_release (hseq := hseq) hh
  have e2 : u.cmdPhase (s.releaseCmd hseq n) = u.nextPhase :=
    State.cmdRelease_idle (v := s) (r := r) (by rw [ha]; exact h1.here fabApart_nil hh) rfl (HostCmd.states_one n rfl) hidle
      (by rw [h1.mgr]; exact hs)
  have h2 := h1.nextPhase
  have e3 := State.cmdRelease_last (c := { s.releaseCmd hseq n with phase := 2, got := [] }) (r := r) (n := n)
    (by rw [show _ = s.arg 0 from ha]; exact h2.here fabApart_nil hh) rfl
  have h3 := h2.modResv fun x => x.filter (fun y => y.slice ≠ r.slice)
  have hruns := h.runs_told hs (by decide) (i := .sliceRelease m hseq) rfl (k := 96) (st := 0) (by
    rw [h0.phase (h.ready hs) rfl, e1, h1.phase (h.ready hs) rfl, e2, h2.phase (h.ready hs) rfl]
    exact congrArg _ e3) h3 ⟨hs, h.noCmd, h.noAwait, h.disarmed, h.noCommit⟩ (SentOnly.tellRelease _ r) rfl (by decide) rfl rfl rfl
  refine hruns.imp fun t ⟨hend, hregs, ⟨x, y, hm⟩, hkept⟩ => ⟨hend, hregs, by rw [hm], fun hhome => hkept ?_⟩
  exact (hhome.of_regs fun o ho hi => h3.reg ho hi List.not_mem_nil).tellRelease

end

/-! ### SLICE_RESERVE -/

theorem AtCmd.freeCtx (h : AtCmd [] c v u) (k : Nat) : u.freeCtx k = v.freeCtx k := by
  have hmgr := h.mgr
  have hmod := h.modId fabApart_nil
  unfold State.freeCtx firstBelow
  refine List.find?_congr fun n hn => ?_
  have hlt : n < 16 := List.mem_range.1 hn
  have hstat : u.reg (RIG_SL_STAT.off n) = v.reg (RIG_SL_STAT.off n) := h.reg
    (by simp only [RIG_SL_STAT.off, FAB_CMD_STAT.off]; omega) (by simp only [RIG_SL_STAT.off, HUB_PCIE_IRQ.off]; omega) List.not_mem_nil
  have htick : u.reg (TCK_SL_STAT.off n) = v.reg (TCK_SL_STAT.off n) := h.reg
    (by simp only [TCK_SL_STAT.off, FAB_CMD_STAT.off]; omega) (by simp only [TCK_SL_STAT.off, HUB_PCIE_IRQ.off]; omega) List.not_mem_nil
  have hshadow : u.fget (RIG_SL_STAT.SHADOW n) = v.fget (RIG_SL_STAT.SHADOW n) := congrArg (RIG_SL_STAT.SHADOW n).of hstat
  have hactive : u.fget (RIG_SL_STAT.ACTIVE n) = v.fget (RIG_SL_STAT.ACTIVE n) := congrArg (RIG_SL_STAT.ACTIVE n).of hstat
  have hst : u.fget (TCK_SL_STAT.STATE n) = v.fget (TCK_SL_STAT.STATE n) := congrArg (TCK_SL_STAT.STATE n).of htick
  unfold State.ctxFree State.flag State.slState
  rw [hmod, hmgr, hshadow, hactive, hst]

/-- Whether a channel is one that a slice's events can be posted to: open, from the hub to the host. -/
def State.chanBound (s : State) (ch : Nat) : Bool :=
  decide (ch < 256) && s.flag (MBX_BIND_W0.VALID ch) && decide (s.chanSender ch = 0) && decide (s.chanRecv ch = 2)

theorem AtCmd.chanBound (h : AtCmd [] c v u) (ch : Nat) : u.chanBound ch = v.chanBound ch := by
  unfold State.chanBound
  by_cases hch : ch < 256
  · have hreg : u.reg (MBX_BIND_W0.off ch) = v.reg (MBX_BIND_W0.off ch) := h.reg
      (by simp only [MBX_BIND_W0.off, FAB_CMD_STAT.off]; omega) (by simp only [MBX_BIND_W0.off, HUB_PCIE_IRQ.off]; omega) List.not_mem_nil
    have hvalid : u.fget (MBX_BIND_W0.VALID ch) = v.fget (MBX_BIND_W0.VALID ch) := congrArg (MBX_BIND_W0.VALID ch).of hreg
    have hsend : u.fget (MBX_BIND_W0.SENDER ch) = v.fget (MBX_BIND_W0.SENDER ch) := congrArg (MBX_BIND_W0.SENDER ch).of hreg
    have hrecv : u.fget (MBX_BIND_W0.RECEIVER ch) = v.fget (MBX_BIND_W0.RECEIVER ch) := congrArg (MBX_BIND_W0.RECEIVER ch).of hreg
    unfold State.flag State.chanSender State.chanRecv
    rw [hvalid, hsend, hrecv]
  · simp only [hch, decide_false, Bool.false_and]

/-- What SLICE_RESERVE asks for rests on nothing that the command's progress changes. -/
theorem AtCmd.reservation {d : HostCmd} (h : AtCmd [] c v u) (hargs : c.args = d.args) : u.reservation c = v.reservation d := by
  have hcoord : u.flag FAB_MGR_STAT.COORD = v.flag FAB_MGR_STAT.COORD := h.fabFlag fabApart_nil (by decide) (by decide) (by decide)
  have hmem (a k : Nat) : u.memRead a k = v.memRead a k := h.memRead a k
  have hbound := h.chanBound (d.args.getD 3 0)
  unfold State.chanBound at hbound
  unfold State.reservation
  simp only [hargs, hcoord, hmem, h.modId fabApart_nil, h.freeCtx, h.mgr, hbound]

theorem State.cmdReserve_refused {st : Nat} (h : u.reservation c = .error st) : u.cmdReserve c = u.cmdEnd st := by
  unfold State.cmdReserve
  rw [h]

theorem State.cmdReserve_first (h : u.reservation c = .ok r) (hp : c.phase = 0) (hs : u.mgr.sby = 0) :
    u.cmdReserve c = u.nextPhase := by
  have hj : u.journalResv 1 r = u := State.eachOf_inv (P := fun w => w = u) rfl fun i _ w hw => by
    rw [hw]
    exact State.journal_alone hs _ _ _
  unfold State.cmdReserve
  rw [h]
  simp only [hp]
  rw [hj]

theorem State.cmdReserve_last (h : u.reservation c = .ok r) (hp : c.phase = 1) :
    u.cmdReserve c = ((u.modMgr (fun g => { g with resv := g.resv ++ [r] })).tellResv r).cmdEnd 0 := by
  unfold State.cmdReserve
  rw [h]
  simp only [hp]

section
variable (h : TakenUp s m 4 hseq) (hs : s.mgr.sby = 0)
include h hs

theorem runs_reserve_refused {st : Nat} (hr : s.reservation (s.hostCmd 4 hseq.toNat false) = .error st) (hst : st < 256) :
    Runs (.sliceReserve m hseq) s fun t => Ended st hseq t ∧ ShownOnly [] s t := by
  have hb := AtCmd.begun (l := []) s (s.hostCmd 4 hseq.toNat true)
  exact h.runs_at_once hs (by decide) rfl (State.cmdReserve_refused (c := s.hostCmd 4 hseq.toNat true)
    ((hb.reservation (d := s.hostCmd 4 hseq.toNat false) rfl).trans hr)) hst

theorem runs_reserve (hr : s.reservation (s.hostCmd 4 hseq.toNat false) = .ok r) : Runs (.sliceReserve m hseq) s fun t =>
    Ended 0 hseq t ∧ ShownRegs s t ∧ t.mgr.resv = s.mgr.resv ++ [r] ∧
      (KeptHome s r → ShownOnly [] { s with mgr := { s.mgr with resv := s.mgr.resv ++ [r] } } t) := by
  let c0 := s.hostCmd 4 hseq.toNat true
  let c1 : HostCmd := { c0 with phase := 1, got := [] }
  have h0 := AtCmd.begun (l := []) s c0
  have e1 : (s.begun c0).cmdPhase c0 = (s.begun c0).nextPhase :=
    State.cmdReserve_first ((h0.reservation (d := s.hostCmd 4 hseq.toNat false) rfl).trans hr) rfl (by rw [h0.mgr]; exact hs)
  have h1 : AtCmd [] c1 s (s.begun c0).nextPhase := h0.nextPhase
  have e2 := State.cmdReserve_last (c := c1) ((h1.reservation (d := s.hostCmd 4 hseq.toNat false) rfl).trans hr) rfl
  have h2 := h1.modResv fun x => x ++ [r]
  have hruns := h.runs_told hs (by decide) (i := .sliceReserve m hseq) rfl (k := 97) (st := 0) (by
    rw [h0.phase (h.ready hs) rfl, e1, h1.phase (h.ready hs) rfl]
    exact congrArg _ e2) h2 ⟨hs, h.noCmd, h.noAwait, h.disarmed, h.noCommit⟩ (SentOnly.tellResv _ r) rfl (by decide) rfl rfl rfl
  refine hruns.imp fun t ⟨hend, hregs, ⟨x, y, hm⟩, hkept⟩ => ⟨hend, hregs, by rw [hm], fun hhome => hkept ?_⟩
  exact (hhome.of_regs fun o ho hi => h2.reg ho hi List.not_mem_nil).tellResv

end

end

end Sys2Proof.Machine
end

-- What a reservation is
/-! SUPPORT for O56: the reservation that SLICE_RESERVE records, and the statuses that refuse it (R324). -/
section
namespace Sys2Proof.Machine

section
variable {s : State} {c : HostCmd} {r : Resv}

/-- The member list and the event channel that a reservation needs. -/
structure ReserveArgs (s : State) (ch : Nat) (ms : List (Nat × Nat)) : Prop where
  masks : ∀ k ∈ ms, k.2 ≠ 0
  known : ∀ k ∈ ms, manHas s.mgr.manifest k.1 = true
  send : s.chanSender ch = 0
  recv : s.chanRecv ch = 2

/-- No other reservation holds the slice or a partition of its members. -/
def ResvFree (s : State) (sl : Nat) (ms : List (Nat × Nat)) : Prop :=
  ∀ y ∈ s.mgr.resv, y.slice ≠ sl ∧ ∀ k ∈ ms, ∀ l ∈ y.members, k.1 = l.1 → l.2 &&& k.2 = 0

theorem State.freeCtx_free {k n : Nat} (h : s.freeCtx k = some n) : n < 16 ∧ ∀ y ∈ s.mgr.resv, (k, n) ∉ y.ctx := by
  unfold State.freeCtx firstBelow at h
  have hn := List.mem_range.1 (List.mem_of_find?_eq_some h)
  have hp := List.find?_some h
  simp only [Bool.and_eq_true, List.all_eq_true, Bool.not_eq_true', List.contains_eq_mem, decide_eq_false_iff_not] at hp
  exact ⟨hn, hp.1.1⟩

/-- A reservation that is granted: its arguments stand, nothing else holds what it names, and each member has a free context. -/
theorem State.reservation_ok (h : s.reservation c = .ok r) : ReserveArgs s r.chan r.members ∧ ResvFree s r.slice r.members ∧
    r.slice = c.args.getD 0 0 ∧ r.chan = c.args.getD 3 0 ∧ r.fences = [] ∧ r.ctx.map Prod.fst = r.members.map Prod.fst ∧
    ∀ e ∈ r.ctx, s.freeCtx e.1 = some e.2 := by
  unfold State.reservation at h
  dsimp only at h
  generalize hms : memberList (s.memRead (c.args.getD 1 0 + c.args.getD 2 0 * 2 ^ 32) 16388) 4096 0 = ms at h
  split at h
  next => cases h
  next hargs =>
    split at h
    next => cases h
    next =>
      split at h
      next => cases h
      next hfree =>
        split at h
        next => cases h
        next hctx =>
          cases h
          simp only [Bool.or_eq_true, Bool.not_eq_true', List.any_eq_true, decide_eq_true_eq, not_or, not_exists, not_and,
            Bool.not_eq_false, Bool.and_eq_true] at hargs hfree hctx
          obtain ⟨⟨⟨⟨⟨⟨h1, h2⟩, h3⟩, h4⟩, h5⟩, ⟨⟨h6, h7⟩, h8⟩, h9⟩, h10⟩ := hargs
          refine ⟨⟨fun k hk => h5 k hk, fun k hk => ?_, h8, h9⟩, fun y hy => ⟨(hfree y hy).1, fun k hk l hl hkl => ?_⟩,
            rfl, rfl, rfl, ?_, ?_⟩
          · simpa using h10 k hk
          · have := (hfree y hy).2 k hk l hl hkl.symm
            simpa using this
          · simp [Function.comp_def]
          · intro e he
            simp only [List.map_map, List.mem_map, Function.comp_apply] at he
            obtain ⟨k, hk, rfl⟩ := he
            have hsome := hctx (k.1, s.freeCtx k.1) (List.mem_map.2 ⟨k, hk, rfl⟩)
            dsimp only at hsome ⊢
            cases hf : s.freeCtx k.1 with
            | none => exact absurd hf (by simpa using hsome)
            | some x => rfl

theorem State.reservation_error {st : Nat} (h : s.reservation c = .error st) : st = 1 ∨ st = 3 ∨ st = 5 := by
  unfold State.reservation at h
  dsimp only at h
  split at h
  next => cases h; exact .inr (.inl rfl)
  next =>
    split at h
    next => cases h; exact .inl rfl
    next =>
      split at h
      next => cases h; exact .inr (.inr rfl)
      next =>
        split at h
        next => cases h; exact .inr (.inr rfl)
        next => cases h

end

end Sys2Proof.Machine
end

-- Slice commands of the host
/-! SUPPORT for O56: SLICE_CMD on a slice of this module alone (R325). -/
section
namespace Sys2Proof.Machine

section
variable {s t u v : State} {m : Master} {w : Word} {n : Nat}

/-! ### TCK_SL_CTL written with a command -/

/-- A word of TCK_SL_CTL with a command and its arm. -/
def slCtlSet (n : Nat) (w : Word) (k arm : Nat) : Word := (TCK_SL_CTL.CMD_ARM n).into ((TCK_SL_CTL.CMD n).into w k) arm

theorem slCtlSet_cmd {k : Nat} (hk : k < 8) (arm : Nat) : (TCK_SL_CTL.CMD n).of (slCtlSet n w k arm) = k := by
  unfold slCtlSet
  rw [Fld.of_into_other _ _ _ _ (show 3 < 32 by decide) (.inl (show 3 < 4 by decide)), Fld.of_into_of_lt (show 3 < 32 by decide) hk]

theorem slCtlSet_arm {arm : Nat} (h : arm < 2) (k : Nat) : (TCK_SL_CTL.CMD_ARM n).of (slCtlSet n w k arm) = arm :=
  Fld.of_into_of_lt (show 4 < 32 by decide) h

theorem rsvMask_slCtl : ∀ n : Ctx, rsvMask (TCK_SL_CTL.off n.val) = 0xFFFC0000 := by
  decide +kernel

theorem rsvOk_slCtlSet (n : Ctx) (k arm : Nat) (h : rsvOk (TCK_SL_CTL.off n.val) w = true) :
    rsvOk (TCK_SL_CTL.off n.val) (slCtlSet n.val w k arm) = true := by
  have hfree {i : Nat} (hi : i < 18) : (rsvMask (TCK_SL_CTL.off n.val)).testBit i = false := by
    rw [rsvMask_slCtl n]
    interval_cases i <;> rfl
  refine rsvOk_into arm (rsvOk_into k h fun i _ h2 => hfree ?_) fun i _ h2 => hfree ?_
  · exact Nat.lt_of_le_of_lt h2 (show 3 < 18 by decide)
  · exact Nat.lt_of_le_of_lt h2 (show 4 < 18 by decide)

/-- The command of TCK_SL_CTL after a write, its EN, which no write reaches, and the registers that the write leaves. -/
structure SlCtlWritten (n : Nat) (w : Word) (s t : State) : Prop where
  cmd : t.fget (TCK_SL_CTL.CMD n) = (TCK_SL_CTL.CMD n).of w
  en : t.fget (TCK_SL_CTL.EN n) = s.fget (TCK_SL_CTL.EN n)
  only : OnlyRegs [TCK_SL_CTL.off n] s t

theorem State.store_slCtl (n : Ctx) (w : Word) : SlCtlWritten n.val w s (s.store m (TCK_SL_CTL.off n.val) (slCtlSaved n.val w)) := by
  have hs : s.storable (TCK_SL_CTL.off n.val) (slCtlSaved n.val w) := State.storable_slCtl n.isLt
  have hrow := regRow_slCtl n
  refine ⟨?_, ?_, State.store_only hrow hs⟩
  · exact (State.fget_store_rw (f := TCK_SL_CTL.CMD n.val) hrow hs (.tail _ (.head _))).trans
      (slCtlSaved_apart (.inl (show 3 < 4 by decide)))
  · exact State.fget_store (f := TCK_SL_CTL.EN n.val) hrow hs (.head _)

theorem State.slCtl_unarmed (n : Ctx) (h : (TCK_SL_CTL.CMD_ARM n.val).of w = 0) : SlCtlWritten n.val w s (s.slCtl m n.val w) := by
  have h' : State.slCtl.TCK_SL_CTL.CMD_ARM.of n.val w = 0 := h
  have e : s.slCtl m n.val w = s.store m (TCK_SL_CTL.off n.val) (slCtlSaved n.val w) := by
    unfold State.slCtl
    simp only [h', if_true]
    rfl
  rw [e]
  exact State.store_slCtl n w

theorem State.slCtl_armed (n : Ctx) (h : (TCK_SL_CTL.CMD_ARM n.val).of w = 1) (hat : s.step < s.pair (TCK_SL_CMD_AT_LO.off n.val)) :
    SlCtlWritten n.val w s (s.slCtl m n.val w) ∧ (s.slCtl m n.val w).flag (TCK_SL_CTL.CMD_ARM n.val) = true := by
  obtain ⟨hcmd, hen, honly⟩ := State.store_slCtl (s := s) (m := m) n w
  rw [State.slCtl_arm h]
  generalize s.store m (TCK_SL_CTL.off n.val) (slCtlSaved n.val w) = u at hcmd hen honly
  dsimp only
  have hpair : u.pair (TCK_SL_CMD_AT_LO.off n.val) = s.pair (TCK_SL_CMD_AT_LO.off n.val) := by
    refine honly.pair ?_ ?_ <;> simp only [TCK_SL_CMD_AT_LO.off, TCK_SL_CTL.off, List.mem_singleton] <;> omega
  have hstep : u.step = s.step := by
    refine honly.pair ?_ ?_ <;> simp only [TCK_STEP_LO.off, TCK_SL_CTL.off, List.mem_singleton] <;> omega
  have hkeep {f : Fld} (hf : f.hi < 4) : (u.fset (TCK_SL_CTL.CMD_ARM n.val) 1).fget f = u.fget f :=
    State.fget_fset_apart _ _ _ _ (by omega) (.inr (.inl hf))
  rw [hpair, hstep, if_neg (by omega)]
  refine ⟨⟨(hkeep (show 3 < 4 by decide)).trans hcmd, (hkeep (show 0 < 4 by decide)).trans hen, ?_⟩, ?_⟩
  · exact honly.trans (OnlyRegs.fset u _ 1 (.head _))
  · exact State.flag_fset_one u (show 4 < 32 by decide) rfl

/-- A write of TCK_SL_CTL as the hub controller's (R313). -/
theorem State.regPut_slCtl (hup : s.hubUp = true) (n : Ctx) (hr : rsvOk (TCK_SL_CTL.off n.val) w = true) :
    s.regPut false 0 (TCK_SL_CTL.off n.val) w = s.slCtl 0 n.val w := by
  have hn := n.isLt
  have ho : TCK_SL_CTL.off n.val = 0x10100 + 0x40 * n.val := rfl
  have h0 : TCK_SL_CTL.off 0 = 0x10100 := rfl
  have h16 : TCK_SL_CTL.off 16 = 0x10500 := rfl
  have n1 : TCK_CTL.off = 0x10000 := rfl
  have n2 : TCK_SYNC_MAX.off = 0x10020 := rfl
  rw [State.regPut_own hup (.inl (by omega)) (regRow_slCtl n) rfl hr]
  unfold State.putReg State.putTck
  rw [if_neg (by omega), if_pos (by omega), if_neg (by omega), if_neg (by omega),
    if_pos (by simp only [Bool.and_eq_true, decide_eq_true_eq]; omega),
    show (TCK_SL_CTL.off n.val - TCK_SL_CTL.off 0) / 0x40 = n.val by omega]

/-! ### The step of a command -/

theorem regRow_cmdAt : ∀ n : Ctx,
    regRow? (TCK_SL_CMD_AT_LO.off n.val) = some ⟨0x10110, 16, 0x40, 1, 0, .hub, [⟨31, 0, .rw, 0, .mod⟩]⟩ ∧
    regRow? (TCK_SL_CMD_AT_HI.off n.val) = some ⟨0x10114, 16, 0x40, 1, 0, .hub, [⟨31, 0, .rw, 0, .mod⟩]⟩ := by
  decide +kernel

/-- The offset of a slice context's CMD_AT registers lies in the tick master's block, apart from TCK_SL_CTL. -/
theorem cmdAt_apart {off : Nat} (n : Ctx) (h : off = TCK_SL_CMD_AT_LO.off n.val ∨ off = TCK_SL_CMD_AT_HI.off n.val) :
    (0x10000 ≤ off ∧ off < 0x20000) ∧ off ≠ TCK_CTL.off ∧ off ≠ TCK_SYNC_MAX.off ∧ off % 0x40 ≠ 0 := by
  have hn := n.isLt
  have h1 : TCK_SL_CMD_AT_LO.off n.val = 0x10110 + 0x40 * n.val := rfl
  have h2 : TCK_SL_CMD_AT_HI.off n.val = 0x10114 + 0x40 * n.val := rfl
  have n1 : TCK_CTL.off = 0x10000 := rfl
  have n2 : TCK_SYNC_MAX.off = 0x10020 := rfl
  omega

theorem State.regPut_cmdAt {off : Nat} (hup : s.hubUp = true) (n : Ctx) (x : Word)
    (h : off = TCK_SL_CMD_AT_LO.off n.val ∨ off = TCK_SL_CMD_AT_HI.off n.val) :
    s.regPut false 0 off x = s.store 0 off x ∧ (s.store 0 off x).reg off = x ∧ OnlyRegs [off] s (s.store 0 off x) := by
  obtain ⟨hblock, hctl, hmax, hoff⟩ := cmdAt_apart n h
  have hs := State.storable_tck (s := s) (x := x) hblock
  have hmask : ∀ n : Ctx, rsvMask (TCK_SL_CMD_AT_LO.off n.val) = 0 ∧ rsvMask (TCK_SL_CMD_AT_HI.off n.val) = 0 := by decide +kernel
  rcases h with rfl | rfl
  · exact ⟨State.regPut_tck hup hblock hctl hmax (.inr hoff) (regRow_cmdAt n).1 rfl (rsvOk_word (hmask n).1 x),
      State.reg_store_word (regRow_cmdAt n).1 hs (.head _), State.store_only (regRow_cmdAt n).1 hs⟩
  · exact ⟨State.regPut_tck hup hblock hctl hmax (.inr hoff) (regRow_cmdAt n).2 rfl (rsvOk_word (hmask n).2 x),
      State.reg_store_word (regRow_cmdAt n).2 hs (.head _), State.store_only (regRow_cmdAt n).2 hs⟩

theorem OnlyRegs.hubUp {l : List Nat} (h : OnlyRegs l s t) : t.hubUp = s.hubUp := by
  unfold State.hubUp
  rw [h.1]

/-- The registers that a command of a slice context writes. -/
def slCmdRegs (n : Nat) : List Nat := [TCK_SL_CTL.off n, TCK_SL_CMD_AT_LO.off n, TCK_SL_CMD_AT_HI.off n]

theorem slCmdRegs_apart {n : Nat} (hn : n < 16) {o : Nat} (ho : o < 0x10100 ∨ 0x10500 ≤ o) : o ∉ slCmdRegs n := by
  have h0 : TCK_SL_CTL.off n = 0x10100 + 0x40 * n := rfl
  have h1 : TCK_SL_CMD_AT_LO.off n = 0x10110 + 0x40 * n := rfl
  have h2 : TCK_SL_CMD_AT_HI.off n = 0x10114 + 0x40 * n := rfl
  unfold slCmdRegs
  simp only [List.mem_cons, List.not_mem_nil, or_false]
  omega

theorem fabApart_slCmdRegs {n : Nat} (hn : n < 16) : fabApart (slCmdRegs n) := by
  intro o ho
  by_contra hc
  exact slCmdRegs_apart hn (by omega) ho

/-- A command and its step, written to a slice context of this module and not armed. -/
theorem State.writeAt_slCmd (hup : s.hubUp = true) (n : Ctx) {T x : Nat} (hT : T < 2 ^ 64) (hx : BitVec.ofNat 32 x = w)
    (hr : rsvOk (TCK_SL_CTL.off n.val) w = true) (harm : (TCK_SL_CTL.CMD_ARM n.val).of w = 0) : ∃ u,
    s.writeAt s.modId 1 [(TCK_SL_CMD_AT_LO.off n.val, T % 2 ^ 32), (TCK_SL_CMD_AT_HI.off n.val, T / 2 ^ 32),
      (TCK_SL_CTL.off n.val, x)] = u ∧
      u.pair (TCK_SL_CMD_AT_LO.off n.val) = T ∧ u.fget (TCK_SL_CTL.EN n.val) = s.fget (TCK_SL_CTL.EN n.val) ∧
      OnlyRegs (slCmdRegs n.val) s u := by
  have hhi : TCK_SL_CMD_AT_LO.off n.val + 4 = TCK_SL_CMD_AT_HI.off n.val := by
    simp only [TCK_SL_CMD_AT_LO.off, TCK_SL_CMD_AT_HI.off]
    omega
  have hapart : TCK_SL_CMD_AT_LO.off n.val ≠ TCK_SL_CMD_AT_HI.off n.val ∧ TCK_SL_CTL.off n.val ≠ TCK_SL_CMD_AT_LO.off n.val ∧
      TCK_SL_CTL.off n.val ≠ TCK_SL_CMD_AT_HI.off n.val := by
    simp only [TCK_SL_CMD_AT_LO.off, TCK_SL_CMD_AT_HI.off, TCK_SL_CTL.off]
    omega
  have e : s.writeAt s.modId 1 [(TCK_SL_CMD_AT_LO.off n.val, T % 2 ^ 32), (TCK_SL_CMD_AT_HI.off n.val, T / 2 ^ 32),
      (TCK_SL_CTL.off n.val, x)] = ((s.regPut false 0 (TCK_SL_CMD_AT_LO.off n.val) (BitVec.ofNat 32 (T % 2 ^ 32))).regPut false 0
        (TCK_SL_CMD_AT_HI.off n.val) (BitVec.ofNat 32 (T / 2 ^ 32))).regPut false 0 (TCK_SL_CTL.off n.val) (BitVec.ofNat 32 x) := by
    rw [State.writeAt_own 1 rfl]
    rfl
  obtain ⟨e1, v1, o1⟩ := State.regPut_cmdAt hup n (BitVec.ofNat 32 (T % 2 ^ 32)) (.inl rfl)
  rw [e, e1]
  generalize s.store 0 (TCK_SL_CMD_AT_LO.off n.val) (BitVec.ofNat 32 (T % 2 ^ 32)) = s1 at v1 o1
  obtain ⟨e2, v2, o2⟩ := State.regPut_cmdAt (o1.hubUp.trans hup) n (BitVec.ofNat 32 (T / 2 ^ 32)) (.inr rfl)
  rw [e2]
  generalize s1.store 0 (TCK_SL_CMD_AT_HI.off n.val) (BitVec.ofNat 32 (T / 2 ^ 32)) = s2 at v2 o2
  rw [hx, State.regPut_slCtl (o2.hubUp.trans (o1.hubUp.trans hup)) n hr]
  obtain ⟨-, hen, o3⟩ := State.slCtl_unarmed (s := s2) (m := 0) n harm
  generalize s2.slCtl 0 n.val w = s3 at hen o3
  refine ⟨s3, rfl, ?_, ?_, ?_⟩
  · have hlo : s3.reg (TCK_SL_CMD_AT_LO.off n.val) = BitVec.ofNat 32 (T % 2 ^ 32) :=
      (o3.2 _ (by simpa using hapart.2.1.symm)).trans ((o2.2 _ (by simpa using hapart.1)).trans v1)
    have hhigh : s3.reg (TCK_SL_CMD_AT_HI.off n.val) = BitVec.ofNat 32 (T / 2 ^ 32) :=
      (o3.2 _ (by simpa using hapart.2.2.symm)).trans v2
    unfold State.pair
    rw [hhi, hlo, hhigh, BitVec.toNat_ofNat, BitVec.toNat_ofNat]
    omega
  · refine hen.trans (congrArg (TCK_SL_CTL.EN n.val).of ?_)
    exact (o2.2 (TCK_SL_CTL.off n.val) (by simpa using hapart.2.2)).trans (o1.2 (TCK_SL_CTL.off n.val) (by simpa using hapart.2.1))
  · unfold slCmdRegs
    exact (o1.mono (by simp)).trans ((o2.mono (by simp)).trans (o3.mono (by simp)))

/-- The arm set in a slice context of this module for a step ahead. -/
theorem State.writeAt_slArm (hup : s.hubUp = true) (n : Ctx) {x : Nat} (hx : BitVec.ofNat 32 x = w)
    (hr : rsvOk (TCK_SL_CTL.off n.val) w = true) (harm : (TCK_SL_CTL.CMD_ARM n.val).of w = 1)
    (hat : s.step < s.pair (TCK_SL_CMD_AT_LO.off n.val)) : ∃ u, s.writeAt s.modId 1 [(TCK_SL_CTL.off n.val, x)] = u ∧
      SlCtlWritten n.val w s u ∧ u.flag (TCK_SL_CTL.CMD_ARM n.val) = true := by
  have e : s.writeAt s.modId 1 [(TCK_SL_CTL.off n.val, x)] = s.regPut false 0 (TCK_SL_CTL.off n.val) (BitVec.ofNat 32 x) := by
    rw [State.writeAt_own 1 rfl]
    rfl
  refine ⟨_, e.trans ?_, State.slCtl_armed (m := 0) n harm hat⟩
  rw [hx, State.regPut_slCtl hup n hr]

end

section
variable {s u v : State} {m : Master} {hseq : BitVec 16} {c : HostCmd} {l : List Nat} {r : Resv} {n T : Nat}

/-! ### SLICE_CMD -/

theorem State.cmdSlice_range (h : u.resvOf (c.args.getD 0 0) = none ∨ c.args.getD 1 0 < 1 ∨ 3 < c.args.getD 1 0) :
    u.cmdSlice c = u.cmdEnd 3 := by
  unfold State.cmdSlice
  split
  next => rfl
  next r hr =>
    rw [if_pos]
    rw [hr] at h
    simpa using h

/-- A slice command for a slice of this module alone. -/
structure SliceAsk (u : State) (c : HostCmd) (r : Resv) (n : Nat) : Prop where
  here : Here u (c.args.getD 0 0) r n
  least : 1 ≤ c.args.getD 1 0
  most : c.args.getD 1 0 ≤ 3

theorem SliceAsk.range (h : SliceAsk u c r n) : ¬ (decide (c.args.getD 1 0 < 1) || decide (3 < c.args.getD 1 0)) = true := by
  have h1 := h.least
  have h2 := h.most
  simp only [Bool.or_eq_true, decide_eq_true_eq]
  omega

theorem State.cmdSlice_read (h : SliceAsk u c r n) (hp : c.phase = 0) : u.cmdSlice c =
    (u.nextPhase.modCmd (fun x => { x with step := u.namedStep c 2 })).readAt u.modId [TCK_SL_STAT.off n, TCK_SL_CTL.off n] := by
  unfold State.cmdSlice
  rw [h.here.found]
  dsimp only
  rw [if_neg h.range]
  simp only [hp]
  rw [show (u.nextPhase.modCmd (fun x => { x with step := u.namedStep c 2 })).membersOf r = u.membersOf r from rfl, h.here.alone]
  rfl

theorem State.cmdSlice_unfit (h : SliceAsk u c r n) (hp : c.phase = 1) (hst : c.states = [v.slState n])
    (hfit : cmdState (c.args.getD 1 0) (v.slState n) = false) : u.cmdSlice c = u.cmdEnd 8 := by
  unfold State.cmdSlice
  rw [h.here.found]
  dsimp only
  rw [if_neg h.range]
  simp only [hp]
  rw [hst]
  rw [if_pos (by simpa using hfit)]

theorem State.cmdSlice_late (h : SliceAsk u c r n) (hp : c.phase = 1) (hst : c.states = [v.slState n])
    (hfit : cmdState (c.args.getD 1 0) (v.slState n) = true) (hlate : u.tooLate c.step = true) : u.cmdSlice c = u.cmdEnd 4 := by
  unfold State.cmdSlice
  rw [h.here.found]
  dsimp only
  rw [if_neg h.range]
  simp only [hp]
  rw [hst]
  rw [if_neg (by simpa using hfit), if_pos hlate]

theorem State.cmdSlice_write (h : SliceAsk u c r n) (hp : c.phase = 1) (hst : c.states = [v.slState n])
    (hfit : cmdState (c.args.getD 1 0) (v.slState n) = true) (hlate : u.tooLate c.step = false) : u.cmdSlice c =
      (u.writeAt u.modId 1 [(TCK_SL_CMD_AT_LO.off n, c.step % 2 ^ 32), (TCK_SL_CMD_AT_HI.off n, c.step / 2 ^ 32),
        (TCK_SL_CTL.off n, slCtlWord c u.modId (c.args.getD 1 0) 0)]).modCmd (fun x => { x with phase := 2 }) := by
  unfold State.cmdSlice
  rw [h.here.found]
  dsimp only
  rw [if_neg h.range]
  simp only [hp]
  rw [hst]
  rw [if_neg (by simpa using hfit), if_neg (by rw [hlate]; decide), h.here.alone]
  rfl

theorem State.cmdSlice_arm (h : SliceAsk u c r n) (hp : c.phase = 2) (hlate : u.tooLate c.step = false) : u.cmdSlice c =
    (u.writeAt u.modId 1 [(TCK_SL_CTL.off n, slCtlWord c u.modId (c.args.getD 1 0) 1)]).modCmd (fun x => { x with phase := 3 }) := by
  unfold State.cmdSlice
  rw [h.here.found]
  dsimp only
  rw [if_neg h.range]
  simp only [hp]
  rw [if_neg (by rw [hlate]; decide), h.here.alone]
  rfl

theorem State.cmdSlice_last (h : SliceAsk u c r n) (hp : c.phase = 3) : u.cmdSlice c = u.cmdEnd 0 := by
  unfold State.cmdSlice
  rw [h.here.found]
  dsimp only
  rw [if_neg h.range]
  simp only [hp]

/-- The word that a slice command writes holds what its read of TCK_SL_CTL found. -/
theorem slCtlWord_read {k x : Nat} {ws : List Nat} {w : Word} (hg : c.got = [(k, x :: w.toNat :: ws)]) (n cmd arm : Nat) :
    BitVec.ofNat 32 (slCtlWord c k cmd arm) = slCtlSet n w cmd arm := by
  unfold slCtlWord
  rw [hg, List.find?_cons_of_pos (by simp)]
  show BitVec.ofNat 32 (slCtlSet n (BitVec.ofNat 32 w.toNat) cmd arm).toNat = _
  rw [BitVec.ofNat_toNat, BitVec.setWidth_eq, BitVec.ofNat_toNat, BitVec.setWidth_eq]

/-- The step that a command names, by the registers before it. -/
theorem AtCmd.namedStep (h : AtCmd [] c s u) (i : Nat) :
    u.namedStep c i = if c.arg2 i = 0 then s.step + s.fget RIG_CTL.LEAD else c.arg2 i := by
  unfold State.namedStep HostCmd.arg2
  dsimp only
  rw [h.step (by decide), h.fget (f := RIG_CTL.LEAD) (by decide) (by decide) List.not_mem_nil]

theorem AtCmd.tooLate (h : AtCmd l c s u) (hl : TCK_STEP_LO.off ∉ l ∧ TCK_STEP_LO.off + 4 ∉ l) (T : Nat) :
    u.tooLate T = s.tooLate T := by
  unfold State.tooLate
  rw [h.step hl]

theorem runs_slice_range (h : TakenUp s m 6 hseq) (hs : s.mgr.sby = 0)
    (hr : s.resvOf (s.arg 0) = none ∨ s.arg 1 < 1 ∨ 3 < s.arg 1) :
    Runs (.sliceCmd m hseq) s fun t => Ended 3 hseq t ∧ ShownOnly [] s t := by
  have ha := s.hostCmd_arg 6 hseq.toNat true (i := 0) (by decide)
  have ha1 := s.hostCmd_arg 6 hseq.toNat true (i := 1) (by decide)
  have hb := AtCmd.begun (l := []) s (s.hostCmd 6 hseq.toNat true)
  exact h.runs_at_once hs (by decide) rfl (State.cmdSlice_range (by rwa [ha, ha1, hb.resvOf])) (by decide)

/-- SLICE_CMD with its step, and the state and TCK_SL_CTL of the context read. -/
def State.sliceCmd (s : State) (hseq : BitVec 16) (n T : Nat) : HostCmd :=
  { s.hostCmd 6 hseq.toNat true with
    phase := 1, step := T, got := [(s.modId, [(s.reg (TCK_SL_STAT.off n)).toNat, (s.reg (TCK_SL_CTL.off n)).toNat])] }

section
variable (h : TakenUp s m 6 hseq) (hs : s.mgr.sby = 0) (hh : Here s (s.arg 0) r n) (h1 : 1 ≤ s.arg 1) (h3 : s.arg 1 ≤ 3)
  (hT : T = if s.arg2 2 = 0 then s.step + s.fget RIG_CTL.LEAD else s.arg2 2)

include hh h1 h3

theorem AtCmd.sliceAsk (hu : AtCmd l c s u) (hl : fabApart l) (hargs : c.args = (s.hostCmd 6 hseq.toNat true).args) :
    SliceAsk u c r n := by
  have ha := s.hostCmd_arg 6 hseq.toNat true (i := 0) (by decide)
  have ha1 := s.hostCmd_arg 6 hseq.toNat true (i := 1) (by decide)
  exact ⟨by rw [hargs, ha]; exact hu.here hl hh, by rwa [hargs, ha1], by rwa [hargs, ha1]⟩

include hT

theorem State.cmdPhase_slice : ∃ u, (s.begun (s.hostCmd 6 hseq.toNat true)).cmdPhase (s.hostCmd 6 hseq.toNat true) = u ∧
    AtCmd [] (s.sliceCmd hseq n T) s u := by
  have h0 := AtCmd.begun (l := []) s (s.hostCmd 6 hseq.toNat true)
  have hstep : (s.begun (s.hostCmd 6 hseq.toNat true)).namedStep (s.hostCmd 6 hseq.toNat true) 2 = T := by
    rw [h0.namedStep, s.hostCmd_arg2 6 hseq.toNat true (by decide), hT]
  refine ⟨_, State.cmdSlice_read (h0.sliceAsk (hseq := hseq) hh h1 h3 fabApart_nil rfl) rfl, ?_⟩
  rw [hstep, h0.modId fabApart_nil]
  refine (h0.nextPhase.modCmd (fun x => { x with step := T })).readOwn fun o ho => ?_
  simp only [List.mem_cons, List.not_mem_nil, or_false] at ho
  rcases ho with rfl | rfl
  · exact ⟨plainRead_slStat ⟨n, hh.ctx⟩, Nat.le_trans (by decide) (Nat.le_add_right 0x10104 _)⟩
  · exact ⟨plainRead_slCtl ⟨n, hh.ctx⟩, Nat.le_trans (by decide) (Nat.le_add_right 0x10100 _)⟩

include h hs

theorem runs_slice_unfit (hfit : cmdState (s.arg 1) (s.slState n) = false) :
    Runs (.sliceCmd m hseq) s fun t => Ended 8 hseq t ∧ ShownOnly [] s t := by
  have ha1 : (s.sliceCmd hseq n T).args.getD 1 0 = s.arg 1 := s.hostCmd_arg 6 hseq.toNat true (by decide)
  have h0 := AtCmd.begun (l := []) s (s.hostCmd 6 hseq.toNat true)
  obtain ⟨u, e1, hu⟩ := State.cmdPhase_slice (hseq := hseq) hh h1 h3 hT
  have e2 : u.cmdPhase (s.sliceCmd hseq n T) = u.cmdEnd 8 := State.cmdSlice_unfit (v := s)
    (hu.sliceAsk (hseq := hseq) hh h1 h3 fabApart_nil rfl) rfl (HostCmd.states_one n rfl) (by rwa [ha1])
  refine h.runs_end hs (by decide) rfl (n := 97) (st := 8) ?_ hu (h.ready hs) rfl (by decide) rfl rfl rfl
    fun t hend hshown _ => ⟨hend, hshown⟩
  rw [h0.phase (h.ready hs) rfl, e1, hu.phase (h.ready hs) rfl, e2]

theorem runs_slice_late (hfit : cmdState (s.arg 1) (s.slState n) = true) (hlate : T < s.step + 16) :
    Runs (.sliceCmd m hseq) s fun t => Ended 4 hseq t ∧ ShownOnly [] s t := by
  have ha1 : (s.sliceCmd hseq n T).args.getD 1 0 = s.arg 1 := s.hostCmd_arg 6 hseq.toNat true (by decide)
  have h0 := AtCmd.begun (l := []) s (s.hostCmd 6 hseq.toNat true)
  obtain ⟨u, e1, hu⟩ := State.cmdPhase_slice (hseq := hseq) hh h1 h3 hT
  have e2 : u.cmdPhase (s.sliceCmd hseq n T) = u.cmdEnd 4 := State.cmdSlice_late (v := s)
    (hu.sliceAsk (hseq := hseq) hh h1 h3 fabApart_nil rfl) rfl (HostCmd.states_one n rfl) (by rwa [ha1])
    ((hu.tooLate (by decide) T).trans (decide_eq_true hlate))
  refine h.runs_end hs (by decide) rfl (n := 97) (st := 4) ?_ hu (h.ready hs) rfl (by decide) rfl rfl rfl
    fun t hend hshown _ => ⟨hend, hshown⟩
  rw [h0.phase (h.ready hs) rfl, e1, hu.phase (h.ready hs) rfl, e2]

omit h hs hT in
/-- The step and the command written, and nothing armed. -/
theorem State.cmdPhase_sliceWrite (hup : s.hubUp = true) (hfit : cmdState (s.arg 1) (s.slState n) = true) (hahead : s.step + 16 ≤ T)
    (hfits : T < 2 ^ 64) (hrsv : rsvOk (TCK_SL_CTL.off n) (s.reg (TCK_SL_CTL.off n)) = true)
    (hread : AtCmd [] (s.sliceCmd hseq n T) s u) : ∃ w, u.cmdPhase (s.sliceCmd hseq n T) = w ∧
      AtCmd (slCmdRegs n) { s.sliceCmd hseq n T with phase := 2 } s w ∧ w.pair (TCK_SL_CMD_AT_LO.off n) = T ∧
      w.fget (TCK_SL_CTL.EN n) = s.fget (TCK_SL_CTL.EN n) := by
  have hn := hh.ctx
  have hapart := fabApart_slCmdRegs hn
  have hlate : s.tooLate T = false := decide_eq_false (by omega)
  have ha1 : (s.sliceCmd hseq n T).args.getD 1 0 = s.arg 1 := s.hostCmd_arg 6 hseq.toNat true (by decide)
  have hu : AtCmd (slCmdRegs n) (s.sliceCmd hseq n T) s u := hread.mono fun _ hx => absurd hx List.not_mem_nil
  obtain ⟨w, hw, hat, hen, honly⟩ := State.writeAt_slCmd (hu.hubUp.trans hup) ⟨n, hn⟩ hfits
    (slCtlWord_read (c := s.sliceCmd hseq n T) rfl n (s.arg 1) 0) (rsvOk_slCtlSet ⟨n, hn⟩ (s.arg 1) 0 hrsv)
    (slCtlSet_arm (by decide) _)
  have e : u.cmdPhase (s.sliceCmd hseq n T) = w.modCmd (fun x => { x with phase := 2 }) := by
    refine (State.cmdSlice_write (v := s) (hu.sliceAsk (hseq := hseq) hh h1 h3 hapart rfl) rfl (HostCmd.states_one n rfl)
      (by rwa [ha1]) ((hread.tooLate (by decide) T).trans hlate)).trans ?_
    rw [← hw, ha1, hu.modId hapart]
    rfl
  refine ⟨_, e, (hu.shown honly.shown).modCmd _, hat, ?_⟩
  refine hen.trans (congrArg (TCK_SL_CTL.EN n).of (hread.reg ?_ ?_ List.not_mem_nil))
  · simp only [TCK_SL_CTL.EN, TCK_SL_CTL.off, FAB_CMD_STAT.off]
    omega
  · simp only [TCK_SL_CTL.EN, TCK_SL_CTL.off, HUB_PCIE_IRQ.off]
    omega

omit h hs hT in
/-- The command armed for the step that stands in the context. -/
theorem State.cmdPhase_sliceArm (hup : s.hubUp = true) (hahead : s.step + 16 ≤ T)
    (hrsv : rsvOk (TCK_SL_CTL.off n) (s.reg (TCK_SL_CTL.off n)) = true)
    (hu : AtCmd (slCmdRegs n) { s.sliceCmd hseq n T with phase := 2 } s u) (hat : u.pair (TCK_SL_CMD_AT_LO.off n) = T)
    (hen : u.fget (TCK_SL_CTL.EN n) = s.fget (TCK_SL_CTL.EN n)) : ∃ w, u.cmdPhase { s.sliceCmd hseq n T with phase := 2 } = w ∧
      AtCmd (slCmdRegs n) { s.sliceCmd hseq n T with phase := 3 } s w ∧ w.pair (TCK_SL_CMD_AT_LO.off n) = T ∧
      w.fget (TCK_SL_CTL.CMD n) = s.arg 1 ∧ w.flag (TCK_SL_CTL.CMD_ARM n) = true ∧
      w.fget (TCK_SL_CTL.EN n) = s.fget (TCK_SL_CTL.EN n) := by
  have hn := hh.ctx
  have hapart := fabApart_slCmdRegs hn
  have hstep : TCK_STEP_LO.off ∉ slCmdRegs n ∧ TCK_STEP_LO.off + 4 ∉ slCmdRegs n :=
    ⟨slCmdRegs_apart hn (.inl (by decide)), slCmdRegs_apart hn (.inl (by decide))⟩
  have hlate : s.tooLate T = false := decide_eq_false (by omega)
  have ha1 : (s.sliceCmd hseq n T).args.getD 1 0 = s.arg 1 := s.hostCmd_arg 6 hseq.toNat true (by decide)
  obtain ⟨w, hw, ⟨hcmd, hen2, honly⟩, harm⟩ := State.writeAt_slArm (hu.hubUp.trans hup) ⟨n, hn⟩
    (slCtlWord_read (c := { s.sliceCmd hseq n T with phase := 2 }) rfl n (s.arg 1) 1) (rsvOk_slCtlSet ⟨n, hn⟩ (s.arg 1) 1 hrsv)
    (slCtlSet_arm (by decide) _) (by rw [hat, hu.step hstep]; omega)
  have e : u.cmdPhase { s.sliceCmd hseq n T with phase := 2 } = w.modCmd (fun x => { x with phase := 3 }) := by
    refine (State.cmdSlice_arm (c := { s.sliceCmd hseq n T with phase := 2 }) (hu.sliceAsk (hseq := hseq) hh h1 h3 hapart rfl) rfl
      ((hu.tooLate hstep T).trans hlate)).trans ?_
    rw [← hw, ha1, hu.modId hapart]
  refine ⟨_, e, (hu.shown (honly.mono (l' := slCmdRegs n) (by simp [slCmdRegs])).shown).modCmd _, ?_,
    hcmd.trans (slCtlSet_cmd (by omega) 1), harm, hen2.trans hen⟩
  refine Eq.trans (honly.pair ?_ ?_) hat
  · simp only [TCK_SL_CMD_AT_LO.off, TCK_SL_CTL.off, List.mem_singleton]
    omega
  · simp only [TCK_SL_CMD_AT_LO.off, TCK_SL_CTL.off, List.mem_singleton]
    omega

theorem runs_slice (hfit : cmdState (s.arg 1) (s.slState n) = true) (hahead : s.step + 16 ≤ T) (hfits : T < 2 ^ 64)
    (hrsv : rsvOk (TCK_SL_CTL.off n) (s.reg (TCK_SL_CTL.off n)) = true) :
    Runs (.sliceCmd m hseq) s fun t => Ended 0 hseq t ∧ t.pair (TCK_SL_CMD_AT_LO.off n) = T ∧
      t.fget (TCK_SL_CTL.CMD n) = s.arg 1 ∧ t.flag (TCK_SL_CTL.CMD_ARM n) = true ∧
      t.fget (TCK_SL_CTL.EN n) = s.fget (TCK_SL_CTL.EN n) ∧ ShownOnly (slCmdRegs n) s t := by
  have h0 := AtCmd.begun (l := []) s (s.hostCmd 6 hseq.toNat true)
  obtain ⟨u1, e1, hu1⟩ := State.cmdPhase_slice (hseq := hseq) hh h1 h3 hT
  obtain ⟨u2, e2, hu2, hat2, hen2⟩ := State.cmdPhase_sliceWrite hh h1 h3 h.hubUp hfit hahead hfits hrsv hu1
  obtain ⟨u3, e3, hu3, hat3, hcmd, harm, hen3⟩ := State.cmdPhase_sliceArm hh h1 h3 h.hubUp hahead hrsv hu2 hat2 hen2
  have e4 : u3.cmdPhase { s.sliceCmd hseq n T with phase := 3 } = u3.cmdEnd 0 :=
    State.cmdSlice_last (hu3.sliceAsk (hseq := hseq) hh h1 h3 (fabApart_slCmdRegs hh.ctx) rfl) rfl
  refine h.runs_end hs (by decide) rfl (n := 95) (st := 0) ?_ hu3 (h.ready hs) rfl (by decide) rfl rfl rfl
    fun t hend hshown hregs => ?_
  · rw [h0.phase (h.ready hs) rfl, e1, hu1.phase (h.ready hs) rfl, e2, hu2.phase (h.ready hs) rfl, e3, hu3.phase (h.ready hs) rfl, e4]
  have hkeep {o : Nat} (ho : 0x10000 ≤ o ∧ o < 0x20000) : t.reg o = u3.reg o :=
    hregs o (show o ≠ 0xA3018 by omega) (show o ≠ 0x210 by omega)
  have hn := hh.ctx
  have hctl : t.reg (TCK_SL_CTL.off n) = u3.reg (TCK_SL_CTL.off n) := hkeep (by simp only [TCK_SL_CTL.off]; omega)
  have harmVal : t.fget (TCK_SL_CTL.CMD_ARM n) = u3.fget (TCK_SL_CTL.CMD_ARM n) := congrArg (TCK_SL_CTL.CMD_ARM n).of hctl
  refine ⟨hend, ?_, (congrArg (TCK_SL_CTL.CMD n).of hctl).trans hcmd, by rw [State.flag, harmVal]; exact harm,
    (congrArg (TCK_SL_CTL.EN n).of hctl).trans hen3, hshown⟩
  rw [← hat3]
  unfold State.pair
  rw [hkeep (by simp only [TCK_SL_CMD_AT_LO.off]; omega), hkeep (by simp only [TCK_SL_CMD_AT_LO.off]; omega)]

end

end

end Sys2Proof.Machine
end

-- Slice events
/-! SUPPORT for O56: what a slice event changes, wherever it is posted (R422, R429). -/
section
namespace Sys2Proof.Machine

section
variable {s t u : State}

/-! ### A fault below GRAVE holds no slice -/

theorem State.count_class (s : State) (f : FaultMsg) (cls : Nat) : (s.count f cls).1 = 3 ∨ (s.count f cls).1 = cls := by
  unfold State.count
  dsimp only
  split
  · split
    · exact .inl rfl
    · split
      · exact .inl rfl
      · exact .inr rfl
  · split
    · exact .inr rfl
    · split <;> exact .inr rfl

theorem State.classify_ctx (s : State) (f : FaultMsg) {cls : Nat} (stale held : Bool) (h : cls < 4) :
    (s.classify f cls stale held).ctx = s.ctx := by
  unfold State.classify
  extract_lets k counts
  have hk : k < 4 := by
    show (if stale then 0 else cls) < 4
    split
    · decide
    · exact h
  have hr : (if counts = true then s.count f k else (k, s)).2.ctx = s.ctx ∧ (if counts = true then s.count f k else (k, s)).1 < 4 := by
    split
    · refine ⟨State.count_ctx .., ?_⟩
      rcases s.count_class f k with h3 | h3
      · rw [h3]
        decide
      · rwa [h3]
    · exact ⟨rfl, hk⟩
  generalize (if counts = true then s.count f k else (k, s)) = r at hr
  obtain ⟨c, s1⟩ := r
  obtain ⟨hctx, hc⟩ := hr
  dsimp -zeta only at hctx hc ⊢
  extract_lets s2 s3 s4 s5 s6
  have hgrave : ¬ (decide (c = 4) && (!f.inj || s6.flag FLT_CTL.INJ_COUNTS)) = true := by
    rw [decide_eq_false (by omega), Bool.false_and]
    decide
  rw [if_neg hgrave]
  calc
    s6.ctx = s5.ctx := State.signal_ctx ..
    _ = s4.ctx := State.recordFault_ctx ..
    _ = s2.ctx := State.enqueue_ctx ..
    _ = s1.ctx := ite_ctx (State.promoted_ctx ..) rfl
    _ = s.ctx := hctx

/-- A mailbox pointer error changes no slice context (R427). -/
theorem State.raise_mailbox_ctx (s : State) (src : Word) (addr arg : Nat) : (s.raise 0x0803 src addr arg).ctx = s.ctx := by
  have hbase : faultBase (s.msgOf 0x0803 src addr arg).code.toNat = some 1 := rfl
  unfold State.raise State.take
  rw [hbase]
  split
  · exact State.classify_ctx _ _ _ _ (by decide)
  · exact State.classify_ctx _ _ _ _ (by decide)

/-! ### Events -/

/-- What an event leaves: the contexts, the cores, LPDDR5, and of the manager all but its message number and the events it keeps. -/
structure EventOnly (s t : State) : Prop where
  ctx : t.ctx = s.ctx
  core : t.core = s.core
  mem : t.mem = s.mem
  pending : t.pending = s.pending
  now : t.now = s.now
  fuses : t.fuses = s.fuses
  mgr : t.mgr = { s.mgr with msgNum := t.mgr.msgNum, events := t.mgr.events }

theorem EventOnly.refl (s : State) : EventOnly s s := ⟨rfl, rfl, rfl, rfl, rfl, rfl, rfl⟩

theorem EventOnly.trans (h : EventOnly s t) (k : EventOnly t u) : EventOnly s u := by
  refine ⟨k.ctx.trans h.ctx, k.core.trans h.core, k.mem.trans h.mem, k.pending.trans h.pending, k.now.trans h.now,
    k.fuses.trans h.fuses, ?_⟩
  rw [k.mgr, h.mgr]

theorem EventOnly.of_fault (h : FaultOnly s t) (hc : t.ctx = s.ctx) : EventOnly s t :=
  ⟨hc, h.core, h.mem, h.pending, h.now, h.fuses, by rw [h.mgr]⟩

theorem EventOnly.ite {c : Prop} [Decidable c] (h : EventOnly s t) (k : EventOnly s u) : EventOnly s (if c then t else u) := by
  split
  · exact h
  · exact k

theorem EventOnly.fset (s : State) (f : Fld) (v : Nat) : EventOnly s (s.fset f v) := ⟨rfl, rfl, rfl, rfl, rfl, rfl, rfl⟩

theorem EventOnly.modMb (s : State) (c : Nat) (f : MbxCh → MbxCh) : EventOnly s (s.modMb c f) := ⟨rfl, rfl, rfl, rfl, rfl, rfl, rfl⟩

theorem EventOnly.alert (s : State) (b : Nat) : EventOnly s (s.alert b) := .of_fault (FaultOnly.alert s b) (s.alert_ctx b)

theorem EventOnly.notify (s : State) (m v : Nat) : EventOnly s (s.notify m v) :=
  .ite (.ite ⟨rfl, rfl, rfl, rfl, rfl, rfl, rfl⟩ (.refl s)) (.ite (.alert s 4) (.refl s))

theorem EventOnly.chanFlag (s : State) (c : Nat) (f : Nat → Fld) : EventOnly s (s.chanFlag c f) :=
  .ite (.refl s) (.ite ((EventOnly.fset s _ 1).trans (.notify ..)) (.fset s _ 1))

theorem EventOnly.chanPtrs (s : State) (c : Nat) : EventOnly s (s.chanPtrs c) :=
  .ite (.refl s) (((EventOnly.modMb s c _).trans (.chanFlag ..)).trans (.of_fault (FaultOnly.raise ..) (State.raise_mailbox_ctx ..)))

theorem EventOnly.chanPost (s : State) (c : Nat) (ws : List Word) : EventOnly s (s.chanPost c ws) := by
  have h0 := EventOnly.chanPtrs s c
  unfold State.chanPost
  extract_lets s1 r was asleep m depth s2 s3 s4
  have h2 : EventOnly s s2 := h0.trans (.modMb ..)
  have h3 : EventOnly s s3 := .ite h2 (h2.trans (.chanFlag ..))
  have h4 : EventOnly s s4 := .ite (h3.trans (.chanFlag ..)) h3
  exact .ite (h0.trans ((EventOnly.chanFlag ..).trans (.chanFlag ..))) (.ite (h4.trans (.alert ..)) (.ite (h4.trans (.notify ..)) h4))

theorem EventOnly.postEvent (s : State) (ws : List Word) : EventOnly s (s.postEvent ws) := by
  unfold State.postEvent
  extract_lets w key g s1
  have h1 : EventOnly s s1 := ⟨rfl, rfl, rfl, rfl, rfl, rfl, rfl⟩
  refine .ite (.refl s) ?_
  split
  · exact .ite (h1.trans (.chanPost ..)) h1
  · exact h1

theorem EventOnly.sliceEvent (s : State) (code slice who cause : Nat) : EventOnly s (s.sliceEvent code slice who cause) :=
  .ite (.postEvent ..) (.ite ⟨rfl, rfl, rfl, rfl, rfl, rfl, rfl⟩ (.refl s))

end

end Sys2Proof.Machine
end

-- Fences and trees
/-! SUPPORT for O56: FENCE and TREE_CFG on a slice of this module alone (R296, R301). -/
section
namespace Sys2Proof.Machine

section
variable {s t u v : State} {m : Master} {hseq : BitVec 16} {c : HostCmd} {l : List Nat} {r : Resv} {n T : Nat}

/-! ### Contexts under a command -/

theorem AtCmd.modCx (h : AtCmd l c v u) (n : Nat) (f : CtxSt → CtxSt) : AtCmd l c (v.modCx n f) (u.modCx n f) := by
  obtain ⟨e, hr⟩ := h
  refine ⟨?_, hr⟩
  unfold State.modCx
  rw [e]

theorem ShownRegs.ctxOf (h : ShownRegs s t) (sl : Nat) : t.ctxOf sl = s.ctxOf sl := by
  unfold State.ctxOf firstBelow
  refine List.find?_congr fun n hn => ?_
  have hlt : n < 16 := List.mem_range.1 hn
  have hreg : t.reg (RIG_SL_STAT.off n) = s.reg (RIG_SL_STAT.off n) := h _
    (by simp only [RIG_SL_STAT.off, FAB_CMD_STAT.off]; omega) (by simp only [RIG_SL_STAT.off, HUB_PCIE_IRQ.off]; omega)
  have hid : t.slId n = s.slId n := congrArg (RIG_SL_STAT.SLICE_ID n).of hreg
  have hactive : t.fget (RIG_SL_STAT.ACTIVE n) = s.fget (RIG_SL_STAT.ACTIVE n) := congrArg (RIG_SL_STAT.ACTIVE n).of hreg
  have hshadow : t.fget (RIG_SL_STAT.SHADOW n) = s.fget (RIG_SL_STAT.SHADOW n) := congrArg (RIG_SL_STAT.SHADOW n).of hreg
  unfold State.flag
  rw [hid, hactive, hshadow]

theorem AtCmd.shownRegs (h : AtCmd [] c v u) : ShownRegs v u := fun _ ho hi => h.reg ho hi List.not_mem_nil

theorem whoWord_lt (a b : Nat) : whoWord a b < 2 ^ 32 := by
  unfold whoWord
  omega

/-- The slice, and the context that holds it, of a record for this module alone. -/
structure RecordFor (s : State) (sl n T : Nat) : Prop where
  slice : sl < 4096
  step : T < 2 ^ 64
  ctx : s.ctxOf sl = some n

theorem RecordFor.fence {sl : Nat} (h : RecordFor s sl n T) (hr : ShownRegs s u) (a b : Nat) {how : Nat} (hh : how < 256) :
    u.recordIn (u.fenceWords sl T (whoWord a b) how) = u.modCx n (fun x => x.fenceRec (whoWord a b) T how) :=
  State.recordIn_fence (recordWords_eventWords _ (by decide) h.slice h.step (whoWord_lt a b) hh) ((hr.ctxOf sl).trans h.ctx)

theorem RecordFor.tree {sl who how : Nat} (h : RecordFor s sl n T) (hr : ShownRegs s u) (hw : who < 2 ^ 32) (hh : how < 256) (term : Nat) :
    u.recordIn (eventWords 0x0A sl T who how term) =
      u.modCx n (fun x => { x with treeArm := x.treeArm ++ [(who, T, decide (how = 1))] }) :=
  State.recordIn_tree (recordWords_eventWords _ (by decide) h.slice h.step hw hh) ((hr.ctxOf sl).trans h.ctx)

/-- A fence written for a step and then armed. -/
theorem CtxSt.fenceRec_armed (x : CtxSt) (who T : Nat) {how : Nat} (h : how ≤ 1) :
    (x.fenceRec who T how).fenceRec who T 3 = { x with
      fenceHeld := x.fenceHeld.filter (fun f => !(f.1 = who && f.2.1 = T)), fenceArm := x.fenceArm ++ [(who, T, decide (how = 1))] } := by
  have hhow : how = 0 ∨ how = 1 := by omega
  rcases hhow with rfl | rfl
  · simp [CtxSt.fenceRec, List.filter_append, List.filter_filter]
  · simp [CtxSt.fenceRec, List.filter_append, List.filter_filter]

/-- A command that posts an event of what it has done, and ends. -/
theorem TakenUp.runs_event {code st k : Nat} {i : Instr} (h : TakenUp s m code hseq) (hs : s.mgr.sby = 0)
    (hc : code < 16) (e : exec i s = done s (s.fabRow code m hseq))
    (hrun : State.cmdRun 99 (s.begun (s.hostCmd code hseq.toNat true)) = State.cmdRun k (t.cmdEnd st))
    (hu : AtCmd [] c v u) (hv : v.mgr.Ready) (ht : EventOnly u t)
    (hh : c.hseq = hseq.toNat) (hst : st < 256) (hq : v.pending = s.pending) (hnow : v.now = s.now) (hf : v.fuses = s.fuses) :
    Runs i s fun w => Ended st hseq w ∧ w.ctx = v.ctx ∧ w.core = v.core ∧ w.mem = v.mem ∧ w.mgr.resv = v.mgr.resv := by
  have hm : t.mgr = { v.mgr with cmds := [c], msgNum := t.mgr.msgNum, events := t.mgr.events } := by
    rw [ht.mgr, hu.mgr]
  obtain ⟨hend, hshown⟩ := State.cmdEnd_spec (c := c) (s := t) (by rw [hm]) (by rw [hm]; exact hv.alone) hh hst
  obtain ⟨hshown, -⟩ := hshown []
  rw [State.cmdRun_none hend.2.2.2.1] at hrun
  have hmgr : (t.cmdEnd st).mgr = t.unqueued.mgr := by rw [hshown]
  have keep {α : Type} (f : State → α) (hf : ∀ (x : State) r o g, f { x with regs := r, out := o, mgr := g } = f x) (k : f t = f u) :
      f (t.cmdEnd st) = f v := by
    rw [hshown, hf, State.unqueued]
    exact (hf t t.regs t.out _).trans (k.trans ((congrArg f hu.1).trans (hf v _ _ _)))
  refine h.runs hs hc e hrun (v := t.cmdEnd st) ?_ ?_ ?_ ?_ ⟨hend, ?_, ?_, ?_, ?_⟩
  · rw [State.armTables_disarmed (by rw [hmgr, State.unqueued, hm]; exact hv.disarmed),
      State.armCommits_none (by rw [hmgr, State.unqueued, hm]; exact hv.noCommit)]
  · exact (keep State.pending (fun _ _ _ _ => rfl) ht.pending).trans hq
  · exact (keep State.now (fun _ _ _ _ => rfl) ht.now).trans hnow
  · exact (keep State.fuses (fun _ _ _ _ => rfl) ht.fuses).trans hf
  · exact keep State.ctx (fun _ _ _ _ => rfl) ht.ctx
  · exact keep State.core (fun _ _ _ _ => rfl) ht.core
  · exact keep State.mem (fun _ _ _ _ => rfl) ht.mem
  · rw [hmgr, State.unqueued, hm]

/-! ### FENCE -/

theorem State.cmdFence_range (h : u.resvOf (c.args.getD 0 0) = none ∨ 4096 ≤ c.args.getD 1 0 ∨ 65536 ≤ c.args.getD 2 0 ∨
    1 < c.args.getD 3 0) : u.cmdFence c = u.cmdEnd 3 := by
  unfold State.cmdFence
  dsimp only
  split
  next => rfl
  next r hr =>
    rw [if_pos]
    rw [hr] at h
    simpa [or_assoc] using h

/-- A fence for a slice of this module alone. -/
structure FenceAsk (u : State) (c : HostCmd) (r : Resv) (n : Nat) : Prop where
  here : Here u (c.args.getD 0 0) r n
  unit : c.args.getD 1 0 < 4096
  mask : c.args.getD 2 0 < 65536
  how : c.args.getD 3 0 ≤ 1

theorem FenceAsk.range (h : FenceAsk u c r n) : ¬ (decide (4096 ≤ c.args.getD 1 0) || decide (65536 ≤ c.args.getD 2 0) ||
    decide (1 < c.args.getD 3 0)) = true := by
  have h1 := h.unit
  have h2 := h.mask
  have h3 := h.how
  simp only [Bool.or_eq_true, decide_eq_true_eq]
  omega

/-- The unit that a fence command names. -/
def HostCmd.who (c : HostCmd) : Nat := whoWord (c.args.getD 1 0) (c.args.getD 2 0)

theorem State.cmdFence_late (h : FenceAsk u c r n) (hp : c.phase = 0) (hlate : u.tooLate (u.namedStep c 4) = true) :
    u.cmdFence c = u.cmdEnd 4 := by
  unfold State.cmdFence
  dsimp only
  rw [h.here.found]
  dsimp only
  rw [if_neg h.range]
  simp only [hp]
  rw [if_pos hlate]

theorem State.cmdFence_first (h : FenceAsk u c r n) (hp : c.phase = 0) (hlate : u.tooLate (u.namedStep c 4) = false)
    (hs : u.mgr.sby = 0) : u.cmdFence c = u.nextPhase.modCmd (fun x => { x with step := u.namedStep c 4 }) := by
  unfold State.cmdFence
  dsimp only
  rw [h.here.found]
  dsimp only
  rw [if_neg h.range]
  simp only [hp]
  rw [if_neg (by rw [hlate]; decide), State.journalFence, State.journal_alone hs]

theorem State.cmdFence_write (h : FenceAsk u c r n) (hp : c.phase = 1) (hlate : u.tooLate c.step = false) : u.cmdFence c =
    u.nextPhase.recordIn (u.nextPhase.fenceWords (c.args.getD 0 0) c.step c.who (c.args.getD 3 0)) := by
  have hmod := State.modId_modMgr u
  unfold State.cmdFence
  dsimp only
  rw [h.here.found]
  dsimp only
  rw [if_neg h.range]
  simp only [hp]
  rw [if_neg (by rw [hlate]; decide), h.here.alone]
  exact State.recordTo_own (hmod _).symm 1 _

theorem State.cmdFence_arm (h : FenceAsk u c r n) (hp : c.phase = 2) (hlate : u.tooLate c.step = false) : u.cmdFence c =
    u.nextPhase.recordIn (u.nextPhase.fenceWords (c.args.getD 0 0) c.step c.who 3) := by
  have hmod := State.modId_modMgr u
  unfold State.cmdFence
  dsimp only
  rw [h.here.found]
  dsimp only
  rw [if_neg h.range]
  simp only [hp]
  rw [if_neg (by rw [hlate]; decide), h.here.alone]
  exact State.recordTo_own (hmod _).symm 1 _

/-- The reservations with a fence of a slice set or cleared. -/
def fenceSet (sl who : Nat) (set : Bool) (l : List Resv) : List Resv :=
  l.map (fun y => if y.slice = sl then { y with fences := setFence y.fences who set } else y)

theorem State.cmdFence_last (h : FenceAsk u c r n) (hp : c.phase = 3) : u.cmdFence c =
    ((u.modMgr (fun g => { g with resv := fenceSet (c.args.getD 0 0) c.who (decide (c.args.getD 3 0 = 1)) g.resv })).sliceEvent 9
      (c.args.getD 0 0) c.who 0).cmdEnd 0 := by
  unfold State.cmdFence
  dsimp only
  rw [h.here.found]
  dsimp only
  rw [if_neg h.range]
  simp only [hp]
  rfl

section
variable (h : TakenUp s m 7 hseq) (hs : s.mgr.sby = 0)
include h hs

theorem runs_fence_range (hr : s.resvOf (s.arg 0) = none ∨ 4096 ≤ s.arg 1 ∨ 65536 ≤ s.arg 2 ∨ 1 < s.arg 3) :
    Runs (.fence m hseq) s fun t => Ended 3 hseq t ∧ ShownOnly [] s t := by
  have ha (i : Nat) (hi : i < 16) := s.hostCmd_arg 7 hseq.toNat true hi
  have hb := AtCmd.begun (l := []) s (s.hostCmd 7 hseq.toNat true)
  exact h.runs_at_once hs (by decide) rfl (State.cmdFence_range (by rwa [ha 0 (by decide), ha 1 (by decide), ha 2 (by decide),
    ha 3 (by decide), hb.resvOf])) (by decide)

variable (hh : Here s (s.arg 0) r n) (h1 : s.arg 1 < 4096) (h2 : s.arg 2 < 65536) (h3 : s.arg 3 ≤ 1)
  (hT : T = if s.arg2 4 = 0 then s.step + s.fget RIG_CTL.LEAD else s.arg2 4)

omit h hs in
include hh h1 h2 h3 in
theorem AtCmd.fenceAsk (hu : Here s (s.arg 0) r n → Here u (s.arg 0) r n) (hargs : c.args = (s.hostCmd 7 hseq.toNat true).args) :
    FenceAsk u c r n := by
  have ha (i : Nat) (hi : i < 16) := s.hostCmd_arg 7 hseq.toNat true hi
  exact ⟨by rw [hargs, ha 0 (by decide)]; exact hu hh, by rwa [hargs, ha 1 (by decide)], by rwa [hargs, ha 2 (by decide)],
    by rwa [hargs, ha 3 (by decide)]⟩

include hh h1 h2 h3 hT

theorem runs_fence_late (hlate : T < s.step + 16) : Runs (.fence m hseq) s fun t => Ended 4 hseq t ∧ ShownOnly [] s t := by
  have hb := AtCmd.begun (l := []) s (s.hostCmd 7 hseq.toNat true)
  refine h.runs_at_once hs (by decide) rfl (State.cmdFence_late (AtCmd.fenceAsk (hseq := hseq) hh h1 h2 h3 (hb.here fabApart_nil) rfl)
    rfl ?_) (by decide)
  rw [hb.namedStep, s.hostCmd_arg2 7 hseq.toNat true (by decide), ← hT, hb.tooLate (by decide)]
  exact decide_eq_true hlate

theorem runs_fence (hahead : s.step + 16 ≤ T) (hfits : T < 2 ^ 64) (hsl : s.arg 0 < 4096) (hctx : s.ctxOf (s.arg 0) = some n) :
    Runs (.fence m hseq) s fun t => Ended 0 hseq t ∧ t.cx n = { s.cx n with
      fenceHeld := (s.cx n).fenceHeld.filter (fun f => !(f.1 = whoWord (s.arg 1) (s.arg 2) && f.2.1 = T)),
      fenceArm := (s.cx n).fenceArm ++ [(whoWord (s.arg 1) (s.arg 2), T, decide (s.arg 3 = 1))] } ∧
      (∀ k, k ≠ n → t.cx k = s.cx k) ∧
      t.mgr.resv = fenceSet (s.arg 0) (whoWord (s.arg 1) (s.arg 2)) (decide (s.arg 3 = 1)) s.mgr.resv ∧
      t.core = s.core ∧ t.mem = s.mem := by
  have ha (i : Nat) (hi : i < 16) := s.hostCmd_arg 7 hseq.toNat true hi
  have hlate : s.tooLate T = false := decide_eq_false (by omega)
  have hrec : RecordFor s (s.arg 0) n T := ⟨hsl, hfits, hctx⟩
  let c0 := s.hostCmd 7 hseq.toNat true
  let c1 : HostCmd := { c0 with phase := 1, got := [], step := T }
  let c2 : HostCmd := { c1 with phase := 2 }
  let c3 : HostCmd := { c1 with phase := 3 }
  let who := whoWord (s.arg 1) (s.arg 2)
  let f1 : CtxSt → CtxSt := fun x => x.fenceRec who T (s.arg 3)
  let f2 : CtxSt → CtxSt := fun x => x.fenceRec who T 3
  have hwho : c0.who = who := by
    show whoWord (c0.args.getD 1 0) (c0.args.getD 2 0) = _
    rw [ha 1 (by decide), ha 2 (by decide)]
  have h0 := AtCmd.begun (l := []) s c0
  have e1 : (s.begun c0).cmdPhase c0 = (s.begun c0).nextPhase.modCmd (fun x => { x with step := T }) := by
    have hstep : (s.begun c0).namedStep c0 4 = T := by
      rw [h0.namedStep, s.hostCmd_arg2 7 hseq.toNat true (by decide), hT]
    rw [← hstep]
    refine State.cmdFence_first (AtCmd.fenceAsk (hseq := hseq) hh h1 h2 h3 (h0.here fabApart_nil) rfl) rfl ?_ (by rw [h0.mgr]; exact hs)
    rw [hstep, h0.tooLate (by decide), hlate]
  have hu1 : AtCmd [] c1 s ((s.begun c0).nextPhase.modCmd (fun x => { x with step := T })) := h0.nextPhase.modCmd _
  generalize (s.begun c0).nextPhase.modCmd (fun x => { x with step := T }) = u1 at e1 hu1
  have e2 : u1.cmdPhase c1 = u1.nextPhase.modCx n f1 := by
    refine (State.cmdFence_write (c := c1) (AtCmd.fenceAsk (hseq := hseq) hh h1 h2 h3 (hu1.here fabApart_nil) rfl) rfl
      ((hu1.tooLate (by decide) T).trans hlate)).trans ?_
    rw [show c1.args.getD 0 0 = s.arg 0 from ha 0 (by decide), show c1.args.getD 3 0 = s.arg 3 from ha 3 (by decide),
      show c1.who = who from hwho]
    exact hrec.fence hu1.nextPhase.shownRegs _ _ (by omega)
  have hu2 : AtCmd [] c2 (s.modCx n f1) (u1.nextPhase.modCx n f1) := hu1.nextPhase.modCx n f1
  generalize u1.nextPhase.modCx n f1 = u2 at e2 hu2
  have hcx (f : CtxSt → CtxSt) : Here (s.modCx n f) (s.arg 0) r n := ⟨hh.found, hh.alone, hh.ctx⟩
  have e3 : u2.cmdPhase c2 = u2.nextPhase.modCx n f2 := by
    refine (State.cmdFence_arm (c := c2) (AtCmd.fenceAsk (hseq := hseq) hh h1 h2 h3 (fun _ => hu2.here fabApart_nil (hcx f1)) rfl) rfl
      ((hu2.tooLate (by decide) T).trans hlate)).trans ?_
    rw [show c2.args.getD 0 0 = s.arg 0 from ha 0 (by decide), show c2.who = who from hwho]
    exact hrec.fence hu2.nextPhase.shownRegs _ _ (by decide)
  have hu3 : AtCmd [] c3 ((s.modCx n f1).modCx n f2) (u2.nextPhase.modCx n f2) := hu2.nextPhase.modCx n f2
  generalize u2.nextPhase.modCx n f2 = u3 at e3 hu3
  have hcx2 : Here ((s.modCx n f1).modCx n f2) (s.arg 0) r n := ⟨hh.found, hh.alone, hh.ctx⟩
  have e4 := State.cmdFence_last (c := c3) (AtCmd.fenceAsk (hseq := hseq) hh h1 h2 h3 (fun _ => hu3.here fabApart_nil hcx2) rfl) rfl
  rw [show c3.args.getD 0 0 = s.arg 0 from ha 0 (by decide), show c3.args.getD 3 0 = s.arg 3 from ha 3 (by decide),
    show c3.who = who from hwho] at e4
  have hruns := h.runs_event hs (by decide) (i := .fence m hseq) rfl (k := 95) (st := 0) (by
    rw [h0.phase (h.ready hs) rfl, e1, hu1.phase (h.ready hs) rfl, e2, hu2.phase (h.ready hs) rfl, e3, hu3.phase (h.ready hs) rfl]
    exact congrArg _ e4) (hu3.modResv (fenceSet (s.arg 0) who (decide (s.arg 3 = 1))))
    ⟨hs, h.noCmd, h.noAwait, h.disarmed, h.noCommit⟩ (EventOnly.sliceEvent ..) rfl (by decide) rfl rfl rfl
  refine hruns.imp fun t ⟨hend, hctx, hcore, hmem, hresv⟩ => ⟨hend, ?_, fun k hk => ?_, hresv, hcore, hmem⟩
  · calc
      t.cx n = ((s.modCx n f1).modCx n f2).cx n := by
        unfold State.cx
        rw [hctx]
      _ = f2 (f1 (s.cx n)) := by rw [State.cx_modCx_same, State.cx_modCx_same]
      _ = _ := (s.cx n).fenceRec_armed who T h3
  · calc
      t.cx k = ((s.modCx n f1).modCx n f2).cx k := by
        unfold State.cx
        rw [hctx]
      _ = s.cx k := by rw [State.cx_modCx_other _ hk, State.cx_modCx_other _ hk]

end

/-! ### TREE_CFG -/

theorem State.cmdTree_range (h : u.resvOf (c.args.getD 0 0) = none ∨ 4096 ≤ c.args.getD 1 0 ∨ 1 < c.args.getD 2 0) :
    u.cmdTree c = u.cmdEnd 3 := by
  unfold State.cmdTree
  split
  next => rfl
  next r hr =>
    rw [if_pos]
    rw [hr] at h
    simpa using h

/-- A tree configuration for a slice of this module alone. -/
structure TreeAsk (u : State) (c : HostCmd) (r : Resv) (n : Nat) : Prop where
  here : Here u (c.args.getD 0 0) r n
  rid : c.args.getD 1 0 < 4096
  how : c.args.getD 2 0 ≤ 1

theorem TreeAsk.range (h : TreeAsk u c r n) : ¬ (decide (4096 ≤ c.args.getD 1 0) || decide (1 < c.args.getD 2 0)) = true := by
  have h1 := h.rid
  have h2 := h.how
  simp only [Bool.or_eq_true, decide_eq_true_eq]
  omega

theorem State.cmdTree_read (h : TreeAsk u c r n) (hp : c.phase = 0) :
    u.cmdTree c = u.nextPhase.readAt u.modId [TCK_SL_STAT.off n] := by
  unfold State.cmdTree
  rw [h.here.found]
  dsimp only
  rw [if_neg h.range]
  simp only [hp]
  rw [h.here.alone]
  rfl

theorem State.cmdTree_unfit (h : TreeAsk u c r n) (hp : c.phase = 1) (hst : c.states = [v.slState n]) (h4 : v.slState n ≠ 4)
    (h5 : v.slState n ≠ 5) : u.cmdTree c = u.cmdEnd 8 := by
  unfold State.cmdTree
  rw [h.here.found]
  dsimp only
  rw [if_neg h.range]
  simp only [hp]
  rw [hst, if_pos (by simp [h4, h5])]

theorem State.cmdTree_arm (h : TreeAsk u c r n) (hp : c.phase = 1) (hst : c.states = [v.slState n])
    (hfit : v.slState n = 4 ∨ v.slState n = 5) : u.cmdTree c = u.nextPhase.recordIn (eventWords 0x0A r.slice
      (u.step + u.fget RIG_CTL.LEAD) (c.args.getD 1 0) (c.args.getD 2 0) (u.nextPhase.fget FAB_TERM.TERM)) := by
  have hmod := State.modId_modMgr u
  have hany : ¬ ([v.slState n].any (fun st => decide (st ≠ 4) && decide (st ≠ 5))) = true := by
    rcases hfit with hf | hf
    · rw [hf]
      decide
    · rw [hf]
      decide
  unfold State.cmdTree
  rw [h.here.found]
  dsimp only
  rw [if_neg h.range]
  simp only [hp]
  rw [hst, if_neg hany, h.here.alone]
  exact State.recordTo_own (hmod _).symm 1 _

theorem State.cmdTree_last (h : TreeAsk u c r n) (hp : c.phase = 2) : u.cmdTree c = u.cmdEnd 0 := by
  unfold State.cmdTree
  rw [h.here.found]
  dsimp only
  rw [if_neg h.range]
  simp only [hp]

theorem State.resvOf_slice {sl : Nat} (h : s.resvOf sl = some r) : r.slice = sl := by
  have hp := List.find?_some h
  simpa using hp

/-- TREE_CFG with the tick state read. -/
def State.treeCmd (s : State) (hseq : BitVec 16) (n : Nat) : HostCmd :=
  { s.hostCmd 9 hseq.toNat true with phase := 1, got := [(s.modId, [(s.reg (TCK_SL_STAT.off n)).toNat])] }

section
variable (h : TakenUp s m 9 hseq) (hs : s.mgr.sby = 0)
include h hs

theorem runs_tree_range (hr : s.resvOf (s.arg 0) = none ∨ 4096 ≤ s.arg 1 ∨ 1 < s.arg 2) :
    Runs (.treeCfg m hseq) s fun t => Ended 3 hseq t ∧ ShownOnly [] s t := by
  have ha (i : Nat) (hi : i < 16) := s.hostCmd_arg 9 hseq.toNat true hi
  have hb := AtCmd.begun (l := []) s (s.hostCmd 9 hseq.toNat true)
  exact h.runs_at_once hs (by decide) rfl (State.cmdTree_range (by rwa [ha 0 (by decide), ha 1 (by decide), ha 2 (by decide),
    hb.resvOf])) (by decide)

variable (hh : Here s (s.arg 0) r n) (h1 : s.arg 1 < 4096) (h2 : s.arg 2 ≤ 1)

omit h hs in
include hh h1 h2 in
theorem AtCmd.treeAsk (hu : Here s (s.arg 0) r n → Here u (s.arg 0) r n) (hargs : c.args = (s.hostCmd 9 hseq.toNat true).args) :
    TreeAsk u c r n := by
  have ha (i : Nat) (hi : i < 16) := s.hostCmd_arg 9 hseq.toNat true hi
  exact ⟨by rw [hargs, ha 0 (by decide)]; exact hu hh, by rwa [hargs, ha 1 (by decide)], by rwa [hargs, ha 2 (by decide)]⟩

omit h hs in
include hh h1 h2 in
theorem State.cmdPhase_tree : ∃ u, (s.begun (s.hostCmd 9 hseq.toNat true)).cmdPhase (s.hostCmd 9 hseq.toNat true) = u ∧
    AtCmd [] (s.treeCmd hseq n) s u := by
  have h0 := AtCmd.begun (l := []) s (s.hostCmd 9 hseq.toNat true)
  refine ⟨_, State.cmdTree_read (AtCmd.treeAsk (hseq := hseq) hh h1 h2 (h0.here fabApart_nil) rfl) rfl, ?_⟩
  rw [h0.modId fabApart_nil]
  exact h0.nextPhase.readOwn (plainRead_slStats hh.ctx)

include hh h1 h2

theorem runs_tree_unfit (h4 : s.slState n ≠ 4) (h5 : s.slState n ≠ 5) :
    Runs (.treeCfg m hseq) s fun t => Ended 8 hseq t ∧ ShownOnly [] s t := by
  have h0 := AtCmd.begun (l := []) s (s.hostCmd 9 hseq.toNat true)
  obtain ⟨u, e1, hu⟩ := State.cmdPhase_tree (hseq := hseq) hh h1 h2
  have e2 : u.cmdPhase (s.treeCmd hseq n) = u.cmdEnd 8 := State.cmdTree_unfit (v := s)
    (AtCmd.treeAsk (hseq := hseq) hh h1 h2 (hu.here fabApart_nil) rfl) rfl (HostCmd.states_one n rfl) h4 h5
  refine h.runs_end hs (by decide) rfl (n := 97) (st := 8) ?_ hu (h.ready hs) rfl (by decide) rfl rfl rfl
    fun t hend hshown _ => ⟨hend, hshown⟩
  rw [h0.phase (h.ready hs) rfl, e1, hu.phase (h.ready hs) rfl, e2]

theorem runs_tree (hfit : s.slState n = 4 ∨ s.slState n = 5) (hlead : s.step + s.fget RIG_CTL.LEAD < 2 ^ 64) (hsl : s.arg 0 < 4096)
    (hctx : s.ctxOf (s.arg 0) = some n) : Runs (.treeCfg m hseq) s fun t => Ended 0 hseq t ∧ ShownOnly [] (s.modCx n (fun x =>
      { x with treeArm := x.treeArm ++ [(s.arg 1, s.step + s.fget RIG_CTL.LEAD, decide (s.arg 2 = 1))] })) t := by
  have ha (i : Nat) (hi : i < 16) := s.hostCmd_arg 9 hseq.toNat true hi
  have hslice : r.slice = s.arg 0 := State.resvOf_slice hh.found
  have hrec : RecordFor s (s.arg 0) n (s.step + s.fget RIG_CTL.LEAD) := ⟨hsl, hlead, hctx⟩
  have h0 := AtCmd.begun (l := []) s (s.hostCmd 9 hseq.toNat true)
  obtain ⟨u, e1, hu⟩ := State.cmdPhase_tree (hseq := hseq) hh h1 h2
  let c2 : HostCmd := { s.treeCmd hseq n with phase := 2, got := [] }
  let f : CtxSt → CtxSt := fun x => { x with treeArm := x.treeArm ++ [(s.arg 1, s.step + s.fget RIG_CTL.LEAD, decide (s.arg 2 = 1))] }
  have e2 : u.cmdPhase (s.treeCmd hseq n) = u.nextPhase.modCx n f := by
    refine (State.cmdTree_arm (c := s.treeCmd hseq n) (v := s) (AtCmd.treeAsk (hseq := hseq) hh h1 h2 (hu.here fabApart_nil) rfl) rfl
      (HostCmd.states_one n rfl) hfit).trans ?_
    rw [hslice, hu.step (by decide), hu.fget (f := RIG_CTL.LEAD) (by decide) (by decide) List.not_mem_nil,
      show (s.treeCmd hseq n).args.getD 1 0 = s.arg 1 from ha 1 (by decide),
      show (s.treeCmd hseq n).args.getD 2 0 = s.arg 2 from ha 2 (by decide)]
    exact hrec.tree hu.nextPhase.shownRegs (by omega) (by omega) _
  have hu2 : AtCmd [] c2 (s.modCx n f) (u.nextPhase.modCx n f) := hu.nextPhase.modCx n f
  generalize u.nextPhase.modCx n f = u2 at e2 hu2
  have hcx : Here (s.modCx n f) (s.arg 0) r n := ⟨hh.found, hh.alone, hh.ctx⟩
  have e3 : u2.cmdPhase c2 = u2.cmdEnd 0 :=
    State.cmdTree_last (c := c2) (AtCmd.treeAsk (hseq := hseq) hh h1 h2 (fun _ => hu2.here fabApart_nil hcx) rfl) rfl
  have hv : (s.modCx n f).mgr.Ready := ⟨hs, h.noCmd, h.noAwait, h.disarmed, h.noCommit⟩
  refine h.runs_end hs (by decide) rfl (n := 96) (st := 0) ?_ hu2 hv rfl (by decide) rfl rfl rfl
    fun t hend hshown _ => ⟨hend, hshown⟩
  rw [h0.phase (h.ready hs) rfl, e1, hu.phase (h.ready hs) rfl, e2, hu2.phase hv rfl, e3]

end

end

end Sys2Proof.Machine
end

-- Slice commands of the host settled
/-! PROOF of O56. -/
section
namespace Sys2Proof.Machine

section
variable {s t u v : State} {m : Master} {hseq : BitVec 16} {c : HostCmd} {a : Await} {r : Resv} {n : Nat}

theorem ShownOnly.cx {l : List Nat} (h : ShownOnly l s t) (k : Nat) : t.cx k = s.cx k := by
  unfold State.cx
  rw [h.1]

theorem State.ctxOf_lt {sl : Nat} (h : s.ctxOf sl = some n) : n < 16 := by
  unfold State.ctxOf firstBelow at h
  exact List.mem_range.1 (List.mem_of_find?_eq_some h)

/-! ### The deadline of a command (R325) -/

/-- The one command in progress, which waits for an answer 16 boundaries before its step. -/
structure Overdue (s : State) (c : HostCmd) (a : Await) (hseq : BitVec 16) : Prop where
  alone : s.mgr.sby = 0
  cmds : s.mgr.cmds = [c]
  awaits : s.mgr.awaits = [a]
  job : a.job = 1
  disarmed : s.mgr.toArm = false
  noCommit : s.mgr.commits = []
  hseq : c.hseq = hseq.toNat
  named : c.step ≠ 0
  due : c.step ≤ s.step + 16

theorem Overdue.waits (h : Overdue s c a hseq) :
    ¬ (decide (c.step = 0) || !s.mgr.awaits.any (fun a => decide (a.job = 1)) || decide (s.step + 16 < c.step)) = true := by
  have hdue := h.due
  rw [decide_eq_false h.named, decide_eq_false (show ¬ s.step + 16 < c.step by omega), h.awaits, List.any_cons, decide_eq_true h.job]
  decide

theorem State.cmdDeadline_unarmed (h : Overdue s c a hseq) (hcode : c.code = 6) (hp : c.phase < 2) :
    s.cmdDeadline = (s.cmdEnd 4).proceed := by
  unfold State.cmdDeadline
  rw [h.cmds]
  dsimp only
  rw [if_neg h.waits, hcode]
  cases hr : s.resvOf (c.args.getD 0 0) with
  | none => rfl
  | some r => exact congrArg (fun u : State => (u.cmdEnd 4).proceed) (if_pos hp)

theorem State.cmdDeadline_slice (h : Overdue s c a hseq) (hcode : c.code = 6) (hp : 2 ≤ c.phase)
    (hr : s.resvOf (c.args.getD 0 0) = some r) : s.cmdDeadline = ((s.slCancel c r).cmdEnd 4).proceed := by
  unfold State.cmdDeadline
  rw [h.cmds]
  dsimp only
  rw [if_neg h.waits, hcode, hr]
  exact congrArg (fun u : State => (u.cmdEnd 4).proceed) (if_neg (by omega))

theorem State.cmdDeadline_fence (h : Overdue s c a hseq) (hcode : c.code = 7) (hr : s.resvOf (c.args.getD 0 0) = some r) :
    s.cmdDeadline = ((s.fenceCancel c r).cmdEnd 4).proceed := by
  unfold State.cmdDeadline
  rw [h.cmds]
  dsimp only
  rw [if_neg h.waits, hcode, hr]
  rfl

theorem State.cmdDeadline_period (h : Overdue s c a hseq) (hcode : c.code = 8) :
    s.cmdDeadline = (s.cmdEnd (if c.phase = 3 then 9 else 4)).proceed := by
  unfold State.cmdDeadline
  rw [h.cmds]
  dsimp only
  rw [if_neg h.waits, hcode]
  by_cases hp : c.phase = 3
  · rw [hp]
    rfl
  · rw [if_neg hp, if_neg (by simp [hp])]
    rfl

theorem State.cmdDeadline_adapt (h : Overdue s c a hseq) (hcode : c.code = 13) :
    s.cmdDeadline = ((s.adaptCancel c).cmdEnd 4).proceed := by
  unfold State.cmdDeadline
  rw [h.cmds]
  dsimp only
  rw [if_neg h.waits, hcode]
  rfl

/-- A command cancelled at its deadline ends, and nothing waits behind it. -/
theorem Overdue.runs (h : Overdue s c a hseq) {st : Nat} (e : s.cmdDeadline = (u.cmdEnd st).proceed) (hm : u.mgr = s.mgr)
    (hq : u.pending = s.pending) (hnow : u.now = s.now) (hf : u.fuses = s.fuses) (hst : st < 256) :
    Runs .sliceCmdDeadline s fun t => Ended st hseq t ∧ ShownOnly [] { u with mgr := { s.mgr with cmds := [], awaits := [] } } t := by
  obtain ⟨hend, hshown⟩ := State.cmdEnd_spec (c := c) (s := u) (by rw [hm]; exact h.cmds) (by rw [hm]; exact h.alone) h.hseq hst
  have hunq : u.unqueued = { u with mgr := { s.mgr with cmds := [], awaits := [] } } := by
    have hfilter : s.mgr.awaits.filter (fun a => a.job ≠ 1) = [] := by
      rw [h.awaits]
      simp [h.job]
    unfold State.unqueued
    rw [hm, hfilter]
  have hshown := hshown []
  rw [hunq] at hshown
  have hmgr : (u.cmdEnd st).mgr = { s.mgr with cmds := [], awaits := [] } := by rw [hshown.1]
  have hproceed : (u.cmdEnd st).proceed = u.cmdEnd st := by
    unfold State.proceed
    rw [State.cmdRun_none hend.2.2.2.1, State.armTables_disarmed (by rw [hmgr]; exact h.disarmed),
      State.armCommits_none (by rw [hmgr]; exact h.noCommit)]
  have hexec : exec .sliceCmdDeadline s = done s (u.cmdEnd st) := by
    rw [← hproceed, ← e]
    rfl
  exact runs_done hexec (by rw [hshown.1]; exact hq) (by rw [hshown.1]; exact hnow) (by rw [hshown.1]; exact hf) ⟨hend, hshown⟩

/-- A word of TCK_SL_CTL with a command and its arm, whatever has been read. -/
theorem slCtlWord_set (c : HostCmd) (k n cmd arm : Nat) : ∃ w, BitVec.ofNat 32 (slCtlWord c k cmd arm) = slCtlSet n w cmd arm := by
  unfold slCtlWord
  exact ⟨_, by rw [BitVec.ofNat_toNat, BitVec.setWidth_eq]; rfl⟩

theorem runs_deadline_slice (h : Overdue s c a hseq) (hcode : c.code = 6) (hp : 2 ≤ c.phase) (hh : Here s (c.args.getD 0 0) r n)
    (hup : s.hubUp = true) (hrsv : rsvOk (TCK_SL_CTL.off n) (BitVec.ofNat 32 (slCtlWord c s.modId 0 0)) = true) :
    Runs .sliceCmdDeadline s fun t => Ended 4 hseq t ∧ t.fget (TCK_SL_CTL.CMD n) = 0 ∧
      ShownOnly [TCK_SL_CTL.off n] { s with mgr := { s.mgr with cmds := [], awaits := [] } } t := by
  have hn := hh.ctx
  have e : s.slCancel c r = s.slCtl 0 n (BitVec.ofNat 32 (slCtlWord c s.modId 0 0)) := by
    unfold State.slCancel
    rw [hh.alone]
    show s.writeAt s.modId 0 [(TCK_SL_CTL.off n, slCtlWord c s.modId 0 0)] = _
    rw [State.writeAt_own 0 rfl]
    exact State.regPut_slCtl hup ⟨n, hn⟩ hrsv
  obtain ⟨w, hw⟩ := slCtlWord_set c s.modId n 0 0
  obtain ⟨hcmd, -, honly⟩ := State.slCtl_unarmed (s := s) (m := 0) (w := BitVec.ofNat 32 (slCtlWord c s.modId 0 0)) ⟨n, hn⟩
    (by rw [hw]; exact slCtlSet_arm (by decide) 0)
  have hcmd0 : (s.slCtl 0 n (BitVec.ofNat 32 (slCtlWord c s.modId 0 0))).fget (TCK_SL_CTL.CMD n) = 0 :=
    hcmd.trans (by rw [hw]; exact slCtlSet_cmd (by decide) 0)
  rw [← e] at honly hcmd0
  refine (h.runs (State.cmdDeadline_slice h hcode hp hh.found) (by rw [honly.1]) (by rw [honly.1]) (by rw [honly.1]) (by rw [honly.1])
    (by decide)).imp fun t ⟨hend, hshown⟩ => ⟨hend, ?_, ?_⟩
  · refine (congrArg (TCK_SL_CTL.CMD n).of (hshown.2 (TCK_SL_CTL.off n) ?_ ?_ List.not_mem_nil)).trans hcmd0
    · simp only [TCK_SL_CTL.off, FAB_CMD_STAT.off]
      omega
    · simp only [TCK_SL_CTL.off, HUB_PCIE_IRQ.off]
      omega
  · refine ⟨?_, fun o h1 h2 h3 => (hshown.2 o h1 h2 List.not_mem_nil).trans (honly.2 o h3)⟩
    rw [hshown.1, honly.1]

theorem runs_deadline_fence (h : Overdue s c a hseq) (hcode : c.code = 7) (hh : Here s (c.args.getD 0 0) r n)
    (hrec : RecordFor s r.slice n c.step) : Runs .sliceCmdDeadline s fun t => Ended 4 hseq t ∧
      (t.cx n).fenceArm = (s.cx n).fenceArm.filter (fun f => !(f.1 = c.who && f.2.1 = c.step)) ∧ t.mgr.resv = s.mgr.resv := by
  have e : s.fenceCancel c r = s.modCx n (fun x => x.fenceRec c.who c.step 2) := by
    unfold State.fenceCancel
    rw [hh.alone]
    exact (State.recordTo_own rfl 0 _).trans (hrec.fence (fun _ _ _ => rfl) _ _ (by decide))
  refine (h.runs (State.cmdDeadline_fence h hcode hh.found) (by rw [e]; rfl) (by rw [e]; rfl) (by rw [e]; rfl) (by rw [e]; rfl)
    (by decide)).imp fun t ⟨hend, hshown⟩ => ⟨hend, ?_, by rw [hshown.1]⟩
  have hcx : t.cx n = (s.fenceCancel c r).cx n := hshown.cx n
  rw [hcx, e, State.cx_modCx_same]
  rfl

/-- A record holds its step modulo 2^64. -/
theorem eventWords_step (code slice t who cause term : Nat) :
    eventWords code slice (t % 2 ^ 64) who cause term = eventWords code slice t who cause term := by
  have h1 : t % 2 ^ 64 % 2 ^ 32 = t % 2 ^ 32 := by omega
  have h2 : BitVec.ofNat 32 (t % 2 ^ 64 / 2 ^ 32) = BitVec.ofNat 32 (t / 2 ^ 32) := by
    refine BitVec.eq_of_toNat_eq ?_
    rw [BitVec.toNat_ofNat, BitVec.toNat_ofNat]
    omega
  unfold eventWords
  simp only [List.cons_append, List.map_cons, h1, h2]

theorem runs_deadline_adapt (h : Overdue s c a hseq) (hcode : c.code = 13) (halone : s.peers = []) :
    Runs .sliceCmdDeadline s fun t => Ended 4 hseq t ∧ t.fab.adaptAt = none ∧ t.core = s.core := by
  have e : s.adaptCancel c = { s with fab := s.fab.adaptRec (c.step % 2 ^ 64) 2 } := by
    have hone : s.adaptCancel c = s.recordIn (eventWords 0x0B 0 c.step 0 2 (s.fget FAB_TERM.TERM)) := by
      unfold State.adaptCancel
      rw [halone]
      exact State.recordTo_own rfl 0 _
    rw [hone, ← eventWords_step]
    exact State.recordIn_adapt (recordWords_eventWords _ (by decide) (by decide) (Nat.mod_lt _ (by decide)) (by decide) (by decide))
  refine (h.runs (State.cmdDeadline_adapt h hcode) (by rw [e]) (by rw [e]) (by rw [e]) (by rw [e]) (by decide)).imp
    fun t ⟨hend, hshown⟩ => ⟨hend, ?_, by rw [hshown.1, e]⟩
  rw [hshown.1, e]
  rfl

theorem cmdState_iff (k st : Nat) : cmdState k st = true ↔ if k = 2 then 2 ≤ st ∧ st ≤ 4 else st = 5 := by
  unfold cmdState
  split
  · simp
  · simp

end

/-- Settles O56, by the phases of each command: what a phase changes besides the command in progress is kept in a state that the
command's end leaves. -/
theorem sliceHostCommands : Obligations.SliceHostCommands := by
  unfold Obligations.SliceHostCommands
  intro s m hseq only kept quiet noCoord near lead here hs
  refine ⟨fun h => ?_, fun h => ?_, fun h => ?_, fun h => ?_, fun h => ?_, fun c a hc ha hjob harm hcom hh hnamed hdue => ?_⟩
  · have htaken := State.takesUp_parts h
    refine ⟨fun r hr => ?_, fun st hr => ?_⟩
    · obtain ⟨⟨hmask, hknown, hsend, hrecv⟩, hfree, hsl, hch, hfen, hmods, hctx⟩ := State.reservation_ok hr
      have harg (i : Nat) (hi : i < 16) := s.hostCmd_arg 4 hseq.toNat false hi
      refine (runs_reserve htaken hs hr).imp fun t ⟨hend, hregs, hresv, hkept⟩ => ⟨hend, hresv, fun o h1 h2 _ => hregs o h1 h2,
        fun hno hnear => (hkept ⟨hno, hnear⟩).1, hsl.trans (harg 0 (by decide)), hch.trans (harg 3 (by decide)), hfen, hmods,
        fun k hk => ⟨hknown k hk, hmask k hk⟩, fun y hy => ⟨(hfree y hy).1, (hfree y hy).2, fun e he => ?_⟩, hsend, hrecv⟩
      obtain ⟨hlt, hnot⟩ := State.freeCtx_free (hctx e he)
      exact ⟨hlt, hnot y hy⟩
    · have hst := State.reservation_error hr
      exact (runs_reserve_refused htaken hs hr (by omega)).imp fun t ⟨hend, hshown⟩ => ⟨hend, hshown, hst⟩
  · have htaken := State.takesUp_parts h
    refine ⟨fun hr => runs_release_none htaken hs hr, fun r n ⟨hr, halone, hn⟩ => ⟨fun hbusy => ?_, fun hidle => ?_⟩⟩
    · exact runs_release_busy htaken hs ⟨hr, halone, hn⟩ hbusy
    · exact (runs_release htaken hs ⟨hr, halone, hn⟩ hidle).imp fun t ⟨hend, hregs, hresv, hkept⟩ =>
        ⟨hend, fun o h1 h2 _ => hregs o h1 h2, hresv, fun hno hnear => (hkept ⟨hno, hnear⟩).1⟩
  · have htaken := State.takesUp_parts h
    refine ⟨fun hr => runs_slice_range htaken hs hr, fun r n T ⟨hr, halone, hn⟩ h1 h3 hT => ?_⟩
    intro fits
    have hfits : cmdState (s.arg 1) (s.slState n) = true ↔ fits := cmdState_iff _ _
    refine ⟨fun hf => ?_, fun hf hlate => ?_, fun hf hahead hlt hrsv => ?_⟩
    · exact runs_slice_unfit htaken hs ⟨hr, halone, hn⟩ h1 h3 hT (Bool.eq_false_iff.2 fun k => hf (hfits.1 k))
    · exact runs_slice_late htaken hs ⟨hr, halone, hn⟩ h1 h3 hT (hfits.2 hf) hlate
    · exact (runs_slice htaken hs ⟨hr, halone, hn⟩ h1 h3 hT (hfits.2 hf) hahead hlt hrsv).imp
        fun t ⟨hend, hat, hcmd, harm, hen, hshown⟩ => ⟨hend, hat, hcmd, harm, hen, hshown.1, hshown.2⟩
  · have htaken := State.takesUp_parts h
    refine ⟨fun hr => runs_fence_range htaken hs hr, fun r n T ⟨hr, halone, hn⟩ h1 h2 h3 hT => ⟨fun hlate => ?_,
      fun hahead hlt hsl hctx => ?_⟩⟩
    · exact runs_fence_late htaken hs ⟨hr, halone, hn⟩ h1 h2 h3 hT hlate
    · exact runs_fence htaken hs ⟨hr, halone, hn⟩ h1 h2 h3 hT hahead hlt hsl hctx
  · have htaken := State.takesUp_parts h
    refine ⟨fun hr => runs_tree_range htaken hs hr, fun r n ⟨hr, halone, hn⟩ h1 h2 => ⟨fun h4 h5 => ?_,
      fun hfit hlead hsl hctx => ?_⟩⟩
    · exact runs_tree_unfit htaken hs ⟨hr, halone, hn⟩ h1 h2 h4 h5
    · refine (runs_tree htaken hs ⟨hr, halone, hn⟩ h1 h2 hfit hlead hsl hctx).imp fun t ⟨hend, hshown⟩ =>
        ⟨hend, (hshown.cx n).trans (State.cx_modCx_same ..), fun k hk => (hshown.cx k).trans (State.cx_modCx_other s hk _),
          hshown.2, ?_⟩
      rw [hshown.1]
      rfl
  · have hover : Overdue s c a hseq := ⟨hs, hc, ha, hjob, harm, hcom, hh, hnamed, hdue⟩
    refine ⟨fun hcode hp => ?_, fun r n hcode hp hr halone hn hup hrsv => ?_, fun r n hcode hr halone hsl hctx hlt => ?_,
      fun hcode hp => ?_, fun hcode hp => ?_, fun hcode halone => ?_⟩
    · exact hover.runs (State.cmdDeadline_unarmed hover hcode hp) rfl rfl rfl rfl (by decide)
    · exact runs_deadline_slice hover hcode hp ⟨hr, halone, hn⟩ hup hrsv
    · refine (runs_deadline_fence hover hcode ⟨hr, halone, State.ctxOf_lt hctx⟩ ⟨hsl, hlt, hctx⟩).imp
        fun t ⟨hend, harms, hresv⟩ => ⟨hend, fun f hf => ?_, hresv⟩
      rw [harms, List.mem_filter, Bool.not_eq_true', Bool.and_eq_false_iff, decide_eq_false_iff_not, decide_eq_false_iff_not] at hf
      exact ⟨hf.1, fun ⟨hw, hstep⟩ => hf.2.elim (fun k => k hw) fun k => k hstep⟩
    · have e := State.cmdDeadline_period hover hcode
      rw [if_neg hp] at e
      exact hover.runs e rfl rfl rfl rfl (by decide)
    · have e := State.cmdDeadline_period hover hcode
      rw [if_pos hp] at e
      exact hover.runs e rfl rfl rfl rfl (by decide)
    · exact runs_deadline_adapt hover hcode halone

end Sys2Proof.Machine
end

-- O55 refuted
/-! PROOF of ¬ O55: an event posted on a channel that MBX_STAT does not serve reaches LNK_EXP_ID (R253, R420). -/
section
namespace Sys2Proof.Machine

/-- A channel number past the last one: the status word that State.chanFlag sets for it is LNK_EXP_ID of port 7. -/
def strayChannel : Nat := (LNK_EXP_ID.off 7 - MBX_STAT.off 0) / 4

/-- A manifest of groups 0 and 1 with one module each, 0 and 64. -/
def twoGroups : List Byte :=
  leBytes 64 (2 * 2 ^ 128 + 2 * 2 ^ 144) ++ leBytes 64 (2 ^ 14 + (1 + 2 ^ 14) * 2 ^ 128) ++
    [0, 64].flatMap (fun m => leBytes 32 (m + 1) ++ leBytes 288 m)

/-- The fields that differ from reset: module 0 acts as manager and as coordinator; the stray channel's binding is open and names a
receiver that sleeps; the third argument of the command is one map entry. -/
def strayFields : List (Fld × Nat) :=
  [(FAB_MGR_STAT.ROLE, 2), (FAB_MGR_STAT.COORD, 1), (FAB_MGR_ID.VALID, 1), (FAB_SELF.VALID, 1), (SEC_FW_STAT.PHASE, 3),
   (MBX_CTL.LOCK, 1), (MBX_BIND_W0.VALID strayChannel, 1), (MBX_BIND_W0.RECEIVER strayChannel, 2), (⟨FAB_CMD_ARG.off 2, 31, 0⟩, 1)]

/-- A coordinator asked to join port 7 of module 0 to port 7 of module 64 while a reservation names the stray channel. The group graph
in force differs from the verified one, so the tables are swapped and every reservation's channel gets an event. -/
def strayState : State :=
  { strayFields.foldl (fun s e => s.fset e.1 e.2) State.reset with
    mem := putBytes [] 0 (leBytes 8 (7 * 2 ^ 12 + 64 * 2 ^ 16 + 7 * 2 ^ 28))
    mgr := { MgrSt.init with
      manifest := twoGroups, resv := [⟨0, [], strayChannel, [], []⟩], coord := { MgrSt.init.coord with inputs := [(0, 7, 64, 7)] } } }

/-- The module that LNK_EXP_ID of port 7 names after a command. -/
def expectedAfter : Result → Nat
  | .next t => t.fget (LNK_EXP_ID.MODID 7)
  | _ => 0

set_option maxRecDepth 20000 in
/-- TIMEOUT of the stray channel is bit 7 of the module expected at port 7: 64 becomes 192. -/
theorem expectedAfter_stray : expectedAfter (exec (.xconnect 0 0) strayState) = 192 := by
  decide +kernel

theorem strayMap : xmapOf (strayState.memRead (strayState.arg2 0) (8 * strayState.arg 2)) = [(0, 7, 64, 7)] := by
  decide +kernel

/-- Refutes O55: the statement does not bound the channel of a reservation. Where one names a channel that MBX_STAT does not serve, the
event that follows XCONNECT's swap of the tables sets a bit of LNK_EXP_ID of port 7, so that it does not name the peer of the map.
SLICE_RESERVE records no such channel (R324), so no run comes to this state; the statement is about every state. -/
theorem not_hostCommands : ¬ Obligations.HostCommands := by
  unfold Obligations.HostCommands
  intro h
  obtain ⟨-, -, -, -, -, -, -, -, -, -, hx, -⟩ := h strayState 0 0
  obtain ⟨-, hx⟩ := hx (by decide +kernel) (by decide +kernel)
  obtain ⟨-, hx⟩ := hx (by decide +kernel) (by decide +kernel) (by decide +kernel)
  rw [strayMap] at hx
  obtain ⟨t, ht, -, -, -, hends⟩ := hx (by decide +kernel) (by decide +kernel) (by decide +kernel)
  obtain ⟨hown, -⟩ := hends (0, 7, 64, 7) (.head _)
  have hmod : t.fget (LNK_EXP_ID.MODID 7) = 64 := (hown (by decide +kernel)).1
  have hrun := expectedAfter_stray
  rw [ht] at hrun
  exact absurd (hmod.symm.trans hrun) (by decide)

end Sys2Proof.Machine
end

-- Entries of a core

/-! PROOF of O34: an entry that issues and meets neither a bad read nor a port without credit (R49, R104 to R133, R504). -/

section
namespace Sys2Proof.Machine

/-! ### Bytes written to a core's banks -/

/-- A core whose banks alone, with their parity and the count of its ACC writes, have been written. -/
def CoreSt.BanksOnly (x y : CoreSt) : Prop := y = { x with banks := y.banks, bad := y.bad, accWr := y.accWr }

theorem CoreSt.BanksOnly.trans {x y z : CoreSt} (h : x.BanksOnly y) (h' : y.BanksOnly z) : x.BanksOnly z := by
  unfold CoreSt.BanksOnly at *
  rw [h] at h'
  exact h'

theorem CoreSt.banksOnly_write (x : CoreSt) (cfg : CoreCfg) (w : List (Nat × Byte)) : x.BanksOnly (x.write cfg w) := by
  unfold CoreSt.write
  exact List.foldlRecOn (motive := x.BanksOnly) _ _ rfl fun _ hy _ _ => hy.trans rfl

/-- Bytes written after others: the last write of a byte stands. -/
theorem CoreSt.after_after {x y : CoreSt} {cfg : CoreCfg} {w : List (Nat × Byte)} (hodd : y.odd = x.odd)
    (hbanks : ∀ a, Store.get byteZero y.banks a = x.after cfg w a) (v : List (Nat × Byte)) (a : Nat) :
    y.after cfg v a = x.after cfg (w ++ v) a := by
  induction v using List.reverseRecOn with
  | nil => rw [List.append_nil]; exact hbanks a
  | append_singleton v e ih => rw [← List.append_assoc, CoreSt.after_append, CoreSt.after_append, hodd, ih]

/-- A write of an entry of a core that suppresses none. -/
theorem CoreSt.item_spec {x : CoreSt} (h : x.supp = 0) (cfg : CoreCfg) (i : Item) :
    x.BanksOnly (x.item cfg i).1 ∧ ∀ a, Store.get byteZero (x.item cfg i).1.banks a = x.after cfg i.bytes a := by
  have e : x.item cfg i = ({ x.write cfg i.bytes with accWr := x.accWr + i.accn }, true) := by
    unfold CoreSt.item
    rw [if_neg (by simp [h])]
  rw [e]
  exact ⟨(x.banksOnly_write cfg i.bytes).trans rfl, (x.banks_write cfg i.bytes).2⟩

/-- The writes of an entry of a core that suppresses none. -/
theorem CoreSt.items_spec (cfg : CoreCfg) (l : List Item) {x : CoreSt} (h : x.supp = 0) :
    x.BanksOnly (CoreSt.items cfg l x).1 ∧
      ∀ a, Store.get byteZero (CoreSt.items cfg l x).1.banks a = x.after cfg (l.flatMap Item.bytes) a := by
  induction l generalizing x with
  | nil => exact ⟨rfl, fun _ => rfl⟩
  | cons i l ih =>
    obtain ⟨hone, hbytes⟩ := CoreSt.item_spec h cfg i
    have hrec : (CoreSt.items cfg (i :: l) x).1 = (CoreSt.items cfg l (x.item cfg i).1).1 := rfl
    rw [hrec]
    generalize (x.item cfg i).1 = y at hone hbytes
    have hsupp : y.supp = 0 := by
      rw [hone]
      exact h
    have hodd : y.odd = x.odd := by rw [hone]
    obtain ⟨hrest, hlast⟩ := ih hsupp
    exact ⟨hone.trans hrest, fun a => (hlast a).trans (CoreSt.after_after hodd hbytes _ a)⟩

/-! ### Units emitted -/

/-- A core whose out ports alone have been added to. -/
def CoreSt.OutsOnly (x y : CoreSt) : Prop := y = { x with out0 := y.out0, out1 := y.out1, sends := y.sends }

theorem CoreSt.OutsOnly.trans {x y z : CoreSt} (h : x.OutsOnly y) (h' : y.OutsOnly z) : x.OutsOnly z := by
  unfold CoreSt.OutsOnly at *
  rw [h] at h'
  exact h'

theorem CoreSt.outsOnly_emit (cfg : CoreCfg) (port : Bool) (x : CoreSt) (e : Emit) : x.OutsOnly (x.emit cfg port e) := by
  cases e with
  | packet p => rfl
  | unit u | written u => cases port <;> rfl

theorem CoreSt.outsOnly_emits (cfg : CoreCfg) (port : Bool) (l : List (Nat × Emit)) (x : CoreSt) :
    x.OutsOnly (l.foldl (fun c e => c.emit cfg port e.2) x) :=
  List.foldlRecOn (motive := x.OutsOnly) _ _ rfl fun y hy e _ => hy.trans (CoreSt.outsOnly_emit cfg port y e.2)

/-- Units emitted are queued on the port that emits them, in order. -/
theorem CoreSt.emit_units (cfg : CoreCfg) (port : Bool) (us : List XUnit) {l : List (Nat × Emit)}
    (h : l.map Prod.snd = us.map Emit.unit) (x : CoreSt) :
    (l.foldl (fun c e => c.emit cfg port e.2) x).out0 = x.out0 ++ (if port = true then [] else us) ∧
      (l.foldl (fun c e => c.emit cfg port e.2) x).out1 = x.out1 ++ (if port = true then us else []) := by
  induction us generalizing l x with
  | nil =>
    rw [List.map_nil, List.map_eq_nil_iff] at h
    subst h
    cases port <;> simp
  | cons u us ih =>
    obtain ⟨e, t, rfl, he, ht⟩ := List.map_eq_cons_iff.1 h
    rw [List.foldl_cons, he]
    obtain ⟨h0, h1⟩ := ih ht (x.emit cfg port (.unit u))
    rw [h0, h1]
    cases port <;> simp [CoreSt.emit, CoreSt.queueOut]

/-! ### Flags and traps -/

theorem FaultOnly.holdAt (s : State) (n cause : Nat) : FaultOnly s (s.holdAt n cause) :=
  FaultOnly.modCx s n (match (s.cx n).holdNext with | none => some cause | some x => some x)

theorem FaultOnly.numberTrap (s : State) (n : Nat) (src : Word) (index raiser : Nat) (flags : List Nat) :
    FaultOnly s (s.numberTrap n src index raiser flags) :=
  .ite (.refl s) ((FaultOnly.eachOf fun _ t => .raise t _ _ _ _).trans (.holdAt _ n 7))

/-! ### An entry's writes, emissions and flags together -/

/-- What running an entry of a core leaves as it was: the queue, the time and the fuses, every other core, the engines, the channels,
the routers, the ports and LPDDR5. -/
structure UnitsKept (k : Nat) (s t : State) : Prop where
  pending : t.pending = s.pending
  now : t.now = s.now
  fuses : t.fuses = s.fuses
  co : ∀ j, j ≠ k → t.co j = s.co j
  eng : t.eng = s.eng
  chan : t.chan = s.chan
  rtr : t.rtr = s.rtr
  port : t.port = s.port
  mem : t.mem = s.mem

section
variable {s t u : State} {k n : Nat}

theorem UnitsKept.trans (h : UnitsKept k s t) (h' : UnitsKept k t u) : UnitsKept k s u where
  pending := h'.pending.trans h.pending
  now := h'.now.trans h.now
  fuses := h'.fuses.trans h.fuses
  co := fun j hj => (h'.co j hj).trans (h.co j hj)
  eng := h'.eng.trans h.eng
  chan := h'.chan.trans h.chan
  rtr := h'.rtr.trans h.rtr
  port := h'.port.trans h.port
  mem := h'.mem.trans h.mem

theorem UnitsKept.modCo (s : State) (k : Nat) (f : CoreSt → CoreSt) : UnitsKept k s (s.modCo k f) :=
  ⟨rfl, rfl, rfl, fun _ hj => State.co_modCo_other s hj f, rfl, rfl, rfl, rfl, rfl⟩

theorem FaultOnly.co (h : FaultOnly s t) (j : Nat) : t.co j = s.co j := by
  unfold State.co
  rw [h.core]

theorem FaultOnly.unitsKept (h : FaultOnly s t) : UnitsKept k s t :=
  ⟨h.pending, h.now, h.fuses, fun j _ => h.co j, h.eng, h.chan, h.rtr, h.port, h.mem⟩

theorem UnitsKept.runs {c : Instr} {P : State → Prop} (h : UnitsKept k s t) (e : exec c s = done s t) (hp : P t) : Runs c s P :=
  runs_done e h.pending h.now h.fuses hp

/-- Flags that an entry raises, with their traps, change of the core its status alone. -/
theorem State.coreFlags_spec (s : State) (n k trap : Nat) (f : NFlags) :
    (s.co k).StatOnly ((s.coreFlags n k trap f).co k) ∧ UnitsKept k s (s.coreFlags n k trap f) := by
  have h : FaultOnly (s.modCo k (fun c => c.flag f.coreBits)) (s.coreFlags n k trap f) := .numberTrap _ _ _ _ _ _
  refine ⟨?_, (UnitsKept.modCo s k _).trans h.unitsKept⟩
  rw [h.co, State.co_modCo_same]
  exact CoreSt.statOnly_flag _ _

/-- A core that has carried out a part of an entry: its banks and out ports have been written, its status shows flags. -/
def CoreSt.Worked (x y : CoreSt) : Prop :=
  y = { x with banks := y.banks, bad := y.bad, accWr := y.accWr, out0 := y.out0, out1 := y.out1, sends := y.sends, stat := y.stat,
               drops := y.drops }

/-- A part of a plan carried out by a core that suppresses no ACC write. -/
structure Carried (k : Nat) (d : Desc) (cfg : CoreCfg) (w : Plan) (s t : State) : Prop where
  core : (s.co k).Worked (t.co k)
  bytes : ∀ x, Store.get byteZero (t.co k).banks x = (s.co k).after cfg (w.items.flatMap Item.bytes) x
  units : ∀ us : List XUnit, w.emit.map Prod.snd = us.map Emit.unit →
    (t.co k).out0 = (s.co k).out0 ++ (if d.pout = true then [] else us) ∧
    (t.co k).out1 = (s.co k).out1 ++ (if d.pout = true then us else [])
  kept : UnitsKept k s t

theorem State.carry_spec {d : Desc} {b : Banks} (hsupp : (s.co k).supp = 0) (w : Plan) :
    Carried k d b.cfg w s (s.carry n k d b w) := by
  obtain ⟨hbanks, hbytes⟩ := CoreSt.items_spec b.cfg w.items hsupp
  unfold State.carry
  generalize CoreSt.items b.cfg w.items (s.co k) = cf at hbanks hbytes
  obtain ⟨c, fl⟩ := cf
  dsimp only at hbanks hbytes ⊢
  have houts := CoreSt.outsOnly_emits b.cfg d.pout w.emit c
  have hunits := fun us h => CoreSt.emit_units b.cfg d.pout us (l := w.emit) h c
  generalize w.emit.foldl (fun c e => c.emit b.cfg d.pout e.2) c = c' at houts hunits
  have hdrops := CoreSt.statOnly_drops c' w.drops
  generalize w.drops.foldl (fun c _ => c.drop) c' = c'' at hdrops
  obtain ⟨hstat, hkept⟩ := State.coreFlags_spec (s.modCo k (fun _ => c'')) n k d.trap fl
  generalize (s.modCo k (fun _ => c'')).coreFlags n k d.trap fl = t at hstat hkept
  rw [State.co_modCo_same] at hstat
  have hlast := hdrops.trans hstat
  unfold CoreSt.BanksOnly CoreSt.OutsOnly CoreSt.StatOnly at *
  refine ⟨?_, fun x => ?_, fun us h => ?_, (UnitsKept.modCo s k _).trans hkept⟩
  · unfold CoreSt.Worked
    rw [hlast, houts, hbanks]
  · rw [hlast, houts]
    exact hbytes x
  · obtain ⟨h0, h1⟩ := hunits us h
    rw [hlast]
    rw [hbanks] at h0 h1
    exact ⟨h0, h1⟩

/-! ### From its issue to its end or to where it stops -/

variable {d : Desc} {b : Banks} {upto : Option Nat} {p : Plan}

/-- An entry carried on under a plan that meets no bad read, finds credit and is not stopped before its last cycle. -/
theorem State.runPlan_completes (hstall : (s.co k).stalled = false) (hprog : (s.co k).prog = 0)
    (hcredit : stallAt (p.window 0 none).emit 0 ((s.co k).outHeld d.pout) = none)
    (hgood : s.firstBad b k (p.window 0 none).reads = none) (hupto : ∀ u, upto = some u → p.cyc ≤ u) :
    s.runPlan n k d b upto p = (s.carry n k d b (p.window 0 none)).modCo k (fun c =>
      { c with accs := p.accs, maxs := p.maxs, rng := some p.rng }.advance 1 p.cyc) := by
  rw [← State.runPlan_ends hstall hprog hcredit hgood]
  cases upto with
  | none => rfl
  | some u =>
    unfold State.runPlan
    simp only [Nat.not_lt.2 (hupto u rfl), if_false]

/-- One that is stopped in a cycle before its last. -/
theorem State.runPlan_stops {u : Nat} (hstall : (s.co k).stalled = false) (hprog : (s.co k).prog = 0)
    (hcredit : stallAt (p.window 0 none).emit 0 ((s.co k).outHeld d.pout) = none)
    (hgood : s.firstBad b k (p.window 0 none).reads = none) (hu : u < p.cyc) :
    s.runPlan n k d b (some u) p = (s.carry n k d b (p.window 0 (some (u + 1)))).modCo k (fun c =>
      { c with work := some p, prog := max c.prog u, stalled := false }) := by
  unfold State.runPlan
  simp only [hstall, hprog, hcredit, hgood, Bool.false_and, Bool.false_eq_true, if_false, hu, if_true, minOpt]
  unfold State.pause
  rw [hprog]
  rfl

/-- An entry of a core that has run to its end under its plan. -/
structure EntryDone (k : Nat) (d : Desc) (cfg : CoreCfg) (p : Plan) (s t : State) : Prop where
  bytes : ∀ x, Store.get byteZero (t.co k).banks x = (s.co k).after cfg ((p.window 0 none).items.flatMap Item.bytes) x
  entry : (t.co k).entry = (s.co k).entry + 1
  cyc : (t.co k).cyc = (s.co k).cyc + p.cyc
  accs : (t.co k).accs = p.accs
  maxs : (t.co k).maxs = p.maxs
  rng : (t.co k).rng = some p.rng
  work : (t.co k).work = none
  prog : (t.co k).prog = 0
  units : ∀ us : List XUnit, (p.window 0 none).emit.map Prod.snd = us.map Emit.unit →
    (t.co k).out0 = (s.co k).out0 ++ (if d.pout = true then [] else us) ∧
    (t.co k).out1 = (s.co k).out1 ++ (if d.pout = true then us else [])
  kept : UnitsKept k s t

/-- One that has stopped after its cycle `u`. -/
structure EntryStopped (k : Nat) (cfg : CoreCfg) (p : Plan) (u : Nat) (s t : State) : Prop where
  bytes : ∀ x, Store.get byteZero (t.co k).banks x = (s.co k).after cfg ((p.window 0 (some (u + 1))).items.flatMap Item.bytes) x
  entry : (t.co k).entry = (s.co k).entry
  cyc : (t.co k).cyc = (s.co k).cyc
  work : (t.co k).work = some p
  prog : (t.co k).prog = u
  accs : (t.co k).accs = (s.co k).accs
  kept : UnitsKept k s t

theorem State.runPlan_done (hsupp : (s.co k).supp = 0) (hstall : (s.co k).stalled = false) (hprog : (s.co k).prog = 0)
    (hcredit : stallAt (p.window 0 none).emit 0 ((s.co k).outHeld d.pout) = none)
    (hgood : s.firstBad b k (p.window 0 none).reads = none) (hupto : ∀ u, upto = some u → p.cyc ≤ u) :
    EntryDone k d b.cfg p s (s.runPlan n k d b upto p) := by
  rw [State.runPlan_completes hstall hprog hcredit hgood hupto]
  obtain ⟨hcore, hbytes, hunits, hkept⟩ := State.carry_spec (n := n) (d := d) (b := b) hsupp (p.window 0 none)
  generalize s.carry n k d b (p.window 0 none) = v at hcore hbytes hunits hkept
  have hentry : (v.co k).entry = (s.co k).entry := by rw [hcore]
  have hcyc : (v.co k).cyc = (s.co k).cyc := by rw [hcore]
  constructor
  case kept => exact hkept.trans (.modCo v k _)
  all_goals rw [State.co_modCo_same]
  case bytes => exact hbytes
  case entry => exact congrArg (· + 1) hentry
  case cyc => exact congrArg (· + p.cyc) hcyc
  case units => exact hunits
  all_goals rfl

theorem State.runPlan_stopped {u : Nat} (hsupp : (s.co k).supp = 0) (hstall : (s.co k).stalled = false)
    (hprog : (s.co k).prog = 0) (hcredit : stallAt (p.window 0 none).emit 0 ((s.co k).outHeld d.pout) = none)
    (hgood : s.firstBad b k (p.window 0 none).reads = none) (hu : u < p.cyc) :
    EntryStopped k b.cfg p u s (s.runPlan n k d b (some u) p) := by
  rw [State.runPlan_stops hstall hprog hcredit hgood hu]
  obtain ⟨hcore, hbytes, -, hkept⟩ := State.carry_spec (n := n) (d := d) (b := b) hsupp (p.window 0 (some (u + 1)))
  generalize s.carry n k d b (p.window 0 (some (u + 1))) = v at hcore hbytes hkept
  constructor
  case kept => exact hkept.trans (.modCo v k _)
  all_goals rw [State.co_modCo_same]
  case bytes => exact hbytes
  case prog =>
    have hv : (v.co k).prog = 0 := by
      rw [hcore]
      exact hprog
    show max (v.co k).prog u = u
    rw [hv, Nat.zero_max]
  all_goals
    dsimp only
    rw [hcore]

end

/-! ### An entry that issues -/

section
variable {s : State} {k n : Nat} {d : Desc} {sel : Desc → Bool} {plan : Banks → Desc → Nat → CoreSt → Rng → Plan}

/-- The plan of an entry that issues now. -/
def State.planNow (s : State) (n k : Nat) (d : Desc) (plan : Banks → Desc → Nat → CoreSt → Rng → Plan) : Plan :=
  plan (s.coreBanks n k) d (s.rowsOf n k d).1 (s.co k) (s.coreRng n k)

/-- An entry that issues now, whose reads pass parity and whose emissions find credit, at a core that suppresses no ACC write. -/
structure Issues (s : State) (k : Nat) (sel : Desc → Bool) (plan : Banks → Desc → Nat → CoreSt → Rng → Plan)
    (n : Nat) (d : Desc) : Prop where
  entry : s.entryAt k sel = some (n, d)
  work : (s.co k).work = none
  prog : (s.co k).prog = 0
  stalled : (s.co k).stalled = false
  supp : (s.co k).supp = 0
  reads : ((s.planNow n k d plan).window 0 none).reads.all (fun x => !s.unitBad (s.coreBanks n k) k x.2) = true
  credit : stallAt ((s.planNow n k d plan).window 0 none).emit 0 ((s.co k).outHeld d.pout) = none

theorem UnitsKept.rowsOf (s : State) (n k : Nat) (d : Desc) : UnitsKept k s (s.rowsOf n k d).2 := by
  rcases s.rowsOf_cases n k d with h | h
  all_goals
    rw [h]
    exact ⟨rfl, rfl, rfl, fun _ _ => rfl, rfl, rfl, rfl, rfl, rfl⟩

/-- A draw taken for the rows of an entry changes nothing of what the entry meets. -/
theorem State.rowsOf_met (s : State) (n k : Nat) (d : Desc) : (s.rowsOf n k d).2.coreBanks n k = s.coreBanks n k ∧
    (s.rowsOf n k d).2.co k = s.co k ∧ (s.rowsOf n k d).2.coreRng n k = s.coreRng n k ∧
    ∀ b x, (s.rowsOf n k d).2.unitBad b k x = s.unitBad b k x := by
  rcases s.rowsOf_cases n k d with h | h
  all_goals
    rw [h]
    exact ⟨rfl, rfl, rfl, fun _ _ => rfl⟩

theorem State.entry_begins (upto : Option Nat) (h : Issues s k sel plan n d) : s.entry k upto sel plan =
    (s.rowsOf n k d).2.runPlan n k d (s.coreBanks n k) upto (s.planNow n k d plan) := by
  obtain ⟨hb, hco, hrng, -⟩ := s.rowsOf_met n k d
  unfold State.entry State.planNow
  simp only [h.entry, h.work, hb, hco, hrng]

theorem EntryDone.drawn {t : State} {cfg : CoreCfg} {p : Plan} (h : EntryDone k d cfg p (s.rowsOf n k d).2 t) :
    EntryDone k d cfg p s t := by
  have hco := (s.rowsOf_met n k d).2.1
  have hkept := (UnitsKept.rowsOf s n k d).trans h.kept
  obtain ⟨hbytes, hentry, hcyc, haccs, hmaxs, hrng, hwork, hprog, hunits, -⟩ := h
  rw [hco] at hbytes hentry hcyc hunits
  exact ⟨hbytes, hentry, hcyc, haccs, hmaxs, hrng, hwork, hprog, hunits, hkept⟩

theorem EntryStopped.drawn {t : State} {cfg : CoreCfg} {p : Plan} {u : Nat} (h : EntryStopped k cfg p u (s.rowsOf n k d).2 t) :
    EntryStopped k cfg p u s t := by
  have hco := (s.rowsOf_met n k d).2.1
  have hkept := (UnitsKept.rowsOf s n k d).trans h.kept
  obtain ⟨hbytes, hentry, hcyc, hwork, hprog, haccs, -⟩ := h
  rw [hco] at hbytes hentry hcyc haccs
  exact ⟨hbytes, hentry, hcyc, hwork, hprog, haccs, hkept⟩

/-- An entry that issues and is not stopped before its last cycle runs to its end. -/
theorem State.entry_done {upto : Option Nat} (h : Issues s k sel plan n d)
    (hupto : ∀ u, upto = some u → (s.planNow n k d plan).cyc ≤ u) :
    EntryDone k d (s.coreBanks n k).cfg (s.planNow n k d plan) s (s.entry k upto sel plan) := by
  obtain ⟨-, hco, -, hbad⟩ := s.rowsOf_met n k d
  rw [State.entry_begins upto h]
  refine (State.runPlan_done ?_ ?_ ?_ ?_ (State.firstBad_of_good ?_) hupto).drawn
  · rw [hco]; exact h.supp
  · rw [hco]; exact h.stalled
  · rw [hco]; exact h.prog
  · rw [hco]; exact h.credit
  · simp only [hbad]; exact h.reads

/-- One that is stopped before its last cycle stays the current one. -/
theorem State.entry_stopped {u : Nat} (h : Issues s k sel plan n d) (hu : u < (s.planNow n k d plan).cyc) :
    EntryStopped k (s.coreBanks n k).cfg (s.planNow n k d plan) u s (s.entry k (some u) sel plan) := by
  obtain ⟨-, hco, -, hbad⟩ := s.rowsOf_met n k d
  rw [State.entry_begins (some u) h]
  refine (State.runPlan_stopped ?_ ?_ ?_ ?_ (State.firstBad_of_good ?_) hu).drawn
  · rw [hco]; exact h.supp
  · rw [hco]; exact h.stalled
  · rw [hco]; exact h.prog
  · rw [hco]; exact h.credit
  · simp only [hbad]; exact h.reads

end

/-! ### The cycles of a plan (R131, R503) -/

theorem planMatmul_cyc (b : Banks) (d : Desc) (r : Nat) (accs : List Acc) (g : Rng) :
    (planMatmul b d r accs g).cyc = entryCycles d r b.cfg.dispLen := by
  unfold planMatmul
  extract_lets start width cyc as reads ps
  split
  · rfl
  · split <;> rfl

theorem planOuter_cyc (b : Banks) (d : Desc) (r : Nat) (g : Rng) : (planOuter b d r g).cyc = entryCycles d r b.cfg.dispLen := by
  unfold planOuter
  extract_lets width cyc
  split <;> rfl

theorem planReduce_cyc (b : Banks) (d : Desc) (r : Nat) (accs : List Acc) (maxs : List Val) (g : Rng) :
    (planReduce b d r accs maxs g).cyc = entryCycles d r b.cfg.dispLen := by
  unfold planReduce
  extract_lets kk a rate n cyc
  split <;> rfl

/-! ### The entries -/

/-- A command that runs the entry of a core which a test on its descriptor selects, with a plan that takes the entry's cycles. -/
def RunsEntry (s : State) (c : EntryRun) (e : Instr × (Desc → Bool) × (Banks → Desc → Nat → CoreSt → Rng → Plan)) : Prop :=
  exec e.1 s = done s (s.entry c.core.key c.upto e.2.1 e.2.2) ∧
    ∀ b d r x g, (e.2.2 b d r x g).cyc = entryCycles d r b.cfg.dispLen

/-- The FUNC table that an entry of a core names (R122). -/
def State.coreTable (s : State) (k : Nat) (d : Desc) : List Byte :=
  (s.ctxHolding (corePart k)).elim [] (fun n => s.funcTable n (corePart k) (coreClus k) (d.sub % 16))

theorem exec_func (c : EntryRun) (s : State) : exec (.func c) s = done s (s.entry c.core.key c.upto (fun d => d.op = 5)
    (fun b d r x g => keepAcc x (planFunc b d r (s.coreTable c.core.key d) g))) := by
  show execFunc c s = _
  unfold execFunc State.coreTable
  dsimp only
  cases s.ctxHolding (corePart c.core.key) <;> rfl

/-- Settles O34. -/
theorem coreEntries : Obligations.CoreEntries := by
  unfold Obligations.CoreEntries
  intro s c n d k hwork hprog hstall fn vec red e he
  have hrun : RunsEntry s c e := by
    revert e
    simp only [List.forall_mem_cons, List.not_mem_nil, false_imp_iff, implies_true, and_true]
    have hmatmul (b : Banks) (d : Desc) (r : Nat) (x : CoreSt) (g : Rng) := planMatmul_cyc b d r x.accs g
    have hreduce (b : Banks) (d : Desc) (r : Nat) (x : CoreSt) (g : Rng) := planReduce_cyc b d r x.accs x.maxs g
    exact ⟨⟨rfl, hmatmul⟩, ⟨rfl, hmatmul⟩, ⟨rfl, fun b d r _ g => planOuter_cyc b d r g⟩,
      -- the sub-operations of VEC
      ⟨rfl, fun _ _ _ _ _ => rfl⟩, ⟨rfl, fun _ _ _ _ _ => rfl⟩, ⟨rfl, fun _ _ _ _ _ => rfl⟩, ⟨rfl, fun _ _ _ _ _ => rfl⟩,
      ⟨rfl, fun _ _ _ _ _ => rfl⟩, ⟨rfl, fun _ _ _ _ _ => rfl⟩, ⟨rfl, fun _ _ _ _ _ => rfl⟩, ⟨rfl, fun _ _ _ _ _ => rfl⟩,
      ⟨exec_func c s, fun _ _ _ _ _ => rfl⟩,
      ⟨rfl, hreduce⟩, ⟨rfl, hreduce⟩, ⟨rfl, hreduce⟩, ⟨rfl, hreduce⟩,
      -- CONVERT and the three modes of MOVE
      ⟨rfl, fun _ _ _ _ _ => rfl⟩, ⟨rfl, fun _ _ _ _ _ => rfl⟩, ⟨rfl, fun _ _ _ _ _ => rfl⟩, ⟨rfl, fun _ _ _ _ _ => rfl⟩⟩
  obtain ⟨hexec, hcycles⟩ := hrun
  intro hent hsupp b r all pl hreads hcredit
  have hissues : Issues s k e.2.1 e.2.2 n d := ⟨hent, hwork, hprog, hstall, hsupp, hreads, hcredit⟩
  refine ⟨fun hupto => ?_, fun u hu hlt => ?_⟩
  · have h := State.entry_done hissues hupto
    exact h.kept.runs hexec ⟨h.bytes, h.entry, h.cyc.trans (congrArg ((s.co k).cyc + ·) (hcycles ..)), h.accs, h.maxs, h.rng,
      h.work, h.prog, h.units, h.kept.co, h.kept.eng, h.kept.chan, h.kept.rtr, h.kept.port, h.kept.mem⟩
  · rw [hu] at hexec
    have h := State.entry_stopped hissues hlt
    exact h.kept.runs hexec ⟨h.bytes, h.entry, h.cyc, h.work, h.prog, h.accs, h.kept.co, h.kept.mem⟩

end Sys2Proof.Machine
end

-- Vector and function results

/-! PROOF of O35: where the results of VEC and FUNC stand in an IEEE destination (R111, R121, R122). -/

section
namespace Sys2Proof.Machine

/-! ### The bytes of rounded results -/

/-- The bytes of a result rounded into an IEEE region by a mode that draws nothing. -/
def Res.bytes (fmt addr width rnd : Nat) (x : Res) : List (Nat × Byte) :=
  bytesAt (32 * addr + (x.row * width + x.col) * (fmtBits fmt / 8)) (leBytes (fmtBits fmt / 8) (roundIeee fmt rnd 0 x.v).1)

section
variable {fmt addr width rnd : Nat} {acc : Bool}

theorem roundTo_undrawn (hrnd : rnd ≠ 2) (g : Rng) (v : Val) :
    roundTo fmt rnd g v = ((roundIeee fmt rnd 0 v).1, (roundIeee fmt rnd 0 v).2, g) := by
  unfold roundTo drawIf
  rw [if_neg hrnd]

theorem itemsIeee_bytes (hrnd : rnd ≠ 2) (l : List Res) (g : Rng) :
    (itemsIeee fmt addr width rnd acc l g).1.flatMap Item.bytes = l.flatMap (Res.bytes fmt addr width rnd) := by
  induction l generalizing g with
  | nil => rfl
  | cons x l ih =>
    unfold itemsIeee
    rw [roundTo_undrawn hrnd]
    exact congrArg (Res.bytes fmt addr width rnd x ++ ·) (ih g)

/-- Every result is written in the cycle that produces it. -/
theorem itemsIeee_cyc (l : List Res) (g : Rng) : (itemsIeee fmt addr width rnd acc l g).1.map Item.cyc = l.map Res.cyc := by
  induction l generalizing g with
  | nil => rfl
  | cons x l ih =>
    unfold itemsIeee
    generalize roundTo fmt rnd g x.v = r
    obtain ⟨c, f, g⟩ := r
    exact congrArg (x.cyc :: ·) (ih g)

end

/-! ### The cycles of writes and emissions -/

/-- A write takes place no earlier than in the cycle that produces its result. -/
theorem itemTimes_later {d : Desc} {l : List Item} {i : Item} (h : i ∈ itemTimes d l) : ∃ j ∈ l, j.cyc ≤ i.cyc := by
  unfold itemTimes at h
  split at h
  · exact ⟨i, h, le_rfl⟩
  · obtain ⟨j, hj, rfl⟩ := List.mem_map.1 h
    exact ⟨j, hj, List.foldlRecOn (motive := (j.cyc ≤ ·)) _ _ le_rfl fun m hm u _ => hm.trans (le_max_left _ _)⟩

theorem itemTimes_bytes (d : Desc) (l : List Item) : (itemTimes d l).flatMap Item.bytes = l.flatMap Item.bytes := by
  unfold itemTimes
  split
  · rfl
  · exact List.flatMap_map ..

/-- A unit is complete in the cycle of a write. -/
theorem unitsDone_cyc {l : List Item} {e : Nat × Nat} (h : e ∈ unitsDone l) : ∃ i ∈ l, i.cyc = e.2 := by
  induction l with
  | nil => cases h
  | cons i l ih =>
    rcases List.mem_append.1 h with h | h
    · obtain ⟨u, -, rfl⟩ := List.mem_map.1 h
      exact ⟨i, .head _, rfl⟩
    · obtain ⟨j, hj, e⟩ := ih h
      exact ⟨j, .tail _ hj, e⟩

/-- A plan whose results all come after its issue writes and emits them all. -/
theorem Plan.window_whole {d : Desc} {p : Plan} {l : List Item} (hitems : p.items = itemTimes d l)
    (hemit : p.emit = if d.outEn then (unitsDone l).map (fun e => (e.2, Emit.written e.1)) else [])
    (hpos : ∀ i ∈ l, 0 < i.cyc) : (p.window 0 none).items = p.items ∧ (p.window 0 none).emit = p.emit := by
  refine ⟨List.filter_eq_self.2 fun i hi => ?_, List.filter_eq_self.2 fun e he => ?_⟩
  · rw [hitems] at hi
    obtain ⟨j, hj, hle⟩ := itemTimes_later hi
    simpa using (hpos j hj).trans_le hle
  · rw [hemit] at he
    split at he
    · obtain ⟨x, hx, rfl⟩ := List.mem_map.1 he
      obtain ⟨i, hi, e⟩ := unitsDone_cyc hx
      simpa [← e] using hpos i hi
    · cases he

/-! ### Elements of a destination -/

section
variable {d : Desc} {b : Banks} {p : Plan} {g : Rng} {e : Nat} {f : Nat → Res}

/-- A plan that gives element `i` of an IEEE destination the result `f i`, for the `e` elements of its operands. -/
structure GivesElements (b : Banks) (d : Desc) (g : Rng) (e : Nat) (f : Nat → Res) (p : Plan) : Prop where
  items : p.items = itemTimes d (place b d 1 e false ((List.range e).map f) g).1
  emit : p.emit = if d.outEn then
    (unitsDone (place b d 1 e false ((List.range e).map f) g).1).map (fun x => (x.2, Emit.written x.1)) else []
  place : ∀ i, (f i).row = 0 ∧ (f i).col = i
  later : ∀ i, 0 < (f i).cyc

theorem place_ieee (hfmt : isHank d.fmtD = false) (l : List Res) : place b d 1 e false l g =
    itemsIeee d.fmtD d.addrD e d.rnd (decide (b.cfg.role (d.addrD / 256) = 4)) l g := by
  unfold place
  simp only [hfmt, Bool.false_eq_true, if_false]

theorem GivesElements.whole (h : GivesElements b d g e f p) (hfmt : isHank d.fmtD = false) :
    (p.window 0 none).items = p.items ∧ (p.window 0 none).emit = p.emit := by
  refine Plan.window_whole h.items h.emit fun i hi => ?_
  have hcyc := List.mem_map_of_mem (f := Item.cyc) hi
  rw [place_ieee hfmt, itemsIeee_cyc, List.map_map] at hcyc
  obtain ⟨j, -, hj⟩ := List.mem_map.1 hcyc
  rw [← hj]
  exact h.later j

/-- The accumulators are no part of what a plan writes. -/
theorem GivesElements.keepAcc (h : GivesElements b d g e f p) (c : CoreSt) : GivesElements b d g e f (keepAcc c p) :=
  ⟨h.items, h.emit, h.place, h.later⟩

/-- The bytes of values rounded once into an IEEE destination, element after element. -/
def elemBytesOf (d : Desc) (e : Nat) (v : Nat → Val) : List (Nat × Byte) :=
  (List.range e).flatMap (fun i => bytesAt (32 * d.addrD + i * (fmtBits d.fmtD / 8))
    (leBytes (fmtBits d.fmtD / 8) (roundIeee d.fmtD d.rnd 0 (v i)).1))

theorem GivesElements.bytes (h : GivesElements b d g e f p) (hfmt : isHank d.fmtD = false) (hrnd : d.rnd ≠ 2) :
    (p.window 0 none).items.flatMap Item.bytes = elemBytesOf d e (fun i => (f i).v) := by
  rw [(h.whole hfmt).1, h.items, itemTimes_bytes, place_ieee hfmt, itemsIeee_bytes hrnd, List.flatMap_map, elemBytesOf]
  congr 1
  funext i
  obtain ⟨hrow, hcol⟩ := h.place i
  rw [Res.bytes, hrow, hcol, Nat.zero_mul, Nat.zero_add]

end

/-- The result of element `i` of a VEC entry (R121). -/
def vecRes (b : Banks) (d : Desc) (i : Nat) : Res :=
  let code := d.sub % 16
  let x := vecOp code (b.elem d.fmtA d.addrA i)
    (if !decide (code < 6) then .fin false 0 else if d.sub.testBit 4 then b.scalar d.addrB else b.elem d.fmtB d.addrB i)
    (if code ≠ 3 then .fin false 0 else if d.sub.testBit 5 then b.scalar d.addrX else b.elem d.fmtD d.addrX i)
  ⟨0, i, 10 + ceilDiv (i + 1) 8, x.1, x.2⟩

theorem planVec_elements (b : Banks) (d : Desc) (r : Nat) (g : Rng) :
    GivesElements b d g (32 * d.k * r) (vecRes b d) (planVec b d r g) :=
  ⟨rfl, rfl, fun _ => ⟨rfl, rfl⟩, fun _ => Nat.lt_add_right _ (by decide)⟩

/-- The result of element `i` of a FUNC entry under a table (R122). -/
def funcRes (b : Banks) (d : Desc) (t : List Byte) (i : Nat) : Res :=
  let x := funcEval t d.fmtD (b.elem d.fmtA d.addrA i)
  ⟨0, i, 14 + ceilDiv (i + 1) 2, x.1, x.2⟩

theorem planFunc_elements (b : Banks) (d : Desc) (r : Nat) (t : List Byte) (g : Rng) :
    GivesElements b d g (32 * d.k * r) (funcRes b d t) (planFunc b d r t g) :=
  ⟨rfl, rfl, fun _ => ⟨rfl, rfl⟩, fun _ => Nat.lt_add_right _ (by decide)⟩

theorem vecRes_v (b : Banks) {d : Desc} {code : Nat} (h : d.sub % 16 = code) (i : Nat) : (vecRes b d i).v =
    (vecOp code (b.elem d.fmtA d.addrA i)
      (if 6 ≤ code then .fin false 0 else if d.sub.testBit 4 = true then b.scalar d.addrB else b.elem d.fmtB d.addrB i)
      (if code ≠ 3 then .fin false 0 else if d.sub.testBit 5 = true then b.scalar d.addrX else b.elem d.fmtD d.addrX i)).1 := by
  subst h
  simp only [vecRes, Bool.not_eq_true', decide_eq_false_iff_not, Nat.not_lt]

/-! ### The commands -/

section
variable {s : State} {k n : Nat} {d : Desc} {sel : Desc → Bool} {plan : Banks → Desc → Nat → CoreSt → Rng → Plan}

theorem State.entryAt_some (h : s.entryAt k sel = some (n, d)) : sel d = true ∧ s.ctxHolding (corePart k) = some n := by
  unfold State.entryAt at h
  split at h
  next m hm =>
    split at h
    next hsel =>
      cases h
      simp only [Bool.and_eq_true] at hsel
      refine ⟨hsel.2, ?_⟩
      unfold State.coreCtx at hm
      split at hm
      next x hx =>
        dsimp only at hm
        split at hm
        · cases hm
          exact hx
        · cases hm
      next => cases hm
    next => cases h
  next => cases h

/-- What a command leaves in an IEEE destination, where it runs an entry that gives its elements. -/
theorem State.elements_run {i : Instr} {e : Nat} {f : Nat → Res}
    (hexec : exec i s = done s (s.entry k none sel plan)) (hent : s.entryAt k sel = some (n, d)) (hwork : (s.co k).work = none)
    (hprog : (s.co k).prog = 0) (hstall : (s.co k).stalled = false) (hsupp : (s.co k).supp = 0)
    (hfmt : isHank d.fmtD = false) (hrnd : d.rnd ≠ 2)
    (hgives : GivesElements (s.coreBanks n k) d (s.coreRng n k) e f (s.planNow n k d plan))
    (hgood : (s.planNow n k d plan).reads.all (fun x => !s.unitBad (s.coreBanks n k) k x.2) = true)
    (hcredit : stallAt (s.planNow n k d plan).emit 0 ((s.co k).outHeld d.pout) = none) : Runs i s fun t =>
      ∀ x, Store.get byteZero (t.co k).banks x =
        (s.co k).after (s.coreBanks n k).cfg (elemBytesOf d e (fun i => (f i).v)) x := by
  have hissues : Issues s k sel plan n d :=
    ⟨hent, hwork, hprog, hstall, hsupp,
      List.all_eq_true.2 fun x hx => List.all_eq_true.1 hgood x (List.mem_filter.1 hx).1, by rwa [(hgives.whole hfmt).2]⟩
  have h := State.entry_done (upto := none) hissues fun u hu => by cases hu
  have hbytes := h.bytes
  rw [hgives.bytes hfmt hrnd] at hbytes
  exact h.kept.runs hexec hbytes

end

/-- Settles O35. -/
theorem vectorResults : Obligations.VectorResults := by
  unfold Obligations.VectorResults
  intro s c n d k b r sz bytes hfmt hrnd hsupp hwork hprog hstall
  refine ⟨fun e he => ?_, fun l hent hl hgood hcredit => ?_⟩
  · have hexec : exec e.1 s = done s (s.vecEntry k e.2 none) := by
      revert e
      simp only [List.forall_mem_cons, List.not_mem_nil, false_imp_iff, implies_true, and_true]
      exact ⟨rfl, rfl, rfl, rfl, rfl, rfl, rfl, rfl⟩
    intro hent hgood hcredit
    have hsel := (State.entryAt_some hent).1
    simp only [Bool.and_eq_true, decide_eq_true_eq] at hsel
    have h := State.elements_run hexec hent hwork hprog hstall hsupp hfmt hrnd
      ((planVec_elements b d r (s.coreRng n k)).keepAcc (s.co k)) hgood hcredit
    simp only [vecRes_v b hsel.2] at h
    exact h
  · have hctx := (State.entryAt_some hent).2
    have htable : s.coreTable k d = l := by rw [hl, State.coreTable, hctx]; rfl
    have hexec := exec_func ⟨c, none⟩ s
    subst htable
    have h := State.elements_run hexec hent hwork hprog hstall hsupp hfmt hrnd
      ((planFunc_elements b d r (s.coreTable k d) (s.coreRng n k)).keepAcc (s.co k)) hgood hcredit
    exact h

end Sys2Proof.Machine
end

-- Packets at their endpoint

/-! PROOF of O44. -/

section
namespace Sys2Proof.Machine

/-! ### Packets offered to a router (R212) -/

/-- One packet of those offered to an input: taken in where the buffer has room for it and no packet waits before it. -/
def RtrSt.takeIn (now inp vc : Nat) (x : RtrSt × List Packet) (p : Packet) : RtrSt × List Packet :=
  if x.2.isEmpty && decide (x.1.depth inp vc + p.units ≤ inRoom vc) then (x.1.push inp vc ⟨p, now, none, none, none⟩, [])
  else (x.1, x.2 ++ [p])

theorem RtrSt.letIn_eq (now inp vc : Nat) (r : RtrSt) : r.letIn now inp vc =
    { ((r.offers inp vc).foldl (RtrSt.takeIn now inp vc) (r, [])).1 with
      offer := Store.put (fun _ => []) r.offer (4 * inp + vc) ((r.offers inp vc).foldl (RtrSt.takeIn now inp vc) (r, [])).2 } := rfl

/-- The packets in an input's buffer and those that still wait before it, in order; the buffers of the other inputs stand. -/
structure TakenIn (inp vc : Nat) (l : List Packet) (x y : RtrSt × List Packet) : Prop where
  order : (y.1.queue inp vc).map Queued.pkt ++ y.2 = (x.1.queue inp vc).map Queued.pkt ++ x.2 ++ l
  others : ∀ j, j ≠ 4 * inp + vc → Store.get (fun _ => []) y.1.bufs j = Store.get (fun _ => []) x.1.bufs j

theorem RtrSt.queue_push (r : RtrSt) (inp vc : Nat) (q : Queued) : (r.push inp vc q).queue inp vc = r.queue inp vc ++ [q] :=
  Store.get_upd_same (fun _ => []) r.bufs (4 * inp + vc) (fun l => l ++ [q])

theorem RtrSt.get_push_other (r : RtrSt) {inp vc j : Nat} (q : Queued) (h : j ≠ 4 * inp + vc) :
    Store.get (fun _ => []) (r.push inp vc q).bufs j = Store.get (fun _ => []) r.bufs j :=
  Store.get_upd_other (fun _ => []) r.bufs h (fun l => l ++ [q])

theorem TakenIn.takeIn (now inp vc : Nat) (x : RtrSt × List Packet) (p : Packet) :
    TakenIn inp vc [p] x (RtrSt.takeIn now inp vc x p) := by
  unfold RtrSt.takeIn
  split
  next h =>
    rw [Bool.and_eq_true, List.isEmpty_iff] at h
    refine ⟨?_, fun j hj => x.1.get_push_other _ hj⟩
    dsimp only
    rw [RtrSt.queue_push, h.1, List.map_append, List.append_nil, List.append_nil]
    rfl
  next => exact ⟨(List.append_assoc ..).symm, fun _ _ => rfl⟩

theorem TakenIn.foldl (now inp vc : Nat) (l : List Packet) (x : RtrSt × List Packet) :
    TakenIn inp vc l x (l.foldl (RtrSt.takeIn now inp vc) x) := by
  induction l generalizing x with
  | nil => exact ⟨(List.append_nil _).symm, fun _ _ => rfl⟩
  | cons p l ih =>
    have h1 := TakenIn.takeIn now inp vc x p
    have h2 := ih (RtrSt.takeIn now inp vc x p)
    refine ⟨?_, fun j hj => (h2.others j hj).trans (h1.others j hj)⟩
    rw [List.foldl_cons, h2.order, h1.order, List.append_assoc, List.singleton_append]

/-- Packets are let in in the order of their offers. -/
theorem RtrSt.line_letIn (now inp vc : Nat) (r : RtrSt) : (r.letIn now inp vc).line inp vc = r.line inp vc := by
  have h := (TakenIn.foldl now inp vc (r.offers inp vc) (r, [])).order
  rw [List.append_nil] at h
  rw [RtrSt.letIn_eq]
  refine Eq.trans ?_ h
  exact congrArg (_ ++ ·) (Store.get_put_same ..)

theorem RtrSt.line_letIn_other {now inp vc i c : Nat} (r : RtrSt) (h : 4 * i + c ≠ 4 * inp + vc) :
    (r.letIn now inp vc).line i c = r.line i c := by
  have hb := (TakenIn.foldl now inp vc (r.offers inp vc) (r, [])).others _ h
  rw [RtrSt.letIn_eq]
  exact congrArg₂ (fun q o => q.map Queued.pkt ++ o) hb (Store.get_put_other _ _ h _)

/-- A packet offered to an input, before any is let in. -/
def RtrSt.offered (r : RtrSt) (inp vc : Nat) (p : Packet) : RtrSt :=
  { r with offer := Store.upd (fun _ => []) r.offer (4 * inp + vc) (fun l => l ++ [p]) }

theorem RtrSt.line_offered (r : RtrSt) (inp vc : Nat) (p : Packet) : (r.offered inp vc p).line inp vc = r.line inp vc ++ [p] := by
  have h : (r.offered inp vc p).offers inp vc = r.offers inp vc ++ [p] :=
    Store.get_upd_same (fun _ => []) r.offer (4 * inp + vc) (fun l => l ++ [p])
  rw [RtrSt.line, RtrSt.line, h, ← List.append_assoc]
  rfl

theorem RtrSt.line_offered_other (r : RtrSt) {inp vc i c : Nat} (p : Packet) (hkey : 4 * i + c ≠ 4 * inp + vc) :
    (r.offered inp vc p).line i c = r.line i c := by
  have h : (r.offered inp vc p).offers i c = r.offers i c :=
    Store.get_upd_other (fun _ => []) r.offer hkey (fun l => l ++ [p])
  rw [RtrSt.line, RtrSt.line, h]
  rfl

theorem State.queueAt_eq (s : State) (r inp vc : Nat) (p : Packet) :
    s.queueAt r inp vc p = s.modRt r (fun t => (t.offered inp vc p).letIn s.now inp vc) := rfl

/-- One packet behind the others at an input of a router in a channel, and at no other input. -/
structure SentAt (r inp vc : Nat) (p : Packet) (s t : State) : Prop where
  line : (t.rt r).line inp vc = (s.rt r).line inp vc ++ [p]
  others : ∀ i c, i < 8 → c < 4 → (i, c) ≠ (inp, vc) → (t.rt r).line i c = (s.rt r).line i c
  routers : ∀ k, k ≠ r → t.rt k = s.rt k
  frame : t = { s with rtr := t.rtr }

theorem SentAt.queueAt (s : State) (r inp : Nat) {vc : Nat} (hvc : vc < 4) (p : Packet) :
    SentAt r inp vc p s (s.queueAt r inp vc p) := by
  refine ⟨?_, fun i c _ hc hne => ?_, fun k hk => State.rt_modRt_other s hk _, rfl⟩
  · rw [State.queueAt_eq, State.rt_modRt_same, RtrSt.line_letIn, RtrSt.line_offered]
  · have hkey : 4 * i + c ≠ 4 * inp + vc := fun e => hne (by rw [Prod.mk.injEq]; omega)
    rw [State.queueAt_eq, State.rt_modRt_same, RtrSt.line_letIn_other _ hkey, RtrSt.line_offered_other _ _ hkey]

/-! ### Events counted -/

section
variable {s : State} {c : Instr} {f : Fld}

theorem State.fget_fcount (s : State) (n : Nat) (hf : f.hi < 32) :
    (s.fcount f n).fget f = min (s.fget f + n) (2 ^ f.width - 1) :=
  State.fget_fset_fits s f _ hf (lt_of_le_of_lt (Nat.min_le_right _ _) (Nat.sub_lt (Nat.two_pow_pos _) (by decide)))

/-- A command that counts an event and does nothing else. -/
theorem runs_counted (e : exec c s = done s (s.fcount f 1)) (hf : f.hi < 32) : Runs c s fun t =>
    t.fget f = min (s.fget f + 1) (2 ^ f.width - 1) ∧ OnlyRegs [f.reg] s t :=
  runs_done e rfl rfl rfl ⟨s.fget_fcount 1 hf, .fset s f _ (.head _)⟩

/-- A command that counts an event and raises a message of it. -/
theorem runs_counted_raised {code : Nat} {src : Word} {addr arg : Nat}
    (e : exec c s = done s ((s.fcount f 1).raise code src addr arg)) (hf : f.hi < 32) (hreg : f.reg ∉ faultRegs) :
    Runs c s fun t => t.fget f = min (s.fget f + 1) (2 ^ f.width - 1) ∧
      FaultOnly { s with regs := (s.setReg f.reg (t.reg f.reg)).regs } t := by
  have h := FaultOnly.raise (s.fcount f 1) code src addr arg
  generalize (s.fcount f 1).raise code src addr arg = t at e h
  have hcount : { s with regs := (s.setReg f.reg (t.reg f.reg)).regs } = s.fcount f 1 := by
    rw [h.reg _ hreg, State.fcount, State.reg_fset_same]
    rfl
  refine runs_done e h.pending h.now h.fuses ⟨?_, ?_⟩
  · rw [h.fget f hreg, s.fget_fcount 1 hf]
  · rw [hcount]
    exact h

end

/-! ### Checks at ejection (R211, R274, R359) -/

section
variable {s : State} {p : Packet} {n : Nat} {f : Nat → State → State}

/-- A packet for this module, whole, at an open sluice of a partition that a context holds. -/
structure Reaches (s : State) (p : Packet) (n : Nat) : Prop where
  mod : epMod p.dest = s.modId
  whole : p.whole = true
  opened : (s.pt (epPart p.dest)).closed = false
  ctx : s.ctxHolding (epPart p.dest) = some n

/-- A packet of the slice and epoch of the context that holds its partition. -/
structure Ours (s : State) (p : Packet) (n : Nat) : Prop extends Reaches s p n where
  slice : p.slice.toNat = s.slId n
  form : p.memForm = true
  epoch : p.epochLo.toNat = (s.sliceMap n).epoch % 256

theorem State.eject_closed (hmod : epMod p.dest = s.modId) (hwhole : p.whole = true)
    (hclosed : (s.pt (epPart p.dest)).closed = true) : s.eject p f = s.sluiceRefuse p := by
  unfold State.eject
  simp only [hmod, hwhole, hclosed, ne_eq, not_true_eq_false, decide_false, Bool.not_true, Bool.or_self, Bool.false_eq_true,
    if_false, if_true]

theorem State.eject_reaches (h : Reaches s p n) : s.eject p f =
    if p.slice.toNat ≠ s.slId n || !p.memForm then s.isoEject p
    else if p.epochLo.toNat ≠ (s.sliceMap n).epoch % 256 then s.epochMiss n else f n s := by
  unfold State.eject
  simp only [h.mod, h.whole, h.opened, h.ctx, ne_eq, not_true_eq_false, decide_false, Bool.not_true, Bool.or_self,
    Bool.false_eq_true, if_false]

theorem State.eject_foreign (h : Reaches s p n) (hs : p.slice.toNat ≠ s.slId n) : s.eject p f = s.isoEject p := by
  rw [State.eject_reaches h, if_pos (by simp [hs])]

theorem State.eject_late (h : Reaches s p n) (hs : p.slice.toNat = s.slId n) (hform : p.memForm = true)
    (hepoch : p.epochLo.toNat ≠ (s.sliceMap n).epoch % 256) : s.eject p f = s.epochMiss n := by
  rw [State.eject_reaches h, if_neg (by simp [hs, hform]), if_pos hepoch]

theorem State.eject_ours (h : Ours s p n) : s.eject p f = f n s := by
  rw [State.eject_reaches h.toReaches, if_neg (by simp [h.slice, h.form]), if_neg (not_not.2 h.epoch)]

/-! ### The channel's calibration slot (R41) -/

theorem memDone_waits (hmod : epMod p.dest = s.modId) (hmem : p.isMem = true) (hle : s.now ≤ s.chanFree p.addr.toNat)
    (g : State → State) : memDone s p g = memDone { s with now := s.chanFree p.addr.toNat } p g := by
  have h1 : memDone s p g = doneAt s (s.chanFree p.addr.toNat) g := by
    rw [memDone, if_pos (by rw [Bool.and_eq_true, decide_eq_true_eq]; exact ⟨hmod, hmem⟩)]
  have h2 : memDone { s with now := s.chanFree p.addr.toNat } p g =
      doneAt { s with now := s.chanFree p.addr.toNat } (s.chanFree p.addr.toNat) g := by
    rw [memDone, if_pos (by rw [Bool.and_eq_true, decide_eq_true_eq]; exact ⟨hmod, hmem⟩)]
    rfl
  rw [h1, h2, doneAt, doneAt, max_eq_right hle, max_self]

theorem memDone_now (hfree : s.chanFree p.addr.toNat ≤ s.now) (g : State → State) : memDone s p g = done s (g s) := by
  have hnow : max s.now (if epMod p.dest = s.modId && p.isMem then s.chanFree p.addr.toNat else s.now) = s.now := by
    split
    · exact max_eq_left hfree
    · exact max_self _
  rw [memDone, doneAt, hnow]

/-- A command whose packet meets the checks at ejection. -/
def Ejects (s : State) (p : Packet) (c : Instr) : Prop := ∃ f, exec c s = done s (s.eject p f)

theorem exec_ejects (hfree : s.chanFree p.addr.toNat ≤ s.now) :
    ∀ c ∈ [Instr.row p, .direct p, .stream p, .memWr p, .mirror p, .red p, .memRd p], Ejects s p c := by
  simp only [List.forall_mem_cons, List.not_mem_nil, false_imp_iff, implies_true, and_true]
  exact ⟨⟨_, rfl⟩, ⟨_, rfl⟩, ⟨_, rfl⟩, ⟨_, memDone_now hfree (State.arriveWrite · p)⟩,
    ⟨_, memDone_now hfree (State.arriveWrite · p)⟩, ⟨_, rfl⟩, ⟨_, memDone_now hfree (State.arriveRead · p)⟩⟩

/-! ### Packets turned away at ejection -/

theorem Ejects.closed {c : Instr} (h : Ejects s p c) (hmod : epMod p.dest = s.modId) (hwhole : p.whole = true)
    (hclosed : (s.pt (epPart p.dest)).closed = true) : exec c s = done s (s.sluiceRefuse p) := by
  obtain ⟨f, e⟩ := h
  rw [e, State.eject_closed hmod hwhole hclosed]

theorem Ejects.foreign {c : Instr} (h : Ejects s p c) (hin : Reaches s p n) (hs : p.slice.toNat ≠ s.slId n) :
    Runs c s fun t => t.fget FAB_ISO_EJ.COUNT = min (s.fget FAB_ISO_EJ.COUNT + 1) 65535 ∧
      FaultOnly { s with regs := (s.setReg FAB_ISO_EJ.off (t.reg FAB_ISO_EJ.off)).regs } t := by
  obtain ⟨f, e⟩ := h
  rw [State.eject_foreign hin hs] at e
  exact runs_counted_raised (f := FAB_ISO_EJ.COUNT) e (by decide) (by decide)

theorem Ejects.late {c : Instr} (h : Ejects s p c) (hin : Reaches s p n) (hs : p.slice.toNat = s.slId n)
    (hform : p.memForm = true) (hepoch : p.epochLo.toNat ≠ (s.sliceMap n).epoch % 256) : Runs c s fun t =>
      t.fget FAB_EPOCH_MISS.COUNT = min (s.fget FAB_EPOCH_MISS.COUNT + 1) (2 ^ 24 - 1) ∧
      t.cx n = { s.cx n with misses := (s.cx n).misses + 1 } ∧ (∀ k, k ≠ n → t.cx k = s.cx k) ∧
      t = { s with regs := t.regs, ctx := t.ctx } ∧ ∀ o, o ≠ FAB_EPOCH_MISS.off → t.reg o = s.reg o := by
  obtain ⟨f, e⟩ := h
  rw [State.eject_late hin hs hform hepoch] at e
  refine runs_done e rfl rfl rfl ⟨s.fget_fcount (f := FAB_EPOCH_MISS.COUNT) 1 (by decide), State.cx_modCx_same .., fun k hk => ?_,
    rfl, fun o ho => State.reg_fset_other s FAB_EPOCH_MISS.COUNT _ ho⟩
  exact State.cx_modCx_other (s.fcount FAB_EPOCH_MISS.COUNT 1) hk _

/-! ### In ports (R110, R289, R290) -/

/-- A packet of the current tick at an in port that its type fits: a duplicate is counted, another one lands. -/
theorem State.landing_fits {k : Nat} {port : Bool} (hctx : s.ctxHolding (corePart k) = some n) (ht : s.takes n p = true)
    (hcap : ((s.coreCfg n k).inw port).cap ≠ 0) (hfits : modeFits ((s.coreCfg n k).inw port).mode p = true)
    (hseq : p.seq.toNat < p.count.toNat) : s.landing k port p =
      if ((s.co k).inp port).holds p then s.fcount (PRT_RED_DUP.N (corePart k)) 1
      else s.modCo k (fun c => (c.landPacket (s.coreCfg n k) port p).modIn port (fun x => x.count p)) := by
  unfold State.landing
  simp only [hctx, ht, hcap, hfits, Nat.not_le.2 hseq, Bool.not_true, decide_false, Bool.or_self, Bool.false_eq_true, if_false]

/-- The core that an endpoint word names. -/
def destCore (w : Word) : Nat := (epPart w * 75 + epClus w) * 250 + epCore w

theorem corePart_destCore {w : Word} (hclus : epClus w < 75) (hcore : epCore w < 250) : corePart (destCore w) = epPart w := by
  unfold corePart destCore
  omega

/-- A packet of the current tick for the core that its DEST names. -/
theorem State.arriveCore_ours (h : Ours s p n) (hclus : epClus p.dest < 75) (hcore : epCore p.dest < 250) :
    s.arriveCore p = s.landing (destCore p.dest) (epPort p.dest) p := by
  unfold State.arriveCore
  rw [State.eject_ours h, if_pos (by rw [Bool.and_eq_true, decide_eq_true_eq, decide_eq_true_eq]; exact ⟨hclus, hcore⟩)]
  rfl

/-- What a command whose packet lands at an in port leaves. -/
theorem runs_arriveCore {c : Instr} (e : exec c s = done s (s.arriveCore p)) (h : Ours s p n) (ht : s.takes n p = true)
    (hseq : p.seq.toNat < p.count.toNat) (hclus : epClus p.dest < 75) (hcore : epCore p.dest < 250)
    (hcap : ((s.coreCfg n (destCore p.dest)).inw (epPort p.dest)).cap ≠ 0)
    (hfits : modeFits ((s.coreCfg n (destCore p.dest)).inw (epPort p.dest)).mode p = true) :
    (((s.co (destCore p.dest)).inp (epPort p.dest)).holds p = false → Runs c s fun t =>
      t.co (destCore p.dest) = ((s.co (destCore p.dest)).landPacket (s.coreCfg n (destCore p.dest)) (epPort p.dest) p).modIn
        (epPort p.dest) (fun x => x.count p) ∧ OnlyCore (destCore p.dest) s t) ∧
    (((s.co (destCore p.dest)).inp (epPort p.dest)).holds p = true → Runs c s fun t =>
      t.fget (PRT_RED_DUP.N (epPart p.dest)) = min (s.fget (PRT_RED_DUP.N (epPart p.dest)) + 1) 65535 ∧
      OnlyRegs [PRT_RED_DUP.off (epPart p.dest)] s t) := by
  have hpart := corePart_destCore hclus hcore
  rw [State.arriveCore_ours h hclus hcore, State.landing_fits (by rw [hpart]; exact h.ctx) ht hcap hfits hseq, hpart] at e
  refine ⟨fun hx => ?_, fun hx => ?_⟩
  · rw [if_neg (by rw [hx]; decide)] at e
    exact runs_onlyCore e (.modCo s _ _) ⟨State.co_modCo_same .., .modCo s _ _⟩
  · rw [if_pos hx] at e
    exact runs_counted e (show 15 < 32 by decide)

/-! ### Writes (R110, R290) -/

/-- A write of the current tick: a duplicate is counted, another one stores its payload. -/
theorem State.arriveWrite_ours (h : Ours s p n) (ht : s.takes n p = true) (hseq : p.seq.toNat < p.count.toNat)
    (hrange : mlaRange p.addr.toNat (max 1 p.payload.length) = true) : s.arriveWrite p =
      if (countMsg (s.pt (epPart p.dest)).msgs p).2 then s.fcount (PRT_RED_DUP.N (epPart p.dest)) 1
      else (s.modPt (epPart p.dest) (fun t => { t with msgs := (countMsg (s.pt (epPart p.dest)).msgs p).1 })).memWrite
        p.addr.toNat p.payload := by
  unfold State.arriveWrite
  rw [State.eject_ours h]
  simp only [ht, hrange, Nat.not_le.2 hseq, Bool.not_true, Bool.or_self, Bool.false_eq_true, if_false]

theorem runs_arriveWrite {c : Instr} (e : exec c s = done s (s.arriveWrite p)) (h : Ours s p n) (ht : s.takes n p = true)
    (hseq : p.seq.toNat < p.count.toNat) (hrange : mlaRange p.addr.toNat (max 1 p.payload.length) = true) :
    (∀ l, countMsg (s.pt (epPart p.dest)).msgs p = (l, false) → Runs c s fun t =>
      (∀ x, t.memGet x = if p.addr.toNat ≤ x ∧ x < p.addr.toNat + p.payload.length then p.payload.getD (x - p.addr.toNat) 0
        else s.memGet x) ∧
      t.pt (epPart p.dest) = { s.pt (epPart p.dest) with msgs := l } ∧ (∀ q, q ≠ epPart p.dest → t.pt q = s.pt q) ∧
      t = { s with mem := t.mem, memBad := t.memBad, part := t.part }) ∧
    (∀ l, countMsg (s.pt (epPart p.dest)).msgs p = (l, true) → Runs c s fun t =>
      t.fget (PRT_RED_DUP.N (epPart p.dest)) = min (s.fget (PRT_RED_DUP.N (epPart p.dest)) + 1) 65535 ∧
      OnlyRegs [PRT_RED_DUP.off (epPart p.dest)] s t) := by
  rw [State.arriveWrite_ours h ht hseq hrange] at e
  refine ⟨fun l hl => ?_, fun l hl => ?_⟩
  · rw [hl, if_neg Bool.false_ne_true] at e
    refine runs_done e rfl rfl rfl ⟨fun x => State.memGet_memWrite .., ?_, fun q hq => ?_, rfl⟩
    · rw [State.pt_memWrite_frame, State.pt_modPt_same]
    · rw [State.pt_memWrite_frame, State.pt_modPt_other s hq]
  · rw [hl, if_pos rfl] at e
    exact runs_counted e (show 15 < 32 by decide)

/-! ### Reads (R210, R211, R359) -/

/-- The reply to a read in one packet. -/
def readReply (p : Packet) (aux : Nat) (data : List Byte) : Packet := Packet.sealed { p with
  typ := 6, cls := 1, last := true, len := BitVec.ofNat 11 data.length, esc := false, dest := p.src, src := p.dest,
  count := 1, seq := 0, aux := BitVec.ofNat 8 aux, payload := data }

/-- The router of the channel that a read names. -/
def State.readRtr (s : State) (p : Packet) : Nat := meshKey (epPart p.dest) (s.memRtr (epPart p.dest) (mlaChan p.addr.toNat))

/-- A read answered in one packet, at the router of its channel. -/
theorem State.memReply_spec (hup : s.dieDown (epPart p.dest) = false) (aux : Nat) (data : List Byte) :
    SentAt (s.readRtr p) 5 1 (readReply p aux data) s (s.memReply p aux 1 0 data) := by
  have e : s.memReply p aux 1 0 data = s.queueAt (s.readRtr p) 5 1 (readReply p aux data) := by
    unfold State.memReply
    rw [if_neg (by rw [hup]; decide)]
    rfl
  rw [e]
  exact .queueAt s _ _ (by decide) _

theorem SentAt.runs {c : Instr} {r inp vc : Nat} {q : Packet} {t : State} (h : SentAt r inp vc q s t)
    (e : exec c s = done s t) : Runs c s (SentAt r inp vc q s) :=
  runs_done e (by rw [h.frame]) (by rw [h.frame]) (by rw [h.frame]) h

/-- Data that fills one chunk at most. -/
theorem chunks_one {α : Type} {m f : Nat} {l : List α} (hl : l ≠ []) (hm : l.length ≤ m) : chunks m (f + 1) l = [l] := by
  have hnil : ∀ g, chunks m g ([] : List α) = [] := fun g => by cases g <;> rfl
  rw [chunks, if_neg (by simpa using hl), List.take_of_length_le hm, List.drop_of_length_le hm, hnil]

theorem State.memRead_length (s : State) (a m : Nat) : (s.memRead a m).length = m := by
  simp [State.memRead]

/-- A read of up to 32 units that meets no parity hit is answered with its data. -/
theorem State.arriveRead_ours (h : Ours s p n) (haux : p.aux.toNat < 32)
    (hrange : mlaRange p.addr.toNat (32 * (p.aux.toNat + 1)) = true)
    (hgood : s.memFail p.addr.toNat (32 * (p.aux.toNat + 1)) = none) :
    s.arriveRead p = s.memReply p 0 1 0 (s.memRead p.addr.toNat (32 * (p.aux.toNat + 1))) := by
  have hlen := s.memRead_length p.addr.toNat (32 * (p.aux.toNat + 1))
  have hone : chunks 1024 (32 * (p.aux.toNat + 1)) (s.memRead p.addr.toNat (32 * (p.aux.toNat + 1))) =
      [s.memRead p.addr.toNat (32 * (p.aux.toNat + 1))] := by
    obtain ⟨f, hf⟩ : ∃ f, 32 * (p.aux.toNat + 1) = f + 1 := ⟨32 * p.aux.toNat + 31, by omega⟩
    rw [hf] at hlen ⊢
    exact chunks_one (List.ne_nil_of_length_pos (by omega)) (by omega)
  unfold State.arriveRead
  rw [State.eject_ours h]
  simp only [hrange, hgood, hone, Option.isSome_none, Bool.not_true, Bool.false_eq_true, if_false]
  rfl

/-! ### Replies (R164, R360) -/

theorem State.arriveReply_closed (hmod : epMod p.dest = s.modId) (hclosed : (s.pt (epPart p.dest)).closed = true) :
    s.arriveReply p = s.fcount (PRT_SLU_CNT.ABSORBED (epPart p.dest)) 1 := by
  unfold State.arriveReply
  simp only [hmod, hclosed, ne_eq, not_true_eq_false, if_false, if_true]

theorem State.arriveReply_stale (hmod : epMod p.dest = s.modId) (hopen : (s.pt (epPart p.dest)).closed = false)
    (hgen : p.gen.toNat ≠ s.gen (epPart p.dest)) : s.arriveReply p =
      (s.fcount (PRT_RST_STALE.N (epPart p.dest)) 1).raise 0x0403 (srcWord (epPart p.dest) 0 0) 0 p.gen.toNat := by
  unfold State.arriveReply
  simp only [hmod, hopen, hgen, ne_eq, not_true_eq_false, not_false_eq_true, Bool.false_eq_true, if_false, if_true]

/-- A read that a reply has answered is no longer awaited. -/
def State.readDone (s : State) (r : Packet × Nat) : State :=
  { s with fab := { s.fab with reads := s.fab.reads.filter (fun x => x ≠ r) } }

theorem State.arriveReply_awaited {r : Packet × Nat} (h : Ours s p n) (hgen : p.gen.toNat = s.gen (epPart p.dest))
    (hr : s.fab.reads.find? (fun e => e.1.msg = p.msg && e.1.dest = p.src) = some r) : s.arriveReply p =
      (s.readDone r).restoreGroup (mlaPart r.2) (mlaChan r.2) (mlaCda r.2 / 512) p.payload := by
  unfold State.arriveReply
  simp only [h.mod, h.opened, hgen, ne_eq, not_true_eq_false, Bool.false_eq_true, if_false]
  rw [State.eject_ours h]
  simp only [hr]
  rfl

/-- A repair that is complete. -/
theorem State.repaired_frame (s : State) (r : Repair) :
    s.repaired r = { s with ctx := (s.repaired r).ctx, clus := (s.repaired r).clus } := by
  refine State.each_inv (P := fun t => t = { s with ctx := t.ctx, clus := t.clus }) rfl fun i _ t ht => ?_
  have h := (RepairEnded.endRepair t i r).2.2
  rw [ht] at h ⊢
  exact h

/-- A group written from the buddy's copy. -/
theorem State.restoreGroup_writes {q k g o a : Nat} {data : List Byte} (ha : mlaOf q k (512 * g) = a)
    (hctx : s.ctxHolding q = some o) (hg : g < chanGroups) (htype : s.mlaType a = 1 ∨ s.mlaType a = 2)
    (hsrc : (s.mirrorSrc o (8 * q + k) a).isSome = true) (hlen : data.length = 512) : s.restoreGroup q k g data =
      ((s.memWrite a data).settleAction (groupKey a) 1).repaired (.restore (Fin.ofNat 16 q) (Fin.ofNat 8 k) g) := by
  have hnone : (s.mirrorSrc o (8 * q + k) a).isNone = false := Option.isNone_eq_false_iff.2 hsrc
  unfold State.restoreGroup
  simp only [hctx, ha]
  rw [if_neg (by rcases htype with e | e <;> simp [e, hg, hnone]), if_neg (not_not.2 hlen)]

/-- What the reply leaves that a restore awaits. -/
theorem runs_restored {r : Packet × Nat} {o a : Nat} (ha : mlaOf (mlaPart r.2) (mlaChan r.2) (512 * (mlaCda r.2 / 512)) = a)
    (h : Ours s p n) (hgen : p.gen.toNat = s.gen (epPart p.dest))
    (hr : s.fab.reads.find? (fun e => e.1.msg = p.msg && e.1.dest = p.src) = some r)
    (hctx : s.ctxHolding (mlaPart r.2) = some o) (hg : mlaCda r.2 / 512 < chanGroups)
    (htype : s.mlaType a = 1 ∨ s.mlaType a = 2) (hsrc : (s.mirrorSrc o (8 * mlaPart r.2 + mlaChan r.2) a).isSome = true)
    (hlen : p.payload.length = 512) : Runs (.memRdr p) s fun t =>
      (∀ x, t.memGet x = if a ≤ x ∧ x < a + 512 then p.payload.getD (x - a) 0 else s.memGet x) ∧
      t.fab.reads = s.fab.reads.filter (fun e => e ≠ r) ∧ t.core = s.core ∧ t.eng = s.eng := by
  have e : exec (.memRdr p) s = done s (s.arriveReply p) := rfl
  rw [State.arriveReply_awaited h hgen hr, State.restoreGroup_writes (s := s.readDone r) ha hctx hg htype hsrc hlen] at e
  have hsettle : NoteOnly ((s.readDone r).memWrite a p.payload) (((s.readDone r).memWrite a p.payload).settleAction (groupKey a) 1) :=
    .settle _ _ _ (by decide)
  generalize ((s.readDone r).memWrite a p.payload).settleAction (groupKey a) 1 = v at e hsettle
  have hframe := v.repaired_frame (.restore (Fin.ofNat 16 (mlaPart r.2)) (Fin.ofNat 8 (mlaChan r.2)) (mlaCda r.2 / 512))
  generalize v.repaired (.restore (Fin.ofNat 16 (mlaPart r.2)) (Fin.ofNat 8 (mlaChan r.2)) (mlaCda r.2 / 512)) = t at e hframe
  have hmem (x : Nat) : t.memGet x = ((s.readDone r).memWrite a p.payload).memGet x := by
    rw [hframe]
    exact congrArg (Store.get byteZero · x) hsettle.mem
  refine runs_done e ?_ ?_ ?_ ⟨fun x => ?_, ?_, ?_, ?_⟩
  case refine_4 =>
    rw [hmem, State.memGet_memWrite, hlen]
    rfl
  all_goals rw [hframe]
  · exact hsettle.pending
  · exact hsettle.now
  · exact hsettle.fuses
  · exact congrArg FabSt.reads hsettle.fab
  · exact hsettle.core
  · exact hsettle.eng

end

/-- Settles O44. -/
theorem packetArrivals : Obligations.PacketArrivals := by
  unfold Obligations.PacketArrivals
  intro s p hmod hwhole d a rd reply answered ours
  have hours {n : Nat} (h : ours n) : Ours s p n := by
    obtain ⟨hopen, hctx, hslice, hform, hepoch⟩ := h
    exact ⟨⟨hmod, hwhole, hopen, hctx⟩, hslice, hform, hepoch⟩
  have hanswered {aux : Nat} {data : List Byte} {t : State} (h : SentAt rd 5 1 (reply aux data) s t) : answered aux data t :=
    ⟨h.line, h.others, h.routers, h.frame⟩
  refine ⟨fun hmem hle c hc => ?_, fun hfree => ?_⟩
  · simp only [List.mem_cons, List.not_mem_nil, or_false] at hc
    rcases hc with rfl | rfl | rfl
    · exact memDone_waits hmod hmem hle (State.arriveWrite · p)
    · exact memDone_waits hmod hmem hle (State.arriveWrite · p)
    · exact memDone_waits hmod hmem hle (State.arriveRead · p)
  have hread : exec (.memRd p) s = done s (s.arriveRead p) := memDone_now hfree (State.arriveRead · p)
  refine ⟨fun hclosed => ⟨fun h5 h6 c hc => ?_, fun h5 hup => ?_, ?_⟩, fun c hc hopen => ?_, fun n h ht hseq hclus hcore => ?_,
    fun n h ht hseq hrange c hc => ?_, fun n h haux hrange hgood hup => ?_, fun hgen hopen => ?_, fun n r h hgen hr => ?_⟩
  · have e := (exec_ejects hfree c (List.mem_append_left [Instr.memRd p] hc)).closed hmod hwhole hclosed
    unfold State.sluiceRefuse at e
    rw [if_neg h5, if_neg h6] at e
    exact runs_counted e (show 15 < 32 by decide)
  · have e := (exec_ejects hfree (.memRd p) (by simp)).closed hmod hwhole hclosed
    unfold State.sluiceRefuse at e
    rw [if_pos h5] at e
    exact ((State.memReply_spec hup 1 []).runs e).imp fun _ ht => hanswered ht
  · have e : exec (.memRdr p) s = done s (s.arriveReply p) := rfl
    rw [State.arriveReply_closed hmod hclosed] at e
    exact runs_counted e (show 31 < 32 by decide)
  · have hej := exec_ejects hfree c hc
    exact ⟨fun n hctx hs => hej.foreign ⟨hmod, hwhole, hopen, hctx⟩ hs,
      fun n hctx hs hform hepoch => hej.late ⟨hmod, hwhole, hopen, hctx⟩ hs hform hepoch⟩
  · intro k x hcap hfits c hc
    have e : exec c s = done s (s.arriveCore p) := by
      revert c
      simp only [List.forall_mem_cons, List.not_mem_nil, false_imp_iff, implies_true, and_true]
      exact ⟨rfl, rfl, rfl⟩
    exact runs_arriveCore e (hours h) ht hseq hclus hcore hcap hfits
  · have e : exec c s = done s (s.arriveWrite p) := by
      revert c
      simp only [List.forall_mem_cons, List.not_mem_nil, false_imp_iff, implies_true, and_true]
      exact ⟨memDone_now hfree (State.arriveWrite · p), memDone_now hfree (State.arriveWrite · p)⟩
    exact runs_arriveWrite e (hours h) ht hseq hrange
  · rw [State.arriveRead_ours (hours h) haux hrange hgood] at hread
    exact ((State.memReply_spec hup 0 _).runs hread).imp fun _ ht => hanswered ht
  · have e : exec (.memRdr p) s = done s (s.arriveReply p) := rfl
    rw [State.arriveReply_stale hmod hopen hgen] at e
    refine runs_counted_raised (f := PRT_RST_STALE.N d) e (show 15 < 32 by decide) (notMem_faultRegs (.inr ?_))
    show 0x50000 ≤ PRT_RST_STALE.off d
    rw [PRT_RST_STALE.off]
    omega
  · intro g o hctx hg htype hsrc hlen
    exact runs_restored rfl (hours h) hgen hr hctx hg htype hsrc hlen

end Sys2Proof.Machine
end
